-- ==== Sys2Proof/Word.lean ====
section
/-! DEFINITION. The word types of the model: a byte, and the pairs every sparse store is a list of. -/

namespace Sys2Proof

/-- One byte of a message, a frame or a store (R10: multi-byte fields are little-endian lists of these). -/
abbrev Byte := BitVec 8

/-- A sparse store: key and value pairs with strictly rising keys, holding no entry equal to what its key
reads as when unlisted. Used for parameters, memories and tables. -/
abbrev Store (α : Type) := List (Nat × α)

end Sys2Proof
end

