-- ==== Sys2Proof/Config.lean ====
section
/-! DEFINITION. What a unit or an implementation fixes (identity fuses, the image's numbers, results inside
an error bound) and the free values: constants without a body, so that nothing can be proved of a value the spec leaves open. -/

namespace Sys2Proof.Config

/-- The unit serial number SERIAL_LO/SERIAL_HI (R108): programmed at final test, opaque to the host. [DESIGN CHOICE, notes/assumptions/5] -/
opaque serial : BitVec 64
/-- The grade fuse behind `id.grade` (R3): false C, true I. [DESIGN CHOICE, notes/assumptions/5] -/
opaque gradeIndustrial : Bool
/-- The JTAG IDCODE register (R459): its version and manufacturer fields are the unit's. [DESIGN CHOICE, notes/assumptions/5] -/
opaque jtagIdcode : BitVec 32
/-- The hash that turns a source address into the 32 bits of SESSION_TAKEN (R141); the hash function is not given. [DESIGN CHOICE, notes/assumptions/7] -/
opaque addressHash : Nat → BitVec 32
/-- Which integer within ±1 unit of 16 × |z| the CORDIC's magnitude is (R192). [DESIGN CHOICE, notes/assumptions/6] -/
opaque cordicMagnitude : Int → Int → Nat
/-- CORDIC rotation of `y` by `-delta` (R191 step 3): real part. [DESIGN CHOICE, notes/assumptions/6] -/
opaque cordicRotateRe : Int → Int → BitVec 16 → Int
/-- CORDIC rotation of `y` by `-delta` (R191 step 3): imaginary part. [DESIGN CHOICE, notes/assumptions/6] -/
opaque cordicRotateIm : Int → Int → BitVec 16 → Int
/-- What a slot's samples become at 1.6 GS/s (R151 steps 3 to 5), by N and k: the shaping filter's, the interpolator's and the
oscillator's coefficients are not given. [DESIGN CHOICE, notes/assumptions/124] -/
opaque slotSignal : Nat → Nat → List (Int × Int) → List (Int × Int)
/-- Bits of the survey's BIPHASE glyph in the Quill's ROM (R175). [DESIGN CHOICE, notes/assumptions/124] -/
opaque surveyGlyphBit : Nat → Bool
/-- The LMONp comparator's output at a tick (R158, R161), by port, tick and threshold: the board's light. [DESIGN CHOICE, notes/assumptions/125] -/
opaque comparatorLevel : Nat → Nat → Nat → Bool
/-- The fractional-delay filter of R184 step 2, by skew in fs, over 8 samples of an input: its coefficients are not given. [DESIGN CHOICE, notes/assumptions/123] -/
opaque skewFilter : Int → List Int → Int
/-- a and b of R184 step 4 in sQ1.16, from IQ gain in 0.001 dB and IQ phase in 0.001 degree: their derivation is not given. [DESIGN CHOICE, notes/assumptions/123] -/
opaque iqCoefficients : Int → Int → Int × Int
/-- The 18-bit cosine and sine of the channeliser at a phase of `j` of `m` parts of a turn (R188 step 1). [DESIGN CHOICE, notes/assumptions/123] -/
opaque channelPhase : Nat → Nat → Int × Int
/-- The 48 × N s18 coefficients of the channeliser's ROM (R188 step 2). [DESIGN CHOICE, notes/assumptions/123] -/
opaque channelTaps : Nat → List Int
/-- A played glyph through the shaping filter and a slot's channeliser filter and decimation (R189), by N and k. [DESIGN CHOICE, notes/assumptions/123] -/
opaque matchedBase : Nat → Nat → List (Int × Int) → List (Int × Int)
/-- By how much the compression engine's result differs from the exact sum (R190), before its bound of 2 LSB: by S, x and h. [DESIGN CHOICE, notes/assumptions/123] -/
opaque compressionError : Nat → List (Int × Int) → List (Int × Int) → Int × Int
/-- Ticks after which a DRAM or PCIe PLL (2 to 4) relocks from a loss at a tick (R69): no time is given. [DEDUCED, notes/assumptions/56] -/
opaque relockTicks : Nat → Nat → Nat
/-- L1.2 is enabled on the PCIe endpoint (R76): the host's setting under PCIe Base 4.0, outside the registers of this specification. [DESIGN CHOICE, notes/assumptions/128] -/
opaque l12Enabled : Bool
/-- Which integer within ±2 units of the exact ln(a/b) the device finds (R282, R295 step 2); all of it where the ratio has no logarithm. [DESIGN CHOICE, notes/assumptions/6] -/
opaque lnRatio : Int → Int → Int
/-- Which integer inside the error of R295 step 4 a temperature is, in 0.01 °C, by T_ref, γ, x and the coefficients. [DESIGN CHOICE, notes/assumptions/6] -/
opaque thermalCenti : Int → Int → Int → List Int → Int
/-- The solution that Newton's iteration reaches where the model of R287 does not rise, or R lies outside its range. [DESIGN CHOICE, notes/assumptions/6] -/
opaque cvdTemperature : Int → Int → Int → Int → Int → Int
/-- Does an image's signature verify over header and body (R97)? The header's layout is not given. [DESIGN CHOICE, notes/assumptions/7] -/
opaque imageVerifies : List Byte → Bool
/-- Version, security version, and lowest and highest record format of an image's header (R97). [DESIGN CHOICE, notes/assumptions/7] -/
opaque imageHeader : List Byte → BitVec 32 × Nat × Nat × Nat
/-- Version of the image the unit was delivered with (`fw.version`, R101). [DESIGN CHOICE, notes/assumptions/5] -/
opaque factoryVersion : BitVec 32
/-- `tdc.mean_lsb` of a sum and count whose mean is no whole number of 1/256 LSB (R419): the rounding is not given. [DESIGN CHOICE, notes/assumptions/9] -/
opaque tdcMean : Int → Nat → Int
/-- `tdc.sdev_lsb` of the results of a series (R419): neither the estimator nor its rounding is given. [DESIGN CHOICE, notes/assumptions/9] -/
opaque tdcSdev : List Int → Nat
/-- A phase error over a divisor as a rate in parts per 10^12 (R409): the resolution of the loop's terms is not given. [DESIGN CHOICE, notes/assumptions/9] -/
opaque syncTerm : Int → Int → Int
/-- A PTP result in picoseconds as the whole nanoseconds a parameter reports (R399, R423): the rounding is not given. [DESIGN CHOICE, notes/assumptions/9] -/
opaque ptpRound : Int → Int
/-- MAC address of an Ethernet port, from the boot record (R446). [DESIGN CHOICE, notes/assumptions/5] -/
opaque macAddress : Nat → BitVec 48
/-- The MAILBOX frame that repeats the banks to the standby (R483): its layout is not given. [DESIGN CHOICE, notes/assumptions/8] -/
opaque replicaBanks : Nat → Option Nat → Bool → List (BitVec 8)
/-- The MAILBOX frame that repeats a PROG_LOAD (index and image CRC) or a PROG_DELETE to the standby (R483). [DESIGN CHOICE, notes/assumptions/8] -/
opaque replicaProgram : Nat → Option Nat → List (BitVec 8)
/-- COPY segments of an epoch, and whether they are a FINAL copy (R481, R485): their layout is not given. [DESIGN CHOICE, notes/assumptions/8] -/
opaque copySegments : Nat → Bool → List (BitVec 8)
/-- COPY_ACK of an epoch (R481): its layout is not given. [DESIGN CHOICE, notes/assumptions/8] -/
opaque copyAck : Nat → List (BitVec 8)
/-- Type byte of a HEALTH frame (R468): only the bark's is given. [DESIGN CHOICE, notes/assumptions/8] -/
opaque healthType : BitVec 8
/-- Traffic of a DRAM requester over the last second, in MB/s, at a time in ticks (`mem.req[i].mbps`, R393): a measurement. [DESIGN CHOICE, notes/assumptions/9] -/
opaque requesterMbps : Nat → Nat → Nat
/-- Factory value of a calibration field, by item, index and field (R526): one-time-programmable memory of the unit. [DESIGN CHOICE, notes/assumptions/5] -/
opaque factoryField : Nat → Nat → Nat → Int
/-- Factory value of the internal 1.25 V reference (input 30) as a code (R533). [DESIGN CHOICE, notes/assumptions/5] -/
opaque referenceFactory : Nat
/-- `ring.span_ms` of a ring that holds this many bytes and into which nothing was coded for 10 s: R27's rate is then 0. [DESIGN CHOICE, notes/assumptions/115] -/
opaque idleSpan : Nat → Nat
/-- The free value drawn by a step whose result the spec leaves open: applied to the counter `State.free`. [DESIGN CHOICE, notes/assumptions/4; DESIGN CHOICE, notes/assumptions/80] -/
opaque freeValue : Nat → Nat

/-- Does the work of a journaled command of this opcode and number of steps last longer than 10 ms (R131)? [DESIGN CHOICE, notes/assumptions/134] -/
opaque longWork : Nat → Nat → Bool

/-- SHA-256 digest in an image's header (R97), whose layout is not given. [DESIGN CHOICE, notes/assumptions/137] -/
opaque imageDigest : List Byte → BitVec 256
/-- The signature of an image (R97). [DESIGN CHOICE, notes/assumptions/137] -/
opaque imageSignature : List Byte → BitVec 512

/-- Hash of the public key in one-time-programmable memory (R97). [DESIGN CHOICE, notes/assumptions/137] -/
opaque keyHash : BitVec 256

/-- One band's filter (R218): two biquads whose coefficients the spec derives from the band edges in Hz and the processed-round rate
N / (P × d) without stating the design; from [lo, hi, N, P, d], the filter's state and the next strain rate, its next state and its output. [DESIGN CHOICE, notes/assumptions/143] -/
opaque bandFilter : List Nat → Nat → Int → Nat × Int

/-- From F, the last F strain rates, newest first, and k: the magnitude of bin k of SPECTRUM in 1/256 dB (R217); the window is not
stated. [DESIGN CHOICE, notes/assumptions/143] -/
opaque spectrumBin : Nat → List Int → Nat → BitVec 16

end Sys2Proof.Config
end

