-- ==== Sys2Proof/Machine/Base.lean ====
section
/-! DEFINITION. Operations on plain data: sparse stores in canonical form, little-endian bytes, rounding and
saturating arithmetic, and the CRC-32C of messages, frames and records. -/

namespace Sys2Proof.Machine

/-- What key `k` of a store reads as; `d` gives what an unlisted key reads as. [DESIGN CHOICE, notes/assumptions/108] -/
def Store.read {α : Type} (d : Nat → α) (s : Store α) (k : Nat) : α :=
  match s with
  | [] => d k
  | (j, v) :: t => if j = k then v else Store.read d t k

/-- The entry of key `k`, if one is listed. -/
def Store.get? {α : Type} (s : Store α) (k : Nat) : Option α := (s.find? fun e => e.1 == k).map (·.2)

/-- Remove key `k` from a store. -/
def Store.erase {α : Type} (s : Store α) (k : Nat) : Store α :=
  match s with
  | [] => []
  | (j, v) :: t => if j = k then t else (j, v) :: Store.erase t k

/-- Put value `v` at key `k`, keeping the keys rising. -/
def Store.put {α : Type} (s : Store α) (k : Nat) (v : α) : Store α :=
  match s with
  | [] => [(k, v)]
  | (j, w) :: t =>
    if k < j then (k, v) :: (j, w) :: t
    else if j = k then (k, v) :: t
    else (j, w) :: Store.put t k v

/-- Write `v` at key `k`: writing what an unlisted key reads as removes the entry (canonical form). -/
def Store.write {α : Type} [DecidableEq α] (d : Nat → α) (s : Store α) (k : Nat) (v : α) : Store α :=
  if v = d k then Store.erase s k else Store.put s k v

/-- Apply `f` to every listed value, keeping the canonical form. -/
def Store.update {α : Type} [DecidableEq α] (d : Nat → α) (f : α → α) (s : Store α) : Store α :=
  (s.map fun e => (e.1, f e.2)).filter fun e => decide (e.2 ≠ d e.1)

/-- Keep the entries whose key satisfies `f`; the others read as unlisted. -/
def Store.restrict {α : Type} (f : Nat → Bool) (s : Store α) : Store α := s.filter fun e => f e.1

/-- Keys of `s` strictly rise and all lie above `lo`. -/
def Store.rising {α : Type} (lo : Nat) (s : Store α) : Bool :=
  match s with
  | [] => true
  | (j, _) :: t => decide (lo ≤ j) && Store.rising (j + 1) t

/-- No entry equals what its key reads as when unlisted. -/
def Store.noDefaults {α : Type} [DecidableEq α] (d : Nat → α) (s : Store α) : Bool :=
  s.all fun (k, v) => decide (v ≠ d k)

/-- The canonical form of a store. -/
def Store.wf {α : Type} [DecidableEq α] (d : Nat → α) (s : Store α) : Bool :=
  Store.rising 0 s && Store.noDefaults d s

/-- Little-endian value of a byte list (R10). -/
def leNat (bs : List Byte) : Nat :=
  match bs with
  | [] => 0
  | b :: t => b.toNat + 256 * leNat t

/-- The low `n` bytes of `v`, little-endian (R10). -/
def leBytes (n v : Nat) : List Byte :=
  match n with
  | 0 => []
  | m + 1 => BitVec.ofNat 8 v :: leBytes m (v / 256)

/-- Two's complement bytes of an integer, little-endian. -/
def leInt (n : Nat) (v : Int) : List Byte :=
  leBytes n (v % (2 ^ (8 * n) : Int)).toNat

/-- `n` bytes of `bs` from offset `at`, padded with 0 past the end. -/
def slice (bs : List Byte) (start n : Nat) : List Byte :=
  let t := (bs.drop start).take n
  t ++ List.replicate (n - t.length) 0

/-- The little-endian field of `n` bytes at offset `start`. -/
def field (bs : List Byte) (start n : Nat) : Nat := leNat (slice bs start n)

/-- Two's complement reading of the low `w` bits of `v`. -/
def signed (w v : Nat) : Int :=
  let u := v % 2 ^ w
  if u < 2 ^ (w - 1) then (u : Int) else (u : Int) - (2 ^ w : Nat)

/-- The low `w` bits of an integer, as a natural number. -/
def unsigned (w : Nat) (v : Int) : Nat := (v % (2 ^ w : Int)).toNat

/-- Round half up after division by 2^n (R190, R252). -/
def rhu (v : Int) (n : Nat) : Int :=
  if n = 0 then v else (v + 2 ^ (n - 1)) / 2 ^ n

/-- Round half up after division by a positive integer. -/
def rhuDiv (v d : Int) : Int := (2 * v + d) / (2 * d)

/-- Saturate to `w`-bit two's complement. -/
def sat (w : Nat) (v : Int) : Int :=
  if v < -(2 ^ (w - 1) : Int) then -(2 ^ (w - 1) : Int)
  else if v > 2 ^ (w - 1) - 1 then 2 ^ (w - 1) - 1 else v

/-- Does `v` leave the `w`-bit two's complement range? -/
def overflows (w : Nat) (v : Int) : Bool := sat w v != v

/-- Ceiling division. -/
def ceilDiv (a b : Nat) : Nat := (a + b - 1) / b

/-- ceil(log2 n), 0 for n ≤ 1. -/
def ceilLog2 (n : Nat) : Nat := if n ≤ 1 then 0 else Nat.log2 (n - 1) + 1

/-- Eight steps of the reflected CRC-32C polynomial. -/
def crcBits (n : Nat) (c : BitVec 32) : BitVec 32 :=
  match n with
  | 0 => c
  | m + 1 => crcBits m (if c.getLsbD 0 then (c >>> 1) ^^^ 0x82F63B78#32 else c >>> 1)

/-- CRC-32C register after the bytes `bs`. -/
def crcStep (c : BitVec 32) (bs : List Byte) : BitVec 32 :=
  bs.foldl (fun c b => crcBits 8 (c ^^^ b.setWidth 32)) c

/-- CRC-32C of a byte list (R115). -/
def crc32c (bs : List Byte) : BitVec 32 := ~~~ (crcStep 0xFFFFFFFF#32 bs)

/-- Update one element of a vector by a function; out of range changes nothing. -/
def vecUpdate {α : Type} {n : Nat} (v : Vector α n) (i : Nat) (f : α → α) : Vector α n :=
  if h : i < n then v.set i (f v[i]) else v

/-- Read an element, `d` out of range. -/
def vecRead {α : Type} {n : Nat} (v : Vector α n) (i : Nat) (d : α) : α :=
  if h : i < n then v[i] else d

end Sys2Proof.Machine
end

