-- ==== Sys2Proof/Machine/Maths.lean ====
section
/-! DEFINITION. Functions that the spec defines on real numbers: the phase and magnitude of a complex value (R192), the logarithm of a ratio
(R282, R295), the Callendar–Van Dusen solver (R287) and the Raman temperature (R295). Each is computed far below its last unit; where the
spec gives an error bound, the result is any integer inside it, and which one is free. -/

namespace Sys2Proof.Machine

/-- A free integer between `lo` and `hi`: `pick` says which. [DESIGN CHOICE, notes/assumptions/6] -/
def anyWithin (lo hi pick : Int) : Int := lo + pick % (max 0 (hi - lo) + 1)

/-- The integers within `tol` of `v / unit`, one of them by `pick`. -/
def withinError (unit v tol pick : Int) : Int := anyWithin (-((tol * unit - v) / unit)) ((v + tol * unit) / unit) pick

/-- Σ over `n` terms of ± y^(2k+1) / (2k+1) in units of 2^−`w`: the series of arctan (`alternate`) or artanh. -/
def oddSeries (w n : Nat) (alternate : Bool) (y : Int) : Int :=
  ((List.range n).foldl (fun (e : Int × Int) k =>
    let t := e.1 / (2 * k + 1 : Nat)
    (e.1 * y / 2 ^ w * y / 2 ^ w, if alternate && k % 2 == 1 then e.2 - t else e.2 + t)) (y, 0)).2

/-- ln m in units of 2^−60, for m ≥ 1: the exponent of 2 and the series of what is left. -/
def lnFixed (m : Nat) : Int :=
  let e := Nat.log2 m
  let f : Int := (m * 2 ^ 60 / 2 ^ e : Nat)
  2 * oddSeries 60 20 false ((f - 2 ^ 60) * 2 ^ 60 / (f + 2 ^ 60)) + e * 799144290325165979

/-- ln(a/b) in units of 2^−20, within ±2 units of the exact value (R282, R295 step 2); of a ratio that has no logarithm it is free. [DESIGN CHOICE, notes/assumptions/6] -/
def lnRatio (a b : Int) : Int :=
  if a ≤ 0 ∨ b ≤ 0 then Config.lnRatio a b
  else withinError (2 ^ 40) (lnFixed a.toNat - lnFixed b.toNat) 2 (Config.lnRatio a b)

/-- arctan(b / a) in units of 2^−120 for 0 ≤ b ≤ a, 0 < a: past a quarter, from arctan(1/2). -/
def arctanFixed (a b : Int) : Int :=
  if 4 * b ≤ a then oddSeries 120 45 true (b * 2 ^ 120 / a)
  else 616293382062609834977843564869721415 + oddSeries 120 45 true ((2 * b - a) * 2 ^ 120 / (2 * a + b))

/-- arg of a complex value in the first quadrant, in units of 2^−120. -/
def quadrantArg (re im : Int) : Int :=
  if im ≤ re then arctanFixed re im else 2087946453251888179413438228831778874 - arctanFixed im re

/-- arg(z) as u16 in units of 2π/65,536, rounded half up modulo 2^16 (R192). [DESIGN CHOICE, notes/assumptions/6] -/
def argOf (re im : Int) : BitVec 16 :=
  let q := quadrantArg re.natAbs im.natAbs
  let half := 2 * 2087946453251888179413438228831778874
  let t := if re < 0 then half - q else q
  let t := if im < 0 then -t else t
  BitVec.ofInt 16 (rhu (t * 211553206025302378997855913028439351) (240 - 16))

/-- The largest integer whose square is at most `m`, one bit of it after the other from bit `n` − 1 down. -/
def rootBits (n : Nat) (m r : Nat) : Nat :=
  match n with
  | 0 => r
  | k + 1 => rootBits k m (if (r + 2 ^ k) * (r + 2 ^ k) ≤ m then r + 2 ^ k else r)

/-- The CORDIC's magnitude of z: an unsigned integer within ±1 unit of 16 × |z| (R192). [DESIGN CHOICE, notes/assumptions/6] -/
def magnitudeOf (re im : Int) : Nat :=
  let m := (256 * (re * re + im * im)).toNat
  let r := rootBits 34 m 0
  (anyWithin (max 0 (if r * r = m then (r : Int) - 1 else r)) (r + 1) (Config.cordicMagnitude re im)).toNat

/-- R0 (1 + A·T + B·T² + C·(T − 100)·T³) for T = u/2,000 °C, C below 0 °C only, in units of 2^−4 × 10^−30 of R0's (R287). -/
def cvdValue (r0 a b c u : Int) : Int :=
  r0 * (16 * 10 ^ 30 + 8 * 10 ^ 17 * a * u + 4 * 10 ^ 11 * b * u * u + (if u < 0 then c * (u - 200000) * u * u * u else 0))

/-- The largest u in [lo, hi) at which a rising model is at most `target`. -/
def cvdBisect (fuel : Nat) (f : Int → Int) (target lo hi : Int) : Int :=
  match fuel with
  | 0 => lo
  | n + 1 =>
    let mid := (lo + hi) / 2
    if f mid ≤ target then cvdBisect n f target mid hi else cvdBisect n f target lo mid

/-- T in m°C from R and R0 in mΩ, within 0.5 m°C of the model's solution (R287). Where the coefficients do not make the model rise over the
converter's range, or R lies outside it, the solution that Newton's iteration reaches is free. [DESIGN CHOICE, notes/assumptions/6] -/
def cvdTemperature (r r0 a b c : Int) : Int :=
  let f := cvdValue r0 a b c
  let target := r * 16 * 10 ^ 30
  if 0 < a ∧ b ≤ 0 ∧ c ≤ 0 ∧ 0 < a * 1000 + 1700 * b ∧ f (-400000) ≤ target ∧ target < f 1700000 then
    let u := cvdBisect 22 f target (-400000) 1700000
    (u + 1) / 2 - (if u % 2 = 1 ∧ f u = target then Config.cvdTemperature r r0 a b c % 2 else 0)
  else Config.cvdTemperature r r0 a b c

/-- Steps 4 to 6 of R295 before saturation, in 0.01 °C: T_m is within ±0.002 °C of its exact value. [DESIGN CHOICE, notes/assumptions/6] -/
def thermalCenti (tRef gamma x : Int) (b : List Int) : Int :=
  let n := 100 * tRef + 27315 * 1024
  let dn := gamma * 2 ^ 20 * 102400 - 1000 * x * n
  let tau := tRef - 25600
  let k (i : Nat) : Int := b.getD i 0
  let poly := k 0 * 2 ^ 40 + k 1 * x * 2 ^ 20 + k 2 * tau * 2 ^ 30 + k 3 * x * x + k 4 * x * tau * 2 ^ 10 + k 5 * tau * tau * 2 ^ 20
  let v := 100 * (n * gamma * 2 ^ 76 + poly * dn) - 27315 * dn * 2 ^ 56
  let q := dn * 2 ^ 56
  anyWithin ((10 * v + 3 * q) / (10 * q)) ((10 * v + 7 * q) / (10 * q)) (Config.thermalCenti tRef gamma x b)

end Sys2Proof.Machine
end

