-- ==== Sys2Proof/Machine/ParamTable.lean ====
section
/-! DEFINITION. The parameter table of the device: every parameter row of the spec's parameter tables
(R3, R47, R70, R101, R147, R178, R210, R214, R270, R301, R330, R362, R393, R423, R459, R461, R495, R517, R547),
with its index family (R12, R133), its range (R13), its default, its Takes-effect value and its access (R14). -/

namespace Sys2Proof.Machine

/-- How a parameter's index travels in an item (R133). -/
inductive IndexFamily where
  | one                     -- no index: the field is 0
  | idx (n : Nat)           -- one index below n
  | idx2 (n m : Nat)        -- outer index in [15:5], inner in [4:0]
  | port (n : Nat)          -- port p in the ID (0x100 × p), remaining index below n
  | dram (n : Nat)          -- DRAM port a in the ID (0x20 × a), remaining index below n
  deriving DecidableEq, Repr

/-- The Range column (R13, R14). -/
inductive ParamRange where
  | span (lo hi : Int)
  | spanOr (lo hi : Int) (extra : List Int)
  | oneOf (values : List Int)
  | aligned (step hi : Nat)
  deriving DecidableEq, Repr

/-- The Default column; some defaults depend on the index. -/
inductive ParamDefault where
  | const (v : Int)
  | plus (v : Int)
  | perIdx (vs : List Int)
  deriving DecidableEq, Repr

/-- The Takes-effect column (R14). -/
inductive TakesEffect where
  | atOnce | nextRound | atCommit | atModeEntry | atBoot
  deriving DecidableEq, Repr

/-- Who may write the parameter: a bit field with W1C bits carries its W1C mask and its reserved mask (R14). -/
inductive ParamAccess where
  | rw | ro | wo
  | w1c (clearMask reservedMask : Nat)
  deriving DecidableEq, Repr

/-- What a counter does at its end (R546): activity counters wrap, error counters saturate. -/
inductive CounterKind where
  | plain | wraps | sat
  deriving DecidableEq, Repr

structure ParamDef where
  id : Nat
  name : String
  family : IndexFamily
  range : ParamRange
  dflt : ParamDefault
  effect : TakesEffect
  access : ParamAccess
  counter : CounterKind
  deriving DecidableEq, Repr

namespace Pid
/-- `id.grade` (R3). -/
abbrev idGrade : Nat := 0x0102
/-- `id.straps` (R47). -/
abbrev idStraps : Nat := 0x0108
/-- `id.jtag_idcode` (R459). -/
abbrev idJtagIdcode : Nat := 0x0109
/-- `fw.version` (R101). -/
abbrev fwVersion : Nat := 0x0110
/-- `fw.slot` (R101). -/
abbrev fwSlot : Nat := 0x0111
/-- `fw.state` (R101). -/
abbrev fwState : Nat := 0x0112
/-- `fw.confirm_timeout_s` (R101). -/
abbrev fwConfirmTimeoutS : Nat := 0x0113
/-- `fw.secver_min` (R101). -/
abbrev fwSecverMin : Nat := 0x0114
/-- `mode.current` (R101). -/
abbrev modeCurrent : Nat := 0x0200
/-- `mode.previous` (R101). -/
abbrev modePrevious : Nat := 0x0201
/-- `mode.auto_run` (R101). -/
abbrev modeAutoRun : Nat := 0x0202
/-- `mode.sentinel_port` (R101). -/
abbrev modeSentinelPort : Nat := 0x0203
/-- `mode.sentinel_period_cells` (R101). -/
abbrev modeSentinelPeriodCells : Nat := 0x0204
/-- `mode.sentinel_dts_divider` (R101). -/
abbrev modeSentinelDtsDivider : Nat := 0x0205
/-- `mode.reset_record` (R101). -/
abbrev modeResetRecord : Nat := 0x0206
/-- `mode.fault_code` (R101). -/
abbrev modeFaultCode : Nat := 0x0207
/-- `mode.transitions` (R101). -/
abbrev modeTransitions : Nat := 0x0208
/-- `mode.scribe_watchdog_ms` (R101). -/
abbrev modeScribeWatchdogMs : Nat := 0x0209
/-- `cfg.confirm_timeout_s` (R101). -/
abbrev cfgConfirmTimeoutS : Nat := 0x0210
/-- `cfg.active_epoch` (R101). -/
abbrev cfgActiveEpoch : Nat := 0x0211
/-- `cfg.previous_epoch` (R101). -/
abbrev cfgPreviousEpoch : Nat := 0x0212
/-- `cfg.bank_state` (R101). -/
abbrev cfgBankState : Nat := 0x0213
/-- `cfg.record_format` (R101). -/
abbrev cfgRecordFormat : Nat := 0x0214
/-- `cfg.confirm_remaining_s` (R101). -/
abbrev cfgConfirmRemainingS : Nat := 0x0215
/-- `power.rail_status` (R70). -/
abbrev powerRailStatus : Nat := 0x0240
/-- `power.reset_cause` (R70). -/
abbrev powerResetCause : Nat := 0x0241
/-- `power.feed_status` (R70). -/
abbrev powerFeedStatus : Nat := 0x0242
/-- `power.feed_debounce_ms` (R70). -/
abbrev powerFeedDebounceMs : Nat := 0x0243
/-- `power.feed_a_loss_action` (R70). -/
abbrev powerFeedALossAction : Nat := 0x0244
/-- `power.feed_b_loss_action` (R70). -/
abbrev powerFeedBLossAction : Nat := 0x0245
/-- `clk.ref_select` (R70). -/
abbrev clkRefSelect : Nat := 0x0300
/-- `clk.ref_qualify_ms` (R70). -/
abbrev clkRefQualifyMs : Nat := 0x0301
/-- `clk.status` (R70). -/
abbrev clkStatus : Nat := 0x0302
/-- `clk.pll_status` (R70). -/
abbrev clkPllStatus : Nat := 0x0303
/-- `clk.refin_freq_hz` (R70). -/
abbrev clkRefinFreqHz : Nat := 0x0304
/-- `clk.ocxo_freq_hz` (R70). -/
abbrev clkOcxoFreqHz : Nat := 0x0305
/-- `clk.ref_switches` (R70). -/
abbrev clkRefSwitches : Nat := 0x0306
/-- `host.pcie_max_gen` (R461). -/
abbrev hostPcieMaxGen : Nat := 0x0400
/-- `host.pcie_max_width` (R461). -/
abbrev hostPcieMaxWidth : Nat := 0x0401
/-- `host.pcie_subsys_vendor` (R461). -/
abbrev hostPcieSubsysVendor : Nat := 0x0402
/-- `host.pcie_subsys_id` (R461). -/
abbrev hostPcieSubsysId : Nat := 0x0403
/-- `host.pcie_aer_count` (R461). -/
abbrev hostPcieAerCount : Nat := 0x0404
/-- `host.queue[q].link` (R461). -/
abbrev hostQueueLink : Nat := 0x0410
/-- `host.queue[q].ring_base` (R461). -/
abbrev hostQueueRingBase : Nat := 0x0411
/-- `host.queue[q].ring_entries` (R461). -/
abbrev hostQueueRingEntries : Nat := 0x0412
/-- `host.queue[q].irq_items` (R461). -/
abbrev hostQueueIrqItems : Nat := 0x0413
/-- `host.queue[q].irq_usec` (R461). -/
abbrev hostQueueIrqUsec : Nat := 0x0414
/-- `host.queue[q].eth_mode` (R461). -/
abbrev hostQueueEthMode : Nat := 0x0415
/-- `host.queue[q].dest_addr_hi` (R461). -/
abbrev hostQueueDestAddrHi : Nat := 0x0416
/-- `host.queue[q].dest_addr_lo` (R461). -/
abbrev hostQueueDestAddrLo : Nat := 0x0417
/-- `host.queue[q].dest_port` (R461). -/
abbrev hostQueueDestPort : Nat := 0x0418
/-- `host.queue[q].dest_mac` (R461). -/
abbrev hostQueueDestMac : Nat := 0x0419
/-- `host.queue[q].max_mbps` (R461). -/
abbrev hostQueueMaxMbps : Nat := 0x041A
/-- `host.queue[q].items` (R461). -/
abbrev hostQueueItems : Nat := 0x041B
/-- `host.queue[q].drops` (R461). -/
abbrev hostQueueDrops : Nat := 0x041C
/-- `host.queue[q].bytes` (R461). -/
abbrev hostQueueBytes : Nat := 0x041D
/-- `host.eth[n].enable` (R461). -/
abbrev hostEthEnable : Nat := 0x0440
/-- `host.eth[n].rate` (R461). -/
abbrev hostEthRate : Nat := 0x0441
/-- `host.eth[n].mtu` (R461). -/
abbrev hostEthMtu : Nat := 0x0442
/-- `host.eth[n].mac` (R461). -/
abbrev hostEthMac : Nat := 0x0443
/-- `host.eth[n].ipv4` (R461). -/
abbrev hostEthIpv4 : Nat := 0x0444
/-- `host.eth[n].ipv4_prefix` (R461). -/
abbrev hostEthIpv4Prefix : Nat := 0x0445
/-- `host.eth[n].ipv4_gateway` (R461). -/
abbrev hostEthIpv4Gateway : Nat := 0x0446
/-- `host.eth[n].ipv6_hi` (R461). -/
abbrev hostEthIpv6Hi : Nat := 0x0447
/-- `host.eth[n].ipv6_lo` (R461). -/
abbrev hostEthIpv6Lo : Nat := 0x0448
/-- `host.eth[n].vlan` (R461). -/
abbrev hostEthVlan : Nat := 0x0449
/-- `host.eth[n].status` (R461). -/
abbrev hostEthStatus : Nat := 0x044A
/-- `host.eth[n].rx_dropped` (R461). -/
abbrev hostEthRxDropped : Nat := 0x044B
/-- `host.eth[n].link_changes` (R461). -/
abbrev hostEthLinkChanges : Nat := 0x044C
/-- `host.spi_enable` (R461). -/
abbrev hostSpiEnable : Nat := 0x0460
/-- `host.smb_pec_errors` (R461). -/
abbrev hostSmbPecErrors : Nat := 0x0461
/-- `host.console_level` (R461). -/
abbrev hostConsoleLevel : Nat := 0x0462
/-- `host.flash_size_mib` (R461). -/
abbrev hostFlashSizeMib : Nat := 0x0463
/-- `host.flash_jedec_id` (R461). -/
abbrev hostFlashJedecId : Nat := 0x0464
/-- `host.oxras_udp_enable` (R147). -/
abbrev hostOxrasUdpEnable : Nat := 0x0480
/-- `host.oxras_udp_port` (R147). -/
abbrev hostOxrasUdpPort : Nat := 0x0481
/-- `host.oxras_session_timeout_s` (R147). -/
abbrev hostOxrasSessionTimeoutS : Nat := 0x0482
/-- `host.evq_owner` (R147). -/
abbrev hostEvqOwner : Nat := 0x0483
/-- `host.viol_pcie` (R147). -/
abbrev hostViolPcie : Nat := 0x0484
/-- `host.viol_spi` (R147). -/
abbrev hostViolSpi : Nat := 0x0485
/-- `host.viol_eth` (R147). -/
abbrev hostViolEth : Nat := 0x0486
/-- `host.viol_peer` (R147). -/
abbrev hostViolPeer : Nat := 0x0487
/-- `host.throttles` (R147). -/
abbrev hostThrottles : Nat := 0x0488
/-- `host.evq_lost` (R147). -/
abbrev hostEvqLost : Nat := 0x0489
/-- `host.journal_newest` (R147). -/
abbrev hostJournalNewest : Nat := 0x048A
/-- `time.select` (R423). -/
abbrev timeSelect : Nat := 0x0500
/-- `time.switch_max_offset_ns` (R423). -/
abbrev timeSwitchMaxOffsetNs : Nat := 0x0501
/-- `time.slew_ppm` (R423). -/
abbrev timeSlewPpm : Nat := 0x0502
/-- `time.max_slew_ns` (R423). -/
abbrev timeMaxSlewNs : Nat := 0x0503
/-- `time.revert` (R423). -/
abbrev timeRevert : Nat := 0x0504
/-- `time.status` (R423). -/
abbrev timeStatus : Nat := 0x0505
/-- `time.axis_offset_ns` (R423). -/
abbrev timeAxisOffsetNs : Nat := 0x0506
/-- `time.holdovers` (R423). -/
abbrev timeHoldovers : Nat := 0x0507
/-- `time.dom[d].increment` (R423). -/
abbrev timeDomIncrement : Nat := 0x0510
/-- `time.dom[d].adjust_ns` (R423). -/
abbrev timeDomAdjustNs : Nat := 0x0511
/-- `time.dom[d].servo_state` (R423). -/
abbrev timeDomServoState : Nat := 0x0512
/-- `time.dom[d].servo_timeout_ms` (R423). -/
abbrev timeDomServoTimeoutMs : Nat := 0x0513
/-- `time.dom[d].sync_loss_ms` (R423). -/
abbrev timeDomSyncLossMs : Nat := 0x0514
/-- `time.dom[d].ptp_domain` (R423). -/
abbrev timeDomPtpDomain : Nat := 0x0515
/-- `time.dom[d].sdo_id` (R423). -/
abbrev timeDomSdoId : Nat := 0x0516
/-- `time.dom[d].eth_port` (R423). -/
abbrev timeDomEthPort : Nat := 0x0517
/-- `time.dom[d].mechanism` (R423). -/
abbrev timeDomMechanism : Nat := 0x0518
/-- `time.dom[d].transport` (R423). -/
abbrev timeDomTransport : Nat := 0x0519
/-- `time.dom[d].offset_ns` (R423). -/
abbrev timeDomOffsetNs : Nat := 0x051A
/-- `time.dom[d].path_delay_ns` (R423). -/
abbrev timeDomPathDelayNs : Nat := 0x051B
/-- `time.dom[d].meas_seq` (R423). -/
abbrev timeDomMeasSeq : Nat := 0x051C
/-- `time.dom[d].master_id` (R423). -/
abbrev timeDomMasterId : Nat := 0x051D
/-- `time.dom[d].status` (R423). -/
abbrev timeDomStatus : Nat := 0x051E
/-- `time.dom[d].now_s` (R423). -/
abbrev timeDomNowS : Nat := 0x051F
/-- `time.dom[d].now_ns` (R423). -/
abbrev timeDomNowNs : Nat := 0x0520
/-- `time.eth[n].rx_latency_ps` (R423). -/
abbrev timeEthRxLatencyPs : Nat := 0x0528
/-- `time.eth[n].tx_latency_ps` (R423). -/
abbrev timeEthTxLatencyPs : Nat := 0x0529
/-- `tdc.mode` (R423). -/
abbrev tdcMode : Nat := 0x0580
/-- `tdc.start_source` (R423). -/
abbrev tdcStartSource : Nat := 0x0581
/-- `tdc.stop_source` (R423). -/
abbrev tdcStopSource : Nat := 0x0582
/-- `tdc.start_port` (R423). -/
abbrev tdcStartPort : Nat := 0x0583
/-- `tdc.stop_port` (R423). -/
abbrev tdcStopPort : Nat := 0x0584
/-- `tdc.start_edge` (R423). -/
abbrev tdcStartEdge : Nat := 0x0585
/-- `tdc.stop_edge` (R423). -/
abbrev tdcStopEdge : Nat := 0x0586
/-- `tdc.count` (R423). -/
abbrev tdcCount : Nat := 0x0587
/-- `tdc.arm` (R423). -/
abbrev tdcArm : Nat := 0x0588
/-- `tdc.result_lsb` (R423). -/
abbrev tdcResultLsb : Nat := 0x0589
/-- `tdc.mean_lsb` (R423). -/
abbrev tdcMeanLsb : Nat := 0x058A
/-- `tdc.sdev_lsb` (R423). -/
abbrev tdcSdevLsb : Nat := 0x058B
/-- `tdc.done` (R423). -/
abbrev tdcDone : Nat := 0x058C
/-- `tdc.status` (R423). -/
abbrev tdcStatus : Nat := 0x058D
/-- `tdc.stamp_s` (R423). -/
abbrev tdcStampS : Nat := 0x058E
/-- `tdc.stamp_lsb` (R423). -/
abbrev tdcStampLsb : Nat := 0x058F
/-- `tdc.cmp[i].threshold_mv` (R423). -/
abbrev tdcCmpThresholdMv : Nat := 0x0598
/-- `tdc.cmp[i].hysteresis_mv` (R423). -/
abbrev tdcCmpHysteresisMv : Nat := 0x0599
/-- `tdc.cmp[i].holdoff_ns` (R423). -/
abbrev tdcCmpHoldoffNs : Nat := 0x059A
/-- `grid.period_cells` (R423). -/
abbrev gridPeriodCells : Nat := 0x0600
/-- `grid.offset_cells` (R423). -/
abbrev gridOffsetCells : Nat := 0x0601
/-- `grid.interval_dev_cells` (R423). -/
abbrev gridIntervalDevCells : Nat := 0x0602
/-- `sync.enable` (R423). -/
abbrev syncEnable : Nat := 0x0610
/-- `sync.period_ns` (R423). -/
abbrev syncPeriodNs : Nat := 0x0611
/-- `sync.phase_ns` (R423). -/
abbrev syncPhaseNs : Nat := 0x0612
/-- `sync.edge` (R423). -/
abbrev syncEdge : Nat := 0x0613
/-- `sync.pull_ppm` (R423). -/
abbrev syncPullPpm : Nat := 0x0614
/-- `sync.window_pct` (R423). -/
abbrev syncWindowPct : Nat := 0x0615
/-- `sync.lock_ns` (R423). -/
abbrev syncLockNs : Nat := 0x0616
/-- `sync.phase_err_ns` (R423). -/
abbrev syncPhaseErrNs : Nat := 0x0617
/-- `sync.chatter` (R423). -/
abbrev syncChatter : Nat := 0x0618
/-- `sync.stray` (R423). -/
abbrev syncStray : Nat := 0x0619
/-- `sync.losses` (R423). -/
abbrev syncLosses : Nat := 0x061A
/-- `tout[u].mode` (R423). -/
abbrev toutMode : Nat := 0x0620
/-- `tout[u].timebase` (R423). -/
abbrev toutTimebase : Nat := 0x0621
/-- `tout[u].start_s` (R423). -/
abbrev toutStartS : Nat := 0x0622
/-- `tout[u].start_ns` (R423). -/
abbrev toutStartNs : Nat := 0x0623
/-- `tout[u].period_ns` (R423). -/
abbrev toutPeriodNs : Nat := 0x0624
/-- `tout[u].width_ns` (R423). -/
abbrev toutWidthNs : Nat := 0x0625
/-- `tout[u].polarity` (R423). -/
abbrev toutPolarity : Nat := 0x0626
/-- `tout[u].grid_port` (R423). -/
abbrev toutGridPort : Nat := 0x0627
/-- `tout[u].late` (R423). -/
abbrev toutLate : Nat := 0x0628
/-- `port[p].enable` (R178). -/
abbrev portEnable : Nat := 0x1000
/-- `port[p].slots` (R178). -/
abbrev portSlots : Nat := 0x1001
/-- `port[p].trace_cells` (R178). -/
abbrev portTraceCells : Nat := 0x1002
/-- `port[p].group_index` (R178). -/
abbrev portGroupIndex : Nat := 0x1003
/-- `port[p].origin_cells` (R178). -/
abbrev portOriginCells : Nat := 0x1004
/-- `port[p].refcoil_length_mm` (R178). -/
abbrev portRefcoilLengthMm : Nat := 0x1005
/-- `port[p].slot[k].glyph` (R178). -/
abbrev portSlotGlyph : Nat := 0x1008
/-- `port[p].glyph[g].base` (R178). -/
abbrev portGlyphBase : Nat := 0x1010
/-- `port[p].glyph[g].samples` (R178). -/
abbrev portGlyphSamples : Nat := 0x1011
/-- `port[p].glyph[g].format` (R178). -/
abbrev portGlyphFormat : Nat := 0x1012
/-- `port[p].glyph[g].gain` (R178). -/
abbrev portGlyphGain : Nat := 0x1013
/-- `port[p].glyph_mem[w]` (R178). -/
abbrev portGlyphMem : Nat := 0x1014
/-- `port[p].prb_scale` (R178). -/
abbrev portPrbScale : Nat := 0x1018
/-- `port[p].prb_clip_count` (R178). -/
abbrev portPrbClipCount : Nat := 0x1019
/-- `port[p].gate_lead_ticks` (R178). -/
abbrev portGateLeadTicks : Nat := 0x101A
/-- `port[p].gate_tail_ticks` (R178). -/
abbrev portGateTailTicks : Nat := 0x101B
/-- `port[p].ramtrg_offset_ticks` (R178). -/
abbrev portRamtrgOffsetTicks : Nat := 0x101C
/-- `port[p].ramtrg_width_ticks` (R178). -/
abbrev portRamtrgWidthTicks : Nat := 0x101D
/-- `port[p].lmon_threshold_mv` (R178). -/
abbrev portLmonThresholdMv : Nat := 0x1020
/-- `port[p].lmon_window_ns` (R178). -/
abbrev portLmonWindowNs : Nat := 0x1021
/-- `port[p].lmon_miss_limit` (R178). -/
abbrev portLmonMissLimit : Nat := 0x1022
/-- `port[p].lmon_status` (R178). -/
abbrev portLmonStatus : Nat := 0x1023
/-- `port[p].launch_latency_ps` (R178). -/
abbrev portLaunchLatencyPs : Nat := 0x1024
/-- `port[p].das_gain` (R178). -/
abbrev portDasGain : Nat := 0x1028
/-- `port[p].das_autorange` (R178). -/
abbrev portDasAutorange : Nat := 0x1029
/-- `port[p].autorange_low_pct` (R178). -/
abbrev portAutorangeLowPct : Nat := 0x102A
/-- `port[p].raman_as_gain` (R178). -/
abbrev portRamanAsGain : Nat := 0x102B
/-- `port[p].raman_st_gain` (R178). -/
abbrev portRamanStGain : Nat := 0x102C
/-- `port[p].gain_steps` (R178). -/
abbrev portGainSteps : Nat := 0x102D
/-- `port[p].ovr_guard` (R178). -/
abbrev portOvrGuard : Nat := 0x1030
/-- `port[p].raman_ovr_guard` (R178). -/
abbrev portRamanOvrGuard : Nat := 0x1031
/-- `port[p].ovr_count` (R178). -/
abbrev portOvrCount : Nat := 0x1032
/-- `port[p].raman_ovr_count` (R178). -/
abbrev portRamanOvrCount : Nat := 0x1033
/-- `port[p].blank_enable` (R178). -/
abbrev portBlankEnable : Nat := 0x1038
/-- `port[p].blank_polarity` (R178). -/
abbrev portBlankPolarity : Nat := 0x1039
/-- `port[p].blank_margin` (R178). -/
abbrev portBlankMargin : Nat := 0x103A
/-- `port[p].blot[b].start_cells` (R178). -/
abbrev portBlotStartCells : Nat := 0x103C
/-- `port[p].blot[b].length_cells` (R178). -/
abbrev portBlotLengthCells : Nat := 0x103D
/-- `port[p].adc_corr_enable` (R178). -/
abbrev portAdcCorrEnable : Nat := 0x1040
/-- `port[p].survey_scale` (R178). -/
abbrev portSurveyScale : Nat := 0x1048
/-- `port[p].stroke_latency_cells` (R210). -/
abbrev portStrokeLatencyCells : Nat := 0x1050
/-- `port[p].comp_taps` (R210). -/
abbrev portCompTaps : Nat := 0x1051
/-- `port[p].comp_block` (R210). -/
abbrev portCompBlock : Nat := 0x1052
/-- `port[p].comp_shift` (R210). -/
abbrev portCompShift : Nat := 0x1053
/-- `port[p].amp_shift` (R210). -/
abbrev portAmpShift : Nat := 0x1054
/-- `port[p].mask_hold_pct` (R210). -/
abbrev portMaskHoldPct : Nat := 0x1055
/-- `port[p].fade_hold` (R210). -/
abbrev portFadeHold : Nat := 0x1056
/-- `port[p].fade_pct` (R210). -/
abbrev portFadePct : Nat := 0x1057
/-- `port[p].fade_floor` (R210). -/
abbrev portFadeFloor : Nat := 0x1058
/-- `port[p].slot_track_shift` (R210). -/
abbrev portSlotTrackShift : Nat := 0x1059
/-- `port[p].pol_track_shift` (R210). -/
abbrev portPolTrackShift : Nat := 0x105A
/-- `port[p].rebase_gap_ms` (R210). -/
abbrev portRebaseGapMs : Nat := 0x105B
/-- `port[p].stroke_status` (R210). -/
abbrev portStrokeStatus : Nat := 0x105C
/-- `port[p].fade_ppm` (R210). -/
abbrev portFadePpm : Nat := 0x105D
/-- `port[p].held_ppm` (R210). -/
abbrev portHeldPpm : Nat := 0x105E
/-- `port[p].discont_count` (R210). -/
abbrev portDiscontCount : Nat := 0x105F
/-- `port[p].rebaselines` (R210). -/
abbrev portRebaselines : Nat := 0x1060
/-- `port[p].lost_shots` (R210). -/
abbrev portLostShots : Nat := 0x1061
/-- `port[p].stroke_sat_count` (R210). -/
abbrev portStrokeSatCount : Nat := 0x1062
/-- `raman[p].enable` (R301). -/
abbrev ramanEnable : Nat := 0x1400
/-- `raman[p].shots_log2` (R301). -/
abbrev ramanShotsLog2 : Nat := 0x1401
/-- `raman[p].origin_cells` (R301). -/
abbrev ramanOriginCells : Nat := 0x1402
/-- `raman[p].dark_cells` (R301). -/
abbrev ramanDarkCells : Nat := 0x1403
/-- `raman[p].dark_limit` (R301). -/
abbrev ramanDarkLimit : Nat := 0x1404
/-- `raman[p].ref_rtd` (R301). -/
abbrev ramanRefRtd : Nat := 0x1405
/-- `raman[p].ref_first` (R301). -/
abbrev ramanRefFirst : Nat := 0x1406
/-- `raman[p].ref_cells_log2` (R301). -/
abbrev ramanRefCellsLog2 : Nat := 0x1407
/-- `raman[p].mask_hold` (R301). -/
abbrev ramanMaskHold : Nat := 0x1408
/-- `raman[p].st_floor` (R301). -/
abbrev ramanStFloor : Nat := 0x1409
/-- `raman[p].shots_done` (R301). -/
abbrev ramanShotsDone : Nat := 0x140A
/-- `raman[p].traces` (R301). -/
abbrev ramanTraces : Nat := 0x140B
/-- `raman[p].masked_shots` (R301). -/
abbrev ramanMaskedShots : Nat := 0x140C
/-- `raman[p].dark_stale` (R301). -/
abbrev ramanDarkStale : Nat := 0x140D
/-- `raman[p].status` (R301). -/
abbrev ramanStatus : Nat := 0x140E
/-- `raman[p].ln_ref` (R301). -/
abbrev ramanLnRef : Nat := 0x140F
/-- `raman[p].t_ref` (R301). -/
abbrev ramanTRef : Nat := 0x1410
/-- `thermal[p].gamma_mk` (R301). -/
abbrev thermalGammaMk : Nat := 0x1420
/-- `thermal[p].diff_loss_mdb_km` (R301). -/
abbrev thermalDiffLossMdbKm : Nat := 0x1421
/-- `thermal[p].step[k].cell` (R301). -/
abbrev thermalStepCell : Nat := 0x1422
/-- `thermal[p].step[k].mdb` (R301). -/
abbrev thermalStepMdb : Nat := 0x1423
/-- `thermal[p].coef[k]` (R301). -/
abbrev thermalCoef : Nat := 0x1424
/-- `thermal[p].min_c` (R301). -/
abbrev thermalMinC : Nat := 0x1425
/-- `thermal[p].max_c` (R301). -/
abbrev thermalMaxC : Nat := 0x1426
/-- `rtd[k].enable` (R301). -/
abbrev rtdEnable : Nat := 0x1500
/-- `rtd[k].type` (R301). -/
abbrev rtdType : Nat := 0x1501
/-- `rtd[k].current` (R301). -/
abbrev rtdCurrent : Nat := 0x1502
/-- `rtd[k].period_ms` (R301). -/
abbrev rtdPeriodMs : Nat := 0x1503
/-- `rtd[k].settle_us` (R301). -/
abbrev rtdSettleUs : Nat := 0x1504
/-- `rtd[k].avg` (R301). -/
abbrev rtdAvg : Nat := 0x1505
/-- `rtd[k].r0_mohm` (R301). -/
abbrev rtdR0Mohm : Nat := 0x1506
/-- `rtd[k].cvd_a` (R301). -/
abbrev rtdCvdA : Nat := 0x1507
/-- `rtd[k].cvd_b` (R301). -/
abbrev rtdCvdB : Nat := 0x1508
/-- `rtd[k].cvd_c` (R301). -/
abbrev rtdCvdC : Nat := 0x1509
/-- `rtd[k].cal_gain` (R301). -/
abbrev rtdCalGain : Nat := 0x150A
/-- `rtd[k].cal_offset_mohm` (R301). -/
abbrev rtdCalOffsetMohm : Nat := 0x150B
/-- `rtd[k].result_mc` (R301). -/
abbrev rtdResultMc : Nat := 0x150C
/-- `rtd[k].result_mohm` (R301). -/
abbrev rtdResultMohm : Nat := 0x150D
/-- `rtd[k].status` (R301). -/
abbrev rtdStatus : Nat := 0x150E
/-- `rtd[k].exc_changes` (R301). -/
abbrev rtdExcChanges : Nat := 0x150F
/-- `rtd.rext_mohm` (R301). -/
abbrev rtdRextMohm : Nat := 0x1510
/-- `rtd.max_pulse_ms` (R301). -/
abbrev rtdMaxPulseMs : Nat := 0x1511
/-- `hk.scan_period_us` (R301). -/
abbrev hkScanPeriodUs : Nat := 0x1520
/-- `hk.scan[i].input` (R301). -/
abbrev hkScanInput : Nat := 0x1521
/-- `hk.scan[i].avg` (R301). -/
abbrev hkScanAvg : Nat := 0x1522
/-- `hk.settle[i]` (R301). -/
abbrev hkSettle : Nat := 0x1523
/-- `hk.result[i]` (R301). [DESIGN CHOICE, notes/assumptions/38] -/
abbrev hkResult : Nat := 0x1524
/-- `hk.event[e].source` (R301). -/
abbrev hkEventSource : Nat := 0x1525
/-- `hk.event[e].port` (R301). -/
abbrev hkEventPort : Nat := 0x1526
/-- `hk.event[e].input` (R301). -/
abbrev hkEventInput : Nat := 0x1527
/-- `hk.event[e].delay_ticks` (R301). -/
abbrev hkEventDelayTicks : Nat := 0x1528
/-- `hk.event[e].divider` (R301). -/
abbrev hkEventDivider : Nat := 0x1529
/-- `hk.event[e].result` (R301). -/
abbrev hkEventResult : Nat := 0x152A
/-- `hk.late_count` (R301). -/
abbrev hkLateCount : Nat := 0x152B
/-- `zone[z].enable` (R214). -/
abbrev zoneEnable : Nat := 0x1800
/-- `zone[z].recipe` (R214). -/
abbrev zoneRecipe : Nat := 0x1801
/-- `zone[z].class` (R214). -/
abbrev zoneClass : Nat := 0x1802
/-- `zone[z].first_cell` (R214). -/
abbrev zoneFirstCell : Nat := 0x1803
/-- `zone[z].last_cell` (R214). -/
abbrev zoneLastCell : Nat := 0x1804
/-- `zone[z].pitch_cells` (R214). -/
abbrev zonePitchCells : Nat := 0x1805
/-- `zone[z].gauge_cells` (R214). -/
abbrev zoneGaugeCells : Nat := 0x1806
/-- `zone[z].rate_div` (R214). -/
abbrev zoneRateDiv : Nat := 0x1807
/-- `zone[z].max_halvings` (R214). -/
abbrev zoneMaxHalvings : Nat := 0x1808
/-- `zone[z].integrate_rounds` (R214). -/
abbrev zoneIntegrateRounds : Nat := 0x1809
/-- `zone[z].spectrum_len` (R214). -/
abbrev zoneSpectrumLen : Nat := 0x180A
/-- `zone[z].band_count` (R214). -/
abbrev zoneBandCount : Nat := 0x180B
/-- `zone[z].band[k].lo_hz` (R214). -/
abbrev zoneBandLoHz : Nat := 0x180C
/-- `zone[z].band[k].hi_hz` (R214). -/
abbrev zoneBandHiHz : Nat := 0x180D
/-- `zone[z].queue` (R214). -/
abbrev zoneQueue : Nat := 0x180E
/-- `zone[z].ring` (R214). -/
abbrev zoneRing : Nat := 0x180F
/-- `zone[z].compress` (R214). -/
abbrev zoneCompress : Nat := 0x1810
/-- `zone[z].features` (R214). -/
abbrev zoneFeatures : Nat := 0x1811
/-- `zone[z].program` (R214). -/
abbrev zoneProgram : Nat := 0x1812
/-- `zone[z].status` (R214). -/
abbrev zoneStatus : Nat := 0x1818
/-- `zone[z].granted_rate_div` (R214). -/
abbrev zoneGrantedRateDiv : Nat := 0x1819
/-- `zone[z].lanes` (R214). -/
abbrev zoneLanes : Nat := 0x181A
/-- `zone[z].frames` (R214). -/
abbrev zoneFrames : Nat := 0x181B
/-- `zone[z].misses` (R214). -/
abbrev zoneMisses : Nat := 0x181C
/-- `herder.page_budget_mbps` (R214). -/
abbrev herderPageBudgetMbps : Nat := 0x18F0
/-- `herder.lanes_used` (R214). -/
abbrev herderLanesUsed : Nat := 0x18F1
/-- `herder.misses` (R214). -/
abbrev herderMisses : Nat := 0x18F2
/-- `serif.isa_version` (R270). -/
abbrev serifIsaVersion : Nat := 0x2000
/-- `serif.status` (R270). -/
abbrev serifStatus : Nat := 0x2001
/-- `serif.sat_count` (R270). -/
abbrev serifSatCount : Nat := 0x2002
/-- `serif.acc_ovf_count` (R270). -/
abbrev serifAccOvfCount : Nat := 0x2003
/-- `serif.access_count` (R270). -/
abbrev serifAccessCount : Nat := 0x2004
/-- `serif.out_mismatch` (R270). -/
abbrev serifOutMismatch : Nat := 0x2005
/-- `serif.overruns` (R270). -/
abbrev serifOverruns : Nat := 0x2006
/-- `serif.ecc_corrected` (R270). -/
abbrev serifEccCorrected : Nat := 0x2007
/-- `serif.ecc_uncorrectable` (R270). -/
abbrev serifEccUncorrectable : Nat := 0x2008
/-- `serif.prog_words_free` (R270). -/
abbrev serifProgWordsFree : Nat := 0x2009
/-- `serif.clusters_awake` (R270). -/
abbrev serifClustersAwake : Nat := 0x200A
/-- `serif.selftest_failed` (R270). -/
abbrev serifSelftestFailed : Nat := 0x200B
/-- `serif.sat_events` (R270). -/
abbrev serifSatEvents : Nat := 0x200C
/-- `ptr.master_arm` (R330). -/
abbrev ptrMasterArm : Nat := 0x2400
/-- `ptr.arm_bus` (R330). -/
abbrev ptrArmBus : Nat := 0x2401
/-- `ptr.fire_pulse_us` (R330). -/
abbrev ptrFirePulseUs : Nat := 0x2402
/-- `ptr.flags` (R330). -/
abbrev ptrFlags : Nat := 0x2403
/-- `ptr.status` (R330). -/
abbrev ptrStatus : Nat := 0x2404
/-- `ptr.records_overwritten` (R330). -/
abbrev ptrRecordsOverwritten : Nat := 0x2405
/-- `ptr.open_records` (R330). -/
abbrev ptrOpenRecords : Nat := 0x2406
/-- `ptr.remote_fires` (R330). -/
abbrev ptrRemoteFires : Nat := 0x2407
/-- `ptr.data_freed` (R330). -/
abbrev ptrDataFreed : Nat := 0x2408
/-- `seq[s].state[k]` (R330). -/
abbrev seqState : Nat := 0x2410
/-- `seq[s].port` (R330). -/
abbrev seqPort : Nat := 0x2420
/-- `seq[s].initial_state` (R330). -/
abbrev seqInitialState : Nat := 0x2421
/-- `seq[s].auto_arm` (R330). -/
abbrev seqAutoArm : Nat := 0x2422
/-- `seq[s].pre_us` (R330). -/
abbrev seqPreUs : Nat := 0x2423
/-- `seq[s].post_us` (R330). -/
abbrev seqPostUs : Nat := 0x2424
/-- `seq[s].rearm_us` (R330). -/
abbrev seqRearmUs : Nat := 0x2425
/-- `seq[s].fire_out` (R330). -/
abbrev seqFireOut : Nat := 0x2426
/-- `seq[s].timer[t].limit_us` (R330). -/
abbrev seqTimerLimitUs : Nat := 0x2427
/-- `seq[s].counter[c].limit` (R330). -/
abbrev seqCounterLimit : Nat := 0x2428
/-- `seq[s].window_us` (R330). -/
abbrev seqWindowUs : Nat := 0x2429
/-- `seq[s].rec_zone[i]` (R330). -/
abbrev seqRecZone : Nat := 0x242A
/-- `seq[s].status` (R330). -/
abbrev seqStatus : Nat := 0x242B
/-- `seq[s].state_now` (R330). -/
abbrev seqStateNow : Nat := 0x242C
/-- `seq[s].counter_now[c]` (R330). -/
abbrev seqCounterNow : Nat := 0x242D
/-- `seq[s].fires` (R330). -/
abbrev seqFires : Nat := 0x242E
/-- `seq[s].missed` (R330). -/
abbrev seqMissed : Nat := 0x242F
/-- `ink.status` (R362). -/
abbrev inkStatus : Nat := 0x2800
/-- `ink.blocks_coded` (R362). -/
abbrev inkBlocksCoded : Nat := 0x2801
/-- `ink.blocks_stored` (R362). -/
abbrev inkBlocksStored : Nat := 0x2802
/-- `ink.selfcheck_fail` (R362). -/
abbrev inkSelfcheckFail : Nat := 0x2803
/-- `ink.decode_errors` (R362). -/
abbrev inkDecodeErrors : Nat := 0x2804
/-- `ink.last_decode_error` (R362). -/
abbrev inkLastDecodeError : Nat := 0x2805
/-- `ink.ring_bits_per_point` (R362). -/
abbrev inkRingBitsPerPoint : Nat := 0x2806
/-- `ring.span_ms` (R362). -/
abbrev ringSpanMs : Nat := 0x2810
/-- `ring.enable` (R362). -/
abbrev ringEnable : Nat := 0x2811
/-- `ring.checkpoint_ms` (R362). -/
abbrev ringCheckpointMs : Nat := 0x2812
/-- `ring.pages_overwritten` (R362). -/
abbrev ringPagesOverwritten : Nat := 0x2813
/-- `ring.block_number` (R362). -/
abbrev ringBlockNumber : Nat := 0x2814
/-- `replay.jobs_done` (R362). -/
abbrev replayJobsDone : Nat := 0x2820
/-- `replay.jobs_partial` (R362). -/
abbrev replayJobsPartial : Nat := 0x2821
/-- `mem.grain_bytes` (R393). -/
abbrev memGrainBytes : Nat := 0x2C00
/-- `mem.hammer_threshold` (R393). -/
abbrev memHammerThreshold : Nat := 0x2C01
/-- `mem.retrain_delta_c` (R393). -/
abbrev memRetrainDeltaC : Nat := 0x2C02
/-- `mem.min_eye_steps` (R393). -/
abbrev memMinEyeSteps : Nat := 0x2C03
/-- `mem.quota_ring_mib` (R393). -/
abbrev memQuotaRingMib : Nat := 0x2C04
/-- `mem.quota_history_mib` (R393). -/
abbrev memQuotaHistoryMib : Nat := 0x2C05
/-- `mem.quota_records_mib` (R393). -/
abbrev memQuotaRecordsMib : Nat := 0x2C06
/-- `mem.quota_replay_mib` (R393). -/
abbrev memQuotaReplayMib : Nat := 0x2C07
/-- `mem.req[i].target_ns` (R393). -/
abbrev memReqTargetNs : Nat := 0x2C08
/-- `mem.req[i].late` (R393). -/
abbrev memReqLate : Nat := 0x2C09
/-- `mem.req[i].throttled` (R393). -/
abbrev memReqThrottled : Nat := 0x2C0A
/-- `mem.req[i].mbps` (R393). -/
abbrev memReqMbps : Nat := 0x2C0B
/-- `mem.sram_ce[x]` (R393). -/
abbrev memSramCe : Nat := 0x2C0C
/-- `mem.sram_ue[x]` (R393). -/
abbrev memSramUe : Nat := 0x2C0D
/-- `kennel.region_pages[y]` (R393). -/
abbrev kennelRegionPages : Nat := 0x2C10
/-- `kennel.region_used[y]` (R393). -/
abbrev kennelRegionUsed : Nat := 0x2C11
/-- `kennel.pages_free` (R393). -/
abbrev kennelPagesFree : Nat := 0x2C12
/-- `kennel.history_quota_pages` (R393). -/
abbrev kennelHistoryQuotaPages : Nat := 0x2C13
/-- `mem.port[a].rate_mts` (R393). -/
abbrev memPortRateMts : Nat := 0x2C20
/-- `mem.port[a].train_mode` (R393). -/
abbrev memPortTrainMode : Nat := 0x2C21
/-- `mem.port[a].dly_rd[l]` (R393). -/
abbrev memPortDlyRd : Nat := 0x2C22
/-- `mem.port[a].dly_wr[l]` (R393). -/
abbrev memPortDlyWr : Nat := 0x2C23
/-- `mem.port[a].dly_ca_a` (R393). -/
abbrev memPortDlyCaA : Nat := 0x2C24
/-- `mem.port[a].dly_ca_b` (R393). -/
abbrev memPortDlyCaB : Nat := 0x2C25
/-- `mem.port[a].trained_rd[l]` (R393). -/
abbrev memPortTrainedRd : Nat := 0x2C26
/-- `mem.port[a].trained_wr[l]` (R393). -/
abbrev memPortTrainedWr : Nat := 0x2C27
/-- `mem.port[a].eye_steps[l]` (R393). -/
abbrev memPortEyeSteps : Nat := 0x2C28
/-- `mem.port[a].status` (R393). -/
abbrev memPortStatus : Nat := 0x2C29
/-- `mem.port[a].capacity_mib` (R393). -/
abbrev memPortCapacityMib : Nat := 0x2C2A
/-- `mem.port[a].ce_count` (R393). -/
abbrev memPortCeCount : Nat := 0x2C2B
/-- `mem.port[a].ue_count` (R393). -/
abbrev memPortUeCount : Nat := 0x2C2C
/-- `mem.port[a].retired_pages` (R393). -/
abbrev memPortRetiredPages : Nat := 0x2C2D
/-- `mem.port[a].retrains` (R393). -/
abbrev memPortRetrains : Nat := 0x2C2E
/-- `mem.port[a].pasr_mask` (R393). -/
abbrev memPortPasrMask : Nat := 0x2C2F
/-- `mem.port[a].hammer_events` (R393). -/
abbrev memPortHammerEvents : Nat := 0x2C30
/-- `pair.enable` (R495). -/
abbrev pairEnable : Nat := 0x3000
/-- `pair.failover_ms` (R495). -/
abbrev pairFailoverMs : Nat := 0x3001
/-- `pair.auto_take` (R495). -/
abbrev pairAutoTake : Nat := 0x3002
/-- `pair.vacant_ms` (R495). -/
abbrev pairVacantMs : Nat := 0x3003
/-- `pair.switch_settle_us` (R495). -/
abbrev pairSwitchSettleUs : Nat := 0x3004
/-- `pair.feed_handover` (R495). -/
abbrev pairFeedHandover : Nat := 0x3005
/-- `pair.status` (R495). -/
abbrev pairStatus : Nat := 0x3006
/-- `pair.copy_epoch` (R495). -/
abbrev pairCopyEpoch : Nat := 0x3007
/-- `pair.copies_missed` (R495). -/
abbrev pairCopiesMissed : Nat := 0x3008
/-- `pair.handovers` (R495). -/
abbrev pairHandovers : Nat := 0x3009
/-- `pair.link_version` (R495). -/
abbrev pairLinkVersion : Nat := 0x300A
/-- `pair.time_offset_ns` (R495). -/
abbrev pairTimeOffsetNs : Nat := 0x300B
/-- `pair.leash_collisions` (R495). -/
abbrev pairLeashCollisions : Nat := 0x300C
/-- `pair.frame_errors` (R495). -/
abbrev pairFrameErrors : Nat := 0x300D
/-- `safety.status` (R517). -/
abbrev safetyStatus : Nat := 0x3400
/-- `safety.profile` (R517). -/
abbrev safetyProfile : Nat := 0x3401
/-- `safety.host_enable` (R517). -/
abbrev safetyHostEnable : Nat := 0x3402
/-- `safety.indicator_led` (R517). -/
abbrev safetyIndicatorLed : Nat := 0x3403
/-- `safety.locator_led[p]` (R517). -/
abbrev safetyLocatorLed : Nat := 0x3404
/-- `safety.apr_auto_restart` (R517). -/
abbrev safetyAprAutoRestart : Nat := 0x3405
/-- `safety.apr_restart_ms` (R517). -/
abbrev safetyAprRestartMs : Nat := 0x3406
/-- `safety.port_restart` (R517). -/
abbrev safetyPortRestart : Nat := 0x3407
/-- `safety.estop_release` (R517). -/
abbrev safetyEstopRelease : Nat := 0x3408
/-- `safety.sticky` (R517). -/
abbrev safetySticky : Nat := 0x3409
/-- `safety.inhibits` (R517). -/
abbrev safetyInhibits : Nat := 0x340A
/-- `led[j].enable` (R517). -/
abbrev ledEnable : Nat := 0x3410
/-- `led[j].max_ma` (R517). -/
abbrev ledMaxMa : Nat := 0x3411
/-- `led[j].brightness` (R517). -/
abbrev ledBrightness : Nat := 0x3412
/-- `led[j].short_mv` (R517). -/
abbrev ledShortMv : Nat := 0x3413
/-- `led[j].status` (R517). -/
abbrev ledStatus : Nat := 0x3414
/-- `led.cfb_enable` (R517). -/
abbrev ledCfbEnable : Nat := 0x3418
/-- `led.cfb_target[c]` (R517). -/
abbrev ledCfbTarget : Nat := 0x3419
/-- `led.cfb_trim[c]` (R517). -/
abbrev ledCfbTrim : Nat := 0x341A
/-- `panel.debounce_ms` (R517). -/
abbrev panelDebounceMs : Nat := 0x3430
/-- `panel.input_status` (R517). -/
abbrev panelInputStatus : Nat := 0x3431
/-- `panel.chatter[i]` (R517). -/
abbrev panelChatter : Nat := 0x3432
/-- `panel.locate_mask` (R517). -/
abbrev panelLocateMask : Nat := 0x3433
/-- `panel.locate_s` (R517). -/
abbrev panelLocateS : Nat := 0x3434
/-- `panel.status_led[c]` (R517). -/
abbrev panelStatusLed : Nat := 0x3435
/-- `panel.status_brightness` (R517). -/
abbrev panelStatusBrightness : Nat := 0x3436
/-- `cal.status` (R547). -/
abbrev calStatus : Nat := 0x3800
/-- `cal.rejects` (R547). -/
abbrev calRejects : Nat := 0x3801
/-- `cal.watch_period_s` (R547). -/
abbrev calWatchPeriodS : Nat := 0x3802
/-- `tele.queue` (R547). -/
abbrev teleQueue : Nat := 0x3C00
/-- `tele.interval_ms` (R547). -/
abbrev teleIntervalMs : Nat := 0x3C01
/-- `tele.sequence` (R547). -/
abbrev teleSequence : Nat := 0x3C02
/-- `log.flash_rate_per_h` (R547). -/
abbrev logFlashRatePerH : Nat := 0x3C03
/-- `log.newest` (R547). -/
abbrev logNewest : Nat := 0x3C04
/-- `log.oldest` (R547). -/
abbrev logOldest : Nat := 0x3C05
/-- `log.suppressed` (R547). -/
abbrev logSuppressed : Nat := 0x3C06
/-- `log.bad_entries` (R547). -/
abbrev logBadEntries : Nat := 0x3C07
/-- `log.max_erases` (R547). -/
abbrev logMaxErases : Nat := 0x3C08
/-- `integ.status` (R547). -/
abbrev integStatus : Nat := 0x3C09
/-- `integ.xresync_count` (R547). -/
abbrev integXresyncCount : Nat := 0x3C0A
/-- `integ.xovf_count` (R547). -/
abbrev integXovfCount : Nat := 0x3C0B
end Pid

/-- Rows 0 to 39 of the parameter table, in ID order. -/
def paramRows0 : List ParamDef := [
  ⟨0x0102, "id.grade", .one, .span 0 65535, .const 0, .atBoot, .ro, .plain⟩,
  ⟨0x0108, "id.straps", .one, .span (0) (65535), .const 0, .atBoot, .ro, .plain⟩,
  ⟨0x0109, "id.jtag_idcode", .one, .span (0) (4294967295), .const 0, .atBoot, .ro, .plain⟩,
  ⟨0x0110, "fw.version", .one, .span (0) (4294967295), .const 0, .atBoot, .ro, .plain⟩,
  ⟨0x0111, "fw.slot", .one, .span 0 65535, .const 0, .atBoot, .ro, .plain⟩,
  ⟨0x0112, "fw.state", .one, .span 0 65535, .const 0, .atOnce, .ro, .plain⟩,
  ⟨0x0113, "fw.confirm_timeout_s", .one, .span (60) 3600, .const (600), .atOnce, .rw, .plain⟩,
  ⟨0x0114, "fw.secver_min", .one, .span (0) (65535), .const (0), .atOnce, .ro, .plain⟩,
  ⟨0x0200, "mode.current", .one, .span 0 65535, .const 0, .atOnce, .ro, .plain⟩,
  ⟨0x0201, "mode.previous", .one, .span 0 65535, .const 0, .atOnce, .ro, .plain⟩,
  ⟨0x0202, "mode.auto_run", .one, .span 0 1, .const (0), .atCommit, .rw, .plain⟩,
  ⟨0x0203, "mode.sentinel_port", .one, .span (0) 3, .const (0), .atCommit, .rw, .plain⟩,
  ⟨0x0204, "mode.sentinel_period_cells", .one, .spanOr (4000) 1048576 [0], .const (0), .atCommit, .rw, .plain⟩,
  ⟨0x0205, "mode.sentinel_dts_divider", .one, .span (1) 64, .const (4), .atCommit, .rw, .plain⟩,
  ⟨0x0206, "mode.reset_record", .one, .span (0) (65535), .const (0), .atOnce, .w1c 0xFF 0xFF00, .plain⟩,
  ⟨0x0207, "mode.fault_code", .one, .span (0) (65535), .const (0), .atOnce, .ro, .plain⟩,
  ⟨0x0208, "mode.transitions", .one, .span (0) (4294967295), .const (0), .atOnce, .ro, .wraps⟩,
  ⟨0x0209, "mode.scribe_watchdog_ms", .one, .span (100) 10000, .const (1000), .atBoot, .rw, .plain⟩,
  ⟨0x0210, "cfg.confirm_timeout_s", .one, .span (0) 3600, .const (120), .atOnce, .rw, .plain⟩,
  ⟨0x0211, "cfg.active_epoch", .one, .span (0) (4294967295), .const 0, .atOnce, .ro, .plain⟩,
  ⟨0x0212, "cfg.previous_epoch", .one, .span (0) (4294967295), .const 0, .atOnce, .ro, .plain⟩,
  ⟨0x0213, "cfg.bank_state", .one, .span 0 65535, .const 0, .atOnce, .ro, .plain⟩,
  ⟨0x0214, "cfg.record_format", .one, .span (0) (255), .const 0, .atOnce, .ro, .plain⟩,
  ⟨0x0215, "cfg.confirm_remaining_s", .one, .span (0) (65535), .const 0, .atOnce, .ro, .plain⟩,
  ⟨0x0240, "power.rail_status", .one, .span (0) (65535), .const 0, .atOnce, .ro, .plain⟩,
  ⟨0x0241, "power.reset_cause", .one, .span (0) (65535), .const 1, .atOnce, .w1c 0x3F 0xFFC0, .plain⟩,
  ⟨0x0242, "power.feed_status", .one, .span (0) (255), .const 0, .atOnce, .ro, .plain⟩,
  ⟨0x0243, "power.feed_debounce_ms", .one, .span (1) 255, .const (10), .atOnce, .rw, .plain⟩,
  ⟨0x0244, "power.feed_a_loss_action", .one, .span 0 2, .const 0, .atOnce, .rw, .plain⟩,
  ⟨0x0245, "power.feed_b_loss_action", .one, .span 0 2, .const 0, .atOnce, .rw, .plain⟩,
  ⟨0x0300, "clk.ref_select", .one, .span 0 3, .const 0, .atOnce, .rw, .plain⟩,
  ⟨0x0301, "clk.ref_qualify_ms", .one, .span (10) 60000, .const (1000), .atOnce, .rw, .plain⟩,
  ⟨0x0302, "clk.status", .one, .span (0) (65535), .const 0, .atOnce, .ro, .plain⟩,
  ⟨0x0303, "clk.pll_status", .one, .span (0) (65535), .const 0, .atOnce, .w1c 0x1F00 0xE0E0, .plain⟩,
  ⟨0x0304, "clk.refin_freq_hz", .one, .span (0) (4294967295), .const 0, .atOnce, .ro, .plain⟩,
  ⟨0x0305, "clk.ocxo_freq_hz", .one, .span (0) (4294967295), .const 0, .atOnce, .ro, .plain⟩,
  ⟨0x0306, "clk.ref_switches", .one, .span (0) (4294967295), .const (0), .atOnce, .ro, .wraps⟩,
  ⟨0x0400, "host.pcie_max_gen", .one, .span (1) 4, .const (4), .atBoot, .rw, .plain⟩,
  ⟨0x0401, "host.pcie_max_width", .one, .oneOf [1, 2, 4], .const (4), .atBoot, .rw, .plain⟩,
  ⟨0x0402, "host.pcie_subsys_vendor", .one, .span (0) 65535, .const (0), .atBoot, .rw, .plain⟩]

/-- Rows 40 to 79 of the parameter table, in ID order. -/
def paramRows1 : List ParamDef := [
  ⟨0x0403, "host.pcie_subsys_id", .one, .span (0) 65535, .const (0), .atBoot, .rw, .plain⟩,
  ⟨0x0404, "host.pcie_aer_count", .one, .span (0) (4294967295), .const (0), .atOnce, .ro, .sat⟩,
  ⟨0x0410, "host.queue[q].link", .idx 8, .span 0 3, .const 1, .atCommit, .rw, .plain⟩,
  ⟨0x0411, "host.queue[q].ring_base", .idx 8, .aligned 64 18446744073709551615, .const (0), .atOnce, .rw, .plain⟩,
  ⟨0x0412, "host.queue[q].ring_entries", .idx 8, .oneOf [64, 128, 256, 512, 1024, 2048, 4096, 8192, 16384, 32768, 65536], .const (1024), .atOnce, .rw, .plain⟩,
  ⟨0x0413, "host.queue[q].irq_items", .idx 8, .span (1) 65535, .const (16), .atOnce, .rw, .plain⟩,
  ⟨0x0414, "host.queue[q].irq_usec", .idx 8, .span (0) 65535, .const (100), .atOnce, .rw, .plain⟩,
  ⟨0x0415, "host.queue[q].eth_mode", .idx 8, .span 0 1, .const 0, .atCommit, .rw, .plain⟩,
  ⟨0x0416, "host.queue[q].dest_addr_hi", .idx 8, .span (0) 18446744073709551615, .const (0), .atCommit, .rw, .plain⟩,
  ⟨0x0417, "host.queue[q].dest_addr_lo", .idx 8, .span (0) 18446744073709551615, .const (0), .atCommit, .rw, .plain⟩,
  ⟨0x0418, "host.queue[q].dest_port", .idx 8, .span (1024) 65535, .const (49641), .atCommit, .rw, .plain⟩,
  ⟨0x0419, "host.queue[q].dest_mac", .idx 8, .span 0 281474976710655, .const (0), .atCommit, .rw, .plain⟩,
  ⟨0x041A, "host.queue[q].max_mbps", .idx 8, .span (0) 10000, .const (0), .atOnce, .rw, .plain⟩,
  ⟨0x041B, "host.queue[q].items", .idx 8, .span (0) (4294967295), .const (0), .atOnce, .ro, .wraps⟩,
  ⟨0x041C, "host.queue[q].drops", .idx 8, .span (0) (4294967295), .const (0), .atOnce, .ro, .sat⟩,
  ⟨0x041D, "host.queue[q].bytes", .idx 8, .span (0) (18446744073709551615), .const (0), .atOnce, .ro, .wraps⟩,
  ⟨0x0440, "host.eth[n].enable", .idx 2, .span 0 1, .perIdx [1, 0], .atCommit, .rw, .plain⟩,
  ⟨0x0441, "host.eth[n].rate", .idx 2, .span 0 1, .const 0, .atCommit, .rw, .plain⟩,
  ⟨0x0442, "host.eth[n].mtu", .idx 2, .span (1280) 9000, .const (1500), .atCommit, .rw, .plain⟩,
  ⟨0x0443, "host.eth[n].mac", .idx 2, .span (0) (18446744073709551615), .const 0, .atBoot, .ro, .plain⟩,
  ⟨0x0444, "host.eth[n].ipv4", .idx 2, .span (0) 4294967295, .const (0), .atCommit, .rw, .plain⟩,
  ⟨0x0445, "host.eth[n].ipv4_prefix", .idx 2, .span (0) 32, .const (24), .atCommit, .rw, .plain⟩,
  ⟨0x0446, "host.eth[n].ipv4_gateway", .idx 2, .span (0) 4294967295, .const (0), .atCommit, .rw, .plain⟩,
  ⟨0x0447, "host.eth[n].ipv6_hi", .idx 2, .span (0) 18446744073709551615, .const (0), .atCommit, .rw, .plain⟩,
  ⟨0x0448, "host.eth[n].ipv6_lo", .idx 2, .span (0) 18446744073709551615, .const (0), .atCommit, .rw, .plain⟩,
  ⟨0x0449, "host.eth[n].vlan", .idx 2, .spanOr 1 4094 [0], .const (0), .atCommit, .rw, .plain⟩,
  ⟨0x044A, "host.eth[n].status", .idx 2, .span (0) (65535), .const (0), .atOnce, .w1c 0x20 0xFFC0, .plain⟩,
  ⟨0x044B, "host.eth[n].rx_dropped", .idx 2, .span (0) (4294967295), .const (0), .atOnce, .ro, .sat⟩,
  ⟨0x044C, "host.eth[n].link_changes", .idx 2, .span (0) (4294967295), .const (0), .atOnce, .ro, .wraps⟩,
  ⟨0x0460, "host.spi_enable", .one, .span 0 1, .const (1), .atOnce, .rw, .plain⟩,
  ⟨0x0461, "host.smb_pec_errors", .one, .span (0) (4294967295), .const (0), .atOnce, .ro, .sat⟩,
  ⟨0x0462, "host.console_level", .one, .span 0 4, .const 3, .atOnce, .rw, .plain⟩,
  ⟨0x0463, "host.flash_size_mib", .one, .span (0) (65535), .const 0, .atBoot, .ro, .plain⟩,
  ⟨0x0464, "host.flash_jedec_id", .one, .span (0) (4294967295), .const 0, .atBoot, .ro, .plain⟩,
  ⟨0x0480, "host.oxras_udp_enable", .one, .span 0 1, .const (1), .atOnce, .rw, .plain⟩,
  ⟨0x0481, "host.oxras_udp_port", .one, .span (1024) 65535, .const (49640), .atOnce, .rw, .plain⟩,
  ⟨0x0482, "host.oxras_session_timeout_s", .one, .span (5) 3600, .const (30), .atOnce, .rw, .plain⟩,
  ⟨0x0483, "host.evq_owner", .one, .span 0 1, .const 0, .atOnce, .rw, .plain⟩,
  ⟨0x0484, "host.viol_pcie", .one, .span (0) (4294967295), .const (0), .atOnce, .ro, .sat⟩,
  ⟨0x0485, "host.viol_spi", .one, .span (0) (4294967295), .const (0), .atOnce, .ro, .sat⟩]

/-- Rows 80 to 119 of the parameter table, in ID order. -/
def paramRows2 : List ParamDef := [
  ⟨0x0486, "host.viol_eth", .one, .span (0) (4294967295), .const (0), .atOnce, .ro, .sat⟩,
  ⟨0x0487, "host.viol_peer", .one, .span (0) (4294967295), .const (0), .atOnce, .ro, .sat⟩,
  ⟨0x0488, "host.throttles", .one, .span (0) (4294967295), .const (0), .atOnce, .ro, .wraps⟩,
  ⟨0x0489, "host.evq_lost", .one, .span (0) (4294967295), .const (0), .atOnce, .ro, .sat⟩,
  ⟨0x048A, "host.journal_newest", .one, .span (0) (4294967295), .const 0, .atOnce, .ro, .plain⟩,
  ⟨0x0500, "time.select", .one, .span 0 1, .const 0, .atOnce, .rw, .plain⟩,
  ⟨0x0501, "time.switch_max_offset_ns", .one, .span (0) 1000000000, .const (1000), .atOnce, .rw, .plain⟩,
  ⟨0x0502, "time.slew_ppm", .one, .span (1) 100, .const (100), .atOnce, .rw, .plain⟩,
  ⟨0x0503, "time.max_slew_ns", .one, .span (1000) 1000000000, .const (1000000), .atOnce, .rw, .plain⟩,
  ⟨0x0504, "time.revert", .one, .span 0 1, .const (0), .atOnce, .rw, .plain⟩,
  ⟨0x0505, "time.status", .one, .span (0) (65535), .const (0), .atOnce, .w1c 0x400 0xF800, .plain⟩,
  ⟨0x0506, "time.axis_offset_ns", .one, .span (-9223372036854775808) (9223372036854775807), .const 0, .atOnce, .ro, .plain⟩,
  ⟨0x0507, "time.holdovers", .one, .span (0) (4294967295), .const (0), .atOnce, .ro, .wraps⟩,
  ⟨0x0510, "time.dom[d].increment", .idx 2, .span (1373015145185) 1375763924255, .const (1374389534720), .atOnce, .rw, .plain⟩,
  ⟨0x0511, "time.dom[d].adjust_ns", .idx 2, .span (-9223372036854775808) 9223372036854775807, .const (0), .atOnce, .wo, .plain⟩,
  ⟨0x0512, "time.dom[d].servo_state", .idx 2, .span 0 1, .const 0, .atOnce, .rw, .plain⟩,
  ⟨0x0513, "time.dom[d].servo_timeout_ms", .idx 2, .span (100) 60000, .const (4000), .atOnce, .rw, .plain⟩,
  ⟨0x0514, "time.dom[d].sync_loss_ms", .idx 2, .span (100) 60000, .const (3000), .atOnce, .rw, .plain⟩,
  ⟨0x0515, "time.dom[d].ptp_domain", .idx 2, .span (0) 255, .plus 0, .atCommit, .rw, .plain⟩,
  ⟨0x0516, "time.dom[d].sdo_id", .idx 2, .span (0) 4095, .const 0, .atCommit, .rw, .plain⟩,
  ⟨0x0517, "time.dom[d].eth_port", .idx 2, .span (0) 1, .const (0), .atCommit, .rw, .plain⟩,
  ⟨0x0518, "time.dom[d].mechanism", .idx 2, .span 0 1, .const 0, .atCommit, .rw, .plain⟩,
  ⟨0x0519, "time.dom[d].transport", .idx 2, .span 0 2, .const 1, .atCommit, .rw, .plain⟩,
  ⟨0x051A, "time.dom[d].offset_ns", .idx 2, .span (-9223372036854775808) (9223372036854775807), .const 0, .atOnce, .ro, .plain⟩,
  ⟨0x051B, "time.dom[d].path_delay_ns", .idx 2, .span (-2147483648) (2147483647), .const 0, .atOnce, .ro, .plain⟩,
  ⟨0x051C, "time.dom[d].meas_seq", .idx 2, .span (0) (65535), .const 0, .atOnce, .ro, .wraps⟩,
  ⟨0x051D, "time.dom[d].master_id", .idx 2, .span (0) (18446744073709551615), .const 0, .atOnce, .ro, .plain⟩,
  ⟨0x051E, "time.dom[d].status", .idx 2, .span (0) (65535), .const (0), .atOnce, .w1c 0x8 0xFFC0, .plain⟩,
  ⟨0x051F, "time.dom[d].now_s", .idx 2, .span (0) (18446744073709551615), .const 0, .atOnce, .ro, .plain⟩,
  ⟨0x0520, "time.dom[d].now_ns", .idx 2, .span (0) (4294967295), .const 0, .atOnce, .ro, .plain⟩,
  ⟨0x0528, "time.eth[n].rx_latency_ps", .idx 2, .span (0) 100000, .const (0), .atOnce, .rw, .plain⟩,
  ⟨0x0529, "time.eth[n].tx_latency_ps", .idx 2, .span (0) 100000, .const (0), .atOnce, .rw, .plain⟩,
  ⟨0x0580, "tdc.mode", .one, .span 0 2, .const 0, .atOnce, .rw, .plain⟩,
  ⟨0x0581, "tdc.start_source", .one, .span 0 5, .const (0), .atOnce, .rw, .plain⟩,
  ⟨0x0582, "tdc.stop_source", .one, .span 0 5, .const (1), .atOnce, .rw, .plain⟩,
  ⟨0x0583, "tdc.start_port", .one, .span (0) 3, .const (0), .atOnce, .rw, .plain⟩,
  ⟨0x0584, "tdc.stop_port", .one, .span (0) 3, .const (0), .atOnce, .rw, .plain⟩,
  ⟨0x0585, "tdc.start_edge", .one, .span 0 1, .const 0, .atOnce, .rw, .plain⟩,
  ⟨0x0586, "tdc.stop_edge", .one, .span 0 1, .const 0, .atOnce, .rw, .plain⟩,
  ⟨0x0587, "tdc.count", .one, .span (1) 65535, .const (1), .atOnce, .rw, .plain⟩]

/-- Rows 120 to 159 of the parameter table, in ID order. -/
def paramRows3 : List ParamDef := [
  ⟨0x0588, "tdc.arm", .one, .span 0 1, .const (0), .atOnce, .rw, .plain⟩,
  ⟨0x0589, "tdc.result_lsb", .one, .span (-9223372036854775808) (9223372036854775807), .const (0), .atOnce, .ro, .plain⟩,
  ⟨0x058A, "tdc.mean_lsb", .one, .span (-9223372036854775808) (9223372036854775807), .const (0), .atOnce, .ro, .plain⟩,
  ⟨0x058B, "tdc.sdev_lsb", .one, .span (0) (4294967295), .const (0), .atOnce, .ro, .plain⟩,
  ⟨0x058C, "tdc.done", .one, .span (0) (65535), .const (0), .atOnce, .ro, .plain⟩,
  ⟨0x058D, "tdc.status", .one, .span (0) (65535), .const (0), .atOnce, .ro, .plain⟩,
  ⟨0x058E, "tdc.stamp_s", .one, .span (0) (18446744073709551615), .const (0), .atOnce, .ro, .plain⟩,
  ⟨0x058F, "tdc.stamp_lsb", .one, .span (0) (18446744073709551615), .const (0), .atOnce, .ro, .plain⟩,
  ⟨0x0598, "tdc.cmp[i].threshold_mv", .idx 3, .span (0) 3000, .const (1250), .atOnce, .rw, .plain⟩,
  ⟨0x0599, "tdc.cmp[i].hysteresis_mv", .idx 3, .span (10) 80, .const (20), .atOnce, .rw, .plain⟩,
  ⟨0x059A, "tdc.cmp[i].holdoff_ns", .idx 3, .span (0) 10000, .const (0), .atOnce, .rw, .plain⟩,
  ⟨0x0600, "grid.period_cells", .idx 4, .span (4000) 1048576, .const (73728), .atCommit, .rw, .plain⟩,
  ⟨0x0601, "grid.offset_cells", .idx 4, .span (0) 1048575, .const (0), .atCommit, .rw, .plain⟩,
  ⟨0x0602, "grid.interval_dev_cells", .idx 4, .span (-32768) (32767), .const 0, .atOnce, .ro, .plain⟩,
  ⟨0x0610, "sync.enable", .one, .span 0 1, .const (0), .atOnce, .rw, .plain⟩,
  ⟨0x0611, "sync.period_ns", .one, .span (1000) 1000000000, .const (20000000), .atOnce, .rw, .plain⟩,
  ⟨0x0612, "sync.phase_ns", .one, .span 0 999999999, .const (0), .atOnce, .rw, .plain⟩,
  ⟨0x0613, "sync.edge", .one, .span 0 1, .const 0, .atOnce, .rw, .plain⟩,
  ⟨0x0614, "sync.pull_ppm", .one, .span (10) 20000, .const (1000), .atOnce, .rw, .plain⟩,
  ⟨0x0615, "sync.window_pct", .one, .span (1) 50, .const (10), .atOnce, .rw, .plain⟩,
  ⟨0x0616, "sync.lock_ns", .one, .span (10) 1000000, .const (1000), .atOnce, .rw, .plain⟩,
  ⟨0x0617, "sync.phase_err_ns", .one, .span (-2147483648) (2147483647), .const 0, .atOnce, .ro, .plain⟩,
  ⟨0x0618, "sync.chatter", .one, .span (0) (4294967295), .const (0), .atOnce, .ro, .sat⟩,
  ⟨0x0619, "sync.stray", .one, .span (0) (4294967295), .const (0), .atOnce, .ro, .sat⟩,
  ⟨0x061A, "sync.losses", .one, .span (0) (4294967295), .const (0), .atOnce, .ro, .wraps⟩,
  ⟨0x0620, "tout[u].mode", .idx 4, .span 0 3, .const 0, .atOnce, .rw, .plain⟩,
  ⟨0x0621, "tout[u].timebase", .idx 4, .span 0 2, .const 0, .atOnce, .rw, .plain⟩,
  ⟨0x0622, "tout[u].start_s", .idx 4, .span 0 281474976710655, .const (0), .atOnce, .rw, .plain⟩,
  ⟨0x0623, "tout[u].start_ns", .idx 4, .span (0) 999999999, .const (0), .atOnce, .rw, .plain⟩,
  ⟨0x0624, "tout[u].period_ns", .idx 4, .span (20) 4000000000, .const (1000000000), .atOnce, .rw, .plain⟩,
  ⟨0x0625, "tout[u].width_ns", .idx 4, .span (10) 3999999999, .const (1000), .atOnce, .rw, .plain⟩,
  ⟨0x0626, "tout[u].polarity", .idx 4, .span 0 1, .const 0, .atOnce, .rw, .plain⟩,
  ⟨0x0627, "tout[u].grid_port", .idx 4, .span (0) 3, .const (0), .atOnce, .rw, .plain⟩,
  ⟨0x0628, "tout[u].late", .idx 4, .span (0) (4294967295), .const (0), .atOnce, .ro, .wraps⟩,
  ⟨0x1000, "port[p].enable", .port 1, .span 0 1, .const (0), .atCommit, .rw, .plain⟩,
  ⟨0x1001, "port[p].slots", .port 1, .oneOf [1, 2, 4, 8], .const (1), .atCommit, .rw, .plain⟩,
  ⟨0x1002, "port[p].trace_cells", .port 1, .span (4000) 262144, .const (65536), .atCommit, .rw, .plain⟩,
  ⟨0x1003, "port[p].group_index", .port 1, .span (1400000) 1520000, .const (1468200), .atCommit, .rw, .plain⟩,
  ⟨0x1004, "port[p].origin_cells", .port 1, .span (0) 4095, .const (0), .atCommit, .rw, .plain⟩,
  ⟨0x1005, "port[p].refcoil_length_mm", .port 1, .span (1000) 2000000, .const (200000), .atCommit, .rw, .plain⟩]

/-- Rows 160 to 199 of the parameter table, in ID order. -/
def paramRows4 : List ParamDef := [
  ⟨0x1008, "port[p].slot[k].glyph", .port 8, .span (0) 15, .const (0), .atCommit, .rw, .plain⟩,
  ⟨0x1010, "port[p].glyph[g].base", .port 16, .span (0) 32767, .const (0), .atCommit, .rw, .plain⟩,
  ⟨0x1011, "port[p].glyph[g].samples", .port 16, .span (1) 4096, .const (1024), .atCommit, .rw, .plain⟩,
  ⟨0x1012, "port[p].glyph[g].format", .port 16, .span 0 3, .const 3, .atCommit, .rw, .plain⟩,
  ⟨0x1013, "port[p].glyph[g].gain", .port 16, .span (0) 65535, .const (16384), .atCommit, .rw, .plain⟩,
  ⟨0x1014, "port[p].glyph_mem[w]", .port 8192, .span (0) 18446744073709551615, .const (0), .atCommit, .rw, .plain⟩,
  ⟨0x1018, "port[p].prb_scale", .port 1, .span (0) 65535, .const (32768), .atCommit, .rw, .plain⟩,
  ⟨0x1019, "port[p].prb_clip_count", .port 1, .span (0) (4294967295), .const (0), .atOnce, .ro, .sat⟩,
  ⟨0x101A, "port[p].gate_lead_ticks", .port 1, .span (0) 400, .const (16), .atCommit, .rw, .plain⟩,
  ⟨0x101B, "port[p].gate_tail_ticks", .port 1, .span (0) 400, .const (8), .atCommit, .rw, .plain⟩,
  ⟨0x101C, "port[p].ramtrg_offset_ticks", .port 1, .span (0) 8000, .const (0), .atCommit, .rw, .plain⟩,
  ⟨0x101D, "port[p].ramtrg_width_ticks", .port 1, .span (8) 800, .const (16), .atCommit, .rw, .plain⟩,
  ⟨0x1020, "port[p].lmon_threshold_mv", .port 1, .span (20) 1200, .const (300), .atCommit, .rw, .plain⟩,
  ⟨0x1021, "port[p].lmon_window_ns", .port 1, .span (10) 5000, .const (500), .atCommit, .rw, .plain⟩,
  ⟨0x1022, "port[p].lmon_miss_limit", .port 1, .span (1) 255, .const (8), .atOnce, .rw, .plain⟩,
  ⟨0x1023, "port[p].lmon_status", .port 1, .span (0) (65535), .const (0), .atOnce, .w1c 0x14 0xFFE0, .plain⟩,
  ⟨0x1024, "port[p].launch_latency_ps", .port 1, .span (0) (4294967295), .const (0), .atOnce, .ro, .plain⟩,
  ⟨0x1028, "port[p].das_gain", .port 1, .oneOf [0, 6, 12, 18], .const (0), .nextRound, .rw, .plain⟩,
  ⟨0x1029, "port[p].das_autorange", .port 1, .span 0 1, .const (1), .nextRound, .rw, .plain⟩,
  ⟨0x102A, "port[p].autorange_low_pct", .port 1, .span (10) 45, .const (40), .nextRound, .rw, .plain⟩,
  ⟨0x102B, "port[p].raman_as_gain", .port 1, .oneOf [0, 6, 12, 18], .const (0), .atCommit, .rw, .plain⟩,
  ⟨0x102C, "port[p].raman_st_gain", .port 1, .oneOf [0, 6, 12, 18], .const (0), .atCommit, .rw, .plain⟩,
  ⟨0x102D, "port[p].gain_steps", .port 1, .span (0) (4294967295), .const (0), .atOnce, .ro, .wraps⟩,
  ⟨0x1030, "port[p].ovr_guard", .port 1, .span (0) 255, .const (16), .nextRound, .rw, .plain⟩,
  ⟨0x1031, "port[p].raman_ovr_guard", .port 1, .span (0) 255, .const (16), .nextRound, .rw, .plain⟩,
  ⟨0x1032, "port[p].ovr_count", .port 1, .span (0) (4294967295), .const (0), .atOnce, .ro, .sat⟩,
  ⟨0x1033, "port[p].raman_ovr_count", .port 1, .span (0) (4294967295), .const (0), .atOnce, .ro, .sat⟩,
  ⟨0x1038, "port[p].blank_enable", .port 1, .span 0 1, .const (0), .atCommit, .rw, .plain⟩,
  ⟨0x1039, "port[p].blank_polarity", .port 1, .span 0 1, .const 0, .atCommit, .rw, .plain⟩,
  ⟨0x103A, "port[p].blank_margin", .port 1, .span (0) 16, .const (2), .atCommit, .rw, .plain⟩,
  ⟨0x103C, "port[p].blot[b].start_cells", .port 8, .span (0) 262143, .const (0), .atCommit, .rw, .plain⟩,
  ⟨0x103D, "port[p].blot[b].length_cells", .port 8, .span (0) 65535, .const (0), .atCommit, .rw, .plain⟩,
  ⟨0x1040, "port[p].adc_corr_enable", .port 1, .span 0 1, .const (1), .nextRound, .rw, .plain⟩,
  ⟨0x1048, "port[p].survey_scale", .port 1, .span (0) 65535, .const (8192), .atModeEntry, .rw, .plain⟩,
  ⟨0x1050, "port[p].stroke_latency_cells", .port 1, .span (0) (4294967295), .const 0, .atOnce, .ro, .plain⟩,
  ⟨0x1051, "port[p].comp_taps", .port 1, .span (0) (65535), .const 0, .atOnce, .ro, .plain⟩,
  ⟨0x1052, "port[p].comp_block", .port 1, .span (0) (65535), .const 0, .atOnce, .ro, .plain⟩,
  ⟨0x1053, "port[p].comp_shift", .port 1, .span (0) (255), .const 0, .atOnce, .ro, .plain⟩,
  ⟨0x1054, "port[p].amp_shift", .port 1, .span (0) 15, .const (8), .nextRound, .rw, .plain⟩,
  ⟨0x1055, "port[p].mask_hold_pct", .port 1, .span (1) 100, .const (25), .atCommit, .rw, .plain⟩]

/-- Rows 200 to 239 of the parameter table, in ID order. -/
def paramRows5 : List ParamDef := [
  ⟨0x1056, "port[p].fade_hold", .port 1, .span 0 1, .const (1), .nextRound, .rw, .plain⟩,
  ⟨0x1057, "port[p].fade_pct", .port 1, .span (1) 50, .const (10), .nextRound, .rw, .plain⟩,
  ⟨0x1058, "port[p].fade_floor", .port 1, .span (0) 65535, .const (16), .nextRound, .rw, .plain⟩,
  ⟨0x1059, "port[p].slot_track_shift", .port 1, .span (8) 24, .const (16), .atCommit, .rw, .plain⟩,
  ⟨0x105A, "port[p].pol_track_shift", .port 1, .span (2) 12, .const (6), .atCommit, .rw, .plain⟩,
  ⟨0x105B, "port[p].rebase_gap_ms", .port 1, .span (1) 60000, .const (100), .atCommit, .rw, .plain⟩,
  ⟨0x105C, "port[p].stroke_status", .port 1, .span (0) (65535), .const (0), .atOnce, .w1c 0x1C 0xFFE0, .plain⟩,
  ⟨0x105D, "port[p].fade_ppm", .port 1, .span (0) (4294967295), .const 0, .atOnce, .ro, .plain⟩,
  ⟨0x105E, "port[p].held_ppm", .port 1, .span (0) (4294967295), .const 0, .atOnce, .ro, .plain⟩,
  ⟨0x105F, "port[p].discont_count", .port 1, .span (0) (4294967295), .const (0), .atOnce, .ro, .wraps⟩,
  ⟨0x1060, "port[p].rebaselines", .port 1, .span (0) (4294967295), .const (0), .atOnce, .ro, .wraps⟩,
  ⟨0x1061, "port[p].lost_shots", .port 1, .span (0) (4294967295), .const (0), .atOnce, .ro, .sat⟩,
  ⟨0x1062, "port[p].stroke_sat_count", .port 1, .span (0) (4294967295), .const (0), .atOnce, .ro, .sat⟩,
  ⟨0x1400, "raman[p].enable", .idx 4, .span 0 1, .const (0), .atCommit, .rw, .plain⟩,
  ⟨0x1401, "raman[p].shots_log2", .idx 4, .span (10) 20, .const (16), .atCommit, .rw, .plain⟩,
  ⟨0x1402, "raman[p].origin_cells", .idx 4, .span (0) 4095, .const (0), .atCommit, .rw, .plain⟩,
  ⟨0x1403, "raman[p].dark_cells", .idx 4, .oneOf [64, 128, 256, 512, 1024, 2048, 4096], .const (256), .atCommit, .rw, .plain⟩,
  ⟨0x1404, "raman[p].dark_limit", .idx 4, .span (0) 8388607, .const (8192), .atCommit, .rw, .plain⟩,
  ⟨0x1405, "raman[p].ref_rtd", .idx 4, .span (0) 7, .plus 0, .atCommit, .rw, .plain⟩,
  ⟨0x1406, "raman[p].ref_first", .idx 4, .span (0) 65279, .const (20), .atCommit, .rw, .plain⟩,
  ⟨0x1407, "raman[p].ref_cells_log2", .idx 4, .span (4) 8, .const (7), .atCommit, .rw, .plain⟩,
  ⟨0x1408, "raman[p].mask_hold", .idx 4, .span 0 1, .const (1), .atCommit, .rw, .plain⟩,
  ⟨0x1409, "raman[p].st_floor", .idx 4, .span (1) 8388607, .const (256), .atCommit, .rw, .plain⟩,
  ⟨0x140A, "raman[p].shots_done", .idx 4, .span (0) (4294967295), .const 0, .atOnce, .ro, .plain⟩,
  ⟨0x140B, "raman[p].traces", .idx 4, .span (0) (4294967295), .const (0), .atOnce, .ro, .wraps⟩,
  ⟨0x140C, "raman[p].masked_shots", .idx 4, .span (0) (4294967295), .const (0), .atOnce, .ro, .sat⟩,
  ⟨0x140D, "raman[p].dark_stale", .idx 4, .span (0) (4294967295), .const (0), .atOnce, .ro, .sat⟩,
  ⟨0x140E, "raman[p].status", .idx 4, .span (0) (65535), .const (0), .atOnce, .w1c 0x24 0xFFC0, .plain⟩,
  ⟨0x140F, "raman[p].ln_ref", .idx 4, .span (-2147483648) (2147483647), .const 0, .atOnce, .ro, .plain⟩,
  ⟨0x1410, "raman[p].t_ref", .idx 4, .span (-2147483648) (2147483647), .const 0, .atOnce, .ro, .plain⟩,
  ⟨0x1420, "thermal[p].gamma_mk", .idx 4, .span (400000) 900000, .const (633500), .atCommit, .rw, .plain⟩,
  ⟨0x1421, "thermal[p].diff_loss_mdb_km", .idx 4, .span (-1000) 1000, .const (30), .atCommit, .rw, .plain⟩,
  ⟨0x1422, "thermal[p].step[k].cell", .idx2 4 16, .span (0) 65535, .const (0), .atCommit, .rw, .plain⟩,
  ⟨0x1423, "thermal[p].step[k].mdb", .idx2 4 16, .span (-2000) 2000, .const (0), .atCommit, .rw, .plain⟩,
  ⟨0x1424, "thermal[p].coef[k]", .idx2 4 6, .span (-2147483648) 2147483647, .const (0), .atCommit, .rw, .plain⟩,
  ⟨0x1425, "thermal[p].min_c", .idx 4, .span (-27315) 32767, .const (-5000), .atCommit, .rw, .plain⟩,
  ⟨0x1426, "thermal[p].max_c", .idx 4, .span (-27315) 32767, .const (30000), .atCommit, .rw, .plain⟩,
  ⟨0x1500, "rtd[k].enable", .idx 8, .span 0 1, .const (0), .atCommit, .rw, .plain⟩,
  ⟨0x1501, "rtd[k].type", .idx 8, .span 0 1, .const 0, .atOnce, .rw, .plain⟩,
  ⟨0x1502, "rtd[k].current", .idx 8, .oneOf [250, 500, 1000], .const (1000), .atOnce, .rw, .plain⟩]

/-- Rows 240 to 279 of the parameter table, in ID order. -/
def paramRows6 : List ParamDef := [
  ⟨0x1503, "rtd[k].period_ms", .idx 8, .span (10) 60000, .const (100), .atOnce, .rw, .plain⟩,
  ⟨0x1504, "rtd[k].settle_us", .idx 8, .span (1) 655, .const (30), .atOnce, .rw, .plain⟩,
  ⟨0x1505, "rtd[k].avg", .idx 8, .oneOf [16, 32, 64, 128, 256, 512, 1024], .const (64), .atOnce, .rw, .plain⟩,
  ⟨0x1506, "rtd[k].r0_mohm", .idx 8, .spanOr (50000) 2000000 [0], .const (0), .atCommit, .rw, .plain⟩,
  ⟨0x1507, "rtd[k].cvd_a", .idx 8, .span (-2147483648) 2147483647, .const (39083000), .atCommit, .rw, .plain⟩,
  ⟨0x1508, "rtd[k].cvd_b", .idx 8, .span (-2147483648) 2147483647, .const (-5775000), .atCommit, .rw, .plain⟩,
  ⟨0x1509, "rtd[k].cvd_c", .idx 8, .span (-2147483648) 2147483647, .const (-4183000), .atCommit, .rw, .plain⟩,
  ⟨0x150A, "rtd[k].cal_gain", .idx 8, .span (0) (4294967295), .const (16777216), .atOnce, .ro, .plain⟩,
  ⟨0x150B, "rtd[k].cal_offset_mohm", .idx 8, .span (-2147483648) (2147483647), .const (0), .atOnce, .ro, .plain⟩,
  ⟨0x150C, "rtd[k].result_mc", .idx 8, .span (-2147483648) (2147483647), .const 0, .atOnce, .ro, .plain⟩,
  ⟨0x150D, "rtd[k].result_mohm", .idx 8, .span (0) (4294967295), .const 0, .atOnce, .ro, .plain⟩,
  ⟨0x150E, "rtd[k].status", .idx 8, .span (0) (65535), .const (0), .atOnce, .w1c 0xC 0xFF00, .plain⟩,
  ⟨0x150F, "rtd[k].exc_changes", .idx 8, .span (0) (4294967295), .const (0), .atOnce, .ro, .wraps⟩,
  ⟨0x1510, "rtd.rext_mohm", .one, .span (1990000) 2010000, .const (2000000), .atCommit, .rw, .plain⟩,
  ⟨0x1511, "rtd.max_pulse_ms", .one, .span (1) 20, .const (5), .atOnce, .rw, .plain⟩,
  ⟨0x1520, "hk.scan_period_us", .one, .span (10) 1000000, .const (10000), .atOnce, .rw, .plain⟩,
  ⟨0x1521, "hk.scan[i].input", .idx 16, .spanOr (0) 31 [255], .const (255), .atCommit, .rw, .plain⟩,
  ⟨0x1522, "hk.scan[i].avg", .idx 16, .oneOf [1, 2, 4, 8, 16, 32, 64, 128, 256], .const (1), .atCommit, .rw, .plain⟩,
  ⟨0x1523, "hk.settle[i]", .idx 32, .span (0) 65535, .const (100), .atCommit, .rw, .plain⟩,
  ⟨0x1524, "hk.result[i]", .idx 32, .span (0) (4294967295), .const (0), .atOnce, .ro, .plain⟩,
  ⟨0x1525, "hk.event[e].source", .idx 8, .span 0 4, .const 0, .atCommit, .rw, .plain⟩,
  ⟨0x1526, "hk.event[e].port", .idx 8, .span (0) 3, .const (0), .atCommit, .rw, .plain⟩,
  ⟨0x1527, "hk.event[e].input", .idx 8, .span (0) 31, .const (0), .atCommit, .rw, .plain⟩,
  ⟨0x1528, "hk.event[e].delay_ticks", .idx 8, .span (0) 65535, .const (0), .atCommit, .rw, .plain⟩,
  ⟨0x1529, "hk.event[e].divider", .idx 8, .span (1) 65535, .const (1), .atCommit, .rw, .plain⟩,
  ⟨0x152A, "hk.event[e].result", .idx 8, .span (0) (4294967295), .const (0), .atOnce, .ro, .plain⟩,
  ⟨0x152B, "hk.late_count", .one, .span (0) (4294967295), .const (0), .atOnce, .ro, .sat⟩,
  ⟨0x1800, "zone[z].enable", .idx 1024, .span 0 1, .const (0), .atCommit, .rw, .plain⟩,
  ⟨0x1801, "zone[z].recipe", .idx 1024, .span 0 6, .const (0), .atCommit, .rw, .plain⟩,
  ⟨0x1802, "zone[z].class", .idx 1024, .span 0 2, .const (1), .atCommit, .rw, .plain⟩,
  ⟨0x1803, "zone[z].first_cell", .idx 1024, .span (0) 262143, .const (0), .atCommit, .rw, .plain⟩,
  ⟨0x1804, "zone[z].last_cell", .idx 1024, .span (0) 262143, .const (0), .atCommit, .rw, .plain⟩,
  ⟨0x1805, "zone[z].pitch_cells", .idx 1024, .span (1) 4096, .const (8), .atCommit, .rw, .plain⟩,
  ⟨0x1806, "zone[z].gauge_cells", .idx 1024, .span (1) 4096, .const (40), .atCommit, .rw, .plain⟩,
  ⟨0x1807, "zone[z].rate_div", .idx 1024, .oneOf [1, 2, 4, 8, 16, 32, 64, 128, 256], .const (1), .atCommit, .rw, .plain⟩,
  ⟨0x1808, "zone[z].max_halvings", .idx 1024, .span (0) 3, .const (1), .atCommit, .rw, .plain⟩,
  ⟨0x1809, "zone[z].integrate_rounds", .idx 1024, .span (1) 65535, .const (64), .atCommit, .rw, .plain⟩,
  ⟨0x180A, "zone[z].spectrum_len", .idx 1024, .oneOf [64, 128, 256, 512, 1024, 2048, 4096], .const (1024), .atCommit, .rw, .plain⟩,
  ⟨0x180B, "zone[z].band_count", .idx 1024, .span (1) 8, .const (1), .atCommit, .rw, .plain⟩,
  ⟨0x180C, "zone[z].band[k].lo_hz", .idx2 1024 8, .span (0) 50000, .const (10), .atCommit, .rw, .plain⟩]

/-- Rows 280 to 319 of the parameter table, in ID order. -/
def paramRows7 : List ParamDef := [
  ⟨0x180D, "zone[z].band[k].hi_hz", .idx2 1024 8, .span (1) 50000, .const (1000), .atCommit, .rw, .plain⟩,
  ⟨0x180E, "zone[z].queue", .idx 1024, .span (0) 7, .const (0), .atCommit, .rw, .plain⟩,
  ⟨0x180F, "zone[z].ring", .idx 1024, .span 0 1, .const (1), .atCommit, .rw, .plain⟩,
  ⟨0x1810, "zone[z].compress", .idx 1024, .span 0 1, .const (1), .atCommit, .rw, .plain⟩,
  ⟨0x1811, "zone[z].features", .idx 1024, .span 0 1, .const (1), .atCommit, .rw, .plain⟩,
  ⟨0x1812, "zone[z].program", .idx 1024, .span (0) 63, .const (0), .atCommit, .rw, .plain⟩,
  ⟨0x1818, "zone[z].status", .idx 1024, .span (0) (65535), .const (0), .atOnce, .w1c 0x60 0xFF80, .plain⟩,
  ⟨0x1819, "zone[z].granted_rate_div", .idx 1024, .span (0) (65535), .const 0, .atOnce, .ro, .plain⟩,
  ⟨0x181A, "zone[z].lanes", .idx 1024, .span (0) (65535), .const 0, .atOnce, .ro, .plain⟩,
  ⟨0x181B, "zone[z].frames", .idx 1024, .span (0) (4294967295), .const (0), .atOnce, .ro, .wraps⟩,
  ⟨0x181C, "zone[z].misses", .idx 1024, .span (0) (4294967295), .const (0), .atOnce, .ro, .sat⟩,
  ⟨0x18F0, "herder.page_budget_mbps", .one, .span (100) 8000, .const (2000), .atCommit, .rw, .plain⟩,
  ⟨0x18F1, "herder.lanes_used", .one, .span (0) (255), .const 0, .atOnce, .ro, .plain⟩,
  ⟨0x18F2, "herder.misses", .one, .span (0) (4294967295), .const (0), .atOnce, .ro, .sat⟩,
  ⟨0x2000, "serif.isa_version", .one, .span (0) (255), .const (1), .atBoot, .ro, .plain⟩,
  ⟨0x2001, "serif.status", .one, .span (0) (65535), .const (0), .atOnce, .w1c 0x1F 0xFFC0, .plain⟩,
  ⟨0x2002, "serif.sat_count", .one, .span (0) (4294967295), .const (0), .atOnce, .ro, .sat⟩,
  ⟨0x2003, "serif.acc_ovf_count", .one, .span (0) (4294967295), .const (0), .atOnce, .ro, .sat⟩,
  ⟨0x2004, "serif.access_count", .one, .span (0) (4294967295), .const (0), .atOnce, .ro, .sat⟩,
  ⟨0x2005, "serif.out_mismatch", .one, .span (0) (4294967295), .const (0), .atOnce, .ro, .sat⟩,
  ⟨0x2006, "serif.overruns", .one, .span (0) (4294967295), .const (0), .atOnce, .ro, .sat⟩,
  ⟨0x2007, "serif.ecc_corrected", .one, .span (0) (4294967295), .const (0), .atOnce, .ro, .wraps⟩,
  ⟨0x2008, "serif.ecc_uncorrectable", .one, .span (0) (4294967295), .const (0), .atOnce, .ro, .sat⟩,
  ⟨0x2009, "serif.prog_words_free", .one, .span (0) (65535), .const (8192), .atOnce, .ro, .plain⟩,
  ⟨0x200A, "serif.clusters_awake", .one, .span (0) (65535), .const 0, .atOnce, .ro, .plain⟩,
  ⟨0x200B, "serif.selftest_failed", .one, .span (0) (255), .const (0), .atOnce, .ro, .plain⟩,
  ⟨0x200C, "serif.sat_events", .one, .span 0 1, .const (1), .atOnce, .rw, .plain⟩,
  ⟨0x2400, "ptr.master_arm", .one, .span 0 1, .const (0), .atOnce, .rw, .plain⟩,
  ⟨0x2401, "ptr.arm_bus", .one, .span 0 2, .const 0, .atOnce, .rw, .plain⟩,
  ⟨0x2402, "ptr.fire_pulse_us", .one, .span (1) 1000, .const (10), .atOnce, .rw, .plain⟩,
  ⟨0x2403, "ptr.flags", .one, .span (0) 255, .const (0), .atOnce, .rw, .plain⟩,
  ⟨0x2404, "ptr.status", .one, .span (0) (65535), .const (0), .atOnce, .w1c 0x18 0xFFC0, .plain⟩,
  ⟨0x2405, "ptr.records_overwritten", .one, .span (0) (4294967295), .const (0), .atOnce, .ro, .wraps⟩,
  ⟨0x2406, "ptr.open_records", .one, .span (0) (255), .const (0), .atOnce, .ro, .plain⟩,
  ⟨0x2407, "ptr.remote_fires", .one, .span (0) (4294967295), .const (0), .atOnce, .ro, .wraps⟩,
  ⟨0x2408, "ptr.data_freed", .one, .span (0) (4294967295), .const (0), .atOnce, .ro, .wraps⟩,
  ⟨0x2410, "seq[s].state[k]", .idx2 8 16, .span (0) (255), .const (0), .atCommit, .ro, .plain⟩,
  ⟨0x2420, "seq[s].port", .idx 8, .span (0) 3, .const (0), .atCommit, .rw, .plain⟩,
  ⟨0x2421, "seq[s].initial_state", .idx 8, .span (0) 15, .const (0), .atCommit, .rw, .plain⟩,
  ⟨0x2422, "seq[s].auto_arm", .idx 8, .span 0 1, .const (0), .atCommit, .rw, .plain⟩]

/-- Rows 320 to 359 of the parameter table, in ID order. -/
def paramRows8 : List ParamDef := [
  ⟨0x2423, "seq[s].pre_us", .idx 8, .span (0) 3600000000, .const (2000000), .atCommit, .rw, .plain⟩,
  ⟨0x2424, "seq[s].post_us", .idx 8, .span (0) 600000000, .const (2000000), .atCommit, .rw, .plain⟩,
  ⟨0x2425, "seq[s].rearm_us", .idx 8, .span (0) 3600000000, .const (1000000), .atCommit, .rw, .plain⟩,
  ⟨0x2426, "seq[s].fire_out", .idx 8, .span 0 1, .const (0), .atCommit, .rw, .plain⟩,
  ⟨0x2427, "seq[s].timer[t].limit_us", .idx2 8 2, .span (1) 4294967295, .const (1000000), .atCommit, .rw, .plain⟩,
  ⟨0x2428, "seq[s].counter[c].limit", .idx2 8 2, .span (1) 65535, .const (1), .atCommit, .rw, .plain⟩,
  ⟨0x2429, "seq[s].window_us", .idx 8, .span (1) 4294967295, .const (1000000), .atCommit, .rw, .plain⟩,
  ⟨0x242A, "seq[s].rec_zone[i]", .idx2 8 8, .spanOr (0) 1023 [65535], .const (65535), .atCommit, .rw, .plain⟩,
  ⟨0x242B, "seq[s].status", .idx 8, .span (0) (65535), .const (0), .atOnce, .w1c 0x84 0xFF00, .plain⟩,
  ⟨0x242C, "seq[s].state_now", .idx 8, .span (0) (255), .const (0), .atOnce, .ro, .plain⟩,
  ⟨0x242D, "seq[s].counter_now[c]", .idx2 8 2, .span (0) (65535), .const (0), .atOnce, .ro, .plain⟩,
  ⟨0x242E, "seq[s].fires", .idx 8, .span (0) (4294967295), .const (0), .atOnce, .ro, .wraps⟩,
  ⟨0x242F, "seq[s].missed", .idx 8, .span (0) (4294967295), .const (0), .atOnce, .ro, .sat⟩,
  ⟨0x2800, "ink.status", .one, .span (0) (65535), .const (0), .atOnce, .w1c 0x3 0xFFC0, .plain⟩,
  ⟨0x2801, "ink.blocks_coded", .one, .span (0) (4294967295), .const (0), .atOnce, .ro, .wraps⟩,
  ⟨0x2802, "ink.blocks_stored", .one, .span (0) (4294967295), .const (0), .atOnce, .ro, .wraps⟩,
  ⟨0x2803, "ink.selfcheck_fail", .one, .span (0) (4294967295), .const (0), .atOnce, .ro, .sat⟩,
  ⟨0x2804, "ink.decode_errors", .one, .span (0) (4294967295), .const (0), .atOnce, .ro, .sat⟩,
  ⟨0x2805, "ink.last_decode_error", .one, .span (0) (255), .const (0), .atOnce, .ro, .plain⟩,
  ⟨0x2806, "ink.ring_bits_per_point", .one, .span (0) (65535), .const 0, .atOnce, .ro, .plain⟩,
  ⟨0x2810, "ring.span_ms", .one, .span (0) (4294967295), .const 0, .atOnce, .ro, .plain⟩,
  ⟨0x2811, "ring.enable", .one, .span 0 1, .const (1), .atCommit, .rw, .plain⟩,
  ⟨0x2812, "ring.checkpoint_ms", .one, .span (10) 10000, .const (100), .atCommit, .rw, .plain⟩,
  ⟨0x2813, "ring.pages_overwritten", .one, .span (0) (4294967295), .const (0), .atOnce, .ro, .wraps⟩,
  ⟨0x2814, "ring.block_number", .one, .span (0) (4294967295), .const 0, .atOnce, .ro, .plain⟩,
  ⟨0x2820, "replay.jobs_done", .one, .span (0) (4294967295), .const (0), .atOnce, .ro, .wraps⟩,
  ⟨0x2821, "replay.jobs_partial", .one, .span (0) (4294967295), .const (0), .atOnce, .ro, .wraps⟩,
  ⟨0x2C00, "mem.grain_bytes", .one, .oneOf [256, 512, 1024, 2048, 4096, 8192, 16384, 32768, 65536], .const (4096), .atBoot, .rw, .plain⟩,
  ⟨0x2C01, "mem.hammer_threshold", .one, .span (2176) 32768, .const (4096), .atOnce, .rw, .plain⟩,
  ⟨0x2C02, "mem.retrain_delta_c", .one, .span (2) 40, .const (10), .atOnce, .rw, .plain⟩,
  ⟨0x2C03, "mem.min_eye_steps", .one, .span (4) 64, .const (12), .atOnce, .rw, .plain⟩,
  ⟨0x2C04, "mem.quota_ring_mib", .one, .span (256) 32768, .const (24576), .atBoot, .rw, .plain⟩,
  ⟨0x2C05, "mem.quota_history_mib", .one, .span (0) 32768, .const (2048), .atBoot, .rw, .plain⟩,
  ⟨0x2C06, "mem.quota_records_mib", .one, .span (64) 8192, .const (1024), .atBoot, .rw, .plain⟩,
  ⟨0x2C07, "mem.quota_replay_mib", .one, .span (0) 4096, .const (256), .atBoot, .rw, .plain⟩,
  ⟨0x2C08, "mem.req[i].target_ns", .idx 8, .span (500) 10000000, .perIdx [4000, 50000, 20000, 200000, 10000, 1000000, 1000000, 10000000], .atOnce, .rw, .plain⟩,
  ⟨0x2C09, "mem.req[i].late", .idx 8, .span (0) (4294967295), .const (0), .atOnce, .ro, .sat⟩,
  ⟨0x2C0A, "mem.req[i].throttled", .idx 8, .span (0) (4294967295), .const (0), .atOnce, .ro, .wraps⟩,
  ⟨0x2C0B, "mem.req[i].mbps", .idx 8, .span (0) (4294967295), .const 0, .atOnce, .ro, .plain⟩,
  ⟨0x2C0C, "mem.sram_ce[x]", .idx 5, .span (0) (4294967295), .const (0), .atOnce, .ro, .wraps⟩]

/-- Rows 360 to 399 of the parameter table, in ID order. -/
def paramRows9 : List ParamDef := [
  ⟨0x2C0D, "mem.sram_ue[x]", .idx 5, .span (0) (4294967295), .const (0), .atOnce, .ro, .sat⟩,
  ⟨0x2C10, "kennel.region_pages[y]", .idx 5, .span (0) (4294967295), .const 0, .atOnce, .ro, .plain⟩,
  ⟨0x2C11, "kennel.region_used[y]", .idx 5, .span (0) (4294967295), .const 0, .atOnce, .ro, .plain⟩,
  ⟨0x2C12, "kennel.pages_free", .one, .span (0) (4294967295), .const 0, .atOnce, .ro, .plain⟩,
  ⟨0x2C13, "kennel.history_quota_pages", .one, .span (0) (4294967295), .const 0, .atOnce, .ro, .plain⟩,
  ⟨0x2C20, "mem.port[a].rate_mts", .dram 1, .oneOf [1600, 2133, 3200, 3733, 4266], .const (4266), .atOnce, .rw, .plain⟩,
  ⟨0x2C21, "mem.port[a].train_mode", .dram 1, .span 0 1, .const 1, .atBoot, .rw, .plain⟩,
  ⟨0x2C22, "mem.port[a].dly_rd[l]", .dram 4, .span (0) 127, .const (64), .atBoot, .rw, .plain⟩,
  ⟨0x2C23, "mem.port[a].dly_wr[l]", .dram 4, .span (0) 127, .const (64), .atBoot, .rw, .plain⟩,
  ⟨0x2C24, "mem.port[a].dly_ca_a", .dram 1, .span (0) 127, .const (64), .atBoot, .rw, .plain⟩,
  ⟨0x2C25, "mem.port[a].dly_ca_b", .dram 1, .span (0) 127, .const (64), .atBoot, .rw, .plain⟩,
  ⟨0x2C26, "mem.port[a].trained_rd[l]", .dram 4, .span (0) (255), .const 0, .atOnce, .ro, .plain⟩,
  ⟨0x2C27, "mem.port[a].trained_wr[l]", .dram 4, .span (0) (255), .const 0, .atOnce, .ro, .plain⟩,
  ⟨0x2C28, "mem.port[a].eye_steps[l]", .dram 4, .span (0) (255), .const 0, .atOnce, .ro, .plain⟩,
  ⟨0x2C29, "mem.port[a].status", .dram 1, .span (0) (65535), .const (0), .atOnce, .w1c 0x310 0xFC00, .plain⟩,
  ⟨0x2C2A, "mem.port[a].capacity_mib", .dram 1, .span (0) (4294967295), .const 0, .atBoot, .ro, .plain⟩,
  ⟨0x2C2B, "mem.port[a].ce_count", .dram 1, .span (0) (4294967295), .const (0), .atOnce, .ro, .wraps⟩,
  ⟨0x2C2C, "mem.port[a].ue_count", .dram 1, .span (0) (4294967295), .const (0), .atOnce, .ro, .sat⟩,
  ⟨0x2C2D, "mem.port[a].retired_pages", .dram 1, .span (0) (65535), .const 0, .atOnce, .ro, .plain⟩,
  ⟨0x2C2E, "mem.port[a].retrains", .dram 1, .span (0) (4294967295), .const (0), .atOnce, .ro, .wraps⟩,
  ⟨0x2C2F, "mem.port[a].pasr_mask", .dram 1, .span (0) (65535), .const (0), .atOnce, .ro, .plain⟩,
  ⟨0x2C30, "mem.port[a].hammer_events", .dram 1, .span (0) (4294967295), .const (0), .atOnce, .ro, .wraps⟩,
  ⟨0x3000, "pair.enable", .one, .span 0 1, .const (0), .atCommit, .rw, .plain⟩,
  ⟨0x3001, "pair.failover_ms", .one, .span (5) 1000, .const (20), .atOnce, .rw, .plain⟩,
  ⟨0x3002, "pair.auto_take", .one, .span 0 1, .const (1), .atCommit, .rw, .plain⟩,
  ⟨0x3003, "pair.vacant_ms", .one, .span (10) 60000, .const (100), .atOnce, .rw, .plain⟩,
  ⟨0x3004, "pair.switch_settle_us", .one, .span (200) 50000, .const (200), .atCommit, .rw, .plain⟩,
  ⟨0x3005, "pair.feed_handover", .one, .span 0 1, .const (0), .atOnce, .rw, .plain⟩,
  ⟨0x3006, "pair.status", .one, .span (0) (4294967295), .const 0, .atOnce, .ro, .plain⟩,
  ⟨0x3007, "pair.copy_epoch", .one, .span (0) (4294967295), .const (0), .atOnce, .ro, .wraps⟩,
  ⟨0x3008, "pair.copies_missed", .one, .span (0) (4294967295), .const (0), .atOnce, .ro, .sat⟩,
  ⟨0x3009, "pair.handovers", .one, .span (0) (4294967295), .const (0), .atOnce, .ro, .wraps⟩,
  ⟨0x300A, "pair.link_version", .one, .span (0) (255), .const (0), .atOnce, .ro, .plain⟩,
  ⟨0x300B, "pair.time_offset_ns", .one, .span (-2147483648) (2147483647), .const 0, .atOnce, .ro, .plain⟩,
  ⟨0x300C, "pair.leash_collisions", .one, .span (0) (4294967295), .const (0), .atOnce, .ro, .sat⟩,
  ⟨0x300D, "pair.frame_errors", .one, .span (0) (4294967295), .const (0), .atOnce, .ro, .sat⟩,
  ⟨0x3400, "safety.status", .one, .span (0) (4294967295), .const 0, .atOnce, .ro, .plain⟩,
  ⟨0x3401, "safety.profile", .one, .span 0 1, .const 0, .atCommit, .rw, .plain⟩,
  ⟨0x3402, "safety.host_enable", .one, .span (0) 15, .const (15), .atOnce, .rw, .plain⟩,
  ⟨0x3403, "safety.indicator_led", .one, .span (0) 15, .const (0), .atCommit, .rw, .plain⟩]

/-- Rows 400 to 436 of the parameter table, in ID order. -/
def paramRows10 : List ParamDef := [
  ⟨0x3404, "safety.locator_led[p]", .idx 4, .span (0) 15, .plus 1, .atCommit, .rw, .plain⟩,
  ⟨0x3405, "safety.apr_auto_restart", .one, .span 0 1, .const (0), .atOnce, .rw, .plain⟩,
  ⟨0x3406, "safety.apr_restart_ms", .one, .span (100) 60000, .const (1000), .atOnce, .rw, .plain⟩,
  ⟨0x3407, "safety.port_restart", .one, .span 0 15, .const (0), .atOnce, .wo, .plain⟩,
  ⟨0x3408, "safety.estop_release", .one, .span 0 1, .const (0), .atOnce, .wo, .plain⟩,
  ⟨0x3409, "safety.sticky", .one, .span (0) (65535), .const (0), .atOnce, .w1c 0x1FF 0xFE00, .plain⟩,
  ⟨0x340A, "safety.inhibits", .one, .span (0) (4294967295), .const (0), .atOnce, .ro, .wraps⟩,
  ⟨0x3410, "led[j].enable", .idx 16, .span 0 1, .perIdx [1, 1, 1, 1, 1, 1, 1, 1, 0, 0, 0, 0, 0, 0, 0, 0], .atOnce, .rw, .plain⟩,
  ⟨0x3411, "led[j].max_ma", .idx 16, .span (1) 40, .const (10), .atOnce, .rw, .plain⟩,
  ⟨0x3412, "led[j].brightness", .idx 16, .span (0) 65535, .const (0), .atOnce, .rw, .plain⟩,
  ⟨0x3413, "led[j].short_mv", .idx 16, .span (1000) 5500, .const (4000), .atOnce, .rw, .plain⟩,
  ⟨0x3414, "led[j].status", .idx 16, .span (0) (65535), .const (0), .atOnce, .w1c 0x20 0xFF80, .plain⟩,
  ⟨0x3418, "led.cfb_enable", .one, .span 0 1, .const (1), .atOnce, .rw, .plain⟩,
  ⟨0x3419, "led.cfb_target[c]", .idx 3, .span (0) 32767, .const (0), .atOnce, .rw, .plain⟩,
  ⟨0x341A, "led.cfb_trim[c]", .idx 3, .span (0) (65535), .const (32768), .atOnce, .ro, .plain⟩,
  ⟨0x3430, "panel.debounce_ms", .one, .span (1) 255, .const (20), .atOnce, .rw, .plain⟩,
  ⟨0x3431, "panel.input_status", .one, .span (0) (65535), .const 0, .atOnce, .ro, .plain⟩,
  ⟨0x3432, "panel.chatter[i]", .idx 8, .span (0) (4294967295), .const (0), .atOnce, .ro, .sat⟩,
  ⟨0x3433, "panel.locate_mask", .one, .span (0) 31, .const (0), .atOnce, .rw, .plain⟩,
  ⟨0x3434, "panel.locate_s", .one, .span (1) 3600, .const (30), .atOnce, .rw, .plain⟩,
  ⟨0x3435, "panel.status_led[c]", .idx 3, .span (0) 15, .plus 5, .atCommit, .rw, .plain⟩,
  ⟨0x3436, "panel.status_brightness", .one, .span (0) 65535, .const (32768), .atOnce, .rw, .plain⟩,
  ⟨0x3800, "cal.status", .one, .span (0) (65535), .const (0), .atOnce, .w1c 0x100 0xFE10, .plain⟩,
  ⟨0x3801, "cal.rejects", .one, .span (0) (4294967295), .const (0), .atOnce, .ro, .sat⟩,
  ⟨0x3802, "cal.watch_period_s", .one, .span (1) 60, .const (10), .atOnce, .rw, .plain⟩,
  ⟨0x3C00, "tele.queue", .one, .oneOf [0, 1, 2, 3, 4, 5, 6, 7, 255], .const (0), .atCommit, .rw, .plain⟩,
  ⟨0x3C01, "tele.interval_ms", .one, .span (100) 60000, .const (1000), .atOnce, .rw, .plain⟩,
  ⟨0x3C02, "tele.sequence", .one, .span (0) (4294967295), .const 0, .atOnce, .ro, .plain⟩,
  ⟨0x3C03, "log.flash_rate_per_h", .one, .span (30) 270, .const (120), .atOnce, .rw, .plain⟩,
  ⟨0x3C04, "log.newest", .one, .span (0) (4294967295), .const 0, .atOnce, .ro, .plain⟩,
  ⟨0x3C05, "log.oldest", .one, .span (0) (4294967295), .const 0, .atOnce, .ro, .plain⟩,
  ⟨0x3C06, "log.suppressed", .one, .span (0) (4294967295), .const (0), .atOnce, .ro, .sat⟩,
  ⟨0x3C07, "log.bad_entries", .one, .span (0) (4294967295), .const (0), .atOnce, .ro, .sat⟩,
  ⟨0x3C08, "log.max_erases", .one, .span (0) (4294967295), .const 0, .atOnce, .ro, .plain⟩,
  ⟨0x3C09, "integ.status", .one, .span (0) (65535), .const (0), .atOnce, .w1c 0x7 0xF008, .plain⟩,
  ⟨0x3C0A, "integ.xresync_count", .one, .span (0) (4294967295), .const (0), .atOnce, .ro, .sat⟩,
  ⟨0x3C0B, "integ.xovf_count", .one, .span (0) (4294967295), .const (0), .atOnce, .ro, .sat⟩]

/-- Every parameter the spec defines. -/
def paramTable : List ParamDef :=
  paramRows0 ++ paramRows1 ++ paramRows2 ++ paramRows3 ++ paramRows4 ++ paramRows5 ++ paramRows6 ++ paramRows7 ++ paramRows8 ++ paramRows9 ++ paramRows10

end Sys2Proof.Machine
end

