-- ==== Sys2Proof/Machine/TypesControl.lean ====
section
/-! DEFINITION. State of power, references, modes, banks and the mailbox (chapters 02 to 05). Every field's default
value is its value at reset: the spec's where a rule gives one, else the value a log entry names. -/

namespace Sys2Proof.Machine

/-- An event posted at most once per second: when it was last posted, and what has occurred since that posting. [DEDUCED, notes/assumptions/68] -/
structure RateLimit where
  /-- Ticks of the last posting. -/
  posted : Option Nat := none
  /-- Occurrences since it. -/
  count : Nat := 0
  /-- Argument of the first of them. -/
  first : Nat := 0
  deriving DecidableEq, Repr

/-- The twelve modes (R76), in the order of their codes. -/
inductive Mode where
  | reset | boot | config | survey | run | sentinel | dormant | mirror | handover | inhibit | fault | test
  deriving DecidableEq, Repr

/-- A supervised rail or group (R51): the core group resets the device; the others have a bit in
`power.rail_status` (R71). -/
inductive Rail where
  | core
  | rx (p : Fin 4)
  | tx (p : Fin 4)
  | hk | io33 | serdes
  | vddq (a : Fin 2)
  deriving DecidableEq, Repr

/-- The core PLL's references, in the code order of `clk.status` IN_USE (R74). -/
inductive RefSource where
  | xtal | refin | ocxo
  deriving DecidableEq, Repr

/-- A network time: 48-bit seconds, 32-bit nanoseconds and a 16-bit fraction of a nanosecond (R9). -/
structure NetTime where
  sec : Nat := 0
  ns : Nat := 0
  frac : Nat := 0
  deriving DecidableEq, Repr

/-- Supplies, feeds and reset causes (chapter 03). [DESIGN CHOICE, notes/assumptions/10] -/
structure Power where
  /-- The always-on domain is powered: at least one feed above 2.95 V (R57). -/
  aon : Bool := true
  /-- Core group (VDD_CORE, VDD_SRAM, VDDA_PLL, VDDIO_18) in tolerance (R51). -/
  coreOk : Bool := true
  /-- `power.rail_status` [12:0]: each rail in tolerance (R71). -/
  railStatus : BitVec 13 := 0x1FFF
  /-- Rails back in tolerance for 1 ms since their undervoltage, in the bit order of R71 (R52). -/
  railStable : BitVec 13 := 0x1FFF
  /-- Ports out of service until the next COMMIT or MODE_REQUEST (R52). -/
  portOos : Vector Bool 4 := Vector.replicate 4 false
  /-- `power.reset_cause` [5:0], held by the always-on domain (R72). -/
  resetCause : BitVec 6 := 0x01
  /-- The rail sequence of this power-up violated R53; recorded as SEQ_ORDER (R54). -/
  seqViolation : Bool := false
  /-- VAON_A, VAON_B above 2.95 V (R73 A_VOLT, B_VOLT). -/
  feedVolt : Vector Bool 2 := Vector.replicate 2 true
  /-- FEED_A_OK, FEED_B_OK levels (R73 A_PIN, B_PIN). -/
  feedPin : Vector Bool 2 := Vector.replicate 2 true
  /-- Feed A, B good under R58 (R73 A_GOOD, B_GOOD). -/
  feedGood : Vector Bool 2 := Vector.replicate 2 true
  /-- Internal cause that holds RESET for 1 ms from the cause (R39); none when RESET comes from a ball. -/
  resetHeld : Bool := false
  deriving DecidableEq, Repr

/-- Reference clocks and PLLs (chapter 03). [DESIGN CHOICE, notes/assumptions/10] -/
structure Clocks where
  /-- REFIN present under R63 (R74). -/
  refinPresent : Bool := false
  /-- OCXO_IN present under R63 (R74). -/
  ocxoPresent : Bool := false
  /-- OCXO_WARM, debounced 10 ms (R63, R74). -/
  ocxoWarm : Bool := false
  /-- Counted frequency of REFIN, 0, 10 MHz or 25 MHz (R70). -/
  refinHz : Nat := 0
  /-- Counted frequency of OCXO_IN (R70). -/
  ocxoHz : Nat := 0
  /-- Source the core PLL is locked to (R74 IN_USE). -/
  inUse : RefSource := .xtal
  /-- Target of a switch in progress; the core PLL holds over (R64, R74 SWITCHING). -/
  switchTo : Option RefSource := none
  /-- `clk.pll_status` [4:0]: core, control, DRAM 0, DRAM 1, PCIe lock (R75). -/
  locked : BitVec 5 := 0
  /-- `clk.pll_status` [12:8]: sticky loss bits (R75). -/
  lossSeen : BitVec 5 := 0
  /-- Ticks of each PLL's last loss of lock (R69). -/
  lossTicks : Vector (Option Nat) 5 := Vector.replicate 5 none
  /-- The core PLL lost lock and has not relocked (R69); ports are held dark. -/
  corePllLost : Bool := false
  /-- The crystal has failed; the always-on domain runs from the RC oscillator (R67). -/
  xtalFailed : Bool := false
  deriving DecidableEq, Repr

/-- Straps sampled 500 ns after RESET (R45, R46). [DESIGN CHOICE, notes/assumptions/10] -/
structure Straps where
  unitId : Bool := false
  bootRecover : Bool := false
  testEn : Bool := false
  smbAsel : BitVec 2 := 0
  deriving DecidableEq, Repr

/-- Levels of the input balls software or the safety unit can see (chapter 02). [DESIGN CHOICE, notes/assumptions/10] -/
structure Pins where
  /-- RESET_N (R39). -/
  resetN : Bool := true
  /-- PWRGD (R39). -/
  pwrgd : Bool := true
  /-- UNIT_ID, BOOT_RECOVER, TEST_EN and SMB_ASEL balls as they stand now (R45). -/
  straps : Straps := {}
  /-- UNIT_ID_NOW, sampled every 100 ms (R47). -/
  unitIdNow : Bool := false
  /-- STRAP_CHANGED has been logged for the present difference (R47). -/
  strapLogged : Bool := false
  /-- The straps have been sampled since RESET was left (R45). -/
  strapsSampled : Bool := false
  /-- PE_PERST_N asserted (R42). -/
  perst : Bool := true
  deriving DecidableEq, Repr

/-- What answers an interrupted or finished transition: the request that carries it (R78, R79). -/
inductive Origin where
  | none
  | internal (journal : Nat)
  | host (journal : Nat)
  deriving DecidableEq, Repr

/-- A mode transition in progress (R78). -/
structure Transition where
  number : Nat
  target : Mode
  origin : Origin
  /-- Port mask of a SURVEY request (R135). -/
  mask : BitVec 4 := 0
  /-- MODE_REQUEST RUN out of DORMANT: continues as T5 in CONFIG (T11). -/
  thenRun : Bool := false
  deriving DecidableEq, Repr

/-- The mode machine (chapter 04). -/
structure ModeState where
  /-- `mode.current` (R76). -/
  current : Mode := .boot
  /-- `mode.previous` (R101). -/
  previous : Mode := .reset
  /-- `mode.fault_code` (R85). -/
  faultCode : Nat := 0
  /-- FAULT was entered from TEST (R77). -/
  faultFromTest : Bool := false
  /-- The cause of the latched fault is still present (T21, R85). -/
  faultPresent : Bool := false
  /-- The mode INHIBIT interrupted (T13). -/
  interrupted : Mode := .config
  /-- Transition in progress (R79, R80). -/
  inProgress : Option Transition := none
  /-- The ACTIVE bank counts as admitted (T3, T5, R86). -/
  admitted : Bool := false
  /-- Journal entry of the survey in progress (R175). -/
  surveyJournal : Nat := 0
  /-- A port's step of it has failed. -/
  surveyFailed : Bool := false
  /-- `mode.reset_record` [7:0], in Scribe's flash area (R102). -/
  resetRecord : BitVec 8 := 0
  /-- BOOT_NO_IMAGE (R88). -/
  bootNoImage : Bool := false
  /-- The boot ROM has started a verified image (R98). -/
  imageRunning : Bool := false
  /-- The hardware SRAM clear is done (R85). -/
  sramCleared : Bool := false
  /-- The last boot replaced the ACTIVE bank with factory defaults (R87, R100). -/
  factoryBoot : Bool := false
  deriving DecidableEq, Repr

/-- One configuration bank: its at-commit parameters and sequencer definitions (R91, R314). [DESIGN CHOICE, notes/assumptions/11] -/
structure Bank where
  epoch : Nat := 0
  params : Store Int := []
  /-- Sequencer state records loaded by SEQ_LOAD, 128 bytes each, keyed s × 16 + k (R313). -/
  seqs : Store (List Byte) := []
  /-- Record format of the flash copy (R100, R101). -/
  format : Nat := 4
  deriving DecidableEq, Repr

/-- A request that passed steps 1 to 8 of R119, or an internal command of transport 4 (R22). -/
structure Request where
  transport : Nat
  version : Nat := 0x0302
  opcode : Nat
  tag : Nat := 0
  seq : Nat := 0
  flags : Nat := 0
  crc : Nat := 0
  payload : List Byte := []
  /-- Source address and UDP port of an Ethernet datagram, as one number (R127). -/
  source : Nat := 0
  /-- Ethernet port on which it arrived (R118). -/
  ethPort : Nat := 0
  /-- Identifier of the session it belongs to, 0 for none (R128). -/
  session : Nat := 0
  /-- Ticks at which it reached Scribe (R22, R95). -/
  arrived : Nat := 0
  deriving DecidableEq, Repr

/-- A COMMIT or revert whose commit record is being programmed (R92, R96). [DESIGN CHOICE, notes/assumptions/136] -/
structure CommitJob where
  /-- 0 COMMIT, 1 REVERT, 2 automatic revert. -/
  kind : Nat
  bank : Bank
  journal : Nat
  /-- The command that waits for its answer. -/
  request : Request
  /-- The admission report of step 2. -/
  report : List Byte
  degraded : Bool
  /-- An automatic revert that could not be admitted (R96). -/
  failed : Bool := false
  deriving DecidableEq, Repr

/-- The switch of R93 between the answer and the last port's boundary. -/
structure BankSwitch where
  /-- T_sw in ticks of 1.25 ns. -/
  tsw : Nat
  /-- Ports that still run on the old bank. -/
  portsLeft : BitVec 4
  /-- The bank the remaining ports run on. -/
  old : Bank
  deriving DecidableEq, Repr

/-- Configuration banks (R91 to R96). [DESIGN CHOICE, notes/assumptions/11; DESIGN CHOICE, notes/assumptions/136] -/
structure Banks where
  active : Bank := {}
  previous : Option Bank := none
  /-- PENDING, none when nothing is staged (R133, R134). -/
  pending : Option Bank := none
  /-- The ACTIVE bank is TRIAL (R92). -/
  trial : Bool := false
  /-- Highest epoch ever committed (R91). -/
  highestEpoch : Nat := 0
  /-- Confirm timeout held in the commit record, seconds (R95). -/
  confirmTimeout : Nat := 0
  /-- Ticks at the COMMIT answer (R95). -/
  commitTick : Nat := 0
  /-- Network time of the commit, in its record (R92). -/
  commitTime : NetTime := {}
  /-- Flash slots of the ACTIVE and PREVIOUS banks; the third is kept erased (R92). -/
  slot : Fin 3 := 0
  previousSlot : Fin 3 := 1
  /-- The confirm timeout has expired and the automatic revert is raised (R95). -/
  revertRaised : Bool := false
  /-- A commit record being programmed. -/
  job : Option CommitJob := none
  /-- The switch in progress. -/
  switch : Option BankSwitch := none
  /-- The flash copy of the ACTIVE bank fails its CRC (R100). -/
  flashBad : Bool := false
  deriving DecidableEq, Repr

/-- A session of one transport (R103, R125 to R127). -/
structure Session where
  version : Nat
  ident : Nat
  source : Nat := 0
  ethPort : Nat := 0
  /-- Next response sequence (R121). -/
  respSeq : Nat := 0
  subscribed : Bool := false
  /-- Next sequence of the subscription (R140). -/
  eventSeq : Nat := 0
  /-- Ticks at the last valid message (R127). -/
  lastValid : Nat := 0
  deriving DecidableEq, Repr

/-- A request that passed step 6, with its answer once that exists (R121). -/
structure CacheEntry where
  seq : Nat
  tag : Nat
  crc : Nat
  answer : Option (List Byte)
  deriving DecidableEq, Repr

/-- An answer that waits in Scribe (R114). -/
structure WaitingAnswer where
  tag : Nat
  bytes : List Byte
  /-- The tag stays outstanding until the answer is placed (R122); false after ACCEPTED. -/
  holdsTag : Bool
  deriving DecidableEq, Repr

/-- One mailbox transport (R103, R121 to R123). -/
structure TransportState where
  session : Option Session := none
  /-- Sequence of the last request that passed step 6 (R121). -/
  lastSeq : Nat := 0
  /-- Tags outstanding (R122). -/
  tags : List Nat := []
  /-- Answers of the last 16 requests that passed step 6, newest first (R121). -/
  cache : List CacheEntry := []
  /-- Answers waiting to be placed, oldest first (R114). -/
  waiting : List WaitingAnswer := []
  /-- Ticks of the violations of the last 1,000 ms, newest first (R123). -/
  violations : List Nat := []
  /-- Throttled under R123. -/
  throttled : Bool := false
  /-- Ticks at which the throttle began (R123). -/
  throttleFrom : Nat := 0
  /-- Messages taken (R108 MSG_COUNT). -/
  messages : Nat := 0
  /-- The EVENT message sent last to the session's address (R140). -/
  lastEvent : List Byte := []
  deriving DecidableEq, Repr

/-- The registers of one page transport, PCIe or SPI (R104, R108). [DESIGN CHOICE, notes/assumptions/106; DESIGN CHOICE, notes/assumptions/108] -/
structure PageSide where
  /-- Request area bytes, sparse (R106). -/
  request : Store Byte := []
  /-- REQ_STATUS FREE (R108). -/
  reqFree : Bool := false
  /-- REQ_STATUS OVERRUN (R108). -/
  overrun : Bool := false
  /-- Length of the message submitted by DOORBELL and not yet taken (R113). -/
  doorbell : Option Nat := none
  /-- RSP_STATUS VALID (R114). -/
  rspValid : Bool := false
  /-- RSP_STATUS tag (R108). -/
  rspTag : Nat := 0
  /-- The message in the response area (R106). -/
  response : List Byte := []
  /-- IRQ_STATUS (R110). -/
  irqStatus : BitVec 5 := 0
  /-- IRQ_ENABLE (R110). -/
  irqEnable : BitVec 5 := 0
  /-- High words latched by snapshot low-word reads, keyed by the high word's offset (R108, R538). -/
  latched : Store (BitVec 32) := []
  /-- HOST_STATUS TORN_READ (R109). -/
  torn : Bool := false
  /-- The value the last register read returned. -/
  readData : BitVec 32 := 0
  deriving DecidableEq, Repr

/-- An entry of the event queue and of the flash event log (R138). -/
structure EventEntry where
  code : Nat
  seq : Nat
  severity : Nat
  time : NetTime
  arg0 : BitVec 32
  arg1 : BitVec 32
  arg2 : BitVec 32
  deriving DecidableEq, Repr

/-- The event queue of the control page (R139). -/
structure EventQueue where
  /-- Entries by queue index (R106). -/
  slots : Store EventEntry := []
  /-- EVQ_HEAD. -/
  head : Nat := 0
  /-- EVQ_TAIL. -/
  tail : Nat := 0
  /-- Sequence of the last event posted to the queue (R138). -/
  seq : BitVec 16 := 0
  /-- Events dropped since the last EVENTS_LOST entry (R139). -/
  dropped : Nat := 0
  deriving DecidableEq, Repr

/-- State of a journal entry (R143). -/
inductive JState where
  | notStarted | running | done | part | rolledBack
  deriving DecidableEq, Repr

/-- A journal entry (R143). [DESIGN CHOICE, notes/assumptions/11] -/
structure JournalEntry where
  ident : Nat
  tag : Nat
  transport : Nat
  state : JState
  opcode : Nat
  seq : Nat
  total : Nat
  done : Nat
  /-- Steps done as last written to flash (R142). -/
  flashDone : Nat
  status : Nat
  detail : Nat
  accepted : NetTime
  ended : NetTime
  epoch : Nat
  summary : Nat
  deriving DecidableEq, Repr

/-- The command journal in flash (R142). [DESIGN CHOICE, notes/assumptions/11] -/
structure Journal where
  /-- Entries, newest first, at most 4,096. -/
  entries : List JournalEntry := []
  /-- Identifier of the newest entry. -/
  newest : Nat := 0
  deriving DecidableEq, Repr

/-- Scribe, the control processor, and its mailboxes (chapter 05). -/
structure Scribe where
  /-- HOST_STATUS SCRIBE_READY (R109). -/
  ready : Bool := false
  /-- HOST_STATUS SCRIBE_RESTART (R109, R90). -/
  restarting : Bool := false
  /-- HOST_STATUS HEARTBEAT (R109). -/
  heartbeat : Bool := false
  /-- The one command queue (R22), oldest first. -/
  queue : List Request := []
  /-- Transports 0 to 3 (R103). -/
  transports : Vector TransportState 4 := Vector.replicate 4 {}
  /-- Page registers of PCIe (0) and SPI (1) (R104). -/
  page : Vector PageSide 2 := Vector.replicate 2 {}
  /-- The scope of a reset that follows its answer by 10 ms: 0 SCRIBE, 1 DEVICE, 2 FW_ACTIVATE (R135, R99). -/
  delayedReset : Option Nat := none
  /-- Sessions started so far: the source of session identifiers (R126). -/
  sessions : Nat := 0
  /-- SCRATCH (R108). -/
  scratch : BitVec 32 := 0
  deriving DecidableEq, Repr

/-- One firmware image slot (R97). [DESIGN CHOICE, notes/assumptions/11; DESIGN CHOICE, notes/assumptions/137] -/
structure ImageSlot where
  /-- The signature over header and body verifies. -/
  verifies : Bool := false
  /-- Version; none for the image the unit was delivered with (R101). -/
  version : Option (BitVec 32) := none
  security : Nat := 0
  /-- Configuration record formats the image reads, lowest and highest. -/
  formatLo : Nat := 3
  formatHi : Nat := 4
  /-- Marked failed for want of FW_CONFIRM (R99). -/
  failed : Bool := false
  /-- CONFIRMED rather than TRIAL (R97). -/
  confirmed : Bool := false
  /-- The image in the slot: header and body (R97). -/
  image : List Byte := []
  deriving DecidableEq, Repr

/-- An image upload in progress (R99, FW_BEGIN). -/
structure FwUpload where
  journal : Nat
  bytes : List Byte := []
  deriving DecidableEq, Repr

/-- Boot flash images and boot record (R97 to R99). [DESIGN CHOICE, notes/assumptions/11] -/
structure Firmware where
  /-- Image slots A and B. -/
  slots : Vector ImageSlot 2 := #v[{ verifies := true, confirmed := true }, {}]
  /-- Preferred slot in the boot record. -/
  preferred : Fin 2 := 0
  /-- Count of trial boots in the boot record. -/
  trialBoots : Nat := 0
  /-- Slot that is running (`fw.slot`, R101). -/
  running : Fin 2 := 0
  /-- Upload in progress. -/
  upload : Option FwUpload := none
  /-- `fw.secver_min` (R99, R101). -/
  secverMin : Nat := 0
  /-- Entry into CONFIG or MIRROR since boot, in ticks: the FW_CONFIRM timeout runs from it (R99). -/
  confirmFrom : Option Nat := none
  deriving DecidableEq, Repr

end Sys2Proof.Machine
end

