-- ==== Sys2Proof/Machine/TypesAcquire.lean ====
section
/-! DEFINITION. State of the ports' probe and receive chains, the Stroke and the Herder (chapters 06 to 08), and the
records that the environment's measurements reach the model in. -/

namespace Sys2Proof.Machine

/-- Background-correction coefficients of one input (R169, R184). -/
structure Correction where
  /-- Offset in 1/16 LSB. -/
  offset : Int := 0
  /-- Gain relative to the trimmed value, in parts per million. -/
  gainPpm : Int := 0
  /-- Skew against X-pol I, in femtoseconds. -/
  skewFs : Int := 0
  /-- IQ gain imbalance in 0.001 dB. -/
  iqGainMdb : Int := 0
  /-- IQ phase imbalance in 0.001 degree. -/
  iqPhaseMdeg : Int := 0
  deriving DecidableEq, Repr

/-- What a round runs with from its start to the next one: values that take effect at a round start, of which no round or shot
uses a mix (R14, R15, R164, R169). -/
structure RoundSettings where
  /-- Slots N of the grid (R81, R152). -/
  slots : Nat := 1
  /-- DAS gain in use, dB (R164). -/
  dasGain : Nat := 0
  /-- Correction in use per input, and `adc_corr_enable` (R169). -/
  corr : Vector Correction 6 := Vector.replicate 6 {}
  corrOn : Bool := true
  /-- `ovr_guard` and `raman_ovr_guard` (R172). -/
  ovrGuard : Nat := 16
  ramanGuard : Nat := 16
  /-- `amp_shift`, `fade_hold`, `fade_pct` and `fade_floor` (R210). -/
  ampShift : Nat := 8
  fadeHold : Bool := true
  fadePct : Nat := 10
  fadeFloor : Nat := 16
  /-- Generations gen[p] and rgen[p] (R194). -/
  gen : BitVec 4 := 0
  rgen : BitVec 4 := 0
  deriving DecidableEq, Repr

/-- One slot shot of a port: its descriptor (R182) and what became of it (R157, R158). -/
structure Shot where
  /-- Round number, the low 32 bits of the shot sequence number (R219). -/
  round : Nat
  slot : Nat
  /-- Grid period m. -/
  period : Nat
  /-- 48-bit shot sequence number. -/
  seq : Nat
  /-- Fire time in ticks of 1.25 ns. -/
  fireTick : Nat
  /-- Shot network time. -/
  time : NetTime
  /-- The glyph played; false for a round held dark (R182). -/
  fired : Bool
  /-- Cut short (R157) or missed (R158). -/
  lost : Bool := false
  /-- Its glyph or gate was cut short (R157). -/
  cut : Bool := false
  /-- The launch-monitor window is open, and the tick at which it ends (R158). -/
  window : Bool := false
  windowEnd : Nat := 0
  /-- gap[p] of R195: first round after an interval without firing (R205). -/
  gap : Bool := false
  /-- Epoch of the bank under which the round ran (R91). -/
  epoch : Nat := 0
  /-- The time unit was in holdover at the shot time (R231). -/
  holdover : Bool := false
  /-- What the round runs with (R15). -/
  run : RoundSettings := {}
  deriving DecidableEq, Repr

/-- A trace store entry (R193). -/
structure TraceEntry where
  /-- Position phase. Every field is 0 in the entry as the reset leaves it. -/
  unw : BitVec 32 := 0
  ref : BitVec 32 := 0
  pold : BitVec 16 := 0
  ampAvg : BitVec 16 := 0
  holdRun : BitVec 16 := 0
  rgen : BitVec 4 := 0
  gen : BitVec 4 := 0
  pend : Bool := false
  basis : BitVec 2 := 0
  refValid : Bool := false
  deriving DecidableEq, Repr

/-- Converted values of the four DAS inputs at one sampling instant, in LSB of the active range, before saturation (R168). -/
structure DasCodes where
  xi : Int
  xq : Int
  yi : Int
  yq : Int
  deriving DecidableEq, Repr

/-- A raw point as it comes to the Stroke: its port, round and index i, and what the ADCs converted from cell `first` on, as far as
its filters reach. [DESIGN CHOICE, notes/assumptions/123] -/
structure RawPoint where
  port : Fin 4
  round : Nat
  index : Nat
  first : Int
  codes : List DasCodes
  deriving DecidableEq, Repr

/-- What the two Raman inputs of a port converted after one launch: anti-Stokes and Stokes in LSB of the active range, from Raman
base cell `first` on (R273, R274). -/
structure RamanCodes where
  first : Int := 0
  codes : List (Int × Int) := []
  deriving DecidableEq, Repr

/-- A reflection in a survey trace: cell, level in 0.01 dB above backscatter, its length in cells, and whether it drove OVR
(R175 steps 4 and 6). -/
structure Reflection where
  cell : Nat
  level : Int
  length : Nat := 1
  overRange : Bool := false
  deriving DecidableEq, Repr

/-- What a port's survey measured (R175): how its shots ended, the launch latencies in ps, and what the averaged amplitude trace
shows. -/
structure SurveyTrace where
  /-- 0 OK, 1 NO_END, 2 NO_LAUNCH, 4 CUT_OFF. -/
  result : Nat := 0
  latencies : List Nat := []
  endCell : Nat := 0
  /-- Reference-coil end cell in 1/64 cell. -/
  coilEnd : Nat := 0
  originCell : Nat := 0
  /-- Reflections, in rising cells. -/
  reflections : List Reflection := []
  /-- Loss profile at 256 cells, s16 in 0.01 dB. -/
  profile : List Int := []
  deriving DecidableEq, Repr

/-- A survey's results, as SURVEY_READ gives them (R176, R177). -/
structure SurveyResult where
  journal : Nat := 0
  time : NetTime := {}
  /-- 0 OK, 1 NO_END, 2 NO_LAUNCH, 3 INDEX_RANGE, 4 CUT_OFF, 5 NOT_SURVEYED. -/
  result : Nat := 5
  endCell : Nat := 0
  /-- Reference-coil end cell in 1/64 cell. -/
  coilEnd : Nat := 0
  groupIndex : Nat := 0
  originCell : Nat := 0
  /-- Blots: start and length in cells, at most eight. -/
  blots : List (Nat × Nat) := []
  /-- Reflections: cell and level in 0.01 dB, at most 32. -/
  reflections : List (Nat × Int) := []
  /-- Loss profile at 256 cells, s16 in 0.01 dB, at most 1,024 points. -/
  profile : List Int := []
  launchLatencyPs : Nat := 0
  deriving DecidableEq, Repr

/-- One port's Quill, launch monitor, receive front end and Stroke. [DESIGN CHOICE, notes/assumptions/12] -/
structure PortState where
  /-- 48-bit shot sequence number of the latest slot fire time (R182). -/
  shotSeq : BitVec 48 := 0
  /-- The port has fired slot 0 since it entered its firing mode: its grid runs (R182). -/
  gridRunning : Bool := false
  /-- Slot of the next fire time. -/
  nextSlot : Nat := 0
  /-- Grid period counter m of the next slot 0 (R152). -/
  period : Nat := 0
  /-- Chains powered and awake (R18, R60). -/
  awake : Bool := false
  /-- Rounds are held dark until the first slot 0 after permission or lock returned (R157, R182). -/
  awaitSlot0 : Bool := false
  /-- Stop after the last shot of the grid period in progress (T10, T14). -/
  stopping : Bool := false
  /-- Recent slot fire times, newest first, at most 512. -/
  shots : List Shot := []
  /-- Ticks of the last fired shot (R205). -/
  lastFired : Option Nat := none
  /-- The interval since the last fired shot has been without firing (R205). -/
  dark : Bool := true
  /-- Missed launches in a row (R159). -/
  misses : Nat := 0
  /-- LAUNCH_MISSING, LAUNCH_OK of `lmon_status` (R161). -/
  launchMissing : Bool := false
  launchOk : Bool := false
  /-- MISS_SEEN, LIGHT_WITHOUT_GATE sticky bits (R161). -/
  missSeen : Bool := false
  lightSeen : Bool := false
  /-- Ticks at which the LMONp comparator was last seen to rise or to stand high (R158, R160). -/
  riseTick : Option Nat := none
  /-- DAS gain in use, dB (R163, R164). -/
  dasGain : Nat := 0
  /-- A host write of `das_gain` waits for the next round start (R166). -/
  gainWrite : Option Nat := none
  /-- Rounds since the last gain step or host write, up to 16 (R165). -/
  roundsSinceStep : Nat := 16
  /-- An over-range sample since the previous round start (R165). -/
  overSeen : Bool := false
  /-- Peak magnitudes of the last 16 rounds in percent of full scale, newest first (R165). -/
  peaks : List Nat := []
  /-- Ticks of recent gain steps, newest first (R200). -/
  gainStepTicks : List Nat := []
  /-- The gate of the next shot was cut short before its fire time (R157). -/
  leadCut : Bool := false
  /-- Ticks of the rise of the last RAMTRGp pulse that was not suppressed (R156). -/
  ramTrg : Option Nat := none
  /-- Shots of the survey in progress (R175). -/
  surveyShots : Nat := 0
  /-- Raman gains of the accumulation in progress, anti-Stokes and Stokes (R163). -/
  ramanGain : Vector Nat 2 := Vector.replicate 2 0
  /-- Guard open, DAS group and Raman group (R172). -/
  guard : Vector Bool 2 := Vector.replicate 2 false
  /-- Ticks at which each open guard began, and of its last over-range sample (R172). -/
  guardTick : Vector Nat 2 := Vector.replicate 2 0
  guardLast : Vector Nat 2 := Vector.replicate 2 0
  /-- Guards that ended in the last second, DAS group and Raman group: ticks of their first and last sample, newest first (R172). -/
  guards : Vector (List (Nat × Nat)) 2 := Vector.replicate 2 []
  /-- Limit of INPUT_OVERDRIVE per group (R166), of PRB_CLIP (R179) and of STROKE_SAT (R212). -/
  overdriveRate : Vector RateLimit 2 := Vector.replicate 2 {}
  clipRate : RateLimit := {}
  satRate : RateLimit := {}
  /-- BLANKp level (R170). -/
  blankLevel : Bool := false
  /-- Ticks of the last change of BLANKp (R170). -/
  blankTick : Nat := 0
  /-- Intervals of the last second in which BLANKp stood at its other level before, newest first: level, first and last tick (R170). -/
  blanks : List (Bool × Nat × Nat) := []
  /-- Correction in use per input: XI, XQ, YI, YQ, anti-Stokes, Stokes (R169). -/
  corr : Vector Correction 6 := Vector.replicate 6 {}
  /-- Estimate waiting for the next round start, per input (R169). -/
  corrNext : Vector (Option Correction) 6 := Vector.replicate 6 none
  /-- Parameters with Takes-effect next round that wait, keyed as items (R14, R15). -/
  nextRound : Store Int := []
  /-- Generation gen[p] (R194). -/
  gen : BitVec 4 := 0
  /-- Reference generation rgen[p] (R194). -/
  rgen : BitVec 4 := 0
  /-- A re-baseline waits for the first shot: its kind (0 FULL, 1 REF) and cause (R204). -/
  rebaseNext : Option (Nat × Nat) := none
  /-- Trace store entries by i × N + k, unlisted ones as after the SRAM clear (R193). -/
  trace : Store TraceEntry := []
  /-- A background sweep has rewritten the entries that nothing has written since the reset (R194). -/
  traceSwept : Bool := false
  /-- Point words handed to the Herder (R198) of the last 512 rounds, keyed round mod 512 × 262,144 + cell. -/
  words : Store (BitVec 48) := []
  /-- Point words, FADE and HELD points of the second in progress, and its number (R210). -/
  secPoints : Nat := 0
  secFade : Nat := 0
  secHeld : Nat := 0
  secFrom : Nat := 0
  /-- `fade_ppm` and `held_ppm` of the second before it (R210). -/
  fadePpm : Nat := 0
  heldPpm : Nat := 0
  /-- SAT_SEEN, LOST_SEEN, REBASED sticky bits of `stroke_status` (R211). -/
  satSeen : Bool := false
  lostSeen : Bool := false
  rebased : Bool := false
  /-- Survey results, held in flash (R176). -/
  survey : SurveyResult := {}
  /-- The port's step of the survey in progress is open (R175). -/
  surveying : Bool := false
  /-- Tick before which the port does not start its grid (T5, R480). -/
  holdUntil : Nat := 0
  /-- A Herder re-admission waits for the port's next round start, with the cause of a suspension (R228). -/
  readmit : Option Nat := none
  /-- Paged zones whose history restarts at the port's next round start, each with the DRAM port that left (R228). -/
  lostHist : List (Nat × Nat) := []
  /-- N and grid period that the port last ran with, none where a re-baseline has followed since (R81, R204). -/
  ranAs : Option (Nat × Nat) := none
  deriving DecidableEq, Repr

/-- What admission granted one zone in one plan (R224, R225). -/
structure Grant where
  zone : Nat
  /-- Granted rate divider. -/
  div : Nat
  paged : Bool := false
  /-- Paged by step 1 of R224, which is a degradation. -/
  degradedPaged : Bool := false
  suspended : Bool := false
  halved : Bool := false
  firstLane : Nat := 0
  laneCount : Nat := 0
  deriving DecidableEq, Repr

/-- A piece of a zone's slices on its lane (R223, R226): points `first` to `first + take − 1` of each slice, after `used`
lane-cycles and above `hist` bytes of the lane's resident history. -/
structure Placement where
  zone : Nat
  lane : Nat
  first : Nat
  take : Nat
  used : Nat := 0
  hist : Nat := 0
  resident : Bool := true
  deriving DecidableEq, Repr

/-- A plan's outcome: the plan block of R225 and the grants. -/
structure Plan where
  fits : Bool := true
  /-- Limit that could not be met (R225). -/
  limit : Nat := 0
  /-- Port at which lanes ran out. -/
  limitPort : Nat := 0xFF
  lanes : Vector Nat 4 := Vector.replicate 4 0
  residentBytes : Nat := 0
  pages : Nat := 0
  pagesAvail : Nat := 0
  trafficKBs : Nat := 0
  budgetKBs : Nat := 0
  pieces : List Placement := []
  grants : List Grant := []
  deriving DecidableEq, Repr

/-- A feature being combined over the pieces of an output (R251): mode 0 MAX, 1 MIN, 2 SUM; 3 the bin index that goes with SPECTRUM's F0
(R217). -/
structure FeatAcc where
  index : Nat
  mode : Nat
  value : Int
  cell : Nat
  deriving DecidableEq, Repr

/-- One zone's running state (R213 to R240). -/
structure ZoneState where
  suspended : Bool := false
  paged : Bool := false
  degraded : Bool := false
  historyLost : Bool := false
  missSeen : Bool := false
  /-- Idled by SENTINEL (R81). -/
  idle : Bool := false
  /-- Next frame sequence, 48 bits (R230). -/
  frameSeq : BitVec 48 := 0
  /-- A GAP marker waits: rounds lost and cause (R233). -/
  gap : Option (Nat × Nat) := none
  /-- The next output carries EDGE (R235). -/
  edge : Bool := true
  /-- Processed rounds gathered into the output in progress (R217). -/
  gathered : Nat := 0
  /-- Flags [3:0] gathered into the output in progress (R231). -/
  flags : BitVec 4 := 0
  /-- The first round processed after the gap, with its shot time (R233). -/
  gapFirst : Option (Nat × NetTime) := none
  /-- A miss dropped the processed round in work (R221). -/
  missed : Option Nat := none
  /-- History value per point: the previous PHASE or D, the sum of AMPLITUDE, or the last valid temperature (R217). -/
  hist : Store Int := []
  /-- Consecutive held traces per point of THERMAL, saturating at 65,535 (R297). -/
  heldRuns : Store Nat := []
  /-- History bytes of a USER zone, keyed point × h + byte (R217, R248). -/
  userHist : Store Byte := []
  /-- Quality gathered per point by AMPLITUDE (R217). -/
  qual : Store (BitVec 8) := []
  /-- Points and features of the output in progress (R217, R251). -/
  out : List Byte := []
  feats : List FeatAcc := []
  /-- THERMAL work of a completed trace: its round and the next slice to dispatch (R220, R299). -/
  thermalNext : Option (Nat × Nat) := none
  /-- Frames of the last 4,200 s, newest first: frame sequence and time of the last round covered in ns (R322, R326). -/
  sentFrames : List (Nat × Nat) := []
  /-- State of each band's filter, keyed point × 8 + band (R218), and the sum of its squared outputs in the interval (R217). -/
  filters : Store Nat := []
  energy : Store Int := []
  /-- Strain rates of the last F processed rounds of each point of SPECTRUM, newest first (R217). -/
  samples : Store (List Int) := []
  /-- Flags [3:0] per point of the output in progress (R231). -/
  marks : Store (BitVec 4) := []
  /-- Shot of the last processed round that the zone completed (R230). -/
  covered : Option Shot := none
  /-- Round of the last output (R482). -/
  lastOut : Option Nat := none
  /-- Latest round whose ring feed has been written (R236). -/
  fed : Option Nat := none
  deriving DecidableEq, Repr

/-- A slice of a zone's work dispatched to its lanes (R220). -/
structure WorkItem where
  zone : Nat
  round : Nat
  slice : Nat
  slices : Nat
  /-- Round of the port at whose start the slice is due. -/
  dueRound : Nat
  /-- The paged history has arrived (R227). -/
  historyReady : Bool := true
  epoch : Nat := 0
  /-- Rate divider granted to the zone for the round (R224). -/
  div : Nat := 1
  deriving DecidableEq, Repr

/-- The service of a zone under the definitions before its port's switch, until the work of the rounds fired before it is done (R234). [DESIGN CHOICE, notes/assumptions/141] -/
structure Leaving where
  epoch : Nat
  /-- Last round before the switch. -/
  last : Nat
  div : Nat
  /-- Rounds from a round to the start that takes its slice 0. -/
  delay : Nat
  pieces : List Placement
  /-- The zone's state under the old definition, where the switch changed or disabled the zone. -/
  state : Option ZoneState := none
  deriving DecidableEq, Repr

/-- A feature record handed to the Pointer (R229). -/
structure Feature where
  zone : Nat
  index : Nat
  quality : BitVec 8
  value : Int
  cell : Nat
  round : Nat
  time : NetTime
  deriving DecidableEq, Repr

/-- A slice whose last piece completes. -/
structure SliceResult where
  zone : Fin 1024
  round : Nat
  slice : Nat
  /-- The shadow decoder of the encoder disagreed (R344). -/
  selfCheckFails : Bool := false
  deriving DecidableEq, Repr

/-- The Herder (chapter 08). -/
structure Herder where
  /-- The RUN plan in force. -/
  run : Plan := {}
  /-- The SENTINEL plan in force. -/
  sentinel : Plan := {}
  /-- The plans that ports still run under until their switch (R93). -/
  oldRun : Plan := {}
  oldSentinel : Plan := {}
  /-- Zone states, sparse. -/
  zones : Store ZoneState := []
  /-- Slices in work, oldest first. -/
  work : List WorkItem := []
  /-- The latest round whose work was dispatched, per zone (absent: none). -/
  dispatched : Store Nat := []
  /-- Services that a switch ends, by zone (R234). -/
  leaving : Store Leaving := []
  deriving DecidableEq, Repr

end Sys2Proof.Machine
end

