-- ==== Sys2Proof/Machine/TypesSerif.lean ====
section
/-! DEFINITION. State of the Serif array (chapter 09): lanes, the pieces bound to them, and the program library. -/

namespace Sys2Proof.Machine

/-- A piece: the part of one slice of one zone that runs on one lane (R245, R249). -/
structure Piece where
  zone : Nat := 0
  port : Nat := 0
  slots : Nat := 1
  points : Nat := 0
  firstPoint : Nat := 0
  firstCell : Nat := 0
  pitch : Nat := 0
  gauge : Nat := 0
  rateDiv : Nat := 1
  slice : Nat := 0
  slices : Nat := 1
  round : Nat := 0
  histBase : Nat := 0
  histLen : Nat := 0
  emit : Bool := false
  /-- Paged history: the 0x3100 window holds it rather than scratch (R248). -/
  paged : Bool := false
  /-- A lane of its own with h > 2,048: 0x0000–0x2FFF is its paged history (R248). -/
  own : Bool := false
  /-- A SPECTRUM piece with F ≥ 2,048 uses all 16 KiB (R248). -/
  wide : Bool := false
  /-- The piece's input stream (R250). -/
  input : List (BitVec 48) := []
  /-- Lane-cycles of its budget after the hardware's first 32 (R245). -/
  budget : Nat := 0
  /-- Output bytes expected (R251). -/
  expected : Nat := 0
  /-- Zone constants (R248). -/
  constants : List Byte := []
  /-- History bytes at its start (R248). -/
  hist : List Byte := []
  /-- Epoch of the bank under which its round ran (R91). -/
  epoch : Nat := 0
  /-- The zone's history restarted meanwhile: what the piece leaves is not kept (R228, R267). -/
  forget : Bool := false
  deriving DecidableEq, Repr

/-- A feature record pushed by FEAT (R251). -/
structure FeatRecord where
  index : Nat
  value : Int
  cell : Nat
  mode : Nat
  deriving DecidableEq, Repr

/-- One Serif lane (R246, R248). [DESIGN CHOICE, notes/assumptions/12; DESIGN CHOICE, notes/assumptions/108] -/
structure Lane where
  /-- Data registers x0–x15. -/
  x : Vector (BitVec 24) 16 := Vector.replicate 16 0
  /-- Accumulators m0–m3. -/
  m : Vector (BitVec 56) 4 := Vector.replicate 4 0
  /-- Pointers p0–p7. -/
  p : Vector (BitVec 14) 8 := Vector.replicate 8 0
  /-- Offset registers o0–o7. -/
  o : Vector (BitVec 14) 8 := Vector.replicate 8 0
  /-- Loop counters c0–c3. -/
  c : Vector (BitVec 16) 4 := Vector.replicate 4 0
  /-- Quality accumulator. -/
  q : BitVec 8 := 0
  /-- Block exponent. -/
  e : BitVec 5 := 23
  /-- ACCESS, SAT, AOV bits, EQ, LT in the layout of R247. -/
  flags : BitVec 9 := 0
  /-- Address of the next instruction. -/
  pc : Nat := 0
  /-- Times the next instruction runs, set by REP and used up by that instruction (R258). -/
  rep : Option Nat := none
  /-- Lane-cycles used by the piece in progress. -/
  cycles : Nat := 0
  /-- The piece in progress. -/
  piece : Option Piece := none
  /-- Pieces due after it, in fill order. -/
  next : List Piece := []
  /-- 16 KiB lane memory, sparse. -/
  mem : Store Byte := []
  /-- Input words still to come (R250). -/
  input : List (BitVec 48) := []
  /-- Output bytes pushed, in push order (R251). -/
  output : List Byte := []
  /-- Feature records pushed, in order. -/
  features : List FeatRecord := []
  deriving DecidableEq, Repr

/-- A program image of the library (R262, R265). -/
structure Program where
  flags : BitVec 8
  version : Nat
  code : List (BitVec 32)
  constants : List Byte
  history : Nat
  k : Nat
  s : Nat
  outBytes : Nat
  interval : Nat
  featCount : Nat
  featModes : Nat
  name : List Byte
  crc : Nat
  deriving DecidableEq, Repr

/-- A PROG_LOAD in progress (R263). -/
structure ProgUpload where
  index : Nat
  segments : Nat
  length : Nat
  next : Nat
  bytes : List Byte
  journal : Nat
  deriving DecidableEq, Repr

/-- What a piece of a USER zone left at END for the Herder (R251). -/
structure PieceResult where
  zone : Nat
  round : Nat
  slice : Nat
  first : Nat
  output : List Byte
  features : List FeatRecord
  deriving DecidableEq, Repr

/-- The Serif array. -/
structure Serif where
  /-- Lanes, sparse by lane number; an unlisted lane is as after power-up. -/
  lanes : Store Lane := []
  /-- The program library by index (R266). -/
  library : Store Program := []
  upload : Option ProgUpload := none
  /-- Results of pieces that ended, until their slice completes (R251). -/
  results : List PieceResult := []
  /-- Bits [5:0] of `serif.status` (R271). -/
  status : BitVec 6 := 0
  /-- Limits of SERIF_SAT and SERIF_ACCESS (R272). -/
  satRate : RateLimit := {}
  accessRate : RateLimit := {}
  /-- Lanes that failed the last self-test, as a mask (R269). -/
  failed : BitVec 128 := 0
  deriving DecidableEq, Repr

end Sys2Proof.Machine
end

