-- ==== Sys2Proof/Machine/TypesRaman.lean ====
section
/-! DEFINITION. State of the Raman accumulators, the RTD channels and the housekeeping converter (chapter 10). -/

namespace Sys2Proof.Machine

/-- The values of an accumulation's configuration, latched at its first launch (R280). -/
structure RamanCfg where
  shotsLog2 : Nat := 16
  originCells : Nat := 0
  darkCells : Nat := 256
  traceCells : Nat := 65536
  asGain : Nat := 0
  stGain : Nat := 0
  deriving DecidableEq, Repr

/-- A DTS cell of the hand-off buffer: AS, ST in 1/16 boxcar LSB and its quality byte (R278). -/
structure DtsCell where
  asv : Int
  stv : Int
  quality : BitVec 8
  deriving DecidableEq, Repr

/-- The trace header that THERMAL pieces read (R282, R294). -/
structure TraceHeader where
  /-- T_ref in 2^−10 °C. -/
  tRef : Int := 0
  /-- ln R_ref in 2^−20. -/
  lnRef : Int := 0
  flags : BitVec 8 := 0
  round : Nat := 0
  time : NetTime := {}
  /-- Epoch of the bank under which the final shot fired (R280). -/
  epoch : Nat := 0
  deriving DecidableEq, Repr

/-- The Raman accumulator of one port (R273 to R283, R302). -/
structure Raman where
  /-- An accumulation is in progress. -/
  running : Bool := false
  cfg : RamanCfg := {}
  /-- Launches counted (R275). -/
  shots : Nat := 0
  /-- Grid periods since the last Raman shot in SENTINEL (R81). -/
  sentinelCount : Nat := 0
  /-- Mask bits per DTS cell, BLOT in bit 4 and OVR in bit 3 (R276). -/
  masks : Store (BitVec 8) := []
  /-- The accumulators: 40-bit sums of anti-Stokes and Stokes per DTS cell (R24, R274). -/
  acc : Store (Int × Int) := []
  /-- Sums of the dark samples of both channels (R277). -/
  darkAs : Int := 0
  darkSt : Int := 0
  /-- A dark sample of the accumulation was masked (R277). -/
  darkMasked : Bool := false
  /-- The samples of the latest launch have not been accumulated yet (R274). -/
  launchOpen : Bool := false
  /-- Last accepted dark values, anti-Stokes and Stokes (R277). -/
  dark : Option (Int × Int) := none
  /-- The accumulation has spanned an INHIBIT (R280). -/
  paused : Bool := false
  /-- It continued from a pair snapshot (R280). -/
  resumed : Bool := false
  /-- Shot time of the first launch. -/
  firstTime : NetTime := {}
  /-- Round and time of the latest launch (R275). -/
  lastRound : Nat := 0
  lastTime : NetTime := {}
  /-- Ticks of the first launch's shot time, and of the latest one's (R282). -/
  firstTick : Nat := 0
  lastTick : Nat := 0
  /-- Ticks of the latest launch, the rise of RAMTRGp (R273). -/
  launchTick : Nat := 0
  /-- Hand-off buffer of the last trace, by DTS cell (R278). -/
  handoff : Store DtsCell := []
  /-- Every point of the last trace is held for want of a dark value (R277). -/
  handoffHeld : Bool := false
  /-- Ticks at which the last point of the last trace is handed off (R299). -/
  handoffTick : Nat := 0
  header : TraceHeader := {}
  /-- Last accepted ln R_ref and T_ref (R283). -/
  lastRef : Option (Int × Int) := none
  /-- DARK_STALE_SEEN, REF_OLD, MASK_SEEN of `raman[p].status` (R302). -/
  darkStaleSeen : Bool := false
  refOld : Bool := false
  maskSeen : Bool := false
  /-- Traces since the switch, for zones halved under R279. -/
  traceCount : Nat := 0
  deriving DecidableEq, Repr

/-- One RTD channel (R284 to R289, R303). -/
structure Rtd where
  /-- The channel owns the excitation. -/
  running : Bool := false
  /-- Due but waiting for the source (R289). -/
  due : Bool := false
  /-- EXC_CHANGE attempts of the measurement in progress (R286). -/
  attempts : Nat := 0
  /-- Type or current was written during the measurement (R286). -/
  written : Bool := false
  last : Nat := 0
  faultSeen : Bool := false
  calRejected : Bool := false
  valid : Bool := false
  resultMc : Int := 0
  resultMohm : Nat := 0
  /-- Ticks at the midpoint of the newest valid result, and that result in m°C (R282). -/
  validTick : Nat := 0
  validMc : Option Int := none
  /-- Ticks of the last RTD_FAULT posted and its code (R286). -/
  faultTick : Option Nat := none
  faultCode : Nat := 0
  /-- Valid results (ticks, m°C) since the traces in progress began, newest first (R282). -/
  history : List (Nat × Int) := []
  deriving DecidableEq, Repr

/-- The housekeeping converter (R290 to R293). -/
structure Hk where
  /-- `hk.result[i]` (R293). -/
  result : Vector (BitVec 32) 32 := Vector.replicate 32 0
  /-- `hk.event[e].result`. -/
  eventResult : Vector (BitVec 32) 8 := Vector.replicate 8 0
  /-- Occurrences counted towards each event's divider (R292). -/
  eventCount : Vector Nat 8 := Vector.replicate 8 0
  deriving DecidableEq, Repr

end Sys2Proof.Machine
end

