-- ==== Sys2Proof/Machine/TypesRecord.lean ====
section
/-! DEFINITION. State of the Pointer and its event records, of the Inkstone codec, the replay ring and replay jobs
(chapters 11 and 12). -/

namespace Sys2Proof.Machine

/-- A sequencer's arm state (R315, R332). -/
inductive ArmState where
  | idle | armed | rearm
  deriving DecidableEq, Repr

/-- One sequencer (R305, R317, R332). Times are network times in nanoseconds. -/
structure Sequencer where
  arm : ArmState := .idle
  state : Nat := 0
  /-- Start times of timers 0 and 1, none when stopped. -/
  timers : Vector (Option Nat) 2 := Vector.replicate 2 none
  counters : Vector (BitVec 16) 2 := Vector.replicate 2 0
  /-- Window [open, close). -/
  window : Option (Nat × Nat) := none
  /-- Previous recorded fire (R317). -/
  lastFire : Option Nat := none
  /-- The step at which it last began to record (R317). -/
  recordFrom : Nat := 0
  /-- It recorded at its previous step (R317). -/
  recording : Bool := false
  /-- Missed fires since the previous recorded fire (R317). -/
  missed : Nat := 0
  /-- Last step time (R332 WINDOW_OPEN). -/
  lastStep : Nat := 0
  missedSeen : Bool := false
  disarmedByCommit : Bool := false
  deriving DecidableEq, Repr

/-- What reached the Pointer since a sequencer's previous step (R309, R310). -/
structure PointerInbox where
  /-- Newest feature per zone × 8 + index since the previous step. -/
  features : Store Feature := []
  /-- GAP markers by zone since the previous step: round and shot time in ns. -/
  gaps : Store (Nat × Nat) := []
  /-- Remote edge times in ns since the previous step (R320). -/
  remote : List Nat := []
  /-- Newest housekeeping result per input since the previous step. -/
  hk : Store (BitVec 32) := []
  deriving DecidableEq, Repr

/-- Zone entry of an event record (R326). -/
structure RecordZone where
  zone : Nat
  /-- 0 none, 1 copied ring data, 2 frames only. -/
  data : Nat := 0
  firstFrame : Nat := 0
  lastFrame : Nat := 0
  firstBlock : Nat := 0
  lastBlock : Nat := 0
  stream : Nat := 0
  /-- The copied Inkstone stream (R322). -/
  copy : List Byte := []
  deriving DecidableEq, Repr

/-- Sequencer entry of an event record (R326). -/
structure RecordSeq where
  seq : Nat
  code : Nat
  fromState : Nat
  cond : Nat
  missed : Nat
  dead : Nat
  alsoTrue : Nat
  /-- Zones it asks to be covered (R321), and its requested lengths in µs. -/
  zones : List Nat := []
  preUs : Nat := 0
  postUs : Nat := 0
  deriving DecidableEq, Repr

/-- An event record (R326, R327). [DESIGN CHOICE, notes/assumptions/109] -/
structure EventRecord where
  number : Nat
  /-- 0 OPEN, 1 COMPLETE, 2 SHORT_PRE, 3 INCOMPLETE. -/
  completeness : Nat := 0
  flags : BitVec 8 := 0
  port : Nat
  round : Nat
  /-- Fire time. -/
  time : NetTime
  preReq : Nat := 0
  preActual : Nat := 0
  postReq : Nat := 0
  postActual : Nat := 0
  epoch : Nat := 0
  closed : NetTime := {}
  seqs : List RecordSeq := []
  zones : List RecordZone := []
  /-- The coincidence collection goes on (R320, R328). -/
  collecting : Bool := true
  /-- DRAM ports whose mirror copy of the header is uncorrectable (R370, R386). -/
  headerBad : List Nat := []
  deriving DecidableEq, Repr

/-- The trigger engine. -/
structure Pointer where
  seqs : Vector Sequencer 8 := Vector.replicate 8 {}
  inbox : Vector PointerInbox 8 := Vector.replicate 8 {}
  /-- Newest feature per zone × 8 + index while served, for LEVEL terms (R310). -/
  level : Store Feature := []
  /-- Newest housekeeping result per input, for LEVEL terms (R310). -/
  hkLevel : Store (BitVec 32) := []
  /-- Event records by slot e mod 1,024 (R328). -/
  records : Store EventRecord := []
  /-- Newest event number (R328). -/
  newest : Nat := 0
  /-- Identifier of the next copied stream. -/
  nextStream : Nat := 1
  /-- TRG_ARM_N low, as counted after 1 µs (R316). -/
  armLow : Bool := false
  /-- Master arm in force (R316). -/
  masterArmed : Bool := false
  /-- This unit drives TRG_FIRE_N low (R318, R331). -/
  fireOut : Bool := false
  overwriteSeen : Bool := false
  openLimitSeen : Bool := false
  /-- The record area is in Scribe's memory (R325). -/
  areaSram : Bool := false
  deriving DecidableEq, Repr

/-- A page of the replay ring: the header of R349 and its blocks in writing order. -/
structure RingPage where
  seq : Nat
  port : Nat
  checkpoint : Bool
  holdover : Bool := false
  sealed : Bool := false
  firstBlock : Nat
  firstRound : Nat
  lastRound : Nat
  firstTime : NetTime
  lastTime : NetTime
  epoch : Nat
  /-- (zone, block bytes), in order. -/
  blocks : List (Nat × List Byte) := []
  used : Nat := 64
  deriving DecidableEq, Repr

/-- A ring encoder's history, newest 21,845 elements, oldest first (R336). -/
structure RingStream where
  history : List (BitVec 24) := []
  /-- History index and length of each zone's last block of the stream, keyed zone × 16 + block in the round (R340). -/
  lastBlock : Store (Nat × Nat) := []
  /-- Elements since the last reset. -/
  count : Nat := 0
  deriving DecidableEq, Repr

/-- A replay job (R355 to R360). [DESIGN CHOICE, notes/assumptions/146] -/
structure ReplayJob where
  /-- 0 QUEUED, 1 RUNNING, 2 DONE, 3 PARTIAL. -/
  state : Nat := 0
  priority : Nat
  /-- 0 ring, 1 event record. -/
  source : Nat
  /-- Source zone. -/
  sourceId : Nat
  /-- Event number and zone entry of an event-record source. -/
  event : Nat
  entry : Nat
  zoneRecord : List Byte
  /-- Span [start, end) in ns (R355). -/
  startNs : Nat
  endNs : Nat
  journal : Nat
  reason : Nat := 0xFF
  /-- Processed rounds in the span, and done. -/
  total : Nat
  done : Nat := 0
  /-- Processed rounds counted as steps of the journal entry: their frames are in staging (R146). -/
  stepped : Nat := 0
  nextRound : Nat
  /-- Frames made, output, and made but not yet in staging (R434). -/
  made : Nat := 0
  frames : Nat := 0
  waiting : List (List Byte) := []
  /-- Rounds missing before the next output and their cause (R358), and the first round after them. -/
  gap : Option (Nat × Nat) := none
  gapFirst : Nat × NetTime := (0, {})
  /-- Recipe state and the output in progress. -/
  zone : ZoneState := {}
  error : Nat := 0
  cycles : Nat := 0
  /-- Lane whose spare interval served the last round (R357). -/
  lane : Option Nat := none
  /-- Stream states of its decoder, PHASE and AMPLITUDE, saved in the job's DRAM buffer while another has the decoder (R345, R357). -/
  saved : List (List Byte) := []
  deriving DecidableEq, Repr

/-- The Inkstone codec, the ring and the replay jobs. [DESIGN CHOICE, notes/assumptions/109] -/
structure Inkstone where
  selfcheckSeen : Bool := false
  decodeErrSeen : Bool := false
  /-- Limit of INK_SELFCHECK (R344). -/
  selfcheckRate : RateLimit := {}
  /-- Ring pages in writing order, oldest first (R348). -/
  pages : List RingPage := []
  /-- Next page sequence and ring block number (R352). -/
  nextPage : BitVec 32 := 0
  nextBlock : BitVec 32 := 0
  wrapped : Bool := false
  /-- PHASE and AMPLITUDE stream of each port, 2p and 2p + 1 (R334). -/
  streams : Vector RingStream 8 := Vector.replicate 8 {}
  /-- The port's next page opens with CHECKPOINT (R353). -/
  checkpointDue : Vector Bool 4 := Vector.replicate 4 true
  /-- Ticks of the port's last checkpoint (R353). -/
  checkpointTick : Vector Nat 4 := Vector.replicate 4 0
  /-- Replay jobs by index (R360). -/
  jobs : Store ReplayJob := []
  /-- Order of REPLAY_START, oldest first, as job indexes (R357). -/
  order : List Nat := []
  /-- Points and bits coded into the ring, (ticks, points, bits), newest first, of the last 10 s (R27, R362). -/
  coded : List (Nat × Nat × Nat) := []
  /-- Ticks at which the ring last restarted empty (R27, R354). -/
  ringStart : Nat := 0
  deriving DecidableEq, Repr

end Sys2Proof.Machine
end

