-- ==== Sys2Proof/Machine/TypesMemTime.lean ====
section
/-! DEFINITION. State of the on-chip stores, the DRAM controller, the Kennel, network time, the grid and the
time-interval unit (chapters 13 and 14). -/

namespace Sys2Proof.Machine

/-- STATE of a DRAM port (R394), in code order. -/
inductive DramState where
  | unfitted | training | online | offline
  deriving DecidableEq, Repr

/-- A set of delays of one DRAM port per byte lane, and of the CA buses of its two channels (R378, R379). -/
structure Delays where
  rd : Vector Nat 4 := Vector.replicate 4 64
  wr : Vector Nat 4 := Vector.replicate 4 64
  ca : Vector Nat 2 := Vector.replicate 2 64
  eye : Vector Nat 4 := Vector.replicate 4 0
  rate : Nat := 4266
  deriving DecidableEq, Repr

/-- One DRAM port (R367 to R394). [DESIGN CHOICE, notes/assumptions/12; DESIGN CHOICE, notes/assumptions/149] -/
structure DramPort where
  state : DramState := .unfitted
  /-- A second rank; byte-mode dies (R394). -/
  rank1 : Bool := false
  byteMode : Bool := false
  /-- Installed capacity, MiB (R368). -/
  capacityMib : Nat := 0
  /-- Ticks at which a rail or PLL took the port offline (R384). -/
  lossTick : Nat := 0
  /-- A training pass is in progress (R394). -/
  retraining : Bool := false
  /-- Rate of the pass in progress (R382). -/
  passRate : Nat := 4266
  /-- A rate written during training, deferred to the restart (R382). -/
  deferredRate : Option Nat := none
  /-- Cause that took the port offline: 1 MISMATCH, 2 TRAINING, 3 RAIL, 4 PLL (R395). -/
  cause : Nat := 0
  /-- Delays in force. -/
  delays : Delays := {}
  /-- Last good delays in flash (R379). -/
  flash : Option Delays := none
  trainedKept : Bool := false
  /-- The next check runs whatever the temperature, after outcome 1 (R383). -/
  checkDue : Bool := false
  ueSeen : Bool := false
  hammerSeen : Bool := false
  retireFull : Bool := false
  /-- Partial-array self-refresh and its masks (R391). -/
  pasr : Bool := false
  pasrMask : BitVec 16 := 0
  /-- Retired pages, in flash (R390). -/
  retired : List Nat := []
  /-- Pages to retire when their owner releases them (R390). -/
  marked : List Nat := []
  /-- Reference temperature of the last training or passed check, °C, and MR4 (R381). -/
  refTemp : Int := 0
  refMr4 : Option Nat := none
  /-- MR4 as last read (R381). -/
  mr4 : Option Nat := none
  /-- Ticks of patrol scrub in the present pass of 24 h (R392). -/
  scrub : Nat := 0
  /-- Refresh intervals postponed (R374). -/
  postponed : Nat := 0
  /-- Row activation counts of the window that a detection left, keyed bank table × 2^18 + row (R376, R377). -/
  rows : Store Nat := []
  deriving DecidableEq, Repr

/-- A DRAM requester (R373, R377). -/
structure Requester where
  /-- Throttled by a row-hammer detection (R377). -/
  throttled : Bool := false
  /-- Limit of MEM_HAMMER (R377) and of MEM_LATE (R374). -/
  hammerRate : RateLimit := {}
  lateRate : RateLimit := {}
  deriving DecidableEq, Repr

/-- A store word found uncorrectable and not yet rewritten: store and word address (R366). -/
abbrev BadWord := Nat × Nat

/-- Memory system and Kennel (chapter 13). [DESIGN CHOICE, notes/assumptions/109; DESIGN CHOICE, notes/assumptions/149] -/
structure Memory where
  ports : Vector DramPort 2 := Vector.replicate 2 {}
  requesters : Vector Requester 8 := Vector.replicate 8 {}
  bad : List BadWord := []
  /-- Kennel allocation per region, pages (R386). -/
  regions : Vector Nat 5 := Vector.replicate 5 0
  /-- U at the last resize, in pages (R386). -/
  usablePages : Nat := 0
  /-- Retired pages counted at the last resize (R390). -/
  retiredCounted : Nat := 0
  deriving DecidableEq, Repr

/-- One network-time domain (R396 to R401, R425). [DESIGN CHOICE, notes/assumptions/12] -/
structure Domain where
  /-- Counter in units of 2^−40 ns. -/
  count : Nat := 0
  /-- An increment and an adjust waiting for the next tick (R397). -/
  nextIncrement : Option Nat := none
  adjust : Int := 0
  /-- Increment in force, 2^−40 ns per tick (R396). -/
  increment : Nat := 1374389534720
  locked : Bool := false
  servoTimeout : Bool := true
  /-- Ticks of the host's last write of increment, adjust or servo_state (R401, R482). -/
  servoTick : Nat := 0
  syncTimeout : Bool := true
  masterChanged : Bool := false
  twoStep : Bool := false
  offsetNs : Int := 0
  pathDelayNs : Int := 0
  measSeq : Nat := 0
  masterId : Nat := 0
  /-- Priority data of the chosen master, by the standard's comparison (R399). -/
  masterRank : Nat := 0
  /-- A two-step Sync waits for its Follow_Up: sequence and receive time in 2^−16 ps (R399). -/
  syncWait : Option (Nat × Int) := none
  /-- t1, t2 of the Sync last used, 2^−16 ps (R399). -/
  t1 : Int := 0
  t2 : Int := 0
  /-- Sequence of the Delay_Req or Pdelay_Req sent and its send time t3 (R400). -/
  reqSeq : Nat := 0
  t3 : Int := 0
  deriving DecidableEq, Repr

/-- A pulse output (R415, R416). -/
structure Tout where
  /-- A pulse is being driven, and the time on its timebase at which it ends, ns. -/
  active : Bool := false
  endsAt : Nat := 0
  /-- Next pulse time on its timebase, ns (R416). -/
  next : Option Nat := none
  /-- A write waits for the pulse in progress to end (R416). -/
  writes : Store Int := []
  deriving DecidableEq, Repr

/-- The time-interval unit (R417 to R426). -/
structure Tdc where
  running : Bool := false
  done : Bool := false
  valid : Bool := false
  aborted : Bool := false
  close : Bool := false
  order : Bool := false
  ovf : Bool := false
  /-- TB_NOREF, TB_COLD, TB_XO of the last result, and the grades in force during the measurement in progress (R421). -/
  tb : BitVec 3 := 0
  tbRun : BitVec 3 := 0
  /-- Start edge of the measurement in progress, LSBs of 3.90625 ps. -/
  start : Option Nat := none
  /-- Stop edge captured first in TWO_SIDED mode. -/
  stop : Option Nat := none
  /-- Measurements made in the series, and their results. -/
  made : Nat := 0
  results : List Int := []
  resultLsb : Int := 0
  meanLsb : Int := 0
  sdevLsb : Nat := 0
  stampS : Nat := 0
  stampLsb : Nat := 0
  deriving DecidableEq, Repr

/-- The time unit: domains, axis, SYNC_IN, pulse outputs and interval unit (chapter 14). [DESIGN CHOICE, notes/assumptions/12] -/
structure TimeUnit where
  domains : Vector Domain 2 := Vector.replicate 2 {}
  /-- The axis, in units of 2^−40 ns. -/
  axis : Nat := 0
  /-- `time.select` (R404). -/
  select : Fin 2 := 0
  /-- The domain the host last wrote into `time.select` (R406). -/
  hostSelect : Fin 2 := 0
  /-- HOLDOVER and its cause (R424). -/
  holdover : Bool := true
  holdCause : Nat := 1
  /-- The selected domain has been LOCKED since boot (R407). -/
  lockedOnce : Bool := false
  /-- Increment held over (R405). -/
  holdIncrement : Nat := 1374389534720
  slewing : Bool := false
  /-- A step waits for the firing ports to end their grid periods (R402). -/
  stepPending : Bool := false
  stepped : Bool := false
  /-- SYNC_IN loop (R408 to R410). -/
  syncEngaged : Bool := false
  syncLocked : Bool := false
  syncStuck : Bool := false
  /-- Consecutive valid edges, and consecutive ones within lock_ns. -/
  syncValid : Nat := 0
  syncGood : Nat := 0
  /-- Axis time of the previous used edge, ns. -/
  syncLast : Option Nat := none
  syncPhase : Int := 0
  /-- Phase error of the last valid edge, LSBs of 3.90625 ps (R409). -/
  syncDiff : Int := 0
  /-- Integral and applied rate offsets, in parts per 10^12 (R409). -/
  syncIntegral : Int := 0
  syncRate : Int := 0
  touts : Vector Tout 4 := Vector.replicate 4 {}
  tdc : Tdc := {}
  /-- Last edge that the interval unit used on each comparator, LSBs on the axis (R418). -/
  cmpLast : Vector (Option Nat) 3 := Vector.replicate 3 none
  /-- `grid.interval_dev_cells` per port (R413), and the second it was measured in. -/
  intervalDev : Vector Int 4 := Vector.replicate 4 0
  intervalSec : Vector Nat 4 := Vector.replicate 4 0
  /-- The same of the second before it (R413). -/
  intervalLast : Vector Int 4 := Vector.replicate 4 0
  deriving DecidableEq, Repr

end Sys2Proof.Machine
end

