-- ==== Sys2Proof/Machine/TypesLinks.lean ====
section
/-! DEFINITION. State of the host links, the pair unit, the safety and panel unit, calibration and the flash log
(chapters 15 to 18). -/

namespace Sys2Proof.Machine

/-- One output queue (R432 to R444). [DESIGN CHOICE, notes/assumptions/106] -/
structure OutQueue where
  /-- Items in staging, oldest first: item sequence, type (0 FRAME, 1 TELEMETRY) and bytes. -/
  staged : List (Nat × Nat × List Byte) := []
  /-- Next item sequence (R435). -/
  nextSeq : BitVec 32 := 0
  /-- QUEUE_HEADq and QUEUE_TAILq (R439). -/
  head : BitVec 16 := 0
  tail : BitVec 32 := 0
  /-- DMA_ENABLE, RUNNING, STARVED, ERROR bits of the queue (R440, R441). -/
  enabled : Bool := false
  running : Bool := false
  starved : Bool := false
  error : Bool := false
  /-- Items completed since the last interrupt request and ticks of the first (R444). -/
  irqItems : Nat := 0
  irqFrom : Option Nat := none
  /-- Limit of QUEUE_DROP; the argument is the first drop's cause (R433, R463). -/
  dropRate : RateLimit := {}
  /-- The item delivered last: sequence, type and bytes (R438). -/
  delivered : Nat × Nat × List Byte := (0, 0, [])
  /-- Descriptors completed for it in a ring: index, and bytes 8–15 as written (R436). -/
  written : List (Nat × List Byte) := []
  /-- Bytes delivered (64-bit, R461). -/
  bytes : Nat := 0
  /-- Pacing under `max_mbps` (R448): bytes sent beyond what its milliseconds allow, and the millisecond that was counted last. -/
  paceDebt : Nat := 0
  paceMs : Nat := 0
  deriving DecidableEq, Repr

/-- One Ethernet port (R445 to R462). [DESIGN CHOICE, notes/assumptions/12; DESIGN CHOICE, notes/assumptions/106] -/
structure EthPort where
  linkUp : Bool := false
  anComplete : Bool := false
  rate1g : Bool := false
  lowRateForced : Bool := false
  rxErrSeen : Bool := false
  /-- Datagrams queued for transmission, destination and bytes, in priority order: PTP, then Oxras, then queue
  datagrams (R448). A destination is an address and UDP port as one number; a queue's datagrams carry the queue. -/
  txPtp : List (Nat × List Byte) := []
  txOxras : List (Nat × List Byte) := []
  txQueue : List (Nat × List Byte) := []
  /-- The queue whose datagram left last (R448). -/
  lastQueue : Nat := 7
  /-- The datagram transmitted last: destination and bytes. -/
  sent : Nat × List Byte := (0, [])
  /-- Neighbours learned by ARP and neighbour discovery: address and MAC (R446). -/
  neighbours : List (Nat × Nat) := []
  /-- IPv6 router learned: address and MAC (R446). -/
  router : Option (Nat × Nat) := none
  deriving DecidableEq, Repr

/-- PCIe, Ethernet, SPI, SMBus, console and JTAG (chapter 15). [DESIGN CHOICE, notes/assumptions/12; DESIGN CHOICE, notes/assumptions/106] -/
structure Links where
  queues : Vector OutQueue 8 := Vector.replicate 8 {}
  eth : Vector EthPort 2 := Vector.replicate 2 {}
  /-- PCIe link up, generation and width (R108 LINK_STATUS). -/
  pcieUp : Bool := false
  pcieGen : BitVec 4 := 0
  pcieWidth : BitVec 3 := 0
  /-- The link is in L1.2 (R431). -/
  pcieL1 : Bool := false
  /-- PE_WAKE_N asserted (R431). -/
  peWake : Bool := false
  /-- MSI-X vectors requested and not yet delivered (R443). -/
  msix : BitVec 32 := 0
  /-- Bytes the last SPI, SMBus or JTAG transaction returned. -/
  spiData : List Byte := []
  smbData : List Byte := []
  jtagData : BitVec 32 := 0
  /-- Test instruction in force: EXTEST or another that holds emission off (R459). -/
  jtagTest : Bool := false
  /-- Boundary-register contents of SAMPLE/PRELOAD and EXTEST. -/
  boundary : List Bool := []
  /-- Lines sent on the console, newest last (R457). -/
  console : List EventEntry := []
  /-- Flash size and JEDEC identity found at boot (R455). -/
  flashMib : Nat := 32
  flashJedec : Nat := 0
  /-- Mailbox message relayed to the peer and its request (R494). -/
  relay : Option Request := none
  deriving DecidableEq, Repr

/-- A bark as received (R469). -/
structure Bark where
  version : Nat := 2
  unitId : Bool := false
  mode : Nat := 0
  seq : Nat := 0
  flags : BitVec 16 := 0
  feed : Nat := 0
  selftest : Nat := 0
  copyEpoch : Nat := 0
  tx : NetTime := {}
  echo : NetTime := {}
  rx : NetTime := {}
  epoch : Nat := 0
  fwVersion : Nat := 0
  library : Nat := 0
  health : Nat := 0
  deriving DecidableEq, Repr

/-- A zone in a copy (R482). -/
structure CopyZone where
  zone : Nat
  div : Nat
  suspended : Bool
  paged : Bool
  nextSeq : Nat
  /-- Round of the last processed round output, none before the first. -/
  last : Option Nat
  deriving DecidableEq, Repr

/-- The state a copy carries (R482). -/
structure CopyState where
  epoch : Nat := 0
  final : Bool := false
  cause : Nat := 0
  activeEpoch : Nat := 0
  previousEpoch : Option Nat := none
  trial : Bool := false
  commitTime : NetTime := {}
  mode : Mode := .run
  interrupted : Mode := .run
  /-- Time of the snapshot on the axis, ns. -/
  taken : Nat := 0
  /-- Per port: shot sequence number of the last shot, and its fire time on the axis in ns. -/
  shotSeq : Vector Nat 4 := Vector.replicate 4 0
  fireNs : Vector Nat 4 := Vector.replicate 4 0
  zones : List CopyZone := []
  seqs : Vector Sequencer 8 := Vector.replicate 8 {}
  masterArm : Bool := false
  flags : Nat := 0
  newestEvent : Nat := 0
  openRecords : List EventRecord := []
  raman : Vector Raman 4 := Vector.replicate 4 {}
  traces : Vector Nat 4 := Vector.replicate 4 0
  select : Fin 2 := 0
  domains : Vector Domain 2 := Vector.replicate 2 {}
  servo : Vector Int 2 := Vector.replicate 2 0
  slewing : Bool := false
  holdover : Bool := false
  holdCause : Nat := 0
  holdIncrement : Nat := 1374389534720
  /-- Axis less selected domain, 2^−40 ns. -/
  axisOffset : Int := 0
  /-- The sender's ticks at the snapshot, from which its servo writes date. -/
  takenTick : Nat := 0
  syncIntegral : Int := 0
  syncLocked : Bool := false
  deriving DecidableEq, Repr

/-- Where a planned handover of the releasing unit, or a take, has got to (R477, R485). -/
inductive HandoverStep where
  | idle
  | stopping      -- ports fire the rest of their grid period (step 3)
  | finalSent     -- FINAL copy sent, COPY_ACK awaited (step 4)
  | released      -- ILK_N released (step 6)
  | waiting       -- take: wait before driving
  | driving       -- take: ILK_N driven, test due
  deriving DecidableEq, Repr

/-- The pair unit (chapter 16). [DESIGN CHOICE, notes/assumptions/12; DESIGN CHOICE, notes/assumptions/106] -/
structure Pair where
  /-- OWN latch (R474). -/
  own : Bool := false
  /-- This unit drives ILK_N low (R474). -/
  driving : Bool := false
  /-- ILK_N reads held (R38). -/
  ilkHeld : Bool := false
  /-- A retest follows a collision (R479). -/
  retest : Bool := false
  peerPresent : Bool := false
  linkUp : Bool := false
  linkVersion : Nat := 0
  hbSilent : Bool := false
  linkLost : Bool := false
  peerFailed : Bool := false
  idConflict : Bool := false
  pullOk : Bool := false
  ready : Bool := false
  /-- First failing condition of R484 as last posted. -/
  readyCond : Nat := 1
  copyAge : BitVec 8 := 0xFF
  copyEpoch : BitVec 32 := 0
  step : HandoverStep := .idle
  /-- Cause of the handover in progress and of the last one (R476). -/
  cause : Nat := 0
  lastCause : Nat := 0
  lastTime : NetTime := {}
  /-- The take drives ILK_N as soon as it is released; another one waits 100 µs first (R477). -/
  waitZero : Bool := false
  /-- FORCE of PAIR_HANDOVER: READY is not required (R485). -/
  forced : Bool := false
  /-- T14 on a paired unit: CONFIG under T23 (R487). -/
  toConfig : Bool := false
  /-- Mode the handover left (R486). -/
  fromMode : Mode := .run
  /-- Journal entry of PAIR_HANDOVER. -/
  journal : Option Nat := none
  /-- MODE_REQUEST CONFIG that waits for its answer at T23 (R487). -/
  request : Option Request := none
  /-- RELEASE, HANDOVER_REQ, TAKING, FINAL_SENT of this unit's barks (R469). -/
  release : Bool := false
  handoverReq : Bool := false
  taking : Bool := false
  finalSent : Bool := false
  /-- Sequence of this unit's barks. -/
  barkSeq : BitVec 32 := 0
  /-- Barks and HB_OUT are stopped by T16 until T4 or T15 (R78, R469). -/
  stopped : Bool := false
  /-- The pair watchdog is serviced (R471). -/
  watchdogOk : Bool := true
  peer : Option Bark := none
  /-- First failing condition of the peer's last HEALTH frame and its ticks (R485). -/
  peerCond : Option (Nat × Nat) := none
  /-- t_tx of the peer's last bark and its receive time (R469). -/
  echo : NetTime := {}
  rx : NetTime := {}
  timeOffset : Int := 0
  /-- Steering of the domain counters that is left, 2^−40 ns (R470). -/
  steer : Int := 0
  /-- Last applied copy (standby). -/
  applied : Option CopyState := none
  /-- The copy sent last, and that it is not yet acknowledged (R481). -/
  lastCopy : Option CopyState := none
  unacked : Bool := false
  /-- A copy that waits for the round starts of ports: what it holds so far, and the ports left (R481). -/
  gather : Option (CopyState × BitVec 4) := none
  /-- Ticks of the last bark of the peer that showed TAKING or HANDOVER_REQ (R476). -/
  busyBark : Option Nat := none
  /-- Frames waiting on the Segor link, oldest first: type and bytes (R468). -/
  tx : List (Nat × List Byte) := []
  /-- The frame sent last. -/
  sent : Nat × List Byte := (0, [])
  /-- MASK of ports not yet stopped in step 3 of R485. -/
  portsLeft : BitVec 4 := 0
  deriving DecidableEq, Repr

/-- One LED channel (R510, R511, R520). -/
structure Led where
  /-- 0 none, 1 OPEN, 2 SHORT. -/
  fault : BitVec 2 := 0
  faultSeen : Bool := false
  cfbLimit : Bool := false
  stretch : Bool := false
  /-- Consecutive results of the same kind: kind (0 good) and run (R511). -/
  kind : BitVec 2 := 0
  run : Nat := 0
  /-- Diagnoses passed after BOOT, up to three, and whether three were passed (R508). -/
  passed : Nat := 0
  proven : Bool := false
  /-- Passed a diagnosis during its present lit interval (R499). -/
  litGood : Bool := false
  lit : Bool := false
  deriving DecidableEq, Repr

/-- The safety and panel unit (chapter 17). [DESIGN CHOICE, notes/assumptions/12] -/
structure Safety where
  /-- KEY and LOOP terms (R498). -/
  key : Bool := false
  loop : Bool := false
  /-- ESTOP LATCHED and COUNT (R111). -/
  estop : Bool := false
  estopCount : BitVec 8 := 0
  /-- Ticks at which LKEY was withdrawn (R504). -/
  keyOffTick : Option Nat := none
  /-- APR latched by the plug (R505), and by LIGHT_WITHOUT_GATE (R160). -/
  apr : BitVec 4 := 0
  lwg : BitVec 4 := 0
  /-- APR latches whose EMISSION_STOPPED waits for the debounced open (R505). -/
  aprUntold : BitVec 4 := 0
  /-- A restart time runs after the debounced close (R505). -/
  aprRestart : BitVec 4 := 0
  /-- Plug reads closed, debounced (R521). -/
  plugClosed : BitVec 4 := 0
  /-- A PORT-profile locator withdrawal holds until R508 restores it. -/
  locatorHold : BitVec 4 := 0
  /-- FIRE term per port (R498). -/
  fire : BitVec 4 := 0
  /-- `safety.sticky` (R519). -/
  sticky : BitVec 9 := 0
  leds : Vector Led 16 := Vector.replicate 16 {}
  /-- Colour-feedback targets taken after boot, and trims uQ1.15 (R512). -/
  cfbTarget : Vector Nat 3 := Vector.replicate 3 0
  cfbTrim : Vector Nat 3 := Vector.replicate 3 0x8000
  /-- Seconds each trim has stood at a limit (R512). -/
  cfbLimit : Vector Nat 3 := Vector.replicate 3 0
  /-- SERVICE and LOCATE debounced pressed, and STUCK (R515). -/
  service : Bool := false
  locate : Bool := false
  serviceStuck : Bool := false
  locateStuck : Bool := false
  /-- LKEY and LOOP_OK debounced levels (R521). -/
  lkeyStable : Bool := false
  loopStable : Bool := false
  /-- Ticks of the fall of LOOP_OK (R515). -/
  loopOffTick : Option Nat := none
  /-- `panel.locate_mask` in force (R514). -/
  locateMask : BitVec 5 := 0
  /-- Ticks at which each bit was set (R514). -/
  locateFrom : Vector Nat 5 := Vector.replicate 5 0
  /-- Limit of INPUT_CHATTER per input (R515). -/
  chatterRate : Vector RateLimit 8 := Vector.replicate 8 {}
  deriving DecidableEq, Repr

/-- A calibration item's sets (R523, R526). -/
structure CalItem where
  inForce : List Int := []
  previous : List Int := []
  /-- A result waiting for the next round start (R525). -/
  next : Option (List Int) := none
  /-- 0 FACTORY, 1 ACCEPTED. -/
  accepted : Bool := false
  /-- A run of item 5 is in progress. -/
  running : Bool := false
  acceptedTime : NetTime := {}
  rejectedTime : NetTime := {}
  rejectedValue : Int := 0
  rejectedField : Nat := 0
  /-- Collected points by slot: what the host gave and what was measured (R530). -/
  points : Store (Int × Int × Int) := []
  /-- Journal entry of the CAL_RUN in progress. -/
  journal : Option Nat := none
  deriving DecidableEq, Repr

/-- A CAL_POINT being collected (R530). -/
structure PointJob where
  item : Nat
  index : Nat
  slot : Nat
  given : Int
  first : Nat := 0
  last : Nat := 0
  journal : Nat
  /-- Measurements so far (item 3). -/
  sum : Int := 0
  count : Nat := 0
  /-- Traces seen since, for item 4. -/
  armed : Bool := false
  deriving DecidableEq, Repr

/-- Calibration, crossings and telemetry (chapter 18). [DESIGN CHOICE, notes/assumptions/12] -/
structure Calib where
  /-- Items keyed item × 256 + index. -/
  items : Store CalItem := []
  jobs : List PointJob := []
  /-- Watch bits OFFSET, REFERENCE, REXT, IN_FORCE failing (R534, R548). -/
  watch : BitVec 4 := 0
  rejectSeen : Bool := false
  /-- Ports that use the factory set for want of a stored one (R526, R548). -/
  factoryTrim : BitVec 4 := 0
  /-- TDC_DELAY due to temperature waits (R524), and the junction temperature at its last run, 1/16 °C. -/
  tdcDue : Bool := false
  tdcTemp : Int := 0
  /-- Ports whose trim is in progress (R524). -/
  trimming : BitVec 4 := 0
  /-- Ports that return to service when their trim ends (R52, R524). -/
  returning : BitVec 4 := 0
  /-- Junction temperature, 1/16 °C (R108 TEMP). -/
  temp : Int := 0
  /-- `integ.status` fields (R549). -/
  xresync : Bool := false
  xovf : Bool := false
  tornSeen : Bool := false
  lastXid : BitVec 4 := 0
  lastXidHi : BitVec 4 := 0
  /-- Generation number per crossing 1–9 (R537). -/
  generations : Vector (BitVec 4) 10 := Vector.replicate 10 0
  /-- Telemetry: next record sequence, RESTARTED pending (R540). -/
  teleSeq : BitVec 32 := 0
  teleRestarted : Bool := true
  /-- 64-bit extensions of activity counters: upper words and last 32-bit reading, by parameter key (R539). -/
  extHi : Store Nat := []
  extLast : Store Nat := []
  /-- Snapshot tag (R538). -/
  snapTag : BitVec 4 := 0
  /-- REXT mean code at BOOT, scaled to 1 mA (R534); none before the first watch. -/
  rextBoot : Option Int := none
  deriving DecidableEq, Repr

/-- An entry of the flash event log with its number (R543); data entries of LOG_CONT carry 16 bytes. -/
structure LogEntry where
  number : Nat
  entry : EventEntry
  /-- Bytes 8–23 of a LOG_CONT entry (R544). -/
  data : List Byte := []
  /-- Its check fails (R543). -/
  bad : Bool := false
  deriving DecidableEq, Repr

/-- The flash event log (R542 to R545). [DESIGN CHOICE, notes/assumptions/11; DEDUCED, notes/assumptions/150] -/
structure FlashLog where
  /-- Entries held, newest first. -/
  entries : List LogEntry := []
  /-- Newest entry number. -/
  newest : Nat := 0
  /-- Posted and not yet programmed, oldest first. -/
  waiting : List LogEntry := []
  /-- Budget in entries, and its remainder in 1/3,600,000 entry (R544). -/
  budget : Nat := 256
  budgetTick : Nat := 0
  /-- Entries suppressed since the last LOG_SUPPRESSED and the first one's code. -/
  suppressedNow : Nat := 0
  suppressedCode : Nat := 0
  /-- Erase count of the most erased sector (R547). -/
  maxErases : Nat := 0
  deriving DecidableEq, Repr

end Sys2Proof.Machine
end

