-- ==== Sys2Proof/Syntax.lean ====
section
/-! DEFINITION. The commands of the block: one constructor per row of spec/opcode_table.json, with the row's
operands. A command is an event of the balls, links, clocks or engines, a register access, an Oxras command that runs
at the head of Scribe's queue (its payload lies in the queue), or one Serif instruction of a lane. What the
environment measures reaches the model as an operand. -/

namespace Sys2Proof

open Machine (NetTime)

/-- What an RTD measurement sequence measured (R284, R286). -/
structure RtdSums where
  /-- Sums of sensor and REXT codes. -/
  sensor : Int
  rext : Int
  /-- Lowest monitored current, parts per thousand of the set current. -/
  currentPermille : Nat
  /-- The current moved by more than 2 % (R286). -/
  moved : Bool
  /-- Mean sensor voltage in µV. -/
  sensorUv : Int
  deriving DecidableEq, Repr

/-- What the lanes and the decoder made of one processed round of a replay job (R355 to R359). -/
structure ReplayResult where
  /-- The completed output's points for BAND_ENERGY, SPECTRUM and USER; other recipes do not use it. -/
  payload : List Byte
  /-- Decoding error code of R346, 0 for none. -/
  decodeError : Nat
  /-- Rounds missing before this one were idled by SENTINEL (R358). -/
  idled : Bool
  /-- Lane-cycles used in the last second, in thousands (R360). -/
  cycles : Nat
  deriving DecidableEq, Repr

/-- An uncorrectable error in an on-chip store (R366): the word, and what it holds, where the mapping is not given. -/
structure SramError where
  store : Fin 5
  word : Nat
  /-- Store 1: port. Store 3: ring stream or queue. -/
  port : Fin 4
  /-- Store 1: DTS cell. Store 2: lane. Store 3: 0–7 ring stream, 8–15 output queue of the staging. -/
  index : Nat
  /-- Store 1: 0 cell, 1 dark sum, 2 accepted dark value. Store 2: 0 history, 1 constants, 2 program memory. -/
  kind : Nat
  /-- A single-bit error, corrected on the read (R365). -/
  corrected : Bool
  deriving DecidableEq, Repr

/-- What a write to the control page carries (R107): its size, 0 for 8, 1 for 16 and 2 for 32 bits, and its value. -/
structure RegData where
  size : Fin 3
  value : BitVec 32
  deriving DecidableEq, Repr

/-- What an SMBus write carries (R453, R454): the 7-bit address it is for, and its data bytes. -/
structure SmbData where
  address : BitVec 7
  bytes : List Byte
  deriving DecidableEq, Repr

/-- A DRAM row location (R395). -/
structure DramRow where
  channel : Fin 2
  rank : Fin 2
  bank : Fin 8
  row : Fin 262144
  requester : Fin 8
  deriving DecidableEq, Repr

/-- An inline ECC error of DRAM (R370). -/
structure DramError where
  port : Fin 2
  loc : DramRow
  uncorrectable : Bool
  /-- Data sector of the row (R369). -/
  sector : Fin 30
  /-- Zone whose paged history holds the sector (requester 0), or replay job that reads it (requester 3). -/
  owner : Nat
  deriving DecidableEq, Repr

/-- What a training pass found (R368, R378, R383). -/
structure TrainingResult where
  /-- Channels that answered MR8, and whether they are alike. -/
  fitted : Bool
  matching : Bool
  capacityMib : Nat
  rank1 : Bool
  byteMode : Bool
  /-- Every lane passed every phase and verification. -/
  trained : Bool
  delays : Machine.Delays
  /-- The previous delays of all lanes pass verification. -/
  previousVerify : Bool
  deriving DecidableEq, Repr

/-- A PTP message as received and timestamped (R399, R400). -/
inductive PtpMessage where
  | announce (port : Fin 2) (domain sdo : Nat) (master rank : Nat)
  | sync (port : Fin 2) (domain sdo seq : Nat) (master : Nat) (twoStep : Bool) (originNs correctionNs : Int)
  | followUp (port : Fin 2) (domain sdo seq : Nat) (originNs correctionNs : Int)
  | delayResp (port : Fin 2) (domain sdo seq : Nat) (receiveNs correctionNs : Int)
  | pdelayReq (port : Fin 2) (domain sdo seq : Nat)
  | pdelayResp (port : Fin 2) (domain sdo seq : Nat) (turnaroundNs : Int)
  deriving DecidableEq, Repr

/-- An Ethernet frame as received (R446). -/
inductive EthFrame where
  | badFcs
  | arp (addr mac : Nat) (request : Bool) (target : Nat)
  | neighbour (addr mac : Nat) (solicit : Bool) (targetHi targetLo : Nat)
  | router (addr mac : Nat)
  | echo (source dest : Nat) (v6 : Bool) (payload : List Byte)
  | udp (source : Nat) (v6 : Bool) (destPort : Nat) (fragment : Bool) (payload : List Byte)
  | ptp (m : PtpMessage)
  | other
  deriving DecidableEq, Repr

/-- How a descriptor read ended (R436, R442). -/
inductive DescriptorRead where
  | ok (address length : Nat)
  | urOrCa | poisoned | timeout
  deriving DecidableEq, Repr

/-- What the active unit replicates to the standby (R483). -/
inductive Replica where
  | banks (opcode : Nat) (active : Machine.Bank) (previous : Option Machine.Bank) (trial : Bool) (commitTick timeout : Nat)
  | program (index : Nat) (p : Option Machine.Program)
  deriving DecidableEq, Repr

/-- The commands (spec/opcode_table.json). -/
inductive Instr where
  /-- NOP (R257). -/
  | nop (l : Fin 128)
  /-- END (R245). -/
  | endInsn (l : Fin 128)
  /-- REP (R258). -/
  | rep (l : Fin 128) (nMinus1 : BitVec 12)
  /-- LOOPI (R257). -/
  | loopi (l : Fin 128) (c : Fin 4) (n : BitVec 16)
  /-- LOOPP (R257). -/
  | loopp (l : Fin 128) (c : Fin 4)
  /-- DBNZ (R257). -/
  | dbnz (l : Fin 128) (c : Fin 4) (off : BitVec 16)
  /-- LDI (R257). -/
  | ldi (l : Fin 128) (d : Fin 16) (v : BitVec 16)
  /-- LDIH (R257). -/
  | ldih (l : Fin 128) (d : Fin 16) (v : BitVec 8)
  /-- MOV (R257). -/
  | mov (l : Fin 128) (d a : Fin 16)
  /-- MOVS (R249). -/
  | movs (l : Fin 128) (d n : Fin 16)
  /-- SETA (R257). -/
  | seta (l : Fin 128) (t a : Fin 16)
  /-- SETAI (R257). -/
  | setai (l : Fin 128) (t : Fin 16) (v : BitVec 14)
  /-- GETA (R257). -/
  | geta (l : Fin 128) (d t : Fin 16)
  /-- GETF (R247). -/
  | getf (l : Fin 128) (d : Fin 16)
  /-- ADD (R252). -/
  | add (l : Fin 128) (d a b : Fin 16)
  /-- SUB (R252). -/
  | sub (l : Fin 128) (d a b : Fin 16)
  /-- ADDW (R252). -/
  | addw (l : Fin 128) (d a b : Fin 16)
  /-- SUBW (R252). -/
  | subw (l : Fin 128) (d a b : Fin 16)
  /-- AND (R257). -/
  | and (l : Fin 128) (d a b : Fin 16)
  /-- OR (R257). -/
  | or (l : Fin 128) (d a b : Fin 16)
  /-- XOR (R257). -/
  | xor (l : Fin 128) (d a b : Fin 16)
  /-- MIN (R257). -/
  | min (l : Fin 128) (d a b : Fin 16)
  /-- MAX (R257). -/
  | max (l : Fin 128) (d a b : Fin 16)
  /-- ABS (R252). -/
  | abs (l : Fin 128) (d a : Fin 16)
  /-- NEG (R252). -/
  | neg (l : Fin 128) (d a : Fin 16)
  /-- SHLI (R252). -/
  | shli (l : Fin 128) (d a : Fin 16) (n : BitVec 5)
  /-- SHRAI (R257). -/
  | shrai (l : Fin 128) (d a : Fin 16) (n : BitVec 5)
  /-- SHRLI (R257). -/
  | shrli (l : Fin 128) (d a : Fin 16) (n : BitVec 5)
  /-- SHRRI (R257). -/
  | shrri (l : Fin 128) (d a : Fin 16) (n : BitVec 5)
  /-- SHV (R257). -/
  | shv (l : Fin 128) (d a b : Fin 16)
  /-- CMP (R257). -/
  | cmp (l : Fin 128) (a b : Fin 16)
  /-- SEL (R257). -/
  | sel (l : Fin 128) (d a b : Fin 16) (cond : Fin 4)
  /-- QOR (R257). -/
  | qor (l : Fin 128) (a : Fin 16)
  /-- QGET (R257). -/
  | qget (l : Fin 128) (d : Fin 16)
  /-- EXP (R256). -/
  | exp (l : Fin 128) (d a : Fin 16)
  /-- BXP (R256). -/
  | bxp (l : Fin 128) (a : Fin 16)
  /-- BXG (R256). -/
  | bxg (l : Fin 128) (d : Fin 16)
  /-- LD (R257). -/
  | ld (l : Fin 128) (d : Fin 16) (p o : Fin 8) (size : BitVec 2) (sign : Bool)
  /-- ST (R257). -/
  | st (l : Fin 128) (a : Fin 16) (p o : Fin 8) (size : BitVec 2)
  /-- LDPT (R257). -/
  | ldpt (l : Fin 128) (d : Fin 16) (p o : Fin 8)
  /-- IN (R250). -/
  | inInsn (l : Fin 128) (d : Fin 16)
  /-- OUT (R251). -/
  | out (l : Fin 128) (a : Fin 16) (size : BitVec 2)
  /-- FEAT (R251). -/
  | feat (l : Fin 128) (k : Fin 8) (a b : Fin 16) (mode : BitVec 2)
  /-- CLR (R257). -/
  | clr (l : Fin 128) (j : Fin 4)
  /-- MAC (R253). -/
  | mac (l : Fin 128) (j : Fin 4) (a b : Fin 16)
  /-- MSU (R253). -/
  | msu (l : Fin 128) (j : Fin 4) (a b : Fin 16)
  /-- MAC2 (R253). -/
  | mac2 (l : Fin 128) (pr : Fin 2) (a b a2 b2 : Fin 16)
  /-- MACLD (R253). -/
  | macld (l : Fin 128) (j : Fin 4) (a b : Fin 16) (p o p2 o2 : Fin 8)
  /-- EXT (R254). -/
  | ext (l : Fin 128) (d : Fin 16) (j : Fin 4) (sh : BitVec 6)
  /-- LDA (R257). -/
  | lda (l : Fin 128) (j : Fin 4) (a : Fin 16) (sh : BitVec 5)
  /-- ADDA (R253). -/
  | adda (l : Fin 128) (j j2 : Fin 4)
  /-- LOG2 (R255). -/
  | log2 (l : Fin 128) (d : Fin 16) (j : Fin 4)
  /-- POWER_ON (R57). -/
  | powerOn (feed : Fin 2) (seqViolation : Bool)
  /-- POWER_OFF (R57). -/
  | powerOff
  /-- RESET_N_FALL (R39). -/
  | resetNFall
  /-- PWRGD_FALL (R39). -/
  | pwrgdFall
  /-- RESET_RELEASE (R39). -/
  | resetRelease
  /-- STRAP_SAMPLE (R45). -/
  | strapSample (levels : Machine.Straps)
  /-- RAIL_UNDERVOLTAGE (R52). -/
  | railUndervoltage (r : Machine.Rail)
  /-- RAIL_RESTORED (R52). -/
  | railRestored (r : Machine.Rail)
  /-- FEED_LOST (R58). -/
  | feedLost (x : Fin 2) (volt pin : Bool)
  /-- FEED_RESTORED (R58). -/
  | feedRestored (x : Fin 2)
  /-- FEED_LOSS_ACTION (R59). -/
  | feedLossAction
  /-- REF_PRESENT (R63). -/
  | refPresent (src : Fin 2) (hz25 : Bool)
  /-- REF_ABSENT (R63). -/
  | refAbsent (src : Fin 2)
  /-- OCXO_WARM_CHANGE (R63). -/
  | ocxoWarmChange (warm : Bool)
  /-- REF_SWITCH (R64). -/
  | refSwitch
  /-- XTAL_FAIL (R67). -/
  | xtalFail
  /-- CORE_PLL_UNLOCK (R69). -/
  | corePllUnlock
  /-- CORE_PLL_RELOCK (R69). -/
  | corePllRelock
  /-- CORE_PLL_TIMEOUT (R69). -/
  | corePllTimeout
  /-- CTRL_PLL_UNLOCK (R69). -/
  | ctrlPllUnlock
  /-- DRAM_PLL_UNLOCK (R69). -/
  | dramPllUnlock (a : Fin 2)
  /-- PCIE_PLL_UNLOCK (R69). -/
  | pciePllUnlock
  /-- THERMAL_LIMIT (R85). -/
  | thermalLimit (temp : Int)
  /-- BOOT_ROM_START (R98). -/
  | bootRomStart
  /-- BOOT_SRAM_CLEAR_DONE (R85). -/
  | bootSramClearDone (ok : Bool)
  /-- BOOT_COMPLETE (R86). -/
  | bootComplete
  /-- AUTO_RUN (R87). -/
  | autoRun
  /-- RECOVERY_IMAGE (R458). -/
  | recoveryImage (image : List Byte)
  /-- SCRIBE_WATCHDOG (R89). -/
  | scribeWatchdog
  /-- SCRIBE_RESTART_DONE (R90). -/
  | scribeRestartDone (mismatch : Bool)
  /-- FW_CONFIRM_TIMEOUT (R99). -/
  | fwConfirmTimeout
  /-- CFG_CONFIRM_TIMEOUT (R95). -/
  | cfgConfirmTimeout
  /-- AUTO_REVERT (R96). -/
  | autoRevert
  /-- COMMIT_RECORD_PROGRAMMED (R92). -/
  | commitRecordProgrammed
  /-- COMMIT_SWITCH (R93). -/
  | commitSwitch (p : Fin 4)
  /-- MODE_TRANSITION_DONE (R78). -/
  | modeTransitionDone
  /-- SURVEY_PORT_DONE (R176). -/
  | surveyPortDone (p : Fin 4) (trace : Machine.SurveyTrace)
  /-- SLOT_FIRE_TIME (R152). -/
  | slotFireTime (p : Fin 4) (peakPct : Nat) (raman : Machine.RamanCodes)
  /-- LAUNCH_WINDOW_END (R158). -/
  | launchWindowEnd (p : Fin 4)
  /-- LIGHT_WITHOUT_GATE (R160). -/
  | lightWithoutGate (p : Fin 4)
  /-- INPUT_OVER_RANGE (R172). -/
  | inputOverRange (p : Fin 4) (group : Fin 2)
  /-- OVR_GUARD_END (R172). -/
  | ovrGuardEnd (p : Fin 4) (group : Fin 2)
  /-- ADC_CORR_ESTIMATE (R169). -/
  | adcCorrEstimate (p : Fin 4) (input : Fin 6) (c : Machine.Correction)
  /-- POINT_UNWRAP (R195). -/
  | pointUnwrap (pt : Machine.RawPoint)
  /-- SLICE_COMPLETE (R220). -/
  | sliceComplete (r : Machine.SliceResult)
  /-- SLICE_DEADLINE (R221). -/
  | sliceDeadline (z : Fin 1024)
  /-- LANE_BUDGET_END (R268). -/
  | laneBudgetEnd (l : Fin 128)
  /-- DTS_TRACE_COMPLETE (R278). -/
  | dtsTraceComplete (p : Fin 4) (codes : Machine.RamanCodes)
  /-- RTD_DUE (R289). -/
  | rtdDue (k : Fin 8)
  /-- RTD_MEASUREMENT_END (R286). -/
  | rtdMeasurementEnd (k : Fin 8) (m : RtdSums)
  /-- RTD_PULSE_TIMEOUT (R286). -/
  | rtdPulseTimeout (k : Fin 8)
  /-- HK_SCAN (R292). -/
  | hkScan (codes : List Int)
  /-- HK_PULSE_EVENT (R292). -/
  | hkPulseEvent (e : Fin 8) (code : Int) (late : Bool)
  /-- TRG_ARM_N_CHANGE (R316). -/
  | trgArmNChange (low : Bool)
  /-- REMOTE_FIRE_EDGE (R319). -/
  | remoteFireEdge
  /-- FIRE_PULSE_END (R318). -/
  | firePulseEnd
  /-- RECORD_CLOSE (R323). -/
  | recordClose (number : Nat)
  /-- REPLAY_ROUND_DONE (R355). -/
  | replayRoundDone (job : Fin 16) (r : ReplayResult)
  /-- SRAM_ECC_ERROR (R366). -/
  | sramEccError (e : SramError)
  /-- SRAM_SCRUB_REWRITE (R366). -/
  | sramScrubRewrite (store : Fin 5) (word : Nat)
  /-- DRAM_ECC_ERROR (R370). -/
  | dramEccError (e : DramError)
  /-- PAGE_RETIRE (R390). -/
  | pageRetire (a : Fin 2) (page : Nat)
  /-- DRAM_TRAINING_DONE (R383). -/
  | dramTrainingDone (a : Fin 2) (r : TrainingResult)
  /-- DRAM_RETRAIN_CHECK (R381). -/
  | dramRetrainCheck (a : Fin 2) (mr4 : Nat) (pass : Bool)
  /-- ROW_HAMMER (R377). -/
  | rowHammer (a : Fin 2) (loc : DramRow)
  /-- HAMMER_WINDOW (R376). -/
  | hammerWindow
  /-- HAMMER_THROTTLE_END (R377). -/
  | hammerThrottleEnd (i : Fin 8)
  /-- DRAM_REFRESH (R374). -/
  | dramRefresh (a : Fin 2) (waiting : Bool)
  /-- MEM_LATE (R374). -/
  | memLate (i : Fin 8) (n : Nat)
  /-- ANALOGUE_TRIM_DONE (R525). -/
  | analogueTrimDone (p : Fin 4) (fields : List Int)
  /-- TDC_DELAY_RUN (R524). -/
  | tdcDelayRun (temp : Int)
  /-- TDC_DELAY_DONE (R525). -/
  | tdcDelayDone (fields : List Int)
  /-- PLAUSIBILITY_WATCH (R534). -/
  | plausibilityWatch (offset reference rext : Int)
  /-- TELEMETRY_RECORD (R540). -/
  | telemetryRecord
  /-- COUNTER_EXTEND (R539). -/
  | counterExtend
  /-- LOG_PROGRAM (R543). -/
  | logProgram
  /-- HEARTBEAT_TOGGLE (R109). -/
  | heartbeatToggle
  /-- UNIT_ID_SAMPLE (R47). -/
  | unitIdSample (level : Bool)
  /-- XOVF (R536). -/
  | xovf (crossing : Fin 10)
  /-- SERIF_SELFTEST (R269). -/
  | serifSelftest (failed : BitVec 128)
  /-- LKEY_OFF (R498). -/
  | lkeyOff
  /-- LKEY_ON (R498). -/
  | lkeyOn
  /-- LOOP_OK_LOW (R498). -/
  | loopOkLow
  /-- LOOP_OK_HIGH (R498). -/
  | loopOkHigh
  /-- PLUG_OPEN_LATCH (R505). -/
  | plugOpenLatch (p : Fin 4)
  /-- PLUG_DEBOUNCED_OPEN (R505). -/
  | plugDebouncedOpen (p : Fin 4)
  /-- PLUG_DEBOUNCED_CLOSE (R505). -/
  | plugDebouncedClose (p : Fin 4)
  /-- APR_RESTART_EXPIRY (R505). -/
  | aprRestartExpiry (p : Fin 4)
  /-- PANEL_INPUT_CHATTER (R515). -/
  | panelInputChatter (i : Fin 8)
  /-- INPUT_STUCK (R515). -/
  | inputStuck (button : Fin 2)
  /-- SERVICE_PRESS (R490). -/
  | servicePress
  /-- LOCATE_PRESS (R514). -/
  | locatePress
  /-- LOCATE_END (R514). -/
  | locateEnd
  /-- LED_DIAGNOSIS (R511). -/
  | ledDiagnosis (j : Fin 16) (result : Fin 3)
  /-- COLOUR_FEEDBACK (R512). -/
  | colourFeedback (dark lit : Vector Int 3)
  /-- BARK_SEND (R469). -/
  | barkSend
  /-- BARK_RECEIVED (R470). -/
  | barkReceived (b : Machine.Bark)
  /-- HB_PATH_SILENT (R472). -/
  | hbPathSilent
  /-- BARK_PATH_SILENT (R472). -/
  | barkPathSilent
  /-- PAIR_PATH_RESTORED (R472). -/
  | pairPathRestored (path : Fin 2)
  /-- PEER_FAILED (R473). -/
  | peerFailed
  /-- PEER_PRESENT_CHANGE (R466). -/
  | peerPresentChange (present : Bool)
  /-- SEGOR_LINK_UP (R467). -/
  | segorLinkUp (peerLow peerHigh : Nat)
  /-- SEGOR_LINK_DOWN (R467). -/
  | segorLinkDown
  /-- SEGOR_FRAME_RECEIVED (R468). -/
  | segorFrameReceived (kind : Fin 5) (bytes : List Byte)
  /-- LEASH_OWN_TEST (R474). -/
  | leashOwnTest (held current : Bool)
  /-- OWN_CLEAR (R474). -/
  | ownClear (held : Bool)
  /-- ILK_N_RELEASED (R476). -/
  | ilkNReleased
  /-- VACANT_TIMEOUT (R476). -/
  | vacantTimeout
  /-- TAKE_WAIT_END (R477). -/
  | takeWaitEnd
  /-- HANDOVER_TIMEOUT (R478). -/
  | handoverTimeout
  /-- COPY_EPOCH_END (R481). -/
  | copyEpochEnd
  /-- COPY_RECEIVED (R481). -/
  | copyReceived (c : Machine.CopyState)
  /-- FINAL_COPY_SEND (R485). -/
  | finalCopySend
  /-- COPY_ACK_RECEIVED (R485). -/
  | copyAckReceived (epoch : Nat)
  /-- COPY_ACK_TIMEOUT (R486). -/
  | copyAckTimeout
  /-- HEALTH_FRAME_SEND (R484). -/
  | healthFrameSend
  /-- BANK_REPLICA (R483). -/
  | bankReplica (r : Replica)
  /-- PTP_MESSAGE_RX (R399). -/
  | ptpMessageRx (m : PtpMessage)
  /-- PTP_MESSAGE_TX (R400). -/
  | ptpMessageTx (d : Fin 2)
  /-- SYNC_TIMEOUT (R401). -/
  | syncTimeout (d : Fin 2)
  /-- SERVO_TIMEOUT (R401). -/
  | servoTimeout (d : Fin 2)
  /-- AXIS_SLEW_DONE (R402). -/
  | axisSlewDone
  /-- AXIS_STEP (R402). -/
  | axisStep
  /-- SYNC_IN_EDGE (R409). -/
  | syncInEdge
  /-- SYNC_LOSS (R410). -/
  | syncLoss (stuck : Bool)
  /-- TOUT_PULSE (R416). -/
  | toutPulse (u : Fin 4)
  /-- TDC_EDGE (R419). -/
  | tdcEdge (isStop : Bool) (lsb : Nat)
  /-- TDC_TIMEOUT (R420). -/
  | tdcTimeout
  /-- PE_PERST_N_ASSERT (R42). -/
  | pePerstNAssert
  /-- PCIE_HOT_RESET (R430). -/
  | pcieHotReset
  /-- PCIE_FLR (R430). -/
  | pcieFlr
  /-- PCIE_LINK_CHANGE (R428). -/
  | pcieLinkChange (up : Bool) (gen : BitVec 4) (width : BitVec 3)
  /-- PCIE_L1_WAKE (R431). -/
  | pcieL1Wake
  /-- ETH_LINK (R445). -/
  | ethLink (n : Fin 2) (up : Bool)
  /-- ETH_FRAME_RX (R446). -/
  | ethFrameRx (n : Fin 2) (f : EthFrame)
  /-- QUEUE_ITEM_DELIVER (R438). -/
  | queueItemDeliver (q : Fin 8) (buffers : List Nat)
  /-- QUEUE_IRQ (R444). -/
  | queueIrq (q : Fin 8)
  /-- DESCRIPTOR_READ_DONE (R442). -/
  | descriptorReadDone (q : Fin 8) (r : DescriptorRead)
  /-- DOORBELL_WRITE (R113). -/
  | doorbellWrite (t : Fin 2) (v : BitVec 32)
  /-- MESSAGE_TAKEN (R113). -/
  | messageTaken (t : Fin 2)
  /-- THROTTLE_END (R123). -/
  | throttleEnd (t : Fin 4)
  /-- SESSION_TIMEOUT (R127). -/
  | sessionTimeout
  /-- RSP_ACK_WRITE (R114). -/
  | rspAckWrite (t : Fin 2)
  /-- RESPONSE_PLACED (R114). -/
  | responsePlaced (t : Fin 2)
  /-- EVQ_TAIL_WRITE (R139). -/
  | evqTailWrite (t : Fin 2) (v : BitVec 32)
  /-- ESTOP_STOP (R503). -/
  | estopStop (t : Fin 2)
  /-- SNAPSHOT_LOW_READ (R538). -/
  | snapshotLowRead (t : Fin 2) (off : Nat)
  /-- SNAPSHOT_HIGH_READ (R538). -/
  | snapshotHighRead (t : Fin 2) (off : Nat)
  /-- QUEUE_TAIL_WRITE (R437). -/
  | queueTailWrite (q : Fin 8) (v : BitVec 32)
  /-- DMA_QUEUE_ENABLE (R440). -/
  | dmaQueueEnable (q : Fin 8)
  /-- DMA_QUEUE_DISABLE (R440). -/
  | dmaQueueDisable (q : Fin 8)
  /-- REGISTER_WRITE (R107). -/
  | registerWrite (t : Fin 2) (off : Nat) (v : RegData)
  /-- SPI_TRANSACTION (R452). -/
  | spiTransaction (mosi : List Byte)
  /-- SMB_READ_ID (R454). -/
  | smbReadId (addr : BitVec 7)
  /-- SMB_READ_SERIAL (R454). -/
  | smbReadSerial (addr : BitVec 7)
  /-- SMB_READ_FW_VERSION (R454). -/
  | smbReadFwVersion (addr : BitVec 7)
  /-- SMB_READ_HOST_STATUS (R454). -/
  | smbReadHostStatus (addr : BitVec 7)
  /-- SMB_READ_HEALTH (R454). -/
  | smbReadHealth (addr : BitVec 7)
  /-- SMB_READ_TEMP (R454). -/
  | smbReadTemp (addr : BitVec 7)
  /-- SMB_READ_FEED_STATUS (R454). -/
  | smbReadFeedStatus (addr : BitVec 7)
  /-- SMB_READ_SAFETY_STATUS (R454). -/
  | smbReadSafetyStatus (addr : BitVec 7)
  /-- SMB_READ_TIME_SNAP (R454). -/
  | smbReadTimeSnap (addr : BitVec 7)
  /-- SMB_READ_ESTOP (R454). -/
  | smbReadEstop (addr : BitVec 7)
  /-- SMB_WRITE_ESTOP (R454). -/
  | smbWriteEstop (data : SmbData) (pecOk : Bool)
  /-- JTAG_BYPASS (R459). -/
  | jtagBypass
  /-- JTAG_IDCODE (R459). -/
  | jtagIdcode
  /-- JTAG_SAMPLE_PRELOAD (R459). -/
  | jtagSamplePreload (levels : List Bool)
  /-- JTAG_EXTEST (R459). -/
  | jtagExtest
  /-- JTAG_TRST (R459). -/
  | jtagTrst
  /-- HELLO (R125). -/
  | hello
  /-- PING (R136). -/
  | ping
  /-- BYE (R136). -/
  | bye
  /-- EVENT_SUBSCRIBE (R140). -/
  | eventSubscribe
  /-- PARAM_GET (R133). -/
  | paramGet
  /-- PARAM_SET (R133). -/
  | paramSet
  /-- PARAM_GET_BLOCK (R133). -/
  | paramGetBlock
  /-- STAGE (R133). -/
  | stage
  /-- COMMIT (R92). -/
  | commit
  /-- CONFIRM (R95). -/
  | confirm
  /-- REVERT (R96). -/
  | revert
  /-- BANK_DIFF (R134). -/
  | bankDiff
  /-- PENDING_DISCARD (R134). -/
  | pendingDiscard
  /-- MODE_REQUEST (R78). -/
  | modeRequest
  /-- DEVICE_RESET (R135). -/
  | deviceReset
  /-- ZONE_DEFINE (R237). -/
  | zoneDefine
  /-- ZONE_DELETE (R238). -/
  | zoneDelete
  /-- ZONE_QUERY (R239). -/
  | zoneQuery
  /-- SEQ_LOAD (R313). -/
  | seqLoad
  /-- ARM (R315). -/
  | arm
  /-- DISARM (R315). -/
  | disarm
  /-- EVENT_READ (R329). -/
  | eventRead
  /-- REPLAY_START (R355). -/
  | replayStart
  /-- REPLAY_CANCEL (R360). -/
  | replayCancel
  /-- REPLAY_STATUS (R360). -/
  | replayStatus
  /-- SURVEY_READ (R177). -/
  | surveyRead
  /-- CAL_RUN (R529). -/
  | calRun
  /-- CAL_POINT (R530). -/
  | calPoint
  /-- CAL_READ (R532). -/
  | calRead
  /-- PAIR_HANDOVER (R492). -/
  | pairHandover
  /-- PAIR_QUERY (R493). -/
  | pairQuery
  /-- PEER_RELAY (R494). -/
  | peerRelay
  /-- JOURNAL_READ (R145). -/
  | journalRead
  /-- LOG_READ (R545). -/
  | logRead
  /-- FW_BEGIN (R99). -/
  | fwBegin
  /-- FW_DATA (R99). -/
  | fwData
  /-- FW_END (R99). -/
  | fwEnd
  /-- FW_ACTIVATE (R99). -/
  | fwActivate
  /-- FW_CONFIRM (R99). -/
  | fwConfirm
  /-- PROG_LOAD (R263). -/
  | progLoad
  /-- PROG_DELETE (R264). -/
  | progDelete
  /-- PROG_LIST (R265). -/
  | progList
  /-- TIME_DOMAIN_WRITE (R397). -/
  | timeDomainWrite (d : Fin 2) (increment : Option Nat) (adjust : Option Int)
  /-- SERVO_STATE_WRITE (R401). -/
  | servoStateWrite (d : Fin 2) (locked : Bool)
  /-- TIME_SELECT_WRITE (R404). -/
  | timeSelectWrite (d : Fin 2) (force : Bool)
  /-- TDC_ARM_WRITE (R419). -/
  | tdcArmWrite (on : Bool)
  /-- TOUT_CONFIG_WRITE (R416). -/
  | toutConfigWrite (u : Fin 4) (field : Fin 8) (v : Int)
  /-- DAS_GAIN_WRITE (R166). -/
  | dasGainWrite (p : Fin 4) (gain : Nat)
  /-- RATE_MTS_WRITE (R382). -/
  | rateMtsWrite (a : Fin 2) (rate : Nat)
  /-- ESTOP_RELEASE_WRITE (R504). -/
  | estopReleaseWrite (on : Bool)
  /-- PORT_RESTART_WRITE (R505). -/
  | portRestartWrite (mask : Nat)
  /-- HOST_ENABLE_WRITE (R498). -/
  | hostEnableWrite (mask : Nat)
  /-- LOCATE_MASK_WRITE (R514). -/
  | locateMaskWrite (mask : Nat)
  /-- MASTER_ARM_WRITE (R316). -/
  | masterArmWrite (on : Bool)
  /-- PTR_FLAGS_WRITE (R308). -/
  | ptrFlagsWrite (v : Nat)
  /-- UDP_TRANSPORT_WRITE (R147). -/
  | udpTransportWrite (enable : Bool) (port : Nat)
  /-- LAUNCH_SEEN (R159). -/
  | launchSeen (p : Fin 4)
  /-- BLANK_INPUT_CHANGE (R170). -/
  | blankInputChange (p : Fin 4) (level : Bool)
  /-- PAIR_WATCHDOG_EXPIRY (R471). -/
  | pairWatchdogExpiry
  /-- ILK_N_HELD (R485). -/
  | ilkNHeld
  /-- DELAYED_RESET (R135). -/
  | delayedReset
  /-- BUTTON_STABLE_RELEASE (R515). -/
  | buttonStableRelease (button : Fin 2)
  deriving DecidableEq, Repr

end Sys2Proof
end

