-- ==== Sys2Proof/Machine/State.lean ====
section
/-! DEFINITION. The state of the device as plain data, the reasons a step can stop, and the machine right after reset.
Each field's default value is its value at reset; the fields' types in Types*.lean cite the rule of every part. -/

namespace Sys2Proof.Machine

/-- Reasons a step can fault. -/
inductive Fault where
  /-- Raised by no command: the device has no effect that ends its run, and a Serif operand outside its row's range
  runs with a free value. Safe: nothing stops. -/
  | illFormed (mnemonic : String)
  deriving DecidableEq, Repr

/-- Reasons a command is refused. -/
inductive Refusal where
  /-- Raised by exec's arm of a command without a meaning yet. Safe: the model stops. -/
  | notModelled (mnemonic : String)
  deriving DecidableEq, Repr

/-- The device, and the queue of the commands that wait. [DESIGN CHOICE, notes/assumptions/4] -/
structure State where
  power : Power := {}
  clocks : Clocks := {}
  straps : Straps := {}
  pins : Pins := {}
  mode : ModeState := {}
  banks : Banks := {}
  /-- Values in force of parameters that no bank holds, keyed id × 65,536 + index; an unlisted one has its default. -/
  params : Store Int := []
  /-- Values latched at the last BOOT of parameters applied at boot (R14), the same keys. -/
  booted : Store Int := []
  /-- Values written to parameters applied at the next mode entry, until that entry (R14), the same keys. -/
  modeEntry : Store Int := []
  scribe : Scribe := {}
  evq : EventQueue := {}
  journal : Journal := {}
  log : FlashLog := {}
  firmware : Firmware := {}
  ports : Vector PortState 4 := Vector.replicate 4 {}
  herder : Herder := {}
  serif : Serif := {}
  raman : Vector Raman 4 := Vector.replicate 4 {}
  rtd : Vector Rtd 8 := Vector.replicate 8 {}
  hk : Hk := {}
  pointer : Pointer := {}
  inkstone : Inkstone := {}
  memory : Memory := {}
  time : TimeUnit := {}
  links : Links := {}
  pair : Pair := {}
  safety : Safety := {}
  calib : Calib := {}
  /-- Ticks of 1.25 ns since power was applied; the model's clock for every interval the spec states. -/
  ticks : Nat := 0
  /-- The model's own counter of free values drawn: `Config.freeValue` is applied to it. -/
  free : Nat := 0
  /-- Commands that wait, first in, first out. -/
  pending : List Instr := []
  deriving DecidableEq, Repr

/-- The device right after reset: RESET has been left after a power-on and BOOT has begun (R39, T2). [DESIGN CHOICE, notes/assumptions/1; DESIGN CHOICE, notes/assumptions/10] -/
def State.reset : State := {}

end Sys2Proof.Machine
end

