-- ==== Sys2Proof/Machine/Ops.lean ====
section
/-! DEFINITION. The named operations the meanings share: time, parameters with their banks and effects (R12 to R15,
R91, R93), counters (R546), free values, per-port updates and interrupt status bits. -/

namespace Sys2Proof.Machine

/-- Ticks of 1.25 ns in `n` microseconds. -/
def usTicks (n : Nat) : Nat := n * 800
/-- Ticks in `n` milliseconds. -/
def msTicks (n : Nat) : Nat := n * 800000
/-- Ticks in `n` seconds. -/
def secTicks (n : Nat) : Nat := n * 800000000

/-- A time in units of 2^−40 ns as network time (R9). -/
def netTime (t : Nat) : NetTime :=
  let ns := t / 2 ^ 40
  ⟨ns / 1000000000 % 2 ^ 48, ns % 1000000000, t / 2 ^ 24 % 2 ^ 16⟩

/-- A network time in nanoseconds. -/
def netNs (t : NetTime) : Nat := t.sec * 1000000000 + t.ns

/-- Nanoseconds as network time. -/
def nsNet (ns : Nat) : NetTime := netTime (ns * 2 ^ 40)

/-- Network time of the schedule axis, in nanoseconds. -/
def nowNs (s : State) : Nat := s.time.axis / 2 ^ 40


/-- Add one to a natural number below `top`, staying there (error counters, R546). -/
def satInc (top v : Nat) : Nat := if v < top then v + 1 else v

/-- A Bool as 0 or 1. -/
def bit (b : Bool) : Nat := if b then 1 else 0

/-- The bits of a list, least significant first, as a number. -/
def bits (bs : List Bool) : Nat :=
  match bs with
  | [] => 0
  | b :: t => bit b + 2 * bits t

/-- Is bit `i` of `v` set? -/
def hasBit (v i : Nat) : Bool := v / 2 ^ i % 2 == 1

/-- Draw the next free value. [DESIGN CHOICE, notes/assumptions/4] -/
def drawFree (s : State) : Nat × State := (Config.freeValue s.free, { s with free := s.free + 1 })

/-- Note `n` occurrences with argument `arg` of an event posted at most once per second: the count and first argument
to post now, if a second has passed since the last posting, and the limit after it. [DEDUCED, notes/assumptions/68] -/
def rateHit (now n arg : Nat) (r : RateLimit) : Option (Nat × Nat) × RateLimit :=
  let first := if r.count = 0 then arg else r.first
  if (r.posted.map fun k => decide (now < k + secTicks 1)).getD false then (none, { r with count := r.count + n, first := first })
  else (some (r.count + n, first), { posted := some now, count := 0, first := 0 })

/-- Update port `p`. -/
def onPort (p : Nat) (f : PortState → PortState) (s : State) : State := { s with ports := vecUpdate s.ports p f }

/-- Port `p`. -/
def portOf (s : State) (p : Nat) : PortState := vecRead s.ports p {}

/-- The table's identifier for a parameter identifier of R132: port p and DRAM port a travel in the ID (R133). -/
def canonId (id : Nat) : Nat :=
  if 0x1000 ≤ id ∧ id < 0x1400 then 0x1000 + id % 0x100
  else if 0x2C40 ≤ id ∧ id < 0x2C60 then id - 0x20
  else id

/-- The identifier of a port parameter of port `p` (R133). -/
def portId (p id : Nat) : Nat := id + 0x100 * p

/-- The identifier of a DRAM port parameter of port `a` (R133). -/
def dramId (a id : Nat) : Nat := id + 0x20 * a

/-- The index field of a family with two indexes (R133). -/
def idx2 (outer inner : Nat) : Nat := outer * 32 + inner

/-- The table row of an identifier, whatever the index. -/
def paramRow (id : Nat) : Option ParamDef := paramTable.find? fun d => d.id == canonId id

/-- Is the index inside the family's range (R13, R133)? -/
def indexOk (f : IndexFamily) (idx : Nat) : Bool :=
  match f with
  | .one => idx == 0
  | .idx n => decide (idx < n)
  | .idx2 n m => decide (idx / 32 < n) && decide (idx % 32 < m)
  | .port n => decide (idx < n)
  | .dram n => decide (idx < n)

/-- The row an item of a list names; none where R13 or R132 refuses it. -/
def paramItem (id idx : Nat) : Option ParamDef := (paramRow id).filter fun d => indexOk d.family idx

/-- Is a value inside the range of a parameter's row (R13)? -/
def rangeOk (r : ParamRange) (v : Int) : Bool :=
  match r with
  | .span lo hi => decide (lo ≤ v) && decide (v ≤ hi)
  | .spanOr lo hi extra => (decide (lo ≤ v) && decide (v ≤ hi)) || extra.contains v
  | .oneOf vs => vs.contains v
  | .aligned step hi => decide (0 ≤ v) && decide (v ≤ hi) && v % step == 0

/-- Is a value inside the Range column of the parameter an item names (R13)? -/
def inRange (id idx : Nat) (v : Int) : Bool := ((paramItem id idx).map fun d => rangeOk d.range v).getD false

/-- Store key of a parameter. -/
def paramKey (id idx : Nat) : Nat := id * 65536 + idx

/-- Default of a row at an index. -/
def rowDefault (d : ParamDef) (idx : Nat) : Int :=
  match d.dflt with
  | .const v => v
  | .plus v => v + (idx : Int)
  | .perIdx vs => vs.getD idx 0

/-- Default of the parameter at a store key, 0 where there is none. -/
def paramDefault (key : Nat) : Int :=
  match paramRow (key / 65536) with
  | some d => rowDefault d (key % 65536)
  | none => 0

/-- Value a bank holds for a parameter. -/
def bankRead (b : Bank) (id idx : Nat) : Int := Store.read paramDefault b.params (paramKey id idx)

/-- Write a parameter into a bank. -/
def bankWrite (b : Bank) (id idx : Nat) (v : Int) : Bank :=
  { b with params := Store.write paramDefault b.params (paramKey id idx) v }

/-- Takes-effect value of a parameter (R14). -/
def effectOf (id : Nat) : TakesEffect := ((paramRow id).map (·.effect)).getD .atOnce

/-- The bank in force for values that belong to no port: the old one until the last port's switch (R93). -/
def globalBank (s : State) : Bank := ((s.banks.switch).map (·.old)).getD s.banks.active

/-- The value in force of a parameter (R14, R93): at-commit ones from the bank, at-boot ones as latched at BOOT. -/
def paramGet (s : State) (id idx : Nat) : Int :=
  match effectOf id with
  | .atCommit => bankRead (globalBank s) id idx
  | .atBoot => Store.read paramDefault s.booted (paramKey id idx)
  | _ => Store.read paramDefault s.params (paramKey id idx)

/-- The same as a natural number. -/
def paramNat (s : State) (id idx : Nat) : Nat := (paramGet s id idx).toNat

/-- The same as a Bool. -/
def paramBool (s : State) (id idx : Nat) : Bool := paramGet s id idx != 0

/-- The bank port `p` runs on: the old one until its own switch (R93). -/
def portBank (s : State) (p : Nat) : Bank :=
  match s.banks.switch with
  | some sw => if sw.portsLeft.getLsbD p then sw.old else s.banks.active
  | none => s.banks.active

/-- The bank under which a round or shot of epoch `e` of port `p` ran (R91, R234). -/
def bankOfEpoch (s : State) (p e : Nat) : Bank :=
  let old := (s.banks.switch.map fun w => [w.old]).getD []
  let held := s.banks.active :: (old ++ (s.banks.previous.map fun b => [b]).getD [])
  (held.find? fun b => b.epoch == e).getD (portBank s p)

/-- A port parameter of a bank as a natural number. -/
def bankPort (b : Bank) (p id idx : Nat) : Nat := (bankRead b (portId p id) idx).toNat

/-- Value of an at-commit parameter on the bank port `p` runs on. -/
def portCfg (s : State) (p id idx : Nat) : Int := bankRead (portBank s p) id idx

/-- A parameter of port `p`: at-commit ones from the bank the port runs on, others in force. -/
def portGet (s : State) (p id idx : Nat) : Int :=
  match effectOf id with
  | .atCommit => portCfg s p (portId p id) idx
  | _ => paramGet s (portId p id) idx

/-- The same as a natural number. -/
def portNat (s : State) (p id idx : Nat) : Nat := (portGet s p id idx).toNat

/-- The same as a Bool. -/
def portBool (s : State) (p id idx : Nat) : Bool := portGet s p id idx != 0

/-- Store a parameter that no bank holds. -/
def paramPut (id idx : Nat) (v : Int) (s : State) : State :=
  { s with params := Store.write paramDefault s.params (paramKey id idx) v }

/-- Add `n` to a counter parameter: activity counters wrap, error counters saturate (R546). -/
def bumpBy (n id idx : Nat) (s : State) : State :=
  let v := (Store.read paramDefault s.params (paramKey id idx)).toNat + n
  let top := 2 ^ 32
  let saturates := ((paramRow id).map (·.counter)) == some CounterKind.sat
  paramPut id idx (if saturates then (min v (top - 1) : Nat) else (v % top : Nat)) s

/-- Add one to a counter parameter. -/
def bump (id idx : Nat) (s : State) : State := bumpBy 1 id idx s

/-- Update the registers of page transport `t` (0 PCIe, 1 SPI). -/
def onPage (t : Nat) (f : PageSide → PageSide) (s : State) : State :=
  { s with scribe := { s.scribe with page := vecUpdate s.scribe.page t f } }

/-- Page registers of transport `t`. -/
def pageOf (s : State) (t : Nat) : PageSide := vecRead s.scribe.page t {}

/-- Update transport `t`. -/
def onTransport (t : Nat) (f : TransportState → TransportState) (s : State) : State :=
  { s with scribe := { s.scribe with transports := vecUpdate s.scribe.transports t f } }

/-- Transport `t`. -/
def transportOf (s : State) (t : Nat) : TransportState := vecRead s.scribe.transports t {}

/-- Update Ethernet port `n`. -/
def onEth (n : Nat) (f : EthPort → EthPort) (s : State) : State :=
  { s with links := { s.links with eth := vecUpdate s.links.eth n f } }

/-- Ethernet port `n`. -/
def ethOf (s : State) (n : Nat) : EthPort := vecRead s.links.eth n {}

/-- Update output queue `q`. -/
def onQueue (q : Nat) (f : OutQueue → OutQueue) (s : State) : State :=
  { s with links := { s.links with queues := vecUpdate s.links.queues q f } }

/-- Output queue `q`. -/
def queueOf (s : State) (q : Nat) : OutQueue := vecRead s.links.queues q {}

/-- Request MSI-X vector `v` (R443); in L1.2 the endpoint asserts PE_WAKE_N (R431). [DESIGN CHOICE, notes/assumptions/37] -/
def raiseVector (v : Nat) (s : State) : State :=
  { s with links := { s.links with msix := s.links.msix ||| (1#32 <<< v), peWake := s.links.peWake || s.links.pcieL1 } }

/-- Set bit `i` of IRQ_STATUS of page transport `t`; an enabled PCIe bit raises its vector (R110). [DEDUCED, notes/assumptions/13] -/
def irqSet (t i : Nat) (s : State) : State :=
  let s1 := onPage t (fun g => { g with irqStatus := g.irqStatus ||| (1#5 <<< i) }) s
  if t == 0 && (pageOf s 0).irqEnable.getLsbD i then raiseVector i s1 else s1

/-- Set bit `i` in both IRQ_STATUS registers: EVQ, FAULT and ESTOP (R110). -/
def irqBoth (i : Nat) (s : State) : State := irqSet 1 i (irqSet 0 i s)

/-- Update DRAM port `a`. -/
def onDram (a : Nat) (f : DramPort → DramPort) (s : State) : State :=
  { s with memory := { s.memory with ports := vecUpdate s.memory.ports a f } }

/-- DRAM port `a`. -/
def dramOf (s : State) (a : Nat) : DramPort := vecRead s.memory.ports a {}

/-- Update the Raman accumulator of port `p`. -/
def onRaman (p : Nat) (f : Raman → Raman) (s : State) : State := { s with raman := vecUpdate s.raman p f }

/-- Raman accumulator of port `p`. -/
def ramanOf (s : State) (p : Nat) : Raman := vecRead s.raman p {}

/-- Update time domain `d`. -/
def onDomain (d : Nat) (f : Domain → Domain) (s : State) : State :=
  { s with time := { s.time with domains := vecUpdate s.time.domains d f } }

/-- Time domain `d`. -/
def domainOf (s : State) (d : Nat) : Domain := vecRead s.time.domains d {}

/-- The selected domain. -/
def selectedDomain (s : State) : Domain := domainOf s s.time.select

/-- Network time now, that of the selected domain's counter: the time of events, shots and frames (R9, R403). -/
def nowNet (s : State) : NetTime := netTime (selectedDomain s).count

/-- Update sequencer `q`. -/
def onSeq (q : Nat) (f : Sequencer → Sequencer) (s : State) : State :=
  { s with pointer := { s.pointer with seqs := vecUpdate s.pointer.seqs q f } }

/-- Sequencer `q`. -/
def seqOf (s : State) (q : Nat) : Sequencer := vecRead s.pointer.seqs q {}

/-- Zone `z`'s running state. -/
def zoneOf (s : State) (z : Nat) : ZoneState := Store.read (fun _ => {}) s.herder.zones z

/-- Update zone `z`. -/
def onZone (z : Nat) (f : ZoneState → ZoneState) (s : State) : State :=
  { s with herder := { s.herder with zones := Store.write (fun _ => {}) s.herder.zones z (f (zoneOf s z)) } }

/-- The service of zone `z` of epoch `e` that a switch ended, with a state of its own (R234). -/
def leavingState (s : State) (z e : Nat) : Option (Leaving × ZoneState) :=
  ((Store.get? s.herder.leaving z).filter (·.epoch == e)).bind fun l => l.state.map fun x => (l, x)

/-- What belongs to a zone whatever its definition: `y` with the frame sequence, frames sent, ring feed and sticky bits of `x` (R230, R240). -/
def zoneCarry (x y : ZoneState) : ZoneState := { y with
  frameSeq := x.frameSeq, sentFrames := x.sentFrames, fed := x.fed, lastOut := x.lastOut, missSeen := x.missSeen,
  historyLost := x.historyLost }

/-- Do `f` for zone `z` in its service of epoch `e`: under the old state of the zone where a switch has ended that service (R234). -/
def inService (z e : Nat) (f : State → State) (s : State) : State :=
  match leavingState s z e with
  | none => f s
  | some (l, x) =>
    let now := zoneOf s z
    let s := f (onZone z (fun _ => zoneCarry now x) s)
    let y := zoneOf s z
    let s := onZone z (fun _ => zoneCarry y now) s
    { s with herder := { s.herder with leaving := Store.put s.herder.leaving z { l with state := some y } } }

/-- Serif lane `l`. -/
def laneOf (s : State) (l : Nat) : Lane := Store.read (fun _ => {}) s.serif.lanes l

/-- Update Serif lane `l`. -/
def onLane (l : Nat) (f : Lane → Lane) (s : State) : State :=
  { s with serif := { s.serif with lanes := Store.write (fun _ => {}) s.serif.lanes l (f (laneOf s l)) } }

/-- Pieces of a zone whose history restarts leave none, and those that wait begin with none (R228, R248, R267). -/
def forgetWhere (which : Piece → Bool) (s : State) : State :=
  let mark (d : Piece) : Piece := if which d then { d with forget := true } else d
  let clear (d : Piece) : Piece := if which d then { d with hist := d.hist.map fun _ => 0 } else d
  { s with serif := { s.serif with lanes := Store.update (fun _ => {}) (fun l : Lane => { l with
    piece := l.piece.map mark, next := l.next.map clear }) s.serif.lanes } }

/-- Pieces of a zone whose history restarts (R228, R248, R267). -/
def forgetPieces (z : Nat) (s : State) : State := forgetWhere (·.zone == z) s

/-- Apply `f` for each element of a list, in order. -/
def forEach {α : Type} (xs : List α) (f : α → State → State) (s : State) : State := xs.foldl (fun t x => f x t) s

/-- The four ports. -/
def allPorts : List Nat := [0, 1, 2, 3]

/-- The mode whose grids and plan the device runs: the releasing unit of a handover goes on under the mode it leaves (R485). -/
def flowMode (s : State) : Mode :=
  if s.mode.current == .handover && (s.pair.step == .stopping || s.pair.step == .finalSent || s.pair.step == .released) then s.pair.fromMode
  else s.mode.current

/-- Has RUN-like acquisition: ports may fire (R76). -/
def firingMode (m : Mode) : Bool := m == .run || m == .sentinel || m == .survey

end Sys2Proof.Machine
end

