-- ==== Sys2Proof/Machine/Flags.lean ====
section
/-! DEFINITION. The emission chain's terms and outputs (R31, R498, R499) and every status word of the spec's bit
tables, each computed from the state. -/

namespace Sys2Proof.Machine

/-- Mode codes (R76). -/
def modeCode (m : Mode) : Nat :=
  match m with
  | .reset => 0 | .boot => 1 | .config => 2 | .survey => 3 | .run => 4 | .sentinel => 5
  | .dormant => 6 | .mirror => 7 | .handover => 8 | .inhibit => 9 | .fault => 10 | .test => 11

/-- Mode of a code of R76. -/
def modeOfCode (n : Nat) : Option Mode :=
  ([.reset, .boot, .config, .survey, .run, .sentinel, .dormant, .mirror, .handover, .inhibit, .fault, .test] : List Mode)[n]?

/-- Junction maximum of the grade in 1/16 °C (R1, R3). -/
def gradeMax : Int := if Config.gradeIndustrial then 110 * 16 else 100 * 16

/-- The LED channel of the indicator (R507). -/
def indicatorLed (s : State) : Nat := paramNat s Pid.safetyIndicatorLed 0
/-- The LED channel of locator `p` (R507). -/
def locatorLed (s : State) (p : Nat) : Nat := paramNat s Pid.safetyLocatorLed p
/-- The profile in force is PORT (R507). -/
def profilePort (s : State) : Bool := paramBool s Pid.safetyProfile 0

/-- LED channel `j`. -/
def ledOf (s : State) (j : Nat) : Led := vecRead s.safety.leds j {}

/-- Lamp `j` counts as good: proven by three diagnoses after BOOT and without a declared fault (R508). -/
def lampGood (s : State) (j : Nat) : Bool := (ledOf s j).proven && (ledOf s j).fault == 0

/-- The lamp that port `p`'s emission depends on (R507). -/
def portLamp (s : State) (p : Nat) : Nat := if profilePort s then locatorLed s p else indicatorLed s

/-- IND term of port `p` (R498, R507, R508). -/
def indTerm (s : State) (p : Nat) : Bool :=
  if profilePort s then lampGood s (locatorLed s p) && !s.safety.locatorHold.getLsbD p else lampGood s (indicatorLed s)

/-- Every device-wide term true: KEY, LOOP, ESTOP and, under STRICT, IND (R501). -/
def devicePermit (s : State) : Bool :=
  s.safety.key && s.safety.loop && !s.safety.estop && (profilePort s || lampGood s (indicatorLed s))

/-- Terms of port `p` alone: APR, RAIL and HOST, with the port inhibited by light without a gate (R160, R498); VDDIO_33 below threshold
inhibits every port (R51). -/
def portPermit (s : State) (p : Nat) : Bool :=
  !s.safety.apr.getLsbD p && !s.safety.lwg.getLsbD p && !vecRead s.power.portOos p true && s.power.railStatus.getLsbD 9 &&
  hasBit (paramNat s Pid.safetyHostEnable 0) p

/-- Modes and tests in which every EMITp_EN and SWSELp is low whatever the chain permits (R31, R77, R459). -/
def heldLow (s : State) : Bool :=
  s.mode.current == .reset || s.mode.current == .boot || s.mode.current == .test || !s.power.coreOk || !s.power.aon ||
  s.links.jtagTest

/-- SWSELp (R499). -/
def swsel (s : State) (p : Nat) : Bool :=
  !heldLow s && s.safety.key && s.safety.loop && !s.safety.estop && s.pair.own && indTerm s p && portPermit s p

/-- EMITp_EN (R499). -/
def emitEn (s : State) (p : Nat) : Bool := swsel s p && s.safety.fire.getLsbD p && (ledOf s (portLamp s p)).litGood

/-- The emission chain permits a device-wide MODE_REQUEST for a firing mode (R501). [DESIGN CHOICE, notes/assumptions/57] -/
def chainPermits (s : State) : Bool := devicePermit s

/-- This unit holds ILK_N. -/
def leashHeld (s : State) : Bool := s.pair.own

/-- Is `pair.enable` in force (R464)? -/
def pairEnabled (s : State) : Bool := paramBool s Pid.pairEnable 0

/-- ROLE of PAIR_STATUS (R464, R496). -/
def pairRole (s : State) : Nat :=
  if !pairEnabled s then 0
  else if s.mode.current == .handover then
    (match s.pair.step with
     | .stopping => 4
     | .finalSent => 4
     | .released => 4
     | _ => 3)
  else if s.mode.current == .mirror then 1
  else if s.pair.own then 2
  else 0

/-- A DRAM port is online. -/
def dramOnline (s : State) (a : Nat) : Bool := (dramOf s a).state == .online

/-- The replay ring is available: `ring.enable` set and a DRAM port online (chapter 12). -/
def ringAvailable (s : State) : Bool := paramBool s Pid.ringEnable 0 && (dramOnline s 0 || dramOnline s 1)

/-- Zones that the bank of their port enables (R93). -/
def zoneEnabled (s : State) (z : Nat) : Bool := portCfg s (z / 256) Pid.zoneEnable z != 0

/-- Port enabled in the bank it runs on. -/
def portEnabled (s : State) (p : Nat) : Bool := portBool s p Pid.portEnable 0

/-- Port enabled and in service (R112). -/
def portOk (s : State) (p : Nat) : Bool := portEnabled s p && !vecRead s.power.portOos p true

/-- Bits of the four ports from a predicate. -/
def portBits (f : Nat → Bool) : Nat := bits (allPorts.map f)

/-- `id.straps` and STRAPS (R47). -/
def idStraps (s : State) : Nat :=
  bit s.straps.unitId + 2 * bit s.pins.unitIdNow + 4 * bit s.straps.bootRecover + 8 * bit s.straps.testEn +
  16 * s.straps.smbAsel.toNat

/-- `power.feed_status` (R73). -/
def feedStatus (s : State) : Nat :=
  bits [vecRead s.power.feedGood 0 false, vecRead s.power.feedGood 1 false, vecRead s.power.feedVolt 0 false,
    vecRead s.power.feedVolt 1 false, vecRead s.power.feedPin 0 false, vecRead s.power.feedPin 1 false]

/-- GRADE of `clk.status` (R65): 0 REF, 1 OX, 2 XO, 3 OX_COLD. -/
def clkGrade (s : State) : Nat :=
  match s.clocks.inUse with
  | .refin => 0
  | .ocxo => if s.clocks.ocxoWarm then 1 else 3
  | .xtal => 2

/-- Code of a reference source (R74). -/
def refCode (r : RefSource) : Nat :=
  match r with
  | .xtal => 0 | .refin => 1 | .ocxo => 2

/-- `clk.status` (R74). -/
def clkStatus (s : State) : Nat :=
  bits [s.clocks.refinPresent, s.clocks.ocxoPresent, s.clocks.ocxoWarm, s.clocks.switchTo.isSome] +
  16 * refCode s.clocks.inUse + 64 * clkGrade s

/-- PLL `i` (core, control, DRAM 0, DRAM 1, PCIe) is locked (R75): the DRAM and PCIe PLLs relock by themselves. -/
def pllLocked (s : State) (i : Nat) : Bool :=
  hasBit s.clocks.locked.toNat i ||
  (decide (2 ≤ i) && ((vecRead s.clocks.lossTicks i none).map fun t => decide (t + Config.relockTicks i t ≤ s.ticks)).getD false)

/-- `clk.pll_status` (R75). [DEDUCED, notes/assumptions/56; DEDUCED, notes/assumptions/131] -/
def pllStatus (s : State) : Nat := bits ((List.range 5).map (pllLocked s)) + 256 * s.clocks.lossSeen.toNat

/-- Which reference the core PLL takes (R62, R65): forced while present, else the first present one of AUTO's order. -/
def chosenRef (s : State) : RefSource :=
  let auto : RefSource :=
    if s.clocks.refinPresent then .refin
    else if s.clocks.ocxoPresent && s.clocks.ocxoWarm then .ocxo
    else .xtal
  match paramNat s Pid.clkRefSelect 0 with
  | 0 => auto
  | 1 => if s.clocks.refinPresent then .refin else .xtal
  | 2 => if s.clocks.ocxoPresent then .ocxo else .xtal
  | _ => .xtal

/-- CLOCK_OK of HEALTH: core PLL locked and GRADE REF or OX (R112). [DEDUCED, notes/assumptions/56] -/
def clockOk (s : State) : Bool := s.clocks.locked.getLsbD 0 && decide (clkGrade s ≤ 1)

/-- HEALTH (R112). -/
def healthWord (s : State) : Nat :=
  let zs := s.herder.zones.map (·.2)
  bits [clockOk s, vecRead s.power.feedGood 0 false && vecRead s.power.feedGood 1 false, dramOnline s 0, dramOnline s 1,
    portOk s 0, portOk s 1, portOk s 2, portOk s 3, s.pair.linkUp && !s.pair.linkLost && s.pair.peer.isSome, leashHeld s,
    !(zs.any fun z => z.degraded || z.suspended), lampGood s (indicatorLed s),
    decide (gradeMax - 160 ≤ s.calib.temp), ringAvailable s]

/-- HOST_STATUS as page transport `t` reads it (R109); none is the SMBus view (R454). -/
def hostStatus (s : State) (t : Option Nat) : Nat :=
  let own (f : Nat → Bool) : Bool := (t.map f).getD false
  bits [s.scribe.heartbeat,
    (dramOf s 0).state == .offline || (dramOf s 1).state == .offline,
    (s.herder.zones.map (·.2)).any (·.degraded), s.time.holdover && s.mode.current != .reset, s.banks.trial, leashHeld s,
    allPorts.any (emitEn s), s.safety.estop, own fun t => (pageOf s t).reqFree, own fun t => (pageOf s t).rspValid,
    s.evq.head != s.evq.tail, own fun t => (transportOf s t).throttled, s.scribe.ready, s.scribe.restarting,
    s.mode.bootNoImage, own fun t => (pageOf s t).torn] +
  2 ^ 16 * s.mode.faultCode + 2 ^ 24 * modeCode s.mode.current

/-- CAPS (R108). -/
def capsWord (s : State) : Nat :=
  bits [paramBool s Pid.hostOxrasUdpEnable 0, paramBool s Pid.hostSpiEnable 0, pairEnabled s, ringAvailable s, s.straps.testEn]

/-- LINK_STATUS (R108). -/
def linkStatus (s : State) : Nat :=
  (if s.links.pcieUp then s.links.pcieGen.toNat + 16 * s.links.pcieWidth.toNat else 0) +
  256 * bits [(ethOf s 0).linkUp, (ethOf s 1).linkUp, (ethOf s 0).linkUp && !(ethOf s 0).rate1g,
    (ethOf s 1).linkUp && !(ethOf s 1).rate1g, s.pair.linkUp]

/-- PULL_OK (R490): the card holds no leash, attempts none and has no command running. [DEDUCED, notes/assumptions/88] -/
def pullOkNow (s : State) : Bool := !s.pair.own && !s.pair.taking && !s.journal.entries.any fun e => e.state == .running

/-- PAIR_STATUS (R496). -/
def pairStatus (s : State) : Nat :=
  bits [pairEnabled s, s.straps.unitId] + 4 * pairRole s +
  32 * bits [s.pair.own, s.pair.ilkHeld && !s.pair.own, s.pair.peerPresent, s.pair.linkUp, s.pair.linkLost, s.pair.hbSilent,
    s.pair.peerFailed, s.pair.ready, (s.pair.peer.map fun b => b.flags.getLsbD 2).getD false, pullOkNow s, s.pair.idConflict] +
  2 ^ 24 * s.pair.copyAge.toNat

/-- SAFETY_STATUS (R518). -/
def safetyStatus (s : State) : Nat :=
  paramNat s Pid.safetyHostEnable 0 + 16 * bits [devicePermit s, s.safety.key, s.safety.loop, s.pair.own, s.safety.estop,
    allPorts.any (swsel s), !lampGood s (indicatorLed s), profilePort s] +
  2 ^ 12 * portBits (emitEn s) + 2 ^ 16 * portBits (swsel s) + 2 ^ 20 * (s.safety.apr ||| s.safety.lwg).toNat +
  2 ^ 24 * portBits (fun p => (ledOf s (locatorLed s p)).fault != 0) + 2 ^ 28 * s.safety.lwg.toNat

/-- DMA_STATUS (R441). -/
def dmaStatus (s : State) : Nat :=
  let qs := List.range 8
  bits (qs.map fun q => (queueOf s q).running) + 256 * bits (qs.map fun q => (queueOf s q).starved) +
  65536 * bits (qs.map fun q => (queueOf s q).error)

/-- DMA_ENABLE (R440). [DEDUCED, notes/assumptions/20] -/
def dmaEnable (s : State) : Nat := bits ((List.range 8).map fun q => (queueOf s q).enabled)

/-- Number of slots port `p` runs with: 1 in a survey (R175) and for the sentinel port in SENTINEL (R81). -/
def portSlots (s : State) (p : Nat) : Nat :=
  if flowMode s == .survey || (flowMode s == .sentinel && paramNat s Pid.modeSentinelPort 0 == p) then 1 else portNat s p Pid.portSlots 0

/-- `port[p].stroke_status` (R211). -/
def strokeStatus (s : State) (p : Nat) : Nat :=
  let x := portOf s p
  bits [x.awake && x.gridRunning, decide (1 < portSlots s p), x.rebased, x.lostSeen, x.satSeen]


/-- `rtd[k].status` (R303). -/
def rtdStatus (s : State) (k : Nat) : Nat :=
  let x := vecRead s.rtd k {}
  bits [x.running, x.valid, x.calRejected, x.faultSeen] + 16 * x.last

/-- Port of a zone (R12: 256 zones per port). -/
def zonePort (z : Nat) : Nat := z / 256

/-- Is zone `z` processed in the present mode (R240)? -/
def zoneServed (s : State) (z : Nat) : Bool :=
  zoneEnabled s z && portEnabled s (zonePort z) && (flowMode s == .run || flowMode s == .sentinel) &&
  !(zoneOf s z).suspended && !(zoneOf s z).idle

/-- THERMAL slices of port `p` are reading the hand-off buffer (R302): some of a completed trace are dispatched and not done, or
still to dispatch. [DEDUCED, notes/assumptions/112; DEDUCED, notes/assumptions/144] -/
def handoffBusy (s : State) (p : Nat) : Bool :=
  (s.herder.zones.any fun e => zonePort e.1 == p && e.2.thermalNext.isSome && zoneServed s e.1) ||
  s.herder.work.any fun w => zonePort w.zone == p && portCfg s p Pid.zoneRecipe w.zone == 5

/-- `raman[p].status` (R302). -/
def ramanStatus (s : State) (p : Nat) : Nat :=
  let x := ramanOf s p
  bits [x.running, handoffBusy s p, x.maskSeen, x.paused, x.refOld, x.darkStaleSeen]

/-- `zone[z].status` (R240). -/
def zoneStatus (s : State) (z : Nat) : Nat :=
  let x := zoneOf s z
  bits [zoneServed s z, x.degraded, x.paged, x.suspended, x.idle, x.missSeen, x.historyLost]

/-- `serif.status` (R271). -/
def serifStatus (s : State) : Nat := s.serif.status.toNat

/-- `ptr.status` (R331). -/
def ptrStatus (s : State) : Nat :=
  bits [s.pointer.masterArmed, s.pointer.armLow, s.pointer.fireOut, s.pointer.openLimitSeen, s.pointer.overwriteSeen,
    s.pointer.areaSram]

/-- Code of an arm state (R332). -/
def armCode (a : ArmState) : Nat :=
  match a with
  | .idle => 0 | .armed => 1 | .rearm => 2

/-- `seq[s].status` (R332). -/
def seqStatus (s : State) (q : Nat) : Nat :=
  let x := seqOf s q
  armCode x.arm + 4 * bits [x.disarmedByCommit, x.recording,
    (x.window.map fun w => decide (x.lastStep < w.2)).getD false, (vecRead x.timers 0 none).isSome,
    (vecRead x.timers 1 none).isSome, x.missedSeen]

/-- Running replay jobs. -/
def jobsRunning (s : State) : List (Nat × ReplayJob) := s.inkstone.jobs.filter fun j => j.2.state == 1

/-- The ring is written: available, in a mode with acquisition that fills it (R363). -/
def ringActive (s : State) : Bool := ringAvailable s && (flowMode s == .run || flowMode s == .sentinel)

/-- `ink.status` (R363). -/
def inkStatus (s : State) : Nat :=
  bits [s.inkstone.selfcheckSeen, s.inkstone.decodeErrSeen, ringActive s, !(jobsRunning s).isEmpty,
    decide (4 ≤ (jobsRunning s).length), s.inkstone.wrapped]

/-- Code of a DRAM state (R394). -/
def dramCode (d : DramState) : Nat :=
  match d with
  | .unfitted => 0 | .training => 1 | .online => 2 | .offline => 3

/-- `mem.port[a].status` (R394). -/
def memStatus (s : State) (a : Nat) : Nat :=
  let x := dramOf s a
  bits [x.byteMode, x.rank1] + 4 * dramCode x.state +
  16 * bits [x.trainedKept, x.retraining, x.pasr, x.retireFull, x.ueSeen, x.hammerSeen]

/-- `time.status` (R424). -/
def timeStatus (s : State) : Nat :=
  bits [s.time.select == 1, (domainOf s 0).locked, (domainOf s 1).locked] + 8 * s.time.holdCause +
  32 * bits [s.time.holdover, s.time.slewing, s.time.syncEngaged, s.time.syncLocked, s.time.syncStuck, s.time.stepped]

/-- `time.dom[d].status` (R425). -/
def domainStatus (s : State) (d : Nat) : Nat :=
  let x := domainOf s d
  bits [x.locked, !x.syncTimeout, x.twoStep, x.masterChanged, x.syncTimeout, x.servoTimeout]

/-- `tdc.status` (R426). -/
def tdcStatus (s : State) : Nat :=
  let x := s.time.tdc
  bits [x.running, x.done, x.valid, x.aborted, x.close, x.order, x.ovf] + 128 * x.tb.toNat

/-- `host.eth[n].status` (R462). -/
def ethStatus (s : State) (n : Nat) : Nat :=
  let x := ethOf s n
  bits [paramBool s Pid.hostEthEnable n && s.power.railStatus.getLsbD 10, x.linkUp, x.rate1g, x.anComplete, x.lowRateForced,
    x.rxErrSeen]

/-- Is LED channel `j` enabled (R517)? -/
def ledEnabled (s : State) (j : Nat) : Bool := paramBool s Pid.ledEnable j

/-- `led[j].status` (R520). -/
def ledStatus (s : State) (j : Nat) : Nat :=
  let x := ledOf s j
  bits [ledEnabled s j, x.lit, x.cfbLimit] + 8 * x.fault.toNat + 32 * bits [x.faultSeen, x.stretch]

/-- Debounced level of LKEY or LOOP_OK (R515): a fall counts once it has held for `panel.debounce_ms`. -/
def stillHigh (s : State) (stable now : Bool) (off : Option Nat) : Bool :=
  stable && (now || (off.map fun t => decide (s.ticks < t + msTicks (paramNat s Pid.panelDebounceMs 0))).getD false)

/-- `panel.input_status` (R521). -/
def panelStatus (s : State) : Nat :=
  bits [s.safety.service, s.safety.locate] + 4 * s.safety.plugClosed.toNat +
  64 * bits [stillHigh s s.safety.lkeyStable s.safety.key s.safety.keyOffTick,
    stillHigh s s.safety.loopStable s.safety.loop s.safety.loopOffTick, s.safety.serviceStuck, s.safety.locateStuck]

/-- `cal.status` (R548). -/
def calStatus (s : State) : Nat :=
  s.calib.watch.toNat + 32 * bits [s.calib.factoryTrim != 0, s.calib.trimming != 0,
    s.calib.items.any (fun i => i.1 / 256 == 5 && i.2.running),
    s.calib.rejectSeen]

/-- `integ.status` (R549). -/
def integStatus (s : State) : Nat :=
  bits [s.calib.xresync, s.calib.xovf, s.calib.tornSeen] + 16 * s.calib.lastXid.toNat + 256 * s.calib.lastXidHi.toNat

/-- Bytes the ring's pages hold. -/
def ringFill (s : State) : Nat := (s.inkstone.pages.map (·.used)).sum

/-- Points and bits coded into the ring over the last 10 s. [DESIGN CHOICE, notes/assumptions/115] -/
def codedRate (s : State) : Nat × Nat :=
  let live := s.inkstone.coded.filter fun c => decide (s.ticks < c.1 + secTicks 10)
  ((live.map (·.2.1)).sum, (live.map (·.2.2)).sum)

/-- `ring.span_ms`: the span of the pages held, from the ring's fill and its coded rate over the last 10 s (R27), or over the
time since the ring restarted where that is shorter. A filled ring into which nothing was coded has no rate: its span is open. [DESIGN CHOICE, notes/assumptions/115] -/
def ringSpanMs (s : State) : Nat :=
  if !ringAvailable s || ringFill s = 0 then 0
  else if (codedRate s).2 = 0 then Config.idleSpan (ringFill s)
  else ringFill s * 8 * min (secTicks 10) (s.ticks - s.inkstone.ringStart) / (codedRate s).2 / msTicks 1

/-- `ink.ring_bits_per_point`: mean coded bits per point of both components, in 1/100 bit (R362). -/
def ringBitsPerPoint (s : State) : Nat := if (codedRate s).1 = 0 then 0 else (codedRate s).2 * 100 / (codedRate s).1

/-- Remaining confirm time in seconds, 0 when CONFIRMED (R101). -/
def confirmRemaining (s : State) : Nat :=
  if s.banks.trial then s.banks.confirmTimeout - (s.ticks - s.banks.commitTick) / secTicks 1 else 0

/-- CFG_STATE (R108). -/
def cfgState (s : State) : Nat := bit s.banks.trial + 65536 * confirmRemaining s

/-- Modes in which COMMIT and REVERT are accepted (R93). -/
def commitMode (s : State) : Bool :=
  [Mode.config, .run, .sentinel, .dormant, .inhibit, .fault].contains s.mode.current

end Sys2Proof.Machine
end

