-- ==== Sys2Proof/Machine/DramMap.lean ====
section
/-! DEFINITION. Where a page's bytes lie (R369, R371, R372, R386, R387): frame and offset to channel and data address, data address to
sector, bank, row, rank and column, the way back, and the ports and frames of a region's pages. -/

namespace Sys2Proof.Machine

/-- Grain g of the channel interleave (R371), as latched at BOOT. -/
def dramGrain (s : State) : Nat := max 1 (paramNat s Pid.memGrainBytes 0)

/-- Channel and channel-local data address of byte `o` of frame `f` (R371). -/
def channelOf (g f o : Nat) : Nat × Nat :=
  let pair := f % 2 * 65536 + o
  let chunk := pair / g
  (chunk % 2, f / 2 * 65536 + chunk / 2 * g + pair % g)

/-- Frame and offset of a channel-local data address (R371, read backwards). -/
def frameOf (g chan l : Nat) : Nat × Nat :=
  let half := l % 65536
  let pair := (2 * (half / g) + chan) * g + half % g
  (2 * (l / 65536) + pair / 65536, pair % 65536)

/-- A device location (R372): the column is the byte in the row. -/
structure DeviceByte where
  rank : Nat
  bank : Nat
  row : Nat
  col : Nat
  deriving DecidableEq, Repr

/-- Exclusive or of two bank numbers (R372). -/
def bankXor (a b : Nat) : Nat := (BitVec.ofNat 3 a ^^^ BitVec.ofNat 3 b).toNat

/-- Device location of a channel-local data address (R372). -/
def deviceOf (rowsPerBank l : Nat) : DeviceByte :=
  let r := l / 64 / 30
  { rank := r / 8 / rowsPerBank, bank := bankXor (r % 8) (r / 8 % 8), row := r / 8 % rowsPerBank, col := l / 64 % 30 * 64 + l % 64 }

/-- Row byte of the check word of the sector that holds column `col` (R369, R372). -/
def checkColumn (col : Nat) : Nat := 1920 + 4 * (col / 64)

/-- Channel-local data address of a sector of a device row (R372, read backwards). -/
def addressOf (rowsPerBank rank bank row sector : Nat) : Nat :=
  let q := rank * rowsPerBank + row
  ((q * 8 + bankXor bank (q % 8)) * 30 + sector) * 64

/-- Rows in each bank of a rank of a channel (R372): the rank's capacity divided by 16 KiB. -/
def rowsPerBank (d : DramPort) : Nat := d.capacityMib / 2 / (if d.rank1 then 2 else 1) * 64

/-- Page of port `a` that holds a sector of a device row, and the sector's offset in it (R370, R371, R372). [DESIGN CHOICE, notes/assumptions/109] -/
def sectorHome (s : State) (a : Nat) (l : DramRow) (sector : Nat) : Nat × Nat :=
  frameOf (dramGrain s) l.channel (addressOf (max 1 (rowsPerBank (dramOf s a))) l.rank l.bank l.row sector)

/-- Page of port `a` that holds a sector of a device row (R370). [DESIGN CHOICE, notes/assumptions/109] -/
def sectorPage (s : State) (a : Nat) (l : DramRow) (sector : Nat) : Nat := (sectorHome s a l sector).1

/-- Ports that are online. -/
def onlinePorts (s : State) : List Nat := [0, 1].filter (dramOnline s)

/-- First frame of region `y` on every online port (R386, R387). [DESIGN CHOICE, notes/assumptions/109] -/
def regionBase (s : State) (y : Nat) : Nat :=
  ((List.range y).map fun i => ceilDiv (vecRead s.memory.regions i 0) (max 1 (onlinePorts s).length)).sum

/-- Port and frame of page `n` of region `y` (R371, R386, R387): consecutive pages alternate between the ports, and the regions follow
one another from the lowest frame, Scribe bulk and the records first. [DESIGN CHOICE, notes/assumptions/109] -/
def pageHome (s : State) (y n : Nat) : Option (Nat × Nat) :=
  let ports := onlinePorts s
  if n < vecRead s.memory.regions y 0 then
    (ports[n % max 1 ports.length]?).map fun a => (a, regionBase s y + n / max 1 ports.length)
  else none

/-- Region whose frames of port `a` hold frame `f` (R386, R387). [DESIGN CHOICE, notes/assumptions/109] -/
def frameRegion (s : State) (f : Nat) : Option Nat :=
  (List.range 5).find? fun y => decide (regionBase s y ≤ f ∧ f < regionBase s (y + 1))

/-- Ring page that holds frame `f` of port `a`: ring pages take the region's pages in turn (R348). [DESIGN CHOICE, notes/assumptions/109] -/
def ringPageAt (s : State) (a f : Nat) : Option RingPage :=
  s.inkstone.pages.find? fun g => pageHome s 2 (g.seq % max 1 (vecRead s.memory.regions 2 0)) == some (a, f)

/-- Event record whose header lies at offset `o` of frame `f`: 1,024 headers of 512 bytes in the region's first eight frames of each
port (R386). [DESIGN CHOICE, notes/assumptions/109] -/
def headerSlot (s : State) (f o : Nat) : Option Nat :=
  if regionBase s 1 ≤ f ∧ f < regionBase s 1 + 8 then some ((f - regionBase s 1) * 128 + o / 512) else none

/-- Has an event record a good copy of its header (R370)? -/
def headerReadable (s : State) (r : EventRecord) : Bool :=
  s.pointer.areaSram || (onlinePorts s).any fun a => !r.headerBad.contains a

/-- Data sector that the patrol scrub reads now on port `d` (R392): every sector once in 24 h. [DESIGN CHOICE, notes/assumptions/149] -/
def scrubSector (d : DramPort) : Nat := d.scrub * (d.capacityMib * 15360) / secTicks 86400

end Sys2Proof.Machine
end

