-- ==== Sys2Proof/Machine/Events.lean ====
section
/-! DEFINITION. Posting an event: its severity (R569), the event queue (R138, R139), subscribers (R140), the flash
event log with its budget (R542 to R544), and the command journal (R142 to R144). -/

namespace Sys2Proof.Machine

/-- Codes of severity 0, information (R569). -/
def infoCodes : List Nat :=
  [0x0203, 0x0210, 0x0221, 0x0222, 0x0505, 0x0601, 0x1005, 0x1006, 0x1401, 0x1802, 0x2005, 0x2401, 0x2402, 0x2403,
   0x2C02, 0x2C05, 0x3002, 0x3004, 0x3005, 0x300A, 0x300B, 0x3403, 0x3405, 0x3407, 0x340A, 0x3802, 0x3C01]

/-- Codes of severity 2, error (R569). -/
def errorCodes : List Nat :=
  [0x0201, 0x0204, 0x0223, 0x0303, 0x0404, 0x1001, 0x1002, 0x1501, 0x1803, 0x1804, 0x2002, 0x2006, 0x2801, 0x2802,
   0x2C04, 0x2C07, 0x3003, 0x3008, 0x3009, 0x3406]

/-- Codes of severity 3, fault (R569). -/
def faultCodes : List Nat := [0x0211, 0x2C01]

/-- Severity of an event code (R569): every code not listed above is a warning. -/
def severity (code : Nat) : Nat :=
  if infoCodes.contains code then 0 else if errorCodes.contains code then 2 else if faultCodes.contains code then 3 else 1

/-- The 32-byte entry of an event (R138). -/
def entryBytes (e : EventEntry) : List Byte :=
  leBytes 2 e.code ++ leBytes 2 e.seq ++ leBytes 1 e.severity ++ leBytes 3 0 ++ leBytes 6 e.time.sec ++
  leBytes 4 e.time.ns ++ leBytes 2 0 ++ leBytes 4 e.arg0.toNat ++ leBytes 4 e.arg1.toNat ++ leBytes 4 e.arg2.toNat

/-- A message: header of R115 with its CRC, then the payload. -/
def message (version opcode tag seq flags : Nat) (payload : List Byte) : List Byte :=
  let head := leBytes 1 (version / 256) ++ leBytes 1 version ++ leBytes 2 opcode ++ leBytes 2 tag ++ leBytes 2 seq ++
    leBytes 2 payload.length ++ leBytes 2 flags
  head ++ leBytes 4 (crc32c (head ++ leBytes 4 0 ++ payload)).toNat ++ payload

/-- Log budget units of one entry: `rate` entries per hour of ticks (R544). -/
def hourTicks : Nat := secTicks 3600

/-- Let the log budget accumulate up to 256 entries (R544). [DEDUCED, notes/assumptions/104] -/
def logAccrue (s : State) : State :=
  let rate := paramNat s Pid.logFlashRatePerH 0
  let gained := (s.ticks - s.log.budgetTick) * rate / hourTicks
  let budget := min 256 (s.log.budget + gained)
  { s with log := { s.log with budget := budget, budgetTick := if budget = 256 then s.ticks else s.log.budgetTick + gained * hourTicks / rate } }

/-- Entry slots of a sector of the flash event log, its sectors, and those that hold entries while two are kept erased (R542). -/
def logSlots : Nat := 2046
/-- Sectors of the flash event log (R542). -/
def logSectors : Nat := 128
/-- Entries the flash event log holds (R542). -/
def logCapacity : Nat := (logSectors - 2) * logSlots

/-- Entries held once entry `n` is written (R542): its sector up to it and the 125 sectors before; older sectors are erased whole. -/
def logHeld (n : Nat) : Nat := (logSectors - 3) * logSlots + (n - 1) % logSlots + 1

/-- Highest erase count of a sector while entry `n` is the newest (R542): the two sectors after its own are erased, each once per pass. -/
def logErases (n : Nat) : Nat := ((n - 1) / logSlots + 2) / logSectors

/-- Console line of a log entry at or above `host.console_level` (R457): OFF, FAULT, ERROR, WARNING, INFO. -/
def consoleSends (level sev : Nat) : Bool := decide (4 ≤ level + sev) && level != 0

/-- Program one entry into the log with the next entry number (R542, R543). [DEDUCED, notes/assumptions/104; DEDUCED, notes/assumptions/150] -/
def logWrite (e : LogEntry) (s : State) : State :=
  let n := (s.log.newest + 1) % 2 ^ 32
  let e := { e with number := n }
  let s := { s with log := { s.log with newest := n, entries := (e :: s.log.entries).take (logHeld n), maxErases := max s.log.maxErases (logErases n) } }
  if consoleSends (paramNat s Pid.hostConsoleLevel 0) e.entry.severity then
    { s with links := { s.links with console := s.links.console ++ [e.entry] } } else s

/-- Program one waiting entry under the budget of R544: severity 3 always, others while budget lasts; the first entry
after suppression is LOG_SUPPRESSED. [DEDUCED, notes/assumptions/104] -/
def logBudgeted (e : LogEntry) (s : State) : State :=
  if e.entry.severity = 3 then logWrite e s
  else if s.log.budget = 0 then
    bump Pid.logSuppressed 0 { s with log := { s.log with
      suppressedCode := if s.log.suppressedNow = 0 then e.entry.code else s.log.suppressedCode,
      suppressedNow := s.log.suppressedNow + 1 } }
  else if s.log.suppressedNow = 0 then logWrite e { s with log := { s.log with budget := s.log.budget - 1 } }
  else
    let note : LogEntry := { number := 0, entry :=
      ⟨0x3C05, s.evq.seq.toNat, 1, e.entry.time, BitVec.ofNat 32 s.log.suppressedNow, BitVec.ofNat 32 s.log.suppressedCode, 0⟩ }
    let s := logWrite note { s with log := { s.log with budget := s.log.budget - 1, suppressedNow := 0 } }
    if s.log.budget = 0 then
      bump Pid.logSuppressed 0 { s with log := { s.log with suppressedCode := e.entry.code, suppressedNow := 1 } }
    else logWrite e { s with log := { s.log with budget := s.log.budget - 1 } }

/-- Program every waiting entry (R543). [DEDUCED, notes/assumptions/104; DEDUCED, notes/assumptions/150] -/
def logFlush (s : State) : State :=
  let s := logAccrue s
  forEach s.log.waiting logBudgeted { s with log := { s.log with waiting := [] } }

/-- Post an entry to the log: severity 3 is programmed at once, others wait for LOG_PROGRAM (R543); logs pause in a Scribe restart (R90). [DEDUCED, notes/assumptions/104] -/
def logPost (e : LogEntry) (s : State) : State :=
  let s := { s with log := { s.log with waiting := s.log.waiting ++ [e] } }
  if e.entry.severity = 3 && !s.scribe.restarting then logFlush s else s

/-- Queue a frame on the Segor link, in priority order of its kind: 0 BARK, 1 COPY_ACK, 2 MAILBOX, 3 HEALTH, 4 COPY (R468). -/
def segorSend (kind : Nat) (m : List Byte) (s : State) : State :=
  if s.pair.linkUp then { s with pair := { s.pair with tx := s.pair.tx ++ [(kind, m)] } } else s

/-- Destinations of an EVENT message: queue it on the transport's carrier (R140, R448, R468). -/
def sendCarrier (t : Nat) (dest ethPort : Nat) (m : List Byte) (s : State) : State :=
  match t with
  | 2 => onEth ethPort (fun e => { e with txOxras := e.txOxras ++ [(dest, m)] }) s
  | 3 => segorSend 2 m s
  | _ => s

/-- Send an event to one transport's subscriber (R140). [DEDUCED, notes/assumptions/62] -/
def eventSend (e : EventEntry) (t : Nat) (s : State) : State :=
  match (transportOf s t).session with
  | some ss =>
    if ss.subscribed then
      let m := message ss.version 0x0008 0 ss.eventSeq 0x0040 (entryBytes e)
      sendCarrier t ss.source ss.ethPort m
        (onTransport t (fun x => { x with session := some { ss with eventSeq := (ss.eventSeq + 1) % 65536 }, lastEvent := m }) s)
    else s
  | none => s

/-- Write an entry at EVQ_HEAD, or drop and count it when the queue is full (R139). -/
def evqWrite (e : EventEntry) (s : State) : State :=
  if (s.evq.head + 1) % 128 = s.evq.tail then
    bump Pid.hostEvqLost 0 { s with evq := { s.evq with dropped := s.evq.dropped + 1 } }
  else
    irqBoth 1 { s with evq := { s.evq with slots := Store.put s.evq.slots s.evq.head e, head := (s.evq.head + 1) % 128 } }

/-- Post an event (R138 to R140): queue, flash log, subscribers. Arguments are taken modulo 2^32. -/
def post (code : Nat) (a0 a1 a2 : Int) (s : State) : State :=
  let seq := s.evq.seq + 1
  let e : EventEntry := ⟨code, seq.toNat, severity code, nowNet s, BitVec.ofInt 32 a0, BitVec.ofInt 32 a1, BitVec.ofInt 32 a2⟩
  let s := evqWrite e { s with evq := { s.evq with seq := seq } }
  let s := logPost { number := 0, entry := e } s
  forEach allPorts (eventSend e) s

/-- Events that are written to the log only carry the sequence of the last posted event (R138). [DEDUCED, notes/assumptions/104] -/
def logOnly (code : Nat) (a0 a1 a2 : Int) (data : List Byte) (s : State) : State :=
  logPost { number := 0, data := data, entry :=
    ⟨code, s.evq.seq.toNat, severity code, nowNet s, BitVec.ofInt 32 a0, BitVec.ofInt 32 a1, BitVec.ofInt 32 a2⟩ } s

/-- Entries the journal holds (R142). -/
def journalCapacity : Nat := 4096

/-- Open a journal entry in state NOT_STARTED (R142, R143). -/
def journalOpen (r : Request) (total : Nat) (s : State) : State :=
  let n := (s.journal.newest + 1) % 2 ^ 32
  let e : JournalEntry := {
    ident := n, tag := r.tag, transport := r.transport, state := .notStarted, opcode := r.opcode,
    seq := r.seq, total := total, done := 0, flashDone := 0, status := 0, detail := 0, accepted := nowNet s, ended := {},
    epoch := s.banks.active.epoch, summary := 0 }
  { s with journal := { newest := n, entries := (e :: s.journal.entries).take journalCapacity } }

/-- Update the entry with identifier `n`. -/
def onJournal (n : Nat) (f : JournalEntry → JournalEntry) (s : State) : State :=
  { s with journal := { s.journal with entries := s.journal.entries.map fun e => if e.ident = n then f e else e } }

/-- The entry with identifier `n`. -/
def journalOf (s : State) (n : Nat) : Option JournalEntry := s.journal.entries.find? fun e => e.ident == n

/-- Is this number of done steps written to flash (R142)? [DEDUCED, notes/assumptions/135] -/
def stepWritten (total done : Nat) : Bool :=
  decide (total ≤ 64) || decide (done = total) || decide (done * 64 / total ≠ (done - 1) * 64 / total)

/-- The first step moves an entry to RUNNING (R144). -/
def journalStart (n : Nat) (s : State) : State :=
  onJournal n (fun e => if e.state = .notStarted then { e with state := .running } else e) s

/-- One more step done (R142, R144). [DEDUCED, notes/assumptions/135] -/
def journalStep (n : Nat) (s : State) : State :=
  onJournal n (fun e =>
    let d := e.done + 1
    { e with state := if e.state = .notStarted then .running else e.state, done := d,
             flashDone := if stepWritten e.total d then d else e.flashDone }) s

/-- Code of a journal state (R143). -/
def jstateCode (j : JState) : Nat :=
  match j with
  | .notStarted => 0
  | .running => 1
  | .done => 2
  | .part => 3
  | .rolledBack => 4

/-- Is a journal entry still open? -/
def jstateOpen (j : JState) : Bool := j == .notStarted || j == .running

/-- Give an open entry its final state, status and detail, and post JOURNAL_DONE (R144, R141). [DEDUCED, notes/assumptions/135] -/
def journalEnd (n : Nat) (j : JState) (status detail : Nat) (s : State) : State :=
  match journalOf s n with
  | some e =>
    if jstateOpen e.state then
      post 0x3C01 n (jstateCode j * 65536 + e.tag) (status * 2 ^ 24 + detail)
        (onJournal n (fun e => { e with
          state := j, status := status, detail := detail, ended := nowNet s, flashDone := e.done }) s)
    else s
  | none => s

/-- The 64 bytes of a journal entry with the live count of steps done (R143). -/
def journalBytes (e : JournalEntry) : List Byte :=
  let b := leBytes 4 e.ident ++ leBytes 2 e.tag ++ leBytes 1 e.transport ++ leBytes 1 (jstateCode e.state) ++
    leBytes 2 e.opcode ++ leBytes 2 e.seq ++ leBytes 4 e.total ++ leBytes 4 e.done ++ leBytes 1 e.status ++ leBytes 1 0 ++
    leBytes 2 e.detail ++ leBytes 6 e.accepted.sec ++ leBytes 4 e.accepted.ns ++ leBytes 6 e.ended.sec ++
    leBytes 4 e.ended.ns ++ leBytes 4 e.epoch ++ leBytes 12 e.summary
  b ++ leBytes 4 (crc32c b).toNat

end Sys2Proof.Machine
end

