-- ==== Sys2Proof/Machine/CalOps.lean ====
section
/-! DEFINITION. Calibration items (R523 to R528): their sets, and the rejection of a result. -/

namespace Sys2Proof.Machine

/-- Update calibration. -/
def onCal (f : Calib → Calib) (s : State) : State := { s with calib := f s.calib }

/-- An item of calibration by code and index. -/
def calItem (s : State) (item index : Nat) : CalItem := Store.read (fun _ => {}) s.calib.items (item * 256 + index)

/-- Update an item. -/
def onItem (item index : Nat) (f : CalItem → CalItem) (s : State) : State :=
  onCal (fun c => { c with items := Store.write (fun _ => {}) c.items (item * 256 + index) (f (calItem s item index)) }) s

/-- Reject a result (R528): the fields in force stay, and CAL_REJECT names the first failing field and its value. [DEDUCED, notes/assumptions/98] -/
def calReject (item index field : Nat) (value : Int) (s : State) : State :=
  let s := onItem item index (fun x => { x with rejectedTime := nowNet s, rejectedValue := value, rejectedField := field }) s
  post 0x3801 (item * 256 + index : Nat) field value (bump Pid.calRejects 0 (onCal (fun c => { c with rejectSeen := true }) s))

/-- Accept a set of fields that applies at once (R525, R526): the set in force becomes the previous one. [DEDUCED, notes/assumptions/98] -/
def calAccept (item index : Nat) (fields : List Int) (s : State) : State :=
  onItem item index (fun x => { x with previous := x.inForce, inForce := fields, accepted := true, acceptedTime := nowNet s }) s

/-- Accept a set of fields that applies at the next round start (R525). [DEDUCED, notes/assumptions/98] -/
def calNext (item index : Nat) (fields : List Int) (s : State) : State :=
  onItem item index (fun x => { x with next := some fields, acceptedTime := nowNet s }) s

/-- The set that waits for a round start, if any, comes into force (R525, R526). [DEDUCED, notes/assumptions/98] -/
def calApply (item index : Nat) (s : State) : State :=
  match (calItem s item index).next with
  | some f => onItem item index (fun x => { x with previous := x.inForce, inForce := f, accepted := true, next := none }) s
  | none => s

/-- What the device records keep of an item (R526): the newest set that passed, and the one before it. [DEDUCED, notes/assumptions/98] -/
def calKept (i : CalItem) : CalItem :=
  match i.next with
  | some f => { inForce := f, previous := i.inForce, accepted := true, acceptedTime := i.acceptedTime }
  | none => { inForce := i.inForce, previous := i.previous, accepted := i.accepted, acceptedTime := i.acceptedTime }

/-- CAL_DONE (R550): journal 0 for an automatic run. [DEDUCED, notes/assumptions/98] -/
def calDone (item index journal : Nat) (s : State) : State := post 0x3802 (item * 256 + index : Nat) journal 0 s

/-- A watch check of R534: bit 0 OFFSET, 1 REFERENCE, 2 REXT, 3 IN_FORCE. -/
def watchFailing (s : State) (i : Nat) : Bool := s.calib.watch.getLsbD i

/-- A crossing re-baselines (R537): its generation advances and XRESYNC is posted. -/
def xresync (x : Nat) (s : State) : State :=
  let g := vecRead s.calib.generations x 0
  post 0x3C03 x g.toNat (g + 1).toNat (bump Pid.integXresyncCount 0 (onCal (fun c => { c with
    xresync := true, lastXid := BitVec.ofNat 4 x, generations := vecUpdate c.generations x fun _ => g + 1 }) s))

end Sys2Proof.Machine
end

