-- ==== Sys2Proof/Machine/Queues.lean ====
section
/-! DEFINITION. Output queues: staging and drops (R432 to R435), descriptor rings (R436 to R442), completion interrupts
(R443, R444), delivery over Ethernet (R449 to R451), and the rows of the queues. -/

namespace Sys2Proof.Machine

/-- Staging of one queue in bytes (R433). -/
def stagingBytes : Nat := 147456

/-- Link a queue is bound to (R432): 0 NONE, 1 PCIE, 2 ETH0, 3 ETH1. -/
def queueLink (s : State) (q : Nat) : Nat := paramNat s Pid.hostQueueLink q

/-- Is the queue's link up (R433, R451)? [DEDUCED, notes/assumptions/20] -/
def queueLinkUp (s : State) (q : Nat) : Bool :=
  match queueLink s q with
  | 1 => s.links.pcieUp
  | 2 => (ethOf s 0).linkUp
  | 3 => (ethOf s 1).linkUp
  | _ => false

/-- Bytes in a queue's staging. -/
def stagedBytes (x : OutQueue) : Nat := (x.staged.map fun i => i.2.2.length).sum

/-- Does an item of `n` bytes fit in the queue's staging? -/
def stagingFits (s : State) (q n : Nat) : Bool := decide (stagedBytes (queueOf s q) + n ≤ stagingBytes)

/-- Count `n` dropped items of queue `q`, request vector 16 + q and post QUEUE_DROP at most once per second (R433, R443,
R463). [DESIGN CHOICE, notes/assumptions/36] -/
def dropItems (q n cause : Nat) (s : State) : State :=
  if n = 0 then s
  else
    let (hit, r) := rateHit s.ticks n cause (queueOf s q).dropRate
    let s := raiseVector (16 + q) (bumpBy n Pid.hostQueueDrops q (onQueue q (fun x => { x with dropRate := r }) s))
    match hit with
    | some (k, c) => post 0x0403 q k c s
    | none => s

/-- Cause for which an item of `n` bytes would be dropped, 0 when it enters staging (R433, R442). [DESIGN CHOICE, notes/assumptions/36] -/
def dropCause (s : State) (q n : Nat) : Nat :=
  if !queueLinkUp s q then 2
  else if !(queueOf s q).enabled || (queueOf s q).error then 3
  else if !stagingFits s q n then 1
  else 0

/-- A live frame or record enters its queue's staging with the next item sequence, or is dropped (R433, R435). -/
def stageItem (q type : Nat) (bytes : List Byte) (s : State) : State :=
  let c := dropCause s q bytes.length
  if c = 0 then
    onQueue q (fun x => { x with staged := x.staged ++ [(x.nextSeq.toNat, type, bytes)], nextSeq := x.nextSeq + 1 }) s
  else dropItems q 1 c s

/-- Discard a queue's staged items and count each as a drop (R430, R440, R451). [DEDUCED, notes/assumptions/20] -/
def discardStaged (q cause : Nat) (s : State) : State :=
  let n := (queueOf s q).staged.length
  dropItems q n cause (onQueue q (fun x => { x with staged := [], starved := false }) s)

/-- Stop a queue with an error (R442). -/
def stopQueue (q cause index : Nat) (s : State) : State :=
  post 0x0404 q cause index (raiseVector (16 + q) (onQueue q (fun x => { x with running := false, error := true }) s))

/-- Entries of queue `q`'s ring. -/
def ringEntries (s : State) (q : Nat) : Nat := paramNat s Pid.hostQueueRingEntries q

/-- QUEUE_TAILq of a written value (R437, R439): a TAIL not below ring_entries stops a running queue. -/
def writeTail (q : Nat) (v : BitVec 32) (s : State) : State :=
  let s := onQueue q (fun x => { x with tail := v }) s
  if ringEntries s q ≤ v.toNat % 65536 && (queueOf s q).running then stopQueue q 5 (v.toNat % 65536) s else s

/-- Is a descriptor's buffer length one that R436 allows? -/
def bufferOk (n : Nat) : Bool := decide (256 ≤ n) && decide (n ≤ 1048576) && n % 64 == 0

/-- The buffers an item of `n` bytes fills, from those on offer: their count, if they hold it whole (R437). -/
def buffersFor (n : Nat) (bufs : List Nat) : Option Nat :=
  match bufs with
  | [] => if n = 0 then some 0 else none
  | b :: t => if n = 0 then some 0 else (buffersFor (n - b) t).map (· + 1)

/-- What the device writes into the descriptors of an item (R436): per buffer the bytes written, the item type, DONE with EOP in the last
and SOP in the first, and the item sequence. `i` counts the buffers already filled. -/
def completions (seq type i n head left : Nat) (bufs : List Nat) : List (Nat × List Byte) :=
  match bufs with
  | [] => []
  | b :: t =>
    let k := min b left
    ((head + i) % n, leBytes 4 k ++ leBytes 1 type ++ leBytes 1 (0x80 + 2 * bit (t.isEmpty) + bit (i == 0)) ++ leBytes 2 seq) ::
      completions seq type (i + 1) n head (left - k) t

/-- After an item has been delivered: counts and the completion moderation's start (R438, R444). -/
def itemDone (q seq type : Nat) (bytes : List Byte) (s : State) : State :=
  bump Pid.hostQueueItems q (onQueue q (fun x => { x with
    staged := x.staged.drop 1, starved := false, delivered := (seq, type, bytes), irqItems := x.irqItems + 1,
    irqFrom := some (x.irqFrom.getD s.ticks), bytes := (x.bytes + bytes.length) % 2 ^ 64 }) s)

/-- Deliver the oldest item into the ring: its buffers are those from HEAD up to TAIL (R436 to R438). -/
def deliverRing (q seq type : Nat) (bytes : List Byte) (buffers : List Nat) (s : State) : State :=
  let x := queueOf s q
  let n := ringEntries s q
  let owned := (x.tail.toNat % 65536 + n - x.head.toNat) % n
  let bufs := buffers.take owned
  match bufs.findIdx? fun b => !bufferOk b with
  | some i => stopQueue q 4 ((x.head.toNat + i) % n) s
  | none =>
    match buffersFor bytes.length bufs with
    | some k => itemDone q seq type bytes (onQueue q (fun x => { x with
        head := BitVec.ofNat 16 ((x.head.toNat + k) % n),
        written := completions seq type 0 n x.head.toNat bytes.length (bufs.take k) }) s)
    | none => onQueue q (fun x => { x with starved := true }) s

/-- Does a queue's destination lie in IPv6 (R449)? -/
def queueV6 (s : State) (q : Nat) : Bool :=
  !(paramNat s Pid.hostQueueDestAddrHi q == 0 && paramNat s Pid.hostQueueDestAddrLo q / 2 ^ 32 == 0xFFFF)

/-- Largest segment of a queue's datagrams (R450). -/
def segmentBytes (s : State) (q n : Nat) : Nat :=
  let mtu := paramNat s Pid.hostEthMtu n
  if paramNat s Pid.hostQueueEthMode q = 1 then mtu - 16 - (if paramNat s Pid.hostEthVlan n = 0 then 0 else 4)
  else mtu - (if queueV6 s q then 40 else 20) - 8 - 16

/-- Segments of an item with their delivery headers (R449, R450). `fuel` bounds the segments by the bytes. -/
def segments (q seq type total seg off fuel : Nat) (bytes : List Byte) : List (List Byte) :=
  match fuel with
  | 0 => []
  | fuel + 1 =>
    let part := bytes.take seg
    let rest := bytes.drop seg
    let last := rest.isEmpty || seg == 0
    let head := leBytes 1 0xD7 ++ leBytes 1 (16 + type) ++ leBytes 1 q ++ leBytes 1 (bit (off == 0) + 2 * bit last) ++
      leBytes 4 seq ++ leBytes 4 off ++ leBytes 4 total
    (head ++ part) :: (if last then [] else segments q seq type total seg (off + part.length) fuel rest)

/-- Deliver the oldest item over Ethernet port `n`: its datagrams join the port's lowest priority (R448, R449). The
number that stands for their destination is the queue's. -/
def deliverEth (q n seq type : Nat) (bytes : List Byte) (s : State) : State :=
  let ds := segments q seq type bytes.length (segmentBytes s q n) 0 (bytes.length + 1) bytes
  itemDone q seq type bytes (onEth n (fun e => { e with txQueue := e.txQueue ++ ds.map fun d => (q, d) }) s)

/-- QUEUE_ITEM_DELIVER (R438): the oldest staged item of a running queue leaves over its link. A PCIe item waits while
the link is not in L0 (R431). `buffers` are the lengths of the descriptors from HEAD on. -/
def queueItemDeliver (q : Nat) (buffers : List Nat) (s : State) : State :=
  let x := queueOf s q
  match x.staged with
  | [] => s
  | (seq, type, bytes) :: _ =>
    if !x.running || !queueLinkUp s q then s
    else
      match queueLink s q with
      | 1 => if s.links.pcieL1 then s else deliverRing q seq type bytes buffers s
      | 2 => deliverEth q 0 seq type bytes s
      | 3 => deliverEth q 1 seq type bytes s
      | _ => s

/-- QUEUE_IRQ (R444): request vector 8 + q when its items or its time have come. [DESIGN CHOICE, notes/assumptions/37] -/
def queueIrq (q : Nat) (s : State) : State :=
  let x := queueOf s q
  let usec := paramNat s Pid.hostQueueIrqUsec q
  let due := decide (paramNat s Pid.hostQueueIrqItems q ≤ x.irqItems) ||
    (usec != 0 && (x.irqFrom.map fun t => decide (t + usTicks usec ≤ s.ticks)).getD false)
  if x.irqItems = 0 || !due then s
  else raiseVector (8 + q) (onQueue q (fun x => { x with irqItems := 0, irqFrom := none }) s)

/-- DESCRIPTOR_READ_DONE (R436, R442): a failed read or a descriptor out of rule stops the queue. -/
def descriptorReadDone (q : Nat) (r : DescriptorRead) (s : State) : State :=
  let x := queueOf s q
  if !x.running then s
  else
    let stop (cause : Nat) : State := stopQueue q cause x.head.toNat s
    match r with
    | .ok address length => if address % 64 == 0 && bufferOk length then s else stop 4
    | .urOrCa => stop 1
    | .poisoned => stop 2
    | .timeout => stop 3

/-- DMA_QUEUE_ENABLE (R440, R441): HEAD and TAIL return to 0 and the queue starts; ERROR clears. [DEDUCED, notes/assumptions/20] -/
def queueEnable (q : Nat) (s : State) : State :=
  onQueue q (fun x => { x with
    enabled := true, running := true, error := false, starved := false, head := 0, tail := 0 }) s

/-- DMA_QUEUE_DISABLE (R440): the queue stops and its staged items are discarded. An item is written out in one step,
so none is in transfer. -/
def queueDisable (q : Nat) (s : State) : State :=
  discardStaged q 3 (onQueue q (fun x => { x with enabled := false, running := false, starved := false }) s)

/-- Any of the three PCIe resets on the queues (R430): DMA_ENABLE clears, HEAD and TAIL are 0, items staged for PCIe
queues are discarded and counted. -/
def resetQueues (s : State) : State :=
  forEach (List.range 8) (fun q s =>
    let s := onQueue q (fun x => { x with
      enabled := false, running := false, starved := false, error := false, head := 0, tail := 0 }) s
    if queueLink s q = 1 then discardStaged q 3 s else s) s

/-- QUEUE_ITEM_DELIVER. -/
def execQueueItemDeliver (q : Fin 8) (buffers : List Nat) (s : State) : Host.Outcome State Fault Refusal :=
  .next (queueItemDeliver q buffers s)

/-- QUEUE_IRQ. -/
def execQueueIrq (q : Fin 8) (s : State) : Host.Outcome State Fault Refusal := .next (queueIrq q s)

/-- DESCRIPTOR_READ_DONE. -/
def execDescriptorReadDone (q : Fin 8) (r : DescriptorRead) (s : State) : Host.Outcome State Fault Refusal :=
  .next (descriptorReadDone q r s)

/-- QUEUE_TAIL_WRITE (R437). -/
def execQueueTailWrite (q : Fin 8) (v : BitVec 32) (s : State) : Host.Outcome State Fault Refusal := .next (writeTail q v s)

/-- DMA_QUEUE_ENABLE (R440). -/
def execDmaQueueEnable (q : Fin 8) (s : State) : Host.Outcome State Fault Refusal := .next (queueEnable q s)

/-- DMA_QUEUE_DISABLE (R440). -/
def execDmaQueueDisable (q : Fin 8) (s : State) : Host.Outcome State Fault Refusal := .next (queueDisable q s)

end Sys2Proof.Machine
end

