-- ==== Sys2Proof/Machine/Plan.lean ====
section
/-! DEFINITION. Zones as a bank defines them, and the Herder's admission (R213 to R228): costs, the lane fill, the limits,
the steps that degrade a plan, the restore pass, and the admission report of R225. -/

namespace Sys2Proof.Machine

/-- Field of a bank's zone record as a natural number. -/
def zoneNat (b : Bank) (id z : Nat) : Nat := (bankRead b id z).toNat

/-- A port as one plan runs it: its slots and grid period in cells (R81, R82). -/
structure PortRun where
  slots : Nat
  period : Nat
  deriving DecidableEq, Repr

/-- The sentinel port's SENTINEL period (R81). -/
def sentinelPeriod (b : Bank) : Nat :=
  let v := (bankRead b Pid.modeSentinelPeriodCells 0).toNat
  if v = 0 then (bankRead b Pid.gridPeriodCells (bankRead b Pid.modeSentinelPort 0).toNat).toNat else v

/-- How port `p` runs under a bank in the RUN plan, or in the SENTINEL plan (R224). -/
def portRun (b : Bank) (sentinel : Bool) (p : Nat) : PortRun :=
  if sentinel && p == (bankRead b Pid.modeSentinelPort 0).toNat then ⟨1, sentinelPeriod b⟩
  else ⟨bankPort b p Pid.portSlots 0, (bankRead b Pid.gridPeriodCells p).toNat⟩

/-- C_p of R222 in fabric cycles. -/
def roundCycles (r : PortRun) : Nat := 2 * r.period / r.slots

/-- U_p of R222. -/
def laneCycles (r : PortRun) : Nat := roundCycles r - 256

/-- A zone's load in one plan (R217, R222). -/
structure ZoneLoad where
  zone : Nat
  port : Nat
  cls : Nat
  recipe : Nat
  points : Nat
  /-- Granted rate divider so far. -/
  div : Nat
  maxHalvings : Nat
  /-- k, h and t of R217. -/
  cost : Nat
  hist : Nat
  traffic : Nat
  /-- SPECTRUM with F ≥ 2,048. -/
  wide : Bool
  /-- Largest hi_hz of its bands, 0 without bands. -/
  topHz : Nat
  suspended : Bool := false
  /-- Paged under step 1 of R224. -/
  stepPaged : Bool := false
  halved : Bool := false
  deriving DecidableEq, Repr

/-- Points of a zone (R214). -/
def zonePoints (b : Bank) (z : Nat) : Nat :=
  (zoneNat b Pid.zoneLastCell z - zoneNat b Pid.zoneFirstCell z) / zoneNat b Pid.zonePitchCells z + 1

/-- Largest hi_hz of the zone's bands. -/
def zoneTopHz (b : Bank) (z : Nat) : Nat :=
  ((List.range (zoneNat b Pid.zoneBandCount z)).map fun k => zoneNat b Pid.zoneBandHiHz (idx2 z k)).foldl Nat.max 0

/-- A program of the library. -/
def programOf (lib : Store Program) (i : Nat) : Option Program := (lib.find? fun e => e.1 == i).map (·.2)

/-- k, h and t per point of a recipe (R217). -/
def recipeCost (b : Bank) (lib : Store Program) (z : Nat) : Nat × Nat × Nat :=
  let bands := zoneNat b Pid.zoneBandCount z
  let f := zoneNat b Pid.zoneSpectrumLen z
  match zoneNat b Pid.zoneRecipe z with
  | 0 => (3, 0, 0)
  | 1 => (8, 3, 6)
  | 2 => (6 + 10 * bands, 8 + 15 * bands, 2 * (8 + 15 * bands))
  | 3 => (10 + 2 * Nat.log2 f, 3 * f, 9)
  | 4 => (4, 4, 8)
  | 5 => (120, 8, 16)
  | _ =>
    match programOf lib (zoneNat b Pid.zoneProgram z) with
    | some g => (g.k, g.history, 2 * g.history)
    | none => (0, 0, 0)

/-- A zone's load at its requested rate divider. -/
def zoneLoad (b : Bank) (lib : Store Program) (z : Nat) : ZoneLoad :=
  let (k, h, t) := recipeCost b lib z
  { zone := z, port := zonePort z, cls := zoneNat b Pid.zoneClass z, recipe := zoneNat b Pid.zoneRecipe z,
    points := zonePoints b z, div := zoneNat b Pid.zoneRateDiv z, maxHalvings := zoneNat b Pid.zoneMaxHalvings z,
    cost := k, hist := h, traffic := t,
    wide := zoneNat b Pid.zoneRecipe z == 3 && decide (2048 ≤ zoneNat b Pid.zoneSpectrumLen z),
    topHz := if zoneNat b Pid.zoneRecipe z = 2 then zoneTopHz b z else 0 }

/-- s of R220. -/
def loadSlices (l : ZoneLoad) : Nat := if l.recipe = 5 then ceilDiv l.points 256 else l.div

/-- Resident-capable (R222). -/
def residentCapable (l : ZoneLoad) : Bool :=
  decide (l.hist * l.points ≤ 65536) && decide (l.hist * loadSlices l ≤ 12288)

/-- History held in DRAM in this plan. -/
def loadPaged (l : ZoneLoad) : Bool := l.stepPaged || !residentCapable l

/-- Runs on lanes of its own (R222). -/
def loadOwn (l : ZoneLoad) : Bool := l.wide || (loadPaged l && decide (2048 < l.hist))

/-- Points of one slice. -/
def sliceLen (l : ZoneLoad) : Nat := ceilDiv l.points (loadSlices l)

/-- Where a fill stands: lane, lane-cycles and resident bytes used there, and the pieces placed, newest first. -/
structure FillAt where
  lane : Nat := 0
  used : Nat := 0
  hist : Nat := 0
  pieces : List Placement := []

/-- Points that still fit on the lane (R223). -/
def fillFit (u : Nat) (l : ZoneLoad) (f : FillAt) : Nat :=
  if u < f.used + 96 then 0
  else
    let byTime := (u - f.used - 96) / l.cost
    if loadPaged l then min byTime (2048 / max l.hist 1)
    else if l.hist = 0 then byTime
    else min byTime ((12288 - f.hist) / (l.hist * loadSlices l))

/-- The while loop of R223 for one zone; each point takes at most two turns. -/
def fillZone (fuel u : Nat) (l : ZoneLoad) (left : Nat) (f : FillAt) : FillAt :=
  match fuel with
  | 0 => f
  | fuel + 1 =>
    if left = 0 then f
    else
      let fit := fillFit u l f
      if fit = 0 then fillZone fuel u l left { f with lane := f.lane + 1, used := 0, hist := 0 }
      else
        let take := min fit left
        let pc : Placement := {
          zone := l.zone, lane := f.lane, first := sliceLen l - left, take := take, used := f.used, hist := f.hist,
          resident := !loadPaged l }
        fillZone fuel u l (left - take) { f with
          used := f.used + 96 + take * l.cost,
          hist := if loadPaged l then f.hist else f.hist + take * l.hist * loadSlices l,
          pieces := pc :: f.pieces }

/-- Pieces of a zone on lanes of its own from `lane` on: `q` points each, `per` of them back to back (R222). -/
def ownPieces (fuel : Nat) (l : ZoneLoad) (q per lane nth left : Nat) : List Placement :=
  match fuel with
  | 0 => []
  | fuel + 1 =>
    if left = 0 then []
    else
      let take := min q left
      let pc : Placement := {
        zone := l.zone, lane := lane + nth / per, first := sliceLen l - left, take := take,
        used := nth % per * (96 + q * l.cost), hist := nth % 2 * 6144, resident := false }
      pc :: ownPieces fuel l q per lane (nth + 1) (left - take)

/-- Points a piece of an own-lane zone holds, and pieces on one lane (R222). -/
def ownShape (u : Nat) (l : ZoneLoad) : Nat × Nat :=
  if l.wide then ((u - 96) / l.cost, 1)
  else
    let q := min (6144 / max l.hist 1) ((u - 96) / l.cost)
    (q, max 1 (u / (96 + q * l.cost)))

/-- Lanes a list of pieces reaches beyond `base`. -/
def lanesTouched (base : Nat) (ps : List Placement) : Nat := (ps.map fun x => x.lane + 1).foldl Nat.max base - base

/-- Fill the lanes of one port (R223): pieces with lanes counted from 0. `served` is in the order class, then zone. -/
def fillPort (u : Nat) (served : List ZoneLoad) : List Placement :=
  let shared := served.filter fun l => !loadOwn l
  let f := shared.foldl (fun f l => fillZone (2 * sliceLen l + 2) u l (sliceLen l) f) {}
  let ps := f.pieces.reverse
  (served.filter loadOwn).foldl (fun ps l =>
    let (q, per) := ownShape u l
    ps ++ ownPieces (sliceLen l + 1) l q per (lanesTouched 0 ps) 0 (sliceLen l)) ps

/-- Served loads of port `p` in fill order. -/
def fillOrder (ls : List ZoneLoad) (p : Nat) : List ZoneLoad :=
  let own := ls.filter fun l => l.port == p && !l.suspended
  own.filter (·.cls == 0) ++ own.filter (·.cls == 1) ++ own.filter (·.cls == 2)

/-- What a plan has to fit into (R223, R227). [DEDUCED, notes/assumptions/42] -/
structure PlanLimits where
  pages : Nat
  budgetMBs : Nat
  targetNs : Nat
  deriving DecidableEq, Repr

/-- Add two fractions. -/
def addFrac (a b : Nat × Nat) : Nat × Nat := (a.1 * b.2 + b.1 * a.2, a.2 * b.2)

/-- Page traffic of a paged zone in bytes per second, as a fraction (R223): t × n × N / (P × d), P = cells × 2.5 ns. -/
def loadTraffic (r : PortRun) (l : ZoneLoad) : Nat × Nat := (l.traffic * l.points * r.slots * 400000000, r.period * l.div)

/-- Paged loads that are served. -/
def pagedLoads (ls : List ZoneLoad) : List ZoneLoad := ls.filter fun l => !l.suspended && loadPaged l

/-- The plan block's numbers and pieces for a set of loads (R223, R225). [DEDUCED, notes/assumptions/42] -/
def planOf (runs : Nat → PortRun) (lim : PlanLimits) (ls : List ZoneLoad) : Plan :=
  let fills := allPorts.map fun p => fillPort (laneCycles (runs p)) (fillOrder ls p)
  let lanes := fills.map fun ps => lanesTouched 0 ps
  let bases := allPorts.map fun p => (lanes.take p).sum
  let pieces := (fills.zip bases).flatMap fun (ps, b) => ps.map fun x => { x with lane := x.lane + b }
  let paged := pagedLoads ls
  let pages := (paged.map fun l => ceilDiv (l.hist * l.points) 65536).sum
  let traffic := (paged.map fun l => loadTraffic (runs l.port) l).foldl addFrac (0, 1)
  let ranOut := (allPorts.find? fun p => decide (128 < (lanes.take (p + 1)).sum))
  let limit :=
    if ranOut.isSome then 1
    else if lim.pages < pages then 2
    else if lim.budgetMBs * 1000000 * traffic.2 < traffic.1 ||
      paged.any (fun l => l.cls != 2 && decide (5 * (runs l.port).period ≤ 2 * lim.targetNs * (runs l.port).slots)) then 3
    else 0
  { fits := limit == 0, limit := limit, limitPort := ranOut.getD 0xFF, lanes := Vector.ofFn fun p : Fin 4 => lanes.getD p 0,
    residentBytes := (pieces.map fun x =>
      if x.resident then
        match ls.find? fun l => l.zone == x.zone with
        | some l => x.take * l.hist * loadSlices l
        | none => 0
      else 0).sum,
    pages := pages, pagesAvail := lim.pages, trafficKBs := traffic.1 / (traffic.2 * 1000), budgetKBs := lim.budgetMBs * 1000,
    pieces := pieces,
    grants := ls.map fun l => {
      zone := l.zone, div := l.div, paged := loadPaged l, degradedPaged := l.stepPaged, suspended := l.suspended,
      halved := l.halved,
      firstLane := ((pieces.filter fun x => x.zone == l.zone).map (·.lane)).foldl Nat.min 255,
      laneCount := ((pieces.filter fun x => x.zone == l.zone).map (·.lane)).eraseDups.length } }

/-- A change that admission may make to one zone (R224). -/
inductive PlanStep where
  | page (z : Nat)
  | suspend (z : Nat)
  | halve (z : Nat) (pass : Nat)
  deriving DecidableEq, Repr

/-- May the zone be halved once more (R224 step 3)? -/
def canHalve (runs : Nat → PortRun) (l : ZoneLoad) (pass : Nat) : Bool :=
  let r := runs l.port
  decide (pass ≤ l.maxHalvings) && decide (2 * l.div ≤ 256) &&
  decide (l.topHz * 2 * 5 * r.period * (2 * l.div) ≤ 2 * r.slots * 1000000000)

/-- Apply a step to the loads. -/
def applyStep (runs : Nat → PortRun) (st : PlanStep) (ls : List ZoneLoad) : List ZoneLoad :=
  let on (z : Nat) (f : ZoneLoad → ZoneLoad) : List ZoneLoad := ls.map fun l => if l.zone = z then f l else l
  match st with
  | .page z => on z fun l => { l with stepPaged := true }
  | .suspend z => on z fun l => { l with suspended := true }
  | .halve z pass => on z fun l => if canHalve runs l pass then { l with div := 2 * l.div, halved := true } else l

/-- The steps of R224 in order, for loads in ascending zone order. [DEDUCED, notes/assumptions/42] -/
def planSteps (ls : List ZoneLoad) : List PlanStep :=
  let down := ls.reverse
  ((down.filter fun l => l.cls == 2 && residentCapable l).map fun l => .page l.zone) ++
  ((down.filter fun l => l.cls == 2).map fun l => .suspend l.zone) ++
  ([1, 2, 3].flatMap fun pass => (down.filter fun l => l.cls == 1).map fun l => .halve l.zone pass)

/-- Apply steps until the plan fits. [DEDUCED, notes/assumptions/42] -/
def degrade (runs : Nat → PortRun) (lim : PlanLimits) (steps : List PlanStep) (ls : List ZoneLoad) : List ZoneLoad :=
  match steps with
  | [] => ls
  | st :: t => if (planOf runs lim ls).fits then ls else degrade runs lim t (applyStep runs st ls)

/-- Keep a change to zone `z` only if the plan still fits. -/
def tryZone (runs : Nat → PortRun) (lim : PlanLimits) (z : Nat) (f : ZoneLoad → ZoneLoad) (ls : List ZoneLoad) :
    List ZoneLoad :=
  let n := ls.map fun l => if l.zone = z then f l else l
  if (planOf runs lim n).fits then n else ls

/-- The restore pass of R224 over the zones `zs`, ascending. [DEDUCED, notes/assumptions/35] -/
def restorePass (runs : Nat → PortRun) (lim : PlanLimits) (zs : List Nat) (ls : List ZoneLoad) : List ZoneLoad :=
  zs.foldl (fun ls z =>
    match ls.find? fun l => l.zone == z with
    | some l =>
      if l.suspended then tryZone runs lim z (fun l => { l with suspended := false, stepPaged := false }) ls
      else if l.stepPaged then tryZone runs lim z (fun l => { l with stepPaged := false }) ls
      else ls
    | none => ls) ls

/-- Is a zone served by SENTINEL (R81, R82)? -/
def sentinelServes (b : Bank) (z : Nat) : Bool :=
  let r := portRun b true (zonePort z)
  zoneNat b Pid.zoneRecipe z == 5 ||
  (zoneNat b Pid.zoneRecipe z == 2 && zonePort z == (bankRead b Pid.modeSentinelPort 0).toNat &&
    decide (zoneTopHz b z * 2 * 5 * r.period * zoneNat b Pid.zoneRateDiv z ≤ 2 * r.slots * 1000000000))

/-- Enabled zones of a bank whose port is enabled, ascending (R213). -/
def enabledZones (b : Bank) : List Nat :=
  (List.range 1024).filter fun z => bankRead b Pid.zoneEnable z != 0 && bankRead b (portId (zonePort z) Pid.portEnable) 0 != 0

/-- The loads of a plan. -/
def planLoads (b : Bank) (lib : Store Program) (sentinel : Bool) : List ZoneLoad :=
  ((enabledZones b).filter fun z => !sentinel || sentinelServes b z).map (zoneLoad b lib)

/-- Admission of one plan at COMMIT (R224). -/
def admitPlan (b : Bank) (lib : Store Program) (lim : PlanLimits) (sentinel : Bool) : Plan :=
  let runs := portRun b sentinel
  let ls := planLoads b lib sentinel
  let d := degrade runs lim (planSteps ls) ls
  if (planOf runs lim d).fits then planOf runs lim (restorePass runs lim (d.map (·.zone)) d) else planOf runs lim d

/-- The steps of a re-admission, which never refuses (R86, R228): R224's, then suspension of any class, C before B before
A, descending. -/
def forceSteps (ls : List ZoneLoad) : List PlanStep :=
  planSteps ls ++ [1, 0].flatMap fun c => (ls.reverse.filter fun l => l.cls == c).map fun l => .suspend l.zone

/-- Re-admission in place (R86, R228): zones without their program, and paged zones while there is no DRAM, are suspended
first; `keep` are zones that stay suspended. [DEDUCED, notes/assumptions/35] -/
def readmitPlan (b : Bank) (lib : Store Program) (lim : PlanLimits) (sentinel dram : Bool) (keep : List Nat) : Plan :=
  let runs := portRun b sentinel
  let gone (l : ZoneLoad) : Bool :=
    keep.contains l.zone || (l.recipe == 6 && (programOf lib (zoneNat b Pid.zoneProgram l.zone)).isNone) ||
    (!dram && !residentCapable l)
  let ls := (planLoads b lib sentinel).map fun l => { l with suspended := gone l }
  let d := degrade runs lim (forceSteps (ls.filter fun l => !l.suspended)) ls
  let zs := (d.filter fun l => !gone l).map (·.zone)
  planOf runs lim (if (planOf runs lim d).fits then restorePass runs lim zs d else d)

/-- The grant of zone `z` in a plan. [DEDUCED, notes/assumptions/42] -/
def grantOf (pl : Plan) (z : Nat) : Option Grant := pl.grants.find? fun g => g.zone == z

/-- Is a grant degraded: halved, or paged under step 1 (R231)? -/
def grantDegraded (g : Grant) : Bool := g.halved || g.degradedPaged

/-- Does the plan degrade some zone, or suspend one (R224)? -/
def planDegraded (pl : Plan) : Bool := pl.grants.any fun g => grantDegraded g || g.suspended

/-- The 32 bytes of a plan block (R225). -/
def planBlock (code : Nat) (pl : Plan) : List Byte :=
  leBytes 1 code ++ leBytes 1 (if !pl.fits then 2 else if planDegraded pl then 1 else 0) ++ leBytes 1 pl.limit ++
  leBytes 1 pl.limitPort ++ (pl.lanes.toList.flatMap fun n => leBytes 1 n) ++ leBytes 4 pl.residentBytes ++ leBytes 4 pl.pages ++
  leBytes 4 pl.pagesAvail ++ leBytes 4 pl.trafficKBs ++ leBytes 4 pl.budgetKBs ++
  leBytes 2 (pl.grants.filter fun g => grantDegraded g && !g.suspended).length ++
  leBytes 2 (pl.grants.filter (·.suspended)).length

/-- One entry of the admission report (R225). -/
def reportEntry (plan zone action div : Nat) : List Byte :=
  leBytes 2 zone ++ leBytes 1 plan ++ leBytes 1 action ++ leBytes 2 div ++ leBytes 2 0

/-- Entries of one plan, ascending zone (R225). -/
def planEntries (b : Bank) (code : Nat) (pl : Plan) : List (List Byte) :=
  let changed (g : Grant) : Option (List Byte) :=
    if g.suspended then some (reportEntry code g.zone 3 g.div)
    else if g.degradedPaged then some (reportEntry code g.zone 2 g.div)
    else if g.halved then some (reportEntry code g.zone 1 g.div)
    else none
  let unserved (g : Grant) : Option (List Byte) :=
    if pl.fits || zoneNat b Pid.zoneClass g.zone = 2 then changed g
    else if pl.limit = 1 then
      (if zonePort g.zone = pl.limitPort then some (reportEntry code g.zone 4 g.div) else changed g)
    else if g.paged then some (reportEntry code g.zone 4 g.div) else changed g
  (enabledZones b).filterMap fun z =>
    match grantOf pl z with
    | some g => unserved g
    | none =>
      if code = 1 ∧ zoneNat b Pid.zoneRecipe z = 2 ∧ zonePort z = (bankRead b Pid.modeSentinelPort 0).toNat then
        some (reportEntry code z 4 (zoneNat b Pid.zoneRateDiv z))
      else none

/-- The admission report (R134, R225) for an answer of at most `limit` payload bytes. [DEDUCED, notes/assumptions/61] -/
def admissionReport (b : Bank) (run sentinel : Plan) (limit : Nat) : List Byte :=
  let es := planEntries b 0 run ++ planEntries b 1 sentinel
  let listed := es.take ((limit - 16 - 72) / 8)
  leBytes 2 1 ++ leBytes 2 es.length ++ leBytes 2 listed.length ++ leBytes 2 0 ++ planBlock 0 run ++ planBlock 1 sentinel ++
  listed.flatten

/-- The limits a plan has to fit (R223, R227). -/
def planLimits (s : State) (b : Bank) : PlanLimits :=
  { pages := (vecRead s.memory.regions 3 0) / 2, budgetMBs := (bankRead b Pid.herderPageBudgetMbps 0).toNat,
    targetNs := paramNat s Pid.memReqTargetNs 0 }

/-- The plan that port `p` runs: the SENTINEL plan in SENTINEL, else the RUN plan; the old one until its switch (R93) or the
round start at which a re-admission reaches it (R228). -/
def planInForce (s : State) (p : Nat) : Plan :=
  let old := (s.banks.switch.map fun w => w.portsLeft.getLsbD p).getD false || (portOf s p).readmit.isSome
  if flowMode s == .sentinel then (if old then s.herder.oldSentinel else s.herder.sentinel)
  else if old then s.herder.oldRun else s.herder.run

end Sys2Proof.Machine
end

