-- ==== Sys2Proof/Machine/Stream.lean ====
section
/-! DEFINITION. The Inkstone stream (R334 to R347): blocks, predictors, tokens and Rice coding, encoded and decoded. -/

namespace Sys2Proof.Machine

/-- An element of a stream (R334). -/
abbrev Elem := BitVec 24

/-- Elements of a history that matter (R336). -/
def historyMax : Nat := 21845

/-- PHASE and AMPLITUDE elements of a point word (R334). -/
def phaseElem (w : BitVec 48) : Elem := w.extractLsb' 24 24
/-- QUALITY × 65,536 + AMPLITUDE (R334). -/
def ampElem (w : BitVec 48) : Elem := ((w.extractLsb' 0 8).setWidth 24 <<< 16) ||| (w.extractLsb' 8 16).setWidth 24

/-- Point word of its two elements (R334). -/
def wordOfElems (ph am : Elem) : BitVec 48 :=
  ph ++ (am.setWidth 16) ++ (am.extractLsb' 16 8)

/-- The element at index `i`; the callers keep inside the bounds R340 and R341 set. -/
def elemAt (full : Array Elem) (i : Nat) : Elem := full.getD i 0

/-- Prediction of element `i` of a block (R340): `p0` is the history index of the block's first element. -/
def predict (mode s dref p0 i : Nat) (full : Array Elem) : Elem :=
  let x (k : Nat) : Elem := elemAt full (p0 + k)
  let r (k : Nat) : Elem := elemAt full (p0 + k - dref)
  match mode with
  | 1 => if s ≤ i then x (i - s) else 0
  | 2 => if 2 * s ≤ i then x (i - s) + x (i - s) - x (i - 2 * s) else if s ≤ i then x (i - s) else 0
  | 3 => r i
  | 4 => if s ≤ i then r i + x (i - s) - r (i - s) else r i
  | _ => 0

/-- Mapped residual u of r (R342). -/
def residualCode (x pred : Elem) : Nat :=
  let r := (x - pred).toInt
  if 0 ≤ r then (2 * r).toNat else (-2 * r - 1).toNat

/-- Residual r of u (R342). -/
def residualOf (u : Nat) : Elem := if u % 2 = 0 then BitVec.ofNat 24 (u / 2) else BitVec.ofInt 24 (-(((u + 1) / 2 : Nat) : Int))

/-- Adaptive state A, N of the Rice parameter (R342). -/
structure RiceState where
  a : Nat
  n : Nat
  deriving DecidableEq, Repr

/-- Smallest k up to 23 with N × 2^k ≥ A (R342). -/
def riceParam (st : RiceState) : Nat := ((List.range 23).find? fun k => decide (st.a ≤ st.n * 2 ^ k)).getD 23

/-- State after a residual (R342). -/
def riceNext (st : RiceState) (u : Nat) : RiceState :=
  let a := st.a + u
  if st.n + 1 = 32 then ⟨a / 2, 16⟩ else ⟨a, st.n + 1⟩

/-- `w` bits of `v`, most significant first (R339). -/
def msbBits (w v : Nat) : List Bool := (List.range w).map fun i => hasBitAt v (w - 1 - i)
where hasBitAt (v i : Nat) : Bool := v / 2 ^ i % 2 == 1

/-- Order-0 exponential Golomb code (R341). -/
def egBits (v : Nat) : List Bool := List.replicate (Nat.log2 (v + 1)) false ++ msbBits (Nat.log2 (v + 1) + 1) (v + 1)

/-- Rice code of one residual (R342). -/
def riceBits (st : RiceState) (u : Nat) : List Bool :=
  let k := riceParam st
  if 16 ≤ u / 2 ^ k then List.replicate 16 true ++ msbBits 24 u
  else List.replicate (u / 2 ^ k) true ++ [false] ++ msbBits k (u % 2 ^ k)

/-- Pack bits into bytes, most significant bit first, zero padded (R339). `fuel` is the number of bits. -/
def packBits (fuel : Nat) (bs : List Bool) : List Byte :=
  match fuel with
  | 0 => []
  | fuel + 1 =>
    match bs with
    | [] => []
    | _ =>
      let b := bs.take 8 ++ List.replicate (8 - (bs.take 8).length) false
      BitVec.ofNat 8 (b.foldl (fun v x => 2 * v + if x then 1 else 0) 0) :: packBits fuel (bs.drop 8)

/-- Bits of bytes, most significant first. -/
def unpackBits (bs : List Byte) : List Bool := bs.flatMap fun b => msbBits 8 b.toNat

/-- A token (R341). -/
inductive Token where
  | literal (count : Nat)
  | copy (count dist : Nat)
  deriving DecidableEq, Repr

/-- Length of the match at history index `h` and distance `d`, up to `left` elements (R341). -/
def matchLength (full : Array Elem) (h d left : Nat) : Nat :=
  match left with
  | 0 => 0
  | left + 1 => if elemAt full (h - d) = elemAt full h then matchLength full (h + 1) d left + 1 else 0

/-- Up to 8 candidate distances, nearest first, whose next three elements equal those at `h` (R344). [DESIGN CHOICE, notes/assumptions/26] -/
def candidates (full : Array Elem) (h : Nat) : List Nat :=
  (((List.range (min historyMax h)).map (· + 1)).filter fun d => decide (matchLength full h d 3 = 3)).take 8

/-- The longest match at `h`, the nearest on equal lengths: length and distance (R344). [DESIGN CHOICE, notes/assumptions/26] -/
def bestMatch (full : Array Elem) (h left : Nat) : Nat × Nat :=
  if left < 3 then (0, 0)
  else (candidates full h).foldl (fun b d => let n := matchLength full h d left; if b.1 < n then (n, d) else b) (0, 0)

/-- Tokens of a block: a match wherever one of three or more elements is found, literals between (R341, R344; the order
in which R344 takes matches and literals is not stated). `lits` literals are open. [DESIGN CHOICE, notes/assumptions/26] -/
def tokenize (fuel : Nat) (full : Array Elem) (h left lits : Nat) : List Token :=
  let flush (ts : List Token) : List Token := if lits = 0 then ts else .literal lits :: ts
  match fuel with
  | 0 => flush []
  | fuel + 1 =>
    if left = 0 then flush []
    else
      let (n, d) := bestMatch full h left
      if 3 ≤ n then flush (.copy n d :: tokenize fuel full (h + n) (left - n) 0)
      else tokenize fuel full (h + 1) (left - 1) (lits + 1)

/-- Bits of `count` residuals from element `i` on, and the Rice state after them. -/
def literalBits (count mode s dref p0 i : Nat) (full : Array Elem) (st : RiceState) : List Bool × RiceState :=
  match count with
  | 0 => ([], st)
  | count + 1 =>
    let u := residualCode (elemAt full (p0 + i)) (predict mode s dref p0 i full)
    let (rest, st2) := literalBits count mode s dref p0 (i + 1) full (riceNext st u)
    (riceBits st u ++ rest, st2)

/-- Bits of a token sequence (R341). -/
def tokenBits (ts : List Token) (mode s dref p0 i : Nat) (full : Array Elem) (st : RiceState) : List Bool :=
  match ts with
  | [] => []
  | .literal n :: t =>
    let (b, st2) := literalBits n mode s dref p0 i full st
    [false] ++ egBits (n - 1) ++ b ++ tokenBits t mode s dref p0 (i + n) full st2
  | .copy n d :: t => [true] ++ egBits (n - 2) ++ egBits (d - 1) ++ tokenBits t mode s dref p0 (i + n) full st

/-- k0 of a block under a mode (R344): the smallest k with 4 × 2^k ≥ the mean u of the first 64 residuals. -/
def initialK (mode s dref p0 n : Nat) (full : Array Elem) : Nat :=
  let m := min n 64
  let sum := ((List.range m).map fun i => residualCode (elemAt full (p0 + i)) (predict mode s dref p0 i full)).sum
  ((List.range 23).find? fun k => decide (sum ≤ 4 * 2 ^ k * m)).getD 23

/-- CODED payload of a block under a mode (R344): k0 and bytes. -/
def codePayload (ts : List Token) (mode s dref p0 n : Nat) (full : Array Elem) : Nat × List Byte :=
  let k := initialK mode s dref p0 n full
  let bs := tokenBits ts mode s dref p0 0 full ⟨4 * 2 ^ k, 4⟩
  (k, packBits bs.length bs)

/-- What a block says beside its elements (R337). -/
structure BlockInfo where
  component : Nat
  stride : Nat
  zone : Nat
  first : Nat
  round : Nat
  seq : Nat
  holdover : Bool
  checkpoint : Bool
  deriving DecidableEq, Repr

/-- Three bytes per element (R337, STORED). -/
def storedPayload (elems : List Elem) : List Byte := elems.flatMap fun x => leBytes 3 x.toNat

/-- Bytes of a block from its fields and payload (R337). -/
def blockBytes (b : BlockInfo) (stored : Bool) (mode k0 n dref : Nat) (payload : List Byte) : List Byte :=
  let head := leBytes 1 0xB5 ++ leBytes 1 (32 + if stored then 1 else 0) ++ leBytes 1 (mode * 32 + b.component * 8) ++
    leBytes 1 k0 ++ leBytes 2 n ++ leBytes 2 b.stride ++ leBytes 2 dref ++ leBytes 2 b.zone ++ leBytes 2 b.first ++
    leBytes 2 payload.length ++ leBytes 4 b.round ++ leBytes 4 b.seq ++
    leBytes 1 ((if b.holdover then 1 else 0) + if b.checkpoint then 2 else 0) ++ leBytes 3 0
  let all := head ++ payload
  all ++ leBytes 4 (crc32c all).toNat

/-- An encoded block: its bytes, and whether rule 1 of R344 stored it. -/
structure Encoded where
  bytes : List Byte
  stored : Bool
  deriving DecidableEq, Repr

/-- Encode a block over the history `hist` (R344). `dref` is the reference distance of modes 3 and 4, none where they are
not available; `selfCheck` says that the shadow decoder disagrees, which stores the block. -/
def encodeBlock (b : BlockInfo) (hist elems : List Elem) (dref : Option Nat) (selfCheck : Bool) : Encoded :=
  let full := (hist ++ elems).toArray
  let p0 := hist.length
  let n := elems.length
  let ts := tokenize n full p0 n 0
  let modes := [(0, 0), (1, 0), (2, 0)] ++ (match dref with | some d => [(3, d), (4, d)] | none => [])
  let coded := modes.map fun m => (m.1, m.2, codePayload ts m.1 b.stride m.2 p0 n full)
  let best := coded.foldl (fun acc c =>
    match acc with
    | none => some c
    | some a => if c.2.2.2.length < a.2.2.2.length then some c else some a) none
  match best with
  | some (m, d, k, p) =>
    if 3 * n ≤ p.length then ⟨blockBytes b true 0 0 n 0 (storedPayload elems), true⟩
    else if selfCheck then ⟨blockBytes b true 0 0 n 0 (storedPayload elems), false⟩
    else ⟨blockBytes b false m k n d p, false⟩
  | none => ⟨blockBytes b true 0 0 n 0 (storedPayload elems), true⟩

/-- Keep the newest elements of a history (R336). -/
def trimHistory (hist : List Elem) : List Elem := hist.drop (hist.length - historyMax)

/-- The state of a stream at a block boundary (R345): elements since the last history reset, the next block sequence, the history, and
whether the next block carries CHECKPOINT. [DESIGN CHOICE, notes/assumptions/146] -/
structure StreamState where
  since : Nat := 0
  nextSeq : Nat := 0
  history : List Elem := []
  checkpoint : Bool := false
  deriving DecidableEq, Repr

/-- The record that saves a stream's state: 65,556 bytes (R345). [DESIGN CHOICE, notes/assumptions/146] -/
def saveStream (x : StreamState) : List Byte :=
  let h := trimHistory x.history
  let b := leBytes 2 2 ++ leBytes 2 0 ++ leBytes 4 (min x.since 0xFFFFFFFF) ++ leBytes 4 x.nextSeq ++ leBytes 2 h.length ++ leBytes 2 0 ++
    h.flatMap (fun e => leBytes 3 e.toNat)
  let b := b ++ List.replicate (65552 - b.length) 0
  b ++ leBytes 4 (crc32c b).toNat

/-- The state that a record restores; none where its CRC fails (R345). -/
def restoreStream (b : List Byte) : Option StreamState :=
  if field b 65552 4 ≠ (crc32c (b.take 65552)).toNat || field b 0 2 ≠ 2 then none
  else some {
    since := field b 4 4, nextSeq := field b 8 4,
    history := (List.range (min historyMax (field b 12 2))).map fun i => BitVec.ofNat 24 (field b (16 + 3 * i) 3) }

/-- An encoder that restores a record: where its CRC fails, the history is reset and the next block carries CHECKPOINT (R345). -/
def restoreEncoder (b : List Byte) : StreamState := (restoreStream b).getD { checkpoint := true }

/-- A stream encoded block by block: zone, stride, `per` points a block (R337, R343). `fuel` bounds the blocks. -/
def encodeStream (fuel component stride zone round per seq first : Nat) (holdover : Bool) (selfCheck : Bool)
    (hist elems : List Elem) : List Encoded :=
  match fuel with
  | 0 => []
  | fuel + 1 =>
    if elems.isEmpty then []
    else
      let part := elems.take (per * stride)
      let b : BlockInfo := ⟨component, stride, zone, first, round, seq, holdover, seq == 0⟩
      encodeBlock b hist part none (selfCheck && seq == 0) ::
        encodeStream fuel component stride zone round per (seq + 1) (first + part.length / stride) holdover selfCheck
          (trimHistory (hist ++ part)) (elems.drop (per * stride))

/-- Why a block does not decode (R346). -/
inductive DecodeError where
  | illegalCode | distBeyondHistory | lengthOverrun | blockCrc
  deriving DecidableEq, Repr

/-- Code of a decoding error (R346). -/
def DecodeError.code (e : DecodeError) : Nat :=
  match e with
  | .illegalCode => 1 | .distBeyondHistory => 2 | .lengthOverrun => 3 | .blockCrc => 4

/-- A block's header as read (R337, R338). -/
structure BlockHeader where
  size : Nat
  stored : Bool
  mode : Nat
  component : Nat
  k0 : Nat
  n : Nat
  stride : Nat
  dref : Nat
  zone : Nat
  first : Nat
  length : Nat
  round : Nat
  seq : Nat
  holdover : Bool
  checkpoint : Bool
  deriving DecidableEq, Repr

/-- Are the header's fields among those R337, R338 and R346 allow? -/
def headerOk (bs : List Byte) (fmt : Nat) (h : BlockHeader) : Bool :=
  field bs 0 1 == 0xB5 && decide (field bs 1 1 % 16 ≤ 1) && decide (h.mode ≤ 4) && (fmt == 2 || h.mode == 0 || h.mode == 1 || h.mode == 3) &&
  decide (h.component ≤ 2) && field bs 2 1 % 8 == 0 && decide (field bs 3 1 ≤ 23) && decide (1 ≤ h.n) && decide (h.n ≤ 4096) &&
  decide (1 ≤ h.stride) && h.n % h.stride == 0 && (!h.stored || h.length == 3 * h.n) && (h.dref == 0 || decide (3 ≤ h.mode)) &&
  decide (field bs (h.size - 4) 1 / 4 = 0) && field bs (h.size - 3) 3 == 0

/-- Read the header of the block at the front of a container (R346 step 1). -/
def parseBlock (bs : List Byte) : Except DecodeError BlockHeader :=
  let fmt := field bs 1 1 / 16
  let size := if fmt = 1 then 24 else 28
  let flags := field bs (size - 4) 1
  let h : BlockHeader := {
    size := size, stored := field bs 1 1 % 16 == 1, mode := field bs 2 1 / 32, component := field bs 2 1 / 8 % 4,
    k0 := field bs 3 1 % 32, n := field bs 4 2, stride := field bs 6 2, dref := field bs 8 2, zone := field bs 10 2,
    first := field bs 12 2, length := field bs 14 2, round := field bs 16 4, seq := if fmt = 1 then 0 else field bs 20 4,
    holdover := flags % 2 == 1, checkpoint := flags / 2 % 2 == 1 }
  if bs.length < 2 then .error .lengthOverrun
  else if fmt ≠ 1 ∧ fmt ≠ 2 ∨ field bs 0 1 ≠ 0xB5 then .error .illegalCode
  else if bs.length < size + 4 then .error .lengthOverrun
  else if !headerOk bs fmt h then .error .illegalCode
  else if bs.length < size + h.length + 4 then .error .lengthOverrun
  else .ok h

/-- Read `w` bits, most significant first; none past the end. -/
def takeBits (w : Nat) (bs : List Bool) : Option (Nat × List Bool) :=
  if bs.length < w then none else some ((bs.take w).foldl (fun v x => 2 * v + if x then 1 else 0) 0, bs.drop w)

/-- Count leading bits equal to `v`, at most `lim` of them. -/
def runLength (v : Bool) (lim : Nat) (bs : List Bool) : Nat :=
  match lim, bs with
  | lim + 1, b :: t => if b = v then runLength v lim t + 1 else 0
  | _, _ => 0

/-- Read an exponential Golomb code: more than 16 zeros is ILLEGAL_CODE (R346). -/
def takeEg (bs : List Bool) : Except DecodeError (Nat × List Bool) :=
  let m := runLength false 17 bs
  if 16 < m then .error .illegalCode
  else
    match takeBits (m + 1) (bs.drop m) with
    | some (v, t) => .ok (v - 1, t)
    | none => .error .lengthOverrun

/-- Read one Rice residual u (R342). -/
def takeRice (st : RiceState) (bs : List Bool) : Except DecodeError (Nat × List Bool) :=
  let k := riceParam st
  let q := runLength true 16 bs
  if q = 16 then
    match takeBits 24 (bs.drop 16) with
    | some x => .ok x
    | none => .error .lengthOverrun
  else
    match takeBits k (bs.drop (q + 1)) with
    | some (v, t) => if bs.length ≤ q then .error .lengthOverrun else .ok (q * 2 ^ k + v, t)
    | none => .error .lengthOverrun

/-- Where a decoder stands inside a block. -/
structure DecodeAt where
  full : Array Elem
  bits : List Bool
  rice : RiceState

/-- Decode `count` residuals (R342). -/
def decodeLiterals (count : Nat) (h : BlockHeader) (p0 : Nat) (d : DecodeAt) : Except DecodeError DecodeAt :=
  match count with
  | 0 => .ok d
  | count + 1 => do
    let (u, t) ← takeRice d.rice d.bits
    let i := d.full.size - p0
    decodeLiterals count h p0 ⟨d.full.push (predict h.mode h.stride h.dref p0 i d.full + residualOf u), t, riceNext d.rice u⟩

/-- Copy `count` elements at distance `dist` (R341). -/
def copyElems (count dist : Nat) (full : Array Elem) : Array Elem :=
  match count with
  | 0 => full
  | count + 1 => copyElems count dist (full.push (elemAt full (full.size - dist)))

/-- Decode tokens until `n` elements stand (R341, R346); every token decodes at least one, so `fuel` = n suffices. -/
def decodeTokens (fuel : Nat) (h : BlockHeader) (p0 : Nat) (d : DecodeAt) : Except DecodeError DecodeAt :=
  let left := p0 + h.n - d.full.size
  if left = 0 then .ok d
  else
    match fuel with
    | 0 => .error .lengthOverrun
    | fuel + 1 => do
      match d.bits with
      | [] => .error .lengthOverrun
      | false :: t =>
        let (v, t) ← takeEg t
        if left < v + 1 then .error .lengthOverrun
        else
          let d ← decodeLiterals (v + 1) h p0 { d with bits := t }
          decodeTokens fuel h p0 d
      | true :: t =>
        let (v, t) ← takeEg t
        let (w, t) ← takeEg t
        if left < v + 2 then .error .lengthOverrun
        else if min historyMax d.full.size < w + 1 then .error .distBeyondHistory
        else decodeTokens fuel h p0 { d with full := copyElems (v + 2) (w + 1) d.full, bits := t }

/-- Decode a block's payload over the history before it (R340, R346). -/
def decodePayload (h : BlockHeader) (hist : List Elem) (payload : List Byte) : Except DecodeError (List Elem) :=
  if h.stored then .ok ((List.range h.n).map fun i => BitVec.ofNat 24 (field payload (3 * i) 3))
  else if 3 ≤ h.mode ∧ (h.dref < h.n ∨ min historyMax hist.length < h.dref) then .error .distBeyondHistory
  else do
    let d ← decodeTokens h.n h hist.length ⟨hist.toArray, unpackBits payload, ⟨4 * 2 ^ h.k0, 4⟩⟩
    if 8 ≤ d.bits.length then .error .lengthOverrun
    else if d.bits.any id then .error .illegalCode
    else .ok (d.full.toList.drop hist.length)

/-- Decode the block at the front of a container (R346): its header, its elements and the rest of the container. -/
def decodeBlock (hist : List Elem) (bs : List Byte) : Except DecodeError (BlockHeader × List Elem × List Byte) := do
  let h ← parseBlock bs
  let n := h.size + h.length
  if (crc32c (bs.take n)).toNat ≠ field bs n 4 then .error .blockCrc
  else
    let xs ← decodePayload h (if h.checkpoint then [] else hist) ((bs.drop h.size).take h.length)
    .ok (h, xs, bs.drop (n + 4))

/-- Elements of one output point of a frame stream (R335): the fields' widths in bytes, with their signedness. -/
def pointElems (fields : List (Nat × Bool)) (point : List Byte) : List Elem :=
  match fields with
  | [] => []
  | (w, sx) :: t =>
    let v := field point 0 w
    (if sx then BitVec.ofInt 24 (signed (8 * w) v) else BitVec.ofNat 24 v) :: pointElems t (point.drop w)

/-- Bytes of one output point from its elements (R335): each field takes its element's low bits. -/
def pointBytes (fields : List (Nat × Bool)) (xs : List Elem) : List Byte :=
  match fields, xs with
  | (w, _) :: t, x :: r => leBytes w x.toNat ++ pointBytes t r
  | _, _ => []

end Sys2Proof.Machine
end

