-- ==== Sys2Proof/Machine/Ring.lean ====
section
/-! DEFINITION. The replay ring (R343, R348 to R354): pages, blocks, checkpoints, restarts, and reading points back. -/

namespace Sys2Proof.Machine

/-- Update the codec. -/
def onInk (f : Inkstone → Inkstone) (s : State) : State := { s with inkstone := f s.inkstone }

/-- Pages the Kennel gives the ring (R348, R386). -/
def ringCapacity (s : State) : Nat := vecRead s.memory.regions 2 0

/-- Count a block (R344): coded, stored under rule 1, or stored after a failed self-check, which is posted at most once
per second. [DESIGN CHOICE, notes/assumptions/27] -/
def countBlock (stream seq : Nat) (e : Encoded) (selfCheck : Bool) (s : State) : State :=
  let s := bump Pid.inkBlocksCoded 0 s
  if e.stored then bump Pid.inkBlocksStored 0 s
  else if selfCheck then
    let (hit, r) := rateHit s.ticks 1 (stream * 2 ^ 32 + seq) s.inkstone.selfcheckRate
    let s := bump Pid.inkSelfcheckFail 0 (onInk (fun x => { x with selfcheckSeen := true, selfcheckRate := r }) s)
    match hit with
    | some (n, a) => post 0x2801 (a / 2 ^ 32 : Nat) (a % 2 ^ 32 : Nat) n s
    | none => s
  else s

/-- Seal the open pages of port `p` (R348, R350). -/
def sealPages (p : Nat) (s : State) : State :=
  onInk (fun x => { x with pages := x.pages.map fun g => if g.port = p then { g with sealed := true } else g }) s

/-- A checkpoint of port `p` (R353): both streams reset, and the next blocks open a CHECKPOINT page. -/
def checkpoint (p : Nat) (s : State) : State :=
  onInk (fun x => { x with
    streams := vecUpdate (vecUpdate x.streams (2 * p) fun _ => {}) (2 * p + 1) fun _ => {},
    checkpointDue := vecUpdate x.checkpointDue p fun _ => true,
    checkpointTick := vecUpdate x.checkpointTick p fun _ => s.ticks }) (sealPages p s)

/-- Next 4-byte boundary. -/
def align4 (n : Nat) : Nat := (n + 3) / 4 * 4

/-- The 64-byte header of a page (R349). -/
def pageHeader (g : RingPage) : List Byte :=
  let at_ (t : NetTime) : List Byte := leBytes 6 t.sec ++ leBytes 4 t.ns
  let b := leBytes 4 g.seq ++ leBytes 1 g.port ++ leBytes 1 (bits [g.checkpoint, g.holdover, g.sealed]) ++ leBytes 2 g.blocks.length ++
    leBytes 4 g.firstBlock ++ leBytes 4 g.firstRound ++ leBytes 4 g.lastRound ++ at_ g.firstTime ++ at_ g.lastTime ++ leBytes 4 g.epoch ++
    leBytes 4 g.used ++ leBytes 12 0
  b ++ leBytes 4 (crc32c b).toNat

/-- A page's bytes (R348): its header, its blocks, each from a 4-byte boundary, and 0x00 after the last. -/
def pageBytes (g : RingPage) : List Byte :=
  g.blocks.foldl (fun bs b => bs ++ leBytes (align4 bs.length - bs.length) 0 ++ b.2) (pageHeader g) ++ leBytes 1 0

/-- Open a page for a block of port `p` of round shot `t` (R348, R349): the page of lowest sequence makes room. -/
def openPage (p : Nat) (t : Shot) (s : State) : State :=
  let s := sealPages p s
  let full := decide (ringCapacity s ≤ s.inkstone.pages.length)
  let s := if full then bump Pid.ringPagesOverwritten 0 (onInk (fun x => { x with pages := x.pages.drop 1, wrapped := true }) s) else s
  onInk (fun x => { x with
    nextPage := x.nextPage + 1,
    checkpointDue := vecUpdate x.checkpointDue p fun _ => false,
    pages := x.pages ++ [{
      seq := x.nextPage.toNat, port := p, checkpoint := vecRead x.checkpointDue p false, firstBlock := x.nextBlock.toNat,
      firstRound := t.round, lastRound := t.round, firstTime := t.time, lastTime := t.time, epoch := t.epoch }] }) s

/-- Does a block of `n` bytes fit the open page of port `p`, of the same epoch (R348, R350)? -/
def pageFits (s : State) (p n epoch : Nat) : Bool :=
  s.inkstone.pages.any fun g => g.port == p && !g.sealed && g.epoch == epoch && decide (align4 g.used + n ≤ 65536)

/-- Put a block's bytes into the port's open page (R348, R349, R352). -/
def placeBlock (p zone : Nat) (t : Shot) (bytes : List Byte) (s : State) : State :=
  let s := if pageFits s p bytes.length t.epoch then s else openPage p t s
  onInk (fun x => { x with
    nextBlock := x.nextBlock + 1,
    pages := x.pages.map fun g =>
      if g.port = p ∧ g.sealed = false then
        { g with blocks := g.blocks ++ [(zone, bytes)], used := align4 g.used + bytes.length, lastRound := t.round,
                 lastTime := t.time, holdover := g.holdover || t.holdover }
      else g }) s

/-- Note what was coded now, for the figures over the last 10 s (R27, R362). [DESIGN CHOICE, notes/assumptions/27] -/
def noteCoded (points bits : Nat) (s : State) : State :=
  onInk (fun x => { x with
    coded := (s.ticks, points, bits) :: x.coded.filter fun c => decide (s.ticks < c.1 + secTicks 10) }) s

/-- Code one block of a ring stream (R343, R344): `nth` is the block's place in the zone's round, the key of its
reference. -/
def ringBlock (p comp zone nth first : Nat) (t : Shot) (elems : List Elem) (selfCheck : Bool) (s : State) : State :=
  let st := vecRead s.inkstone.streams (2 * p + comp) {}
  let seq := s.inkstone.nextBlock.toNat
  let key := zone * 16 + nth
  let dref := (st.lastBlock.find? fun e => e.1 == key).bind fun e =>
    let d := st.count - e.2.1
    if e.2.2 = elems.length ∧ elems.length ≤ d ∧ d ≤ min historyMax st.history.length then some d else none
  let b : BlockInfo := ⟨comp, 1, zone, first, t.round, seq, t.holdover, st.count == 0⟩
  let e := encodeBlock b st.history elems dref selfCheck
  let st : RingStream := {
    history := trimHistory (st.history ++ elems), lastBlock := Store.put st.lastBlock key (st.count, elems.length),
    count := st.count + elems.length }
  let s := onInk (fun x => { x with streams := vecUpdate x.streams (2 * p + comp) fun _ => st }) s
  countBlock (2 * p + comp) seq e selfCheck (noteCoded (if comp = 0 then elems.length else 0) (8 * e.bytes.length)
    (placeBlock p zone t e.bytes s))

/-- Feed points of a zone in one round (R236): up to last_cell, for gauge recipes and PAIR programs up to
last_cell + gauge_cells. [DESIGN CHOICE, notes/assumptions/28] -/
def feedCells (b : Bank) (lib : Store Program) (z : Nat) : List Nat :=
  let first := zoneNat b Pid.zoneFirstCell z
  let pitch := zoneNat b Pid.zonePitchCells z
  let pair : Bool :=
    match zoneNat b Pid.zoneRecipe z with
    | 1 | 2 | 3 => true
    | 6 => ((programOf lib (zoneNat b Pid.zoneProgram z)).map fun g => g.flags.getLsbD 1).getD false
    | _ => false
  let last := zoneNat b Pid.zoneLastCell z + (if pair then zoneNat b Pid.zoneGaugeCells z else 0)
  (List.range ((last - first) / pitch + 1)).map fun j => first + j * pitch

/-- Code a zone's feed of one round in blocks of at most 4,096 points, PHASE before AMPLITUDE (R343). [DESIGN CHOICE, notes/assumptions/28] -/
def ringFeed (fuel p zone nth first : Nat) (t : Shot) (words : List (BitVec 48)) (selfCheck : Bool) (s : State) : State :=
  match fuel with
  | 0 => s
  | fuel + 1 =>
    if words.isEmpty then s
    else
      let part := words.take 4096
      let s := ringBlock p 0 zone nth first t (part.map phaseElem) (selfCheck && nth == 0) s
      let s := ringBlock p 1 zone nth first t (part.map ampElem) false s
      ringFeed fuel p zone (nth + 1) (first + part.length) t (words.drop 4096) selfCheck s

/-- Journal summary of a replay job (R359). -/
def jobSummary (j : ReplayJob) : Nat := j.done + j.reason * 2 ^ 32 + j.error * 2 ^ 40 + j.frames * 2 ^ 48

/-- Open replay jobs in serving order (R357): by priority, then by REPLAY_START. [DESIGN CHOICE, notes/assumptions/133] -/
def jobOrder (s : State) : List Nat :=
  let openOf (pr : Nat) : List Nat := s.inkstone.order.filter fun i =>
    ((s.inkstone.jobs.find? fun e => e.1 == i).map fun e => decide (e.2.state ≤ 1) && e.2.priority == pr).getD false
  openOf 0 ++ openOf 1 ++ openOf 2

/-- The state of a decoder of one component of a port's ring streams before the first block of a round (R345): the blocks from the
port's last checkpoint on. [DESIGN CHOICE, notes/assumptions/146] -/
def decoderState (comp : Nat) (upto : Nat) (blocks : List (List Byte)) : StreamState :=
  (blocks.foldl (fun (x : StreamState × Bool) bytes =>
    match parseBlock bytes with
    | .error _ => x
    | .ok h =>
      if x.2 || h.component != comp then x
      else if decide ((h.round + 2 ^ 32 - upto) % 2 ^ 32 < 2 ^ 31) then (x.1, true)
      else
        let y := if h.checkpoint then {} else x.1
        match decodeBlock y.history bytes with
        | .ok (_, xs, _) => ({ y with since := y.since + xs.length, nextSeq := h.seq + 1, history := trimHistory (y.history ++ xs) }, false)
        | .error _ => x) ({}, false)).1

/-- What a job whose decoder is taken saves (R345): the two stream states of a ring source, the one of a copy. [DESIGN CHOICE, notes/assumptions/133] -/
def jobSaved (s : State) (j : ReplayJob) : List (List Byte) :=
  if j.source = 0 then
    let blocks := (s.inkstone.pages.filter fun g => g.port == zonePort j.sourceId).flatMap fun g => g.blocks.map (·.2)
    [0, 1].map fun c => saveStream (decoderState c j.nextRound blocks)
  else [saveStream (decoderState 0 j.nextRound [])]

/-- The first four jobs in serving order hold the decoders; a job that gives its decoder up saves its streams (R345, R357). [DESIGN CHOICE, notes/assumptions/133] -/
def scheduleJobs (s : State) : State :=
  let run := (jobOrder s).take 4
  onInk (fun x => { x with jobs := x.jobs.map fun e =>
    if e.2.state ≤ 1 then
      let on := run.contains e.1
      (e.1, { e.2 with state := if on then 1 else 0, saved := if on then [] else if e.2.state = 1 then jobSaved s e.2 else e.2.saved })
    else e }) s

/-- End replay job `i` with a reason of R359. -/
def endJob (i reason : Nat) (s : State) : State :=
  match s.inkstone.jobs.find? fun e => e.1 == i && decide (e.2.state ≤ 1) with
  | some (_, j) =>
    let j := { j with state := if reason = 0 then 2 else 3, reason := reason, waiting := [] }
    let s := scheduleJobs (onInk (fun x => { x with jobs := Store.put x.jobs i j, order := x.order.erase i }) s)
    let s := bump (if reason = 0 then Pid.replayJobsDone else Pid.replayJobsPartial) 0 s
    let s := onJournal j.journal (fun e => { e with summary := jobSummary j }) s
    journalEnd j.journal (if reason = 0 then .done else .part) (if reason ≤ 1 then 0 else 0x60) 0 s
  | none => s

/-- Open jobs that satisfy `f` end with a reason. -/
def endJobs (f : ReplayJob → Bool) (reason : Nat) (s : State) : State :=
  forEach ((s.inkstone.jobs.filter fun e => decide (e.2.state ≤ 1) && f e.2).map (·.1)) (fun i s => endJob i reason s) s

/-- The ring restarts empty (R354); jobs that read it end SOURCE_LOST (R359). Without a ring there is nothing to post. -/
def ringRestart (cause : Nat) (s : State) : State :=
  let s := onInk (fun x => { x with pages := [], wrapped := false, coded := [], ringStart := s.ticks }) s
  let s := endJobs (fun j => j.source == 0) 2 (forEach allPorts checkpoint s)
  if ringAvailable s then post 0x2803 cause s.inkstone.nextBlock.toNat 0 s else s

/-- The DRAM has no ring any more (R354, R385): it is dropped without a restart. -/
def ringDrop (s : State) : State :=
  endJobs (fun j => j.source == 0) 2 (onInk (fun x => { x with pages := [], wrapped := false, coded := [] }) s)

/-- A decoding error seen by a reader (R347). -/
def decodeError (reader code seq : Nat) (s : State) : State :=
  post 0x2802 reader code seq (paramPut Pid.inkLastDecodeError 0 code (bump Pid.inkDecodeErrors 0
    (onInk (fun x => { x with decodeErrSeen := true }) s)))

/-- A decoded run of one zone's points in one round. [DESIGN CHOICE, notes/assumptions/41] -/
structure RingRun where
  zone : Nat
  round : Nat
  /-- Shot time in ns. -/
  time : Nat
  epoch : Nat
  holdover : Bool
  first : Nat
  block : Nat
  words : List (BitVec 48)
  /-- Decoding errors met before it (R347): runs of one number follow each other intact. -/
  part : Nat := 0
  deriving DecidableEq, Repr

/-- Where a reader of one port's pages stands: both histories, the PHASE run awaiting its AMPLITUDE block, and whether
the streams are valid (R347). [DESIGN CHOICE, notes/assumptions/41] -/
structure RingReader where
  phase : List Elem := []
  amp : List Elem := []
  open_ : Option (BlockHeader × List Elem) := none
  valid : Bool := false
  runs : List RingRun := []
  /-- (code, block sequence) of errors met. -/
  errors : List (Nat × Nat) := []

/-- Shot time in ns of a round of a page: pages hold the times of their first and last rounds, and the rounds between
lie evenly between these. [DESIGN CHOICE, notes/assumptions/41] -/
def roundNs (g : RingPage) (round : Nat) : Nat :=
  let since (r : Nat) : Nat := (r + 2 ^ 32 - g.firstRound) % 2 ^ 32
  netNs g.firstTime + since round * (netNs g.lastTime - netNs g.firstTime) / max 1 (since g.lastRound)

/-- Read one block (R346, R347, R353). [DESIGN CHOICE, notes/assumptions/41] -/
def readBlock (g : RingPage) (r : RingReader) (bytes : List Byte) : RingReader :=
  match parseBlock bytes with
  | .error e => { r with valid := false, open_ := none, errors := r.errors ++ [(e.code, 0)] }
  | .ok h =>
    if !r.valid && !h.checkpoint then r
    else
      match decodeBlock (if h.component = 0 then r.phase else r.amp) bytes with
      | .error e => { r with valid := false, open_ := none, errors := r.errors ++ [(e.code, h.seq)] }
      | .ok (_, xs, _) =>
        let hist (old : List Elem) : List Elem := trimHistory ((if h.checkpoint then [] else old) ++ xs)
        if h.component = 0 then { r with phase := hist r.phase, open_ := some (h, xs), valid := true }
        else
          match r.open_ with
          | some (ph, px) =>
            { r with amp := hist r.amp, open_ := none, valid := true, runs := r.runs ++ [{
                zone := ph.zone, round := ph.round, time := roundNs g ph.round, epoch := g.epoch, holdover := ph.holdover,
                first := ph.first, block := ph.seq, words := (px.zip xs).map fun (a, b) => wordOfElems a b,
                part := r.errors.length }] }
          | none => { r with amp := hist r.amp, valid := true }

/-- Read all pages of port `p` from its checkpoints on (R353). [DESIGN CHOICE, notes/assumptions/41] -/
def readPort (s : State) (p : Nat) : RingReader :=
  (s.inkstone.pages.filter fun g => g.port == p).foldl (fun r g =>
    g.blocks.foldl (fun r b => readBlock g r b.2) r) {}

end Sys2Proof.Machine
end

