-- ==== Sys2Proof/Machine/SerifLane.lean ====
section
/-! DEFINITION. What each Serif instruction does to its lane (R246 to R258). -/

namespace Sys2Proof.Machine

/-- Lane flag bit positions (R247). -/
def flagLt : Nat := 0
def flagEq : Nat := 1
def flagAov : Nat := 3
def flagSat : Nat := 7
def flagAccess : Nat := 8

/-- Set bit `i` of the lane flags to `b`. -/
def laneFlag (l : Lane) (i : Nat) (b : Bool) : Lane :=
  { l with flags := if b then l.flags ||| (1#9 <<< i) else l.flags &&& ~~~ (1#9 <<< i) }

/-- Raise a sticky lane flag when `b` holds. -/
def laneSticky (l : Lane) (i : Nat) (b : Bool) : Lane := if b then laneFlag l i true else l

/-- Signed value of data register `a`. -/
def laneInt (l : Lane) (a : Fin 16) : Int := (l.x.get a).toInt

/-- Write data register `d`. -/
def lanePut (l : Lane) (d : Fin 16) (v : BitVec 24) : Lane := { l with x := l.x.set d v }

/-- Write an integer to data register `d`, saturating and setting SAT (R252). -/
def lanePutSat (l : Lane) (d : Fin 16) (v : Int) : Lane :=
  laneSticky (lanePut l d (BitVec.ofInt 24 (sat 24 v))) flagSat (overflows 24 v)

/-- Write an integer to data register `d`, modulo 2^24. -/
def lanePutWrap (l : Lane) (d : Fin 16) (v : Int) : Lane := lanePut l d (BitVec.ofInt 24 v)

/-- May the piece in progress load the byte at `a` (R248)? [DESIGN CHOICE, notes/assumptions/24] -/
def laneReadable (l : Lane) (a : Nat) : Bool :=
  match l.piece with
  | none => false
  | some pc =>
    pc.wide || (decide (0x3000 ≤ a) && decide (a < 0x3900)) ||
    (if pc.own then decide (pc.histBase / 0x1800 = a / 0x1800) && decide (a < 0x3000)
     else decide (pc.histBase ≤ a) && decide (a < pc.histBase + pc.histLen) && decide (a < 0x3000))

/-- May the piece in progress store to the byte at `a` (R248)? The zone constants are read only. [DESIGN CHOICE, notes/assumptions/24] -/
def laneWritable (l : Lane) (a : Nat) : Bool :=
  match l.piece with
  | none => false
  | some pc => laneReadable l a && (pc.wide || !(decide (0x3000 ≤ a) && decide (a < 0x3100)))

/-- The byte addresses of an access of `n` bytes at pointer `p`, modulo 16,384. -/
def laneAddrs (p : BitVec 14) (n : Nat) : List Nat := (List.range n).map fun i => (p.toNat + i) % 16384

/-- Load `n` bytes at `p`: 0 and ACCESS outside the readable windows (R248). [DESIGN CHOICE, notes/assumptions/24; DESIGN CHOICE, notes/assumptions/108] -/
def laneLoad (l : Lane) (p : BitVec 14) (n : Nat) : Nat × Bool :=
  let as := laneAddrs p n
  if as.all (laneReadable l) then (leNat (as.map (Store.read (fun _ => 0) l.mem)), false) else (0, true)

/-- Store the bytes `bs` at `p`: ignored with ACCESS outside the writable windows (R248). [DESIGN CHOICE, notes/assumptions/24; DESIGN CHOICE, notes/assumptions/108] -/
def laneStore (l : Lane) (p : BitVec 14) (bs : List Byte) : Lane :=
  let as := laneAddrs p bs.length
  if as.all (laneWritable l) then
    { l with mem := (as.zip bs).foldl (fun m ab => Store.write (fun _ => 0) m ab.1 ab.2) l.mem }
  else laneFlag l flagAccess true

/-- Post-modify pointer `p` by offset register `o`, modulo 16,384 (R257). -/
def laneBump (l : Lane) (p o : Fin 8) : Lane := { l with p := l.p.set p (l.p.get p + l.o.get o) }

/-- Write a point word into the register pair `d`, `d + 1`: PHASE, then QUALITY and AMPLITUDE (R257). -/
def lanePutWord (l : Lane) (d : Fin 16) (w : BitVec 48) : Lane :=
  lanePut (lanePut l d (w.extractLsb' 24 24)) (d + 1)
    (((w.extractLsb' 0 8).setWidth 24 <<< 16) ||| (w.extractLsb' 8 16).setWidth 24)

/-- Accumulator `j` := the exact value `v`, frozen at the nearer limit with AOV on overflow (R253). [DEDUCED, notes/assumptions/21] -/
def laneAcc (l : Lane) (j : Fin 4) (v : Int) : Lane :=
  if l.flags.getLsbD (flagAov + j) then l
  else laneSticky { l with m := l.m.set j (BitVec.ofInt 56 (sat 56 v)) } (flagAov + j) (overflows 56 v)

/-- Add `v` to accumulator `j` (R253). -/
def laneAccAdd (l : Lane) (j : Fin 4) (v : Int) : Lane := laneAcc l j ((l.m.get j).toInt + v)

/-- Load accumulator `j` with `v` and clear its AOV bit (R253). -/
def laneAccSet (l : Lane) (j : Fin 4) (v : Int) : Lane :=
  laneFlag { l with m := l.m.set j (BitVec.ofInt 56 v) } (flagAov + j) false

/-- Redundant sign bits of a data value, 23 for 0 and −1 (R256). -/
def redundantSigns (v : BitVec 24) : Nat :=
  let u := if v.msb then (~~~ v).toNat else v.toNat
  if u = 0 then 23 else 22 - Nat.log2 u

/-- The mantissa table of LOG2: T[i] = round half up of 256 × log2(1 + i/256) (R255), from
2^(2T − 1) ≤ (1 + i/256)^512. -/
def log2Table (i : Nat) : Nat := (Nat.log2 ((256 + i) ^ 512) - 4096 + 1) / 2

/-- LOG2 of an accumulator (R255). -/
def laneLog2 (m : BitVec 56) : BitVec 24 :=
  if m.msb || m == 0 then 0x800000#24
  else
    let v := m.toNat
    let b := Nat.log2 v
    let i := (if 8 ≤ b then v / 2 ^ (b - 8) else v * 2 ^ (8 - b)) % 256
    BitVec.ofNat 24 (256 * b + log2Table i)

/-- Value of piece descriptor register `n` (R249). [DESIGN CHOICE, notes/assumptions/22] -/
def laneDescriptor (l : Lane) (n : Fin 16) : BitVec 24 :=
  match l.piece with
  | none => 0
  | some d =>
    BitVec.ofNat 24 ([d.zone, d.port, d.slots, d.points, d.firstPoint, d.firstCell, d.pitch, d.gauge, d.rateDiv,
      d.slice, d.slices, d.round % 2 ^ 24, d.round / 2 ^ 24 % 256, d.histBase, d.histLen,
      if d.emit then 1 else 0].getD n 0)

/-- Write bytes into a sparse memory from an address on. -/
def fillBytes (m : Store Byte) (start : Nat) (bs : List Byte) : Store Byte :=
  (bs.zipIdx).foldl (fun m e => Store.write (fun _ => 0) m (start + e.2) e.1) m

/-- Bytes of lane memory that stay at the start of a piece: the resident histories of the lane's other zones, and what lies
outside the program's windows; a piece on a lane of its own keeps no byte of its banks (R246, R248). [DESIGN CHOICE, notes/assumptions/24] -/
def laneKept (d : Piece) (a : Nat) : Bool :=
  !d.wide && ((!d.own && decide (a < 0x3100)) || (decide (0x3000 ≤ a) && decide (a < 0x3100)) || decide (0x3900 ≤ a))

/-- Lane state at the start of a piece (R246, R248): nothing survives from an earlier one. The window at 0x3100 reads 0 where
the Herder fills no history into it, and the zone's constants and the piece's history stand in their windows. [DESIGN CHOICE, notes/assumptions/22; DESIGN CHOICE, notes/assumptions/24] -/
def laneStart (l : Lane) (d : Piece) (rest : List Piece) : Lane :=
  let mem := Store.restrict (laneKept d) l.mem
  { mem := fillBytes (fillBytes mem 0x3000 d.constants) d.histBase d.hist, piece := some d, next := rest, input := d.input }

/-- The next piece of a lane starts when the one before it ends (R245); with none the lane idles. [DESIGN CHOICE, notes/assumptions/22] -/
def laneNext (l : Lane) : Lane :=
  match l.next with
  | [] => { l with piece := none }
  | d :: t => laneStart l d t

/-- Run a one-word instruction `f` as often as REP says, then go to the next word (R257, R258). -/
def laneRetire (f : Lane → Lane) (l : Lane) : Lane :=
  { (Nat.repeat f (l.rep.getD 1) l) with rep := none, pc := l.pc + 1, cycles := l.cycles + l.rep.getD 1 }

/-- SETA and SETAI: pointers 0–7, then offset registers (R257). -/
def laneSetAddr (l : Lane) (t : Fin 16) (v : BitVec 14) : Lane :=
  if h : t.val < 8 then { l with p := l.p.set t.val v } else { l with o := l.o.set (t.val - 8) v (by omega) }

/-- GETA: a pointer zero-extended, an offset register sign-extended (R257). -/
def laneGetAddr (l : Lane) (t : Fin 16) : BitVec 24 :=
  if h : t.val < 8 then (l.p[t.val]).setWidth 24 else (l.o[t.val - 8]'(by omega)).signExtend 24

/-- Shift left with saturation (R252). -/
def laneShl (l : Lane) (d : Fin 16) (v : Int) (n : Nat) : Lane := lanePutSat l d (v * 2 ^ n)

/-- SHV: right with rounding for b ≥ 0, left with saturation for b < 0 (R257). -/
def laneShv (l : Lane) (d a b : Fin 16) : Lane :=
  let n := laneInt l b
  if 0 ≤ n then lanePutWrap l d (rhu (laneInt l a) (min n.toNat 23)) else laneShl l d (laneInt l a) (min (-n).toNat 23)

/-- The condition of SEL: 0 LT, 1 EQ, 2 LT or EQ, 3 not EQ (R257). -/
def laneCond (l : Lane) (c : Fin 4) : Bool :=
  let lt := l.flags.getLsbD flagLt
  let eq := l.flags.getLsbD flagEq
  match c with
  | 0 => lt
  | 1 => eq
  | 2 => lt || eq
  | 3 => !eq

/-- CMP (R257). -/
def laneCmp (l : Lane) (a b : Fin 16) : Lane :=
  laneFlag (laneFlag l flagLt (decide (laneInt l a < laneInt l b))) flagEq (l.x.get a == l.x.get b)

/-- LD: `n` bytes at `p`, sign- or zero-extended, post-modified (R257). [DESIGN CHOICE, notes/assumptions/24] -/
def laneLd (l : Lane) (d : Fin 16) (p o : Fin 8) (n : Nat) (sx : Bool) : Lane :=
  let r := laneLoad l (l.p.get p) n
  let v : BitVec 24 := if sx then BitVec.ofInt 24 (signed (8 * n) r.1) else BitVec.ofNat 24 r.1
  laneBump (laneSticky (lanePut l d v) flagAccess r.2) p o

/-- ST: the low `n` bytes of `a` to `p`, post-modified (R257). [DESIGN CHOICE, notes/assumptions/24] -/
def laneSt (l : Lane) (a : Fin 16) (p o : Fin 8) (n : Nat) : Lane :=
  laneBump (laneStore l (l.p.get p) (leBytes n (l.x.get a).toNat)) p o

/-- LDPT: a 6-byte point word at `p` (R257). -/
def laneLdpt (l : Lane) (d : Fin 16) (p o : Fin 8) : Lane :=
  let r := laneLoad l (l.p.get p) 6
  laneBump (laneSticky (lanePutWord l d (BitVec.ofNat 48 r.1)) flagAccess r.2) p o

/-- IN: the next input word; past the end 0 in both registers and ACCESS (R250). [DESIGN CHOICE, notes/assumptions/22] -/
def laneIn (l : Lane) (d : Fin 16) : Lane :=
  match l.input with
  | [] => laneFlag (lanePutWord l d 0) flagAccess true
  | w :: t => lanePutWord { l with input := t } d w

/-- OUT: push the low `n` bytes of `a`, least significant first (R257). -/
def laneOut (l : Lane) (a : Fin 16) (n : Nat) : Lane :=
  { l with output := l.output ++ leBytes n (l.x.get a).toNat }

/-- FEAT: push a feature record (R251, R257). -/
def laneFeat (l : Lane) (k : Fin 8) (a b : Fin 16) (mode : Nat) : Lane :=
  { l with features := l.features ++ [⟨k.val, laneInt l a, (l.x.get b).toNat, mode⟩] }

/-- MAC and MSU with the product's sign (R253). -/
def laneMac (l : Lane) (j : Fin 4) (a b : Fin 16) (neg : Bool) : Lane :=
  let v := laneInt l a * laneInt l b
  laneAccAdd l j (if neg then -v else v)

/-- MAC2: two products on the pair m0, m1 or m2, m3 (R257). -/
def laneMac2 (l : Lane) (pr : Fin 2) (a b a2 b2 : Fin 16) : Lane :=
  let even : Fin 4 := if pr = 0 then 0 else 2
  laneMac (laneMac l even a b false) (even + 1) a2 b2 false

/-- MACLD: multiply-accumulate with the old values, then load both operands (R257). [DESIGN CHOICE, notes/assumptions/24] -/
def laneMacld (l : Lane) (j : Fin 4) (a b : Fin 16) (p o p2 o2 : Fin 8) : Lane :=
  laneLd (laneLd (laneMac l j a b false) a p o 3 true) b p2 o2 3 true

/-- EXT: rounded, saturated extraction; an accumulator frozen with AOV set always saturates on extraction, whatever the shift (R254;
DEDUCED: the sentence on frozen accumulators outranks the formula, unsafe). [DEDUCED, notes/assumptions/21] -/
def laneExt (l : Lane) (d : Fin 16) (j : Fin 4) (sh : Nat) : Lane :=
  if l.flags.getLsbD (flagAov + j) then lanePutSat l d (if (l.m.get j).msb then -2 ^ 23 - 1 else 2 ^ 23)
  else lanePutSat l d (rhu (l.m.get j).toInt sh)

/-- DBNZ: decrement and branch backwards while nonzero; 2 cycles taken, 1 not (R257). -/
def laneDbnz (l : Lane) (c : Fin 4) (off : BitVec 16) : Lane :=
  let v := l.c.get c - 1
  let l := { l with c := l.c.set c v }
  if v = 0 then { l with pc := l.pc + 1, cycles := l.cycles + 1 }
  else { l with pc := ((l.pc : Int) + off.toInt).toNat, cycles := l.cycles + 2 }

end Sys2Proof.Machine
end

