-- ==== Sys2Proof/Machine/Quill.lean ====
section
/-! DEFINITION. The Quill (chapter 06): glyphs and their samples, the slots and their frequency plan, the drive of the PRB
balls, the gate and the Raman trigger. -/

namespace Sys2Proof.Machine

/-! ## Glyphs -/

/-- Words of a glyph (R149). -/
def glyphWords (b : Bank) (p g : Nat) : Nat :=
  let n := bankPort b p Pid.portGlyphSamples g
  match bankPort b p Pid.portGlyphFormat g with
  | 1 => 2 * n
  | 3 => ceilDiv n 16
  | _ => n

/-- Word `n` of glyph memory (R150). -/
def glyphWord (b : Bank) (p n : Nat) : Nat := bankPort b p Pid.portGlyphMem (n / 4) / 65536 ^ (n % 4) % 65536

/-- One Horner step of the sine or cosine series in units of 2^−64: 1 − x² · acc / d. -/
def turnStep (x2 : Int) (acc d : Int) : Int := 2 ^ 64 - x2 * acc / (2 ^ 64 * d)

/-- cos and sin in units of 2^−64 of an angle of 0 to π/4 in units of 2^−64 radian, far below the half unit that R149 rounds. -/
def smallTurn (x : Int) : Int × Int :=
  let x2 := x * x / 2 ^ 64
  let c := [182, 132, 90, 56, 30, 12, 2].foldl (turnStep x2) (2 ^ 64 - x2 / 240)
  let s := [210, 156, 110, 72, 42, 20, 6].foldl (turnStep x2) (2 ^ 64 - x2 / 272)
  (c, x * s / 2 ^ 64)

/-- cos and sin of `n` units of 2π/65,536, in units of 2^−64: the octant folds onto 0 to π/4. -/
def turn (n : Nat) : Int × Int :=
  let n := n % 65536
  let r := n % 16384
  let small (m : Nat) : Int × Int := smallTurn ((m : Int) * (2 * 57952155664616982739) / 65536)
  let (c, s) := if r ≤ 8192 then small r else (small (16384 - r)).swap
  match n / 16384 with
  | 0 => (c, s)
  | 1 => (-s, c)
  | 2 => (-c, -s)
  | _ => (s, -c)

/-- Sample `j` of a glyph as signed 12-bit I and Q (R149). [DESIGN CHOICE, notes/assumptions/124] -/
def glyphSample (b : Bank) (p g j : Nat) : Int × Int :=
  let w := bankPort b p Pid.portGlyphBase g
  match bankPort b p Pid.portGlyphFormat g with
  | 0 => let v := glyphWord b p (w + j); (16 * signed 8 (v / 256), 16 * signed 8 v)
  | 1 => (signed 12 (glyphWord b p (w + 2 * j)), signed 12 (glyphWord b p (w + 2 * j + 1)))
  | 2 => let (c, s) := turn (glyphWord b p (w + j)); (rhu (2047 * c) 64, rhu (2047 * s) 64)
  | _ => (if hasBit (glyphWord b p (w + j / 16)) (15 - j % 16) then -2047 else 2047, 0)

/-- A glyph's samples after the glyph gain (R151 steps 1 and 2). [DESIGN CHOICE, notes/assumptions/124] -/
def glyphPlayed (b : Bank) (p g : Nat) : List (Int × Int) :=
  let gain : Int := bankPort b p Pid.portGlyphGain g
  (List.range (bankPort b p Pid.portGlyphSamples g)).map fun j =>
    let v := glyphSample b p g j
    (sat 16 (rhu (v.1 * gain) 15), sat 16 (rhu (v.2 * gain) 15))

/-- The survey's built-in BIPHASE glyph of 1,024 samples in the Quill's ROM (R175). [DESIGN CHOICE, notes/assumptions/124] -/
def surveyGlyph : List (Int × Int) := (List.range 1024).map fun j => (if Config.surveyGlyphBit j then -2047 else 2047, 0)

/-! ## Slots and the frequency plan -/

/-- Glyph that slot `k` of port `p` plays under a bank (R152). [DESIGN CHOICE, notes/assumptions/124] -/
def bankGlyph (b : Bank) (p k : Nat) : Nat := bankPort b p Pid.portSlotGlyph k

/-- Samples of what slot `k` plays: its glyph's, or the ROM glyph's in a survey (R175). -/
def playedSamples (s : State) (b : Bank) (p k : Nat) : Nat :=
  if flowMode s == .survey then 1024 else bankPort b p Pid.portGlyphSamples (bankGlyph b p k)

/-- Glyph that slot `k` of port `p` plays (R152). -/
def slotGlyph (s : State) (p k : Nat) : Nat := portNat s p Pid.portSlotGlyph k

/-- Samples of the glyph of slot `k`. -/
def slotSamples (s : State) (p k : Nat) : Nat := portNat s p Pid.portGlyphSamples (slotGlyph s p k)

/-- Centre f_k of slot `k` of `n`, in kHz from the carrier (R152). -/
def slotCentreKhz (n k : Nat) : Int := (2 * (k : Int) + 1 - n) * 200000 / n

/-- Usable half band of a slot of `n`, in kHz (R152). -/
def slotHalfBandKhz (n : Nat) : Nat := 160000 / n

/-- Grid period of port `p` in cells: the survey's own (R175), the SENTINEL period on the sentinel port in SENTINEL (R8, R81). -/
def portPeriod (s : State) (p : Nat) : Nat :=
  let run := (portCfg s p Pid.gridPeriodCells p).toNat
  let sent := paramNat s Pid.modeSentinelPeriodCells 0
  if flowMode s == .survey then 524288
  else if flowMode s == .sentinel && paramNat s Pid.modeSentinelPort 0 == p && sent != 0 then sent else run

/-- Ticks from one slot fire time of the port to the next: P/N cells of 2.5 ns (R152). -/
def roundTicks (s : State) (p : Nat) : Nat := 2 * portPeriod s p / max 1 (portSlots s p)

/-- The sentinel port, or any port outside SENTINEL, plays glyphs (R81). -/
def playsGlyphs (s : State) (p : Nat) : Bool := flowMode s != .sentinel || paramNat s Pid.modeSentinelPort 0 == p

/-- Permission and lock for a shot now (R69, R157). [DESIGN CHOICE, notes/assumptions/74] -/
def mayFire (s : State) (p : Nat) : Bool := emitEn s p && !s.clocks.corePllLost

/-! ## Drive, gate and Raman trigger -/

/-- Bank that a shot ran under. -/
def shotBank (s : State) (p : Nat) (t : Shot) : Bank := bankOfEpoch s p t.epoch

/-- What a shot's slot plays at 1.6 GS/s (R151 steps 1 to 5); its ROM glyph in a survey. [DESIGN CHOICE, notes/assumptions/124] -/
def slotDrive (s : State) (p : Nat) (t : Shot) : List (Int × Int) :=
  let b := shotBank s p t
  let g := if flowMode s == .survey then surveyGlyph else glyphPlayed b p (bankGlyph b p t.slot)
  (Config.slotSignal t.run.slots t.slot g).take (4 * g.length)

/-- The scale of R151 step 6, or the survey's (R175). [DESIGN CHOICE, notes/assumptions/124] -/
def driveScale (s : State) (p : Nat) (b : Bank) : Nat :=
  if flowMode s == .survey then portNat s p Pid.portSurveyScale 0 else bankPort b p Pid.portPrbScale 0

/-- A shot whose glyph is on the PRB balls at 1.6 GS/s sample `n`, counted from tick 0. [DESIGN CHOICE, notes/assumptions/124] -/
def drives (s : State) (p n : Nat) (t : Shot) : Bool :=
  t.fired && !t.cut && decide (2 * t.fireTick ≤ n) && decide (n < 2 * t.fireTick + 4 * playedSamples s (shotBank s p t) p t.slot)

/-- The scaled sum of the slot signals at 1.6 GS/s sample `n` (R151 step 6). [DESIGN CHOICE, notes/assumptions/124] -/
def driveAt (s : State) (p n : Nat) : Int × Int :=
  let live := (portOf s p).shots.filter (drives s p n)
  let scale : Int := (live.head?.map fun t => driveScale s p (shotBank s p t)).getD 0
  let at_ (t : Shot) : Int × Int := (slotDrive s p t).getD (n - 2 * t.fireTick) (0, 0)
  (rhu ((live.map fun t => (at_ t).1).sum * scale) 15, rhu ((live.map fun t => (at_ t).2).sum * scale) 15)

/-- Codes of PRBp_I and PRBp_Q now (R151 step 7, R154): 0 when no glyph plays and without emission. [DESIGN CHOICE, notes/assumptions/124] -/
def prbCode (s : State) (p : Nat) : Int × Int :=
  if !emitEn s p then (0, 0)
  else let v := driveAt s p (2 * s.ticks); (sat 12 v.1, sat 12 v.2)

/-- The drive cannot saturate (R151): the sum over all slots of glyph gain × scale is at most 1.0. [DESIGN CHOICE, notes/assumptions/124] -/
def driveSafe (s : State) (p : Nat) (t : Shot) : Bool :=
  let b := shotBank s p t
  let gains := if flowMode s == .survey then 32768
    else ((List.range t.run.slots).map fun k => bankPort b p Pid.portGlyphGain (bankGlyph b p k)).sum
  decide (gains * driveScale s p b ≤ 2 ^ 30)

/-- Samples of the drive that saturated since tick `from_` (R151 step 7). [DESIGN CHOICE, notes/assumptions/121] -/
def clippedSince (s : State) (p from_ : Nat) : Nat :=
  let live := (portOf s p).shots.filter fun t =>
    t.fired && !t.cut && decide (from_ < t.fireTick + 2 * playedSamples s (shotBank s p t) p t.slot) && !driveSafe s p t
  if live.isEmpty then 0
  else ((List.range (2 * (s.ticks - from_))).filter fun i =>
    let v := driveAt s p (2 * from_ + i)
    overflows 12 v.1 || overflows 12 v.2).length

/-- Ticks by which GATEp opens before a fire time (R155). -/
def gateLead (b : Bank) (p : Nat) : Nat := bankPort b p Pid.portGateLeadTicks 0

/-- End of a shot's gate (R155), in ticks. -/
def gateEnd (s : State) (p : Nat) (t : Shot) : Nat :=
  let b := shotBank s p t
  t.fireTick + 2 * playedSamples s b p t.slot + bankPort b p Pid.portGateTailTicks 0

/-- The port's next slot fires in time (R152, R157, R182): its expected tick. -/
def nextFire (s : State) (p : Nat) : Option Nat :=
  let x := portOf s p
  let runs := x.gridRunning && playsGlyphs s p && mayFire s p && !(x.awaitSlot0 && x.nextSlot != 0) && !(x.stopping && x.nextSlot == 0)
  if runs then x.shots.head?.map fun t => t.fireTick + roundTicks s p else none

/-- The gate of the next shot is open already (R155). -/
def inLead (s : State) (p : Nat) : Bool :=
  ((nextFire s p).map fun t => decide (t ≤ s.ticks + gateLead (portBank s p) p)).getD false

/-- GATEp (R155, R157): the union of the open intervals of the shots that fire. -/
def gateOpen (s : State) (p : Nat) : Bool :=
  emitEn s p && (inLead s p || (portOf s p).shots.any fun t => t.fired && !t.cut && decide (s.ticks < gateEnd s p t))

/-- RAMTRGp (R156, R157). -/
def ramTrgHigh (s : State) (p : Nat) : Bool :=
  emitEn s p && (((portOf s p).ramTrg).map fun r =>
    decide (r ≤ s.ticks) && decide (s.ticks < r + portNat s p Pid.portRamtrgWidthTicks 0)).getD false

/-- The LMONp comparator's output now (R158, R161): it stands high at a tick at which it was seen to. [DESIGN CHOICE, notes/assumptions/125] -/
def comparatorHigh (s : State) (p : Nat) : Bool :=
  (portOf s p).riseTick == some s.ticks || Config.comparatorLevel p s.ticks (portNat s p Pid.portLmonThresholdMv 0)

/-- Tick at which the launch window of a shot ends: it starts when GATEp opens for the shot (R158). [DESIGN CHOICE, notes/assumptions/119] -/
def launchWindow (s : State) (p fire : Nat) : Nat :=
  fire - gateLead (portBank s p) p + ceilDiv (portNat s p Pid.portLmonWindowNs 0 * 4) 5

/-- `port[p].lmon_status` (R161). [DESIGN CHOICE, notes/assumptions/125] -/
def lmonStatus (s : State) (p : Nat) : Nat :=
  let x := portOf s p
  bits [comparatorHigh s p, x.launchOk, x.missSeen, x.launchMissing, x.lightSeen]

end Sys2Proof.Machine
end

