-- ==== Sys2Proof/Machine/Receive.lean ====
section
/-! DEFINITION. The receive front end and the Stroke's stages on samples (chapters 06 and 07): sample words with their blots and
guards, correction, masking, the channeliser and pulse compression. -/

namespace Sys2Proof.Machine

/-! ## Sample words -/

/-- A sample word (R168). -/
structure SampleWord where
  blot : Bool
  ovr : Bool
  sample : Int
  deriving DecidableEq, Repr

/-- The word's 16 bits: BLOT [15], OVR [14], SAMPLE [13:0] (R168). -/
def SampleWord.bits (w : SampleWord) : Nat := 32768 * bit w.blot + 16384 * bit w.ovr + unsigned 14 w.sample

/-- The newest slot fire time of a port at a tick: what it runs with holds until the next one. [DEDUCED, notes/assumptions/107] -/
def shotAt (x : PortState) (tick : Nat) : Option Shot := x.shots.find? fun t => decide (t.fireTick ≤ tick)

/-- What the port ran with at a tick. [DEDUCED, notes/assumptions/107] -/
def runAt (x : PortState) (tick : Nat) (t : Shot) : RoundSettings := ((shotAt x tick).getD t).run

/-- A guard group's guard covers a tick (R172): from the first over-range sample to the guard's end. [DEDUCED, notes/assumptions/107] -/
def guarded (x : PortState) (group tick : Nat) : Bool :=
  (vecRead x.guards group []).any (fun g => decide (g.1 ≤ tick) && decide (tick ≤ g.2)) ||
  (vecRead x.guard group false && decide (vecRead x.guardTick group 0 ≤ tick))

/-- BLANKp is active at a level (R170). [DEDUCED, notes/assumptions/107] -/
def blankActive (b : Bank) (p : Nat) (level : Bool) : Bool :=
  bankPort b p Pid.portBlankEnable 0 != 0 && (level == (bankPort b p Pid.portBlankPolarity 0 == 0))

/-- BLANKp blots a sample at a tick, with its margin at each end (R170). [DEDUCED, notes/assumptions/107] -/
def blanked (x : PortState) (b : Bank) (p tick : Nat) : Bool :=
  let m := 2 * bankPort b p Pid.portBlankMargin 0
  (blankActive b p x.blankLevel && decide (x.blankTick ≤ tick + m)) ||
  x.blanks.any fun i => blankActive b p i.1 && decide (i.2.1 ≤ tick + m) && decide (tick < i.2.2 + m)

/-- A survey blot covers a tick (R171): its cells after the fire time of a slot. -/
def surveyBlotted (s : State) (p tick : Nat) : Bool :=
  (portOf s p).shots.any fun t =>
    let b := shotBank s p t
    (List.range 8).any fun k =>
      let from_ := t.fireTick + 2 * (bankPort b p Pid.portOriginCells 0 + bankPort b p Pid.portBlotStartCells k)
      decide (from_ ≤ tick) && decide (tick < from_ + 2 * bankPort b p Pid.portBlotLengthCells k)

/-- Tick at which cell `c` of a shot is sampled (R183, R200). -/
def cellTick (t : Shot) (origin : Nat) (c : Int) : Nat := (t.fireTick + 2 * (origin + c)).toNat

/-! ## Correction -/

/-- Gain factor uQ4.16 of an input in a range (R162, R184 step 3): the measured ratio of the range to the 18 dB range, times the
background gain. [DESIGN CHOICE, notes/assumptions/123] -/
def gainFactor (s : State) (p input gain : Nat) (ppm : Int) : Int :=
  let ratio (g : Nat) : Int := if g = 0 then 2 ^ 24 else (calItem s 1 p).inForce.getD (3 * input + (g / 6 - 1)) (2 ^ 24 * 2 ^ (g / 6))
  rhuDiv (ratio 18 * 65536 * (1000000 + ppm)) (max 1 (ratio gain) * 1000000)

/-- Coefficients of an input: the start-up trims alone with correction switched off (R169). [DESIGN CHOICE, notes/assumptions/123] -/
def correctionOf (r : RoundSettings) (input : Nat) : Correction := if r.corrOn then vecRead r.corr input {} else {}

/-- The eight samples that the skew filter sees at `c`, less the offset, in 1/16 LSB (R184 steps 1 and 2). [DESIGN CHOICE, notes/assumptions/123] -/
def skewInput (sample : Int → Int) (k : Correction) (c : Int) : List Int :=
  (List.range 8).map fun (i : Nat) => 16 * sample (c + (i : Int) - 3) - k.offset

/-- An input after R184 steps 1 to 3, in 2^−20 LSB of the 18 dB range. [DESIGN CHOICE, notes/assumptions/123] -/
def corrected3 (s : State) (p input gain : Nat) (r : RoundSettings) (sample : Int → Int) (c : Int) : Int :=
  let k := correctionOf r input
  Config.skewFilter k.skewFs (skewInput sample k c) * gainFactor s p input gain k.gainPpm

/-- A receiver's I′ and Q′ before the result is narrowed to s18 (R184 step 4). [DESIGN CHOICE, notes/assumptions/123] -/
def corrected4 (k : Correction) (i q : Int) : Int × Int :=
  let (a, b) := Config.iqCoefficients k.iqGainMdb k.iqPhaseMdeg
  (rhu i 20, rhu (a * q + b * i) 36)

/-! ## The samples of a shot -/

/-- What the ADCs converted at cell `c` of a raw point's shot; nothing outside what it brings. [DESIGN CHOICE, notes/assumptions/123] -/
def RawPoint.code (pt : RawPoint) (c : Int) : DasCodes :=
  if c < pt.first then ⟨0, 0, 0, 0⟩ else pt.codes.getD (c - pt.first).toNat ⟨0, 0, 0, 0⟩

/-- The four inputs of a sampling instant. [DESIGN CHOICE, notes/assumptions/123] -/
def DasCodes.inputs (d : DasCodes) : List Int := [d.xi, d.xq, d.yi, d.yq]

/-- A code exceeds the range's full scale (R168, R172). -/
def DasCodes.over (d : DasCodes) : Bool := d.inputs.any (overflows 14)

/-- BLOT and OVR of the DAS sample words at cell `c` of a shot (R168, R170 to R172). [DEDUCED, notes/assumptions/107] -/
def dasMask (s : State) (pt : RawPoint) (t : Shot) (c : Int) : Bool × Bool :=
  let p := pt.port.val
  let x := portOf s p
  let tick := cellTick t (bankPort (shotBank s p t) p Pid.portOriginCells 0) c
  (blanked x (shotBank s p ((shotAt x tick).getD t)) p tick || surveyBlotted s p tick, (pt.code c).over || guarded x 0 tick)

/-- The sample word of a DAS input at cell `c` of a shot (R168). -/
def dasWord (s : State) (pt : RawPoint) (t : Shot) (input : Nat) (c : Int) : SampleWord :=
  let m := dasMask s pt t c
  ⟨m.1, m.2, sat 14 ((pt.code c).inputs.getD input 0)⟩

/-- The corrected X and Y values of cell `c`, before narrowing (R184). [DESIGN CHOICE, notes/assumptions/123] -/
def dasCorrected (s : State) (pt : RawPoint) (t : Shot) (c : Int) : List Int :=
  let p := pt.port.val
  let x := portOf s p
  let r := runAt x (cellTick t (bankPort (shotBank s p t) p Pid.portOriginCells 0) c) t
  let v (i : Nat) : Int := corrected3 s p i r.dasGain r (fun c => (dasWord s pt t i c).sample) c
  let rx := corrected4 (correctionOf r 0) (v 0) (v 1)
  let ry := corrected4 (correctionOf r 2) (v 2) (v 3)
  [rx.1, rx.2, ry.1, ry.2]

/-- The X and Y samples of cell `c` after correction and masking: s18, 0 where masked (R184, R185). [DESIGN CHOICE, notes/assumptions/123] -/
def dasSample (s : State) (pt : RawPoint) (t : Shot) (c : Int) : (Int × Int) × (Int × Int) :=
  let m := dasMask s pt t c
  if m.1 || m.2 then ((0, 0), (0, 0))
  else
    let v := (dasCorrected s pt t c).map (sat 18)
    ((v.getD 0 0, v.getD 1 0), (v.getD 2 0, v.getD 3 0))

/-! ## Channeliser -/

/-- A sample rotated by e^(−j2π f_k t): zero phase at cell 0 of the slot (R152, R188 step 1). [DESIGN CHOICE, notes/assumptions/123] -/
def mixDown (n k : Nat) (c : Int) (v : Int × Int) : Int × Int :=
  let w := Config.channelPhase (2 * n) ((((2 * (k : Int) + 1 - n) * c) % (2 * n : Nat)).toNat)
  (v.1 * w.1 + v.2 * w.2, v.2 * w.1 - v.1 * w.2)

/-- Sum of complex values. -/
def sumPairs (vs : List (Int × Int)) : Int × Int := ((vs.map (·.1)).sum, (vs.map (·.2)).sum)

/-- Sample `i` of a slot stream of one polarisation before narrowing to s20 (R188): the sample itself for N = 1, else mixed,
filtered over 48 × N cells about cell i × N, and decimated. [DESIGN CHOICE, notes/assumptions/123] -/
def channelSample (n k : Nat) (sample : Int → Int × Int) (i : Nat) : Int × Int :=
  let c : Int := (i * n : Nat)
  if n ≤ 1 then sample c
  else
    let vs := (Config.channelTaps n).zipIdx.map fun (h, j) =>
      let at_ : Int := c + 24 * (n : Int) - (j : Int)
      let v := mixDown n k at_ (sample at_)
      (h * v.1, h * v.2)
    let z := sumPairs vs
    (rhu z.1 34, rhu z.2 34)

/-- A slot stream's sample in s20 (R188). [DESIGN CHOICE, notes/assumptions/123] -/
def slotSample (n k : Nat) (sample : Int → Int × Int) (i : Nat) : Int × Int :=
  let z := channelSample n k sample i
  (sat 20 z.1, sat 20 z.2)

/-! ## Pulse compression -/

/-- Tap count of slot `k` of `n` under a bank (R189). -/
def bankTaps (s : State) (b : Bank) (p n k : Nat) : Nat := ceilDiv (playedSamples s b p k) n

/-- The matched filter h of slot `k` (R189): complex s16, its largest component magnitude 2^14. [DESIGN CHOICE, notes/assumptions/123] -/
def matchedFilter (s : State) (b : Bank) (p n k : Nat) : List (Int × Int) :=
  let g := if flowMode s == .survey then surveyGlyph else glyphPlayed b p (bankGlyph b p k)
  let base := Config.matchedBase n k g
  let h := (List.range (bankTaps s b p n k)).map fun i => base.getD i (0, 0)
  let top : Nat := (h.map fun v => max v.1.natAbs v.2.natAbs).foldl Nat.max 0
  h.map fun v => (rhuDiv (v.1 * 16384) (max 1 top), rhuDiv (v.2 * 16384) (max 1 top))

/-- v × conj(h). -/
def timesConj (v h : Int × Int) : Int × Int := (v.1 * h.1 + v.2 * h.2, v.2 * h.1 - v.1 * h.2)

/-- The compressed value of R190 before sat24: the exact sum rounded by S, within the engine's 2 LSB. [DESIGN CHOICE, notes/assumptions/123] -/
def compressed (shift : Nat) (x h : List (Int × Int)) : Int × Int :=
  let z := sumPairs ((x.zip h).map fun e => timesConj e.1 e.2)
  let e := Config.compressionError shift x h
  (rhu z.1 shift + (e.1 % 5 - 2), rhu z.2 shift + (e.2 % 5 - 2))

/-- What the stages before combining make of a raw point (R180, R186): yX and yY, masked samples of its core and its support, and
the saturations it adds. -/
structure Received where
  x : Int × Int
  y : Int × Int
  core : Nat
  support : Nat
  blot : Bool
  ovr : Bool
  sats : Nat
  deriving DecidableEq, Repr

/-- Components of a complex value that leave `w` bits. [DESIGN CHOICE, notes/assumptions/121] -/
def satCount (w : Nat) (v : Int × Int) : Nat := bit (overflows w v.1) + bit (overflows w v.2)

/-- Saturations of the samples of a point's core in ADC and correction (R168, R180, R184): each sample counts in the newest slot trace
that holds it. [DESIGN CHOICE, notes/assumptions/121] -/
def sampleSats (s : State) (pt : RawPoint) (t : Shot) (c : Int) : Nat :=
  let p := pt.port.val
  let tick := cellTick t (bankPort (shotBank s p t) p Pid.portOriginCells 0) c
  if ((shotAt (portOf s p) tick).map (·.fireTick)).getD t.fireTick != t.fireTick then 0
  else
    let m := dasMask s pt t c
    ((pt.code c).inputs.filter (overflows 14)).length +
    (if m.1 || m.2 then 0 else ((dasCorrected s pt t c).filter (overflows 18)).length)

/-- The stages of R180 up to pulse compression on a raw point of shot `t`. [DESIGN CHOICE, notes/assumptions/121; DESIGN CHOICE, notes/assumptions/123] -/
def receivePoint (s : State) (pt : RawPoint) (t : Shot) (shift : Nat) : Received :=
  let p := pt.port.val
  let b := shotBank s p t
  let n := t.run.slots
  let taps := bankTaps s b p n t.slot
  let h := matchedFilter s b p n t.slot
  let c : Int := (pt.index * n : Nat)
  let stream (pick : (Int × Int) × (Int × Int) → Int × Int) : List (Int × Int) :=
    (List.range taps).map fun m => slotSample n t.slot (fun c => pick (dasSample s pt t c)) (pt.index + m)
  let first (pick : (Int × Int) × (Int × Int) → Int × Int) : Int × Int :=
    channelSample n t.slot (fun c => pick (dasSample s pt t c)) pt.index
  let x := compressed shift (stream (·.1)) h
  let y := compressed shift (stream (·.2)) h
  let masks := (List.range (taps * n)).map fun (i : Nat) => dasMask s pt t (c + (i : Int))
  let masked (l : List (Bool × Bool)) : Nat := (l.filter fun m => m.1 || m.2).length
  { x := (sat 24 x.1, sat 24 x.2), y := (sat 24 y.1, sat 24 y.2),
    core := masked (masks.take n), support := masked masks,
    blot := masks.any (·.1), ovr := masks.any (·.2),
    sats := ((List.range n).map fun (i : Nat) => sampleSats s pt t (c + (i : Int))).sum +
      satCount 20 (first (·.1)) + satCount 20 (first (·.2)) + satCount 24 x + satCount 24 y }

/-! ## The Raman inputs -/

/-- BLOT and OVR of a Raman sample at a tick (R172, R276): survey blots act on DAS inputs alone. -/
def ramanMaskAt (s : State) (p tick : Nat) (t : Shot) (v : Int × Int) : Bool × Bool :=
  let x := portOf s p
  (blanked x (shotBank s p ((shotAt x tick).getD t)) p tick, overflows 14 v.1 || overflows 14 v.2 || guarded x 1 tick)

/-- A Raman sample after steps 1 and 3 of R184 in s18 (R274); `input` is 4 for anti-Stokes, 5 for Stokes. -/
def ramanCorrected (s : State) (p input gain : Nat) (r : RoundSettings) (code : Int) : Int :=
  let k := correctionOf r input
  sat 18 (rhu ((16 * sat 14 code - k.offset) * gainFactor s p input gain k.gainPpm) 20)

end Sys2Proof.Machine
end

