-- ==== Sys2Proof/Machine/Stroke.lean ====
section
/-! DEFINITION. The Stroke (chapter 07): compression settings, polarisation combining, phase and amplitude, the trace
store, the temporal unwrap, re-baselines, and POINT_UNWRAP. -/

namespace Sys2Proof.Machine

/-- Tap count of slot `k` (R189). -/
def slotTaps (s : State) (p k : Nat) : Nat := bankTaps s (portBank s p) p (portSlots s p) k

/-- Largest tap count of the port: `port[p].comp_taps` (R210). -/
def portTaps (s : State) (p : Nat) : Nat := ((List.range (portSlots s p)).map (slotTaps s p)).foldl Nat.max 0

/-- T of R181: `port[p].comp_block`. -/
def portBlock (s : State) (p : Nat) : Nat := Nat.max 64 (2 ^ ceilLog2 (portTaps s p))

/-- Stroke latency Ls in cells (R181). -/
def strokeLatency (s : State) (p : Nat) : Nat := 1024 + 3 * portBlock s p * portSlots s p

/-- S of R190 of a port's largest tap count. -/
def shiftOfTaps (taps : Nat) : Nat := 10 + ceilDiv (ceilLog2 taps) 2

/-- S of R190: 10 + ceil(log2(taps) / 2), `port[p].comp_shift`. -/
def compShift (s : State) (p : Nat) : Nat := shiftOfTaps (portTaps s p)

/-- S of R190 under which a shot runs. -/
def shotShift (s : State) (p : Nat) (t : Shot) : Nat :=
  shiftOfTaps (((List.range t.run.slots).map (bankTaps s (shotBank s p t) p t.run.slots)).foldl Nat.max 0)

/-- Shot of a round. -/
def shotOf (x : PortState) (round : Nat) : Option Shot := x.shots.find? fun t => t.round == round

/-- |z|² of a complex value. -/
def normSq (re im : Int) : Int := re * re + im * im

/-- Magnitude condition of R191 step 1, exactly, on squares: both at least `fade_floor` × 2^amp_shift and
min ≥ max / 4. -/
def combineOk (floor2 : Int) (mx my : Int) : Bool :=
  decide (floor2 ≤ mx) && decide (floor2 ≤ my) && decide (16 * min mx my ≥ max mx my)

/-- arg(yY × conj(yX)) (R191). -/
def crossPhase (xr xi yr yi : Int) : BitVec 16 := argOf (yr * xr + yi * xi) (yi * xr - yr * xi)

/-- Basis and Δ after steps 1, 2 of R191, and REF_VALID after a change of basis. -/
def combineBasis (floor2 : Int) (xr xi yr yi : Int) (e : TraceEntry) : TraceEntry :=
  let mx := normSq xr xi
  let my := normSq yr yi
  let e1 :=
    if e.basis == 3 then e
    else if combineOk floor2 mx my then { e with pold := crossPhase xr xi yr yi, basis := 3 }
    else { e with basis := if my ≤ mx then 1 else 2 }
  if e1.basis == e.basis then e1 else { e1 with refValid := false }

/-- z of R191 step 3 before saturation: one polarisation, or yX + yY × e^(−jΔ). -/
def combineSum (xr xi yr yi : Int) (e : TraceEntry) : Int × Int :=
  if e.basis == 1 then (xr, xi)
  else if e.basis == 2 then (yr, yi)
  else (xr + Config.cordicRotateRe yr yi e.pold, xi + Config.cordicRotateIm yr yi e.pold)

/-- Step 4 of R191: Δ follows with `pol_track_shift` in basis 3; the new Δ applies from the slot's next shot. [DEDUCED, notes/assumptions/31] -/
def combineTrack (floor2 : Int) (shift : Nat) (xr xi yr yi : Int) (e : TraceEntry) : TraceEntry :=
  if e.basis == 3 && combineOk floor2 (normSq xr xi) (normSq yr yi) then
    let d := (crossPhase xr xi yr yi - e.pold).toInt
    { e with pold := BitVec.ofInt 16 ((e.pold.toNat : Int) + rhu d shift) }
  else e

/-- What the unwrap needs of a raw point (R195). -/
structure UnwrapIn where
  slots : Nat
  gap : Bool
  lost : Bool
  blot : Bool
  ovr : Bool
  gainStep : Bool
  fade : Bool
  hold : Bool
  phase : BitVec 16
  amp : BitVec 16
  trackShift : Nat
  deriving DecidableEq, Repr

/-- What the unwrap gives: the entry written and the point word (R195, R198, R199). -/
structure UnwrapOut where
  entry : TraceEntry
  word : BitVec 48
  deriving DecidableEq, Repr

/-- The quality byte of R199. [DEDUCED, notes/assumptions/31] -/
def qualityByte (discont held lost blot ovr fade gainStep slotInit : Bool) : BitVec 8 :=
  BitVec.ofNat 8 (bits [slotInit, gainStep, fade, ovr, blot, lost, held, discont])

/-- The point word of R198. -/
def pointWord (phase : BitVec 24) (amp : BitVec 16) (q : BitVec 8) : BitVec 48 := phase ++ amp ++ q

/-- The unwrap stage (R195): `pr` is the entry that the previous round wrote, `e` this slot's entry. -/
def unwrapPoint (u : UnwrapIn) (pr e : TraceEntry) : UnwrapOut :=
  let pend := pr.pend || u.gap
  let init := !u.hold && !e.refValid
  let e1 : TraceEntry :=
    if init then { e with ref := ((u.phase - pr.unw.setWidth 16).setWidth 32) <<< 16, refValid := true, ampAvg := u.amp } else e
  if u.hold || init then
    let run := if pr.holdRun == 0xFFFF#16 then pr.holdRun else pr.holdRun + 1
    { entry := { e1 with unw := pr.unw, pend := true, holdRun := run },
      word := pointWord (pr.unw.setWidth 24) u.amp (qualityByte false true u.lost u.blot u.ovr u.fade u.gainStep init) }
  else
    let d : Int := (u.phase - (e1.ref >>> 16).setWidth 16 - pr.unw.setWidth 16).toInt
    let unw := pr.unw + BitVec.ofInt 32 d
    let ref := if 1 < u.slots then e1.ref + BitVec.ofInt 32 (rhu (d * 65536) u.trackShift) else e1.ref
    let avg := if u.fade then e1.ampAvg
      else e1.ampAvg + BitVec.ofInt 16 (rhu ((u.amp.toNat : Int) - e1.ampAvg.toNat) 8)
    { entry := { e1 with unw := unw, ref := ref, ampAvg := avg, pend := false, holdRun := 0 },
      word := pointWord (unw.setWidth 24) u.amp (qualityByte pend false u.lost u.blot u.ovr u.fade u.gainStep false) }

/-- Entry (k, i) of a port as it is stored, key i × N + k. [DESIGN CHOICE, notes/assumptions/108] -/
def traceRead (x : PortState) (n k i : Nat) : TraceEntry := Store.read (fun _ => {}) x.trace (i * n + k)

/-- What a stale entry reads as (R194). -/
def freshEntry : TraceEntry := { pend := true }

/-- An entry of an old reference generation: its slot fields read as 0 and PEND as 1 (R194). -/
def staleSlot (e : TraceEntry) : TraceEntry := { e with ref := 0, pold := 0, ampAvg := 0, basis := 0, refValid := false, pend := true }

/-- Entry (k, i) as a shot with generations `gen` and `rgen` reads it (R194). -/
def traceView (x : PortState) (gen rgen : BitVec 4) (n k i : Nat) : TraceEntry :=
  let e := traceRead x n k i
  if e.gen != gen || (x.traceSwept && e == {}) then freshEntry
  else if e.rgen != rgen then staleSlot e
  else e

/-- Store entry (k, i) with the generations of its shot (R194). -/
def traceWrite (x : PortState) (r : RoundSettings) (k i : Nat) (e : TraceEntry) : PortState :=
  { x with trace := Store.write (fun _ => {}) x.trace (i * r.slots + k) { e with gen := r.gen, rgen := r.rgen } }

/-- Sample time of cell `c` of a shot, in ticks of 1.25 ns (R200). -/
def sampleTick (fire origin c : Nat) : Nat := fire + 2 * (origin + c)

/-- Does a gain step fall between the sample times of cell `c` in the previous round and in this one (R200)? [DEDUCED, notes/assumptions/107; DESIGN CHOICE, notes/assumptions/118] -/
def gainStepAt (x : PortState) (origin c : Nat) (t : Shot) : Bool :=
  match shotOf x ((t.round + 2 ^ 32 - 1) % 2 ^ 32) with
  | some u => x.gainStepTicks.any fun k => decide (sampleTick u.fireTick origin c < k) && decide (k ≤ sampleTick t.fireTick origin c)
  | none => false

/-- Points, FADE points and HELD points of one second (R210). [DESIGN CHOICE, notes/assumptions/120] -/
def secondPpm (n points : Nat) : Nat := if points = 0 then 0 else n * 1000000 / points

/-- Close the second that has ended by tick `now`: the whole second before the running one counts (R210). [DESIGN CHOICE, notes/assumptions/120] -/
def rollStats (now : Nat) (x : PortState) : PortState :=
  let sec := now / secTicks 1
  if x.secFrom = sec then x
  else
    let last := x.secFrom + 1 = sec
    { x with
      fadePpm := if last then secondPpm x.secFade x.secPoints else 0, heldPpm := if last then secondPpm x.secHeld x.secPoints else 0,
      secPoints := 0, secFade := 0, secHeld := 0, secFrom := sec }

/-- Quality statistics of a point word for `fade_ppm`, `held_ppm` over each second (R210). [DEDUCED, notes/assumptions/75; DESIGN CHOICE, notes/assumptions/120] -/
def pointStats (now : Nat) (q : BitVec 8) (x : PortState) : PortState :=
  let x := rollStats now x
  { x with secPoints := x.secPoints + 1, secFade := x.secFade + bit (q.getLsbD 2), secHeld := x.secHeld + bit (q.getLsbD 6) }

/-- Count `n` saturations of port `p` (R180, R211) and post STROKE_SAT at most once per second (R212). -/
def strokeSat (p n : Nat) (s : State) : State :=
  if n = 0 then s
  else
    let s := bumpBy n (portId p Pid.portStrokeSatCount) 0 s
    let (hit, r) := rateHit s.ticks n 0 (portOf s p).satRate
    let s := onPort p (fun x => { x with satSeen := true, satRate := r }) s
    match hit with
    | some (m, _) => post 0x1007 p m 0 s
    | none => s

/-- Is the point held by its masked samples (R186)? -/
def maskHold (pct taps n : Nat) (r : Received) : Bool :=
  decide (0 < r.core) || decide (ceilDiv (taps * n * pct) 100 ≤ r.support)

/-- The entry after combining, z after saturation, and how many of its components saturated (R191). [DEDUCED, notes/assumptions/31] -/
def combinePoint (run : RoundSettings) (polShift : Nat) (r : Received) (e : TraceEntry) : TraceEntry × Int × Int × Nat :=
  let lim : Int := run.fadeFloor * 2 ^ run.ampShift
  let floor2 := lim * lim
  let e1 := combineBasis floor2 r.x.1 r.x.2 r.y.1 r.y.2 e
  let z := combineSum r.x.1 r.x.2 r.y.1 r.y.2 e1
  (combineTrack floor2 polShift r.x.1 r.x.2 r.y.1 r.y.2 e1, sat 25 z.1, sat 25 z.2, satCount 25 z)

/-- Phase of z (R192). -/
def pointPhase (re im : Int) : BitVec 16 := if re = 0 ∧ im = 0 then 0 else argOf re im

/-- Amplitude of z (R192). -/
def pointAmp (shift : Nat) (re im : Int) : BitVec 16 :=
  if re = 0 ∧ im = 0 then 0 else BitVec.ofInt 16 (min 0xFFFF (rhu (magnitudeOf re im : Nat) (shift + 4)))

/-- FADE (R203): below the floor, or below `fade_pct` of the running average while REF_VALID is set. [DEDUCED, notes/assumptions/31] -/
def pointFade (run : RoundSettings) (a : BitVec 16) (e : TraceEntry) : Bool :=
  decide (a.toNat < run.fadeFloor) || (e.refValid && decide (a.toNat * 100 < e.ampAvg.toNat * run.fadePct))

/-- Everything the Stroke does with one raw point of a shot (R180 to R203): the entry written, the word and the saturations counted.
The shot's round settings and its bank hold throughout (R15); a lost shot's amplitude is 0 (R201). [DESIGN CHOICE, notes/assumptions/121] -/
def strokePoint (s : State) (pt : RawPoint) (t : Shot) : UnwrapOut × Nat :=
  let p := pt.port.val
  let x := portOf s p
  let b := shotBank s p t
  let run := t.run
  let r := receivePoint s pt t (shotShift s p t)
  let view := traceView x run.gen run.rgen run.slots
  let (e, re, im, zs) := combinePoint run (bankPort b p Pid.portPolTrackShift 0) r (view t.slot pt.index)
  let a := if t.lost then 0 else pointAmp run.ampShift re im
  let fade := pointFade run a e
  let masked := maskHold (bankPort b p Pid.portMaskHoldPct 0) (bankTaps s b p run.slots t.slot) run.slots r
  let u : UnwrapIn := {
    slots := run.slots, gap := t.gap, lost := t.lost, blot := r.blot, ovr := r.ovr,
    gainStep := gainStepAt x (bankPort b p Pid.portOriginCells 0) (pt.index * run.slots) t, fade := fade,
    hold := t.lost || masked || (fade && run.fadeHold),
    phase := pointPhase re im, amp := a, trackShift := bankPort b p Pid.portSlotTrackShift 0 }
  (unwrapPoint u (view ((t.slot + run.slots - 1) % run.slots) pt.index) e, r.sats + zs)

/-- Key of a point word in the port's store. [DESIGN CHOICE, notes/assumptions/108] -/
def wordKey (round cell : Nat) : Nat := round % 512 * 262144 + cell

/-- Hand a point word to the Herder (R198) with its statistics and the DISCONT count (R210). [DEDUCED, notes/assumptions/75] -/
def strokeEmit (pt : RawPoint) (t : Shot) (o : UnwrapOut) (s : State) : State :=
  let p := pt.port.val
  let q := o.word.setWidth 8
  let s := onPort p (fun x => pointStats s.ticks q { (traceWrite x t.run t.slot pt.index o.entry) with
    words := Store.put x.words (wordKey pt.round (pt.index * t.run.slots)) o.word }) s
  if q.getLsbD 7 then bump (portId p Pid.portDiscontCount) 0 s else s

/-- POINT_UNWRAP (R180 to R203): the raw point of a fired shot whose round the port still knows. [DEDUCED, notes/assumptions/75] -/
def pointUnwrap (pt : RawPoint) (s : State) : State :=
  match shotOf (portOf s pt.port) pt.round with
  | some t =>
    if t.fired && decide (pt.index * t.run.slots < bankPort (shotBank s pt.port t) pt.port Pid.portTraceCells 0) then
      let r := strokePoint s pt t
      strokeSat pt.port r.2 (strokeEmit pt t r.1 s)
    else s
  | none => s

/-- POINT_UNWRAP. -/
def execPointUnwrap (pt : RawPoint) (s : State) : Host.Outcome State Fault Refusal := .next (pointUnwrap pt s)

/-- The sweep that a generation's change starts (R194): entries of older generations are rewritten with what they read as, fresh ones
as the store's unlisted entries now read. -/
def sweepTrace (x : PortState) : PortState :=
  let kept := x.trace.filter fun e => e.2.gen == x.gen
  { x with
    traceSwept := true, trace := Store.update (fun _ => {}) (fun e => if e.rgen == x.rgen then e else { (staleSlot e) with rgen := x.rgen }) kept }

/-- Re-baseline port `p` (R204): kind 0 FULL, 1 REF. The entries that an earlier change made stale are swept by now (R194). -/
def rebaseline (p kind cause : Nat) (s : State) : State :=
  let f (x : PortState) : PortState :=
    let x := { (sweepTrace x) with rebased := true }
    if kind = 0 then { x with gen := x.gen + 1 } else { x with rgen := x.rgen + 1 }
  post 0x1006 p kind cause (bump (portId p Pid.portRebaselines) 0 (onPort p f s))

/-- A shot of port `p` is lost (R201). [DESIGN CHOICE, notes/assumptions/119] -/
def markLost (p round : Nat) (s : State) : State :=
  bump (portId p Pid.portLostShots) 0
    (onPort p (fun x => { x with
      lostSeen := true, shots := x.shots.map fun t => if t.round = round then { t with lost := true, window := false } else t }) s)

end Sys2Proof.Machine
end

