-- ==== Sys2Proof/Machine/Herder.lean ====
section
/-! DEFINITION. The Herder's work round by round (R217 to R236): dispatch, what each recipe computes from point words,
frames and GAP markers, features for the Pointer, and the ring feed. -/

namespace Sys2Proof.Machine

/-- Bytes of one output point (R217). -/
def pointWidth (b : Bank) (lib : Store Program) (z : Nat) : Nat :=
  match zoneNat b Pid.zoneRecipe z with
  | 0 => 6
  | 1 => 4
  | 2 => 3 * zoneNat b Pid.zoneBandCount z + 1
  | 3 => zoneNat b Pid.zoneSpectrumLen z + 2
  | 4 => 3
  | 5 => 3
  | _ => ((programOf lib (zoneNat b Pid.zoneProgram z)).map (·.outBytes)).getD 0

/-- Fields of an output point that become elements (R335): offset, width and sign, in element order. -/
def pointFields (b : Bank) (lib : Store Program) (z : Nat) : List (Nat × Nat × Bool) :=
  match zoneNat b Pid.zoneRecipe z with
  | 0 => [(3, 3, false), (1, 2, false), (0, 1, false)]
  | 1 => [(0, 3, true), (3, 1, false)]
  | 2 => ((List.range (zoneNat b Pid.zoneBandCount z)).map fun k => (3 * k, 3, false)) ++
      [(3 * zoneNat b Pid.zoneBandCount z, 1, false)]
  | 3 => ((List.range (zoneNat b Pid.zoneSpectrumLen z / 2)).map fun k => (2 * k, 2, false)) ++
      [(zoneNat b Pid.zoneSpectrumLen z, 1, false)]
  | 4 => [(0, 2, false), (2, 1, false)]
  | 5 => [(0, 2, true), (2, 1, false)]
  | _ => (List.range (ceilDiv (pointWidth b lib z) 3)).map fun e => (3 * e, 3, false)

/-- Output interval E in processed rounds (R217, R249). -/
def outputInterval (b : Bank) (lib : Store Program) (z : Nat) : Nat :=
  match zoneNat b Pid.zoneRecipe z with
  | 2 | 4 => zoneNat b Pid.zoneIntegrateRounds z
  | 3 => zoneNat b Pid.zoneSpectrumLen z / 2
  | 6 => max 1 (((programOf lib (zoneNat b Pid.zoneProgram z)).map (·.interval)).getD 1)
  | _ => 1

/-- Granted rate divider of a zone in the plan in force. -/
def grantedDiv (s : State) (z : Nat) : Nat := max 1 (((grantOf (planInForce s (zonePort z)) z).map (·.div)).getD 1)

/-- Is the output of a processed round due (R249)? -/
def outputDue (b : Bank) (lib : Store Program) (z d round : Nat) : Bool :=
  let e := outputInterval b lib z
  zoneNat b Pid.zoneRecipe z == 5 || round / d % e == e - 1

/-- Slices of a zone's processed round (R220). -/
def zoneSlices (b : Bank) (z d : Nat) : Nat :=
  if zoneNat b Pid.zoneRecipe z = 5 then ceilDiv (zonePoints b z) 256 else d

/-- Points of slice `i` as a range start and count (R220). -/
def sliceRange (b : Bank) (z slices i : Nat) : Nat × Nat :=
  let per := ceilDiv (zonePoints b z) slices
  (i * per, min per (zonePoints b z - i * per))

/-- Does a recipe use the gauge point as well (R206, R250)? -/
def usesGauge (b : Bank) (lib : Store Program) (z : Nat) : Bool :=
  match zoneNat b Pid.zoneRecipe z with
  | 1 | 2 | 3 => true
  | 6 => ((programOf lib (zoneNat b Pid.zoneProgram z)).map fun g => g.flags.getLsbD 1).getD false
  | _ => false

/-- Rounds from a shot's round to the round start that takes its slice 0 (R19): the first later than the hand-off of
the last point used, Ls after its sample. -/
def dispatchDelay (s : State) (b : Bank) (z : Nat) : Nat :=
  let p := zonePort z
  let last := zoneNat b Pid.zoneLastCell z + (if usesGauge b s.serif.library z then zoneNat b Pid.zoneGaugeCells z else 0)
  let cells := portNat s p Pid.portOriginCells 0 + last + strokeLatency s p
  cells * portSlots s p / max 1 (portPeriod s p) + 1

/-- A point word of a round (R198); rounds and cells without one read 0. -/
def wordAt (s : State) (p round cell : Nat) : BitVec 48 := Store.read (fun _ => 0) (portOf s p).words (wordKey round cell)

/-- BLOT, OVR, GAIN_STEP and DISCONT of a quality byte in the order of the frame flags (R231). -/
def frameBits (q : BitVec 8) : BitVec 4 :=
  BitVec.ofNat 4 (bits [q.getLsbD 4, q.getLsbD 3, q.getLsbD 1, q.getLsbD 7])

/-- OR of quality bytes. -/
def orAll (qs : List (BitVec 8)) : BitVec 8 := qs.foldl (· ||| ·) 0

/-- Combine a feature into those of the output (R251): on equal values MAX and MIN keep the lower cell. Mode 3 is the bin index that
belongs to F0 of SPECTRUM (R217): it is taken with the F0 that stands. -/
def featPush (f : FeatAcc) (fs : List FeatAcc) : List FeatAcc :=
  match fs with
  | [] => [f]
  | g :: t =>
    if g.index ≠ f.index then
      (if f.mode = 3 && g.index = 0 && g.cell ≠ f.cell then g :: t else g :: featPush f t)
    else if f.mode = 3 then f :: t
    else
      let better : Bool :=
        match f.mode with
        | 0 => decide (g.value < f.value) || (g.value == f.value && decide (f.cell < g.cell))
        | 1 => decide (f.value < g.value) || (g.value == f.value && decide (f.cell < g.cell))
        | _ => false
      if f.mode = 2 then { g with value := g.value + f.value } :: t
      else if better then f :: t else g :: t

/-- Absolute value as a lane computes it: 24 bits, saturating (R252). -/
def abs24 (v : Int) : Int := sat 24 (if v < 0 then -v else v)

/-- What a recipe makes of one point in one processed round: output bytes, features, and the zone's state. -/
structure PointOut where
  out : List Byte := []
  feats : List FeatAcc := []
  zone : ZoneState

/-- RAW_PHASE (R217). [DEDUCED, notes/assumptions/30] -/
def rawPoint (x : ZoneState) (j c : Nat) (w : BitVec 48) : PointOut :=
  let ph := (phaseElem w).toInt
  let d := signed 24 (unsigned 24 (ph - Store.read (fun _ => 0) x.hist j))
  { out := leBytes 6 w.toNat, feats := [⟨0, 0, abs24 d, c⟩], zone := { x with hist := Store.write (fun _ => 0) x.hist j ph } }

/-- STRAIN_RATE (R206, R207, R217): the temporal difference of D; the quality is that of the two words of the round. [DEDUCED, notes/assumptions/30] -/
def strainPoint (x : ZoneState) (j c : Nat) (w g : BitVec 48) : PointOut :=
  let d := signed 24 (unsigned 24 ((phaseElem g).toInt - (phaseElem w).toInt))
  let v := signed 24 (unsigned 24 (d - Store.read (fun _ => 0) x.hist j))
  { out := leInt 3 v ++ leBytes 1 ((w ||| g).toNat % 256), feats := [⟨0, 0, abs24 v, c⟩, ⟨1, 2, abs24 v, 0⟩],
    zone := { x with hist := Store.write (fun _ => 0) x.hist j d } }

/-- The mean amplitude of a point over `n` processed rounds, rounded half up (R217, R252), and the interval restarts. -/
def amplitudeOut (x : ZoneState) (n j c : Nat) : PointOut :=
  let mean := rhuDiv (Store.read (fun _ => 0) x.hist j) (n : Nat)
  { out := leBytes 2 mean.toNat ++ leBytes 1 (Store.read (fun _ => 0#8) x.qual j).toNat, feats := [⟨0, 1, mean, c⟩, ⟨1, 2, mean, 0⟩],
    zone := { x with hist := Store.write (fun _ => 0) x.hist j 0, qual := Store.write (fun _ => 0) x.qual j 0 } }

/-- AMPLITUDE (R217): the sum over the rounds gathered, and its mean when the output is due. [DEDUCED, notes/assumptions/30] -/
def amplitudePoint (x : ZoneState) (due : Bool) (j c : Nat) (w : BitVec 48) : PointOut :=
  let x := { x with
    hist := Store.write (fun _ => 0) x.hist j (Store.read (fun _ => 0) x.hist j + (w.extractLsb' 8 16).toNat),
    qual := Store.write (fun _ => 0) x.qual j (Store.read (fun _ => 0#8) x.qual j ||| w.setWidth 8) }
  if due then amplitudeOut x (x.gathered + 1) j c else { zone := x }

/-- A strain rate, and the zone after it. -/
structure Strain where
  v : Int
  zone : ZoneState

/-- The strain rate of a round at point `j` (R206, R207), its history moved on and its words' quality gathered. [DESIGN CHOICE, notes/assumptions/143] -/
def strainStep (x : ZoneState) (j : Nat) (w g : BitVec 48) : Strain :=
  let d := signed 24 (unsigned 24 ((phaseElem g).toInt - (phaseElem w).toInt))
  { v := signed 24 (unsigned 24 (d - Store.read (fun _ => 0) x.hist j)),
    zone := { x with
      hist := Store.write (fun _ => 0) x.hist j d,
      qual := Store.write (fun _ => 0) x.qual j (Store.read (fun _ => 0#8) x.qual j ||| (w ||| g).setWidth 8) } }

/-- The mean square of each band over `n` processed rounds with the quality of every word used (R217), and the interval restarts. [DESIGN CHOICE, notes/assumptions/29] -/
def bandOut (bands : Nat) (x : ZoneState) (n j c : Nat) : PointOut :=
  let e (k : Nat) : Int := min (2 ^ 24 - 1) (rhuDiv (Store.read (fun _ => 0) x.energy (j * 8 + k)) (256 * n : Nat))
  { out := ((List.range bands).flatMap fun k => leInt 3 (e k)) ++ leBytes 1 (Store.read (fun _ => 0#8) x.qual j).toNat,
    feats := (List.range bands).map fun k => ⟨k, 0, e k, c⟩,
    zone := { x with
      energy := (List.range bands).foldl (fun m k => Store.write (fun _ => 0) m (j * 8 + k) 0) x.energy,
      qual := Store.write (fun _ => 0) x.qual j 0 } }

/-- BAND_ENERGY (R217, R218): each band filters the strain rate and sums its output's square. [DESIGN CHOICE, notes/assumptions/143] -/
def bandPoint (b : Bank) (z d : Nat) (r : PortRun) (x : ZoneState) (due : Bool) (j c : Nat) (w g : BitVec 48) : PointOut :=
  let bands := zoneNat b Pid.zoneBandCount z
  let st := strainStep x j w g
  let x := (List.range bands).foldl (fun x k =>
    let (m, y) := Config.bandFilter
      [zoneNat b Pid.zoneBandLoHz (idx2 z k), zoneNat b Pid.zoneBandHiHz (idx2 z k), r.slots, r.period, d] (Store.read (fun _ => 0) x.filters (j * 8 + k)) st.v
    { x with
      filters := Store.write (fun _ => 0) x.filters (j * 8 + k) m,
      energy := Store.write (fun _ => 0) x.energy (j * 8 + k) (Store.read (fun _ => 0) x.energy (j * 8 + k) + y * y) }) st.zone
  if due then bandOut bands x (x.gathered + 1) j c else { zone := x }

/-- The F/2 bins of a point with the quality of every word used since the last hop (R217). [DESIGN CHOICE, notes/assumptions/29] -/
def spectrumOut (f : Nat) (x : ZoneState) (j c : Nat) : PointOut :=
  let bins := (List.range (f / 2)).map fun k => (Config.spectrumBin f (Store.read (fun _ => []) x.samples j) k).toNat
  let top := bins.foldl Nat.max 0
  { out := (bins.flatMap (leBytes 2)) ++ leBytes 1 (Store.read (fun _ => 0#8) x.qual j).toNat ++ [0],
    feats := [⟨0, 0, (top : Nat), c⟩, ⟨1, 3, (bins.idxOf top : Nat), c⟩],
    zone := { x with qual := Store.write (fun _ => 0) x.qual j 0 } }

/-- SPECTRUM (R217): the strain rates of the last F processed rounds, and a transform every F/2. [DESIGN CHOICE, notes/assumptions/143] -/
def spectrumPoint (f : Nat) (x : ZoneState) (due : Bool) (j c : Nat) (w g : BitVec 48) : PointOut :=
  let st := strainStep x j w g
  let x := { st.zone with
    samples := Store.write (fun _ => []) st.zone.samples j ((st.v :: Store.read (fun _ => []) st.zone.samples j).take f) }
  if due then spectrumOut f x j c else { zone := x }

/-- λ(j) of R296 in units of 2^−20. -/
def lossCorrection (b : Bank) (p j : Nat) : Int :=
  let ref : Int := (zoneNat b Pid.ramanRefFirst p + 2 ^ zoneNat b Pid.ramanRefCellsLog2 p / 2 : Nat)
  let delta := rhuDiv (bankRead b Pid.thermalDiffLossMdbKm p * 3 * 2 ^ 36 * 1000000)
    (2 * 4342945 * (bankPort b p Pid.portGroupIndex 0 : Nat))
  let steps := (List.range 16).map fun k =>
    ((bankRead b Pid.thermalStepCell (idx2 p k)),
      rhuDiv (bankRead b Pid.thermalStepMdb (idx2 p k) * 1000 * 2 ^ 20) 4342945)
  let plus := (steps.filter fun s => decide (ref < s.1) && decide (s.1 ≤ (j : Int))).map (·.2)
  let minus := (steps.filter fun s => decide ((j : Int) < s.1) && decide (s.1 ≤ ref)).map (·.2)
  rhu (delta * ((j : Int) - ref)) 16 + plus.sum - minus.sum

/-- What a THERMAL point outputs when it has no valid temperature (R297). -/
def noTemperature : Int := -32768

/-- THERMAL (R294 to R298): the entry of DTS cell c / 4 of the port's hand-off buffer. [DEDUCED, notes/assumptions/30; DEDUCED, notes/assumptions/144] -/
def thermalPoint (b : Bank) (p : Nat) (r : Raman) (x : ZoneState) (j c : Nat) : PointOut :=
  let h := r.header
  let e := Store.read (fun _ => ⟨0, 0, 0⟩) r.handoff (c / 4)
  let low := decide (e.stv < bankRead b Pid.ramanStFloor p) || decide (e.asv ≤ 0)
  let xv := lnRatio e.asv e.stv - h.lnRef + lossCorrection b p (c / 4)
  let gamma := bankRead b Pid.thermalGammaMk p
  let cold := decide (2 ^ 20 * gamma * 102400 ≤ xv * (100 * h.tRef + 27315 * 1024) * 1000)
  let masked := e.quality.getLsbD 4 || e.quality.getLsbD 3
  let held := low || cold || r.handoffHeld || (masked && bankRead b Pid.ramanMaskHold p != 0)
  let t := sat 16 (thermalCenti h.tRef gamma xv ((List.range 6).map fun k => bankRead b Pid.thermalCoef (idx2 p k)))
  let v := if held then Store.read (fun _ => noTemperature) x.hist j else t
  let extrap := !held && (decide (t < bankRead b Pid.thermalMinC p) || decide (bankRead b Pid.thermalMaxC p < t))
  let q := bits [extrap, h.flags.getLsbD 1, low, e.quality.getLsbD 3, e.quality.getLsbD 4, h.flags.getLsbD 5, held, h.flags.getLsbD 7]
  let invalid := held || h.flags.getLsbD 1 || h.flags.getLsbD 5
  { out := leInt 2 v ++ leBytes 1 q, feats := [⟨0, 0, v, c⟩, ⟨1, 1, if invalid then -32768 else v, c⟩, ⟨2, 2, v, 0⟩],
    zone := { x with
      hist := if invalid then x.hist else Store.write (fun _ => noTemperature) x.hist j v,
      heldRuns := Store.write (fun _ => 0) x.heldRuns j (if held then min 65535 (Store.read (fun _ => 0) x.heldRuns j + 1) else 0) } }

/-- Work of one point: `word` gives the round's point words by cell, `d` is the rate divider. [DEDUCED, notes/assumptions/30] -/
def recipePoint (s : State) (b : Bank) (z d : Nat) (word : Nat → BitVec 48) (due : Bool) (acc : ZoneState) (j : Nat) : ZoneState :=
  let p := zonePort z
  let c := zoneNat b Pid.zoneFirstCell z + j * zoneNat b Pid.zonePitchCells z
  let w := word c
  let g := word (c + zoneNat b Pid.zoneGaugeCells z)
  let recipe := zoneNat b Pid.zoneRecipe z
  let o : PointOut :=
    match recipe with
    | 0 => rawPoint acc j c w
    | 1 => strainPoint acc j c w g
    | 2 => bandPoint b z d (portRun b (flowMode s == .sentinel) p) acc due j c w g
    | 3 => spectrumPoint (zoneNat b Pid.zoneSpectrumLen z) acc due j c w g
    | 4 => amplitudePoint acc due j c w
    | 5 => thermalPoint b p (ramanOf s p) acc j c
    | _ => { zone := acc }
  let flags : BitVec 4 :=
    if recipe = 5 then (frameBits ((Store.read (fun _ => ⟨0, 0, 0⟩) (ramanOf s p).handoff (c / 4)).quality &&& 0x18#8)) &&& 0x3#4
    else frameBits ((if usesGauge b s.serif.library z then w ||| g else w).setWidth 8)
  { o.zone with
    out := o.zone.out ++ o.out, feats := o.feats.foldl (fun fs f => featPush f fs) o.zone.feats,
    flags := o.zone.flags ||| flags,
    marks := Store.write (fun _ => 0) o.zone.marks j (Store.read (fun _ => 0#4) o.zone.marks j ||| flags) }

/-- Results that the pieces of a USER slice left, in point order (R251). -/
def userResults (s : State) (z round slice : Nat) : List PieceResult :=
  (s.serif.results.filter fun r => r.zone == z && r.round == round && r.slice == slice).insertionSort
    fun a b => a.first ≤ b.first

/-- A slice's points: the built-in recipes from point words, USER from its pieces. [DESIGN CHOICE, notes/assumptions/29] -/
def sliceWork (b : Bank) (d : Nat) (r : SliceResult) (slices : Nat) (due : Bool) (s : State) : State :=
  let z := r.zone.val
  let (j0, n) := sliceRange b z slices r.slice
  let x := (List.range n).foldl (fun acc j => recipePoint s b z d (wordAt s (zonePort z) r.round) due acc (j0 + j)) (zoneOf s z)
  let rs := userResults s z r.round r.slice
  let x : ZoneState :=
    match zoneNat b Pid.zoneRecipe z with
    | 6 => { x with
        out := x.out ++ rs.flatMap (·.output),
        feats := rs.foldl (fun fs p => p.features.foldl (fun fs f => featPush ⟨f.index, f.mode, f.value, f.cell⟩ fs) fs) x.feats }
    | _ => x
  let left := s.serif.results.filter fun p => !(p.zone == z && p.round == r.round && p.slice == r.slice)
  onZone z (fun _ => x) { s with serif := { s.serif with results := left } }

/-- The low byte of a frame's flags that does not depend on the output (R231): HOLDOVER and DEGRADED. [DESIGN CHOICE, notes/assumptions/36] -/
def frameFlags (x : ZoneState) (holdover : Bool) : Nat := x.flags.toNat + 16 * bit x.degraded + 128 * bit holdover

/-- A frame's header with its CRC and payload (R230). -/
def frameBytes (port recipe zone flags seq : Nat) (time : NetTime) (round cell count pitch epoch : Nat) (payload : List Byte) :
    List Byte :=
  let h := leBytes 2 1 ++ leBytes 1 port ++ leBytes 1 recipe ++ leBytes 2 zone ++ leBytes 2 flags ++ leBytes 6 seq ++
    leBytes 6 time.sec ++ leBytes 4 time.ns ++ leBytes 4 round ++ leBytes 4 cell ++ leBytes 2 count ++ leBytes 2 pitch ++
    leBytes 4 payload.length ++ leBytes 4 epoch
  h ++ leBytes 4 (crc32c (h ++ payload)).toNat ++ payload

/-- Stage one frame of a zone: it takes the next frame sequence whether or not its queue drops it (R230, R433). -/
def sendFrame (b : Bank) (z flags : Nat) (time : NetTime) (round cell count epoch : Nat) (payload : List Byte) (s : State) :
    State :=
  let bytes := frameBytes (zonePort z) (zoneNat b Pid.zoneRecipe z) z flags (zoneOf s z).frameSeq.toNat time round cell count
    (zoneNat b Pid.zonePitchCells z) epoch payload
  let s := onZone z (fun x => { x with
    frameSeq := x.frameSeq + 1,
    sentFrames := (x.frameSeq.toNat, netNs time) ::
      x.sentFrames.filter fun f => decide (netNs time < f.2 + 4200 * 1000000000) }) s
  stageItem (zoneNat b Pid.zoneQueue z) 0 bytes (if hasBit flags 6 then s else bump Pid.zoneFrames z s)

/-- Cut a payload at point boundaries into parts of at most 65,536 bytes, with each part's first point (R230). -/
def splitPayload (fuel width first : Nat) (payload : List Byte) : List (Nat × List Byte) :=
  match fuel with
  | 0 => []
  | fuel + 1 =>
    if payload.isEmpty then []
    else
      let pts := 65536 / max width 1
      (first, payload.take (pts * width)) :: splitPayload fuel width (first + pts) (payload.drop (pts * width))

/-- Elements of an uncompressed payload (R335). -/
def payloadElems (fields : List (Nat × Nat × Bool)) (width : Nat) (payload : List Byte) : List Elem :=
  (List.range (payload.length / max width 1)).flatMap fun i =>
    fields.map fun (off, w, sx) =>
      let v := field payload (i * width + off) w
      if sx then BitVec.ofInt 24 (signed (8 * w) v) else BitVec.ofNat 24 v

/-- A frame stream (R334, R343): blocks of floor(4,096 / s) points. -/
def frameStream (fields : List (Nat × Nat × Bool)) (width z round : Nat) (holdover selfCheck : Bool) (payload : List Byte) :
    List Encoded :=
  let stride := fields.length
  let xs := payloadElems fields width payload
  encodeStream (xs.length + 1) 2 stride z round (4096 / max stride 1) 0 0 holdover selfCheck [] xs

/-- Count the blocks of a frame or copy stream: stream 8 or 9 of R364. [DESIGN CHOICE, notes/assumptions/27] -/
def countStream (stream : Nat) (es : List Encoded) (selfCheck : Bool) (s : State) : State :=
  (es.zipIdx).foldl (fun s (e, i) => countBlock stream i e (selfCheck && i == 0) s) s

/-- Send one part of an output as a frame, compressed where the zone says so (R232). [DEDUCED, notes/assumptions/20] -/
def sendPart (b : Bank) (z flags : Nat) (t : Shot) (selfCheck : Bool) (first : Nat) (part : List Byte) (s : State) : State :=
  let lib := s.serif.library
  let width := pointWidth b lib z
  let cell := zoneNat b Pid.zoneFirstCell z + first * zoneNat b Pid.zonePitchCells z
  let count := part.length / max width 1
  if bankRead b Pid.zoneCompress z != 0 then
    let es := frameStream (pointFields b lib z) width z t.round t.holdover selfCheck part
    sendFrame b z (flags + 256) t.time t.round cell count t.epoch (es.flatMap (·.bytes)) (countStream 8 es selfCheck s)
  else sendFrame b z flags t.time t.round cell count t.epoch part s

/-- Every sequencer learns of a GAP marker of zone `z` (R309). [DESIGN CHOICE, notes/assumptions/36] -/
def gapToPointer (z round ns : Nat) (s : State) : State :=
  { s with pointer := { s.pointer with inbox := s.pointer.inbox.map fun i => { i with gaps := Store.put i.gaps z (round, ns) } } }

/-- The GAP marker that waits, before the zone's next frame (R233). [DESIGN CHOICE, notes/assumptions/36] -/
def sendGap (b : Bank) (z : Nat) (t : Shot) (s : State) : State :=
  let x := zoneOf s z
  match x.gap with
  | none => s
  | some (lost, cause) =>
    let (round, time) := x.gapFirst.getD (t.round, t.time)
    let s := onZone z (fun x => { x with gap := none, gapFirst := none }) s
    let s := sendFrame b z (64 + 16 * bit x.degraded) time round (zoneNat b Pid.zoneFirstCell z) 0 t.epoch
      (leBytes 4 (min lost (2 ^ 32 - 1)) ++ leBytes 1 cause ++ leBytes 3 0) s
    gapToPointer z round (netNs time) s

/-- Note a gap: two causes met before the same frame are summed under the lower code (R233). [DESIGN CHOICE, notes/assumptions/36; DESIGN CHOICE, notes/assumptions/141] -/
def noteGap (z lost cause : Nat) (s : State) : State :=
  onZone z (fun x => { x with
    gap := some (match x.gap with | some (n, c) => (n + lost, min c cause) | none => (lost, cause)), gapFirst := none }) s

/-- Hand a feature to the Pointer (R229, R310). -/
def featureToPointer (f : Feature) (s : State) : State :=
  let k := f.zone * 8 + f.index
  { s with pointer := { s.pointer with
    inbox := s.pointer.inbox.map fun i => { i with features := Store.put i.features k f },
    level := Store.put s.pointer.level k f } }

/-- Features of a completed output (R229, R251): SUM divides by the zone's points and carries its first cell. -/
def sendFeatures (b : Bank) (z flags : Nat) (t : Shot) (fs : List FeatAcc) (s : State) : State :=
  if bankRead b Pid.zoneFeatures z == 0 then s
  else
    forEach fs (fun f s =>
      let v := if f.mode = 2 then sat 32 (rhuDiv f.value (zonePoints b z : Nat)) else f.value
      featureToPointer {
        zone := z, index := f.index, quality := BitVec.ofNat 8 flags, value := v,
        cell := if f.mode = 2 then zoneNat b Pid.zoneFirstCell z else f.cell, round := t.round, time := t.time } s) s

/-- Flags [3:0] of `n` points from the first (R231): of every word that the values of a part used. [DEDUCED, notes/assumptions/142] -/
def partMarks (x : ZoneState) (first n : Nat) : BitVec 4 :=
  (List.range n).foldl (fun m j => m ||| Store.read (fun _ => 0#4) x.marks (first + j)) 0

/-- The output in progress becomes frames and features (R217, R229 to R235). -/
def emitOutput (b : Bank) (z : Nat) (t : Shot) (cut selfCheck : Bool) (s : State) : State :=
  let x := zoneOf s z
  let flags := frameFlags x t.holdover
  let s := sendGap b z t s
  let width := pointWidth b s.serif.library z
  let parts := splitPayload (x.out.length + 1) width 0 x.out
  let s := (parts.zipIdx).foldl (fun s (p, i) =>
    let own := frameFlags { x with flags := partMarks x p.1 (p.2.length / max width 1) } t.holdover
    sendPart b z (own + 512 * bit (x.edge || cut)) t (selfCheck && i == 0) p.1 p.2 s) s
  let s := sendFeatures b z flags t x.feats s
  onZone z (fun y => { y with
    out := [], feats := [], flags := 0, marks := [], gathered := 0, edge := false, lastOut := some t.round }) s

/-- Zones of port `p` that feed the ring (R236). -/
def feedingZones (s : State) (b : Bank) (p : Nat) : List Nat :=
  (enabledZones b).filter fun z => zonePort z == p && bankRead b Pid.zoneRing z != 0 && zoneNat b Pid.zoneRecipe z != 5 && !(zoneOf s z).idle

/-- Rounds from a shot's round to the round start by which its feed is complete for every zone of the port: a port's blocks are written
in round order (R19, R21). [DESIGN CHOICE, notes/assumptions/28] -/
def feedDelay (s : State) (b : Bank) (p : Nat) : Nat := ((feedingZones s b p).map (dispatchDelay s b)).foldl Nat.max 0

/-- Write zone `z`'s feed of a shot's round to the ring unless it stands there already (R236). [DESIGN CHOICE, notes/assumptions/28] -/
def feedZone (b : Bank) (z : Nat) (t : Shot) (selfCheck : Bool) (s : State) : State :=
  let p := zonePort z
  let done := ((zoneOf s z).fed.map fun k => decide ((t.round + 2 ^ 32 - k) % 2 ^ 32 = 0 ∨ 2 ^ 31 ≤ (t.round + 2 ^ 32 - k) % 2 ^ 32)).getD false
  if done || !ringAvailable s || bankRead b Pid.zoneRing z == 0 || bankRead b Pid.zoneEnable z == 0 ||
      zoneNat b Pid.zoneRecipe z == 5 || (zoneOf s z).idle || !t.fired then s
  else
    let cells := feedCells b s.serif.library z
    ringFeed (cells.length + 1) p z 0 0 t (cells.map fun c => wordAt s p t.round c) selfCheck
      (onZone z (fun x => { x with fed := some t.round }) s)

/-- The shot under which a zone's round ran: a THERMAL zone's round is its trace's (R299). -/
def workShot (s : State) (z round epoch : Nat) : Option Shot :=
  match shotOf (portOf s (zonePort z)) round with
  | some t => some t
  | none =>
    let r := ramanOf s (zonePort z)
    if r.header.round = round then
      some { round := round, slot := 0, period := 0, seq := round, fireTick := s.ticks, time := r.header.time, fired := true,
             epoch := epoch, holdover := s.time.holdover }
    else none

/-- One slice of a processed round is done (R220): its points, the feed with slice 0, and with the last slice the round
and, when due, the output. -/
def sliceDone (w : WorkItem) (r : SliceResult) (s : State) : State :=
  let z := r.zone.val
  match workShot s z w.round w.epoch with
  | none => s
  | some t =>
    let b := bankOfEpoch s (zonePort z) w.epoch
    let due := outputDue b s.serif.library z w.div w.round
    let s := onZone z (fun x => if x.gap.isSome && x.gapFirst.isNone then { x with gapFirst := some (w.round, t.time) } else x) s
    let s := sliceWork b w.div r w.slices due s
    let s := if w.slice = 0 && dispatchDelay s b z == feedDelay s b (zonePort z) then feedZone b z t r.selfCheckFails s else s
    if w.slice + 1 < w.slices then s
    else
    let s := onZone z (fun x => { x with covered := some t }) s
    if due then emitOutput b z t false r.selfCheckFails s
    else onZone z (fun x => { x with gathered := x.gathered + 1, out := [], feats := [] }) s

/-- A slice of a processed round that a miss or an error has dropped (R221): its recipe's state moves on, its output is dropped. [DEDUCED, notes/assumptions/142] -/
def missedSlice (w : WorkItem) (r : SliceResult) (s : State) : State :=
  let z := r.zone.val
  let b := bankOfEpoch s (zonePort z) w.epoch
  let due := outputDue b s.serif.library z w.div w.round
  onZone z (fun x => { x with
    out := [], feats := [], gathered := if due then 0 else x.gathered, flags := if due then 0 else x.flags, marks := if due then [] else x.marks }) (sliceWork b w.div r w.slices due s)

/-- What a point of an open window outputs over the processed rounds gathered so far (R217, R234). [DESIGN CHOICE, notes/assumptions/29] -/
def windowOut (b : Bank) (z : Nat) (x : ZoneState) (j : Nat) : PointOut :=
  let c := zoneNat b Pid.zoneFirstCell z + j * zoneNat b Pid.zonePitchCells z
  match zoneNat b Pid.zoneRecipe z with
  | 2 => bandOut (zoneNat b Pid.zoneBandCount z) x x.gathered j c
  | 3 => spectrumOut (zoneNat b Pid.zoneSpectrumLen z) x j c
  | 4 => amplitudeOut x x.gathered j c
  | _ => { zone := x }

/-- Close a zone's open window with EDGE (R230, R234, R235): over the processed rounds it has gathered, the last of which is the last
round covered. What a USER program holds is its own, so its points are free values. [DESIGN CHOICE, notes/assumptions/29; DESIGN CHOICE, notes/assumptions/141] -/
def closeWindow (b : Bank) (z : Nat) (t : Shot) (s : State) : State :=
  let x := zoneOf s z
  let n := zonePoints b z
  if x.gathered = 0 then s
  else
    let t := x.covered.getD t
    let x := (List.range n).foldl (fun x j =>
      let o := windowOut b z x j
      { o.zone with out := o.zone.out ++ o.out, feats := o.feats.foldl (fun fs f => featPush f fs) o.zone.feats }) { x with out := [], feats := [] }
    if zoneNat b Pid.zoneRecipe z = 6 then
      let out := leBytes (n * pointWidth b s.serif.library z) (Config.freeValue s.free)
      emitOutput b z t true false (onZone z (fun _ => { x with out := out, hist := [], qual := [] }) (drawFree s).2)
    else emitOutput b z t true false (onZone z (fun _ => x) s)

/-- The last frame of a service that a switch ended (R234): its open window closes with EDGE, and a GAP marker that it leaves waits for the
zone's next frame. [DESIGN CHOICE, notes/assumptions/141] -/
def endService (z : Nat) (l : Leaving) (s : State) : State :=
  let close (s : State) : State :=
    match (portOf s (zonePort z)).shots.head? with
    | some t => closeWindow (bankOfEpoch s (zonePort z) l.epoch) z t s
    | none => s
  let s := inService z l.epoch close s
  let gap := (leavingState s z l.epoch).bind fun e => e.2.gap
  let s := { s with herder := { s.herder with leaving := Store.erase s.herder.leaving z } }
  let s := if l.state.isSome then forgetWhere (fun d => d.zone == z && d.epoch == l.epoch) s else s
  match gap with
  | some (n, c) => noteGap z n c s
  | none => s

/-- Is all the work of the rounds before the switch dispatched at the start of round `now`, and done (R220, R234)? [DESIGN CHOICE, notes/assumptions/141] -/
def serviceOver (s : State) (z now : Nat) (l : Leaving) : Bool :=
  let final := l.last - l.last % l.div + l.delay + l.div - 1
  !(s.herder.work.any fun w => w.zone == z && w.epoch == l.epoch) &&
  if zoneNat (bankOfEpoch s (zonePort z) l.epoch) Pid.zoneRecipe z = 5 then
    ((leavingState s z l.epoch).map fun e => e.2.thermalNext.isNone).getD true
  else decide ((now + 2 ^ 32 - final % 2 ^ 32) % 2 ^ 32 < 2 ^ 31)

/-- A zone's old service ends when its work is done (R234). [DESIGN CHOICE, notes/assumptions/141] -/
def settleService (now z : Nat) (s : State) : State :=
  match Store.get? s.herder.leaving z with
  | some l => if serviceOver s z now l then endService z l s else s
  | none => s

/-- SLICE_COMPLETE (R220): the last piece of a dispatched slice completes. [DESIGN CHOICE, notes/assumptions/28] -/
def sliceComplete (r : SliceResult) (s : State) : State :=
  match s.herder.work.find? fun w => w.zone == r.zone.val && w.round == r.round && w.slice == r.slice with
  | some w =>
    let s := { s with herder := { s.herder with work := s.herder.work.erase w } }
    let s := inService r.zone w.epoch
      (fun s => if (zoneOf s r.zone).missed == some w.round then missedSlice w r s else sliceDone w r s) s
    settleService (((portOf s (zonePort r.zone)).shots.head?.map (·.round)).getD 0) r.zone s
  | none => s

/-- SLICE_COMPLETE. -/
def execSliceComplete (r : SliceResult) (s : State) : Host.Outcome State Fault Refusal := .next (sliceComplete r s)

/-- The piece of a USER zone's slice on its lane (R249, R250). [DEDUCED, notes/assumptions/72] -/
def userPiece (s : State) (b : Bank) (w : WorkItem) (g : Program) (pl : Placement) : Piece :=
  let z := w.zone
  let p := zonePort z
  let (j0, n) := sliceRange b z w.slices w.slice
  let take := min pl.take (n - pl.first)
  let d := w.div
  let pitch := zoneNat b Pid.zonePitchCells z
  let first := zoneNat b Pid.zoneFirstCell z + (j0 + pl.first) * pitch
  let pair := g.flags.getLsbD 1
  { zone := z, port := p, slots := portSlots s p, points := take, firstPoint := j0 + pl.first, firstCell := first, pitch := pitch,
    gauge := zoneNat b Pid.zoneGaugeCells z, rateDiv := d, slice := w.slice, slices := w.slices, round := w.round,
    histBase := if pl.resident then pl.hist + w.slice * pl.take * g.history else if 2048 < g.history then pl.hist else 0x3100,
    histLen := take * g.history, emit := outputDue b s.serif.library z d w.round,
    paged := !pl.resident && decide (g.history ≤ 2048), own := !pl.resident && decide (2048 < g.history), wide := false,
    constants := slice g.constants 0 256,
    hist := (List.range (take * g.history)).map fun i =>
      Store.read (fun _ => 0) (zoneOf s z).userHist ((j0 + pl.first) * g.history + i),
    input := (List.range take).flatMap fun i =>
      let c := first + i * pitch
      wordAt s p w.round c :: (if pair then [wordAt s p w.round (c + zoneNat b Pid.zoneGaugeCells z)] else []),
    epoch := w.epoch, budget := 64 + g.k * take, expected := take * g.outBytes }

/-- Give a slice's pieces to their lanes, where the zone runs a USER program (R226, R245): the first starts on an idle lane, the
others when the one before them ends. [DEDUCED, notes/assumptions/72] -/
def startPieces (b : Bank) (pieces : List Placement) (w : WorkItem) (s : State) : State :=
  match zoneNat b Pid.zoneRecipe w.zone, programOf s.serif.library (zoneNat b Pid.zoneProgram w.zone) with
  | 6, some g =>
    forEach (pieces.filter fun x => x.zone == w.zone) (fun pl s =>
      let d := userPiece s b w g pl
      if d.points = 0 then s
      else onLane pl.lane (fun l => if l.piece.isSome then { l with next := l.next ++ [d] } else laneStart l d l.next) s) s
  | _, _ => s

/-- Dispatch one slice (R220). [DEDUCED, notes/assumptions/72] -/
def dispatchSlice (b : Bank) (pieces : List Placement) (w : WorkItem) (s : State) : State :=
  startPieces b pieces w { s with herder := { s.herder with
    work := s.herder.work ++ [w], dispatched := Store.put s.herder.dispatched w.zone w.round } }

/-- Dispatch of zone `z` in its service under bank `b`, of divider `d`, at the start of round `now` (R19, R220): slice i of the processed
round that lies `delay` and i rounds back, or the next slice of a trace that has been handed off (R299); a round held dark, or of another epoch, has no work. [DESIGN CHOICE, notes/assumptions/141] -/
def dispatchService (b : Bank) (d delay : Nat) (pieces : List Placement) (now z : Nat) (s : State) : State :=
  let p := zonePort z
  let due := (now + 1) % 2 ^ 32
  if zoneNat b Pid.zoneRecipe z = 5 then
    match (zoneOf s z).thermalNext with
    | some (round, i) =>
      if s.ticks ≤ (ramanOf s p).handoffTick then s else
      let n := ceilDiv (zonePoints b z) 256
      let s := onZone z (fun x => { x with thermalNext := if i + 1 < n then some (round, i + 1) else none }) s
      dispatchSlice b pieces { zone := z, round := round, slice := i, slices := n, dueRound := due, epoch := (ramanOf s p).header.epoch, div := d } s
    | none => s
  else
    let back := (now + 2 ^ 32 - delay) % 2 ^ 32
    let i := back % d
    let round := (back + 2 ^ 32 - i) % 2 ^ 32
    match shotOf (portOf s p) round with
    | some t =>
      if t.fired && t.epoch == b.epoch then
        dispatchSlice b pieces { zone := z, round := round, slice := i, slices := d, dueRound := due, epoch := t.epoch, div := d } s
      else s
    | none => s

/-- Dispatch of zone `z` at the start of round `now` (R19, R220). [DEDUCED, notes/assumptions/72] -/
def dispatchZone (now z : Nat) (s : State) : State :=
  let b := portBank s (zonePort z)
  if zoneServed s z then dispatchService b (grantedDiv s z) (dispatchDelay s b z) (planInForce s (zonePort z)).pieces now z s else s

/-- The remaining slices of the rounds before a switch, under the old definitions (R234). A THERMAL zone that the switch left alone is
dispatched with the others. [DESIGN CHOICE, notes/assumptions/141] -/
def dispatchLeaving (now p : Nat) (s : State) : State :=
  forEach (s.herder.leaving.filter fun e => zonePort e.1 == p) (fun (z, l) s =>
    let b := bankOfEpoch s p l.epoch
    let s := if b.epoch != l.epoch || (l.state.isNone && zoneNat b Pid.zoneRecipe z == 5) then s
      else inService z l.epoch (dispatchService b l.div l.delay l.pieces now z) s
    settleService now z s) s

/-- Ring feeds of the rounds whose slice 0 lay in the round that ends at the start of round `now`, where no slice has
written them, under the bank of each round (R19, R234, R236). [DESIGN CHOICE, notes/assumptions/28] -/
def feedRound (now p : Nat) (s : State) : State :=
  let b := portBank s p
  let delay := feedDelay s b p
  let age (t : Shot) : Nat := (now + 2 ^ 32 - t.round) % 2 ^ 32
  let due := ((portOf s p).shots.filter fun t => age t == delay + 1 || (t.epoch != b.epoch && decide (delay < age t))).reverse
  forEach due (fun t s =>
    let b := bankOfEpoch s p t.epoch
    if b.epoch == t.epoch then forEach (feedingZones s b p) (fun z s => feedZone b z t false s) s else s) s

/-- A dark round of port `p` (R182): each zone of point words counts it if it is a processed round; one that SENTINEL idles counts it
under that cause (R81, R233). [DEDUCED, notes/assumptions/73] -/
def darkRound (p round : Nat) (s : State) : State :=
  forEach ((enabledZones (portBank s p)).filter fun z => zonePort z == p) (fun z s =>
    let x := zoneOf s z
    if zoneNat (portBank s p) Pid.zoneRecipe z = 5 || x.idle then s
    else noteGap z (bit (round % grantedDiv s z == 0 && !x.suspended)) 5 s) s

/-- Zones of port `p` that SENTINEL idles count the processed rounds they lose, by their divider in RUN (R81, R233). [DESIGN CHOICE, notes/assumptions/141] -/
def countIdle (p round : Nat) (s : State) : State :=
  forEach ((enabledZones (portBank s p)).filter fun z => zonePort z == p && (zoneOf s z).idle && !(zoneOf s z).suspended &&
      round % max 1 (((grantOf s.herder.run z).map (·.div)).getD 1) == 0)
    (fun z s => noteGap z 1 6 s) s

/-- After an interval without firing, one marker precedes the next frame of each zone of the port that has output before (R205, R233,
R506); a THERMAL zone's only where its accumulation waited (R280). [DESIGN CHOICE, notes/assumptions/141] -/
def gapAtFire (p : Nat) (s : State) : State :=
  forEach ((enabledZones (portBank s p)).filter fun z => zonePort z == p && !(zoneOf s z).idle && (zoneOf s z).lastOut.isSome &&
      (zoneNat (portBank s p) Pid.zoneRecipe z != 5 || (ramanOf s p).paused))
    (fun z s => noteGap z 0 5 s) s

end Sys2Proof.Machine
end

