-- ==== Sys2Proof/Machine/Raman.lean ====
section
/-! DEFINITION. The Raman accumulator (R273 to R283), RTD measurements (R284 to R289) and the housekeeping converter
(R290 to R293). -/

namespace Sys2Proof.Machine

/-- Number of DTS cells of a port: floor(trace_cells / 4). -/
def dtsCells (s : State) (p : Nat) : Nat := portNat s p Pid.portTraceCells 0 / 4

/-- Configuration an accumulation latches at its first launch (R163, R280). -/
def ramanCfgNow (s : State) (p : Nat) : RamanCfg :=
  { shotsLog2 := (portCfg s p Pid.ramanShotsLog2 p).toNat, originCells := (portCfg s p Pid.ramanOriginCells p).toNat,
    darkCells := (portCfg s p Pid.ramanDarkCells p).toNat, traceCells := portNat s p Pid.portTraceCells 0,
    asGain := portNat s p Pid.portRamanAsGain 0, stGain := portNat s p Pid.portRamanStGain 0 }

/-- One Raman launch of port `p` at a shot (R275): an accumulation starts at the first. The 2^m-th launch is followed by
DTS_TRACE_COMPLETE; until then no further launch is counted. -/
def ramanLaunch (p : Nat) (t : Shot) (s : State) : State :=
  let x := ramanOf s p
  if x.running && decide (2 ^ x.cfg.shotsLog2 ≤ x.shots) then s
  else
    let started : Raman :=
      if x.running then x
      else { x with
        running := true, cfg := ramanCfgNow s p, shots := 0, masks := [], acc := [], darkAs := 0, darkSt := 0, darkMasked := false, paused := false, resumed := false,
        firstTime := t.time, firstTick := t.fireTick }
    let s := onRaman p (fun _ => { started with
      shots := started.shots + 1, lastRound := t.round, lastTime := t.time, launchOpen := true,
      lastTick := t.fireTick, launchTick := t.fireTick + portNat s p Pid.portRamtrgOffsetTicks 0, sentinelCount := 0 }) s
    if x.running then s
    else
      let jobs := s.calib.jobs.map fun j => if j.item = 4 ∧ j.index = p then { j with armed := true } else j
      onCal (fun c => { c with jobs := jobs }) (onPort p (fun y => { y with
        ramanGain := #v[started.cfg.asGain, started.cfg.stGain] }) s)

/-- A launch whose RAMTRGp pulse is suppressed after all is not counted (R156, R157). -/
def ramanUnlaunch (p : Nat) (s : State) : State :=
  onRaman p (fun x => { x with
    running := x.running && decide (1 < x.shots), shots := if x.launchOpen then x.shots - 1 else x.shots, launchOpen := false }) s

/-- Tick at which Raman base cell `c` of the latest launch is sampled (R273). -/
def ramanCellTick (x : Raman) (c : Int) : Nat := ((x.launchTick : Int) + 2 * (x.cfg.originCells + c)).toNat

/-- What the Raman inputs converted at base cell `c`; nothing outside what the launch brings. [DESIGN CHOICE, notes/assumptions/123] -/
def RamanCodes.code (r : RamanCodes) (c : Int) : Int × Int :=
  if c < r.first then (0, 0) else r.codes.getD (c - r.first).toNat (0, 0)

/-- Mask bits of the Raman samples at base cell `c` (R172, R276). -/
def ramanMaskOf (s : State) (p : Nat) (t : Shot) (codes : RamanCodes) (c : Int) : Bool × Bool :=
  ramanMaskAt s p (ramanCellTick (ramanOf s p) c) t (codes.code c)

/-- Corrected anti-Stokes and Stokes samples at base cell `c`, at the gains of the accumulation (R163, R274). -/
def ramanSample (s : State) (p : Nat) (t : Shot) (codes : RamanCodes) (c : Int) : Int × Int :=
  let x := ramanOf s p
  let r := runAt (portOf s p) (ramanCellTick x c) t
  let v := codes.code c
  (ramanCorrected s p 4 x.cfg.asGain r v.1, ramanCorrected s p 5 x.cfg.stGain r v.2)

/-- Add the boxcar of DTS cell `j` to its cell: a masked one adds 0 and sets the cell's mask bits (R274, R276). -/
def addBoxcar (s : State) (p : Nat) (t : Shot) (codes : RamanCodes) (x : Raman) (j : Nat) : Raman :=
  let cs := (List.range 4).map fun i => ((4 * j + i : Nat) : Int)
  let ms := cs.map (ramanMaskOf s p t codes)
  let m : BitVec 8 := BitVec.ofNat 8 (16 * bit (ms.any (·.1)) + 8 * bit (ms.any (·.2)))
  if m = 0 then
    let v := sumPairs (cs.map (ramanSample s p t codes))
    let a := Store.read (fun _ => (0, 0)) x.acc j
    { x with acc := Store.write (fun _ => (0, 0)) x.acc j (a.1 + v.1, a.2 + v.2) }
  else { x with masks := Store.put x.masks j (Store.read (fun _ => 0#8) x.masks j ||| m), maskSeen := true }

/-- DTS cells of the accumulation that a launch's samples reach. -/
def reachedCells (x : Raman) (codes : RamanCodes) : List Nat :=
  let lo := (max codes.first 0 / 4).toNat
  let hi := ((max 0 (codes.first + codes.codes.length)) / 4).toNat
  (List.range (min (hi + 1) (x.cfg.traceCells / 4) - lo)).map (lo + ·)

/-- Accumulate the samples of the latest launch (R274 to R277): boxcars into the cells, and the dark samples before base cell 0. [DEDUCED, notes/assumptions/76] -/
def ramanAccumulate (p : Nat) (codes : RamanCodes) (s : State) : State :=
  let x := ramanOf s p
  match shotOf (portOf s p) x.lastRound with
  | some t =>
    if !x.launchOpen then s
    else
      let reached := reachedCells x codes
      let darks := (List.range x.cfg.darkCells).map fun (i : Nat) => -1 - (i : Int)
      let d := sumPairs (darks.map (ramanSample s p t codes))
      let darkHit := darks.any fun c => let m := ramanMaskOf s p t codes c; m.1 || m.2
      let hit := reached.any fun j => (List.range 4).any fun i =>
        let m := ramanMaskOf s p t codes ((4 * j + i : Nat) : Int)
        m.1 || m.2
      let y := reached.foldl (addBoxcar s p t codes) x
      let s1 := onRaman p (fun _ => { y with
        darkAs := y.darkAs + d.1, darkSt := y.darkSt + d.2, darkMasked := y.darkMasked || darkHit, launchOpen := false }) s
      if hit then bump Pid.ramanMaskedShots p s1 else s1
  | none => onRaman p (fun x => { x with launchOpen := false }) s

/-- Discard the accumulation in progress (R280): DTS_DISCARDED with its cause, 1 DORMANT, 2 disabled, 3 reset or FAULT. [DEDUCED, notes/assumptions/40] -/
def ramanDiscard (p cause : Nat) (s : State) : State :=
  let x := ramanOf s p
  if x.running then
    post 0x1402 p cause x.shots (onRaman p (fun x => { x with
      running := false, shots := 0, masks := [], acc := [], launchOpen := false, paused := false, resumed := false }) s)
  else s

/-- Dark value of a channel (R277). -/
def darkValue (c : RamanCfg) (sum : Int) : Int := rhu (64 * sum) (c.shotsLog2 + Nat.log2 c.darkCells)

/-- Boxcar value of a DTS cell after dark subtraction (R278). -/
def cellValue (c : RamanCfg) (acc dark : Int) : Int := sat 24 (rhu acc (c.shotsLog2 - 4) - dark)

/-- T_ref of a trace in 2^−10 °C (R282): the mean of the valid results between the first and final shot, else the newest
valid one that is no older than three periods. [DEDUCED, notes/assumptions/40] -/
def referenceTemp (s : State) (k : Nat) (x : Raman) : Option Int :=
  let r := vecRead s.rtd k {}
  let inside := (r.history.filter fun h => decide (x.firstTick ≤ h.1) && decide (h.1 ≤ x.lastTick)).map (·.2)
  if !inside.isEmpty then some (rhuDiv (inside.sum * 1024) (1000 * inside.length : Nat))
  else
    match r.validMc with
    | some t => if x.lastTick ≤ r.validTick + msTicks (3 * paramNat s Pid.rtdPeriodMs k) then some (rhuDiv (t * 1024) 1000) else none
    | none => none

/-- The trace header (R282, R283), whether it carries REF_OLD, and the rejected ln R_ref to log. [DEDUCED, notes/assumptions/144] -/
def traceHeader (s : State) (p : Nat) (x : Raman) (cells : Store DtsCell) : TraceHeader × Option (Int × Int) × Option Int :=
  let first := (portCfg s p Pid.ramanRefFirst p).toNat
  let r := (portCfg s p Pid.ramanRefCellsLog2 p).toNat
  let ref := (List.range (2 ^ r)).map fun i => Store.read (fun _ => ⟨0, 0, 0⟩) cells (first + i)
  let mAs := rhu (ref.map (·.asv)).sum r
  let mSt := rhu (ref.map (·.stv)).sum r
  let ln := lnRatio mAs mSt
  let t := referenceTemp s (portCfg s p Pid.ramanRefRtd p).toNat x
  let weak := decide (mSt ≤ portCfg s p Pid.ramanStFloor p)
  let wide := !weak && (decide (mAs ≤ 0) || decide (2996 * 2 ^ 20 < (ln * 1000).natAbs))
  let jump := !weak && !wide && (x.lastRef.map fun l => decide (2 * 2 ^ 20 < ((ln - l.1) * 100).natAbs)).getD false
  let old := t.isNone || ref.any (fun c => c.quality != 0) || weak || wide || jump
  let flags : BitVec 8 := BitVec.ofNat 8 (2 * bit old + 32 * bit x.paused + 128 * bit x.resumed)
  let (ln2, t2) := if old then x.lastRef.getD (0, 0) else (ln, t.getD 0)
  ({ tRef := t2, lnRef := ln2, flags := flags, round := x.lastRound, time := x.lastTime, epoch := (portBank s p).epoch },
    if old then x.lastRef else some (ln2, t2), if wide || jump then some ln else none)

/-- Without Scribe, hardware supplies the previous header with REF_OLD set (R283). [DEDUCED, notes/assumptions/144] -/
def staleHeader (s : State) (p : Nat) (x : Raman) : TraceHeader × Option (Int × Int) × Option Int :=
  ({ x.header with flags := x.header.flags ||| 0x02#8, round := x.lastRound, time := x.lastTime, epoch := (portBank s p).epoch },
    x.lastRef, none)

/-- DTS cells that the port's THERMAL zone points use (R278). -/
def thermalCells (b : Bank) (p : Nat) : List Nat :=
  ((enabledZones b).filter fun z => zonePort z == p && zoneNat b Pid.zoneRecipe z == 5).flatMap fun z =>
    (List.range (zonePoints b z)).map fun j => (zoneNat b Pid.zoneFirstCell z + j * zoneNat b Pid.zonePitchCells z) / 4

/-- CAL_POINT of item 4 at a completed trace (R530): the means of x and of T with b00 = b10 = 0 over its cells, in a
slot. -/
def fitPoint (p : Nat) (j : PointJob) (s : State) : State :=
  let b := portBank s p
  let x := ramanOf s p
  let cs := (List.range (j.last + 1 - j.first)).map (j.first + ·)
  let value (c : Nat) : Int × Int :=
    let e := Store.read (fun _ => ⟨0, 0, 0⟩) x.handoff c
    let xv := lnRatio e.asv e.stv - x.header.lnRef + lossCorrection b p c
    (xv, thermalCenti x.header.tRef (bankRead b Pid.thermalGammaMk p) xv
      ((List.range 6).map fun k => if k < 2 then 0 else bankRead b Pid.thermalCoef (idx2 p k)))
  let vs := cs.map value
  let n : Int := cs.length
  let s := onItem 4 p (fun i => { i with
    points := Store.put i.points j.slot (j.given, rhuDiv (vs.map (·.1)).sum n, rhuDiv (vs.map (·.2)).sum n) }) s
  let s := onCal (fun c => { c with jobs := c.jobs.filter fun k => !(k.item == 4 && k.index == p) }) s
  journalEnd j.journal .done 0 0 (journalStep j.journal s)

/-- What the final shot of a trace gives (R277, R278, R282): the dark values of both channels, whether they were masked or too
big, the dark pair in use, the cells handed off and the header. -/
structure TraceFacts where
  dark : Int × Int
  masked : Bool
  tooBig : Bool
  used : Option (Int × Int)
  cells : Store DtsCell
  header : TraceHeader
  lastRef : Option (Int × Int)
  rejected : Option Int
  deriving DecidableEq, Repr

/-- Cells of a trace that are handed off: those of THERMAL zones, the reference coil and a CAL_POINT that waits (R278). -/
def tracedCells (s : State) (p : Nat) : List Nat :=
  thermalCells (portBank s p) p ++
  (List.range (2 ^ (portCfg s p Pid.ramanRefCellsLog2 p).toNat)).map ((portCfg s p Pid.ramanRefFirst p).toNat + ·) ++
  (s.calib.jobs.filter fun j => j.item == 4 && j.index == p).flatMap fun j => (List.range (j.last + 1 - j.first)).map (j.first + ·)

/-- The facts of a trace that completes. [DEDUCED, notes/assumptions/40] -/
def traceFacts (s : State) (p : Nat) : TraceFacts :=
  let x := ramanOf s p
  let da := darkValue x.cfg x.darkAs
  let ds := darkValue x.cfg x.darkSt
  let lim : Nat := (portCfg s p Pid.ramanDarkLimit p).toNat
  let masked := x.darkMasked
  let tooBig := decide (lim < da.natAbs) || decide (lim < ds.natAbs)
  let used := if masked || tooBig then x.dark else some (da, ds)
  let (ua, us) := used.getD (0, 0)
  let entry (c : Nat) : DtsCell :=
    let a := Store.read (fun _ => (0, 0)) x.acc c
    ⟨cellValue x.cfg a.1 ua, cellValue x.cfg a.2 us, Store.read (fun _ => 0#8) x.masks c⟩
  let hand : Store DtsCell := (tracedCells s p).foldl (fun m c => Store.put m c (entry c)) []
  let (h, last, rej) := if s.scribe.restarting then staleHeader s p x else traceHeader s p x hand
  ⟨(da, ds), masked, tooBig, used, hand, h, last, rej⟩

/-- The accumulator after a trace (R278 to R283). [DEDUCED, notes/assumptions/144] -/
def traceAfter (f : TraceFacts) (x : Raman) : Raman := { x with
  running := false, shots := 0, masks := [], acc := [], darkMasked := false, launchOpen := false, paused := false, resumed := false,
  dark := f.used, handoff := f.cells, handoffHeld := f.used.isNone,
  handoffTick := ramanCellTick x (4 * (x.cfg.traceCells / 4 : Nat) + 47) + usTicks 50, header := f.header, lastRef := f.lastRef,
  refOld := f.header.flags.getLsbD 1, darkStaleSeen := x.darkStaleSeen || f.masked || f.tooBig, traceCount := x.traceCount + 1 }

/-- The dark value and the reference ratio as calibration values (R277, R282, R523): accepted, or rejected and counted. -/
def traceCal (p : Nat) (f : TraceFacts) (s : State) : State :=
  let lim : Nat := (portCfg s p Pid.ramanDarkLimit p).toNat
  let s := if f.masked || f.tooBig then bump Pid.ramanDarkStale p s else calAccept 6 p [f.dark.1, f.dark.2] s
  let s := if f.header.flags.getLsbD 1 then s else calAccept 7 p [f.header.lnRef, f.header.tRef] s
  let s := if f.tooBig && !f.masked then calReject 6 p 0 (if lim < f.dark.1.natAbs then f.dark.1 else f.dark.2) s else s
  match f.rejected with
  | some v => calReject 7 p 0 v s
  | none => s

/-- THERMAL work of a completed trace is due for each zone of the port that serves it (R220, R299). [DEDUCED, notes/assumptions/76] -/
def thermalDue (p : Nat) (h : TraceHeader) (s : State) : State :=
  forEach ((enabledZones (portBank s p)).filter fun z => zonePort z == p && zoneNat (portBank s p) Pid.zoneRecipe z == 5) (fun z s =>
    if zoneServed s z && (ramanOf s p).traceCount % grantedDiv s z == 0 then
      onZone z (fun y => { y with thermalNext := some (h.round, 0) }) s
    else s) s

/-- RTD results that a trace in progress may still use (R282): those since its first launch. -/
def rtdKept (s : State) (hist : List (Nat × Int)) : List (Nat × Int) :=
  hist.filter fun h => s.raman.any fun x => x.running && decide (x.firstTick ≤ h.1)

/-- A trace is counted and posted (R299, R300), and temperatures that no trace in progress needs are dropped. [DEDUCED, notes/assumptions/40] -/
def traceDone (p : Nat) (f : TraceFacts) (s : State) : State :=
  let s := bump Pid.ramanTraces p (traceCal p f (onRaman p (traceAfter f) s))
  let s := post 0x1401 p (Store.read paramDefault s.params (paramKey Pid.ramanTraces p)) f.header.flags.toNat s
  let s := thermalDue p f.header s
  let s := forEach (s.calib.jobs.filter fun j => j.item == 4 && j.index == p && j.armed) (fitPoint p) s
  { s with rtd := s.rtd.map fun r => { r with history := rtdKept s r.history } }

/-- The samples of the latest launch are in: they are accumulated, and after the 2^m-th launch the trace completes (R275, R278). [DEDUCED, notes/assumptions/76] -/
def ramanClose (p : Nat) (codes : RamanCodes) (s : State) : State :=
  if !(ramanOf s p).launchOpen then s
  else
    let s := ramanAccumulate p codes s
    if 2 ^ (ramanOf s p).cfg.shotsLog2 ≤ (ramanOf s p).shots then traceDone p (traceFacts s p) s else s

/-- DTS_TRACE_COMPLETE (R277 to R283, R299): the final shot's cells are handed off and THERMAL work is due. [DEDUCED, notes/assumptions/40; DEDUCED, notes/assumptions/76] -/
def dtsTraceComplete (p : Nat) (codes : RamanCodes) (s : State) : State :=
  if !(ramanOf s p).running || (ramanOf s p).shots < 2 ^ (ramanOf s p).cfg.shotsLog2 then s
  else ramanClose p codes s

/-- DTS_TRACE_COMPLETE. -/
def execDtsTraceComplete (p : Fin 4) (codes : RamanCodes) (s : State) : Host.Outcome State Fault Refusal :=
  .next (dtsTraceComplete p codes s)

/-- Update RTD channel `k`. -/
def onRtd (k : Nat) (f : Rtd → Rtd) (s : State) : State := { s with rtd := vecUpdate s.rtd k f }

/-- RTD channel `k`. -/
def rtdOf (s : State) (k : Nat) : Rtd := vecRead s.rtd k {}

/-- A channel takes the excitation source (R284). [DEDUCED, notes/assumptions/39] -/
def rtdBegin (k : Nat) (s : State) : State :=
  onRtd k (fun r => { r with running := true, due := false, attempts := 0, written := false }) s

/-- The lowest due channel takes the source when it is free (R289). [DEDUCED, notes/assumptions/39] -/
def rtdNext (s : State) : State :=
  if s.rtd.any (·.running) then s
  else
    match (List.range 8).find? fun k => (rtdOf s k).due with
    | some k => rtdBegin k s
    | none => s

/-- A write of a channel's type or current (R286, R527): the measurement in progress is disturbed, and the points collected for
its calibration are discarded. -/
def rtdWritten (k : Nat) (s : State) : State :=
  onItem 3 k (fun i => { i with points := [] }) (onRtd k (fun x => { x with written := x.written || x.running }) s)

/-- RTD_DUE (R289): an enabled channel is due; the excitation is off in RESET (R33). [DEDUCED, notes/assumptions/39] -/
def rtdDue (k : Nat) (s : State) : State :=
  if paramBool s Pid.rtdEnable k && s.mode.current != .reset then rtdNext (onRtd k (fun r => { r with due := true }) s) else s

/-- RTD_DUE. -/
def execRtdDue (k : Fin 8) (s : State) : Host.Outcome State Fault Refusal := .next (rtdDue k s)

/-- VDDA_HK is in tolerance (R51, R71). -/
def hkRailOk (s : State) : Bool := s.power.railStatus.getLsbD 8

/-- Nominal R0 of a channel in mΩ (R287). -/
def rtdR0 (s : State) (k : Nat) : Nat :=
  let v := paramNat s Pid.rtdR0Mohm k
  if v ≠ 0 then v else if paramNat s Pid.rtdType k = 0 then 100000 else 1000000

/-- R_meas in units of 2^−20 mΩ (R284). -/
def rtdMeasured (s : State) (m : RtdSums) : Int := rhuDiv (paramNat s Pid.rtdRextMohm 0 * m.sensor * 2 ^ 20) m.rext

/-- Calibration gain uQ8.24 and offset in mΩ in force: the fields of item 3 (R288, R523), factory 1.0 and 0. -/
def rtdCal (s : State) (k : Nat) : Int × Int :=
  let f := (calItem s 3 k).inForce
  (f.getD 0 0x01000000, f.getD 1 0)

/-- R in mΩ after gain and offset (R284). [DEDUCED, notes/assumptions/39] -/
def rtdResistance (s : State) (k : Nat) (m : RtdSums) : Int :=
  rhu ((rtdCal s k).1 * rtdMeasured s m) 44 + (rtdCal s k).2

/-- Code of a measurement (R286). [DEDUCED, notes/assumptions/39] -/
def rtdCode (s : State) (k : Nat) (m : RtdSums) : Nat :=
  let ua : Int := paramNat s Pid.rtdCurrent k
  let r := rtdResistance s k m
  let (lo, hi) : Int × Int := if paramNat s Pid.rtdType k = 0 then (18520, 390480) else (185200, 3904800)
  if m.currentPermille < 900 then 2
  else if m.moved || (rtdOf s k).written then 1
  else if !hkRailOk s then 6
  else if m.sensorUv * 1000 < 2000 * ua then 3
  else if m.rext ≤ 0 ∨ r < lo ∨ hi < r then 4
  else 0

/-- RTD_FAULT at most once per second while its code persists (R286). [DEDUCED, notes/assumptions/39] -/
def rtdFault (k code : Nat) (ohms : Int) (s : State) : State :=
  let r := rtdOf s k
  let recent := r.faultCode == code && (r.faultTick.map fun t => decide (s.ticks < t + secTicks 1)).getD false
  let s := onRtd k (fun r => { r with faultSeen := true, valid := false }) s
  if recent then s
  else post 0x1501 k code ohms (onRtd k (fun r => { r with faultTick := some s.ticks, faultCode := code }) s)

/-- CAL_POINT of item 3 (R530): 16 OK measurements in a row; another code restarts the count. -/
def rtdPoint (k : Nat) (ok : Bool) (v : Int) (s : State) : State :=
  match s.calib.jobs.find? fun j => j.item == 3 && j.index == k with
  | none => s
  | some j =>
    let n : PointJob := if ok then { j with sum := j.sum + v, count := j.count + 1 } else { j with sum := 0, count := 0 }
    if 16 ≤ n.count then
      let s := onItem 3 k (fun i => { i with points := Store.put i.points j.slot (j.given, n.sum, 0) }) s
      let s := onCal (fun c => { c with jobs := c.jobs.filter fun i => !(i.item == 3 && i.index == k) }) s
      journalEnd j.journal .done 0 0 (journalStep j.journal s)
    else onCal (fun c => { c with jobs := c.jobs.map fun i => if i.item = 3 ∧ i.index = k then n else i }) s

/-- Ticks at the midpoint of a measurement of channel `k` that ends now (R282, R289): half of its two settlings and its
conversions of 0.5 µs. [DEDUCED, notes/assumptions/39] -/
def rtdMidpoint (s : State) (k : Nat) : Nat :=
  s.ticks - (paramNat s Pid.rtdSettleUs k * 800 + paramNat s Pid.rtdAvg k * 400)

/-- A measurement ends with its code (R286 to R289). [DEDUCED, notes/assumptions/39] -/
def rtdFinish (k code : Nat) (m : Option RtdSums) (s : State) : State :=
  let s := onRtd k (fun r => { r with running := false, last := code }) s
  let v := (m.map (rtdMeasured s)).getD 0
  let s :=
    match code, m with
    | 0, some m =>
      let r := rtdResistance s k m
      let t := cvdTemperature r (rtdR0 s k) (paramGet s Pid.rtdCvdA k) (paramGet s Pid.rtdCvdB k) (paramGet s Pid.rtdCvdC k)
      let good := !watchFailing s 2
      onRtd k (fun x => { x with
        valid := good, resultMc := t, resultMohm := r.toNat, faultTick := none,
        validTick := if good then rtdMidpoint s k else x.validTick, validMc := if good then some t else x.validMc,
        history := rtdKept s (if good then (rtdMidpoint s k, t) :: x.history else x.history) }) s
    | _, _ => rtdFault k code ((m.map (rtdResistance s k)).getD 0xFFFFFFFF) s
  rtdNext (rtdPoint k (code == 0) v s)

/-- RTD_MEASUREMENT_END (R284 to R287): an EXC_CHANGE repeats at once, up to twice. [DEDUCED, notes/assumptions/39] -/
def rtdMeasurementEnd (k : Nat) (m : RtdSums) (s : State) : State :=
  if !(rtdOf s k).running then s
  else
    let code := rtdCode s k m
    if code = 1 then
      let s := bump Pid.rtdExcChanges k s
      if (rtdOf s k).attempts < 2 then onRtd k (fun r => { r with attempts := r.attempts + 1, written := false }) s
      else rtdFinish k 1 (some m) s
    else rtdFinish k code (some m) s

/-- RTD_MEASUREMENT_END. -/
def execRtdMeasurementEnd (k : Fin 8) (m : RtdSums) (s : State) : Host.Outcome State Fault Refusal :=
  .next (rtdMeasurementEnd k m s)

/-- RTD_PULSE_TIMEOUT (R286): the pulse reaches `rtd.max_pulse_ms`. -/
def execRtdPulseTimeout (k : Fin 8) (s : State) : Host.Outcome State Fault Refusal :=
  .next (if (rtdOf s k).running then rtdFinish k 5 none s else s)

/-- A housekeeping result word (R293). -/
def hkWord (s : State) (old : BitVec 32) (late : Bool) (code : Int) : BitVec 32 :=
  let invalid := !hkRailOk s || watchFailing s 0 || watchFailing s 1
  BitVec.ofNat 32 ((old.toNat / 2 ^ 24 + 1) % 256 * 2 ^ 24 + 2 ^ 17 * bit invalid + 2 ^ 16 * bit late + unsigned 16 code)

/-- The Pointer learns of a result of input `i` (R309, R310). [DESIGN CHOICE, notes/assumptions/38] -/
def hkToPointer (i : Nat) (w : BitVec 32) (s : State) : State :=
  { s with pointer := { s.pointer with
    hkLevel := Store.put s.pointer.hkLevel i w, inbox := s.pointer.inbox.map fun x => { x with hk := Store.put x.hk i w } } }

/-- A scan result of input `i`. -/
def hkResult (i : Nat) (code : Int) (s : State) : State :=
  let w := hkWord s (vecRead s.hk.result i 0) false code
  hkToPointer i w { s with hk := { s.hk with result := vecUpdate s.hk.result i fun _ => w } }

/-- Inputs of the scan entries that are not empty (R292). -/
def scanInputs (s : State) : List Nat :=
  ((List.range 16).map fun i => paramNat s Pid.hkScanInput i).filter (· != 0xFF)

/-- HK_SCAN (R292): the scan's mean codes, in entry order. With fewer codes than entries the scan still runs at its next
period, which is counted. [DESIGN CHOICE, notes/assumptions/38] -/
def hkScan (codes : List Int) (s : State) : State :=
  let ins := scanInputs s
  if codes.length < ins.length then bump Pid.hkLateCount 0 s
  else forEach (ins.zip codes) (fun e s => hkResult e.1 e.2 s) s

/-- HK_SCAN. -/
def execHkScan (codes : List Int) (s : State) : Host.Outcome State Fault Refusal := .next (hkScan codes s)

/-- HK_PULSE_EVENT (R292): an occurrence of event `e`'s source; every divider-th converts. [DESIGN CHOICE, notes/assumptions/38] -/
def hkPulseEvent (e : Nat) (code : Int) (late : Bool) (s : State) : State :=
  if paramNat s Pid.hkEventSource e = 0 then s
  else
    let n := vecRead s.hk.eventCount e 0 + 1
    if n < paramNat s Pid.hkEventDivider e then { s with hk := { s.hk with eventCount := vecUpdate s.hk.eventCount e fun _ => n } }
    else
      let w := hkWord s (vecRead s.hk.eventResult e 0) late code
      let s := { s with hk := { s.hk with
        eventCount := vecUpdate s.hk.eventCount e (fun _ => 0), eventResult := vecUpdate s.hk.eventResult e fun _ => w } }
      hkToPointer (paramNat s Pid.hkEventInput e) w (if late then bump Pid.hkLateCount 0 s else s)

/-- HK_PULSE_EVENT. -/
def execHkPulseEvent (e : Fin 8) (code : Int) (late : Bool) (s : State) : Host.Outcome State Fault Refusal :=
  .next (hkPulseEvent e code late s)

end Sys2Proof.Machine
end

