-- ==== Sys2Proof/Machine/FrontEnd.lean ====
section
/-! DEFINITION. The launch monitor (R158, R159), guard groups (R172 to R174), DAS gain (R163 to R166), blanking (R170) and
background correction (R169), with their rows. -/

namespace Sys2Proof.Machine

/-- LAUNCH_SEEN (R158, R159): the comparator rises; inside the launch window of a fired shot its launch is seen. -/
def launchSeen (p : Nat) (s : State) : State :=
  let s := onPort p (fun x => { x with riseTick := some s.ticks }) s
  if !((portOf s p).shots.any fun t => t.window && decide (s.ticks ≤ t.windowEnd)) then s
  else onPort p (fun x => { x with
    launchOk := true, misses := 0, launchMissing := false, shots := x.shots.map fun t => { t with window := false } }) s

/-- LAUNCH_SEEN. -/
def execLaunchSeen (p : Fin 4) (s : State) : Host.Outcome State Fault Refusal := .next (launchSeen p s)

/-- LAUNCH_WINDOW_END (R158, R159): a window that has run its length without a rise is a missed launch. [DESIGN CHOICE, notes/assumptions/119] -/
def launchWindowEnd (p : Nat) (s : State) : State :=
  match (portOf s p).shots.find? fun t => t.window && decide (t.windowEnd ≤ s.ticks) with
  | none => s
  | some t =>
    let s := markLost p t.round s
    let s := onPort p (fun x => { x with
      launchOk := false, missSeen := true, misses := x.misses + 1 }) s
    let x := portOf s p
    if decide (portNat s p Pid.portLmonMissLimit 0 ≤ x.misses) && !x.launchMissing then
      post 0x1001 p x.misses 0 (onPort p (fun x => { x with launchMissing := true }) s)
    else s

/-- LAUNCH_WINDOW_END. -/
def execLaunchWindowEnd (p : Fin 4) (s : State) : Host.Outcome State Fault Refusal := .next (launchWindowEnd p s)

/-- INPUT_OVERDRIVE of a group, at most once per second (R166). [DEDUCED, notes/assumptions/107; DESIGN CHOICE, notes/assumptions/117] -/
def overdrive (p group gain : Nat) (s : State) : State :=
  let (hit, r) := rateHit s.ticks 1 gain (vecRead (portOf s p).overdriveRate group {})
  let s := onPort p (fun x => { x with overdriveRate := vecUpdate x.overdriveRate group fun _ => r }) s
  match hit with
  | some (_, g) => post 0x1004 p group g s
  | none => s

/-- Ticks that a group's guard lasts after the last over-range sample (R172). -/
def guardTicks (s : State) (p group : Nat) : Nat :=
  2 * portNat s p (if group = 0 then Pid.portOvrGuard else Pid.portRamanOvrGuard) 0

/-- The open guard of a group ends `ovr_guard` samples after its last over-range sample (R172); it is kept for the samples still to
be processed. -/
def closeGuard (p group : Nat) (s : State) : State :=
  onPort p (fun x => { x with
    guard := vecUpdate x.guard group (fun _ => false),
    guards := vecUpdate x.guards group fun gs =>
      ((vecRead x.guardTick group 0, vecRead x.guardLast group 0 + guardTicks s p group) :: gs).filter
        fun g => decide (s.ticks < g.2 + secTicks 1) }) s

/-- An over-range sample opens a guard and counts it, or extends the one that is open (R172, R174). -/
def openGuard (p group : Nat) (s : State) : State :=
  let x := portOf s p
  let lapsed := vecRead x.guard group false && decide (vecRead x.guardLast group 0 + guardTicks s p group < s.ticks)
  let s := if lapsed then closeGuard p group s else s
  let s := if vecRead (portOf s p).guard group false then s
    else bump (portId p (if group = 0 then Pid.portOvrCount else Pid.portRamanOvrCount)) 0
      (onPort p (fun x => { x with guard := vecUpdate x.guard group (fun _ => true), guardTick := vecUpdate x.guardTick group fun _ => s.ticks }) s)
  onPort p (fun x => { x with guardLast := vecUpdate x.guardLast group fun _ => s.ticks }) s

/-- INPUT_OVER_RANGE (R165, R166, R172): a sample of a group is over-range; a fixed gain reports. [DEDUCED, notes/assumptions/107; DESIGN CHOICE, notes/assumptions/117] -/
def inputOverRange (p group : Nat) (s : State) : State :=
  let x := portOf s p
  let s := openGuard p group s
  if group = 0 then
    let s := onPort p (fun x => { x with overSeen := true }) s
    if portBool s p Pid.portDasAutorange 0 then s else overdrive p 0 x.dasGain s
  else overdrive p 1 (vecRead x.ramanGain 0 0) s

/-- INPUT_OVER_RANGE. -/
def execInputOverRange (p : Fin 4) (group : Fin 2) (s : State) : Host.Outcome State Fault Refusal :=
  .next (inputOverRange p group s)

/-- OVR_GUARD_END (R172): the guard of a group has run its samples. [DEDUCED, notes/assumptions/107] -/
def ovrGuardEnd (p group : Nat) (s : State) : State :=
  let x := portOf s p
  if vecRead x.guard group false && decide (vecRead x.guardLast group 0 + guardTicks s p group ≤ s.ticks) then closeGuard p group s else s

/-- OVR_GUARD_END. -/
def execOvrGuardEnd (p : Fin 4) (group : Fin 2) (s : State) : Host.Outcome State Fault Refusal := .next (ovrGuardEnd p group s)

/-- BLANK_INPUT_CHANGE (R170): the interval of the other level ends; the samples still to be processed find it. -/
def blankInputChange (p : Nat) (level : Bool) (s : State) : State :=
  let x := portOf s p
  if x.blankLevel == level then s
  else onPort p (fun x => { x with
    blankLevel := level, blankTick := s.ticks,
    blanks := ((x.blankLevel, x.blankTick, s.ticks) :: x.blanks).filter fun i => decide (s.ticks < i.2.2 + secTicks 1) }) s

/-- BLANK_INPUT_CHANGE. -/
def execBlankInputChange (p : Fin 4) (level : Bool) (s : State) : Host.Outcome State Fault Refusal :=
  .next (blankInputChange p level s)

/-- Limits of R169 per field of an estimate, in the units of `Correction`, with the field's index in item 2: offset, gain,
and for DAS inputs skew, and IQ gain and phase on a receiver's I input. -/
def corrFields (input : Nat) (c : Correction) : List (Nat × Int × Int) :=
  if input < 4 then
    [(input, c.offset, 4096), (4 + input, c.gainPpm, 30000)] ++
    (if input = 0 then [] else [(7 + input, c.skewFs, 20000)]) ++
    (if input % 2 = 0 then [(11 + input / 2, c.iqGainMdb, 500), (13 + input / 2, c.iqPhaseMdeg, 3000)] else [])
  else [(15 + (input - 4), c.offset, 4096), (17 + (input - 4), c.gainPpm, 30000)]

/-- ADC_CORR_ESTIMATE (R169, R528): an estimate inside its limits waits for the next round start; another is rejected. [DEDUCED, notes/assumptions/107] -/
def adcCorrEstimate (p input : Nat) (c : Correction) (s : State) : State :=
  match (corrFields input c).find? fun f => decide (f.2.2 < f.2.1.natAbs) with
  | some (i, v, _) => calReject 2 p i v s
  | none => onPort p (fun x => { x with corrNext := vecUpdate x.corrNext input fun _ => some c }) s

/-- ADC_CORR_ESTIMATE. -/
def execAdcCorrEstimate (p : Fin 4) (input : Fin 6) (c : Correction) (s : State) : Host.Outcome State Fault Refusal :=
  .next (adcCorrEstimate p input c s)

/-- Put DAS gain `g` in use (R164): the parameter reports it. [DEDUCED, notes/assumptions/107; DESIGN CHOICE, notes/assumptions/118] -/
def setDasGain (p g : Nat) (s : State) : State :=
  let x := portOf s p
  let s := paramPut (portId p Pid.portDasGain) 0 g (onPort p (fun x => { x with dasGain := g }) s)
  if g = x.dasGain then s
  else bump (portId p Pid.portGainSteps) 0 (onPort p (fun x => { x with gainStepTicks := (s.ticks :: x.gainStepTicks).take 64 }) s)

/-- DAS_GAIN_WRITE (R166): a host write waits for the next round start; a value outside the list is refused (R13). -/
def dasGainWrite (p gain : Nat) (s : State) : State :=
  if [0, 6, 12, 18].contains gain then onPort p (fun x => { x with gainWrite := some gain }) s else s

/-- DAS_GAIN_WRITE. -/
def execDasGainWrite (p : Fin 4) (gain : Nat) (s : State) : Host.Outcome State Fault Refusal := .next (dasGainWrite p gain s)

/-- The gain step of a round start (R164 to R166): a host write wins over auto-range and restarts the hold of 16 rounds. [DEDUCED, notes/assumptions/107; DESIGN CHOICE, notes/assumptions/118] -/
def gainAtRound (p peakPct : Nat) (s : State) : State :=
  let s := onPort p (fun x => { x with peaks := (peakPct :: x.peaks).take 16, roundsSinceStep := min 16 (x.roundsSinceStep + 1) }) s
  let x := portOf s p
  let clear (y : PortState) : PortState := { y with overSeen := false }
  match x.gainWrite with
  | some g => setDasGain p g (onPort p (fun y => { clear y with gainWrite := none, roundsSinceStep := 0 }) s)
  | none =>
    if !portBool s p Pid.portDasAutorange 0 then onPort p clear s
    else if x.roundsSinceStep < 16 then s
    else if x.overSeen then
      if x.dasGain = 0 then overdrive p 0 0 (onPort p clear s)
      else setDasGain p (x.dasGain - 6) (onPort p (fun y => { clear y with roundsSinceStep := 0 }) s)
    else if x.peaks.length = 16 ∧ (x.peaks.all fun v => decide (v < portNat s p Pid.portAutorangeLowPct 0)) ∧ x.dasGain < 18 then
      setDasGain p (x.dasGain + 6) (onPort p (fun y => { y with roundsSinceStep := 0 }) s)
    else s

/-- The 19 fields of item 2 from the correction in use (R523). [DEDUCED, notes/assumptions/107] -/
def corrSet (x : PortState) : List Int :=
  let all := (List.range 6).flatMap fun i => corrFields i (vecRead x.corr i {})
  (List.range 19).map fun k => ((all.find? fun f => f.1 == k).map (·.2.1)).getD 0

/-- Correction sets of a round start (R169): estimates that wait are used whole. [DEDUCED, notes/assumptions/107] -/
def corrUse (p : Nat) (s : State) : State :=
  if (portOf s p).corrNext.any (·.isSome) then
    let s := onPort p (fun x => { x with
      corr := Vector.ofFn fun i => (x.corrNext.get i).getD (x.corr.get i), corrNext := Vector.replicate 6 none }) s
    calAccept 2 p (corrSet (portOf s p)) s
  else s

/-- What calibration applies at a round start of port `p` (R525, R527): a waiting trim applies and the estimators of item 2
start again; else their estimates are used. Port 0 takes the path delays as well. [DEDUCED, notes/assumptions/107] -/
def corrAtRound (p : Nat) (s : State) : State :=
  let s := if p = 0 then calApply 5 0 s else s
  if (calItem s 1 p).next.isSome then
    calApply 1 p (onPort p (fun x => { x with corrNext := Vector.replicate 6 none }) s)
  else corrUse p s

end Sys2Proof.Machine
end

