-- ==== Sys2Proof/Machine/Oxras.lean ====
section
/-! DEFINITION. The Oxras mailbox: the opcode table (R129), the checks of R119 in their order, answers with their
sequence, cache and tags (R121, R122), violations and the throttle (R123), and sessions (R125 to R128). -/

namespace Sys2Proof.Machine

/-- Kinds of command (R129). -/
inductive CmdKind where
  | r | s | j
  deriving DecidableEq, Repr

/-- How R568 and a command's layout fix the payload length. -/
inductive LenRule where
  | fixed (n : Nat)
  /-- `base` bytes, then a count in `width` bytes at `offset` from `lo` to `hi` of `per` bytes each. -/
  | counted (base offset width lo hi per : Nat)
  | range (lo hi : Nat)
  deriving DecidableEq, Repr

/-- One row of R129, with the length rule of its layout and its reserved byte ranges (start, length). -/
structure OpRow where
  code : Nat
  since : Nat
  kind : CmdKind
  len : LenRule
  reserved : List (Nat × Nat)
  deriving DecidableEq, Repr

/-- The opcodes of R129; EVENT is device only, so a request with it is unknown. The FW layouts are not given. -/
def opTable : List OpRow := [
  ⟨0x0001, 0x0200, .r, .fixed 24, [(4, 4)]⟩,
  ⟨0x0002, 0x0200, .r, .range 0 4076, []⟩,
  ⟨0x0003, 0x0200, .s, .fixed 0, []⟩,
  ⟨0x0009, 0x0301, .s, .fixed 4, [(1, 3)]⟩,
  ⟨0x0100, 0x0200, .r, .counted 4 0 2 1 339 4, [(3, 1)]⟩,
  ⟨0x0101, 0x0200, .j, .counted 4 0 2 1 339 12, [(2, 2)]⟩,
  ⟨0x0102, 0x0301, .r, .fixed 8, [(7, 1)]⟩,
  ⟨0x0200, 0x0200, .j, .counted 4 0 2 1 339 12, [(3, 1)]⟩,
  ⟨0x0201, 0x0200, .j, .fixed 8, [(4, 4)]⟩,
  ⟨0x0202, 0x0200, .j, .fixed 4, []⟩,
  ⟨0x0203, 0x0200, .j, .fixed 4, []⟩,
  ⟨0x0204, 0x0302, .r, .fixed 4, []⟩,
  ⟨0x0205, 0x0302, .s, .fixed 0, []⟩,
  ⟨0x0300, 0x0200, .j, .fixed 4, [(2, 2)]⟩,
  ⟨0x0301, 0x0200, .j, .fixed 4, [(1, 3)]⟩,
  ⟨0x0400, 0x0200, .j, .counted 4 0 2 1 63 64, [(2, 2)]⟩,
  ⟨0x0401, 0x0200, .j, .counted 4 0 2 1 1024 2, [(2, 2)]⟩,
  ⟨0x0402, 0x0200, .r, .fixed 8, [(5, 3)]⟩,
  ⟨0x0500, 0x0201, .j, .counted 4 2 1 1 16 128, []⟩,
  ⟨0x0501, 0x0201, .s, .fixed 4, [(2, 2)]⟩,
  ⟨0x0502, 0x0201, .s, .fixed 4, [(1, 3)]⟩,
  ⟨0x0503, 0x0201, .r, .fixed 16, [(1, 3), (9, 3)]⟩,
  ⟨0x0600, 0x0300, .j, .fixed 96, []⟩,
  ⟨0x0601, 0x0300, .s, .fixed 4, [(1, 3)]⟩,
  ⟨0x0602, 0x0300, .r, .fixed 4, [(1, 3)]⟩,
  ⟨0x0700, 0x0201, .r, .fixed 8, [(1, 3)]⟩,
  ⟨0x0800, 0x0300, .j, .fixed 4, [(3, 1)]⟩,
  ⟨0x0801, 0x0300, .j, .fixed 16, [(3, 1)]⟩,
  ⟨0x0802, 0x0300, .r, .fixed 4, [(2, 2)]⟩,
  ⟨0x0900, 0x0300, .j, .fixed 4, [(1, 3)]⟩,
  ⟨0x0901, 0x0300, .r, .fixed 0, []⟩,
  ⟨0x0902, 0x0301, .s, .range 16 4076, []⟩,
  ⟨0x0A00, 0x0200, .r, .fixed 12, [(9, 3)]⟩,
  ⟨0x0A01, 0x0200, .r, .fixed 12, [(1, 1), (9, 3)]⟩,
  ⟨0x0B00, 0x0200, .j, .fixed 4, [(0, 4)]⟩,
  ⟨0x0B01, 0x0200, .j, .range 0 4080, []⟩,
  ⟨0x0B02, 0x0200, .j, .fixed 4, [(0, 4)]⟩,
  ⟨0x0B03, 0x0200, .j, .fixed 4, [(0, 4)]⟩,
  ⟨0x0B04, 0x0200, .j, .fixed 4, [(0, 4)]⟩,
  ⟨0x0C00, 0x0300, .j, .range 8 4080, [(3, 1)]⟩,
  ⟨0x0C01, 0x0300, .j, .fixed 4, [(1, 3)]⟩,
  ⟨0x0C02, 0x0300, .r, .fixed 4, [(2, 2)]⟩]

/-- The row of an opcode. -/
def opRow (code : Nat) : Option OpRow := opTable.find? fun o => o.code == code

/-- Is the opcode offered in version `v` (R124, step 8 of R119)? -/
def opKnown (v code : Nat) : Bool := ((opRow code).map fun o => decide (o.since ≤ v)).getD false

/-- Does the payload length fit the opcode (step 9, R568)? -/
def lenOk (l : LenRule) (p : List Byte) : Bool :=
  match l with
  | .fixed n => p.length == n
  | .counted base off width lo hi per =>
    let n := field p off width
    decide (lo ≤ n) && decide (n ≤ hi) && p.length == base + n * per
  | .range lo hi => decide (lo ≤ p.length) && decide (p.length ≤ hi)

/-- Are the reserved byte ranges 0 (R11)? -/
def reservedOk (rs : List (Nat × Nat)) (p : List Byte) : Bool := rs.all fun r => field p r.1 r.2 == 0

/-- Protocol versions the device implements (R124). -/
def versions : List Nat := [0x0302, 0x0301, 0x0300, 0x0201, 0x0200]

/-- Does a source (address and port × 2, plus 1 for IPv6) use IPv6? -/
def sourceV6 (source : Nat) : Bool := source % 2 == 1

/-- Largest payload on transport `t` (R118). [DEDUCED, notes/assumptions/61] -/
def payloadLimit (s : State) (t ethPort source : Nat) : Nat :=
  if t = 2 then min 4080 (paramNat s Pid.hostEthMtu ethPort - (if sourceV6 source then 40 else 20) - 24) else 4080

/-- Does the request belong to the live session of its transport? -/
def ownsSession (s : State) (r : Request) : Bool :=
  match (transportOf s r.transport).session with
  | some ss => (r.transport != 2 || ss.source == r.source) && (r.session == 0 || r.session == ss.ident)
  | none => false

/-- Ethernet port by which a request's answers leave, and whose MTU bounds them: that of its session's HELLO (R118). -/
def answerPort (s : State) (r : Request) : Nat :=
  if ownsSession s r then ((transportOf s r.transport).session.map (·.ethPort)).getD r.ethPort else r.ethPort

/-- Largest payload of an answer to a request (R118). -/
def requestLimit (s : State) (r : Request) : Nat := payloadLimit s r.transport (answerPort s r) r.source

/-- Violation counter parameter of transport `t` (R147). -/
def violParam (t : Nat) : Nat := Pid.hostViolPcie + t

/-- Count a protocol violation; the 65th within 1,000 ms throttles the transport (R123). -/
def countViolation (t : Nat) (s : State) : State :=
  let s := bump (violParam t) 0 s
  let x := transportOf s t
  let recent := (s.ticks :: x.violations).filter fun k => decide (s.ticks < k + msTicks 1000)
  if decide (65 ≤ recent.length) && !x.throttled then
    post 0x0401 t recent.length 0
      (bump Pid.hostThrottles 0 (onTransport t (fun x => { x with violations := [], throttled := true, throttleFrom := s.ticks }) s))
  else onTransport t (fun x => { x with violations := recent }) s

/-- Count and log a protocol violation with the message's first 16 bytes (R119, R544). -/
def violate (t status opcode : Nat) (first : List Byte) (s : State) : State :=
  countViolation t (logOnly 0x3C06 0 0 0 (slice first 0 16) (logOnly 0x0407 t status opcode [] s))

/-- Put an answer on its transport: it waits for the response area on the page transports and is sent at once
otherwise, which frees its tag (R114, R122). -/
def sendAnswer (r : Request) (holdsTag : Bool) (m : List Byte) (s : State) : State :=
  if r.transport < 2 then
    onTransport r.transport (fun x => { x with waiting := x.waiting ++ [⟨r.tag, m, holdsTag⟩] }) s
  else
    sendCarrier r.transport r.source (answerPort s r) m
      (onTransport r.transport (fun x => if holdsTag then { x with tags := x.tags.erase r.tag } else x) s)

/-- Version and response sequence of an answer, and the transport after it (R121, R125). -/
def answerSeq (r : Request) (s : State) : Nat × Nat × State :=
  match (transportOf s r.transport).session with
  | some ss =>
    if ownsSession s r then
      (ss.version, ss.respSeq, onTransport r.transport
        (fun x => { x with session := some { ss with respSeq := (ss.respSeq + 1) % 65536 } }) s)
    else (r.version, 0, s)
  | none => (r.version, 0, s)

/-- Answer a message with a status, a detail and result bytes (R117). `flags` adds UNTRUSTED or DUP; `holdsTag` says
that the answer's placement frees the tag. An answer to a request of a session that has ended is discarded (R128). -/
def answerWith (flags : Nat) (holdsTag : Bool) (r : Request) (status detail : Nat) (body : List Byte) (s : State) : State :=
  if r.transport = 4 || (r.session != 0 && !ownsSession s r) then s
  else
    let full := leBytes 1 status ++ leBytes 1 0 ++ leBytes 2 detail ++ body
    let pay := if full.length ≤ requestLimit s r then full else leBytes 1 0x10 ++ leBytes 3 0
    let (v, q, s) := answerSeq r s
    let m := message (if status = 0x13 then 0x0302 else v) r.opcode r.tag q (0x20 + flags) pay
    let keep (e : CacheEntry) : CacheEntry :=
      if e.answer.isNone && e.seq == r.seq && e.tag == r.tag && e.crc == r.crc then { e with answer := some m } else e
    sendAnswer r holdsTag m (onTransport r.transport (fun x => { x with cache := x.cache.map keep }) s)

/-- The answer of an executed or refused command; ACCEPTED frees the tag at once (R122). -/
def answer (r : Request) (status detail : Nat) (body : List Byte) (s : State) : State :=
  if status = 0x01 then
    answerWith 0 false r status detail body (onTransport r.transport (fun x => { x with tags := x.tags.erase r.tag }) s)
  else answerWith 0 (!(r.session == 0 && r.opcode == 0x0002)) r status detail body s

/-- A refusal. -/
def refuse (r : Request) (status detail : Nat) (s : State) : State := answer r status detail [] s

/-- OK without result fields. -/
def answerOk (r : Request) (s : State) : State := answer r 0 0 [] s

/-- Is a waiting datagram a message of the protocol to `source`? Replies of ARP, neighbour discovery and echo are none. -/
def oxrasTo (source : Nat) (d : Nat × List Byte) : Bool := d.1 == source && (d.2.head? == some 2 || d.2.head? == some 3)

/-- The unsent answers of the Ethernet session are discarded (R128). [DEDUCED, notes/assumptions/140] -/
def dropAnswers (s : State) : State :=
  match (transportOf s 2).session with
  | some ss => { s with links := { s.links with eth := s.links.eth.map fun e => { e with
      txOxras := e.txOxras.filter fun d => !oxrasTo ss.source d } } }
  | none => s

/-- End the session of transport `t` (R128, R103): unsent answers are discarded and its tags are freed. [DEDUCED, notes/assumptions/140] -/
def endSession (t : Nat) (s : State) : State :=
  onTransport t (fun x => { x with session := none, tags := [], waiting := [] }) (if t = 2 then dropAnswers s else s)

/-- The fields of a message's header (R115). -/
def parseRequest (t source ethPort : Nat) (bs : List Byte) : Request :=
  { transport := t, version := field bs 0 1 * 256 + field bs 1 1, opcode := field bs 2 2, tag := field bs 4 2,
    seq := field bs 6 2, flags := field bs 10 2, crc := field bs 12 4, payload := bs.drop 16, source := source,
    ethPort := ethPort }

/-- The CRC of a message: over header and payload with its own four bytes zero (R115). -/
def messageCrc (bs : List Byte) : Nat := (crc32c (slice bs 0 12 ++ leBytes 4 0 ++ bs.drop 16)).toNat

/-- The version HELLO negotiates (R125): the highest implemented one in the host's range. -/
def negotiate (p : List Byte) : Option Nat :=
  let hi := field p 0 1 * 256 + field p 1 1
  let lo := field p 2 1 * 256 + field p 3 1
  versions.find? fun v => decide (lo ≤ v) && decide (v ≤ hi)

/-- Step 4 of R119: the version. -/
def versionOk (s : State) (r : Request) : Bool :=
  if r.opcode = 0x0001 then r.payload.length != 24 || (negotiate r.payload).isSome
  else
    match (transportOf s r.transport).session with
    | some ss => r.version == ss.version
    | none => versions.contains r.version

/-- Does another source hold the live Ethernet session (R127)? -/
def heldByOther (s : State) (r : Request) : Bool :=
  r.transport == 2 && (((transportOf s 2).session.map fun ss => ss.source != r.source).getD false)

/-- A PING that belongs to no session or to another source: it uses neither the sequence nor the tags. -/
def freePing (s : State) (r : Request) : Bool :=
  r.opcode == 0x0002 && ((transportOf s r.transport).session.isNone || heldByOther s r)

/-- A request of `t` that passed step 6: the sequence advances, and the answer cache keeps its place (R121). -/
def passSequence (r : Request) (s : State) : State :=
  onTransport r.transport (fun x => { x with
    lastSeq := r.seq, cache := (⟨r.seq, r.tag, r.crc, none⟩ :: x.cache).take 16 }) s

/-- The 600 MHz cycle of a time in ticks (R22, R25). -/
def scribeCycle (t : Nat) : Nat := t * 3 / 4

/-- Place of a transport among commands of one cycle: Scribe's own first, then the lower number (R22). -/
def transportRank (t : Nat) : Nat := if t = 4 then 0 else t + 1

/-- Does a waiting request stay ahead of one of transport `t` that arrives at tick `now` (R22)? -/
def staysAhead (now t : Nat) (e : Request) : Bool :=
  scribeCycle e.arrived != scribeCycle now || decide (transportRank e.transport ≤ transportRank t)

/-- Put a request into Scribe's command queue: in order of arrival, within one cycle by transport (R22). -/
def enqueue (r : Request) (s : State) : State :=
  let late := s.scribe.queue.reverse.takeWhile fun e => !staysAhead s.ticks r.transport e
  let early := s.scribe.queue.take (s.scribe.queue.length - late.length)
  { s with scribe := { s.scribe with queue := early ++ { r with arrived := s.ticks } :: late.reverse } }

/-- An internal command of transport 4 enters the same queue (R22). -/
def enqueueInternal (opcode : Nat) (payload : List Byte) (s : State) : State :=
  enqueue { transport := 4, opcode := opcode, payload := payload } s

/-- The header of a request, for the log. -/
def headerBytes (r : Request) : List Byte :=
  leBytes 1 (r.version / 256) ++ leBytes 1 r.version ++ leBytes 2 r.opcode ++ leBytes 2 r.tag ++ leBytes 2 r.seq ++
  leBytes 2 r.payload.length ++ leBytes 2 r.flags ++ leBytes 4 r.crc

/-- Steps 7 and 8 of R119, then the command queue. -/
def admitRequest (r : Request) (s : State) : State :=
  let x := transportOf s r.transport
  if x.tags.contains r.tag then answerWith 0 false r 0x31 0xFF03 [] s
  else if 16 ≤ x.tags.length then answerWith 0 false r 0x31 0xFF04 [] s
  else
    let s := onTransport r.transport (fun x => { x with tags := x.tags ++ [r.tag] }) s
    let v := ((x.session.map (·.version)).getD r.version)
    if opKnown v r.opcode then
      enqueue r (onTransport r.transport
        (fun x => { x with session := x.session.map fun ss => { ss with lastValid := s.ticks } }) s)
    else refuse r 0x12 0 (violate r.transport 0x12 r.opcode (headerBytes r) s)

/-- Repeat a kept answer with DUP set and the session's next response sequence (R121). -/
def answerDup (r : Request) (m : List Byte) (s : State) : State :=
  let (_, q, s1) := answerSeq r s
  let d := message (field m 0 1 * 256 + field m 1 1) r.opcode r.tag q (field m 10 2 ||| 0x80) (m.drop 16)
  sendAnswer r false d s1

/-- Steps 4 to 8 of R119. -/
def checkRequest (r : Request) (first : List Byte) (s : State) : State :=
  if !versionOk s r then answerWith 0 false r 0x13 0
    (if r.opcode = 0x0001 then [0, 0, 3, 2, 2, 0].map (BitVec.ofNat 8) else []) (violate r.transport 0x13 r.opcode first s)
  else if heldByOther s r && r.opcode != 0x0002 && !(r.opcode == 0x0001 && hasBit r.flags 4) then
    answerWith 0 false r 0x31 0xFF07 [] s
  else if (transportOf s r.transport).session.isNone && r.opcode != 0x0001 && r.opcode != 0x0002 then
    answerWith 0 false r 0x14 0xFF02 [] (violate r.transport 0x14 r.opcode first s)
  else if freePing s r then enqueue r s
  else
    let x := transportOf s r.transport
    let ident := (x.session.map (·.ident)).getD 0
    match x.cache.find? fun e => e.seq == r.seq && e.tag == r.tag && e.crc == r.crc with
    | some e =>
      match e.answer with
      | some m => answerDup r m s
      | none => s
    | none =>
      if r.opcode = 0x0001 || r.seq == (x.lastSeq + 1) % 65536 then
        admitRequest { r with session := if r.opcode = 0x0001 then 0 else ident } (passSequence r s)
      else answerWith 0 false r 0x14 0 [] (violate r.transport 0x14 r.opcode first s)

/-- Scribe takes a message of `carrier` bytes (R113, R118, R119). Bytes past the carrier length are not part of it. -/
def receive (t source ethPort carrier : Nat) (bytes : List Byte) (s : State) : State :=
  let s := onTransport t (fun x => { x with messages := (x.messages + 1) % 2 ^ 64 }) s
  let first := slice bytes 0 (min 16 carrier)
  let r := parseRequest t source ethPort (bytes.take carrier)
  let plen := field bytes 8 2
  if carrier < 16 then (if (transportOf s t).throttled then s else violate t 0 0 first s)
  else if (transportOf s t).throttled && r.opcode != 0x0001 then answerWith 0 false r 0x31 0xFF01 [] s
  else if 4080 < plen || plen + 16 ≠ carrier then
    answerWith 8 false r 0x10 (if 4080 < plen then 0 else 0xFF08) [] (violate t 0x10 r.opcode first s)
  else if messageCrc (bytes.take carrier) ≠ r.crc then answerWith 8 false r 0x11 0 [] (violate t 0x11 r.opcode first s)
  else checkRequest r first s

/-- Remove a request from the queue. -/
def dequeue (r : Request) (s : State) : State := { s with scribe := { s.scribe with queue := s.scribe.queue.erase r } }

/-- Kind of a queued request's opcode. -/
def kindOf (opcode : Nat) : CmdKind := ((opRow opcode).map (·.kind)).getD .s

/-- Kind of a queued request: a relayed message counts as its inner one (R129). [DEDUCED, notes/assumptions/69] -/
def requestKind (r : Request) : CmdKind := if r.opcode = 0x0902 then kindOf (field r.payload 2 2) else kindOf r.opcode

/-- The queue without an automatic revert that waits for a mode of R93 (R95): the commands behind it go on. -/
def readyQueue (s : State) : List Request :=
  s.scribe.queue.filter fun r => !(r.transport == 4 && r.opcode == 0x0203 && !commitMode s)

/-- The request of `opcode` that may execute now: kind R in arrival order among themselves, kinds S and J only at the
head of the queue and one at a time (R130). Internal commands have rows of their own. [DEDUCED, notes/assumptions/69] -/
def nextRequest (opcode : Nat) (s : State) : Option Request :=
  if s.scribe.restarting then none
  else
    let read := (readyQueue s).find? fun r => requestKind r == .r
    let next := if kindOf opcode == .r || (opcode == 0x0902 && (read.map (·.opcode)) == some opcode) then read
      else ((readyQueue s).head?).filter fun _ => s.banks.job.isNone
    next.filter fun r => r.opcode == opcode && r.transport != 4

/-- Step 9 of R119 on a request: none when it passes, else the refusal. -/
def step9 (o : OpRow) (r : Request) : Option Nat :=
  if !lenOk o.len r.payload then some 0x10
  else if r.flags &&& 0xFF07 ≠ 0 || !reservedOk o.reserved r.payload then some 0x20
  else none

/-- Run the command of `opcode` that may execute now, after step 9 of R119. With none in the queue nothing happens. -/
def runCommand (opcode : Nat) (h : Request → State → State) (s : State) : State :=
  match nextRequest opcode s, opRow opcode with
  | some r, some o =>
    let s := dequeue r s
    match step9 o r with
    | some st => refuse r st 0 (if st = 0x10 then violate r.transport 0x10 r.opcode (headerBytes r) s else s)
    | none => h r s
  | _, _ => s

/-- Run the internal command at the head of the queue that `sel` picks (R22): the handler opens its journal entry. -/
def runInternal (sel : Request → Bool) (h : Request → State → State) (s : State) : State :=
  match readyQueue s with
  | [] => s
  | r :: _ => if r.transport = 4 && sel r && !s.scribe.restarting && s.banks.job.isNone then h r (dequeue r s) else s

/-- Open the journal entry of a kind-J command and hand its identifier on (R142). -/
def withJournal (r : Request) (total : Nat) (f : Nat → State → State) (s : State) : State :=
  let s := journalOpen r total s
  f s.journal.newest s

/-- The answer of a journaled command of `k` steps (R131): OK, or ACCEPTED with the entry's identifier where its work lasts longer than
10 ms. [DESIGN CHOICE, notes/assumptions/134] -/
def answerWork (r : Request) (n k detail : Nat) (s : State) : State :=
  if Config.longWork r.opcode k then answer r 0x01 0 (leBytes 4 n) s else answer r 0 detail [] s

end Sys2Proof.Machine
end

