-- ==== Sys2Proof/Machine/Pointer.lean ====
section
/-! DEFINITION. The Pointer (R305 to R328): sequencer steps, terms and actions, fires, the master arm, event records
and their closing. -/

namespace Sys2Proof.Machine

/-- Update the Pointer. -/
def onPtr (f : Pointer → Pointer) (s : State) : State := { s with pointer := f s.pointer }

/-- A condition record of 32 bytes (R313), decoded where it is used. -/
abbrev Condition := List Byte

/-- State record `k` of sequencer `q` in a bank (R313). -/
def seqState (b : Bank) (q k : Nat) : List Byte := Store.read (fun _ => []) b.seqs (q * 16 + k)

/-- Condition `j` of a state record. -/
def condOf (st : List Byte) (j : Nat) : Condition := slice st (32 * j) 32

/-- VALID of a condition. -/
def condValid (c : Condition) : Bool := hasBit (field c 0 1) 7

/-- Mask of the valid conditions of a state (`seq[s].state[k]`, R330). -/
def validMask (st : List Byte) : Nat := bits ((List.range 4).map fun j => condValid (condOf st j))

/-- Does the bank define sequencer `q` (R314): a valid condition in its initial state? -/
def seqDefined (b : Bank) (q : Nat) : Bool :=
  validMask (seqState b q (bankRead b Pid.seqInitialState q).toNat) != 0

/-- What a step sees (R306 to R311). -/
structure StepView where
  seq : Sequencer
  inbox : PointerInbox
  bank : Bank
  q : Nat
  port : Nat
  /-- Step time in ns, and the round that starts at the step. -/
  now : Nat
  round : Nat

/-- A term's own time: ns, port and round (R307). -/
abbrev OwnTime := Nat × Nat × Nat

/-- Comparison of R309. -/
def compareCode (c : Nat) (a b : Int) : Bool :=
  match c with
  | 0 => decide (b ≤ a)
  | 1 => decide (b < a)
  | 2 => decide (a < b)
  | 3 => decide (a ≤ b)
  | 4 => a == b
  | _ => a != b

/-- Threshold of a term. -/
def termThreshold (t : List Byte) : Int := signed 32 (field t 8 4)

/-- The feature record a FEATURE term uses (R310). -/
def termFeature (s : State) (v : StepView) (t : List Byte) : Option Feature :=
  let z := field t 4 2
  let key := z * 8 + field t 2 1
  let find (st : Store Feature) : Option Feature := (st.find? fun e => e.1 == key).map (·.2)
  if hasBit (field t 1 1) 3 then (if zoneServed s z then find s.pointer.level else none) else find v.inbox.features

/-- The round of port `p` that began at or before a time, newest first (R307). [DEDUCED, notes/assumptions/32] -/
def roundAt (s : State) (p ns : Nat) : Option Shot := (portOf s p).shots.find? fun t => decide (netNs t.time ≤ ns)

/-- A term's own time (R307). [DEDUCED, notes/assumptions/32] -/
def termTime (s : State) (v : StepView) (t : List Byte) : Option OwnTime :=
  match field t 0 1 with
  | 2 => (termFeature s v t).map fun f => (netNs f.time, zonePort f.zone, f.round)
  | 3 => (v.inbox.gaps.find? fun e => e.1 == field t 4 2).map fun e => (e.2.2, zonePort e.1, e.2.1)
  | 7 => v.inbox.remote.head?.bind fun ns => (roundAt s v.port ns).map fun u => (netNs u.time, v.port, u.round)
  | _ => none

/-- The newest result an HK term uses (R310). -/
def termHk (s : State) (v : StepView) (t : List Byte) : Option (BitVec 32) :=
  ((if hasBit (field t 1 1) 3 then s.pointer.hkLevel else v.inbox.hk).find? fun e => e.1 == field t 2 1).map (·.2)

/-- Is a term true at condition time `ct` (R309 to R311)? [DEDUCED, notes/assumptions/32] -/
def termTrue (s : State) (v : StepView) (ct : Nat) (t : List Byte) : Bool :=
  let i := field t 2 1
  match field t 0 1 with
  | 1 => true
  | 2 =>
    match termFeature s v t with
    | some f => compareCode (field t 1 1 % 8) f.value (termThreshold t) && (f.quality.toNat &&& field t 3 1) == 0
    | none => false
  | 3 => v.inbox.gaps.any fun e => e.1 == field t 4 2
  | 4 =>
    match vecRead v.seq.timers i none with
    | some st => decide (st + paramNat s Pid.seqTimerLimitUs (idx2 v.q i) * 1000 ≤ ct)
    | none => false
  | 5 => decide (paramNat s Pid.seqCounterLimit (idx2 v.q i) ≤ (vecRead v.seq.counters i 0).toNat)
  | 6 =>
    match v.seq.window with
    | some (op, cl) => if field t 1 1 = 0 then decide (op ≤ ct) && decide (ct < cl) else decide (cl ≤ ct)
    | none => false
  | 7 => !v.inbox.remote.isEmpty
  | 8 => hasBit (paramNat s Pid.ptrFlags 0) i == (field t 1 1 == 0)
  | 9 =>
    match termHk s v t with
    | some r => compareCode (field t 1 1 % 8) (signed 16 r.toNat) (termThreshold t) && !r.getLsbD 17
    | none => false
  | _ => false

/-- The later of two own times; the first on a tie. [DEDUCED, notes/assumptions/32] -/
def laterTime (a b : Option OwnTime) : Option OwnTime :=
  match a, b with
  | some x, some y => if x.1 < y.1 then some y else some x
  | some x, none => some x
  | none, y => y

/-- A condition's time, port and round (R307). [DEDUCED, notes/assumptions/32] -/
def condTime (s : State) (v : StepView) (c : Condition) : OwnTime :=
  let ta := termTime s v (slice c 8 12)
  let tb := termTime s v (slice c 20 12)
  let own := if field c 1 1 = 1 ∨ field c 1 1 = 2 then laterTime ta tb else ta
  own.getD (v.now, v.port, v.round)

/-- Is a condition true (R309)? -/
def condTrue (s : State) (v : StepView) (c : Condition) : Bool :=
  let ct := (condTime s v c).1
  let a := termTrue s v ct (slice c 8 12)
  let b := termTrue s v ct (slice c 20 12)
  condValid c &&
  (match field c 1 1 with
   | 0 => a
   | 1 => a && b
   | 2 => a || b
   | _ => a && !b)

/-- Does a condition's join name a term of source `src` (R309)? Join 0 ignores term B. -/
def condUses (c : Condition) (src : Nat) : Bool := field c 8 1 == src || (field c 1 1 != 0 && field c 20 1 == src)

/-- Has it an INSIDE term (R311)? -/
def condInside (c : Condition) : Bool :=
  (field c 8 1 == 6 && field c 9 1 == 0) || (field c 1 1 != 0 && field c 20 1 == 6 && field c 21 1 == 0)

/-- Zones of its FEATURE and GAP terms (R321). -/
def condZones (c : Condition) : List Nat :=
  let z (o : Nat) : List Nat := if field c o 1 = 2 ∨ field c o 1 = 3 then [field c (o + 4) 2] else []
  z 8 ++ (if field c 1 1 = 0 then [] else z 20)

/-- Action bits of a condition (R312). -/
def actBit (c : Condition) (i : Nat) : Bool := hasBit (field c 2 2) i

/-- Counters, timers and the window after a condition's actions (R308, R311, R312). -/
def applyActions (s : State) (v : StepView) (c : Condition) (ct : Nat) (x : Sequencer) : Sequencer :=
  let counter (i : Nat) (n : BitVec 16) : BitVec 16 :=
    if actBit c (6 + 2 * i) then 0 else if actBit c (5 + 2 * i) then (if n = 0xFFFF#16 then n else n + 1) else n
  let timer (i : Nat) (t : Option Nat) : Option Nat :=
    if actBit c (2 + 2 * i) then none else if actBit c (1 + 2 * i) then some ct else t
  { x with
    counters := Vector.ofFn fun i => counter i.val (x.counters.get i),
    timers := Vector.ofFn fun i => timer i.val (x.timers.get i),
    window :=
      if actBit c 9 then some (ct, ct + paramNat s Pid.seqWindowUs v.q * 1000)
      else if actBit c 10 then x.window.map fun w => if w.1 ≤ ct ∧ ct < w.2 then (w.1, ct) else w
      else x.window }

/-- Open records (R317, R330). -/
def openRecords (s : State) : List EventRecord := (s.pointer.records.map (·.2)).filter fun r => r.completeness == 0

/-- Slot of an event number: 1,024 in DRAM, 64 in Scribe's memory (R325, R328). [DEDUCED, notes/assumptions/34] -/
def recordSlot (s : State) (n : Nat) : Nat := n % (if s.pointer.areaSram then 64 else 1024)

/-- The record of an event number, unless overwritten. -/
def recordOf (s : State) (n : Nat) : Option EventRecord :=
  ((s.pointer.records.map (·.2)).find? fun r => r.number == n)

/-- Replace a record. -/
def setRecord (r : EventRecord) (s : State) : State :=
  onPtr (fun x => { x with records := x.records.map fun e => if e.2.number = r.number then (e.1, r) else e }) s

/-- Zones a record covers (R321): ascending, up to 8, and whether more were to be covered. -/
def coveredZones (seqs : List RecordSeq) : List Nat × Bool :=
  let all := ((seqs.flatMap (·.zones)).eraseDups).insertionSort (· ≤ ·)
  (all.take 8, decide (8 < all.length))

/-- A record after one more sequencer's fire (R320, R321, R327). [DEDUCED, notes/assumptions/34] -/
def recordJoin (e : RecordSeq) (flags : BitVec 8) (r : EventRecord) : EventRecord :=
  let seqs := r.seqs ++ [e]
  let (zs, trunc) := coveredZones seqs
  { r with
    seqs := seqs, zones := zs.map fun z => { zone := z }, preReq := max r.preReq e.preUs, postReq := max r.postReq e.postUs,
    flags := r.flags ||| flags ||| (if trunc then 0x40#8 else 0#8) }

/-- Open a record (R320, R325, R328): the slot's record is overwritten; replay jobs that read it end SOURCE_LOST (R359). [DEDUCED, notes/assumptions/34] -/
def recordOpen (port round ns : Nat) (e : RecordSeq) (flags : BitVec 8) (s : State) : State :=
  let n := (s.pointer.newest + 1) % 2 ^ 32
  let slot := recordSlot s n
  let old := (s.pointer.records.find? fun r => r.1 == slot).map (·.2.number)
  let s :=
    match old with
    | some k => endJobs (fun j => j.source == 1 && j.event == k) 2
        (bump Pid.ptrRecordsOverwritten 0 (onPtr (fun x => { x with overwriteSeen := true }) s))
    | none => s
  let base : BitVec 8 := (if s.time.holdover then 0x04#8 else 0#8) ||| (if s.pointer.areaSram then 0x20#8 else 0#8)
  let r := recordJoin e flags { number := n, port := port, round := round, time := nsNet ns, epoch := s.banks.active.epoch,
                                flags := base }
  onPtr (fun x => { x with newest := n, records := Store.put x.records slot r }) s

/-- A missed fire (R317). -/
def missFire (q : Nat) (limit : Bool) (s : State) : State :=
  bump Pid.seqMissed q (onPtr (fun x => { x with openLimitSeen := x.openLimitSeen || limit })
    (onSeq q (fun x => { x with missed := x.missed + 1, missedSeen := true }) s))

/-- Record flags of a fire: EDGE and REMOTE (R311, R327). [DEDUCED, notes/assumptions/33] -/
def fireFlags (s : State) (c : Condition) (v : StepView) (t : OwnTime) : BitVec 8 :=
  let run := portRun (portBank s t.2.1) (flowMode s == .sentinel) t.2.1
  let roundPs := run.period * 2500 / run.slots
  let edge :=
    match v.seq.window with
    | some (op, cl) => condInside c &&
        ((decide (op * 1000 ≤ t.1 * 1000) && decide (t.1 * 1000 < op * 1000 + roundPs)) ||
         (decide (cl * 1000 ≤ t.1 * 1000 + roundPs) && decide (t.1 < cl)))
    | none => false
  BitVec.ofNat 8 (bits [false, edge, false, condUses c 7])

/-- FIRE of a condition (R317, R318, R320): recorded, or missed while the sequencer does not record or 16 records are
open. [DEDUCED, notes/assumptions/33] -/
def fire (c : Condition) (j k also : Nat) (v : StepView) (t : OwnTime) (s : State) : State :=
  let x := seqOf s v.q
  if !x.recording then missFire v.q false s
  else if 16 ≤ (openRecords s).length then missFire v.q true s
  else
    let listed := ((List.range 8).map fun i => paramNat s Pid.seqRecZone (idx2 v.q i)).filter (· != 0xFFFF)
    let e : RecordSeq := {
      seq := v.q, code := field c 4 2, fromState := k, cond := j, missed := x.missed,
      dead := (x.lastFire.map fun f => x.recordFrom - f).getD 0, alsoTrue := also,
      zones := if listed.isEmpty then condZones c else listed,
      preUs := paramNat s Pid.seqPreUs v.q, postUs := paramNat s Pid.seqPostUs v.q }
    let flags := fireFlags s c v t
    let s := bump Pid.seqFires v.q (onSeq v.q (fun x => { x with
      arm := .rearm, recording := false, missed := 0, lastFire := some t.1 }) s)
    let s := if paramBool s Pid.seqFireOut v.q && !condUses c 7 then onPtr (fun x => { x with fireOut := true }) s else s
    match (openRecords s).find? fun r => r.collecting && r.port == t.2.1 && r.round == t.2.2 with
    | some r => setRecord (recordJoin e flags r) s
    | none => recordOpen t.2.1 t.2.2 t.1 e flags s

/-- One sequencer's evaluation at a step (R308): the transition of its lowest true condition, and the flags it sets and
clears, which take effect at the end of the step. [DEDUCED, notes/assumptions/33] -/
def seqEvaluate (v : StepView) (s : State) : State × Nat × Nat :=
  let k := v.seq.state
  let st := seqState v.bank v.q k
  let hits := (List.range 4).filter fun j => condTrue s v (condOf st j)
  match hits with
  | [] => (s, 0, 0)
  | j :: rest =>
    let c := condOf st j
    let t := condTime s v c
    let s := onSeq v.q (applyActions s v c t.1) s
    let s := if actBit c 0 then fire c j k (bits ((List.range 4).map fun i => rest.contains i)) v t s else s
    let flag := 2 ^ (field c 6 1 % 8)
    (onSeq v.q (fun x => { x with state := field c 0 1 % 16 }) s, if actBit c 11 then flag else 0, if actBit c 12 then flag else 0)

/-- REARM ends at the first step at or after fire + rearm_us (R317); the master arm reaches the sequencer here (R316). -/
def seqArmAt (s : State) (q now : Nat) (x : Sequencer) : Sequencer :=
  let back := x.arm == .rearm && (x.lastFire.map fun f => decide (f + paramNat s Pid.seqRearmUs q * 1000 ≤ now)).getD true
  let arm := if back then .armed else x.arm
  let rec_ := arm == .armed && s.pointer.masterArmed
  { x with arm := arm, recording := rec_, recordFrom := if rec_ && !x.recording then now else x.recordFrom, lastStep := now }

/-- One step of sequencer `q` (R306, R308, R315). What reached it since its previous step is used up. [DEDUCED, notes/assumptions/33] -/
def seqStep (q p now round : Nat) (acc : State × Nat × Nat) : State × Nat × Nat :=
  let (s, set, clr) := acc
  let b := portBank s p
  let inbox := vecRead s.pointer.inbox q {}
  let s := onPtr (fun x => { x with inbox := vecUpdate x.inbox q fun _ => {} }) s
  if (seqOf s q).arm == .idle then (onSeq q (fun x => { x with lastStep := now }) s, set, clr)
  else
    let s := onSeq q (seqArmAt s q now) s
    let (s, a, c) := seqEvaluate ⟨seqOf s q, inbox, b, q, p, now, round⟩ s
    (s, set ||| a, clr ||| c)

/-- The step of every sequencer whose home port is `p` (R306, R308): flags change at its end, and SET wins. [DEDUCED, notes/assumptions/33] -/
def pointerStep (p : Nat) (t : Shot) (s : State) : State :=
  let qs := (List.range 8).filter fun q => portCfg s p Pid.seqPort q == (p : Int)
  let (s, set, clr) := qs.foldl (fun acc q => seqStep q p (netNs t.time) t.round acc) (s, 0, 0)
  let old := paramNat s Pid.ptrFlags 0
  paramPut Pid.ptrFlags 0 (((old &&& (255 - clr)) ||| set : Nat)) s

/-- Runs of a zone that a reader found, in order. -/
def zoneRuns (r : RingReader) (z : Nat) : List RingRun := r.runs.filter fun u => u.zone == z

/-- Is a covered zone's data copied from the ring (R322)? -/
def hasRingData (s : State) (z : Nat) : Bool :=
  ringAvailable s && zoneEnabled s z && portCfg s (zonePort z) Pid.zoneRing z != 0 && portCfg s (zonePort z) Pid.zoneRecipe z != 5

/-- Runs of a zone that the ring holds, oldest first (R322). -/
def ringRuns (s : State) (z : Nat) : List RingRun := zoneRuns (readPort s (zonePort z)) z

/-- Runs of a zone about a time with no block between them that yields nothing (R323, R347). -/
def intactRuns (s : State) (z ns : Nat) : List RingRun :=
  let rs := ringRuns s z
  let part := (((rs.filter fun u => decide (u.time ≤ ns)).getLast?).or rs.head?).map (·.part)
  rs.filter fun u => some u.part == part

/-- The copy stream of a zone's runs (R322, R334): one history for both components. -/
def copyStream (zone : Nat) (runs : List RingRun) : List Encoded :=
  let parts := runs.flatMap fun u => [(0, u, u.words.map phaseElem), (1, u, u.words.map ampElem)]
  (parts.foldl (fun (acc : List Encoded × List Elem × Nat) x =>
    let (es, hist, n) := acc
    let b : BlockInfo := ⟨x.1, 1, zone, x.2.1.first, x.2.1.round, n, x.2.1.holdover, n == 0⟩
    (es ++ [encodeBlock b hist x.2.2 none false], trimHistory (hist ++ x.2.2), n + 1)) ([], [], 0)).1

/-- Frame sequences of a zone whose last rounds lie in a span (R322). -/
def framesIn (s : State) (z lo hi : Nat) : Nat × Nat :=
  let fs := ((zoneOf s z).sentFrames.filter fun f => decide (lo ≤ f.2) && decide (f.2 < hi)).map (·.1)
  (fs.foldl Nat.min (fs.headD 0), fs.foldl Nat.max 0)

/-- A covered zone's entry at closing (R322, R326). -/
def closeZone (s : State) (at_ lo hi : Nat) (z : Nat) : RecordZone × List Encoded :=
  let (f0, f1) := framesIn s z lo hi
  if hasRingData s z then
    let runs := (intactRuns s z at_).filter fun u => decide (lo ≤ u.time) && decide (u.time < hi)
    let es := copyStream z runs
    ({ zone := z, data := 1, firstFrame := f0, lastFrame := f1, firstBlock := (runs.head?.map (·.block)).getD 0,
       lastBlock := (runs.getLast?.map fun u => u.block + 1).getD 0, copy := es.flatMap (·.bytes) }, es)
  else ({ zone := z, data := if zoneEnabled s z then 2 else 0, firstFrame := f0, lastFrame := f1 }, [])

/-- Bytes the record area has for copied data (R328, R386). -/
def recordCapacity (s : State) : Nat := vecRead s.memory.regions 1 0 * 65536 - 1024 * 512

/-- Copied bytes of a record. -/
def copiedBytes (r : EventRecord) : Nat := (r.zones.map fun z => z.copy.length).sum

/-- Free a record's copied data (R328). -/
def freeData (n : Nat) (s : State) : State :=
  match recordOf s n with
  | some r => endJobs (fun j => j.source == 1 && j.event == n) 2 (bump Pid.ptrDataFreed 0 (setRecord { r with
      flags := r.flags ||| 0x10#8, zones := r.zones.map fun z => { z with copy := [], stream := 0 } } s))
  | none => s

/-- Free the oldest records' data until all copies fit; record `n` keeps its own. -/
def fitData (fuel n : Nat) (s : State) : State :=
  match fuel with
  | 0 => s
  | fuel + 1 =>
    let rs := (s.pointer.records.map (·.2)).filter fun r => decide (0 < copiedBytes r)
    if (rs.map copiedBytes).sum ≤ recordCapacity s then s
    else
      match (rs.filter fun r => r.number != n).foldl (fun (m : Option Nat) r =>
        some (match m with | some k => if (n + 2 ^ 32 - k) % 2 ^ 32 < (n + 2 ^ 32 - r.number) % 2 ^ 32 then r.number else k | none => r.number)) none with
      | some k => fitData fuel n (freeData k s)
      | none => s

/-- The coincidence collection of a record ends (R320, R328). [DEDUCED, notes/assumptions/34] -/
def endCollection (r : EventRecord) (s : State) : State :=
  if r.collecting then
    post 0x2401 r.number (bits ((List.range 8).map fun q => r.seqs.any fun e => e.seq == q)) r.round
      (setRecord { r with collecting := false } s)
  else s

/-- The covered zones of a record whose data the ring holds (R322). -/
def recordFeeds (s : State) (r : EventRecord) : List Nat := (r.zones.map (·.zone)).filter (hasRingData s)

/-- Actual pre-trigger in ns (R323): back to the requested time, or to the oldest round that every covered ring zone still holds. [DEDUCED, notes/assumptions/34] -/
def preReach (s : State) (r : EventRecord) : Nat :=
  let at_ := netNs r.time
  let oldest := ((recordFeeds s r).map fun z => ((intactRuns s z at_).head?.map (·.time)).getD at_).foldl Nat.max (at_ - r.preReq * 1000)
  if s.pointer.areaSram then 0 else at_ - oldest

/-- One round of port `p` in ns (R311). -/
def portRoundNs (s : State) (p : Nat) : Nat :=
  let run := portRun (portBank s p) (flowMode s == .sentinel) p
  run.period * 5 / (2 * run.slots)

/-- Post-trigger in ns that every covered ring zone holds, up to the requested length; without one, the time since the fire (R324). [DEDUCED, notes/assumptions/34] -/
def postReach (s : State) (r : EventRecord) : Nat :=
  let at_ := netNs r.time
  let fed := recordFeeds s r
  if fed.isEmpty then min (r.postReq * 1000) (netNs (nowNet s) - at_)
  else (fed.map fun z => ((intactRuns s z at_).getLast?.map fun u => u.time + portRoundNs s (zonePort z) - at_).getD 0).foldl Nat.min (r.postReq * 1000)

/-- Close a record with a completeness (R323 to R325): 1 COMPLETE or 2 SHORT_PRE as its pre-trigger came out, or 3
INCOMPLETE. The actual lengths are those of the data copied. [DEDUCED, notes/assumptions/34; DEDUCED, notes/assumptions/145] -/
def closeRecord (incomplete : Bool) (n : Nat) (s : State) : State :=
  match recordOf s n with
  | none => s
  | some r =>
    if r.completeness ≠ 0 then s
    else
      let s := endCollection r s
      let at_ := netNs r.time
      let pre := preReach s r
      let after := if s.pointer.areaSram then 0 else if incomplete then postReach s r else r.postReq * 1000
      let closed := r.zones.map fun z => closeZone s at_ (at_ - pre) (at_ + after) z.zone
      let short := decide (pre < r.preReq * 1000)
      let errors := (((recordFeeds s r).map zonePort).eraseDups).flatMap fun p => (readPort s p).errors
      let r : EventRecord := { r with
        collecting := false, headerBad := [], preActual := pre / 1000, closed := nowNet s, postActual := after / 1000,
        completeness := if incomplete then 3 else if short then 2 else 1,
        flags := if short then r.flags ||| 0x01#8 else r.flags,
        zones := (closed.zipIdx).map fun (c, i) => if c.1.copy.isEmpty then c.1 else { c.1 with stream := s.pointer.nextStream + i } }
      let s := onPtr (fun x => { x with nextStream := x.nextStream + closed.length }) (setRecord r s)
      let s := closed.foldl (fun s c => countStream 9 c.2 false s) s
      let s := errors.foldl (fun s e => decodeError 0 e.1 e.2 s) s
      fitData s.pointer.records.length n (post 0x2402 n r.completeness r.flags.toNat s)

/-- Every open record closes INCOMPLETE (R324). [DESIGN CHOICE, notes/assumptions/44] -/
def closeAllRecords (s : State) : State := forEach ((openRecords s).map (·.number)) (closeRecord true) s

/-- Does the ring hold fire + post for every covered ring zone, and has the span passed for the frames of the others (R322, R323)? [DEDUCED, notes/assumptions/34] -/
def recordReady (s : State) (r : EventRecord) : Bool :=
  !r.collecting && decide (netNs r.time + r.postReq * 1000 ≤ nowNs s) && (recordFeeds s r).all fun z =>
    (ringRuns s z).any fun u => decide (netNs r.time + r.postReq * 1000 ≤ u.time + portRoundNs s (zonePort z))

/-- RECORD_CLOSE (R323, R347): the ring holds the record's post-trigger, so its data is copied and it closes; where a block in the
post-trigger part yields nothing, the copy ends there and it closes INCOMPLETE. [DEDUCED, notes/assumptions/34; DEDUCED, notes/assumptions/145] -/
def recordClose (n : Nat) (s : State) : State :=
  match recordOf s n with
  | some r =>
    if recordReady s r then
      let cut := !(recordFeeds s r).isEmpty && decide (postReach s r < r.postReq * 1000)
      closeRecord cut n s
    else s
  | none => s

/-- RECORD_CLOSE. -/
def execRecordClose (n : Nat) (s : State) : Host.Outcome State Fault Refusal := .next (recordClose n s)

/-- Round start `round` of port `p` ends collections of rounds three and more back (R320); without DRAM such records
close at once (R325). [DEDUCED, notes/assumptions/34] -/
def endCollections (p round : Nat) (s : State) : State :=
  let due := (openRecords s).filter fun r => r.collecting && r.port == p && decide (3 ≤ (round + 2 ^ 32 - r.round) % 2 ^ 32)
  forEach due (fun r s =>
    let s := endCollection r s
    if s.pointer.areaSram then closeRecord false r.number s else s) s

/-- Modes in which the unit reads and drives the trigger lines (R318). -/
def linesLive (m : Mode) : Bool :=
  m == .config || m == .survey || m == .run || m == .sentinel || m == .inhibit || m == .handover

/-- Is the master arm in force (R316)? Under FOLLOW (2) TRG_ARM_N must be low, and be read (R318). -/
def masterArmNow (s : State) : Bool :=
  paramBool s Pid.ptrMasterArm 0 &&
  (paramNat s Pid.ptrArmBus 0 != 2 || (s.pointer.armLow && linesLive s.mode.current))

/-- Is TRG_ARM_N driven low by this unit (R316)? -/
def trgArmDriven (s : State) : Bool :=
  paramNat s Pid.ptrArmBus 0 == 1 && paramBool s Pid.ptrMasterArm 0 && linesLive s.mode.current

/-- A change of the master arm posts MASTER_ARM with its cause (R316): 0 host, 1 TRG_ARM_N, 2 mode. -/
def updateMasterArm (cause : Nat) (s : State) : State :=
  let now := masterArmNow s
  if now == s.pointer.masterArmed then s
  else post 0x2403 (bit now) cause 0 (onPtr (fun x => { x with masterArmed := now }) s)

/-- TRG_ARM_N_CHANGE (R316): the line has stood 1 µs at its level. -/
def execTrgArmNChange (low : Bool) (s : State) : Host.Outcome State Fault Refusal :=
  .next (updateMasterArm 1 (onPtr (fun x => { x with armLow := low }) s))

/-- REMOTE_FIRE_EDGE (R319): a fall that begins while this unit does not drive the line reaches every sequencer. [DEDUCED, notes/assumptions/32] -/
def remoteFireEdge (s : State) : State :=
  if s.pointer.fireOut || !linesLive s.mode.current then s
  else
    let ns := nowNs s
    bump Pid.ptrRemoteFires 0 (onPtr (fun x => { x with inbox := x.inbox.map fun i => { i with remote := ns :: i.remote } }) s)

/-- REMOTE_FIRE_EDGE. -/
def execRemoteFireEdge (s : State) : Host.Outcome State Fault Refusal := .next (remoteFireEdge s)

/-- FIRE_PULSE_END (R318): `ptr.fire_pulse_us` after the last fire, TRG_FIRE_N is released. -/
def execFirePulseEnd (s : State) : Host.Outcome State Fault Refusal := .next (onPtr (fun x => { x with fireOut := false }) s)

/-- MASTER_ARM_WRITE (R316). -/
def execMasterArmWrite (on : Bool) (s : State) : Host.Outcome State Fault Refusal :=
  .next (updateMasterArm 0 (paramPut Pid.ptrMasterArm 0 (bit on) s))

/-- PTR_FLAGS_WRITE (R308): a host write takes effect at once, between steps. -/
def execPtrFlagsWrite (v : Nat) (s : State) : Host.Outcome State Fault Refusal :=
  .next (paramPut Pid.ptrFlags 0 (v % 256 : Nat) s)

/-- Disarm a sequencer with the cause of SEQ_DISARMED: 1 DISARM, 2 COMMIT, 3 DORMANT (R314, R315). -/
def disarm (cause q : Nat) (s : State) : State :=
  if (seqOf s q).arm == .idle then s
  else post 0x2404 q cause 0 (onSeq q (fun x => { x with
    arm := .idle, recording := false, disarmedByCommit := x.disarmedByCommit || cause == 2 }) s)

/-- ARMED in the initial state, with timers stopped, counters 0 and no window (R315). -/
def armSeq (q : Nat) (s : State) : State :=
  onSeq q (fun x => { x with
    arm := .armed, state := paramNat s Pid.seqInitialState q, timers := Vector.replicate 2 none,
    counters := Vector.replicate 2 0, window := none, lastFire := none, recordFrom := 0, recording := false, missed := 0 }) s

end Sys2Proof.Machine
end

