-- ==== Sys2Proof/Machine/SerifInsn.lean ====
section
/-! DEFINITION. The meanings of the Serif instructions (R246 to R258): each runs on one lane, as often as a preceding REP
says. An operand outside the range its row of R257
gives states no result there: the instruction runs with that one value free. -/

namespace Sys2Proof.Machine

/-- An instruction whose row states no result for its operand runs, as often as REP says, with a free value in that one place (R257). [DESIGN CHOICE, notes/assumptions/23] -/
def onLaneFree (l : Fin 128) (f : Nat → Lane → Lane) (s : State) : State :=
  onLane l (laneRetire (f (drawFree s).1)) (drawFree s).2

/-- LDI (R257): the sign-extended immediate. -/
def execLdi (l : Fin 128) (d : Fin 16) (v : BitVec 16) (s : State) : Host.Outcome State Fault Refusal :=
  .next (onLane l (laneRetire fun x => lanePut x d (v.signExtend 24)) s)

/-- LDIH (R257): bits [23:16] from the immediate, the others kept. -/
def execLdih (l : Fin 128) (d : Fin 16) (v : BitVec 8) (s : State) : Host.Outcome State Fault Refusal :=
  .next (onLane l (laneRetire fun x => lanePut x d ((v.setWidth 24 <<< 16) ||| (x.x.get d &&& 0xFFFF#24))) s)

/-- MOV (R257). -/
def execMov (l : Fin 128) (d a : Fin 16) (s : State) : Host.Outcome State Fault Refusal :=
  .next (onLane l (laneRetire fun x => lanePut x d (x.x.get a)) s)

/-- MOVS (R249, R257): a piece descriptor register. [DESIGN CHOICE, notes/assumptions/22] -/
def execMovs (l : Fin 128) (d n : Fin 16) (s : State) : Host.Outcome State Fault Refusal :=
  .next (onLane l (laneRetire fun x => lanePut x d (laneDescriptor x n)) s)

/-- SETA (R257): a pointer or offset register from a[13:0]. -/
def execSeta (l : Fin 128) (t a : Fin 16) (s : State) : Host.Outcome State Fault Refusal :=
  .next (onLane l (laneRetire fun x => laneSetAddr x t ((x.x.get a).setWidth 14)) s)

/-- SETAI (R257). -/
def execSetai (l : Fin 128) (t : Fin 16) (v : BitVec 14) (s : State) : Host.Outcome State Fault Refusal :=
  .next (onLane l (laneRetire fun x => laneSetAddr x t v) s)

/-- GETA (R257). -/
def execGeta (l : Fin 128) (d t : Fin 16) (s : State) : Host.Outcome State Fault Refusal :=
  .next (onLane l (laneRetire fun x => lanePut x d (laneGetAddr x t)) s)

/-- GETF (R247, R257): the lane flags. -/
def execGetf (l : Fin 128) (d : Fin 16) (s : State) : Host.Outcome State Fault Refusal :=
  .next (onLane l (laneRetire fun x => lanePut x d (x.flags.setWidth 24)) s)

/-- ADD (R252, R257): saturating. -/
def execAdd (l : Fin 128) (d a b : Fin 16) (s : State) : Host.Outcome State Fault Refusal :=
  .next (onLane l (laneRetire fun x => lanePutSat x d (laneInt x a + laneInt x b)) s)

/-- SUB (R252, R257): saturating. -/
def execSub (l : Fin 128) (d a b : Fin 16) (s : State) : Host.Outcome State Fault Refusal :=
  .next (onLane l (laneRetire fun x => lanePutSat x d (laneInt x a - laneInt x b)) s)

/-- ADDW (R252, R257): modulo 2^24, never saturating. -/
def execAddw (l : Fin 128) (d a b : Fin 16) (s : State) : Host.Outcome State Fault Refusal :=
  .next (onLane l (laneRetire fun x => lanePut x d (x.x.get a + x.x.get b)) s)

/-- SUBW (R252, R257): modulo 2^24, never saturating. -/
def execSubw (l : Fin 128) (d a b : Fin 16) (s : State) : Host.Outcome State Fault Refusal :=
  .next (onLane l (laneRetire fun x => lanePut x d (x.x.get a - x.x.get b)) s)

/-- AND (R257). -/
def execAnd (l : Fin 128) (d a b : Fin 16) (s : State) : Host.Outcome State Fault Refusal :=
  .next (onLane l (laneRetire fun x => lanePut x d (x.x.get a &&& x.x.get b)) s)

/-- OR (R257). -/
def execOr (l : Fin 128) (d a b : Fin 16) (s : State) : Host.Outcome State Fault Refusal :=
  .next (onLane l (laneRetire fun x => lanePut x d (x.x.get a ||| x.x.get b)) s)

/-- XOR (R257). -/
def execXor (l : Fin 128) (d a b : Fin 16) (s : State) : Host.Outcome State Fault Refusal :=
  .next (onLane l (laneRetire fun x => lanePut x d (x.x.get a ^^^ x.x.get b)) s)

/-- MIN (R257), signed. -/
def execMin (l : Fin 128) (d a b : Fin 16) (s : State) : Host.Outcome State Fault Refusal :=
  .next (onLane l (laneRetire fun x => lanePut x d (if laneInt x a ≤ laneInt x b then x.x.get a else x.x.get b)) s)

/-- MAX (R257), signed. -/
def execMax (l : Fin 128) (d a b : Fin 16) (s : State) : Host.Outcome State Fault Refusal :=
  .next (onLane l (laneRetire fun x => lanePut x d (if laneInt x a ≤ laneInt x b then x.x.get b else x.x.get a)) s)

/-- ABS (R252, R257): saturating. -/
def execAbs (l : Fin 128) (d a : Fin 16) (s : State) : Host.Outcome State Fault Refusal :=
  .next (onLane l (laneRetire fun x => lanePutSat x d (if laneInt x a < 0 then -laneInt x a else laneInt x a)) s)

/-- NEG (R252, R257): saturating. -/
def execNeg (l : Fin 128) (d a : Fin 16) (s : State) : Host.Outcome State Fault Refusal :=
  .next (onLane l (laneRetire fun x => lanePutSat x d (-laneInt x a)) s)

/-- SHLI (R252, R257): a × 2^n, saturating, n = 0–23. [DESIGN CHOICE, notes/assumptions/23] -/
def execShli (l : Fin 128) (d a : Fin 16) (n : BitVec 5) (s : State) : Host.Outcome State Fault Refusal :=
  if 23 < n.toNat then .next (onLaneFree l (fun v x => lanePutSat x d (signed 25 v)) s)
  else .next (onLane l (laneRetire fun x => laneShl x d (laneInt x a) n.toNat) s)

/-- SHRAI (R257): floor(a / 2^n), n = 0–23. [DESIGN CHOICE, notes/assumptions/23] -/
def execShrai (l : Fin 128) (d a : Fin 16) (n : BitVec 5) (s : State) : Host.Outcome State Fault Refusal :=
  if 23 < n.toNat then .next (onLaneFree l (fun v x => lanePut x d (BitVec.ofNat 24 v)) s)
  else .next (onLane l (laneRetire fun x => lanePutWrap x d (laneInt x a / 2 ^ n.toNat)) s)

/-- SHRLI (R257): logical right shift, n = 0–23. [DESIGN CHOICE, notes/assumptions/23] -/
def execShrli (l : Fin 128) (d a : Fin 16) (n : BitVec 5) (s : State) : Host.Outcome State Fault Refusal :=
  if 23 < n.toNat then .next (onLaneFree l (fun v x => lanePut x d (BitVec.ofNat 24 v)) s)
  else .next (onLane l (laneRetire fun x => lanePut x d (x.x.get a >>> n.toNat)) s)

/-- SHRRI (R252, R257): rhu(a, n), n = 0–23. [DESIGN CHOICE, notes/assumptions/23] -/
def execShrri (l : Fin 128) (d a : Fin 16) (n : BitVec 5) (s : State) : Host.Outcome State Fault Refusal :=
  if 23 < n.toNat then .next (onLaneFree l (fun v x => lanePut x d (BitVec.ofNat 24 v)) s)
  else .next (onLane l (laneRetire fun x => lanePutWrap x d (rhu (laneInt x a) n.toNat)) s)

/-- SHV (R257). -/
def execShv (l : Fin 128) (d a b : Fin 16) (s : State) : Host.Outcome State Fault Refusal :=
  .next (onLane l (laneRetire fun x => laneShv x d a b) s)

/-- CMP (R247, R257). -/
def execCmp (l : Fin 128) (a b : Fin 16) (s : State) : Host.Outcome State Fault Refusal :=
  .next (onLane l (laneRetire fun x => laneCmp x a b) s)

/-- SEL (R257). -/
def execSel (l : Fin 128) (d a b : Fin 16) (cond : Fin 4) (s : State) : Host.Outcome State Fault Refusal :=
  .next (onLane l (laneRetire fun x => lanePut x d (if laneCond x cond then x.x.get a else x.x.get b)) s)

/-- QOR (R257): q := q OR a[23:16]. -/
def execQor (l : Fin 128) (a : Fin 16) (s : State) : Host.Outcome State Fault Refusal :=
  .next (onLane l (laneRetire fun x => { x with q := x.q ||| (x.x.get a).extractLsb' 16 8 }) s)

/-- QGET (R257): d := q, then q := 0. -/
def execQget (l : Fin 128) (d : Fin 16) (s : State) : Host.Outcome State Fault Refusal :=
  .next (onLane l (laneRetire fun x => { lanePut x d (x.q.setWidth 24) with q := 0 }) s)

/-- EXP (R256). -/
def execExp (l : Fin 128) (d a : Fin 16) (s : State) : Host.Outcome State Fault Refusal :=
  .next (onLane l (laneRetire fun x => lanePut x d (BitVec.ofNat 24 (redundantSigns (x.x.get a)))) s)

/-- BXP (R256): e := min(e, EXP(a)). -/
def execBxp (l : Fin 128) (a : Fin 16) (s : State) : Host.Outcome State Fault Refusal :=
  .next (onLane l (laneRetire fun x => { x with e := BitVec.ofNat 5 (Nat.min x.e.toNat (redundantSigns (x.x.get a))) }) s)

/-- BXG (R256): d := e, then e := 23. -/
def execBxg (l : Fin 128) (d : Fin 16) (s : State) : Host.Outcome State Fault Refusal :=
  .next (onLane l (laneRetire fun x => { lanePut x d (x.e.setWidth 24) with e := 23 }) s)

/-- LD (R248, R257): 1–3 bytes; of no byte the value is free, and the pointer moves on. [DESIGN CHOICE, notes/assumptions/23] -/
def execLd (l : Fin 128) (d : Fin 16) (p o : Fin 8) (size : BitVec 2) (sign : Bool) (s : State) : Host.Outcome State Fault Refusal :=
  if size = 0 then .next (onLaneFree l (fun v x => laneBump (lanePut x d (BitVec.ofNat 24 v)) p o) s)
  else .next (onLane l (laneRetire fun x => laneLd x d p o size.toNat sign) s)

/-- ST (R248, R257): the low `size` bytes; of size 0 it stores none. [DESIGN CHOICE, notes/assumptions/23] -/
def execSt (l : Fin 128) (a : Fin 16) (p o : Fin 8) (size : BitVec 2) (s : State) : Host.Outcome State Fault Refusal :=
  .next (onLane l (laneRetire fun x => laneSt x a p o size.toNat) s)

/-- LDPT (R257): d even; of an odd d the two registers' values are free. [DESIGN CHOICE, notes/assumptions/23] -/
def execLdpt (l : Fin 128) (d : Fin 16) (p o : Fin 8) (s : State) : Host.Outcome State Fault Refusal :=
  if d.val % 2 = 1 then .next (onLaneFree l (fun v x => lanePutWord (laneLdpt x d p o) d (BitVec.ofNat 48 v)) s)
  else .next (onLane l (laneRetire fun x => laneLdpt x d p o) s)

/-- IN (R250, R257): d even; of an odd d the two registers' values are free. [DESIGN CHOICE, notes/assumptions/22; DESIGN CHOICE, notes/assumptions/23] -/
def execInInsn (l : Fin 128) (d : Fin 16) (s : State) : Host.Outcome State Fault Refusal :=
  if d.val % 2 = 1 then .next (onLaneFree l (fun v x => lanePutWord (laneIn x d) d (BitVec.ofNat 48 v)) s)
  else .next (onLane l (laneRetire fun x => laneIn x d) s)

/-- OUT (R251, R257): the low `size` bytes; of size 0 it pushes none. [DESIGN CHOICE, notes/assumptions/23] -/
def execOut (l : Fin 128) (a : Fin 16) (size : BitVec 2) (s : State) : Host.Outcome State Fault Refusal :=
  .next (onLane l (laneRetire fun x => laneOut x a size.toNat) s)

/-- FEAT (R251, R257): mode MAX, MIN or SUM; the mode a record takes of 3 is free. [DESIGN CHOICE, notes/assumptions/23] -/
def execFeat (l : Fin 128) (k : Fin 8) (a b : Fin 16) (mode : BitVec 2) (s : State) : Host.Outcome State Fault Refusal :=
  if mode = 3 then .next (onLaneFree l (fun v x => laneFeat x k a b (v % 3)) s)
  else .next (onLane l (laneRetire fun x => laneFeat x k a b mode.toNat) s)

/-- CLR (R253, R257). -/
def execClr (l : Fin 128) (j : Fin 4) (s : State) : Host.Outcome State Fault Refusal :=
  .next (onLane l (laneRetire fun x => laneAccSet x j 0) s)

/-- MAC (R253, R257). -/
def execMac (l : Fin 128) (j : Fin 4) (a b : Fin 16) (s : State) : Host.Outcome State Fault Refusal :=
  .next (onLane l (laneRetire fun x => laneMac x j a b false) s)

/-- MSU (R253, R257). -/
def execMsu (l : Fin 128) (j : Fin 4) (a b : Fin 16) (s : State) : Host.Outcome State Fault Refusal :=
  .next (onLane l (laneRetire fun x => laneMac x j a b true) s)

/-- MAC2 (R253, R257). -/
def execMac2 (l : Fin 128) (pr : Fin 2) (a b a2 b2 : Fin 16) (s : State) : Host.Outcome State Fault Refusal :=
  .next (onLane l (laneRetire fun x => laneMac2 x pr a b a2 b2) s)

/-- MACLD (R253, R257). -/
def execMacld (l : Fin 128) (j : Fin 4) (a b : Fin 16) (p o p2 o2 : Fin 8) (s : State) : Host.Outcome State Fault Refusal :=
  .next (onLane l (laneRetire fun x => laneMacld x j a b p o p2 o2) s)

/-- EXT (R254): sh = 0–48. [DEDUCED, notes/assumptions/21; DESIGN CHOICE, notes/assumptions/23] -/
def execExt (l : Fin 128) (d : Fin 16) (j : Fin 4) (sh : BitVec 6) (s : State) : Host.Outcome State Fault Refusal :=
  if 48 < sh.toNat then .next (onLaneFree l (fun v x => if x.flags.getLsbD (flagAov + j) then laneExt x d j 0
    else lanePutSat x d (signed 25 v)) s)
  else .next (onLane l (laneRetire fun x => laneExt x d j sh.toNat) s)

/-- LDA (R253, R257): mj := a × 2^sh. -/
def execLda (l : Fin 128) (j : Fin 4) (a : Fin 16) (sh : BitVec 5) (s : State) : Host.Outcome State Fault Refusal :=
  .next (onLane l (laneRetire fun x => laneAccSet x j (laneInt x a * 2 ^ sh.toNat)) s)

/-- ADDA (R253, R257). -/
def execAdda (l : Fin 128) (j j2 : Fin 4) (s : State) : Host.Outcome State Fault Refusal :=
  .next (onLane l (laneRetire fun x => laneAccAdd x j (x.m.get j2).toInt) s)

/-- LOG2 (R255). -/
def execLog2 (l : Fin 128) (d : Fin 16) (j : Fin 4) (s : State) : Host.Outcome State Fault Refusal :=
  .next (onLane l (laneRetire fun x => lanePut x d (laneLog2 (x.m.get j))) s)

/-- NOP (R257). [DESIGN CHOICE, notes/assumptions/23] -/
def execNop (l : Fin 128) (s : State) : Host.Outcome State Fault Refusal :=
  .next (onLane l (laneRetire fun x => x) s)

/-- REP (R258): the next instruction runs n times. A REP may not stand under another: then the number of repeats is free. [DESIGN CHOICE, notes/assumptions/23] -/
def execRep (l : Fin 128) (nMinus1 : BitVec 12) (s : State) : Host.Outcome State Fault Refusal :=
  if (laneOf s l).rep.isSome then
    .next (onLaneFree l (fun _ x => x) s |> onLane l fun x => { x with rep := some ((drawFree s).1 % 4096 + 1) })
  else .next (onLane l (fun x => { x with rep := some (nMinus1.toNat + 1), pc := x.pc + 1, cycles := x.cycles + 1 }) s)

/-- LOOPI (R257): c := n, n = 1–65,535; of 0 the counter is free. [DESIGN CHOICE, notes/assumptions/23] -/
def execLoopi (l : Fin 128) (c : Fin 4) (n : BitVec 16) (s : State) : Host.Outcome State Fault Refusal :=
  if n = 0 then .next (onLaneFree l (fun v x => { x with c := x.c.set c (BitVec.ofNat 16 v) }) s)
  else .next (onLane l (laneRetire fun x => { x with c := x.c.set c n }) s)

/-- LOOPP (R257): c := POINTS. [DESIGN CHOICE, notes/assumptions/22; DESIGN CHOICE, notes/assumptions/23] -/
def execLoopp (l : Fin 128) (c : Fin 4) (s : State) : Host.Outcome State Fault Refusal :=
  .next (onLane l (laneRetire fun x => { x with c := x.c.set c (BitVec.ofNat 16 ((x.piece.map (·.points)).getD 0)) }) s)

/-- DBNZ (R257): backwards only; of an offset that is not negative the place it goes to is free, and under REP the counter too (R258). [DESIGN CHOICE, notes/assumptions/23] -/
def execDbnz (l : Fin 128) (c : Fin 4) (off : BitVec 16) (s : State) : Host.Outcome State Fault Refusal :=
  if (laneOf s l).rep.isSome then
    .next (onLaneFree l (fun v x => { x with c := x.c.set c (BitVec.ofNat 16 v) }) s |> onLane l fun x => { x with
      pc := (drawFree s).1 / 2 ^ 16 })
  else if ¬ off.toInt < 0 then
    .next (onLane l (fun x => laneDbnz x c 0) (drawFree s).2 |> onLane l fun x => { x with
      pc := if x.c.get c = 0 then x.pc else (drawFree s).1 })
  else .next (onLane l (fun x => laneDbnz x c off) s)

/-- End of a piece's flags: counters and sticky bits (R247, R268, R270, R271) and the events of R272. [DEDUCED, notes/assumptions/25] -/
def pieceFlags (l : Nat) (s : State) : State :=
  let x := laneOf s l
  let zone := (x.piece.map (·.zone)).getD 0
  let sat := x.flags.getLsbD flagSat
  let aov := x.flags.extractLsb' 3 4 != 0
  let acc := x.flags.getLsbD flagAccess
  let s := if sat then bump Pid.serifSatCount 0 s else s
  let s := if aov then bump Pid.serifAccOvfCount 0 s else s
  let s := if acc then bump Pid.serifAccessCount 0 s else s
  let sticky : BitVec 6 := BitVec.ofNat 6 (bits [sat, aov, acc])
  let s := { s with serif := { s.serif with status := s.serif.status ||| sticky } }
  let s :=
    if (sat || aov) && paramBool s Pid.serifSatEvents 0 then
      let (hit, r) := rateHit s.ticks 1 zone s.serif.satRate
      let s := { s with serif := { s.serif with satRate := r } }
      match hit with
      | some (n, z) => post 0x2001 z n 0 s
      | none => s
    else s
  if acc then
    let (hit, r) := rateHit s.ticks 1 zone s.serif.accessRate
    let s := { s with serif := { s.serif with accessRate := r } }
    match hit with
    | some (n, z) => post 0x2003 z n 0 s
    | none => s
  else s

/-- Output of a piece at END (R251): exactly the expected bytes when its output is due, none otherwise; a mismatch
counts and posts SERIF_OUTPUT. [DEDUCED, notes/assumptions/25] -/
def pieceOutput (l : Nat) (s : State) : State :=
  let x := laneOf s l
  match x.piece with
  | none => s
  | some d =>
    if !d.emit then onLane l (fun x => { x with output := [], features := [] }) s
    else if x.output.length = d.expected then s
    else
      post 0x2004 d.zone x.output.length d.expected (bump Pid.serifOutMismatch 0
        (onLane l (fun x => { x with output := slice x.output 0 d.expected }) s))

/-- The Herder keeps what a piece pushed when its output is due (R251). [DEDUCED, notes/assumptions/25] -/
def pieceResult (l : Nat) (s : State) : State :=
  let x := laneOf s l
  match x.piece with
  | some d =>
    if d.emit then { s with serif := { s.serif with results :=
      s.serif.results ++ [⟨d.zone, d.round, d.slice, d.firstPoint, x.output, x.features⟩] } } else s
  | none => s

/-- The history a piece leaves in its window is its zone's, by point (R248), unless that restarted meanwhile. -/
def pieceKeep (l : Nat) (s : State) : State :=
  let x := laneOf s l
  match x.piece with
  | some d =>
    if d.forget || d.points = 0 then s
    else
      let kept := (List.range d.histLen).map fun i => Store.read (fun _ => 0) x.mem (d.histBase + i)
      inService d.zone d.epoch
        (onZone d.zone fun z => { z with userHist := fillBytes z.userHist (d.firstPoint * (d.histLen / d.points)) kept }) s
  | none => s

/-- END (R245, R247, R248, R251): the piece ends, and the lane's next starts. [DESIGN CHOICE, notes/assumptions/22; DESIGN CHOICE, notes/assumptions/23] -/
def execEndInsn (l : Fin 128) (s : State) : Host.Outcome State Fault Refusal :=
  .next (onLane l (fun x => laneNext { x with rep := none, pc := x.pc + 1, cycles := x.cycles + 1 })
    (pieceKeep l (pieceResult l (pieceOutput l (pieceFlags l s)))))

end Sys2Proof.Machine
end

