-- ==== Sys2Proof/Machine/Modes.lean ====
section
/-! DEFINITION. What every change of mode shares: lamps and cut shots when the emission chain moves (R157, R499, R509),
the leash outside takes (R499, R501), the switch of a bank at a port (R93, R204, R234), and entry into INHIBIT, FAULT
and RESET (R78, R84, R85, R89). -/

namespace Sys2Proof.Machine

/-- Update the mode machine. -/
def onMode (f : ModeState → ModeState) (s : State) : State := { s with mode := f s.mode }
/-- Update the safety and panel unit. -/
def onSafety (f : Safety → Safety) (s : State) : State := { s with safety := f s.safety }
/-- Update the pair unit. -/
def onPair (f : Pair → Pair) (s : State) : State := { s with pair := f s.pair }
/-- Update the banks. -/
def onBanks (f : Banks → Banks) (s : State) : State := { s with banks := f s.banks }

/-! ## Lamps and cut shots -/

/-- The status indication (R513): the first row of its table that holds, from 0. -/
def statusRow (s : State) : Nat :=
  let withdrawn (p : Nat) : Bool := portEnabled s p && (!portPermit s p || (profilePort s && !indTerm s p))
  if s.safety.locateMask.getLsbD 4 then 0
  else if pairEnabled s && pullOkNow s then 1
  else if s.mode.current == .fault then 2
  else if s.safety.estop then 3
  else if s.mode.current == .inhibit || !devicePermit s then 4
  else if s.mode.current == .reset || s.mode.current == .boot then 5
  else if s.mode.current == .handover then 6
  else if allPorts.any withdrawn then 7
  else
    match s.mode.current with
    | .run => 8
    | .sentinel | .mirror => 9
    | .dormant => 10
    | .test => 12
    | _ => 11

/-- Red, green, blue of the status lamp (R513). -/
def statusColour (s : State) : Bool × Bool × Bool :=
  match statusRow s with
  | 0 => (true, true, true)
  | 1 => (false, false, true)
  | 2 | 3 | 4 => (true, false, false)
  | 8 | 9 | 10 => (false, true, false)
  | 12 => (true, false, true)
  | _ => (true, true, false)

/-- Flash of a row of R513: its period and its lit part in ms; period 0 is steady. -/
def statusFlash (row : Nat) : Nat × Nat :=
  match row with
  | 0 | 3 | 6 => (250, 125)
  | 4 | 5 | 7 => (1000, 500)
  | 9 => (2000, 1000)
  | 10 => (5000, 100)
  | _ => (0, 0)

/-- A flash of a period and a lit part in ms shows its light now: its periods count from tick 0. -/
def flashOn (s : State) (period lit : Nat) : Bool := period == 0 || decide (s.ticks / msTicks 1 % period < lit)

/-- Red, green, blue that the status lamp shows now (R513): green and red alternate while a port is withdrawn. -/
def statusNow (s : State) : Bool × Bool × Bool :=
  let row := statusRow s
  let (r, g, b) := statusColour s
  let on := flashOn s (statusFlash row).1 (statusFlash row).2
  if row = 7 then (!on, on, false) else (r && on, g && on, b && on)

/-- Status colours that channel `j` shows. -/
def statusShows (s : State) (j : Nat) : Bool :=
  let (r, g, b) := statusColour s
  ([r, g, b].zipIdx).any fun (on, c) => on && paramNat s Pid.panelStatusLed c == j

/-- Does channel `j` show the status lamp (R513)? -/
def statusChannel (s : State) (j : Nat) : Bool := [0, 1, 2].any fun c => paramNat s Pid.panelStatusLed c == j

/-- Is channel `j` an indicator that shows emission (R509)? -/
def emissionLamp (s : State) (j : Nat) : Bool :=
  (j == indicatorLed s && allPorts.any (swsel s)) || (profilePort s && allPorts.any fun p => j == locatorLed s p && swsel s p)

/-- A write of `panel.locate_mask` flashes locator channel `j` (R514). -/
def locatorFlashes (s : State) (j : Nat) : Bool := allPorts.any fun p => locatorLed s p == j && s.safety.locateMask.getLsbD p

/-- Is channel `j` lit (R509, R510, R513, R514)? The lamps are Z in RESET (R34). [DESIGN CHOICE, notes/assumptions/127] -/
def lampLit (s : State) (j : Nat) : Bool :=
  s.mode.current != .reset && s.power.aon &&
  (emissionLamp s j ||
    (ledEnabled s j && ((statusChannel s j && statusShows s j) || (!statusChannel s j && paramNat s Pid.ledBrightness j != 0) ||
      locatorFlashes s j)))

/-- Brightness f of channel `j` while it is lit, in 65,535ths (R509, R510, R513, R514): a lit indicator at full duty, and a flashing
locator that shows emission between full brightness and 25 %. -/
def ledLevel (s : State) (j : Nat) : Nat :=
  if emissionLamp s j then (if locatorFlashes s j && j != indicatorLed s && !flashOn s 500 250 then 16384 else 65535)
  else if statusChannel s j then paramNat s Pid.panelStatusBrightness 0
  else if locatorFlashes s j && paramNat s Pid.ledBrightness j == 0 then 65535
  else paramNat s Pid.ledBrightness j

/-- On-time per period of 50 µs in steps of 20 ns (R510): round(50 µs × f / max(f, 0.25) / 20 ns). -/
def ledOnTime (s : State) (j : Nat) : Nat :=
  let f := ledLevel s j
  if 65535 ≤ 4 * f then 2500 else (rhuDiv (10000 * f : Nat) 65535).toNat

/-- Denominator of `ledCurrent`: 65,535 × 4 × 2^15. -/
def ledUnit : Nat := 65535 * 4 * 32768

/-- Sink current I in mA / `ledUnit` (R510): max_ma × max(f, 0.25) × trim, at most 40 mA; trim is 1 except on the status channels. -/
def ledCurrent (s : State) (j : Nat) : Nat :=
  let trim := ((([0, 1, 2].find? fun c => paramNat s Pid.panelStatusLed c == j).map fun c => vecRead s.safety.cfbTrim c 0x8000).getD 0x8000)
  min (40 * ledUnit) (paramNat s Pid.ledMaxMa j * max (4 * ledLevel s j) 65535 * trim)

/-- Is the lit channel `j` in the light phase of its flash now (R513, R514)? A channel that shows emission is never dark. [DESIGN CHOICE, notes/assumptions/127] -/
def ledPhase (s : State) (j : Nat) : Bool :=
  if emissionLamp s j then true
  else if statusChannel s j then
    let (r, g, b) := statusNow s
    ([r, g, b].zipIdx).any fun (on, c) => on && paramNat s Pid.panelStatusLed c == j
  else if locatorFlashes s j then flashOn s 500 250
  else true

/-- Channel `j` is driven in its periods now (R34, R510): lit, and in the light phase of its flash. -/
def ledNow (s : State) (j : Nat) : Bool := lampLit s j && ledPhase s j

/-- Is channel `j` diagnosed by stretched pulses (R511)? A lit channel with an on-time below 2 µs, the indicator and, under PORT,
every enabled port's locator; no lamp in RESET (R34). -/
def lampStretched (s : State) (j : Nat) : Bool :=
  let watched := j == indicatorLed s || (profilePort s && allPorts.any fun p => portEnabled s p && locatorLed s p == j)
  s.mode.current != .reset && s.power.aon && (if lampLit s j then decide (ledOnTime s j < 100) else watched)

/-- Relight the lamps: a channel that goes dark, or lights anew, has passed no diagnosis in its lit interval (R499). -/
def relight (s : State) : State :=
  onSafety (fun x => { x with leds := Vector.ofFn fun j : Fin 16 =>
    let l := x.leds.get j
    let now := lampLit s j.val
    { l with lit := now, litGood := l.litGood && l.lit && now, stretch := lampStretched s j.val } }) s

/-- RAMTRGp goes low (R157); a pulse that has not risen yet is suppressed, and its launch is not counted (R156). -/
def cutPulse (p : Nat) (s : State) : State :=
  match (portOf s p).ramTrg with
  | some r =>
    let s1 := onPort p (fun x => { x with ramTrg := none }) s
    if s.ticks < r then ramanUnlaunch p s1 else s1
  | none => s

/-- Port `p` loses permission (R157): shots whose gate is open are cut short and lost, one whose gate is open before its fire time is lost
when that comes, and the port waits for slot 0. `lead` says that the next shot's gate was open. [DESIGN CHOICE, notes/assumptions/110; DESIGN CHOICE, notes/assumptions/119] -/
def cutPort (lead : Nat → Bool) (p : Nat) (s : State) : State :=
  let live := (portOf s p).shots.filter fun t => t.fired && !t.lost && decide (s.ticks < gateEnd s p t)
  let s := forEach live (fun t s => markLost p t.round (onPort p (fun x => { x with
    shots := x.shots.map fun u => if u.round = t.round then { u with cut := true } else u }) s)) s
  cutPulse p (onPort p (fun x => { x with awaitSlot0 := true, leadCut := x.leadCut || lead p }) s)

/-- After any change of a term or of the mode: lamps follow, and ports that emitted and no longer do are cut. [DESIGN CHOICE, notes/assumptions/110] -/
def settle (old s : State) : State :=
  let s := relight s
  forEach (allPorts.filter fun p => emitEn old p && !emitEn s p) (cutPort (inLead old)) s

/-- Each withdrawal posts EMISSION_STOPPED once and counts (R501). [DEDUCED, notes/assumptions/49; DESIGN CHOICE, notes/assumptions/110] -/
def emissionStopped (terms ports : Nat) (s : State) : State :=
  post 0x3401 terms ports s.safety.sticky.toNat (bump Pid.safetyInhibits 0 s)

/-! ## The leash and the mode -/

/-- Stop driving ILK_N: OWN clears (R474, R475). -/
def stopDriving (s : State) : State :=
  onPair (fun x => { x with driving := false, own := false, retest := false, ilkHeld := if x.driving then false else x.ilkHeld }) s

/-- Begin to drive ILK_N, unless a JTAG test holds it released (R459); OWN waits for its test (R474). -/
def startDriving (s : State) : State :=
  if s.pair.driving || s.links.jtagTest then s else onPair (fun x => { x with driving := true, own := false, retest := false }) s

/-- The leash that a mode calls for outside takes: a single unit drives in SURVEY, RUN, SENTINEL and INHIBIT (R499); a
paired one keeps what it holds in RUN, SENTINEL, INHIBIT, DORMANT and HANDOVER (R464). -/
def modeLeash (s : State) : State :=
  let m := s.mode.current
  if pairEnabled s then
    if m == .run || m == .sentinel || m == .inhibit || m == .dormant || m == .handover then s else stopDriving s
  else if m == .survey || m == .run || m == .sentinel || m == .inhibit then startDriving s
  else stopDriving s

/-- FIRE terms of a mode (R498). -/
def modeFire (s : State) : BitVec 4 :=
  match s.mode.current with
  | .run | .sentinel => BitVec.ofNat 4 (portBits (portEnabled s))
  | .survey => BitVec.ofNat 4 (portBits fun p => (portOf s p).surveying)
  | .handover => s.safety.fire
  | _ => 0

/-- Modes in which replay jobs go on (R359). -/
def replayMode (m : Mode) : Bool := m == .config || m == .run || m == .sentinel || m == .inhibit

/-- `mode.current` shows a new mode under transition `n` (R78, R135). [DEDUCED, notes/assumptions/89] -/
def setMode (m : Mode) (n : Nat) (s : State) : State :=
  let old := s
  let s := onMode (fun x => { x with previous := x.current, current := m }) s
  let s := modeLeash s
  let s := onSafety (fun x => { x with fire := modeFire s }) s
  let s := if firingMode m || m == .handover then s else { s with ports := s.ports.map fun x => { x with gridRunning := false, dark := true, stopping := false, awake := x.awake && m == .mirror } }
  let s := settle old s
  let s := bump Pid.modeTransitions 0 s
  let s := if replayMode m then s else endJobs (fun _ => true) 4 s
  let s := if linesLive m then s else onPtr (fun x => { x with fireOut := false }) s
  updateMasterArm 2 (post 0x0210 (modeCode old.mode.current) (modeCode m) n s)

/-- End the request that a transition carries (R79, R146). -/
def endOrigin (t : Transition) (j : JState) (status detail : Nat) (s : State) : State :=
  match t.origin with
  | .host n | .internal n => journalEnd n j status detail (if j = .done then journalStep n s else s)
  | .none => s

/-- A higher trigger interrupts the transition in progress (R79). [DESIGN CHOICE, notes/assumptions/59] -/
def interruptTransition (status : Nat) (s : State) : State :=
  match s.mode.inProgress with
  | some t =>
    endOrigin t .part status 0 (onMode (fun x => { x with inProgress := none })
      { s with ports := s.ports.map fun x => { x with stopping := false } })
  | none => s

/-- The survey's journal entry ends: ports still surveyed are cut off (R175, R176). -/
def endSurvey (status : Nat) (s : State) : State :=
  let n := s.mode.surveyJournal
  let left := allPorts.filter fun p => (portOf s p).surveying
  if n = 0 && left.isEmpty then s
  else
    let s := forEach left (fun p s =>
      post 0x1005 p 4 (portOf s p).survey.endCell (onPort p (fun x => { x with
        surveying := false, survey := { x.survey with result := 4, journal := n, time := nowNet s } }) s)) s
    let part := s.mode.surveyFailed || !left.isEmpty
    journalEnd n (if part then .part else .done) (if part then status else 0) 0
      (onMode (fun x => { x with surveyJournal := 0, surveyFailed := false }) s)

/-! ## The switch of a bank at a port -/

/-- Does any at-commit field of zone `z` differ between two banks? -/
def zoneDiffers (a b : Bank) (z : Nat) : Bool :=
  paramTable.any fun d => d.id / 256 == 0x18 && d.effect == .atCommit &&
    (match d.family with
     | .idx2 _ m => (List.range m).any fun k => bankRead a d.id (idx2 z k) != bankRead b d.id (idx2 z k)
     | _ => bankRead a d.id z != bankRead b d.id z)

/-- Does a glyph that port `p` uses (its directory entry or its memory words), or its choice, differ (R204 cause 2)? -/
def glyphDiffers (a b : Bank) (p : Nat) : Bool :=
  (List.range (bankPort b p Pid.portSlots 0)).any fun k =>
    let g := bankPort b p Pid.portSlotGlyph k
    let base := bankPort b p Pid.portGlyphBase g
    bankPort a p Pid.portSlotGlyph k != g ||
    [Pid.portGlyphBase, Pid.portGlyphSamples, Pid.portGlyphFormat, Pid.portGlyphGain].any (fun id => bankPort a p id g != bankPort b p id g) ||
    (List.range (glyphWords b p g)).any fun i => glyphWord a p (base + i) != glyphWord b p (base + i)

/-- Does N, the grid period, `trace_cells` or `origin_cells` of port `p` differ (R204 cause 1)? In SENTINEL, N and the period are those
of R81. -/
def gridDiffers (sentinel : Bool) (a b : Bank) (p : Nat) : Bool :=
  (sentinel && portRun a true p != portRun b true p) ||
  bankRead a Pid.gridPeriodCells p != bankRead b Pid.gridPeriodCells p ||
  [Pid.portSlots, Pid.portTraceCells, Pid.portOriginCells].any fun id => bankPort a p id 0 != bankPort b p id 0

/-- Does sequencer `q`'s definition or a parameter of it differ (R314)? -/
def seqDiffers (a b : Bank) (q : Nat) : Bool :=
  (List.range 16).any (fun k => seqState a q k != seqState b q k) ||
  paramTable.any fun d => d.effect == .atCommit && decide (0x2420 ≤ d.id) && decide (d.id ≤ 0x242F) &&
    (match d.family with
     | .idx2 _ m => (List.range m).any fun k => bankRead a d.id (idx2 q k) != bankRead b d.id (idx2 q k)
     | _ => bankRead a d.id q != bankRead b d.id q)

/-- A zone's state at the start of its service: history from zero, the next output carries EDGE (R234, R235); a GAP marker that waits
still precedes its next frame (R233). -/
def freshZone (x : ZoneState) : ZoneState := {
  frameSeq := x.frameSeq, sentFrames := x.sentFrames, fed := x.fed, lastOut := x.lastOut, gap := x.gap }

/-- Flags of a zone from its grant; suspension and resumption are posted (R228, R233, R240). -/
def applyGrant (cause z : Nat) (s : State) : State :=
  let b := portBank s (zonePort z)
  let x := zoneOf s z
  match grantOf (planInForce s (zonePort z)) z with
  | none => onZone z (fun x => { x with degraded := false, paged := false, suspended := false }) s
  | some g =>
    let s := onZone z (fun x => { x with degraded := grantDegraded g && !g.suspended, paged := g.paged, suspended := g.suspended }) s
    if g.suspended && !x.suspended then
      let s := match (portOf s (zonePort z)).shots.head? with
        | some t => if (Store.get? s.herder.leaving z).isSome then s else closeWindow b z t s
        | none => s
      post 0x1801 z cause (zoneNat b Pid.zoneClass z) s
    else if x.suspended && !g.suspended then
      let s := noteGap z 0 2 (onZone z (fun x => { x with edge := true, gathered := 0, out := [], feats := [] }) s)
      post 0x1802 z (((zoneOf s z).gap.map (·.1)).getD 0) 0 s
    else s

/-- Apply the plan's grants to the zones of port `p`. -/
def applyGrants (cause p : Nat) (s : State) : State :=
  forEach ((enabledZones (portBank s p)).filter fun z => zonePort z == p) (applyGrant cause) s

/-- Open records that cover a zone of port `p` which the new bank disables close INCOMPLETE, under the old bank (R324). [DESIGN CHOICE, notes/assumptions/29] -/
def closeDisabled (old new : Bank) (p : Nat) (s : State) : State :=
  let gone (z : Nat) : Bool := zonePort z == p && bankRead old Pid.zoneEnable z != 0 && bankRead new Pid.zoneEnable z == 0
  forEach ((openRecords s).filter fun r => r.zones.any fun e => gone e.zone) (fun r s => closeRecord true r.number s) s

/-- One zone of port `p` at its switch (R234): the frame sequence restarts at 0 when a disabled zone is enabled (R230). -/
def switchZone (old new : Bank) (z : Nat) (s : State) : State :=
  let was := bankRead old Pid.zoneEnable z != 0
  let is := bankRead new Pid.zoneEnable z != 0
  if was && !is then onZone z freshZone s
  else if is && !was then onZone z (fun x => { freshZone x with frameSeq := 0, gap := none, lastOut := none }) s
  else if is && zoneDiffers old new z then onZone z (fun x => { freshZone x with idle := x.idle }) s
  else s

/-- The service of zone `z` under the bank `old` ends at its port's switch after round `last` (R234): what it has in work goes on beside the
new service until it is done. `own` says that the switch changes or disables the zone. -/
def leaveService (old : Bank) (z last : Nat) (own : Bool) (s : State) : State :=
  let s := match Store.get? s.herder.leaving z with | some l => endService z l s | none => s
  let l : Leaving := { epoch := old.epoch, last := last, div := grantedDiv s z, delay := dispatchDelay s old z,
                       pieces := (planInForce s (zonePort z)).pieces.filter (·.zone == z),
                       state := if own then some { zoneOf s z with gap := none } else none }
  { s with herder := { s.herder with leaving := Store.put s.herder.leaving z l } }

/-- Old services of port `p` end at once (R234): no further round of it starts. -/
def endServices (p : Nat) (s : State) : State :=
  forEach (s.herder.leaving.filter fun e => zonePort e.1 == p) (fun (z, l) s => endService z l s) s

/-- In SENTINEL, the zones of a new bank that it does not serve idle, and those that it serves do not (R81). -/
def idleFollows (new : Bank) (z : Nat) (s : State) : State :=
  if flowMode s == .sentinel then
    onZone z (fun x => { x with idle := bankRead new Pid.zoneEnable z != 0 && !sentinelServes new z }) s
  else s

/-- The zones of the port: all 256 numbers (R12). -/
def portZones (p : Nat) : List Nat := (List.range 256).map (256 * p + ·)

/-- The zones that ran under the old bank pass to its service until their shots in flight are processed (R93, R233). -/
def switchServices (old new : Bank) (p : Nat) (s : State) : State :=
  match (portOf s p).shots.head? with
  | some t => forEach ((portZones p).filter fun z => bankRead old Pid.zoneEnable z != 0) (fun z s =>
      leaveService old z t.round (bankRead new Pid.zoneEnable z == 0 || zoneDiffers old new z) s) s
  | none => s

/-- The port's zones under the new bank (R93, R218, R235), and its sequencers' levels start again (R310). -/
def switchZones (old new : Bank) (p : Nat) (s : State) : State :=
  let s := forEach (portZones p) (fun z s => idleFollows new z (switchZone old new z s)) s
  onPtr (fun x => { x with level := x.level.filter fun e => zonePort (e.1 / 8) != p }) s

/-- The port's emission and reference points under the new bank: enabled, disabled, re-baselined for its grid or its glyphs (R93, R204). -/
def switchGrid (old new : Bank) (p : Nat) (s : State) : State :=
  let on (b : Bank) : Bool := bankPort b p Pid.portEnable 0 != 0
  if on new && !on old then onPort p (fun x => { x with rebaseNext := some (0, 3), awake := firingMode s.mode.current, awaitSlot0 := true, dark := true }) s
  else if on old && !on new then endServices p (onRaman p (fun x => { x with dark := none })
    (ramanDiscard p 2 (onPort p (fun x => { x with awake := false, gridRunning := false }) s)))
  else if on new && gridDiffers (flowMode s == .sentinel) old new p then rebaseline p 0 1 (onPort p (fun x => { x with ranAs := none }) s)
  else if on new && glyphDiffers old new p then rebaseline p 1 2 s
  else s

/-- A Raman chain that the new bank switches off drops its trace (R280). -/
def switchRaman (old new : Bank) (p : Nat) (s : State) : State :=
  if bankRead old Pid.ramanEnable p != 0 && bankRead new Pid.ramanEnable p == 0 then
    onRaman p (fun x => { x with dark := none }) (ramanDiscard p 2 s)
  else s

/-- The port's slots start again at 0 at the switch, and its grid with them where period or offset moved (R93). -/
def switchSlots (old new : Bank) (p : Nat) (s : State) : State :=
  let moved := gridDiffers (flowMode s == .sentinel) old new p || bankRead old Pid.gridOffsetCells p != bankRead new Pid.gridOffsetCells p
  onPort p (fun x => { x with nextSlot := 0, gridRunning := x.gridRunning && !moved }) s

/-- The last port's switch starts or drops the ring (R354) and brings the permission of the mode in force. -/
def switchLast (old new : Bank) (s : State) : State :=
  let s := if bankRead old Pid.ringEnable 0 == 0 && bankRead new Pid.ringEnable 0 != 0 then ringRestart 5 s
    else if bankRead old Pid.ringEnable 0 != 0 && bankRead new Pid.ringEnable 0 == 0 then ringDrop s else s
  onSafety (fun x => { x with fire := modeFire s }) s

/-- Port `p` switches to the new bank (R93): windows close, zones change, the Stroke re-baselines (R204), a changed or
disabled accumulator follows R280, sequencers whose definition changed are disarmed, and the ring takes a checkpoint. [DEDUCED, notes/assumptions/145] -/
def switchPort (p : Nat) (s : State) : State :=
  match s.banks.switch with
  | none => s
  | some w =>
    if !w.portsLeft.getLsbD p then s
    else
      let old := w.old
      let new := s.banks.active
      let left := w.portsLeft &&& ~~~(1#4 <<< p)
      let s := onRaman p (fun x => { x with traceCount := 0 }) (closeDisabled old new p (switchServices old new p s))
      let s := onBanks (fun b => { b with switch := if left == 0 then none else some { w with portsLeft := left } }) s
      let s := switchRaman old new p (switchGrid old new p (switchZones old new p s))
      let s := forEach ((List.range 8).filter fun q => bankRead new Pid.seqPort q == (p : Int) && seqDiffers old new q) (disarm 2) s
      let s := applyGrants 1 p (checkpoint p (switchSlots old new p s))
      if left == 0 then switchLast old new s else s

/-- Every port that has not switched does so now, and old services end (R93, R94, R234). [DESIGN CHOICE, notes/assumptions/29] -/
def finishSwitch (s : State) : State := settle s (forEach allPorts endServices (forEach allPorts switchPort s))

/-! ## INHIBIT, FAULT and RESET -/

/-- No frame is produced in INHIBIT (R84): the work in the lanes is dropped, and each zone counts the processed rounds of it that
produced no output (R233). [DESIGN CHOICE, notes/assumptions/141] -/
def dropWork (s : State) : State :=
  let rounds := ((s.herder.work.map fun w => (w.zone, w.round)).eraseDups)
  forEach rounds (fun (z, r) s =>
      if (zoneOf s z).missed == some r then s else noteGap z 1 5 (onZone z (fun x => { x with out := [], feats := [] }) s))
    { s with
      herder := { s.herder with work := [] },
      serif := { s.serif with
        results := [], lanes := Store.update (fun _ => {}) (fun l : Lane => { l with piece := none, next := [] }) s.serif.lanes } }

/-- T12: the device enters INHIBIT (R84, R94). -/
def enterInhibit (s : State) : State :=
  let from_ := s.mode.current
  let s := finishSwitch (endSurvey 0x50 (interruptTransition 0x50 s))
  let s := { s with raman := s.raman.map fun x => { x with paused := x.paused || x.running } }
  let s := onMode (fun x => { x with interrupted := if from_ == .survey then .config else from_ }) (closeAllRecords s)
  setMode .inhibit 12 (dropWork s)

/-- A device-wide withdrawal (R501): it is posted, and it causes T12 from RUN, SENTINEL or SURVEY, or ends a transition
towards them. `old` is the state before the term fell. [DESIGN CHOICE, notes/assumptions/59] -/
def withdrawDevice (old : State) (terms : Nat) (s : State) : State :=
  let s := settle old (onSafety (fun x => { x with sticky := x.sticky ||| 1#9 }) s)
  let s := emissionStopped terms 0xF s
  if firingMode s.mode.current then enterInhibit s
  else if (s.mode.inProgress.map fun t => firingMode t.target).getD false then interruptTransition 0x50 s
  else s

/-- A port-level withdrawal (R501): it changes no mode. -/
def withdrawPort (old : State) (terms p : Nat) (s : State) : State := emissionStopped terms (2 ^ p) (settle old s)

/-- A handover in progress is cut off: its journal entry ends PARTIAL, and the MODE_REQUEST CONFIG it serves is answered
(R79, R146, R487). [DESIGN CHOICE, notes/assumptions/59] -/
def cutHandover (status : Nat) (s : State) : State :=
  let s := match s.pair.journal with | some n => journalEnd n .part status 0 s | none => s
  let s := match s.pair.request with | some r => refuse r status 0 s | none => s
  onPair (fun x => { x with
    step := .idle, taking := false, handoverReq := false, finalSent := false, toConfig := false, journal := none, request := none }) s

/-- T20: the device enters FAULT (R85); `present` says that the cause persists. A fault that arises in FAULT leaves the
latched code. [DEDUCED, notes/assumptions/43] -/
def enterFault (code : Nat) (present : Bool) (s : State) : State :=
  if s.mode.current == .reset then s
  else if s.mode.current == .fault then
    if code = s.mode.faultCode then onMode (fun x => { x with faultPresent := present }) s else s
  else
    let s := cutHandover 0x30 (finishSwitch (endSurvey 0x30 (interruptTransition 0x30 s)))
    let s := forEach allPorts (fun p s => ramanDiscard p 3 s) s
    let s := closeAllRecords s
    let s := onMode (fun x => { x with faultCode := code, faultFromTest := x.current == .test, faultPresent := present }) s
    let s := onPair (fun x => { x with release := x.release || (pairEnabled s && x.own) }) s
    post 0x0211 code 0 0 (irqBoth 3 (setMode .fault 20 s))

/-- What flash holds (R89): images, banks, journal, log, survey results, device records, the program library, DRAM delays and
retired pages, the reset record and the parameters applied at boot (R14). [DEDUCED, notes/assumptions/47; DEDUCED, notes/assumptions/135] -/
def flashState (s : State) : State :=
  { State.reset with
    banks := { s.banks with pending := none, job := none, switch := none, revertRaised := false },
    params := s.params.filter fun e => effectOf (e.1 / 65536) == .atBoot || canonId (e.1 / 65536) == Pid.memPortRateMts,
    journal := s.journal,
    log := { entries := s.log.entries, newest := s.log.newest, maxErases := s.log.maxErases },
    firmware := { s.firmware with upload := none, confirmFrom := none },
    mode := { resetRecord := s.mode.resetRecord, current := .reset, previous := s.mode.current },
    ports := s.ports.map fun x => { survey := x.survey },
    serif := { library := s.serif.library },
    memory := { ports := s.memory.ports.map fun d => { flash := d.flash, retired := d.retired } },
    calib := { items := Store.update (fun _ => {}) calKept (s.calib.items.filter fun e => [1, 3, 5].contains (e.1 / 256)),
               temp := s.calib.temp },
    links := { flashMib := s.links.flashMib, flashJedec := s.links.flashJedec },
    ticks := s.ticks, free := s.free, pending := s.pending }

/-- A device reset (T1, R39, R89): everything outside flash and the always-on domain is cleared. `held` says that a cause
inside the device holds RESET for 1 ms. [DEDUCED, notes/assumptions/47] -/
def deviceReset (held : Bool) (s : State) : State :=
  let f := flashState s
  { f with
    power := { s.power with portOos := Vector.replicate 4 false, railStable := s.power.railStatus, resetHeld := held },
    clocks := { ocxoWarm := s.clocks.ocxoWarm, xtalFailed := s.clocks.xtalFailed },
    pins := { s.pins with strapsSampled := false, strapLogged := false },
    pair := { ilkHeld := s.pair.ilkHeld && !s.pair.driving, peerPresent := s.pair.peerPresent },
    safety := {
      key := s.safety.key, loop := s.safety.loop, estop := s.safety.estop, estopCount := s.safety.estopCount,
      keyOffTick := s.safety.keyOffTick, apr := s.safety.apr, lwg := s.safety.lwg, plugClosed := s.safety.plugClosed,
      lkeyStable := s.safety.lkeyStable, loopStable := s.safety.loopStable, loopOffTick := s.safety.loopOffTick },
    pointer := { armLow := s.pointer.armLow },
    links := { f.links with jtagTest := s.links.jtagTest, boundary := s.links.boundary } }

end Sys2Proof.Machine
end

