-- ==== Sys2Proof/Machine/Memory.lean ====
section
/-! DEFINITION. The Kennel, DRAM ports and on-chip stores (R364 to R395), misses of zones (R221, R267, R268), and their
rows. -/

namespace Sys2Proof.Machine

/-- Update the memory system. -/
def onMem (f : Memory → Memory) (s : State) : State := { s with memory := f s.memory }

/-! ## The Kennel -/

/-- Does a port hold pages of the regions: online, or training with its traffic held and its contents kept (R382, R386)? -/
def holdsPages (d : DramPort) : Bool := d.state == .online || (d.state == .training && d.cause == 0)

/-- Retired pages of the ports that count. -/
def retiredPages (s : State) : Nat := ((s.memory.ports.toList.filter holdsPages).map fun d => d.retired.length).sum

/-- U of R386 in pages: fifteen sixteenths of the online ports (R369), less retired pages. -/
def usablePages (s : State) : Nat :=
  ((s.memory.ports.toList.filter holdsPages).map (·.capacityMib)).sum * 15 - retiredPages s

/-- Usable MiB for events. -/
def usableMib (s : State) : Nat := usablePages s / 16

/-- Region allocations in pages for U pages (R386): the minimums, then history, records, replay and ring up to their quotas;
nothing below 384 MiB. -/
def kennelShare (u : Nat) (hist rec_ replay ring : Nat) : Vector Nat 5 :=
  if u < 384 * 16 then Vector.replicate 5 0
  else
    let r0 := u - 384 * 16
    let h := min r0 (hist * 16)
    let e := min (r0 - h) (rec_ * 16 - 1024)
    let y := min (r0 - h - e) (replay * 16)
    let g := min (r0 - h - e - y) (ring * 16 - 4096)
    #v[1024, 1024 + e, 4096 + g, h, y]

/-- The record area is in Scribe's memory or in DRAM (R325, R385): a move leaves the records of the area left behind. [DESIGN CHOICE, notes/assumptions/44] -/
def moveRecords (sram : Bool) (s : State) : State :=
  if s.pointer.areaSram = sram then s else onPtr (fun x => { x with areaSram := sram, records := [] }) s

/-- Resize the regions (R386): replay jobs whose buffers are lost end SOURCE_LOST; without DRAM the record area is in
Scribe's memory (R325, R385). [DESIGN CHOICE, notes/assumptions/44] -/
def kennelResize (s : State) : State :=
  let u := usablePages s
  let old := vecRead s.memory.regions 4 0
  let rs := kennelShare u (paramNat s Pid.memQuotaHistoryMib 0) (paramNat s Pid.memQuotaRecordsMib 0)
    (paramNat s Pid.memQuotaReplayMib 0) (paramNat s Pid.memQuotaRingMib 0)
  let s := onMem (fun m => { m with regions := rs, usablePages := u, retiredCounted := retiredPages s }) s
  let s := moveRecords (decide (u < 384 * 16)) s
  let new := vecRead rs 4 0
  if new < old then
    forEach (((s.inkstone.jobs.filter fun j => decide (j.2.state ≤ 1)).map (·.1)).filter fun i => decide (new < (i + 1) * old / 16))
      (fun i s => endJob i 2 s) s
  else s

/-- Pages in use in region `y` (R393): staging of an upload, record headers and copies, ring pages, two page sets of paged
history, and the buffers of running jobs. -/
def regionUsed (s : State) (y : Nat) : Nat :=
  match y with
  | 0 => ceilDiv ((s.firmware.upload.map (·.bytes.length)).getD 0) 65536
  | 1 => if s.pointer.areaSram then 0 else 8 + ((s.pointer.records.map fun r => ceilDiv (copiedBytes r.2) 65536)).sum
  | 2 => s.inkstone.pages.length
  | 3 => 2 * (if flowMode s == .sentinel then s.herder.sentinel.pages else s.herder.run.pages)
  | _ => (jobsRunning s).length * (vecRead s.memory.regions 4 0 / 16)

/-- Pages no region holds. -/
def kennelFree (s : State) : Nat := s.memory.usablePages - s.memory.regions.toList.sum

/-! ## Re-admission in place -/

/-- Does a re-admission wait for port `p`'s next round start (R228)? Ports that wait for the switch of R93 take it there. [DEDUCED, notes/assumptions/35] -/
def readmitWaits (s : State) (p : Nat) : Bool := s.banks.switch.isNone && (portOf s p).gridRunning

/-- Re-admit the ACTIVE bank in place (R86, R228): both plans, then the zones' flags, on a port whose grid runs at its next round
start. `keep` stay suspended. [DEDUCED, notes/assumptions/35] -/
def readmitAll (cause : Nat) (keep : List Nat) (s : State) : State :=
  let b := s.banks.active
  let dram := decide (384 * 16 ≤ s.memory.usablePages)
  let lim := planLimits s b
  let h := s.herder
  let s := { s with herder := { h with
    run := readmitPlan b s.serif.library lim false dram keep, sentinel := readmitPlan b s.serif.library lim true dram keep,
    oldRun := if s.banks.switch.isNone then h.run else h.oldRun,
    oldSentinel := if s.banks.switch.isNone then h.sentinel else h.oldSentinel } }
  forEach allPorts (fun p s =>
    if readmitWaits s p then onPort p (fun x => { x with readmit := some cause }) s
    else applyGrants cause p (onPort p (fun x => { x with readmit := none }) s)) s

/-- Zones that the plan their port runs serves from DRAM (R222). -/
def pagedZones (s : State) : List Nat :=
  allPorts.flatMap fun p => ((planInForce s p).grants.filter fun g => zonePort g.zone == p && g.paged && !g.suspended).map (·.zone)

/-- Zones that either plan serves from DRAM. -/
def pagedEver (s : State) : List Nat :=
  (((s.herder.run.grants ++ s.herder.sentinel.grants).filter fun g => g.paged && !g.suspended).map (·.zone)).eraseDups

/-- A zone's history restarts from zero (R228, R267). [DESIGN CHOICE, notes/assumptions/44] -/
def loseHistory (z arg lost : Nat) (s : State) : State :=
  post 0x1804 z arg 0 (noteGap z lost 4 (forgetPieces z (onZone z (fun x => { x with
    historyLost := true, hist := [], heldRuns := [], qual := [], userHist := [], filters := [], energy := [], samples := [], marks := [], flags := 0,
    gathered := 0, out := [], feats := [] }) s)))

/-- A DRAM port leaves service (R228, R324, R354, R384). The pages of every region lie on both ports (R387), so every open
record, every copy and every paged history is taken as touched. [DESIGN CHOICE, notes/assumptions/44] -/
def dramOffline (a cause : Nat) (s : State) : State :=
  let d := dramOf s a
  if d.state == .unfitted || d.state == .offline then s
  else
    let was := holdsPages d && s.mode.current != .boot
    let s := onDram a (fun d => { d with
      state := .offline, cause := cause, lossTick := s.ticks, retraining := false, deferredRate := none }) s
    if !was then post 0x2C01 a cause (usableMib s) s
    else
      let s := closeAllRecords s
      let s := forEach ((s.pointer.records.map (·.2)).filter fun r => decide (0 < copiedBytes r)) (fun r s => freeData r.number s) s
      let paged := pagedZones s
      let everPaged := pagedEver s
      let classOf (z : Nat) : Nat := zoneNat s.banks.active Pid.zoneClass z
      let s := kennelResize s
      let s := post 0x2C01 a cause (usableMib s) s
      let s := forEach (paged.filter fun z => classOf z != 2) (fun z s =>
        if readmitWaits s (zonePort z) then onPort (zonePort z) (fun x => { x with lostHist := x.lostHist ++ [(z, a)] }) s
        else loseHistory z a 0 s) s
      let gone := (s.herder.run.grants.filter (·.suspended)).map (·.zone)
      let s := readmitAll 2 (gone ++ everPaged.filter fun z => classOf z == 2) s
      if ringAvailable s then ringRestart 3 s else ringDrop s

/-- A port starts to train (R380): with its traffic held, or in slots while it stays online. [DEDUCED, notes/assumptions/87] -/
def dramTrain (a : Nat) (held : Bool) (rate : Nat) (s : State) : State :=
  onDram a (fun d => { d with state := if held then .training else d.state, retraining := true, passRate := rate }) s

/-- The PLL of a DRAM port has been locked for 1 ms (R384). [DEDUCED, notes/assumptions/56] -/
def dramPllSteady (s : State) (a : Nat) : Bool :=
  hasBit s.clocks.locked.toNat (2 + a) ||
  ((vecRead s.clocks.lossTicks (2 + a) none).map fun t => decide (t + Config.relockTicks (2 + a) t + msTicks 1 ≤ s.ticks)).getD false

/-- May an offline port return (R52, R384)? A rail or PLL cause needs its rail in tolerance and its PLL locked, both for 1 ms. [DEDUCED, notes/assumptions/87] -/
def dramMayReturn (s : State) (a : Nat) : Bool :=
  let d := dramOf s a
  d.state == .offline && (d.cause == 3 || d.cause == 4) &&
  s.power.railStable.getLsbD (11 + a) && dramPllSteady s a

/-- Offline ports that may return train at a COMMIT or MODE_REQUEST (R52, R380). [DEDUCED, notes/assumptions/87] -/
def dramReturns (s : State) : State :=
  forEach ([0, 1].filter (dramMayReturn s)) (fun a s =>
    dramTrain a true (dramOf s a).passRate { s with clocks := { s.clocks with locked := s.clocks.locked ||| (4#5 <<< a) } }) s

/-- A port comes online (R228, R354, R386). When it had been offline DRAM_ONLINE is posted, the Kennel resizes and the plan is
restored; a port whose traffic was only held goes on. [DEDUCED, notes/assumptions/48] -/
def dramOnlineNow (a : Nat) (s : State) : State :=
  let d := dramOf s a
  let s := onDram a (fun d => { d with state := .online, retraining := false, cause := 0 }) s
  if d.cause = 0 || s.mode.current == .boot then s
  else
    let s := kennelResize s
    let s := readmitAll 2 [] (post 0x2C02 a (usableMib s) 0 s)
    if ringAvailable s then ringRestart 3 s else s

/-! ## Training rows -/

/-- Does a port train by SWEEP (R378)? -/
def sweeps (s : State) (a : Nat) : Bool := paramNat s (dramId a Pid.memPortTrainMode) 0 == 1

/-- Did every lane pass every phase and verification (R378)? A lane of a SWEEP passes a phase when its widest run is at least
`mem.min_eye_steps`. -/
def lanesPass (s : State) (a : Nat) (r : TrainingResult) : Bool :=
  r.trained && (!sweeps s a || r.delays.eye.all fun n => decide (paramNat s Pid.memMinEyeSteps 0 ≤ n))

/-- The delays of a pass at its rate (R378): those that a SWEEP found, or the parameters of a FIXED port. [DEDUCED, notes/assumptions/87] -/
def trainedDelays (s : State) (a : Nat) (r : TrainingResult) : Delays :=
  let lane (id : Nat) : Vector Nat 4 := Vector.ofFn fun l => paramNat s (dramId a id) l
  if sweeps s a then { r.delays with rate := (dramOf s a).passRate }
  else
    { rd := lane Pid.memPortDlyRd, wr := lane Pid.memPortDlyWr,
      ca := #v[paramNat s (dramId a Pid.memPortDlyCaA) 0, paramNat s (dramId a Pid.memPortDlyCaB) 0],
      eye := r.delays.eye, rate := (dramOf s a).passRate }

/-- The outcome of a pass (R383): 0 TRAINED, 1 KEPT, 2 OFFLINE. [DEDUCED, notes/assumptions/87] -/
def trainingOutcome (s : State) (a : Nat) (r : TrainingResult) : Nat :=
  let d := dramOf s a
  let previous := if s.mode.current == .boot then (d.flash.map fun f => f.rate == d.passRate).getD false else true
  if lanesPass s a r then 0 else if sweeps s a && previous && r.previousVerify then 1 else 2

/-- A pass ends (R379, R383). [DEDUCED, notes/assumptions/87] -/
def trainingEnds (a : Nat) (r : TrainingResult) (s : State) : State :=
  let d := dramOf s a
  match d.deferredRate with
  | some v =>
    let s := onDram a (fun d => { d with deferredRate := none, passRate := v }) s
    post 0x2C05 a 3 v s
  | none =>
    match trainingOutcome s a r with
    | 0 =>
      let del := trainedDelays s a r
      let s := onDram a (fun d => { d with delays := del, flash := some del, refTemp := s.calib.temp, refMr4 := d.mr4 }) s
      dramOnlineNow a (post 0x2C05 a 0 d.passRate s)
    | 1 =>
      let s := onDram a (fun d => { d with trainedKept := true, checkDue := true, delays := if s.mode.current == .boot then d.flash.getD d.delays else d.delays }) s
      dramOnlineNow a (post 0x2C05 a 1 d.passRate s)
    | _ => dramOffline a 2 s

/-- DRAM_TRAINING_DONE (R368, R383). In BOOT the port is read from MR8 first. -/
def dramTrainingDone (a : Nat) (r : TrainingResult) (s : State) : State :=
  let rate := paramNat s (dramId a Pid.memPortRateMts) 0
  if s.mode.current == .boot && (dramOf s a).state == .unfitted then
    if !r.fitted then s
    else
      let s := onDram a (fun d => { d with
        state := .training, rank1 := r.rank1, byteMode := r.byteMode, capacityMib := r.capacityMib, passRate := rate }) s
      if !r.matching then dramOffline a 1 s else trainingEnds a r s
  else if (dramOf s a).retraining then trainingEnds a r s
  else s

/-- DRAM_TRAINING_DONE. -/
def execDramTrainingDone (a : Fin 2) (r : TrainingResult) (s : State) : Host.Outcome State Fault Refusal :=
  .next (dramTrainingDone a r s)

/-- DRAM_RETRAIN_CHECK (R381, R383): due when temperature or MR4 moved, or after outcome 1. [DEDUCED, notes/assumptions/87] -/
def dramRetrainCheck (a mr4 : Nat) (pass : Bool) (s : State) : State :=
  let d := dramOf s a
  let delta := paramNat s Pid.memRetrainDeltaC 0
  let ref := d.refMr4.getD mr4
  let due := decide ((delta * 16 : Nat) ≤ (s.calib.temp - d.refTemp).natAbs) ||
    decide (delta ≤ ((mr4 : Int) - ref).natAbs) || d.checkDue
  if d.state != .online || d.pasr then s
  else
    let s := onDram a (fun d => { d with mr4 := some mr4, refMr4 := some ref }) s
    if d.retraining || !due then s
    else if pass then onDram a (fun d => { d with refTemp := s.calib.temp, refMr4 := some mr4, checkDue := false }) s
    else bump (dramId a Pid.memPortRetrains) 0 (onDram a (fun d => { d with checkDue := false })
      (dramTrain a (s.mode.current == .config) d.delays.rate s))

/-- DRAM_RETRAIN_CHECK. -/
def execDramRetrainCheck (a : Fin 2) (mr4 : Nat) (pass : Bool) (s : State) : Host.Outcome State Fault Refusal :=
  .next (dramRetrainCheck a mr4 pass s)

/-- A write of `mem.port[a].rate_mts` that R382 accepts: in CONFIG the port trains at the new rate, during training the rate
is deferred, and in DORMANT it applies at the exit. -/
def writeRate (a rate : Nat) (s : State) : State :=
  let s := paramPut (dramId a Pid.memPortRateMts) 0 rate s
  let d := dramOf s a
  if d.retraining then onDram a (fun d => { d with deferredRate := some rate }) s
  else if s.mode.current == .config && d.state == .online then dramTrain a true rate s
  else onDram a (fun d => { d with passRate := rate }) s

/-- RATE_MTS_WRITE (R382): refused outside CONFIG and DORMANT, and for a rate outside the list (R13). -/
def execRateMtsWrite (a : Fin 2) (rate : Nat) (s : State) : Host.Outcome State Fault Refusal :=
  .next (if (s.mode.current == .config || s.mode.current == .dormant) && [1600, 2133, 3200, 3733, 4266].contains rate then
    writeRate a rate s else s)

/-! ## Row hammer, refresh and late requests -/

/-- The location word of MEM_HAMMER and MEM_UE (R395). -/
def locationWord (a : Nat) (l : DramRow) : Nat :=
  a * 2 ^ 28 + l.channel.val * 2 ^ 27 + l.rank.val * 2 ^ 26 + l.bank.val * 2 ^ 23 + l.row.val

/-- ROW_HAMMER (R377): the row's count returns to 0 after its neighbours' refresh, and the requester is throttled. [DESIGN CHOICE, notes/assumptions/45] -/
def rowHammer (a : Nat) (l : DramRow) (s : State) : State :=
  let i := l.requester.val
  let key := ((l.channel.val * 2 + l.rank.val) * 8 + l.bank.val) * 2 ^ 18 + l.row.val
  let s := onDram a (fun d => { d with hammerSeen := true, rows := Store.put d.rows key 0 }) s
  let (hit, r) := rateHit s.ticks 1 (locationWord a l) (vecRead s.memory.requesters i {}).hammerRate
  let s := onMem (fun m => { m with requesters := vecUpdate m.requesters i fun q => { q with throttled := true, hammerRate := r } }) s
  let s := bump (dramId a Pid.memPortHammerEvents) 0 (bump Pid.memReqThrottled i s)
  match hit with
  | some (n, w) => post 0x2C03 i w n s
  | none => s

/-- ROW_HAMMER. -/
def execRowHammer (a : Fin 2) (l : DramRow) (s : State) : Host.Outcome State Fault Refusal := .next (rowHammer a l s)

/-- HAMMER_WINDOW (R376): every 32 ms the row tables are cleared. [DESIGN CHOICE, notes/assumptions/45] -/
def execHammerWindow (s : State) : Host.Outcome State Fault Refusal :=
  .next (onMem (fun m => { m with ports := m.ports.map fun d => { d with rows := [] } }) s)

/-- HAMMER_THROTTLE_END (R377): 1 ms after the last detection against the requester. -/
def execHammerThrottleEnd (i : Fin 8) (s : State) : Host.Outcome State Fault Refusal :=
  .next (onMem (fun m => { m with requesters := vecUpdate m.requesters i fun q => { q with throttled := false } }) s)

/-- DRAM_REFRESH (R374): a refresh is postponed only while level-3 requests wait, by at most 8 intervals. [DESIGN CHOICE, notes/assumptions/45] -/
def execDramRefresh (a : Fin 2) (waiting : Bool) (s : State) : Host.Outcome State Fault Refusal :=
  .next (onDram a (fun d => { d with postponed := if waiting && decide (d.postponed < 8) then d.postponed + 1 else 0 }) s)

/-- MEM_LATE (R374): `n` requests of requester `i` reached level 3. -/
def memLate (i n : Nat) (s : State) : State :=
  if n = 0 then s
  else
    let s := bumpBy n Pid.memReqLate i s
    let (hit, r) := rateHit s.ticks n 0 (vecRead s.memory.requesters i {}).lateRate
    let s := onMem (fun m => { m with requesters := vecUpdate m.requesters i fun q => { q with lateRate := r } }) s
    match hit with
    | some (k, _) => post 0x2C06 i k 0 s
    | none => s

/-- MEM_LATE. -/
def execMemLate (i : Fin 8) (n : Nat) (s : State) : Host.Outcome State Fault Refusal := .next (memLate i n s)

/-! ## Misses and errors -/

/-- A zone misses a processed round (R221): Class A latches FAULT, another drops the round's output and reports it. [DEDUCED, notes/assumptions/71; DEDUCED, notes/assumptions/142] -/
def zoneMiss (z round epoch d : Nat) (s : State) : State :=
  let b := bankOfEpoch s (zonePort z) epoch
  let due := outputDue b s.serif.library z d round
  let s1 := onZone z (fun x => { x with
    missed := some round, out := [], feats := [], flags := if due then 0 else x.flags, marks := if due then [] else x.marks }) s
  if zoneNat b Pid.zoneClass z = 0 then enterFault 4 false s1
  else
    noteGap z 1 3 (post 0x1803 z round 0
      (bump Pid.herderMisses 0 (bump Pid.zoneMisses z (onZone z (fun x => { x with missSeen := true }) s1))))

/-- A slice of a processed round is late or fails (R221, R268): it leaves the work list, and the first of its round is the miss. [DEDUCED, notes/assumptions/142] -/
def sliceMiss (w : WorkItem) (s : State) : State :=
  let s := { s with herder := { s.herder with work := s.herder.work.erase w } }
  inService w.zone w.epoch (fun s => if (zoneOf s w.zone).missed == some w.round then s else zoneMiss w.zone w.round w.epoch w.div s) s

/-- SLICE_DEADLINE (R221): the oldest slice of the zone whose deadline has passed has not completed. [DEDUCED, notes/assumptions/71] -/
def sliceDeadline (z : Nat) (s : State) : State :=
  match s.herder.work.find? fun w => w.zone == z with
  | some w => sliceMiss w s
  | none => s

/-- SLICE_DEADLINE. [DEDUCED, notes/assumptions/71] -/
def execSliceDeadline (z : Fin 1024) (s : State) : Host.Outcome State Fault Refusal := .next (sliceDeadline z s)

/-- An overrun is counted and reported, and its slice is dropped as a miss (R268). [DEDUCED, notes/assumptions/142] -/
def overrunOf (l : Nat) (w : WorkItem) (s : State) : State :=
  let s := { s with serif := { s.serif with status := s.serif.status ||| 0x08#6 } }
  sliceMiss w (post 0x2002 w.zone l 0 (bump Pid.serifOverruns 0 s))

/-- Work in flight of which a piece is bound to lane `l`, in fill order (R223, R245). [DEDUCED, notes/assumptions/72] -/
def boundWork (s : State) (l : Nat) : Option WorkItem :=
  s.herder.work.find? fun w => (planInForce s (zonePort w.zone)).pieces.any fun x => x.zone == w.zone && x.lane == l

/-- A lane's piece ends without END (R267, R268): the next starts on time and the zone misses. [DEDUCED, notes/assumptions/72] -/
def laneOverrun (l : Nat) (s : State) : State :=
  let x := laneOf s l
  match x.piece with
  | none =>
    match boundWork s l with
    | some w => overrunOf l w s
    | none => s
  | some d =>
    let w := (s.herder.work.find? fun w => w.zone == d.zone && w.round == d.round && w.slice == d.slice).getD
      { zone := d.zone, round := d.round, slice := d.slice, slices := d.slices, dueRound := d.round, epoch := d.epoch, div := d.rateDiv }
    overrunOf l w (onLane l (fun x => laneNext { x with output := [], features := [] }) (pieceKeep l s))

/-- LANE_BUDGET_END (R268): the piece's budget is used up without END. -/
def execLaneBudgetEnd (l : Fin 128) (s : State) : Host.Outcome State Fault Refusal := .next (laneOverrun l s)

/-- The processed round of a zone in work is dropped, with its GAP marker (R267). -/
def dropRound (z : Nat) (s : State) : State :=
  match s.herder.work.find? fun w => w.zone == z with
  | some w => inService z w.epoch (fun s => noteGap z 1 4 (onZone z (fun x => { x with missed := some w.round, out := [], feats := [] }) s)) s
  | none => noteGap z 1 4 s

/-- Points of a zone that lie on a lane (R223). [DEDUCED, notes/assumptions/75] -/
def lanePoints (s : State) (z l : Nat) : List Nat :=
  let b := portBank s (zonePort z)
  let n := if zoneNat b Pid.zoneRecipe z = 5 then ceilDiv (zonePoints b z) 256 else grantedDiv s z
  ((planInForce s (zonePort z)).pieces.filter fun x => x.zone == z && x.lane == l).flatMap fun x =>
    (List.range n).flatMap fun i =>
      let (j0, k) := sliceRange b z n i
      (List.range (min x.take (k - x.first))).map (j0 + x.first + ·)

/-- A history error (R267, R370): the processed round's output is dropped when one is in work, and the history of the points it touches is
zero; found by scrub outside any piece it leaves output alone. [DESIGN CHOICE, notes/assumptions/44] -/
def historyError (z : Nat) (points : List Nat) (s : State) : State :=
  let b := portBank s (zonePort z)
  let h := max 1 (((programOf s.serif.library (zoneNat b Pid.zoneProgram z)).map (·.history)).getD 0)
  let s := forgetPieces z (onZone z (fun x => { x with
    historyLost := true, hist := Store.restrict (fun j => !points.contains j) x.hist,
    heldRuns := Store.restrict (fun j => !points.contains j) x.heldRuns,
    qual := Store.restrict (fun j => !points.contains j) x.qual,
    userHist := Store.restrict (fun k => !points.contains (k / h)) x.userHist }) s)
  post 0x1804 z 0xFF 0 (if s.herder.work.any (·.zone == z) then dropRound z s else s)

/-- An uncorrectable error in lane memory or program memory (R267): 0 history, 1 zone constants, 2 program memory. -/
def laneError (l kind : Nat) (s : State) : State :=
  let s := bump Pid.serifEccUncorrectable 0 { s with serif := { s.serif with status := s.serif.status ||| 0x10#6 } }
  let zones := (List.range 4).flatMap fun p => ((planInForce s p).pieces.filter fun x => x.lane == l && zonePort x.zone == p).map (·.zone)
  if kind = 2 then laneOverrun l s
  else
    match (((laneOf s l).piece.map (·.zone)).or ((boundWork s l).map (·.zone))).or zones.head? with
    | some z =>
      if kind = 0 then historyError z (lanePoints s z l) s
      else if s.herder.work.any (·.zone == z) then dropRound z s else s
    | none => s

/-- The effect of an uncorrectable word of a store (R366). [DESIGN CHOICE, notes/assumptions/44] -/
def sramEffect (e : SramError) (s : State) : State :=
  match e.store.val with
  | 0 =>
    let n := e.word / 2
    onPort (n / 262144) (fun x => { x with trace := Store.write (fun _ => {}) x.trace (n % 262144) { freshEntry with gen := x.gen, rgen := x.rgen } }) s
  | 1 =>
    onRaman e.port (fun x =>
      if e.kind = 1 then { x with darkMasked := true }
      else if e.kind = 2 then { x with darkMasked := true, dark := none }
      else { x with maskSeen := true, masks := Store.put x.masks e.index 0x18#8 }) s
  | 2 => laneError e.index e.kind s
  | 3 => if e.index < 8 then checkpoint (e.index / 2) s
      else
        let q := e.index - 8
        match (queueOf s q).staged with
        | [] => s
        | _ => dropItems q 1 1 (onQueue q (fun x => { x with staged := x.staged.drop 1 }) s)
  | _ => enterFault 5 false s

/-- SRAM_ECC_ERROR (R365, R366). -/
def sramEccError (e : SramError) (s : State) : State :=
  if e.corrected then
    let s := bump Pid.memSramCe e.store s
    if e.store = 2 then bump Pid.serifEccCorrected 0 s else s
  else
    let s := onMem (fun m => { m with bad := if m.bad.contains (e.store.val, e.word) then m.bad else m.bad ++ [(e.store.val, e.word)] }) s
    sramEffect e (post 0x2C07 e.store.val e.word 0 (bump Pid.memSramUe e.store s))

/-- SRAM_ECC_ERROR. -/
def execSramEccError (e : SramError) (s : State) : Host.Outcome State Fault Refusal := .next (sramEccError e s)

/-- SRAM_SCRUB_REWRITE (R366): the scrub rewrites a bad word with 0. -/
def execSramScrubRewrite (store : Fin 5) (word : Nat) (s : State) : Host.Outcome State Fault Refusal :=
  .next (onMem (fun m => { m with bad := m.bad.erase (store.val, word) }) s)

/-- Is the offset within the page that of a byte of block `i` of page `g` (R348)? -/
def blockSpan (g : RingPage) (i : Nat) : Nat × Nat :=
  let start := (g.blocks.take i).foldl (fun at_ b => align4 (at_ + b.2.length)) 64
  (start, start + ((g.blocks[i]?).map (·.2.length)).getD 0)

/-- A block whose check fails (R370): its last byte, of the CRC, is changed. [DESIGN CHOICE, notes/assumptions/44] -/
def poisonBlock (bytes : List Byte) : List Byte :=
  bytes.dropLast ++ (bytes.getLast?.map fun x => x ^^^ 0xFF#8).toList

/-- Poisoned data of a ring page (R347, R370): the blocks that lie in the 64 bytes from offset `o` fail as BLOCK_CRC for every reader. [DESIGN CHOICE, notes/assumptions/44] -/
def poisonRing (a f o : Nat) (s : State) : State :=
  match ringPageAt s a f with
  | some g =>
    onInk (fun x => { x with pages := x.pages.map fun h =>
      if h.seq = g.seq then
        { h with blocks := h.blocks.mapIdx fun i b =>
            let (lo, hi) := blockSpan g i
            if lo < o + 64 && o < hi then (b.1, poisonBlock b.2) else b }
      else h }) s
  | none => s

/-- A poisoned record header (R370, R386): the mirror copy on port `a` is not read any more. [DESIGN CHOICE, notes/assumptions/44] -/
def poisonHeader (a slot : Nat) (s : State) : State :=
  onPtr (fun x => { x with records := x.records.map fun r =>
    if r.1 = slot then (r.1, { r.2 with headerBad := if r.2.headerBad.contains a then r.2.headerBad else r.2.headerBad ++ [a] }) else r }) s

/-- A running job meets poisoned data (R359, R370): it ends PARTIAL with DECODE_ERROR and code 4. [DESIGN CHOICE, notes/assumptions/44] -/
def poisonJob (i : Nat) (s : State) : State :=
  match s.inkstone.jobs.find? fun j => j.1 == i && j.2.state == 1 with
  | some (_, j) => endJob i 3 (onInk (fun x => { x with jobs := Store.put x.jobs i { j with error := 4 } }) s)
  | none => s

/-- What the consumer of poisoned data does (R370). [DESIGN CHOICE, notes/assumptions/44] -/
def poisonEffect (e : DramError) (s : State) : State :=
  let a := e.port.val
  let (f, o) := sectorHome s a e.loc e.sector
  match e.loc.requester.val with
  | 0 => historyError e.owner (List.range (zonePoints (portBank s (zonePort e.owner)) e.owner)) s
  | 2 =>
    match headerSlot s f o with
    | some slot => poisonHeader a slot s
    | none => poisonRing a f o s
  | 3 =>
    match frameRegion s f with
    | some 2 => poisonRing a f o s
    | some 1 => poisonJob e.owner (decodeError (1 + e.owner) 4 0 s)
    | _ => poisonJob e.owner s
  | 4 =>
    if f < regionBase s 0 + ceilDiv 128 (max 1 (onlinePorts s).length) then
      { s with firmware := { s.firmware with upload := s.firmware.upload.map fun u => { u with bytes := [] } } }
    else { s with log := { s.log with waiting := [] } }
  | _ => s

/-- DRAM_ECC_ERROR (R370 to R372, R390). [DESIGN CHOICE, notes/assumptions/44] -/
def dramEccError (e : DramError) (s : State) : State :=
  let a := e.port.val
  if !e.uncorrectable then bump (dramId a Pid.memPortCeCount) 0 s
  else
    let d := dramOf s a
    let page := sectorPage s a e.loc e.sector
    let known := d.marked.contains page || d.retired.contains page
    let full := !known && decide (1024 ≤ d.retired.length + d.marked.length)
    let s := bump (dramId a Pid.memPortUeCount) 0 (onDram a (fun d => { d with
      ueSeen := true, retireFull := d.retireFull || full,
      marked := if full || known then d.marked else d.marked ++ [page] }) s)
    poisonEffect e (post 0x2C04 (locationWord a e.loc) e.loc.requester.val (if full then 0xFFFFFFFF else page) s)

/-- DRAM_ECC_ERROR. -/
def execDramEccError (e : DramError) (s : State) : Host.Outcome State Fault Refusal := .next (dramEccError e s)

/-- PAGE_RETIRE (R390): the owner releases a marked page. The Kennel resizes at once when the ring would fall below its
minimum, and the ring restarts (R386). -/
def pageRetire (a page : Nat) (s : State) : State :=
  if !(dramOf s a).marked.contains page then s
  else
    let s := onDram a (fun d => { d with marked := d.marked.erase page, retired := d.retired ++ [page] }) s
    if vecRead s.memory.regions 2 0 < 4096 + (retiredPages s - s.memory.retiredCounted) && decide (384 * 16 ≤ s.memory.usablePages) then
      let s := kennelResize s
      if ringAvailable s then ringRestart 3 s else ringDrop s
    else s

/-- PAGE_RETIRE. -/
def execPageRetire (a : Fin 2) (page : Nat) (s : State) : Host.Outcome State Fault Refusal := .next (pageRetire a page s)

end Sys2Proof.Machine
end

