-- ==== Sys2Proof/Machine/ModeOps.lean ====
section
/-! DEFINITION. What mode transitions do beyond the change itself: links that fall, restorations at a COMMIT or MODE_REQUEST
(R52, R160, R505, R508), the start of a handover (R485), and the entries and exits of RUN, SENTINEL, DORMANT and SURVEY
(R81, R83, R391, R447). -/

namespace Sys2Proof.Machine

/-- Does Scribe serve the device: in every mode but RESET and BOOT? -/
def scribeRuns (s : State) : Bool := s.mode.current != .reset && s.mode.current != .boot

/-- An image runs on Scribe, in BOOT too (R86): it posts events. [DEDUCED, notes/assumptions/130] -/
def canPost (s : State) : Bool := scribeRuns s || (s.mode.current == .boot && s.mode.imageRunning)

/-- Post an event while an image runs on Scribe; before that it is not posted. [DEDUCED, notes/assumptions/130] -/
def tell (code : Nat) (a0 a1 a2 : Int) (s : State) : State := if canPost s then post code a0 a1 a2 s else s

/-! ## Links -/

/-- An Ethernet link falls (R445, R451): datagrams that wait are discarded, and those of queues are counted as drops. -/
def ethDown (n : Nat) (s : State) : State :=
  let e := ethOf s n
  if !e.linkUp then s
  else
    let queued := e.txQueue
    let s := onEth n (fun e => { e with linkUp := false, anComplete := false, txPtp := [], txOxras := [], txQueue := [] }) s
    let s := forEach queued (fun d s => dropItems d.1 1 2 s) s
    let s := forEach ((List.range 8).filter fun q => queueLink s q == 2 + n) (fun q s => discardStaged q 2 s) s
    tell 0x0405 n 0 (bit e.rate1g) (bump Pid.hostEthLinkChanges n s)

/-- Is an Ethernet link held down by its rail, its enable or the mode (R81, R447, R461)? -/
def ethHeld (s : State) (n : Nat) : Bool :=
  !paramBool s Pid.hostEthEnable n || !s.power.railStatus.getLsbD 10 || s.mode.current == .reset ||
  (n == 1 && (s.mode.current == .sentinel || s.mode.current == .dormant))

/-- The rate that port `n` runs: 1000BASE-X when configured, or on port 0 in DORMANT (R445, R447). -/
def ethRate1g (s : State) (n : Nat) : Bool := paramNat s Pid.hostEthRate n == 1 || (ethOf s n).lowRateForced

/-- Port 0 takes or leaves the low rate of DORMANT (R447): a change of rate takes the link down until it is up again. -/
def ethForceLow (on : Bool) (s : State) : State :=
  let was := ethRate1g s 0
  let s := onEth 0 (fun e => { e with lowRateForced := on }) s
  if ethRate1g s 0 == was then s else onEth 0 (fun e => { e with rate1g := ethRate1g s 0 }) (ethDown 0 s)

/-- The PCIe link falls (R428): its generation and width read 0. -/
def pcieDown (s : State) : State :=
  if !s.links.pcieUp then s
  else tell 0x0406 0 0 0 { s with links := { s.links with pcieUp := false, pcieGen := 0, pcieWidth := 0, pcieL1 := false, peWake := false } }

/-- The Segor link falls (R467): the session of transport 3 ends (R103), nothing waits on the link any more, and a relayed
message that waits for the peer's answer is refused (R494). -/
def segorDown (s : State) : State :=
  let s := if s.pair.linkUp then endSession 3 s else s
  let s := match s.links.relay with | some r => refuse r 0x31 0 s | none => s
  { s with
    pair := { s.pair with linkUp := false, linkVersion := 0, tx := [] }, links := { s.links with relay := none } }

/-! ## Restorations -/

/-- APR of port `p` clears when the plug caused it (R505). [DEDUCED, notes/assumptions/46] -/
def plugRelease (p : Nat) (s : State) : State :=
  if s.safety.apr.getLsbD p && s.safety.plugClosed.getLsbD p then
    post 0x3405 p 0 0 (onSafety (fun x => { x with apr := x.apr &&& ~~~(1#4 <<< p), aprRestart := x.aprRestart &&& ~~~(1#4 <<< p) }) s)
  else s

/-- A locator withdrawal ends once its lamp is good (R508). [DEDUCED, notes/assumptions/46] -/
def locatorRelease (p : Nat) (s : State) : State :=
  if s.safety.locatorHold.getLsbD p && lampGood s (locatorLed s p) then
    onSafety (fun x => { x with locatorHold := x.locatorHold &&& ~~~(1#4 <<< p) }) s
  else s

/-- Light without a gate is forgiven when the comparator is below threshold (R160). [DEDUCED, notes/assumptions/46; DESIGN CHOICE, notes/assumptions/125] -/
def lwgRelease (p : Nat) (s : State) : State :=
  if !s.safety.lwg.getLsbD p || comparatorHigh s p then s else onSafety (fun x => { x with lwg := x.lwg &&& ~~~(1#4 <<< p) }) s

/-- A port whose rails have been in tolerance for 1 ms begins its trim, after which it is in service (R52, R524). [DEDUCED, notes/assumptions/46] -/
def railReturn (p : Nat) (s : State) : State :=
  if vecRead s.power.portOos p false && s.power.railStable.getLsbD p && s.power.railStable.getLsbD (4 + p) then
    onCal (fun c => { c with trimming := c.trimming ||| (1#4 <<< p), returning := c.returning ||| (1#4 <<< p) }) s
  else s

/-- What a COMMIT or MODE_REQUEST restores (R52, R160, R474, R505, R508). [DEDUCED, notes/assumptions/46] -/
def restorePorts (s : State) : State :=
  let old := s
  let s := forEach allPorts (fun p s => railReturn p (lwgRelease p (locatorRelease p (plugRelease p s)))) s
  let s := dramReturns s
  settle old (if pairEnabled s then s else modeLeash s)

/-! ## Handover -/

/-- The peer's barks carry READY (R485). -/
def peerReady (s : State) : Bool := (s.pair.peer.map fun b => b.flags.getLsbD 2).getD false

/-- Both paths to the peer are live and the link is up (R484). -/
def pathsLive (s : State) : Bool := s.pair.linkUp && !s.pair.linkLost && !s.pair.hbSilent

/-- Step 1 of R485: FORCE asks only for conditions 1 and 2 of R484. -/
def mayRelease (force : Bool) (s : State) : Bool :=
  if force then pathsLive s && (s.pair.peer.map fun b => b.mode == 7).getD false else peerReady s

/-- The first failing condition that the peer's last HEALTH frame reported, 0 after 2 s without one (R485). -/
def peerCondition (s : State) : Nat :=
  match s.pair.peerCond with
  | some (c, t) => if s.ticks ≤ t + secTicks 2 then c else 0
  | none => 0

/-- SWAP_REFUSED (R485, R490). -/
def swapRefused (cond cause : Nat) (s : State) : State := post 0x3007 cond cause 0 s

/-- Steps 1 and 2 of R485: this unit enters HANDOVER as the releasing one (T17). [DEDUCED, notes/assumptions/89] -/
def beginRelease (cause : Nat) (s : State) : State :=
  let s := interruptTransition 0x30 s
  let s := onPair (fun x => { x with
    step := .stopping, cause := cause, fromMode := s.mode.current, handoverReq := true, toConfig := cause == 7, finalSent := false, forced := false,
    release := false, portsLeft := BitVec.ofNat 4 (portBits (portEnabled s)) }) s
  post 0x3004 cause 4 0 (setMode .handover 17 s)

/-! ## Acquisition -/

/-- The enabled ports wake, and each starts at a slot 0 (T5, T9, R182); between RUN and SENTINEL every port keeps its grid (R81). [DESIGN CHOICE, notes/assumptions/132] -/
def wakePorts (s : State) : State :=
  let kept := s.mode.current == .run || s.mode.current == .sentinel
  { s with ports := Vector.ofFn fun p : Fin 4 =>
    let x := s.ports.get p
    { x with
      awake := portEnabled s p, gridRunning := kept && x.gridRunning, nextSlot := if kept then x.nextSlot else 0, stopping := false } }

/-- Every enabled port stops after the last shot of its grid period in progress (T8, T10, T14). -/
def stopPorts (s : State) : State := { s with ports := s.ports.map fun x => { x with stopping := true } }

/-- The grants of the plan in force reach the zones, when a mode changes the plan. -/
def planFollows (s : State) : State := forEach allPorts (applyGrants 1) s

/-- A port re-baselines when its N or its period differs from those it last ran with, as the sentinel port's do between RUN and
SENTINEL, whatever lay between (R81, R204, R205). [DESIGN CHOICE, notes/assumptions/122] -/
def sentinelRebase (s : State) : State :=
  forEach (allPorts.filter (portEnabled s)) (fun p s =>
    let now := (portSlots s p, portPeriod s p)
    let differs := ((portOf s p).ranAs.map fun r => r != now).getD false
    let s := if differs then rebaseline p 0 1 s else s
    onPort p (fun x => { x with ranAs := some now, gridRunning := x.gridRunning && !differs, nextSlot := if differs then 0 else x.nextSlot }) s) s

/-- Zones that SENTINEL idled resume (R81, R233, R235). -/
def wakeZones (s : State) : State :=
  forEach ((s.herder.zones.filter fun e => e.2.idle).map (·.1)) (fun z s =>
    noteGap z 0 6 (onZone z (fun x => { x with idle := false, edge := true, gathered := 0, out := [], feats := [] }) s)) s

/-- RUN is entered (T5, T9, T13, T18, T24). -/
def enterRun (n : Nat) (s : State) : State :=
  let s := setMode .run n (wakePorts s)
  wakeZones (planFollows (sentinelRebase s))

/-- SENTINEL is entered (R81): other DAS zones idle, other ports' DAS chains power down, Ethernet port 1 goes down. [DESIGN CHOICE, notes/assumptions/122] -/
def enterSentinel (n : Nat) (s : State) : State :=
  let sp := paramNat s Pid.modeSentinelPort 0
  let s := setMode .sentinel n (wakePorts s)
  let s := { s with ports := Vector.ofFn fun p : Fin 4 =>
    let x := s.ports.get p
    if p.val = sp then x else { x with awake := false, dark := true } }
  let b := s.banks.active
  let s := forEach ((enabledZones b).filter fun z => !sentinelServes b z) (fun z s =>
    forgetPieces z (onZone z (fun x => { x with
      idle := true, hist := [], qual := [], userHist := [], filters := [], energy := [], samples := [], marks := [], flags := 0,
      gathered := 0, out := [], feats := [] }) s)) s
  ethDown 1 (planFollows (sentinelRebase s))

/-- Segment and bank masks of MR17 and MR16 in DORMANT (R371, R372, R391): the pages kept lie in the lowest rows of every
bank of rank 0, and a set segment bit stops refresh. [PRESUMED, notes/assumptions/16] -/
def pasrMaskOf (s : State) (a : Nat) : BitVec 16 :=
  let d := dramOf s a
  let online := ([0, 1].filter (dramOnline s)).length
  let frames := ceilDiv (vecRead s.memory.regions 0 0 + vecRead s.memory.regions 1 0) (max 1 online)
  let rows := ceilDiv (ceilDiv frames 2 * 65536) 15360
  let perBank := rowsPerBank d
  let kept := if perBank = 0 then 8 else min 8 (ceilDiv (rows * 8) perBank)
  BitVec.ofNat 16 (256 - 2 ^ kept)

/-- DORMANT is entered (R83, R391). [DESIGN CHOICE, notes/assumptions/128] -/
def enterDormant (n : Nat) (s : State) : State :=
  let s := forEach (List.range 8) (disarm 3) s
  let s := forEach allPorts (fun p s => ramanDiscard p 1 s) (closeAllRecords s)
  let s := setMode .dormant n s
  let s := { s with
    ports := s.ports.map fun x => { x with awake := false }, serif := { s.serif with lanes := [], results := [] },
    herder := { s.herder with work := [], dispatched := [] }, links := { s.links with pcieL1 := s.links.pcieUp && Config.l12Enabled } }
  let s := forEach ([0, 1].filter (dramOnline s)) (fun a s =>
    onDram a (fun d => { d with pasr := true, pasrMask := pasrMaskOf s a }) s) s
  ethForceLow true (ethDown 1 (ringDrop s))

/-- The exit from DORMANT starts: DRAM leaves self-refresh and trains (T11, R391), and the ports trim (R523). -/
def wakeDram (s : State) : State :=
  let s := onCal (fun c => { c with trimming := 0xF }) s
  forEach [0, 1] (fun a s =>
    if (dramOf s a).pasr then dramTrain a true (dramOf s a).passRate (onDram a (fun d => { d with pasr := false, pasrMask := 0 }) s)
    else s) s

/-- The exit from DORMANT is complete (T11, T24, R391): histories restart from zero, each zone's next frame follows a gap, the
ring restarts, and Ethernet port 0 returns to its rate. [DEDUCED, notes/assumptions/87] -/
def leaveDormant (s : State) : State :=
  let s := { s with links := { s.links with pcieL1 := false, peWake := false } }
  let s := forEach (enabledZones s.banks.active) (fun z s =>
    noteGap z 0 5 (onZone z (fun x => { x with
      hist := [], qual := [], userHist := [], filters := [], energy := [], samples := [], marks := [], flags := 0,
      gathered := 0, out := [], feats := [], edge := true }) s)) s
  ringRestart 2 (ethForceLow false s)

/-- A paired unit that leaves the active role without a planned handover sets RELEASE in its barks (R487). [DEDUCED, notes/assumptions/89] -/
def noteRelease (s : State) : State :=
  if pairEnabled s && s.pair.own then onPair (fun x => { x with release := true }) s else s

/-- CONFIG is entered by transition `n`. [DEDUCED, notes/assumptions/89] -/
def enterConfig (n : Nat) (s : State) : State := setMode .config n (noteRelease s)

/-- MIRROR is entered (T4, T15, T19, R475, R480): the port chains stay awake. -/
def enterMirror (n : Nat) (s : State) : State :=
  let s := onPair (fun x => { x with
    stopped := false, release := false, taking := false, handoverReq := false, finalSent := false, step := .idle }) s
  wakePorts (setMode .mirror n s)

/-- SURVEY is entered for the ports of a mask (T6, R175); parameters applied at the next mode entry apply (R14). -/
def enterSurvey (mask : BitVec 4) (journal : Nat) (s : State) : State :=
  let s := s.modeEntry.foldl (fun s e => { s with params := Store.write paramDefault s.params e.1 e.2 }) { s with modeEntry := [] }
  let s := { s with ports := Vector.ofFn fun p : Fin 4 =>
    { (s.ports.get p) with surveying := mask.getLsbD p, surveyShots := 0, awake := mask.getLsbD p, dark := true } }
  setMode .survey 6 (onMode (fun x => { x with surveyJournal := journal, surveyFailed := false }) s)

end Sys2Proof.Machine
end

