-- ==== Sys2Proof/Machine/TimeOps.lean ====
section
/-! DEFINITION. Shared operations of the time unit: the axis and its target (R402), holdover and domain switching (R405 to
R407), the tick of the counters (R396, R397), and the end of a series of interval measurements (R419 to R421). -/

namespace Sys2Proof.Machine

/-- Update the time unit. -/
def onTime (f : TimeUnit → TimeUnit) (s : State) : State := { s with time := f s.time }

/-- `grid.interval_dev_cells`: the largest deviation in the last whole second (R413). -/
def intervalDevOf (s : State) (p : Nat) : Int :=
  let sec := s.ticks / secTicks 1
  let at_ := vecRead s.time.intervalSec p 0
  if at_ = sec then vecRead s.time.intervalLast p 0 else if at_ + 1 = sec then vecRead s.time.intervalDev p 0 else 0

/-- Units of 2^−40 ns in a nanosecond (R396). -/
def nsUnits : Nat := 2 ^ 40

/-- Network time of the selected domain's counter: the shot network time (R403). -/
def selectedNet (s : State) : NetTime := nowNet s

/-- Axis less selected domain, in units of 2^−40 ns. -/
def axisOffset (s : State) : Int := (s.time.axis : Int) - (selectedDomain s).count

/-- Is any port's grid running in a mode that fires (R402)? -/
def portsFire (s : State) : Bool :=
  (firingMode s.mode.current || s.mode.current == .handover) && s.ports.toList.any (·.gridRunning)

/-- The axis has its domain as target: neither held over nor steered by SYNC_IN (R402). [DEDUCED, notes/assumptions/78] -/
def axisFollows (s : State) : Bool := !s.time.holdover && !s.time.syncEngaged

/-- A difference between the axis and its target is closed (R402): by a step when no port fires, by a slew when it is small, by
a step after the firing ports have stopped otherwise. A slew in progress goes on. [DEDUCED, notes/assumptions/78] -/
def retarget (s : State) : State :=
  let target := (selectedDomain s).count
  let diff := axisOffset s
  if !axisFollows s || s.time.stepPending then s
  else if diff = 0 then onTime (fun t => { t with slewing := false }) s
  else if !portsFire s then onTime (fun t => { t with axis := target, slewing := false }) s
  else if s.time.slewing || diff.natAbs ≤ paramNat s Pid.timeMaxSlewNs 0 * nsUnits then
    onTime (fun t => { t with slewing := true }) s
  else
    { onTime (fun t => { t with stepPending := true }) s with
      ports := s.ports.map fun x => { x with stopping := x.stopping || x.gridRunning } }

/-! ## Holdover and switching -/

/-- The axis enters HOLDOVER, or its cause changes (R405, R407). [DEDUCED, notes/assumptions/77] -/
def enterHoldover (cause : Nat) (s : State) : State :=
  if s.time.holdover then onTime (fun t => { t with holdCause := cause }) s
  else
    post 0x0503 1 cause 0 (bump Pid.timeHoldovers 0 (onTime (fun t => { t with
      holdover := true, holdCause := cause, holdIncrement := (selectedDomain s).increment, slewing := false, stepPending := false }) s))

/-- HOLDOVER ends, and the axis takes the selected domain as its target (R405). [DEDUCED, notes/assumptions/77] -/
def leaveHoldover (s : State) : State :=
  if !s.time.holdover then s
  else
    let s := post 0x0503 0 s.time.holdCause 0 s
    retarget (onTime (fun t => { t with holdover := false, holdCause := 0 }) s)

/-- Difference of the two counters in nanoseconds. [DESIGN CHOICE, notes/assumptions/81] -/
def domainGapNs (s : State) : Nat := ((domainOf s 0).count - (domainOf s 1).count + ((domainOf s 1).count - (domainOf s 0).count)) / nsUnits

/-- Do the counters differ by at most `time.switch_max_offset_ns`? -/
def domainsNear (s : State) : Bool :=
  decide ((domainOf s 0).count - (domainOf s 1).count + ((domainOf s 1).count - (domainOf s 0).count) ≤
    paramNat s Pid.timeSwitchMaxOffsetNs 0 * nsUnits)

/-- `time.select` changes (R404 to R406). In HOLDOVER for want of a domain, a LOCKED new domain ends it. -/
def switchDomain (d : Fin 2) (auto : Bool) (s : State) : State :=
  let s := post 0x0502 s.time.select.val d.val ((if auto then 2 ^ 31 else 0) + min (domainGapNs s) (2 ^ 31 - 1) : Nat) s
  let s := onTime (fun t => { t with select := d, hostSelect := if auto then t.hostSelect else d }) s
  if s.time.holdover then
    if s.time.holdCause ≠ 3 && (domainOf s d).locked then leaveHoldover s else s
  else retarget s

/-- The other domain. -/
def otherDomain (d : Fin 2) : Fin 2 := if d = 0 then 1 else 0

/-- R406: with `time.revert`, the axis returns to the domain the host last wrote. -/
def revertDomain (s : State) : State :=
  let h := s.time.hostSelect
  if paramBool s Pid.timeRevert 0 && h != s.time.select && (domainOf s h).locked && domainsNear s && !s.time.holdover then
    switchDomain h true s
  else s

/-- Domain `d` has become LOCKED (R405, R406). -/
def domainLocked (d : Fin 2) (s : State) : State :=
  let s := if d = s.time.select then onTime (fun t => { t with lockedOnce := true }) s else s
  let s :=
    if s.time.holdover && s.time.holdCause ≠ 3 then
      if d = s.time.select then leaveHoldover s
      else if domainsNear s then switchDomain d true s
      else s
    else s
  revertDomain s

/-- Domain `d` has become UNLOCKED (R405). -/
def domainUnlocked (d : Fin 2) (s : State) : State :=
  if d ≠ s.time.select || s.time.holdover then s
  else if (domainOf s (otherDomain d)).locked && domainsNear s then switchDomain (otherDomain d) true s
  else enterHoldover 2 s

/-- Is domain `d` LOCKED under the three conditions of R401? -/
def lockHolds (s : State) (d : Fin 2) : Bool :=
  paramNat s Pid.timeDomServoState d == 1 && !(domainOf s d).syncTimeout && !(domainOf s d).servoTimeout

/-- Re-evaluate the lock of domain `d` after a condition of R401 changed; `cause` is the one of TIME_DOMAIN_LOCK. [DEDUCED, notes/assumptions/77] -/
def lockUpdate (d : Fin 2) (cause : Nat) (s : State) : State :=
  let now := lockHolds s d
  if now == (domainOf s d).locked then s
  else
    let s := post 0x0501 d.val (bit now) cause (onDomain d (fun x => { x with locked := now }) s)
    if now then domainLocked d s else domainUnlocked d s

/-- The core PLL has lost lock: HOLDOVER is in force (R69, R407). [DEDUCED, notes/assumptions/77] -/
def holdForPll (s : State) : State := enterHoldover 3 s

/-- The core PLL has relocked: HOLDOVER ends when the selected domain is LOCKED, else its other cause shows. [DEDUCED, notes/assumptions/77] -/
def pllReturns (s : State) : State :=
  if !s.time.holdover || s.time.holdCause ≠ 3 then s
  else if (selectedDomain s).locked then leaveHoldover s
  else onTime (fun t => { t with holdCause := if t.lockedOnce then 2 else 1 }) s

/-! ## The tick -/

/-- One tick of a domain counter (R396, R397): a waiting increment and adjust apply together. -/
def domainTick (x : Domain) : Domain :=
  let inc := x.nextIncrement.getD x.increment
  { x with increment := inc, nextIncrement := none, adjust := 0, count := ((x.count : Int) + x.adjust * nsUnits + inc).toNat }

/-- Advance of the axis in one tick while it does not follow its domain (R402, R405, R409). -/
def axisAdvance (s : State) : Nat :=
  let d := selectedDomain s
  let base := if s.time.holdover then s.time.holdIncrement else d.nextIncrement.getD d.increment
  if s.time.syncEngaged then (((base : Nat) : Int) * (1000000000000 + s.time.syncRate) / 1000000000000).toNat
  else if s.time.slewing && !s.time.holdover then
    let d := base * paramNat s Pid.timeSlewPpm 0 / 1000000
    if 0 < axisOffset s then base - d else base + d
  else base

/-- The slew or the pending step is over once the axis meets its target, or no port fires (R402). [DEDUCED, notes/assumptions/78] -/
def slewEnd (before : Int) (s : State) : State :=
  let after := axisOffset s
  if s.time.slewing && axisFollows s && (!portsFire s || after = 0 || decide (before < 0) != decide (after < 0)) then
    onTime (fun t => { t with axis := (selectedDomain s).count, slewing := false }) s
  else retarget s

/-- End of a pulse: its writes apply (R416). The next time is recomputed where the pulse is driven. -/
def toutNow (s : State) (u : Nat) : Nat :=
  match paramNat s Pid.toutTimebase u with
  | 0 => s.time.axis / nsUnits
  | 1 => (domainOf s 0).count / nsUnits
  | _ => (domainOf s 1).count / nsUnits

/-- Start of output `u`, ns. [DEDUCED, notes/assumptions/79] -/
def toutStart (s : State) (u : Nat) : Nat := paramNat s Pid.toutStartS u * 1000000000 + paramNat s Pid.toutStartNs u

/-- The first pulse time not yet passed (R415). GRID pulses are set at each slot-0 fire time. [DEDUCED, notes/assumptions/79] -/
def toutFirst (s : State) (u : Nat) : Option Nat :=
  let now := toutNow s u
  let start := toutStart s u
  match paramNat s Pid.toutMode u with
  | 1 => if now ≤ start then some start else none
  | 2 => let p := paramNat s Pid.toutPeriodNs u
         some (if now ≤ start then start else start + ceilDiv (now - start) p * p)
  | _ => none

/-- Update pulse output `u`. -/
def onTout (u : Nat) (f : Tout → Tout) (s : State) : State := onTime (fun t => { t with touts := vecUpdate t.touts u f }) s

/-- Pulse output `u`. -/
def toutOf (s : State) (u : Nat) : Tout := vecRead s.time.touts u {}

/-- A pulse that has lasted its width ends; waiting writes apply and the next time is recomputed (R415, R416). [DEDUCED, notes/assumptions/79] -/
def toutTick (u : Nat) (s : State) : State :=
  let x := toutOf s u
  if !x.active || toutNow s u < x.endsAt then s
  else
    let s := onTout u (fun x => { x with active := false, writes := [] }) s
    if x.writes.isEmpty then s
    else
      let s := x.writes.foldl (fun s e => { s with params := Store.write paramDefault s.params e.1 e.2 }) s
      onTout u (fun x => { x with next := toutFirst s u }) s

/-- The counters have come within reach of each other: a holdover ends by the other LOCKED domain (R405), and an automatic switch
returns (R406). -/
def domainWatch (s : State) : State :=
  let o := otherDomain s.time.select
  revertDomain (
    if s.time.holdover && s.time.holdCause != 3 && (domainOf s o).locked && domainsNear s then switchDomain o true s else s)

/-- One tick of 1.25 ns in a mode that runs the counters (R398). -/
def timeTick (s : State) : State :=
  let before := axisOffset s
  let adv := axisAdvance s
  let s := onTime (fun t => { t with domains := t.domains.map domainTick, axis := t.axis + adv }) s
  forEach allPorts toutTick (slewEnd before (domainWatch s))

/-! ## Interval measurement -/

/-- Update the time-interval unit. -/
def onTdc (f : Tdc → Tdc) (s : State) : State := onTime (fun t => { t with tdc := f t.tdc }) s

/-- Time-base flags of the grade in force (R421): NOREF, COLD, XO. -/
def tbFlags (s : State) : BitVec 3 :=
  match clkGrade s with
  | 0 => 0
  | 1 => 1
  | 2 => 5
  | _ => 3

/-- The grade in force marks a measurement in progress (R421). [DESIGN CHOICE, notes/assumptions/80] -/
def tdcGrade (s : State) : State :=
  let x := s.time.tdc
  if x.running && (x.start.isSome || x.stop.isSome) then onTdc (fun x => { x with tbRun := x.tbRun ||| tbFlags s }) s else s

/-- The series ends (R419): DONE is set and TDC_DONE posted. [DESIGN CHOICE, notes/assumptions/80] -/
def tdcEnd (aborted : Bool) (s : State) : State :=
  if !s.time.tdc.running then s
  else
    let s := onTdc (fun x => { x with running := false, done := true, aborted := x.aborted || aborted, start := none, stop := none }) s
    post 0x0505 s.time.tdc.made (tdcStatus s) 0 s

/-- Mean and deviation of a series in 1/256 LSB (R419). -/
def tdcMean (rs : List Int) : Int :=
  let sum : Int := 256 * rs.foldl (· + ·) 0
  let n := rs.length
  if n = 0 then 0 else if sum % n = 0 then sum / n else Config.tdcMean sum n

/-- A measurement ends, with a result or without one (R419, R420). -/
def tdcMeasured (result : Option Int) (s : State) : State :=
  let s := onTdc (fun x =>
    let rs := x.results ++ result.toList
    { x with
      start := none, stop := none, tb := x.tbRun, tbRun := 0, made := x.made + 1, results := rs, valid := x.valid || result.isSome,
      resultLsb := result.getD x.resultLsb, meanLsb := tdcMean rs,
      sdevLsb := if rs.isEmpty then 0 else Config.tdcSdev rs }) s
  if paramNat s Pid.tdcCount 0 ≤ s.time.tdc.made then tdcEnd false s else s

end Sys2Proof.Machine
end

