-- ==== Sys2Proof/Machine/ModeExec.lean ====
section
/-! DEFINITION. Mode transitions as commands (R76 to R87, R135, R175, R176): MODE_REQUEST, AUTO_RUN, FEED_LOSS_ACTION,
MODE_TRANSITION_DONE, SURVEY_PORT_DONE, DEVICE_RESET and DELAYED_RESET. -/

namespace Sys2Proof.Machine

/-- A transition of R78 that a MODE_REQUEST names. -/
structure Asked where
  number : Nat
  target : Mode
  /-- It fires ports, so the emission chain must permit (R501). -/
  fires : Bool := false
  /-- It requires an admitted ACTIVE bank. -/
  admits : Bool := false
  thenRun : Bool := false
  deriving DecidableEq, Repr

/-- T5's preconditions that fail with WRONG_MODE (R78). -/
def mayRun (s : State) : Bool := !pairEnabled s && allPorts.any (portEnabled s)

/-- The transition that a request for mode `m` names in the present mode (R78); none is WRONG_MODE. -/
def askedFor (s : State) (m : Mode) : Option Asked :=
  match s.mode.current, m with
  | .config, .run => if mayRun s then some { number := 5, target := .run, fires := true, admits := true } else none
  | .config, .survey => if pairEnabled s then none else some { number := 6, target := .survey, fires := true }
  | .config, .dormant => some { number := 10, target := .dormant }
  | .config, .mirror => if pairEnabled s then some { number := 15, target := .mirror } else none
  | .config, .test => if s.straps.testEn then some { number := 22, target := .test } else none
  | .survey, .config => some { number := 7, target := .config }
  | .run, .sentinel => some { number := 8, target := .sentinel }
  | .sentinel, .run => some { number := 9, target := .run, fires := true }
  | .run, .dormant => some { number := 10, target := .dormant }
  | .sentinel, .dormant => some { number := 10, target := .dormant }
  | .run, .config => some { number := 14, target := .config }
  | .sentinel, .config => some { number := 14, target := .config }
  | .dormant, .config => some { number := 11, target := .config }
  | .dormant, .run =>
    if pairEnabled s then (if s.pair.own then some { number := 24, target := .run, fires := true, admits := true } else none)
    else if mayRun s then some { number := 11, target := .config, fires := true, admits := true, thenRun := true }
    else none
  | .inhibit, .config => some { number := 13, target := .config }
  | .inhibit, .dormant => some { number := 13, target := .dormant }
  | .inhibit, .run => if s.mode.interrupted == .run then some { number := 13, target := .run, fires := true } else none
  | .inhibit, .sentinel =>
    if s.mode.interrupted == .sentinel then some { number := 13, target := .sentinel, fires := true } else none
  | .mirror, .config => some { number := 16, target := .config }
  | .fault, .config => if s.mode.faultFromTest then none else some { number := 21, target := .config }
  | _, _ => none

/-- Status of the first precondition that fails, 0 for none (R78, R501). [DESIGN CHOICE, notes/assumptions/57] -/
def askedStatus (s : State) (a : Asked) : Nat :=
  if a.number = 21 && s.mode.faultPresent then 0x31
  else if a.admits && !s.mode.admitted then 0x40
  else if a.fires && !chainPermits s then 0x50
  else 0

/-- Transitions whose work lasts longer than 10 ms are answered ACCEPTED (R131). -/
def askedSlow (a : Asked) : Bool := a.number == 6 || a.number == 11 || a.number == 24 || a.target == .dormant

/-- A transition starts (R78): ports stop or wake, DRAM leaves self-refresh. -/
def beginTransition (t : Transition) (s : State) : State :=
  let fired := s.mode.current == .run || s.mode.current == .sentinel
  let s := onMode (fun x => { x with inProgress := some t }) s
  let s := if s.mode.current == .dormant then wakeDram s else s
  if fired && (t.number == 8 || t.number == 10 || t.number == 14) then stopPorts s else s

/-- Ports of a mask. -/
def maskPorts (mask : BitVec 4) : Nat := (allPorts.filter fun p => mask.getLsbD p).length

/-- The request starts its transition, which is journaled and answered (R135, R142). A SURVEY has one step per port. [DESIGN CHOICE, notes/assumptions/57] -/
def startAsked (r : Request) (a : Asked) (mask : BitVec 4) (s : State) : State :=
  withJournal r (if a.number = 6 then maskPorts mask else 1) (fun n s =>
    let s := if a.number = 6 then tdcEnd true s else s
    let s := journalStart n (beginTransition { number := a.number, target := a.target, origin := .host n, mask := mask, thenRun := a.thenRun } s)
    answer r (if askedSlow a then 0x01 else 0) 0 (leBytes 4 a.number ++ leBytes 4 n) s) s

/-- T14 on a paired unit that holds the leash (R487): it hands over with cause 7, and is answered at T23. -/
def pairedConfig (r : Request) (s : State) : State :=
  if !mayRelease false s then refuse r 0x31 0 (swapRefused (peerCondition s) 7 s)
  else
    withJournal r 1 (fun n s =>
      beginRelease 7 (onPair (fun x => { x with journal := some n, request := some r }) (journalStart n s))) s

/-- MODE_REQUEST (R78 to R80, R135). [DEDUCED, notes/assumptions/46; DEDUCED, notes/assumptions/58] -/
def modeRequest (r : Request) (s : State) : State :=
  let s := restorePorts s
  let mask : BitVec 4 := BitVec.ofNat 4 (field r.payload 1 1)
  match modeOfCode (field r.payload 0 1) with
  | none => refuse r 0x20 0 s
  | some m =>
    if s.mode.inProgress.isSome then refuse r 0x31 0 s
    else
      match askedFor s m with
      | none => refuse r 0x30 0 s
      | some a =>
        let st := askedStatus s a
        if m == .survey && (mask == 0 || decide (16 ≤ field r.payload 1 1)) then refuse r 0x20 0 s
        else if st ≠ 0 then refuse r st (if a.number = 21 then s.mode.faultCode else 0) s
        else if a.number = 14 && pairEnabled s && s.pair.own then pairedConfig r s
        else startAsked r a mask s

/-- MODE_REQUEST: it waits while a bank switch is pending (R94). -/
def execModeRequest (s : State) : Host.Outcome State Fault Refusal :=
  .next (if s.banks.switch.isSome then s else runCommand 0x0300 modeRequest s)

/-- An internal command that its preconditions refuse (R22): its entry ends ROLLED_BACK, which JOURNAL_DONE logs. [DEDUCED, notes/assumptions/58] -/
def internalRefused (n status : Nat) (s : State) : State :=
  journalEnd n .rolledBack status 0 s

/-- Auto-run at the head of the queue (R87): the preconditions of T5. -/
def autoRun (r : Request) (s : State) : State :=
  withJournal r 1 (fun n s =>
    let s := restorePorts s
    let status : Nat :=
      if s.mode.inProgress.isSome then 0x31
      else if s.mode.current != .config || !mayRun s then 0x30
      else askedStatus s { number := 5, target := .run, fires := true, admits := true }
    if status ≠ 0 then post 0x0212 status 0 0 (internalRefused n status s)
    else beginTransition { number := 5, target := .run, origin := .internal n } (journalStart n s)) s

/-- AUTO_RUN (R22, R87): Scribe's own MODE_REQUEST RUN at the head of the queue. [DEDUCED, notes/assumptions/58] -/
def execAutoRun (s : State) : Host.Outcome State Fault Refusal :=
  .next (if s.banks.switch.isSome then s else runInternal (fun r => r.opcode == 0x0300 && field r.payload 0 1 == 4) autoRun s)

/-- Does a feed-loss action apply in the present mode (R59)? 1 SENTINEL, 2 DORMANT. -/
def feedActionFits (s : State) (action : Nat) : Bool :=
  (action == 1 && s.mode.current == .run) || (action == 2 && (s.mode.current == .run || s.mode.current == .sentinel))

/-- A feed-loss action at the head of the queue (R22, R59): the payload names the mode and the feed. [DEDUCED, notes/assumptions/58] -/
def feedLossAction (r : Request) (s : State) : State :=
  let dormant := field r.payload 0 1 == 6
  withJournal r 1 (fun n s =>
    if !feedActionFits s (if dormant then 2 else 1) then post 0x0202 (field r.payload 2 1) 0xFF 0 (internalRefused n 0x30 s)
    else
      beginTransition { number := if dormant then 10 else 8, target := if dormant then .dormant else .sentinel, origin := .internal n }
        (journalStart n s)) s

/-- FEED_LOSS_ACTION: it interrupts the transition of a MODE_REQUEST and waits for any other, for HANDOVER and for a bank
switch (R79, R94). -/
def execFeedLossAction (s : State) : Host.Outcome State Fault Refusal :=
  let fits (r : Request) : Bool := r.opcode == 0x0300 && field r.payload 0 1 != 4
  let internal : Bool := (s.mode.inProgress.map fun t => match t.origin with | .internal _ => true | _ => false).getD false
  .next (if s.banks.switch.isSome || s.mode.current == .handover || internal then s
    else runInternal fits (fun r s => feedLossAction r (interruptTransition 0x31 s)) s)

/-- A request for RUN out of DORMANT continues as T5 in CONFIG, its preconditions checked again (T11). -/
def continueRun (t : Transition) (s : State) : State :=
  let status := if !mayRun s then 0x30 else askedStatus s { number := 5, target := .run, fires := true, admits := true }
  if status ≠ 0 then endOrigin t .part status 0 s
  else beginTransition { number := 5, target := .run, origin := t.origin } s

/-- The new mode of a finished transition is entered (R78). [DESIGN CHOICE, notes/assumptions/59; DESIGN CHOICE, notes/assumptions/116] -/
def enterTarget (t : Transition) (s : State) : State :=
  match t.target with
  | .run => enterRun t.number (if t.number = 24 then leaveDormant s else s)
  | .sentinel => enterSentinel t.number s
  | .dormant => enterDormant t.number s
  | .mirror => enterMirror t.number s
  | .test => setMode .test t.number s
  | .survey => enterSurvey t.mask (match t.origin with | .host n => n | .internal n => n | .none => 0) s
  | _ =>
    let s := if t.number = 11 then leaveDormant s else s
    let s := enterConfig t.number s
    let s := if t.number = 21 then onMode (fun x => { x with faultCode := 0, faultFromTest := false }) s else s
    let s := if t.number = 7 then endSurvey (if t.origin == .none then 0x60 else 0x31) s else s
    if t.number = 16 then onPair (fun x => { x with stopped := true }) s else s

/-- MODE_TRANSITION_DONE (R78): `mode.current` shows the new mode, and the request's journal entry ends DONE (R146). -/
def modeTransitionDone (s : State) : State :=
  match s.mode.inProgress with
  | none => s
  | some t =>
    let s := enterTarget t (onMode (fun x => { x with inProgress := none }) s)
    if t.thenRun then continueRun t s
    else if t.number = 6 then s
    else endOrigin t .done 0 0 s

/-- MODE_TRANSITION_DONE. -/
def execModeTransitionDone (s : State) : Host.Outcome State Fault Refusal := .next (modeTransitionDone s)

/-- PENDING, made from ACTIVE at the first staging (R133). -/
def pendingBank (s : State) : Bank := s.banks.pending.getD s.banks.active

/-- Stage one value into PENDING. [DESIGN CHOICE, notes/assumptions/17] -/
def stageValue (id idx : Nat) (v : Int) (s : State) : State :=
  onBanks (fun b => { b with pending := some (bankWrite (b.pending.getD b.active) id idx v) }) s

/-- What a surveyed port stages (R176): origin, group index and its eight blots. [DEDUCED, notes/assumptions/60] -/
def surveyStage (p : Nat) (r : SurveyResult) (s : State) : State :=
  let s := stageValue (portId p Pid.portOriginCells) 0 r.originCell (stageValue (portId p Pid.portGroupIndex) 0 r.groupIndex s)
  forEach (List.range 8) (fun b s =>
    let (start, len) := r.blots.getD b (0, 0)
    stageValue (portId p Pid.portBlotStartCells) b start (stageValue (portId p Pid.portBlotLengthCells) b len s)) s

/-- Effective group index in millionths (R175 step 5): 0.3750 m × (coil-end cell − origin cell) / length in mm × 1,000. [DEDUCED, notes/assumptions/60] -/
def surveyIndex (coilEnd origin mm : Nat) : Nat := (rhuDiv (375000000 * ((coilEnd : Int) - 64 * origin)) (64 * max 1 mm)).toNat

/-- Put a blot into a list that rises in cells. -/
def insertBlot (x : Nat × Nat) (xs : List (Nat × Nat)) : List (Nat × Nat) := xs.filter (·.1 ≤ x.1) ++ x :: xs.filter (x.1 < ·.1)

/-- The eight longest of some blots, in rising cells; of equal ones the nearer stay. -/
def longestBlots (fuel : Nat) (xs kept : List (Nat × Nat)) : List (Nat × Nat) :=
  match fuel with
  | 0 => kept
  | fuel + 1 =>
    match xs with
    | [] => kept
    | x :: t =>
      let top := t.foldl (fun a b => if a.2 < b.2 then b else a) x
      longestBlots fuel (xs.erase top) (insertBlot top kept)

/-- Blots that a survey proposes (R175 step 6): a reflection that drove OVR with `ovr_guard` samples after it, from the origin. [DEDUCED, notes/assumptions/60] -/
def surveyBlots (r : SurveyTrace) (guard : Nat) : List (Nat × Nat) :=
  longestBlots 8 ((r.reflections.filter (·.overRange)).map fun f => (f.cell - r.originCell, min 65535 (f.length + guard))) []

/-- What a survey's measurements come to (R175 to R177). [DEDUCED, notes/assumptions/60] -/
def surveyResult (s : State) (p : Nat) (r : SurveyTrace) : SurveyResult :=
  let index := surveyIndex r.coilEnd r.originCell (portNat s p Pid.portRefcoilLengthMm 0)
  let inRange := ((paramRow Pid.portGroupIndex).map fun d => rangeOk d.range index).getD false
  { journal := s.mode.surveyJournal, time := nowNet s, result := if r.result = 0 && !inRange then 3 else r.result,
    endCell := r.endCell, coilEnd := r.coilEnd, groupIndex := index, originCell := r.originCell,
    blots := surveyBlots r (portNat s p Pid.portOvrGuard 0),
    reflections := (r.reflections.take 32).map fun f => (f.cell, f.level), profile := r.profile.take 1024,
    launchLatencyPs := if r.latencies.isEmpty then 0 else (rhuDiv (r.latencies.sum : Nat) (r.latencies.length : Nat)).toNat }

/-- SURVEY_PORT_DONE (R175, R176): a port's step ends with its result; a group index outside the parameter's range stages
nothing. When the last port is done the survey ends under T7. [DEDUCED, notes/assumptions/60] -/
def surveyPortDone (p : Nat) (trace : SurveyTrace) (s : State) : State :=
  if s.mode.current != .survey || !(portOf s p).surveying then s
  else
    let r := surveyResult s p trace
    let old := s
    let s := onPort p (fun x => { x with surveying := false, survey := r }) s
    let s := paramPut (portId p Pid.portLaunchLatencyPs) 0 r.launchLatencyPs s
    let s := settle old (onSafety (fun x => { x with fire := modeFire s }) s)
    let s := if r.result = 0 then surveyStage p r s else onMode (fun x => { x with surveyFailed := true }) s
    let s := journalStep r.journal (post 0x1005 p r.result r.endCell s)
    if allPorts.any (fun q => (portOf s q).surveying) || s.mode.inProgress.isSome then s
    else beginTransition { number := 7, target := .config, origin := .none } s

/-- SURVEY_PORT_DONE. [DEDUCED, notes/assumptions/60] -/
def execSurveyPortDone (p : Fin 4) (trace : SurveyTrace) (s : State) : Host.Outcome State Fault Refusal :=
  .next (surveyPortDone p trace s)

/-- Set a bit of `mode.reset_record` (R102). -/
def recordReset (bits : BitVec 8) (s : State) : State := onMode (fun x => { x with resetRecord := x.resetRecord ||| bits }) s

/-- DEVICE_RESET (R135): answered, and the reset follows 10 ms later. -/
def deviceResetCmd (r : Request) (s : State) : State :=
  let scope := field r.payload 0 1
  if 1 < scope then refuse r 0x20 0 s
  else
    withJournal r 1 (fun n s =>
      let s := answerOk r (journalEnd n .done 0 0 (journalStep n s))
      recordReset (if scope = 1 then 0x20 else 0x40) { s with scribe := { s.scribe with delayedReset := some scope } }) s

/-- DEVICE_RESET. -/
def execDeviceReset (s : State) : Host.Outcome State Fault Refusal := .next (runCommand 0x0301 deviceResetCmd s)

/-- A Scribe restart begins (R89, R90): sessions, tags, the queue, PENDING and unanswered work of Scribe are gone; every
other block goes on. Mode transitions in progress end with Scribe. [DEDUCED, notes/assumptions/140] -/
def scribeReset (s : State) : State :=
  let s := forEach allPorts (fun t s => onTransport t (fun x => { messages := x.messages }) s) (dropAnswers s)
  let items := Store.update (fun _ => {}) (fun (i : CalItem) => { i with running := false, points := [], journal := none }) s.calib.items
  let s := { s with
    scribe := { s.scribe with
      ready := false, restarting := true, queue := [], delayedReset := none,
      page := s.scribe.page.map fun g => { g with request := [], reqFree := false, doorbell := none, rspValid := false, response := [] } },
    banks := { s.banks with pending := none, job := none, revertRaised := false },
    firmware := { s.firmware with upload := none }, serif := { s.serif with upload := none },
    pair := { s.pair with watchdogOk := false, journal := none, request := none },
    calib := { s.calib with jobs := [], teleRestarted := true, items := items, trimming := 0, returning := 0, tdcDue := false },
    links := { s.links with relay := none } }
  let s := if s.pointer.areaSram then onPtr (fun x => { x with records := [] }) s else s
  onMode (fun x => { x with inProgress := none, surveyJournal := 0 }) s

/-- DELAYED_RESET (R135): 10 ms after the answer, the Scribe restart of R90 or the device reset of T1. -/
def delayedReset (s : State) : State :=
  match s.scribe.delayedReset with
  | none => s
  | some 0 => scribeReset s
  | some _ => deviceReset true s

/-- DELAYED_RESET. -/
def execDelayedReset (s : State) : Host.Outcome State Fault Refusal := .next (delayedReset s)

end Sys2Proof.Machine
end

