-- ==== Sys2Proof/Machine/Boot.lean ====
section
/-! DEFINITION. Start-up (R86 to R88, R97 to R100), Scribe restarts (R89, R90), the recovery loader (R458) and the firmware
update commands (R99). -/

namespace Sys2Proof.Machine

/-- What a part of the boot flash holds (R456). -/
inductive FlashUse where
  | bootRecord | commitRecords | bankSlots | deviceRecords | imageA | imageB | programs | journal | eventLog | reserved
  deriving DecidableEq, Repr

/-- The flash map: offset, size in bytes and use (R456). -/
def flashMap : List (Nat × Nat × FlashUse) := [
  (0x00000000, 0x10000, .bootRecord), (0x00010000, 0x10000, .commitRecords), (0x00020000, 0x180000, .bankSlots),
  (0x001A0000, 0x60000, .deviceRecords), (0x00200000, 0x400000, .imageA), (0x00600000, 0x400000, .imageB),
  (0x00A00000, 0x200000, .programs), (0x00C00000, 0x100000, .journal), (0x00D00000, 0x300000, .reserved),
  (0x01000000, 0x800000, .eventLog), (0x01800000, 0x800000, .reserved)]

/-- Use of a flash offset; none above 32 MiB (R456). -/
def flashUse (off : Nat) : Option FlashUse :=
  (flashMap.find? fun e => decide (e.1 ≤ off ∧ off < e.1 + e.2.1)).map (·.2.2)

/-- Update the firmware state. -/
def onFw (f : Firmware → Firmware) (s : State) : State := { s with firmware := f s.firmware }

/-- Image slot `i`. -/
def slotOf (s : State) (i : Fin 2) : ImageSlot := s.firmware.slots.get i

/-- The other slot. -/
def otherSlot (i : Fin 2) : Fin 2 := if i = 0 then 1 else 0

/-- Would the boot ROM boot the preferred slot (R98, R99)? -/
def preferredBoots (s : State) : Bool :=
  let x := slotOf s s.firmware.preferred
  x.verifies && !x.failed && (x.confirmed || decide (s.firmware.trialBoots < 3))

/-- BOOT_ROM_START (R46, R88, R98): once the control PLL has locked, the boot ROM picks an image. [DEDUCED, notes/assumptions/56] -/
def bootRomStart (s : State) : State :=
  if s.mode.current != .boot || s.mode.imageRunning || s.mode.bootNoImage then s
  else
    let s := { s with clocks := { s.clocks with locked := s.clocks.locked ||| 0x02#5, xtalFailed := false } }
    let pref := s.firmware.preferred
    let other := otherSlot pref
    if s.straps.bootRecover then s
    else if preferredBoots s then
      let trial := !(slotOf s pref).confirmed
      onMode (fun x => { x with imageRunning := true }) (onFw (fun f => { f with
        running := pref, trialBoots := if trial then f.trialBoots + 1 else f.trialBoots }) s)
    else if (slotOf s other).verifies && (slotOf s other).confirmed && !(slotOf s other).failed then
      recordReset 0x04 (onMode (fun x => { x with imageRunning := true }) (onFw (fun f => { f with running := other }) s))
    else onMode (fun x => { x with bootNoImage := true }) s

/-- BOOT_ROM_START. -/
def execBootRomStart (s : State) : Host.Outcome State Fault Refusal := .next (bootRomStart s)

/-- BOOT_SRAM_CLEAR_DONE (R85): the hardware clear of the stores ends; a failure latches FAULT. -/
def execBootSramClearDone (ok : Bool) (s : State) : Host.Outcome State Fault Refusal :=
  .next (if s.mode.current != .boot then s
    else if ok then onMode (fun x => { x with sramCleared := true }) s
    else enterFault 9 true s)

/-- Journal entries that a reset cut off (R90, R142, R144): RUNNING ones become PARTIAL, NOT_STARTED ones ROLLED_BACK, with the steps
that flash holds. [DESIGN CHOICE, notes/assumptions/116; DEDUCED, notes/assumptions/135] -/
def journalCutOff (s : State) : State :=
  forEach (s.journal.entries.reverse.filter fun e => jstateOpen e.state) (fun e s =>
    journalEnd e.ident (if e.state = .running then .part else .rolledBack) 0x60 0xFF09
      (onJournal e.ident (fun e => { e with done := e.flashDone }) s)) s

/-- The bank that BOOT leaves ACTIVE (R95, R100): factory defaults for a bad copy or an unknown format, PREVIOUS for a TRIAL
bank, and a format 3 bank migrated in memory. -/
def bootBank (s : State) : State :=
  let b := s.banks
  let badFormat := b.active.format != 3 && b.active.format != 4
  if b.flashBad || badFormat then
    post 0x0223 b.active.format (if b.flashBad then 1 else 2) 0
      (recordReset 0x01 (onMode (fun x => { x with factoryBoot := true })
        (onBanks (fun b => { b with active := {}, trial := false, flashBad := false }) s)))
  else
    let s := if b.trial then
        recordReset 0x02 (onBanks (fun b => { b with
          active := b.previous.getD {}, previous := none, trial := false, slot := b.previousSlot, previousSlot := b.slot }) s)
      else s
    if s.banks.active.format = 3 then post 0x0222 s.banks.active.epoch 3 0 s else s

/-- At-boot parameters take the values written to them (R14). [DEDUCED, notes/assumptions/43] -/
def latchBoot (s : State) : State := { s with booted := s.params.filter fun e => effectOf (e.1 / 65536) == .atBoot }

/-- The stores and the page interface are ready: Scribe takes messages (R109, R110, R120). -/
def scribeReady (s : State) : State :=
  let s := { s with scribe := { s.scribe with ready := true, restarting := false } }
  forEach [0, 1] (fun t s => irqSet t 2 (onPage t (fun g => { g with reqFree := true }) s)) s

/-- Newest event number in the flash event log (R328), modulo 2^32; 0 where it holds none. -/
def logEventNumber (l : FlashLog) : Nat :=
  match (l.entries.filter fun e => (e.entry.code == 0x2401 || e.entry.code == 0x2402) && !e.bad).map fun e => e.entry.arg0.toNat with
  | [] => 0
  | n :: ns => ns.foldl (fun n v => if 0 < (v + 2 ^ 32 - n) % 2 ^ 32 ∧ (v + 2 ^ 32 - n) % 2 ^ 32 < 2 ^ 31 then v else n) n

/-- BOOT ends (R62, R86, R87, R144, R328, R354, R386): the ACTIVE bank is loaded and admitted in place, the ring starts, and the unit enters
CONFIG (T3) or MIRROR (T4). [DEDUCED, notes/assumptions/48; DEDUCED, notes/assumptions/131] -/
def bootComplete (s : State) : State :=
  if s.mode.current != .boot || !s.mode.imageRunning || !s.mode.sramCleared then s
  else
    let s := latchBoot s
    let s := if s.clocks.locked.getLsbD 0 then s else { s with clocks := { s.clocks with inUse := chosenRef s } }
    let s := { s with clocks := { s.clocks with locked := s.clocks.locked ||| 0x0F#5, corePllLost := false } }
    let s := if chosenRef s == s.clocks.inUse then s else { s with clocks := { s.clocks with switchTo := some (chosenRef s) } }
    let s := journalCutOff (bootBank s)
    let s := kennelResize s
    let s := readmitAll 3 [] (onMode (fun x => { x with admitted := true }) s)
    let s := scribeReady (ringRestart 1 s)
    let s := if (slotOf s s.firmware.running).confirmed then s else onFw (fun f => { f with confirmFrom := some s.ticks }) s
    let s := { s with calib := { s.calib with teleRestarted := true },
                      pointer := { s.pointer with newest := logEventNumber s.log } }
    if pairEnabled s && s.pair.peerPresent then enterMirror 4 s
    else
      let s := setMode .config 3 s
      let s := forEach ((List.range 8).filter fun q => paramBool s Pid.seqAutoArm q && seqDefined s.banks.active q) armSeq s
      if paramBool s Pid.modeAutoRun 0 && !pairEnabled s && !s.mode.factoryBoot then enqueueInternal 0x0300 (leBytes 4 4) s else s

/-- BOOT_COMPLETE. -/
def execBootComplete (s : State) : Host.Outcome State Fault Refusal := .next (bootComplete s)

/-- SCRIBE_WATCHDOG (R89, R90, R102): Scribe has not serviced its watchdog. -/
def execScribeWatchdog (s : State) : Host.Outcome State Fault Refusal :=
  .next (if s.mode.current == .reset || s.mode.current == .boot || s.scribe.restarting then s else scribeReset (recordReset 0x80 s))

/-- SCRIBE_RESTART_DONE (R90, R537, R538): Scribe serves again; a mismatch of block registers with the ACTIVE bank latches
FAULT. -/
def scribeRestartDone (mismatch : Bool) (s : State) : State :=
  if !s.scribe.restarting then s
  else
    let s := scribeReady (journalCutOff s)
    let s := onPair (fun x => { x with watchdogOk := true }) (forEach [1, 2, 3, 7, 8] xresync s)
    let s := { s with calib := { s.calib with teleSeq := 0, extHi := [] } }
    if mismatch then enterFault 7 true s else s

/-- SCRIBE_RESTART_DONE. -/
def execScribeRestartDone (mismatch : Bool) (s : State) : Host.Outcome State Fault Refusal :=
  .next (scribeRestartDone mismatch s)

/-- The length that an image's header gives (R97). -/
def imageLength (x : ImageSlot) : Nat := x.image.length

/-- The SHA-256 digest and the ECDSA P-256 signature in an image's header (R97). [DESIGN CHOICE, notes/assumptions/137] -/
def imageSeals (x : ImageSlot) : BitVec 256 × BitVec 512 := (Config.imageDigest x.image, Config.imageSignature x.image)

/-- The slot an image's header describes, in state TRIAL (R97). [DESIGN CHOICE, notes/assumptions/137] -/
def trialSlot (image : List Byte) : ImageSlot :=
  let (v, sec, lo, hi) := Config.imageHeader image
  { verifies := Config.imageVerifies image, version := some v, security := sec, formatLo := lo, formatHi := hi, image := image }

/-- RECOVERY_IMAGE (R458): the loader writes a verified image to a failing slot, else to the one not preferred, makes it
preferred in state TRIAL, and resets the device. -/
def recoveryImage (image : List Byte) (s : State) : State :=
  let x := trialSlot image
  if s.mode.current != .boot || !(s.mode.bootNoImage || s.straps.bootRecover) then s
  else if !x.verifies || x.security < s.firmware.secverMin then s
  else
    let i : Fin 2 := if !(slotOf s 0).verifies then 0 else if !(slotOf s 1).verifies then 1 else otherSlot s.firmware.preferred
    deviceReset true (onFw (fun f => { f with slots := f.slots.set i x, preferred := i, trialBoots := 0 }) s)

/-- RECOVERY_IMAGE. -/
def execRecoveryImage (image : List Byte) (s : State) : Host.Outcome State Fault Refusal := .next (recoveryImage image s)

/-- Modes in which an update may run (R99). -/
def fwMode (s : State) : Bool := s.mode.current != .boot && s.mode.current != .test

/-- The upload in progress is lost: its journal entry ends. [DEDUCED, notes/assumptions/65] -/
def fwDrop (j : JState) (status : Nat) (s : State) : State :=
  match s.firmware.upload with
  | some u => journalEnd u.journal j status 0 (onFw (fun f => { f with upload := none }) s)
  | none => s

/-- FW_BEGIN (R99, R385): the slot that is not running is opened, and erased. [DEDUCED, notes/assumptions/65; DESIGN CHOICE, notes/assumptions/116] -/
def fwBegin (r : Request) (s : State) : State :=
  if !fwMode s then refuse r 0x30 0 s
  else if s.memory.usablePages < 384 * 16 then refuse r 0x40 0 s
  else
    let s := fwDrop .part 0x31 s
    withJournal r 0 (fun n s =>
      answerWork r n 1 0 (journalStart n (onFw (fun f => { f with
        upload := some { journal := n }, slots := f.slots.set (otherSlot f.running) {} }) s)) ) s

/-- FW_BEGIN. -/
def execFwBegin (s : State) : Host.Outcome State Fault Refusal := .next (runCommand 0x0B00 fwBegin s)

/-- FW_DATA (R99): one chunk of at most what is left of the slot's 4 MiB. -/
def fwData (r : Request) (s : State) : State :=
  if !fwMode s then refuse r 0x30 0 s
  else
    match s.firmware.upload with
    | none => refuse r 0x20 0 s
    | some u =>
      if 4194304 < u.bytes.length + r.payload.length then refuse r 0x22 0 s
      else answerWork r u.journal 1 0 (journalStep u.journal (onFw (fun f => { f with upload := some { u with bytes := u.bytes ++ r.payload } }) s))

/-- FW_DATA. -/
def execFwData (s : State) : Host.Outcome State Fault Refusal := .next (runCommand 0x0B01 fwData s)

/-- FW_END (R99): the image verifies, its security version suffices and, without FORCE, it reads the ACTIVE bank's format. [DEDUCED, notes/assumptions/65] -/
def fwEnd (r : Request) (s : State) : State :=
  if !fwMode s then refuse r 0x30 0 s
  else
    match s.firmware.upload with
    | none => refuse r 0x20 0 s
    | some u =>
      withJournal r 1 (fun n s =>
        let x := trialSlot u.bytes
        let fmt := s.banks.active.format
        let reads := decide (x.formatLo ≤ fmt) && decide (fmt ≤ x.formatHi)
        if !x.verifies || x.security < s.firmware.secverMin || (!reads && !hasBit r.flags 4) then
          refuse r 0x20 0 (journalEnd n .rolledBack 0x20 0 (fwDrop .rolledBack 0x20 s))
        else answerWork r n 1 0 (journalEnd n .done 0 0 (journalStep n
          (fwDrop .done 0 (onFw (fun f => { f with slots := f.slots.set (otherSlot f.running) x }) s)))) ) s

/-- FW_END. -/
def execFwEnd (s : State) : Host.Outcome State Fault Refusal := .next (runCommand 0x0B02 fwEnd s)

/-- FW_ACTIVATE (R99, R102): the new slot becomes preferred in state TRIAL, and a device reset follows the answer by 10 ms. -/
def fwActivate (r : Request) (s : State) : State :=
  let i := otherSlot s.firmware.running
  if !fwMode s then refuse r 0x30 0 s
  else if !(slotOf s i).verifies then refuse r 0x20 0 s
  else
    withJournal r 1 (fun n s =>
      let s := onFw (fun f => { f with
        preferred := i, trialBoots := 0, slots := f.slots.set i { (f.slots.get i) with confirmed := false, failed := false } }) s
      let s := answerWork r n 1 0 (journalEnd n .done 0 0 (journalStep n s))
      recordReset 0x08 { s with scribe := { s.scribe with delayedReset := some 2 } }) s

/-- FW_ACTIVATE. -/
def execFwActivate (s : State) : Host.Outcome State Fault Refusal := .next (runCommand 0x0B03 fwActivate s)

/-- FW_CONFIRM (R99): the running slot is CONFIRMED, and the least security version rises to its own. -/
def fwConfirm (r : Request) (s : State) : State :=
  if !fwMode s then refuse r 0x30 0 s
  else
    withJournal r 1 (fun n s =>
      let i := s.firmware.running
      let s := onFw (fun f => { f with
        slots := f.slots.set i { (f.slots.get i) with confirmed := true }, confirmFrom := none,
        secverMin := max f.secverMin (f.slots.get i).security }) s
      answerWork r n 1 0 (journalEnd n .done 0 0 (journalStep n s))) s

/-- FW_CONFIRM. -/
def execFwConfirm (s : State) : Host.Outcome State Fault Refusal := .next (runCommand 0x0B04 fwConfirm s)

/-- FW_CONFIRM_TIMEOUT (R99, R102): without FW_CONFIRM in time, the slot is marked failed and the device resets. -/
def fwConfirmTimeout (s : State) : State :=
  match s.firmware.confirmFrom with
  | none => s
  | some t =>
    if s.ticks < t + secTicks (paramNat s Pid.fwConfirmTimeoutS 0) then s
    else
      let i := s.firmware.running
      deviceReset true (recordReset 0x10 (onFw (fun f => { f with
        slots := f.slots.set i { (f.slots.get i) with failed := true } }) s))

/-- FW_CONFIRM_TIMEOUT. -/
def execFwConfirmTimeout (s : State) : Host.Outcome State Fault Refusal := .next (fwConfirmTimeout s)

end Sys2Proof.Machine
end

