-- ==== Sys2Proof/WellFormed.lean ====
section
/-! DEFINITION. Which commands are well formed: only Serif instructions have operands whose values R257 and R259 restrict
beyond their types. -/

namespace Sys2Proof

/-- Operand values that a checked program can hold (R257, R259). -/
def Instr.wellFormed (i : Instr) : Bool :=
  match i with
  | .powerOn _ _ => true
  | .powerOff => true
  | .resetNFall => true
  | .pwrgdFall => true
  | .resetRelease => true
  | .strapSample _ => true
  | .railUndervoltage _ => true
  | .railRestored _ => true
  | .feedLost _ _ _ => true
  | .feedRestored _ => true
  | .feedLossAction => true
  | .refPresent _ _ => true
  | .refAbsent _ => true
  | .ocxoWarmChange _ => true
  | .refSwitch => true
  | .xtalFail => true
  | .corePllUnlock => true
  | .corePllRelock => true
  | .corePllTimeout => true
  | .ctrlPllUnlock => true
  | .dramPllUnlock _ => true
  | .pciePllUnlock => true
  | .thermalLimit _ => true
  | .bootRomStart => true
  | .bootSramClearDone _ => true
  | .bootComplete => true
  | .autoRun => true
  | .recoveryImage _ => true
  | .scribeWatchdog => true
  | .scribeRestartDone _ => true
  | .fwConfirmTimeout => true
  | .cfgConfirmTimeout => true
  | .autoRevert => true
  | .commitRecordProgrammed => true
  | .commitSwitch _ => true
  | .modeTransitionDone => true
  | .surveyPortDone _ _ => true
  | .slotFireTime _ _ _ => true
  | .launchWindowEnd _ => true
  | .lightWithoutGate _ => true
  | .inputOverRange _ _ => true
  | .ovrGuardEnd _ _ => true
  | .adcCorrEstimate _ _ _ => true
  | .pointUnwrap _ => true
  | .sliceComplete _ => true
  | .sliceDeadline _ => true
  | .laneBudgetEnd _ => true
  | .dtsTraceComplete _ _ => true
  | .rtdDue _ => true
  | .rtdMeasurementEnd _ _ => true
  | .rtdPulseTimeout _ => true
  | .hkScan _ => true
  | .hkPulseEvent _ _ _ => true
  | .trgArmNChange _ => true
  | .remoteFireEdge => true
  | .firePulseEnd => true
  | .recordClose _ => true
  | .replayRoundDone _ _ => true
  | .sramEccError _ => true
  | .sramScrubRewrite _ _ => true
  | .dramEccError _ => true
  | .pageRetire _ _ => true
  | .dramTrainingDone _ _ => true
  | .dramRetrainCheck _ _ _ => true
  | .rowHammer _ _ => true
  | .hammerWindow => true
  | .hammerThrottleEnd _ => true
  | .dramRefresh _ _ => true
  | .memLate _ _ => true
  | .analogueTrimDone _ _ => true
  | .tdcDelayRun _ => true
  | .tdcDelayDone _ => true
  | .plausibilityWatch _ _ _ => true
  | .telemetryRecord => true
  | .counterExtend => true
  | .logProgram => true
  | .heartbeatToggle => true
  | .unitIdSample _ => true
  | .xovf _ => true
  | .serifSelftest _ => true
  | .lkeyOff => true
  | .lkeyOn => true
  | .loopOkLow => true
  | .loopOkHigh => true
  | .plugOpenLatch _ => true
  | .plugDebouncedOpen _ => true
  | .plugDebouncedClose _ => true
  | .aprRestartExpiry _ => true
  | .panelInputChatter _ => true
  | .inputStuck _ => true
  | .servicePress => true
  | .locatePress => true
  | .locateEnd => true
  | .ledDiagnosis _ _ => true
  | .colourFeedback _ _ => true
  | .barkSend => true
  | .barkReceived _ => true
  | .hbPathSilent => true
  | .barkPathSilent => true
  | .pairPathRestored _ => true
  | .peerFailed => true
  | .peerPresentChange _ => true
  | .segorLinkUp _ _ => true
  | .segorLinkDown => true
  | .segorFrameReceived _ _ => true
  | .leashOwnTest _ _ => true
  | .ownClear _ => true
  | .ilkNReleased => true
  | .vacantTimeout => true
  | .takeWaitEnd => true
  | .handoverTimeout => true
  | .copyEpochEnd => true
  | .copyReceived _ => true
  | .finalCopySend => true
  | .copyAckReceived _ => true
  | .copyAckTimeout => true
  | .healthFrameSend => true
  | .bankReplica _ => true
  | .ptpMessageRx _ => true
  | .ptpMessageTx _ => true
  | .syncTimeout _ => true
  | .servoTimeout _ => true
  | .axisSlewDone => true
  | .axisStep => true
  | .syncInEdge => true
  | .syncLoss _ => true
  | .toutPulse _ => true
  | .tdcEdge _ _ => true
  | .tdcTimeout => true
  | .pePerstNAssert => true
  | .pcieHotReset => true
  | .pcieFlr => true
  | .pcieLinkChange _ _ _ => true
  | .pcieL1Wake => true
  | .ethLink _ _ => true
  | .ethFrameRx _ _ => true
  | .queueItemDeliver _ _ => true
  | .queueIrq _ => true
  | .descriptorReadDone _ _ => true
  | .doorbellWrite _ _ => true
  | .messageTaken _ => true
  | .throttleEnd _ => true
  | .sessionTimeout => true
  | .rspAckWrite _ => true
  | .responsePlaced _ => true
  | .evqTailWrite _ _ => true
  | .estopStop _ => true
  | .snapshotLowRead _ _ => true
  | .snapshotHighRead _ _ => true
  | .queueTailWrite _ _ => true
  | .dmaQueueEnable _ => true
  | .dmaQueueDisable _ => true
  | .registerWrite _ _ _ => true
  | .spiTransaction _ => true
  | .smbReadId _ => true
  | .smbReadSerial _ => true
  | .smbReadFwVersion _ => true
  | .smbReadHostStatus _ => true
  | .smbReadHealth _ => true
  | .smbReadTemp _ => true
  | .smbReadFeedStatus _ => true
  | .smbReadSafetyStatus _ => true
  | .smbReadTimeSnap _ => true
  | .smbReadEstop _ => true
  | .smbWriteEstop _ _ => true
  | .jtagBypass => true
  | .jtagIdcode => true
  | .jtagSamplePreload _ => true
  | .jtagExtest => true
  | .jtagTrst => true
  | .hello => true
  | .ping => true
  | .bye => true
  | .eventSubscribe => true
  | .paramGet => true
  | .paramSet => true
  | .paramGetBlock => true
  | .stage => true
  | .commit => true
  | .confirm => true
  | .revert => true
  | .bankDiff => true
  | .pendingDiscard => true
  | .modeRequest => true
  | .deviceReset => true
  | .zoneDefine => true
  | .zoneDelete => true
  | .zoneQuery => true
  | .seqLoad => true
  | .arm => true
  | .disarm => true
  | .eventRead => true
  | .replayStart => true
  | .replayCancel => true
  | .replayStatus => true
  | .surveyRead => true
  | .calRun => true
  | .calPoint => true
  | .calRead => true
  | .pairHandover => true
  | .pairQuery => true
  | .peerRelay => true
  | .journalRead => true
  | .logRead => true
  | .fwBegin => true
  | .fwData => true
  | .fwEnd => true
  | .fwActivate => true
  | .fwConfirm => true
  | .progLoad => true
  | .progDelete => true
  | .progList => true
  | .timeDomainWrite _ _ _ => true
  | .servoStateWrite _ _ => true
  | .timeSelectWrite _ _ => true
  | .tdcArmWrite _ => true
  | .toutConfigWrite _ _ _ => true
  | .dasGainWrite _ _ => true
  | .rateMtsWrite _ _ => true
  | .estopReleaseWrite _ => true
  | .portRestartWrite _ => true
  | .hostEnableWrite _ => true
  | .locateMaskWrite _ => true
  | .masterArmWrite _ => true
  | .ptrFlagsWrite _ => true
  | .udpTransportWrite _ _ => true
  | .nop _ => true
  | .endInsn _ => true
  | .rep _ _ => true
  | .loopi _ _ n => n != 0
  | .loopp _ _ => true
  | .dbnz _ _ off => decide (off.toInt < 0)
  | .ldi _ _ _ => true
  | .ldih _ _ _ => true
  | .mov _ _ _ => true
  | .movs _ _ _ => true
  | .seta _ _ _ => true
  | .setai _ _ _ => true
  | .geta _ _ _ => true
  | .getf _ _ => true
  | .add _ _ _ _ => true
  | .sub _ _ _ _ => true
  | .addw _ _ _ _ => true
  | .subw _ _ _ _ => true
  | .and _ _ _ _ => true
  | .or _ _ _ _ => true
  | .xor _ _ _ _ => true
  | .min _ _ _ _ => true
  | .max _ _ _ _ => true
  | .abs _ _ _ => true
  | .neg _ _ _ => true
  | .shli _ _ _ n => decide (n.toNat ≤ 23)
  | .shrai _ _ _ n => decide (n.toNat ≤ 23)
  | .shrli _ _ _ n => decide (n.toNat ≤ 23)
  | .shrri _ _ _ n => decide (n.toNat ≤ 23)
  | .shv _ _ _ _ => true
  | .cmp _ _ _ => true
  | .sel _ _ _ _ _ => true
  | .qor _ _ => true
  | .qget _ _ => true
  | .exp _ _ _ => true
  | .bxp _ _ => true
  | .bxg _ _ => true
  | .ld _ _ _ _ size _ => size != 0
  | .st _ _ _ _ size => size != 0
  | .ldpt _ d _ _ => d.val % 2 == 0
  | .inInsn _ d => d.val % 2 == 0
  | .out _ _ size => size != 0
  | .feat _ _ _ _ mode => mode != 3
  | .clr _ _ => true
  | .mac _ _ _ _ => true
  | .msu _ _ _ _ => true
  | .mac2 _ _ _ _ _ _ => true
  | .macld _ _ _ _ _ _ _ _ => true
  | .ext _ _ _ sh => decide (sh.toNat ≤ 48)
  | .lda _ _ _ _ => true
  | .adda _ _ _ => true
  | .log2 _ _ _ => true
  | .launchSeen _ => true
  | .blankInputChange _ _ => true
  | .pairWatchdogExpiry => true
  | .ilkNHeld => true
  | .delayedReset => true
  | .buttonStableRelease _ => true

end Sys2Proof
end

