-- ==== Sys2Proof/Decode.lean ====
section
/-! DEFINITION. The words of Serif programs (R257): encoder, and decoder with rejection of reserved opcodes, reserved bits and
operand values no checked program holds. The table's rows give a command no bits, so no word spells a command. -/

namespace Sys2Proof

/-- The command that a word spells by the opcode table's bits: the table gives its rows none. [DESIGN CHOICE, notes/assumptions/1] -/
def decodeTableWord (_nbits _w : Nat) : Option Instr := none

/-- Two-valued field of a word at bit `p`. -/
def fin2 (w p : Nat) : Fin 2 := ⟨w / 2 ^ p % 2, Nat.mod_lt _ (by decide)⟩
/-- Four-valued field. -/
def fin4 (w p : Nat) : Fin 4 := ⟨w / 2 ^ p % 4, Nat.mod_lt _ (by decide)⟩
/-- Eight-valued field. -/
def fin8 (w p : Nat) : Fin 8 := ⟨w / 2 ^ p % 8, Nat.mod_lt _ (by decide)⟩
/-- Sixteen-valued field. -/
def fin16 (w p : Nat) : Fin 16 := ⟨w / 2 ^ p % 16, Nat.mod_lt _ (by decide)⟩

/-- An opcode in bits [31:26] with fields at their bit positions. -/
def packWord (op : Nat) (fields : List (Nat × Nat)) : Nat := op * 2 ^ 26 + (fields.map fun f => f.1 * 2 ^ f.2).sum


/-- The word of a Serif instruction (R257); bits no field names are 0. None for the other commands. -/
def serifWord (i : Instr) : Option Nat :=
  match i with
  | .nop _ => some (packWord 0x00 [])
  | .endInsn _ => some (packWord 0x01 [])
  | .rep _ nMinus1 => some (packWord 0x02 [(nMinus1.toNat, 0)])
  | .loopi _ c n => some (packWord 0x03 [(c.val, 24), (n.toNat, 0)])
  | .loopp _ c => some (packWord 0x04 [(c.val, 24)])
  | .dbnz _ c off => some (packWord 0x05 [(c.val, 24), (off.toNat, 0)])
  | .ldi _ d v => some (packWord 0x08 [(d.val, 22), (v.toNat, 0)])
  | .ldih _ d v => some (packWord 0x09 [(d.val, 22), (v.toNat, 0)])
  | .mov _ d a => some (packWord 0x0A [(d.val, 22), (a.val, 18)])
  | .movs _ d n => some (packWord 0x0B [(d.val, 22), (n.val, 0)])
  | .seta _ t a => some (packWord 0x0C [(t.val, 22), (a.val, 18)])
  | .setai _ t v => some (packWord 0x0D [(t.val, 22), (v.toNat, 0)])
  | .geta _ d t => some (packWord 0x0E [(d.val, 22), (t.val, 18)])
  | .getf _ d => some (packWord 0x0F [(d.val, 22)])
  | .add _ d a b => some (packWord 0x10 [(d.val, 22), (a.val, 18), (b.val, 14)])
  | .sub _ d a b => some (packWord 0x11 [(d.val, 22), (a.val, 18), (b.val, 14)])
  | .addw _ d a b => some (packWord 0x12 [(d.val, 22), (a.val, 18), (b.val, 14)])
  | .subw _ d a b => some (packWord 0x13 [(d.val, 22), (a.val, 18), (b.val, 14)])
  | .and _ d a b => some (packWord 0x14 [(d.val, 22), (a.val, 18), (b.val, 14)])
  | .or _ d a b => some (packWord 0x15 [(d.val, 22), (a.val, 18), (b.val, 14)])
  | .xor _ d a b => some (packWord 0x16 [(d.val, 22), (a.val, 18), (b.val, 14)])
  | .min _ d a b => some (packWord 0x17 [(d.val, 22), (a.val, 18), (b.val, 14)])
  | .max _ d a b => some (packWord 0x18 [(d.val, 22), (a.val, 18), (b.val, 14)])
  | .abs _ d a => some (packWord 0x19 [(d.val, 22), (a.val, 18)])
  | .neg _ d a => some (packWord 0x1A [(d.val, 22), (a.val, 18)])
  | .shli _ d a n => some (packWord 0x1B [(d.val, 22), (a.val, 18), (n.toNat, 9)])
  | .shrai _ d a n => some (packWord 0x1C [(d.val, 22), (a.val, 18), (n.toNat, 9)])
  | .shrli _ d a n => some (packWord 0x1D [(d.val, 22), (a.val, 18), (n.toNat, 9)])
  | .shrri _ d a n => some (packWord 0x1E [(d.val, 22), (a.val, 18), (n.toNat, 9)])
  | .shv _ d a b => some (packWord 0x1F [(d.val, 22), (a.val, 18), (b.val, 14)])
  | .cmp _ a b => some (packWord 0x20 [(a.val, 18), (b.val, 14)])
  | .sel _ d a b cond => some (packWord 0x21 [(d.val, 22), (a.val, 18), (b.val, 14), (cond.val, 12)])
  | .qor _ a => some (packWord 0x22 [(a.val, 18)])
  | .qget _ d => some (packWord 0x23 [(d.val, 22)])
  | .exp _ d a => some (packWord 0x24 [(d.val, 22), (a.val, 18)])
  | .bxp _ a => some (packWord 0x25 [(a.val, 18)])
  | .bxg _ d => some (packWord 0x26 [(d.val, 22)])
  | .ld _ d p o size sign => some (packWord 0x28 [(d.val, 22), (p.val, 19), (o.val, 16), (size.toNat, 14), (sign.toNat, 13)])
  | .st _ a p o size => some (packWord 0x29 [(a.val, 22), (p.val, 19), (o.val, 16), (size.toNat, 14)])
  | .ldpt _ d p o => some (packWord 0x2A [(d.val, 22), (p.val, 19), (o.val, 16)])
  | .inInsn _ d => some (packWord 0x2B [(d.val, 22)])
  | .out _ a size => some (packWord 0x2C [(a.val, 22), (size.toNat, 14)])
  | .feat _ k a b mode => some (packWord 0x2D [(k.val, 11), (a.val, 22), (b.val, 18), (mode.toNat, 9)])
  | .clr _ j => some (packWord 0x30 [(j.val, 24)])
  | .mac _ j a b => some (packWord 0x31 [(j.val, 24), (a.val, 18), (b.val, 14)])
  | .msu _ j a b => some (packWord 0x32 [(j.val, 24), (a.val, 18), (b.val, 14)])
  | .mac2 _ pr a b a2 b2 => some (packWord 0x33 [(pr.val, 25), (a.val, 18), (b.val, 14), (a2.val, 10), (b2.val, 6)])
  | .macld _ j a b p o p2 o2 => some (packWord 0x34 [(j.val, 24), (a.val, 20), (b.val, 16), (p.val, 13), (o.val, 10), (p2.val, 7), (o2.val, 4)])
  | .ext _ d j sh => some (packWord 0x35 [(d.val, 22), (j.val, 20), (sh.toNat, 14)])
  | .lda _ j a sh => some (packWord 0x36 [(j.val, 24), (a.val, 18), (sh.toNat, 13)])
  | .adda _ j j2 => some (packWord 0x37 [(j.val, 24), (j2.val, 22)])
  | .log2 _ d j => some (packWord 0x38 [(d.val, 22), (j.val, 20)])
  | _ => none

/-- The lane that a Serif instruction runs on. None for the other commands. -/
def serifLane (i : Instr) : Option (Fin 128) :=
  match i with
  | .nop l => some l
  | .endInsn l => some l
  | .rep l _ => some l
  | .loopi l _ _ => some l
  | .loopp l _ => some l
  | .dbnz l _ _ => some l
  | .ldi l _ _ => some l
  | .ldih l _ _ => some l
  | .mov l _ _ => some l
  | .movs l _ _ => some l
  | .seta l _ _ => some l
  | .setai l _ _ => some l
  | .geta l _ _ => some l
  | .getf l _ => some l
  | .add l _ _ _ => some l
  | .sub l _ _ _ => some l
  | .addw l _ _ _ => some l
  | .subw l _ _ _ => some l
  | .and l _ _ _ => some l
  | .or l _ _ _ => some l
  | .xor l _ _ _ => some l
  | .min l _ _ _ => some l
  | .max l _ _ _ => some l
  | .abs l _ _ => some l
  | .neg l _ _ => some l
  | .shli l _ _ _ => some l
  | .shrai l _ _ _ => some l
  | .shrli l _ _ _ => some l
  | .shrri l _ _ _ => some l
  | .shv l _ _ _ => some l
  | .cmp l _ _ => some l
  | .sel l _ _ _ _ => some l
  | .qor l _ => some l
  | .qget l _ => some l
  | .exp l _ _ => some l
  | .bxp l _ => some l
  | .bxg l _ => some l
  | .ld l _ _ _ _ _ => some l
  | .st l _ _ _ _ => some l
  | .ldpt l _ _ _ => some l
  | .inInsn l _ => some l
  | .out l _ _ => some l
  | .feat l _ _ _ _ => some l
  | .clr l _ => some l
  | .mac l _ _ _ => some l
  | .msu l _ _ _ => some l
  | .mac2 l _ _ _ _ _ => some l
  | .macld l _ _ _ _ _ _ _ => some l
  | .ext l _ _ _ => some l
  | .lda l _ _ _ => some l
  | .adda l _ _ => some l
  | .log2 l _ _ => some l
  | _ => none

/-- The instruction that opcode and fields of a word name on lane `l` (R257), whatever its other bits. -/
def serifShape (l : Fin 128) (w : Nat) : Option Instr :=
  match w / 2 ^ 26 with
  | 0x00 => some (.nop l)
  | 0x01 => some (.endInsn l)
  | 0x02 => some (.rep l (BitVec.ofNat 12 (w / 2 ^ 0)))
  | 0x03 => some (.loopi l (fin4 w 24) (BitVec.ofNat 16 (w / 2 ^ 0)))
  | 0x04 => some (.loopp l (fin4 w 24))
  | 0x05 => some (.dbnz l (fin4 w 24) (BitVec.ofNat 16 (w / 2 ^ 0)))
  | 0x08 => some (.ldi l (fin16 w 22) (BitVec.ofNat 16 (w / 2 ^ 0)))
  | 0x09 => some (.ldih l (fin16 w 22) (BitVec.ofNat 8 (w / 2 ^ 0)))
  | 0x0A => some (.mov l (fin16 w 22) (fin16 w 18))
  | 0x0B => some (.movs l (fin16 w 22) (fin16 w 0))
  | 0x0C => some (.seta l (fin16 w 22) (fin16 w 18))
  | 0x0D => some (.setai l (fin16 w 22) (BitVec.ofNat 14 (w / 2 ^ 0)))
  | 0x0E => some (.geta l (fin16 w 22) (fin16 w 18))
  | 0x0F => some (.getf l (fin16 w 22))
  | 0x10 => some (.add l (fin16 w 22) (fin16 w 18) (fin16 w 14))
  | 0x11 => some (.sub l (fin16 w 22) (fin16 w 18) (fin16 w 14))
  | 0x12 => some (.addw l (fin16 w 22) (fin16 w 18) (fin16 w 14))
  | 0x13 => some (.subw l (fin16 w 22) (fin16 w 18) (fin16 w 14))
  | 0x14 => some (.and l (fin16 w 22) (fin16 w 18) (fin16 w 14))
  | 0x15 => some (.or l (fin16 w 22) (fin16 w 18) (fin16 w 14))
  | 0x16 => some (.xor l (fin16 w 22) (fin16 w 18) (fin16 w 14))
  | 0x17 => some (.min l (fin16 w 22) (fin16 w 18) (fin16 w 14))
  | 0x18 => some (.max l (fin16 w 22) (fin16 w 18) (fin16 w 14))
  | 0x19 => some (.abs l (fin16 w 22) (fin16 w 18))
  | 0x1A => some (.neg l (fin16 w 22) (fin16 w 18))
  | 0x1B => some (.shli l (fin16 w 22) (fin16 w 18) (BitVec.ofNat 5 (w / 2 ^ 9)))
  | 0x1C => some (.shrai l (fin16 w 22) (fin16 w 18) (BitVec.ofNat 5 (w / 2 ^ 9)))
  | 0x1D => some (.shrli l (fin16 w 22) (fin16 w 18) (BitVec.ofNat 5 (w / 2 ^ 9)))
  | 0x1E => some (.shrri l (fin16 w 22) (fin16 w 18) (BitVec.ofNat 5 (w / 2 ^ 9)))
  | 0x1F => some (.shv l (fin16 w 22) (fin16 w 18) (fin16 w 14))
  | 0x20 => some (.cmp l (fin16 w 18) (fin16 w 14))
  | 0x21 => some (.sel l (fin16 w 22) (fin16 w 18) (fin16 w 14) (fin4 w 12))
  | 0x22 => some (.qor l (fin16 w 18))
  | 0x23 => some (.qget l (fin16 w 22))
  | 0x24 => some (.exp l (fin16 w 22) (fin16 w 18))
  | 0x25 => some (.bxp l (fin16 w 18))
  | 0x26 => some (.bxg l (fin16 w 22))
  | 0x28 => some (.ld l (fin16 w 22) (fin8 w 19) (fin8 w 16) (BitVec.ofNat 2 (w / 2 ^ 14)) (w / 2 ^ 13 % 2 == 1))
  | 0x29 => some (.st l (fin16 w 22) (fin8 w 19) (fin8 w 16) (BitVec.ofNat 2 (w / 2 ^ 14)))
  | 0x2A => some (.ldpt l (fin16 w 22) (fin8 w 19) (fin8 w 16))
  | 0x2B => some (.inInsn l (fin16 w 22))
  | 0x2C => some (.out l (fin16 w 22) (BitVec.ofNat 2 (w / 2 ^ 14)))
  | 0x2D => some (.feat l (fin8 w 11) (fin16 w 22) (fin16 w 18) (BitVec.ofNat 2 (w / 2 ^ 9)))
  | 0x30 => some (.clr l (fin4 w 24))
  | 0x31 => some (.mac l (fin4 w 24) (fin16 w 18) (fin16 w 14))
  | 0x32 => some (.msu l (fin4 w 24) (fin16 w 18) (fin16 w 14))
  | 0x33 => some (.mac2 l (fin2 w 25) (fin16 w 18) (fin16 w 14) (fin16 w 10) (fin16 w 6))
  | 0x34 => some (.macld l (fin4 w 24) (fin16 w 20) (fin16 w 16) (fin8 w 13) (fin8 w 10) (fin8 w 7) (fin8 w 4))
  | 0x35 => some (.ext l (fin16 w 22) (fin4 w 20) (BitVec.ofNat 6 (w / 2 ^ 14)))
  | 0x36 => some (.lda l (fin4 w 24) (fin16 w 18) (BitVec.ofNat 5 (w / 2 ^ 13)))
  | 0x37 => some (.adda l (fin4 w 24) (fin4 w 22))
  | 0x38 => some (.log2 l (fin16 w 22) (fin4 w 20))
  | _ => none

/-- Decode a program word for lane `l` (R257, R263 check 3): reserved opcodes, nonzero reserved bits and ill-formed operands
are rejected. -/
def decodeSerif (l : Fin 128) (w : Nat) : Option Instr :=
  (serifShape l w).filter fun i => i.wellFormed && serifWord i == some w

end Sys2Proof
end

