-- ==== Sys2Proof/Machine/Commit.lean ====
section
/-! DEFINITION. Configuration banks as commands: COMMIT with its checks (R82, R92, R153, R215, R281, R314, R412, R507), CONFIRM,
REVERT and the automatic revert (R93 to R96), BANK_DIFF and PENDING_DISCARD (R134). -/

namespace Sys2Proof.Machine

/-! ## Step 1: validation -/

/-- A check of step 1: does it hold, and the identifier and index it names when it fails. [DESIGN CHOICE, notes/assumptions/18] -/
abbrev Check := Bool × Nat × Nat

/-- The parameter named by the first check that fails. [DESIGN CHOICE, notes/assumptions/18] -/
def firstFailing (cs : List Check) : Option (Nat × Nat) := (cs.find? fun c => !c.1).map (·.2)

/-- Does glyph `g` lie inside glyph memory, with its reserved bits 0 (R148, R149)? -/
def glyphOk (b : Bank) (p g : Nat) : Bool :=
  let base := bankPort b p Pid.portGlyphBase g
  let n := glyphWords b p g
  decide (base + n ≤ 32768) &&
  (bankPort b p Pid.portGlyphFormat g != 1 || (List.range n).all fun i => decide (glyphWord b p (base + i) < 4096))

/-- Glyphs that the slots of port `p` use. -/
def slotGlyphs (b : Bank) (p n : Nat) : List Nat := (List.range n).map fun k => bankPort b p Pid.portSlotGlyph k

/-- R153 for a port that runs `n` slots in `period` cells with the glyphs `gs`. -/
def portChecks (b : Bank) (p n period : Nat) (gs : List Nat) : List Check :=
  let trace := bankPort b p Pid.portTraceCells 0
  let longest := (gs.map fun g => bankPort b p Pid.portGlyphSamples g).foldl Nat.max 0
  [(trace % n == 0, portId p Pid.portTraceCells, 0), (period % n == 0, Pid.gridPeriodCells, p),
   (decide (trace + longest ≤ period), Pid.gridPeriodCells, p), (decide (n * 4000 ≤ period), Pid.gridPeriodCells, p)] ++
  gs.map fun g => (glyphOk b p g, portId p Pid.portGlyphBase, g)

/-- R153 and the offset of R412 for an enabled port. -/
def runChecks (b : Bank) (p : Nat) : List Check :=
  let r := portRun b false p
  portChecks b p r.slots r.period (slotGlyphs b p r.slots) ++
  [(decide ((bankRead b Pid.gridOffsetCells p).toNat < r.period), Pid.gridOffsetCells, p)]

/-- DTS cells of a port (R274). -/
def bankDtsCells (b : Bank) (p : Nat) : Nat := bankPort b p Pid.portTraceCells 0 / 4

/-- The dark condition of R281 in a period. -/
def darkFits (b : Bank) (p period : Nat) : Bool :=
  decide (4 * bankDtsCells b p + (bankRead b Pid.ramanDarkCells p).toNat ≤ period)

/-- Is port `p` enabled in a bank? -/
def portOn (b : Bank) (p : Nat) : Bool := bankPort b p Pid.portEnable 0 != 0

/-- R82: the sentinel port in SENTINEL. -/
def sentinelChecks (b : Bank) : List Check :=
  let p := (bankRead b Pid.modeSentinelPort 0).toNat
  let ok := (portChecks b p 1 (sentinelPeriod b) (slotGlyphs b p 1)).all (·.1)
  let dark := bankRead b Pid.ramanEnable p == 0 || darkFits b p (sentinelPeriod b)
  if portOn b p then [(ok && dark, Pid.modeSentinelPeriodCells, 0)] else []

/-- R215 and R250 for an enabled zone. -/
def zoneChecks (b : Bank) (lib : Store Program) (z : Nat) : List Check :=
  let p := zonePort z
  let r := portRun b false p
  let recipe := zoneNat b Pid.zoneRecipe z
  let m := if recipe = 5 then 4 else r.slots
  let first := zoneNat b Pid.zoneFirstCell z
  let last := zoneNat b Pid.zoneLastCell z
  let pitch := zoneNat b Pid.zonePitchCells z
  let gauge := zoneNat b Pid.zoneGaugeCells z
  let trace := bankPort b p Pid.portTraceCells 0
  let pairs := usesGauge b lib z
  let div := zoneNat b Pid.zoneRateDiv z
  let bandOk (k : Nat) : Bool :=
    let lo := zoneNat b Pid.zoneBandLoHz (idx2 z k)
    let hi := zoneNat b Pid.zoneBandHiHz (idx2 z k)
    decide (lo < hi) && decide (hi * 2 * 5 * r.period * div ≤ 2 * r.slots * 1000000000)
  let programOk : Bool :=
    match programOf lib (zoneNat b Pid.zoneProgram z) with
    | some g => decide (96 + g.k ≤ laneCycles r)
    | none => false
  [(portOn b p, Pid.zoneEnable, z), (first % m == 0, Pid.zoneFirstCell, z), (pitch % m == 0, Pid.zonePitchCells, z),
   (decide (first ≤ last) && (last - first) % pitch == 0 && decide (zonePoints b z ≤ 16384), Pid.zoneLastCell, z)] ++
  (if pairs then
    [(gauge % r.slots == 0 && decide (last + gauge < trace), Pid.zoneGaugeCells, z),
     (zoneNat b Pid.zoneRing z == 0 || gauge % pitch == 0, Pid.zoneGaugeCells, z)]
   else if recipe = 5 then [(decide (last / 4 < bankDtsCells b p), Pid.zoneLastCell, z)]
   else [(decide (last < trace), Pid.zoneLastCell, z)]) ++
  (if recipe = 2 then (List.range (zoneNat b Pid.zoneBandCount z)).map fun k => (bandOk k, Pid.zoneBandHiHz, idx2 z k) else []) ++
  (if recipe = 6 then [(programOk, Pid.zoneProgram, z)] else [])

/-- Zones that the bank enables. -/
def zonesOn (b : Bank) : List Nat := (List.range 1024).filter fun z => bankRead b Pid.zoneEnable z != 0

/-- R281 for port `p`. -/
def ramanChecks (b : Bank) (p : Nat) : List Check :=
  let on := bankRead b Pid.ramanEnable p != 0
  let thermal := (zonesOn b).filter fun z => zonePort z == p && zoneNat b Pid.zoneRecipe z == 5
  let first := (bankRead b Pid.ramanRefFirst p).toNat
  let len := 2 ^ (bankRead b Pid.ramanRefCellsLog2 p).toNat
  (if on then
    [(portOn b p, Pid.ramanEnable, p), (darkFits b p (portRun b false p).period, Pid.ramanDarkCells, p),
     (decide (first + len ≤ bankDtsCells b p), Pid.ramanRefFirst, p),
     (bankRead b Pid.rtdEnable (bankRead b Pid.ramanRefRtd p).toNat != 0, Pid.ramanRefRtd, p)]
   else []) ++
  thermal.map (fun z => (on, Pid.zoneRecipe, z)) ++
  match thermal.getLast? with
  | some z => [(decide (((thermal.map (zonePoints b)).sum) ≤ 16384), Pid.zoneLastCell, z)]
  | none => []

/-- Features that a zone's recipe has (R217). -/
def featureCount (b : Bank) (lib : Store Program) (z : Nat) : Nat :=
  match zoneNat b Pid.zoneRecipe z with
  | 0 => 1
  | 1 | 3 | 4 => 2
  | 2 => zoneNat b Pid.zoneBandCount z
  | 5 => 3
  | _ => ((programOf lib (zoneNat b Pid.zoneProgram z)).map (·.featCount)).getD 0

/-- A term's zone under R314; term B under join 0 is ignored. -/
def termOk (b : Bank) (lib : Store Program) (t : List Byte) : Bool :=
  let z := field t 4 2
  let on := decide (z < 1024) && bankRead b Pid.zoneEnable z != 0
  match field t 0 1 with
  | 2 => on && bankRead b Pid.zoneFeatures z != 0 && decide (field t 2 1 < featureCount b lib z)
  | 3 => on
  | _ => true

/-- One valid condition under R314. -/
def condOk (b : Bank) (lib : Store Program) (c : Condition) : Bool :=
  !condValid c || (termOk b lib (slice c 8 12) && (field c 1 1 == 0 || termOk b lib (slice c 20 12)))

/-- R314 for sequencer `q`: the home port is named with the initial state. -/
def seqChecks (b : Bank) (lib : Store Program) (q : Nat) : List Check :=
  let home := (bankRead b Pid.seqPort q).toNat
  let init := (bankRead b Pid.seqInitialState q).toNat
  if !seqDefined b q then []
  else (portOn b home, Pid.seqState, idx2 q init) ::
    (List.range 16).map fun k =>
      ((List.range 4).all fun j => condOk b lib (condOf (seqState b q k) j), Pid.seqState, idx2 q k)

/-- The roles of R507: a locator is no indicator, and a status colour has a channel of its own. -/
def lampChecks (b : Bank) : List Check :=
  let ind := bankRead b Pid.safetyIndicatorLed 0
  let loc (p : Nat) : Int := bankRead b Pid.safetyLocatorLed p
  let status (c : Nat) : Int := bankRead b Pid.panelStatusLed c
  let free (c : Nat) : Bool :=
    status c != ind && allPorts.all (fun p => status c != loc p) && [0, 1, 2].all fun d => d == c || status c != status d
  allPorts.map (fun p => (loc p != ind, Pid.safetyLocatorLed, p)) ++
  [0, 1, 2].map fun c => (free c, Pid.panelStatusLed, c)

/-- Step 1 of R92: the parameter named by the first check that fails. [DESIGN CHOICE, notes/assumptions/18] -/
def validate (b : Bank) (lib : Store Program) : Option (Nat × Nat) :=
  firstFailing (((allPorts.filter (portOn b)).flatMap (runChecks b)) ++ sentinelChecks b ++ (zonesOn b).flatMap (zoneChecks b lib) ++
    allPorts.flatMap (ramanChecks b) ++ (List.range 8).flatMap (seqChecks b lib) ++ lampChecks b)

/-! ## Step 5 and the switch -/

/-- Modes with acquisition that COMMIT is accepted in (R93). -/
def acquiring (s : State) : Bool := s.mode.current == .run || s.mode.current == .sentinel

/-- T_sw: 1 ms, or 3 ms where the new bank enables a port whose chains are powered down (R93). [DESIGN CHOICE, notes/assumptions/19] -/
def switchTime (old new : Bank) (s : State) : Nat :=
  s.ticks + msTicks (if allPorts.any fun p => portOn new p && !portOn old p then 3 else 1)

/-- Ethernet links that the new values hold down fall (R445). -/
def linksFollow (s : State) : State := forEach ([0, 1].filter (ethHeld s)) ethDown s

/-- Does any at-commit parameter of `raman[p]` or `thermal[p]` differ (R527)? -/
def ramanDiffers (a b : Bank) (p : Nat) : Bool :=
  paramTable.any fun d => d.id / 256 == 0x14 && d.effect == .atCommit &&
    (match d.family with
     | .idx2 _ m => (List.range m).any fun k => bankRead a d.id (idx2 p k) != bankRead b d.id (idx2 p k)
     | _ => bankRead a d.id p != bankRead b d.id p)

/-- A bank becomes ACTIVE with its plans, and the ports switch to it (R93). -/
def activate (new : Bank) (run sentinel : Plan) (s : State) : State :=
  let old := s.banks.active
  let s := onBanks (fun b => { b with active := new, switch := some { tsw := switchTime old new s, portsLeft := 0xF, old := old } }) s
  let s := { s with herder := { s.herder with
    oldRun := s.herder.run, oldSentinel := s.herder.sentinel, run := run, sentinel := sentinel } }
  let s := onMode (fun x => { x with admitted := true }) s
  let s := forEach (allPorts.filter (ramanDiffers old new)) (fun p s => onItem 4 p (fun i => { i with points := [] }) s) s
  if acquiring s then s else linksFollow (finishSwitch s)

/-- Port `p` reaches slot 0 of its first grid period that begins at or after T_sw (R93); a port without a grid in progress
has no period to end. -/
def commitSwitch (p : Nat) (s : State) : State :=
  match s.banks.switch with
  | some w =>
    if s.ticks < w.tsw || ((portOf s p).gridRunning && (portOf s p).nextSlot != 0) then s
    else linksFollow (settle s (switchPort p s))
  | none => s

/-- COMMIT_SWITCH. -/
def execCommitSwitch (p : Fin 4) (s : State) : Host.Outcome State Fault Refusal := .next (commitSwitch p s)

/-- The active unit sends its banks to the standby as MAILBOX frames (R483). -/
def replicateBanks (s : State) : State :=
  if pairEnabled s && s.pair.own && s.pair.linkUp then
    let b := s.banks
    segorSend 2 (Config.replicaBanks b.active.epoch (b.previous.map (·.epoch)) b.trial) s
  else s

/-- PENDING is emptied (R134): PENDING_DISCARDED carries the cause 0 REVERT, 1 automatic revert, 2 command. -/
def discardPending (cause : Nat) (s : State) : State := post 0x0221 cause 0 0 (onBanks (fun b => { b with pending := none }) s)

/-- Plans of a bank: admitted under R224, or in place under R228 where that no longer fits (R96). -/
def plansOf (b : Bank) (s : State) : Plan × Plan :=
  let lib := s.serif.library
  let lim := planLimits s b
  let run := admitPlan b lib lim false
  let sen := admitPlan b lib lim true
  let dram := decide (384 * 16 ≤ s.memory.usablePages)
  if run.fits && sen.fits then (run, sen)
  else (readmitPlan b lib lim false dram [], readmitPlan b lib lim true dram [])

/-! ## COMMIT -/

/-- Result fields of a COMMIT answer (R134). -/
def commitBody (epoch state : Nat) (failing : Option (Nat × Nat)) (report : List Byte) : List Byte :=
  let (id, idx) := failing.getD (0xFFFF, 0xFFFF)
  leBytes 4 epoch ++ leBytes 1 state ++ leBytes 1 0 ++ leBytes 2 id ++ leBytes 2 idx ++ leBytes 2 report.length ++ report

/-- A refusal at step 1 or 2 (R92): PENDING is kept and the entry ends ROLLED_BACK. No epoch is assigned, so the answer's epoch
and state are free values. [DESIGN CHOICE, notes/assumptions/18] -/
def commitRefused (r : Request) (n status : Nat) (failing : Option (Nat × Nat)) (report : List Byte) (s : State) : State :=
  let (v, s) := drawFree s
  answer r status 0 (commitBody (v / 2) (v % 2) failing report) (journalEnd n .rolledBack status 0 s)

/-- Steps 1 and 2 of R92 on PENDING; steps 3 and 4 end with COMMIT_RECORD_PROGRAMMED. [DESIGN CHOICE, notes/assumptions/18; DEDUCED, notes/assumptions/46] -/
def commitSteps (r : Request) (b : Bank) (n : Nat) (s : State) : State :=
  let s := onJournal n (fun e => { e with summary := s.banks.highestEpoch + 1 }) s
  match validate b s.serif.library with
  | some name => commitRefused r n 0x22 (some name) [] s
  | none =>
    let s := journalStep n s
    let lim := planLimits s b
    let run := admitPlan b s.serif.library lim false
    let sen := admitPlan b s.serif.library lim true
    let report := admissionReport b run sen (requestLimit s r)
    if !(run.fits && sen.fits) then commitRefused r n 0x40 none report s
    else
      onBanks (fun x => { x with job := some {
        kind := 0, bank := b, journal := n, request := r, report := report, degraded := planDegraded run || planDegraded sen } }) (journalStep n s)

/-- COMMIT (R92, R93, R134). -/
def commit (r : Request) (s : State) : State :=
  let base := field r.payload 0 4
  if !commitMode s then refuse r 0x30 0 s
  else if s.banks.trial then refuse r 0x31 0 s
  else if base != 0xFFFFFFFF && base != s.banks.active.epoch then refuse r 0x20 0xFF05 s
  else
    match s.banks.pending with
    | none => refuse r 0x20 0xFF06 s
    | some b => withJournal r 5 (commitSteps r b) (restorePorts s)

/-- COMMIT. -/
def execCommit (s : State) : Host.Outcome State Fault Refusal := .next (runCommand 0x0201 commit s)

/-- The bank slot in flash that is kept erased (R92). -/
def freeSlot (b : Banks) : Fin 3 :=
  if b.slot ≠ 0 ∧ b.previousSlot ≠ 0 then 0 else if b.slot ≠ 1 ∧ b.previousSlot ≠ 1 then 1 else 2

/-- The 256 bytes of the commit record in force (R92): epoch, slot, state (1 TRIAL, 0 CONFIRMED), commit network time, confirm timeout,
and the CRC-32C of what stands before it. -/
def commitRecord (s : State) : List Byte :=
  let b := s.banks
  let r := leBytes 4 b.active.epoch ++ leBytes 1 b.slot.val ++ leBytes 1 (bit b.trial) ++ leBytes 6 b.commitTime.sec ++
    leBytes 4 b.commitTime.ns ++ leBytes 4 b.confirmTimeout
  let r := r ++ List.replicate (252 - r.length) 0
  r ++ leBytes 4 (crc32c r).toNat

/-- A COMMIT's record is programmed (R91, R92, R95): the new bank is ACTIVE, and the answer leaves. [DESIGN CHOICE, notes/assumptions/19; DESIGN CHOICE, notes/assumptions/136] -/
def commitDone (j : CommitJob) (s : State) : State :=
  let epoch := s.banks.highestEpoch + 1
  let timeout := paramNat s Pid.cfgConfirmTimeoutS 0
  let new := { j.bank with epoch := epoch, format := 4 }
  let plans := plansOf new s
  let old := s.banks.active
  let s := onBanks (fun b => { b with
    previous := some old, pending := none, trial := timeout != 0, highestEpoch := epoch, confirmTimeout := timeout,
    commitTick := s.ticks, commitTime := nowNet s, slot := freeSlot b, previousSlot := b.slot, revertRaised := false, job := none }) s
  let s := journalStep j.journal (journalStep j.journal (journalStep j.journal s))
  let s := journalEnd j.journal .done (if j.degraded then 0x41 else 0) 0 (onJournal j.journal (fun e => { e with summary := epoch }) s)
  let s := answer j.request (if j.degraded then 0x41 else 0) 0 (commitBody epoch (bit (timeout != 0)) none j.report) s
  let s := activate new plans.1 plans.2 s
  replicateBanks s

/-! ## REVERT -/

/-- A revert's record is programmed (R96): PREVIOUS is ACTIVE with its own epoch, and both other banks are empty. -/
def revertDone (j : CommitJob) (s : State) : State :=
  let plans := plansOf j.bank s
  let auto := decide (j.kind = 2)
  let left := s.banks.active.epoch
  let s := onBanks (fun b => { b with
    previous := none, trial := false, slot := b.previousSlot, previousSlot := b.slot, commitTick := s.ticks, commitTime := nowNet s,
    confirmTimeout := 0, revertRaised := false, job := none }) s
  let s := discardPending (if auto then 1 else 0) s
  let s := if auto then post 0x0220 j.bank.epoch left 0 s else s
  let s := journalStep j.journal (journalStep j.journal s)
  let s := journalEnd j.journal .done 0 0 (onJournal j.journal (fun e => { e with summary := j.bank.epoch }) s)
  let s := answer j.request 0 0 (leBytes 4 j.bank.epoch) s
  let s := replicateBanks (activate j.bank plans.1 plans.2 s)
  if j.failed then enterFault 6 false s else s

/-- COMMIT_RECORD_PROGRAMMED (R92): steps 3 to 5 end. Flash takes longer than a switch, so a switch still pending comes first. [DESIGN CHOICE, notes/assumptions/19] -/
def commitRecordProgrammed (s : State) : State :=
  match s.banks.job with
  | none => s
  | some j => if s.banks.switch.isSome then s else if j.kind = 0 then commitDone j s else revertDone j s

/-- COMMIT_RECORD_PROGRAMMED. -/
def execCommitRecordProgrammed (s : State) : Host.Outcome State Fault Refusal := .next (commitRecordProgrammed s)

/-- Steps 2 and 4 of R92 for PREVIOUS (R96). -/
def revertSteps (kind : Nat) (r : Request) (b : Bank) (n : Nat) (s : State) : State :=
  let s := onJournal n (fun e => { e with summary := b.epoch }) s
  let lim := planLimits s b
  let fits := (admitPlan b s.serif.library lim false).fits && (admitPlan b s.serif.library lim true).fits
  if !fits && kind = 1 then refuse r 0x40 0 (journalEnd n .rolledBack 0x40 0 s)
  else
    onBanks (fun x => { x with job := some {
      kind := kind, bank := b, journal := n, request := r, report := [], degraded := false, failed := !fits } })
      (journalStep n s)

/-- REVERT (R96, R134): three steps, the second, fourth and fifth of R92. -/
def revert (r : Request) (s : State) : State :=
  let expected := field r.payload 0 4
  if !commitMode s then refuse r 0x30 0 s
  else if expected != 0xFFFFFFFF && expected != s.banks.active.epoch then refuse r 0x20 0xFF05 s
  else
    match s.banks.previous with
    | none => refuse r 0x20 0xFF0A s
    | some b => withJournal r 3 (revertSteps 1 r b) s

/-- REVERT. -/
def execRevert (s : State) : Host.Outcome State Fault Refusal := .next (runCommand 0x0203 revert s)

/-- The confirm timeout of a TRIAL bank has passed by tick `now` (R95). -/
def confirmExpired (s : State) (now : Nat) : Bool := s.banks.trial && decide (s.banks.commitTick + secTicks s.banks.confirmTimeout ≤ now)

/-- CFG_CONFIRM_TIMEOUT (R22, R95): Scribe raises the automatic revert. In MIRROR the banks follow the active peer. -/
def cfgConfirmTimeout (s : State) : State :=
  if !confirmExpired s s.ticks || s.banks.revertRaised || !scribeRuns s || s.scribe.restarting || s.mode.current == .mirror then s
  else enqueueInternal 0x0203 (leBytes 4 s.banks.active.epoch) (onBanks (fun b => { b with revertRaised := true }) s)

/-- CFG_CONFIRM_TIMEOUT. -/
def execCfgConfirmTimeout (s : State) : Host.Outcome State Fault Refusal := .next (cfgConfirmTimeout s)

/-- The automatic revert at the head of the queue (R22, R96): without its occasion it is discarded. -/
def autoRevert (r : Request) (s : State) : State :=
  match s.banks.previous with
  | some b =>
    if !s.banks.trial || field r.payload 0 4 != s.banks.active.epoch then s
    else withJournal r 3 (revertSteps 2 r b) s
  | none => s

/-- AUTO_REVERT (R96): in SURVEY or HANDOVER it waits for a mode of R93. -/
def execAutoRevert (s : State) : Host.Outcome State Fault Refusal :=
  .next (runInternal (fun r => r.opcode == 0x0203) autoRevert s)

/-! ## CONFIRM, BANK_DIFF, PENDING_DISCARD -/

/-- CONFIRM (R95): one that Scribe took before expiry counts. -/
def confirm (r : Request) (s : State) : State :=
  if field r.payload 0 4 != s.banks.active.epoch || confirmExpired s r.arrived then refuse r 0x20 0 s
  else
    withJournal r 1 (fun n s =>
      let s := if s.banks.trial then replicateBanks (onBanks (fun b => { b with trial := false }) s) else s
      answerOk r (journalEnd n .done 0 0 (journalStep n s))) s

/-- CONFIRM. -/
def execConfirm (s : State) : Host.Outcome State Fault Refusal := .next (runCommand 0x0202 confirm s)

/-- A bank by the code of PARAM_GET: 0 in force, 1 PENDING, 2 PREVIOUS (R133); none for an empty PREVIOUS. -/
def bankOfCode (s : State) (code : Nat) : Option Bank :=
  match code with
  | 0 => some (globalBank s)
  | 1 => some (pendingBank s)
  | _ => s.banks.previous

/-- Keys of the parameters in which two banks may differ, in rising order of identifier and index. -/
def bankKeys (a b : Bank) : List Nat :=
  let seqKeys (x : Bank) : List Nat := x.seqs.map fun e => paramKey Pid.seqState (idx2 (e.1 / 16) (e.1 % 16))
  ((a.params ++ b.params).map (·.1) ++ seqKeys a ++ seqKeys b).foldl (fun m k => Store.put m k ()) [] |>.map (·.1)

/-- A bank's value at a store key: a state of a sequencer reads as its mask of valid conditions (R330). -/
def bankValue (b : Bank) (key : Nat) : Int :=
  let idx := key % 65536
  if key / 65536 = Pid.seqState then (validMask (seqState b (idx / 32) (idx % 32)) : Int)
  else bankRead b (key / 65536) idx

/-- Do two banks differ at a store key? -/
def bankDiffers (a b : Bank) (key : Nat) : Bool :=
  let idx := key % 65536
  if key / 65536 = Pid.seqState then seqState a (idx / 32) (idx % 32) != seqState b (idx / 32) (idx % 32)
  else bankRead a (key / 65536) idx != bankRead b (key / 65536) idx

/-- An item (R133). -/
def itemBytes (id idx : Nat) (v : Int) : List Byte := leBytes 2 id ++ leBytes 2 idx ++ leInt 8 v

/-- BANK_DIFF (R134): as many pairs as the transport's payload holds; the count of items remaining stays in its field. -/
def bankDiff (r : Request) (s : State) : State :=
  let c1 := field r.payload 0 1
  let c2 := field r.payload 1 1
  if 2 < c1 || 2 < c2 then refuse r 0x20 0 s
  else
    match bankOfCode s c1, bankOfCode s c2 with
    | some a, some b =>
      let ks := ((bankKeys a b).filter (bankDiffers a b)).drop (field r.payload 2 2)
      let listed := ks.take ((requestLimit s r - 8) / 24)
      let body := listed.flatMap fun k =>
        itemBytes (k / 65536) (k % 65536) (bankValue a k) ++ itemBytes (k / 65536) (k % 65536) (bankValue b k)
      answer r 0 0 (leBytes 2 listed.length ++ leBytes 2 (min 65535 (ks.length - listed.length)) ++ body) s
    | _, _ => refuse r 0x20 0xFF0A s

/-- BANK_DIFF. -/
def execBankDiff (s : State) : Host.Outcome State Fault Refusal := .next (runCommand 0x0204 bankDiff s)

/-- PENDING_DISCARD (R134). -/
def execPendingDiscard (s : State) : Host.Outcome State Fault Refusal :=
  .next (runCommand 0x0205 (fun r s => answerOk r (discardPending 2 s)) s)

end Sys2Proof.Machine
end

