-- ==== Sys2Proof/Machine/SafetyExec.lean ====
section
/-! DEFINITION. The safety and panel unit (R498 to R515): the terms of the emission chain, emergency stop, automatic power
reduction, lamp diagnosis and colour feedback, buttons and locate. -/

namespace Sys2Proof.Machine

/-- A device-wide term falls (R501); before Scribe runs it is only held. -/
def deviceTermFalls (old : State) (term : Nat) (s : State) : State :=
  if scribeRuns s then withdrawDevice old (2 ^ term) s else settle old s

/-- A port-level term of port `p` falls (R501). -/
def portTermFalls (old : State) (term p : Nat) (s : State) : State :=
  if scribeRuns s then withdrawPort old (2 ^ term) p s else settle old s

/-- LKEY_OFF (R498): LKEY low for 1 µs. [DEDUCED, notes/assumptions/49] -/
def lkeyOff (s : State) : State :=
  if !s.safety.key then s
  else deviceTermFalls s 0 (onSafety (fun x => { x with
    key := false, keyOffTick := some s.ticks, sticky := x.sticky ||| 0x002#9 }) s)

/-- LKEY_OFF. -/
def execLkeyOff (s : State) : Host.Outcome State Fault Refusal := .next (lkeyOff s)

/-- Release of the emergency stop (R504): by the parameter (0) or a key cycle (1). -/
def estopRelease (how : Nat) (s : State) : State :=
  if !s.safety.estop then s
  else
    let s1 := settle s (onSafety (fun x => { x with estop := false }) s)
    if scribeRuns s then post 0x3403 how 0 0 s1 else s1

/-- LKEY_ON (R498, R504): LKEY high for the debounce time. [DEDUCED, notes/assumptions/49] -/
def lkeyOn (s : State) : State :=
  if s.safety.key then s
  else
    let cycle := (s.safety.keyOffTick.map fun t => decide (t + secTicks 1 ≤ s.ticks)).getD false
    let s1 := settle s (onSafety (fun x => { x with key := true, lkeyStable := true, keyOffTick := none }) s)
    if cycle then estopRelease 1 s1 else s1

/-- LKEY_ON. -/
def execLkeyOn (s : State) : Host.Outcome State Fault Refusal := .next (lkeyOn s)

/-- LOOP_OK_LOW (R498): LOOP_OK low for 1 µs. [DEDUCED, notes/assumptions/49] -/
def loopOkLow (s : State) : State :=
  if !s.safety.loop then s
  else deviceTermFalls s 1 (onSafety (fun x => { x with loop := false, loopOffTick := some s.ticks, sticky := x.sticky ||| 0x004#9 }) s)

/-- LOOP_OK_LOW. -/
def execLoopOkLow (s : State) : Host.Outcome State Fault Refusal := .next (loopOkLow s)

/-- LOOP_OK_HIGH (R498): LOOP_OK high for the debounce time. -/
def execLoopOkHigh (s : State) : Host.Outcome State Fault Refusal :=
  .next (settle s (onSafety (fun x => { x with loop := true, loopStable := true, loopOffTick := none }) s))

/-- An emergency stop write from source 0 PCIe, 1 SPI or 2 SMBus (R111, R503): it does not pass through Scribe. -/
def estopStop (source : Nat) (s : State) : State :=
  let first := !s.safety.estop
  let s1 := irqBoth 4 (onSafety (fun x => { x with
    estop := true, estopCount := if x.estopCount = 0xFF then x.estopCount else x.estopCount + 1,
    sticky := x.sticky ||| (0x040#9 <<< source) }) s)
  let s2 := if scribeRuns s then post 0x3402 source s1.safety.estopCount.toNat 0 s1 else s1
  if first then deviceTermFalls s 2 s2 else s2

/-- ESTOP_STOP (R503). -/
def execEstopStop (t : Fin 2) (s : State) : Host.Outcome State Fault Refusal := .next (estopStop t s)

/-- ESTOP_RELEASE_WRITE (R504). -/
def execEstopReleaseWrite (on : Bool) (s : State) : Host.Outcome State Fault Refusal := .next (if on then estopRelease 0 s else s)

/-- Bit of a port in a mask. -/
def portMask (p : Nat) : BitVec 4 := 1#4 <<< p

/-- LIGHT_WITHOUT_GATE (R160): the comparator has stood above threshold for 1 µs while GATEp is closed. [DESIGN CHOICE, notes/assumptions/125] -/
def lightWithoutGate (p : Nat) (s : State) : State :=
  let latched := s.safety.lwg.getLsbD p
  if gateOpen s p then s
  else
  let s1 := onPort p (fun x => { x with riseTick := some s.ticks, lightSeen := true })
    (onSafety (fun x => { x with lwg := x.lwg ||| portMask p, sticky := x.sticky ||| 0x010#9 }) s)
  if latched then s1
  else
    let s2 := portTermFalls s 5 p s1
    if scribeRuns s then post 0x1002 p 0 0 s2 else s2

/-- LIGHT_WITHOUT_GATE. -/
def execLightWithoutGate (p : Fin 4) (s : State) : Host.Outcome State Fault Refusal := .next (lightWithoutGate p s)

/-- PLUG_OPEN_LATCH (R505): PLUGp_N high for 50 µs. Its EMISSION_STOPPED waits for the debounced level. [DEDUCED, notes/assumptions/49] -/
def plugOpenLatch (p : Nat) (s : State) : State :=
  let latched := s.safety.apr.getLsbD p
  settle s (onSafety (fun x => { x with
    apr := x.apr ||| portMask p, sticky := x.sticky ||| 0x008#9, aprRestart := x.aprRestart &&& ~~~portMask p,
    aprUntold := if latched then x.aprUntold else x.aprUntold ||| portMask p }) s)

/-- PLUG_OPEN_LATCH. -/
def execPlugOpenLatch (p : Fin 4) (s : State) : Host.Outcome State Fault Refusal := .next (plugOpenLatch p s)

/-- The EMISSION_STOPPED of an APR latch (R501, R505). [DEDUCED, notes/assumptions/49] -/
def aprTell (p : Nat) (s : State) : State :=
  if s.safety.aprUntold.getLsbD p then
    let s := onSafety (fun x => { x with aprUntold := x.aprUntold &&& ~~~portMask p }) s
    if scribeRuns s then emissionStopped 32 (2 ^ p) s else s
  else s

/-- PLUG_DEBOUNCED_OPEN (R505). [DEDUCED, notes/assumptions/49] -/
def plugDebouncedOpen (p : Nat) (s : State) : State :=
  let s := onSafety (fun x => { x with plugClosed := x.plugClosed &&& ~~~portMask p }) s
  aprTell p (if scribeRuns s then post 0x3404 p 0 0 s else s)

/-- PLUG_DEBOUNCED_OPEN. -/
def execPlugDebouncedOpen (p : Fin 4) (s : State) : Host.Outcome State Fault Refusal := .next (plugDebouncedOpen p s)

/-- PLUG_DEBOUNCED_CLOSE (R505): with `safety.apr_auto_restart` set, the restart time begins. -/
def plugDebouncedClose (p : Nat) (s : State) : State :=
  let auto := paramBool s Pid.safetyAprAutoRestart 0 && s.safety.apr.getLsbD p
  aprTell p (onSafety (fun x => { x with
    plugClosed := x.plugClosed ||| portMask p, aprRestart := if auto then x.aprRestart ||| portMask p else x.aprRestart }) s)

/-- PLUG_DEBOUNCED_CLOSE. -/
def execPlugDebouncedClose (p : Fin 4) (s : State) : Host.Outcome State Fault Refusal := .next (plugDebouncedClose p s)

/-- APR_RESTART_EXPIRY (R505): `safety.apr_restart_ms` after the debounced close. -/
def execAprRestartExpiry (p : Fin 4) (s : State) : Host.Outcome State Fault Refusal :=
  .next (if s.safety.aprRestart.getLsbD p then settle s (plugRelease p s) else s)

/-- A write of `safety.port_restart` (R505, R508). -/
def portRestart (mask : Nat) (s : State) : State :=
  settle s (forEach (allPorts.filter (hasBit mask)) (fun p s => locatorRelease p (plugRelease p s)) s)

/-- PORT_RESTART_WRITE. -/
def execPortRestartWrite (mask : Nat) (s : State) : Host.Outcome State Fault Refusal :=
  .next (if mask ≤ 15 then portRestart mask s else s)

/-- A write of `safety.host_enable` (R498): cleared bits withdraw the HOST term of their ports. -/
def hostEnable (mask : Nat) (s : State) : State :=
  let was := paramNat s Pid.safetyHostEnable 0
  let cleared := allPorts.filter fun p => hasBit was p && !hasBit mask p
  let s1 := settle s (paramPut Pid.safetyHostEnable 0 mask s)
  if cleared.isEmpty || !scribeRuns s then s1 else emissionStopped 128 (portBits fun p => cleared.contains p) s1

/-- HOST_ENABLE_WRITE. -/
def execHostEnableWrite (mask : Nat) (s : State) : Host.Outcome State Fault Refusal :=
  .next (if mask ≤ 15 then hostEnable mask s else s)

/-! ## Lamps -/

/-- Role of a channel in LAMP_FAULT (R522): 1 indicator, 2 locator, 3 status, 0 other. -/
def lampRole (s : State) (j : Nat) : Nat :=
  if j == indicatorLed s then 1 else if allPorts.any fun p => locatorLed s p == j then 2
  else if statusChannel s j then 3 else 0

/-- A lamp fault is declared (R501, R508, R511). -/
def lampFault (j kind : Nat) (s : State) : State :=
  let role := lampRole s j
  let s1 := onSafety (fun x => { x with
    sticky := x.sticky ||| 0x020#9, leds := vecUpdate x.leds j fun l => { l with fault := BitVec.ofNat 2 kind, faultSeen := true } }) s
  let s2 := tell 0x3406 j kind role s1
  if role = 1 && !profilePort s then deviceTermFalls s 4 s2
  else if profilePort s then
    forEach (allPorts.filter fun p => locatorLed s p == j) (fun p t =>
      portTermFalls s 4 p (onSafety (fun x => { x with locatorHold := x.locatorHold ||| portMask p }) t)) s2
  else s2

/-- A lamp whose health is a term of the chain (R507): no fault of it is reported before three diagnoses passed (R508). [DESIGN CHOICE, notes/assumptions/127] -/
def lampWatched (s : State) (j : Nat) : Bool :=
  j == indicatorLed s || (profilePort s && allPorts.any fun p => locatorLed s p == j)

/-- LED_DIAGNOSIS (R499, R508, R511): 0 good, 1 OPEN, 2 SHORT, of a channel that is lit now or stretched. -/
def ledDiagnosis (j kind : Nat) (s : State) : State :=
  let l := ledOf s j
  if !(l.lit && ledPhase s j) && !l.stretch then s
  else
    let run := if l.kind == BitVec.ofNat 2 kind then l.run + 1 else 1
    let passed := if kind = 0 then min 3 (l.passed + 1) else l.passed
    let s1 := onSafety (fun x => { x with leds := vecUpdate x.leds j fun l => { l with
      kind := BitVec.ofNat 2 kind, run := run, passed := passed, proven := decide (3 ≤ passed), litGood := l.litGood || (l.lit && kind == 0) } }) s
    if kind ≠ 0 && (l.proven || !lampWatched s j) && 3 ≤ run && l.fault == 0 then lampFault j kind s1
    else if kind = 0 && l.fault != 0 && 16 ≤ run then
      settle s (tell 0x3407 j 0 0 (onSafety (fun x => { x with leds := vecUpdate x.leds j fun l => { l with fault := 0 } }) s1))
    else settle s s1

/-- LED_DIAGNOSIS. -/
def execLedDiagnosis (j : Fin 16) (kind : Fin 3) (s : State) : Host.Outcome State Fault Refusal :=
  .next (ledDiagnosis j kind s)

/-- Channel of status colour `c`. -/
def statusLed (s : State) (c : Nat) : Nat := paramNat s Pid.panelStatusLed c

/-- One colour's trim step (R512): limited to ±2 %, and the trim to 0.75 to 1.25. A response that is not positive counts as
the largest step up. [DESIGN CHOICE, notes/assumptions/51] -/
def trimStep (trim target : Nat) (m : Int) : Nat :=
  let ideal : Int := if m ≤ 0 then 2 * trim else (trim * target : Nat) / m
  (max 0x6000 (min 0xA000 (max ((trim * 98 / 100 : Nat) : Int) (min ((trim * 102 / 100 : Nat) : Int) ideal)))).toNat

/-- Colour feedback of one colour. [DESIGN CHOICE, notes/assumptions/51] -/
def colourStep (c : Nat) (m : Int) (s : State) : State :=
  let set := paramNat s Pid.ledCfbTarget c
  let held := vecRead s.safety.cfbTarget c 0
  let target := if set ≠ 0 then set else if held ≠ 0 then held else m.toNat
  let trim := trimStep (vecRead s.safety.cfbTrim c 0x8000) target m
  let n := if trim = 0x6000 || trim = 0xA000 then vecRead s.safety.cfbLimit c 0 + 1 else 0
  let s := if n = 0 then calAccept 8 c [trim] s else s
  let s := onSafety (fun x => { x with
    cfbTarget := vecUpdate x.cfbTarget c (fun v => if v = 0 then m.toNat else v), cfbTrim := vecUpdate x.cfbTrim c (fun _ => trim),
    cfbLimit := vecUpdate x.cfbLimit c fun _ => n }) s
  if n = 60 then
    calReject 8 c 0 m (onSafety (fun x => { x with leds := vecUpdate x.leds (statusLed s c) fun l => { l with cfbLimit := true } }) s)
  else s

/-- COLOUR_FEEDBACK (R512): once per second while it is enabled and the lamp is lit; after CFB_LIMIT the trims stay. [DESIGN CHOICE, notes/assumptions/51] -/
def colourFeedback (dark lit : Vector Int 3) (s : State) : State :=
  let on := [0, 1, 2].any fun c => (ledOf s (statusLed s c)).lit
  let held := [0, 1, 2].any fun c => (ledOf s (statusLed s c)).cfbLimit
  if !paramBool s Pid.ledCfbEnable 0 || !on || held then s
  else forEach [0, 1, 2] (fun c s => colourStep c (vecRead lit c 0 - vecRead dark c 0) s) s

/-- COLOUR_FEEDBACK. -/
def execColourFeedback (dark lit : Vector Int 3) (s : State) : Host.Outcome State Fault Refusal :=
  .next (colourFeedback dark lit s)

/-! ## Panel inputs -/

/-- PANEL_INPUT_CHATTER (R515): a change of input `i` that did not hold, reported at most once per second. [DEDUCED, notes/assumptions/50; DEDUCED, notes/assumptions/152] -/
def panelInputChatter (i : Nat) (s : State) : State :=
  let (hit, r) := rateHit s.ticks 1 0 (vecRead s.safety.chatterRate i {})
  let s := bump Pid.panelChatter i (onSafety (fun x => { x with chatterRate := vecUpdate x.chatterRate i fun _ => r }) s)
  match hit with
  | some (n, _) => tell 0x3409 i n 0 s
  | none => s

/-- PANEL_INPUT_CHATTER. -/
def execPanelInputChatter (i : Fin 8) (s : State) : Host.Outcome State Fault Refusal := .next (panelInputChatter i s)

/-- INPUT_STUCK (R515): SERVICE_N (0) or LOCATE_N (1) pressed for more than 10 s. [DEDUCED, notes/assumptions/50] -/
def inputStuck (button : Fin 2) (s : State) : State :=
  let pressed := if button = 0 then s.safety.service else s.safety.locate
  let was := if button = 0 then s.safety.serviceStuck else s.safety.locateStuck
  if !pressed || was then s
  else tell 0x3408 button.val 0 0 (onSafety (fun x =>
    if button = 0 then { x with serviceStuck := true } else { x with locateStuck := true }) s)

/-- INPUT_STUCK. -/
def execInputStuck (button : Fin 2) (s : State) : Host.Outcome State Fault Refusal := .next (inputStuck button s)

/-- BUTTON_STABLE_RELEASE (R515): the button's stable release ends its press and STUCK. [DEDUCED, notes/assumptions/50] -/
def execButtonStableRelease (button : Fin 2) (s : State) : Host.Outcome State Fault Refusal :=
  .next (onSafety (fun x =>
    if button = 0 then { x with service := false, serviceStuck := false } else { x with locate := false, locateStuck := false }) s)

/-- A write of `panel.locate_mask` (R514). -/
def locateMask (mask : Nat) (s : State) : State :=
  settle s (onSafety (fun x => { x with
    locateMask := BitVec.ofNat 5 mask,
    locateFrom := Vector.ofFn fun i : Fin 5 => if hasBit mask i.val then s.ticks else vecRead x.locateFrom i.val 0 }) s)

/-- LOCATE_MASK_WRITE (R514). -/
def execLocateMaskWrite (mask : Nat) (s : State) : Host.Outcome State Fault Refusal :=
  .next (if mask ≤ 31 then locateMask mask s else s)

/-- LOCATE_PRESS (R514): the debounced fall of LOCATE_N. [DEDUCED, notes/assumptions/50] -/
def locatePress (s : State) : State :=
  if s.safety.locate then s
  else
    tell 0x340A (Config.serial.toNat % 2 ^ 32 : Nat) 0 0
      (settle s (onSafety (fun x => { x with
        locate := true, locateMask := x.locateMask ||| 0x10#5, locateFrom := vecUpdate x.locateFrom 4 fun _ => s.ticks }) s))

/-- LOCATE_PRESS. -/
def execLocatePress (s : State) : Host.Outcome State Fault Refusal := .next (locatePress s)

/-- Mask bits that `panel.locate_s` has not ended yet (R514). -/
def locateLeft (s : State) : Nat :=
  bits ((List.range 5).map fun i => s.safety.locateMask.getLsbD i &&
    decide (s.ticks < vecRead s.safety.locateFrom i 0 + secTicks (paramNat s Pid.panelLocateS 0)))

/-- LOCATE_END (R514): the mask bits whose `panel.locate_s` is over clear. [DEDUCED, notes/assumptions/152] -/
def execLocateEnd (s : State) : Host.Outcome State Fault Refusal :=
  .next (settle s (onSafety (fun x => { x with locateMask := BitVec.ofNat 5 (locateLeft s) }) s))

end Sys2Proof.Machine
end

