-- ==== Sys2Proof/Machine/Power.lean ====
section
/-! DEFINITION. Power and reset (R39, R45, R47, R57), rails (R51, R52), feeds (R58, R59, R491), reference clocks (R62 to R65)
and PLLs (R67, R69), with the thermal limit (R85). -/

namespace Sys2Proof.Machine

/-- Update the supplies. -/
def onPower (f : Power → Power) (s : State) : State := { s with power := f s.power }
/-- Update the clocks. -/
def onClk (f : Clocks → Clocks) (s : State) : State := { s with clocks := f s.clocks }
/-- Update the balls. -/
def onPins (f : Pins → Pins) (s : State) : State := { s with pins := f s.pins }

/-! ## Power and reset -/

/-- The state of a device whose always-on domain has lost or just gained power: flash and the levels of balls and rails. [DEDUCED, notes/assumptions/47] -/
def coldState (s : State) : State :=
  { flashState s with
    power := { s.power with portOos := Vector.replicate 4 false, resetCause := 0, seqViolation := false, resetHeld := false }
    pins := { s.pins with strapsSampled := false, strapLogged := false }
    pair := { peerPresent := s.pair.peerPresent, ilkHeld := s.pair.ilkHeld && !s.pair.driving } }

/-- POWER_ON (R53, R54, R57): `feed` rises and powers the always-on domain, which holds the device in RESET. [DEDUCED, notes/assumptions/47; DEDUCED, notes/assumptions/52; DESIGN CHOICE, notes/assumptions/54; DESIGN CHOICE, notes/assumptions/129] -/
def powerOn (feed : Fin 2) (seqViolation : Bool) (s : State) : State :=
  if s.power.aon then s
  else
    let s := coldState s
    onPower (fun x => { x with
      aon := true, feedVolt := x.feedVolt.set feed true, feedGood := x.feedGood.set feed (x.feedPin.get feed),
      seqViolation := seqViolation, resetCause := if seqViolation then 0x21 else 0x01 }) s

/-- POWER_ON. -/
def execPowerOn (feed : Fin 2) (seqViolation : Bool) (s : State) : Host.Outcome State Fault Refusal :=
  .next (powerOn feed seqViolation s)

/-- Loss of power may cut off the programming of the first entry that waits for the log (R543): whether it does is open. [DEDUCED, notes/assumptions/104; DEDUCED, notes/assumptions/150] -/
def logCut (s : State) : State :=
  match s.log.waiting with
  | [] => s
  | e :: _ =>
    let (v, s) := drawFree s
    let n := (s.log.newest + 1) % 2 ^ 32
    if v % 2 = 0 then s
    else
      let log := { s.log with newest := n, maxErases := max s.log.maxErases (logErases n) }
      { s with log := { log with entries := ({ e with number := n, bad := true } :: s.log.entries).take (logHeld n) } }

/-- POWER_OFF (R57): both feeds are below 2.95 V; the device is off. [DEDUCED, notes/assumptions/47] -/
def powerOff (s : State) : State :=
  onPower (fun x => { x with aon := false, feedVolt := Vector.replicate 2 false, feedGood := Vector.replicate 2 false })
    (coldState (logCut s))

/-- POWER_OFF. -/
def execPowerOff (s : State) : Host.Outcome State Fault Refusal := .next (powerOff s)

/-- RESET entered for a cause recorded in `power.reset_cause` (R39, R72). [DEDUCED, notes/assumptions/47] -/
def resetFor (cause : BitVec 6) (held : Bool) (s : State) : State :=
  if !s.power.aon then s
  else
    let s := onPower (fun x => { x with resetCause := x.resetCause ||| cause }) s
    if s.mode.current == .reset then onPower (fun x => { x with resetHeld := x.resetHeld || held }) s else deviceReset held s

/-- RESET_N_FALL (R39). -/
def execResetNFall (s : State) : Host.Outcome State Fault Refusal :=
  .next (resetFor 0x04 false (onPins (fun x => { x with resetN := false }) s))

/-- PWRGD_FALL (R39). -/
def execPwrgdFall (s : State) : Host.Outcome State Fault Refusal :=
  .next (resetFor 0x02 false (onPins (fun x => { x with pwrgd := false }) s))

/-- RESET_RELEASE (R39, T2): both balls have been high together for 1 ms, and every rail is in tolerance. [DEDUCED, notes/assumptions/52; DESIGN CHOICE, notes/assumptions/129] -/
def resetRelease (s : State) : State :=
  if s.mode.current != .reset || !s.power.aon || !s.power.coreOk || s.power.railStatus != 0x1FFF then s
  else
    let s := onPins (fun x => { x with resetN := true, pwrgd := true }) (onPower (fun x => { x with resetHeld := false }) s)
    relight (onMode (fun x => { x with previous := .reset, current := .boot }) { s with time := { s.time with holdover := true, holdCause := 1 } })

/-- RESET_RELEASE. [DEDUCED, notes/assumptions/52] -/
def execResetRelease (s : State) : Host.Outcome State Fault Refusal := .next (resetRelease s)

/-- STRAP_SAMPLE (R45): once, 500 ns after RESET is left. -/
def execStrapSample (levels : Straps) (s : State) : Host.Outcome State Fault Refusal :=
  .next (let s := onPins (fun x => { x with straps := levels }) s
    if s.mode.current != .boot || s.pins.strapsSampled then s
    else onPins (fun x => { x with strapsSampled := true, unitIdNow := levels.unitId }) { s with straps := levels })

/-- UNIT_ID_SAMPLE (R47): every 100 ms; each difference is logged once. -/
def unitIdSample (level : Bool) (s : State) : State :=
  let s := onPins (fun x => { x with unitIdNow := level }) s
  if !scribeRuns s then s
  else if level == s.straps.unitId then onPins (fun x => { x with strapLogged := false }) s
  else if s.pins.strapLogged then s
  else post 0x0101 (idStraps s) (bit level) 0 (onPins (fun x => { x with strapLogged := true }) s)

/-- UNIT_ID_SAMPLE. -/
def execUnitIdSample (level : Bool) (s : State) : Host.Outcome State Fault Refusal := .next (unitIdSample level s)

/-! ## Rails -/

/-- Bit of a rail in `power.rail_status` (R71); none for the core group. [DEDUCED, notes/assumptions/53] -/
def railBit (r : Rail) : Option Nat :=
  match r with
  | .core => none
  | .rx p => some p.val
  | .tx p => some (4 + p.val)
  | .hk => some 8
  | .io33 => some 9
  | .serdes => some 10
  | .vddq a => some (11 + a.val)

/-- A port goes out of service (R52); one that is on its way back stays out until another COMMIT or MODE_REQUEST. -/
def portOut (p : Nat) (s : State) : State :=
  if vecRead s.power.portOos p true then onCal (fun c => { c with returning := c.returning &&& ~~~(1#4 <<< p) }) s
  else portTermFalls s 6 p (onPower (fun x => { x with portOos := vecUpdate x.portOos p fun _ => true }) s)

/-- What an undervoltage does beyond its report (R51, R52). -/
def railAction (r : Rail) (s : State) : State :=
  match r with
  | .core => s
  | .rx p | .tx p => portOut p s
  | .hk => s
  | .io33 => enterFault 3 true s
  | .serdes => segorDown (ethDown 1 (ethDown 0 (pcieDown s)))
  | .vddq a => dramOffline a 3 s

/-- RAIL_UNDERVOLTAGE (R52). [DEDUCED, notes/assumptions/53] -/
def railUndervoltage (r : Rail) (s : State) : State :=
  match railBit r with
  | none => resetFor 0x08 true (onPower (fun x => { x with coreOk := false }) s)
  | some i =>
    let s := onPower (fun x => { x with
      railStatus := x.railStatus &&& ~~~(1#13 <<< i), railStable := x.railStable &&& ~~~(1#13 <<< i) }) s
    if s.mode.current == .reset || !s.power.aon then s else railAction r (tell 0x0201 i 0 0 s)

/-- RAIL_UNDERVOLTAGE. -/
def execRailUndervoltage (r : Rail) (s : State) : Host.Outcome State Fault Refusal := .next (railUndervoltage r s)

/-- Rails of the last group of R53. [DESIGN CHOICE, notes/assumptions/129] -/
def lateRail (r : Rail) : Bool :=
  match r with
  | .rx _ | .tx _ | .hk | .io33 => true
  | _ => false

/-- The rails of the earlier groups of R53 are in tolerance: the core group, VDD_SERDES and both VDDQ. [DESIGN CHOICE, notes/assumptions/129] -/
def earlierRails (s : State) : Bool := s.power.coreOk && s.power.railStatus &&& 0x1C00#13 == 0x1C00#13

/-- RAIL_RESTORED (R52, R53): the rail has been in tolerance for 1 ms; a rail of the last group that is there before an earlier one
during a power-up violates the order, which the reset cause records (R54). [DEDUCED, notes/assumptions/53; DESIGN CHOICE, notes/assumptions/129] -/
def railRestored (r : Rail) (s : State) : State :=
  match railBit r with
  | none => onPower (fun x => { x with coreOk := true }) s
  | some i =>
    let s := if s.mode.current == .reset && lateRail r && !earlierRails s then
        onPower (fun x => { x with seqViolation := true, resetCause := x.resetCause ||| 0x20#6 }) s else s
    let s := onPower (fun x => { x with railStatus := x.railStatus ||| (1#13 <<< i), railStable := x.railStable ||| (1#13 <<< i) }) s
    if r == .io33 && s.mode.faultCode == 3 then onMode (fun x => { x with faultPresent := false }) s else s

/-- RAIL_RESTORED. [DEDUCED, notes/assumptions/53] -/
def execRailRestored (r : Rail) (s : State) : Host.Outcome State Fault Refusal := .next (railRestored r s)

/-! ## Feeds -/

/-- The feed-loss action configured for a feed (R59): 0 NONE, 1 SENTINEL, 2 DORMANT. -/
def feedAction (s : State) (x : Fin 2) : Nat :=
  paramNat s (if x = 0 then Pid.powerFeedALossAction else Pid.powerFeedBLossAction) 0

/-- The feed rule of R491 starts a handover: the active unit, its peer READY with both feeds good. [DESIGN CHOICE, notes/assumptions/54] -/
def feedHandover (s : State) : Bool :=
  pairEnabled s && paramBool s Pid.pairFeedHandover 0 && s.pair.own && (s.mode.current == .run || s.mode.current == .sentinel) &&
  peerReady s && ((s.pair.peer.map fun b => b.feed % 4 == 3).getD false)

/-- What a lost feed starts (R59, R491): a handover, or the internal command of the action. [DESIGN CHOICE, notes/assumptions/54; DEDUCED, notes/assumptions/130] -/
def feedReact (x : Fin 2) (s : State) : State :=
  let act := feedAction s x
  if feedHandover s then beginRelease 5 s
  else if act ≠ 0 && feedActionFits s act then enqueueInternal 0x0300 [if act = 2 then 6 else 5, 0, BitVec.ofNat 8 x.val, 0] s
  else s

/-- FEED_LOST (R58, R59). [DESIGN CHOICE, notes/assumptions/54; DEDUCED, notes/assumptions/130] -/
def feedLost (x : Fin 2) (volt pin : Bool) (s : State) : State :=
  let was := s.power.feedGood.get x
  let s := onPower (fun w => { w with
    feedVolt := w.feedVolt.set x volt, feedPin := w.feedPin.set x pin, feedGood := w.feedGood.set x false }) s
  if !was || !canPost s then s
  else
    let act := feedAction s x
    let applied : Nat := if act = 0 then 0 else if !feedHandover s && feedActionFits s act then act else 0xFF
    let s := post 0x0202 x.val applied 0 s
    let s := if s.power.feedGood.get 0 || s.power.feedGood.get 1 then s else post 0x0204 0 0 0 s
    feedReact x s

/-- FEED_LOST. -/
def execFeedLost (x : Fin 2) (volt pin : Bool) (s : State) : Host.Outcome State Fault Refusal := .next (feedLost x volt pin s)

/-- FEED_RESTORED (R58). [DEDUCED, notes/assumptions/130] -/
def feedRestored (x : Fin 2) (s : State) : State :=
  let was := s.power.feedGood.get x
  if !s.power.aon then s
  else
    let s := onPower (fun w => { w with
      feedVolt := w.feedVolt.set x true, feedPin := w.feedPin.set x true, feedGood := w.feedGood.set x true }) s
    if was then s else tell 0x0203 x.val 0 0 s

/-- FEED_RESTORED. -/
def execFeedRestored (x : Fin 2) (s : State) : Host.Outcome State Fault Refusal := .next (feedRestored x s)

/-! ## References -/

/-- The reference wanted: a failed crystal gives way to any qualified source (R62, R67). [DEDUCED, notes/assumptions/55] -/
def wantedRef (s : State) : RefSource :=
  let r := chosenRef s
  if s.clocks.xtalFailed && r == .xtal then
    if s.clocks.refinPresent then .refin else if s.clocks.ocxoPresent && s.clocks.ocxoWarm then .ocxo else .xtal
  else r

/-- A switch begins, or retargets, when the wanted reference changes (R64). [DEDUCED, notes/assumptions/55; DEDUCED, notes/assumptions/130] -/
def refReact (s : State) : State :=
  let want := wantedRef s
  if !scribeRuns s || s.clocks.corePllLost then s
  else
    match s.clocks.switchTo with
    | some _ => onClk (fun c => { c with switchTo := some want }) s
    | none => if want == s.clocks.inUse then tdcGrade s else onClk (fun c => { c with switchTo := some want }) s

/-- Is the forced source `src` (0 REFIN, 1 OCXO) in force (R62)? [DEDUCED, notes/assumptions/55] -/
def refForced (s : State) (src : Fin 2) : Bool := paramNat s Pid.clkRefSelect 0 == src.val + 1

/-- REF_PRESENT (R63). [DEDUCED, notes/assumptions/55] -/
def refPresent (src : Fin 2) (hz25 : Bool) (s : State) : State :=
  let hz := if hz25 then 25000000 else 10000000
  refReact (onClk (fun c => if src = 0 then { c with refinPresent := true, refinHz := hz } else { c with ocxoPresent := true, ocxoHz := hz }) s)

/-- REF_PRESENT. -/
def execRefPresent (src : Fin 2) (hz25 : Bool) (s : State) : Host.Outcome State Fault Refusal :=
  .next (if s.mode.current == .reset then s else refPresent src hz25 s)

/-- REF_ABSENT (R62, R63). [DEDUCED, notes/assumptions/55] -/
def refAbsent (src : Fin 2) (s : State) : State :=
  let was := if src = 0 then s.clocks.refinPresent else s.clocks.ocxoPresent
  let s := onClk (fun c => if src = 0 then { c with refinPresent := false, refinHz := 0 } else { c with ocxoPresent := false, ocxoHz := 0 }) s
  if !was then s else refReact (if refForced s src then tell 0x0302 (src.val + 1) 0 0 s else s)

/-- REF_ABSENT. -/
def execRefAbsent (src : Fin 2) (s : State) : Host.Outcome State Fault Refusal := .next (refAbsent src s)

/-- A write of `clk.ref_select` (R62). -/
def writeRefSelect (v : Nat) (s : State) : State :=
  let s := paramPut Pid.clkRefSelect 0 v s
  let absent := (v == 1 && !s.clocks.refinPresent) || (v == 2 && !s.clocks.ocxoPresent)
  refReact (if absent then tell 0x0302 v 0 0 s else s)

/-- OCXO_WARM_CHANGE (R63, R65). -/
def execOcxoWarmChange (warm : Bool) (s : State) : Host.Outcome State Fault Refusal :=
  .next (refReact (onClk (fun c => { c with ocxoWarm := warm }) s))

/-- REF_SWITCH (R64): the core PLL has locked to the new source. [DEDUCED, notes/assumptions/55] -/
def refSwitch (s : State) : State :=
  match s.clocks.switchTo with
  | none => s
  | some t =>
    let old := s.clocks.inUse
    let s := bump Pid.clkRefSwitches 0 (onClk (fun c => { c with inUse := t, switchTo := none }) s)
    tdcGrade (tell 0x0301 (refCode old) (refCode t) 0 s)

/-- REF_SWITCH. -/
def execRefSwitch (s : State) : Host.Outcome State Fault Refusal := .next (refSwitch s)

/-- XTAL_FAIL (R67, R85): it is logged in FAULT too, where the latched code stays. [DEDUCED, notes/assumptions/43; DEDUCED, notes/assumptions/56] -/
def execXtalFail (s : State) : Host.Outcome State Fault Refusal :=
  .next (let again := s.mode.current == .fault && s.mode.faultCode != 1
    let s := enterFault 1 true (refReact (onClk (fun c => { c with xtalFailed := true }) s))
    if again then post 0x0211 1 0 0 s else s)

/-! ## PLLs -/

/-- A PLL's lock is lost (R69, R75). [DEDUCED, notes/assumptions/131] -/
def pllLost (i : Nat) (s : State) : State :=
  tell 0x0303 i 0 0 (onClk (fun c => { c with
    locked := c.locked &&& ~~~(1#5 <<< i), lossSeen := c.lossSeen ||| (1#5 <<< i),
    lossTicks := vecUpdate c.lossTicks i fun _ => some s.ticks }) s)

/-- CORE_PLL_UNLOCK (R69), outside a switch: every Quill stops, and HOLDOVER is in force. -/
def corePllUnlock (s : State) : State :=
  if s.clocks.switchTo.isSome || !pllLocked s 0 then s
  else
    let old := s
    let s := onClk (fun c => { c with corePllLost := true }) (pllLost 0 s)
    if scribeRuns s then holdForPll (forEach allPorts (cutPort (inLead old)) s) else s

/-- CORE_PLL_UNLOCK. -/
def execCorePllUnlock (s : State) : Host.Outcome State Fault Refusal := .next (corePllUnlock s)

/-- CORE_PLL_RELOCK (R69); in BOOT the core PLL locks to the reference of R62. [DEDUCED, notes/assumptions/56] -/
def corePllRelock (s : State) : State :=
  if s.mode.current == .reset || pllLocked s 0 then s
  else
    let s := onClk (fun c => { c with locked := c.locked ||| 1#5, corePllLost := false, inUse := if scribeRuns s then c.inUse else wantedRef s }) s
    let s := if s.mode.faultCode == 2 then onMode (fun x => { x with faultPresent := false }) s else s
    if scribeRuns s then refReact (pllReturns s) else s

/-- CORE_PLL_RELOCK. -/
def execCorePllRelock (s : State) : Host.Outcome State Fault Refusal := .next (corePllRelock s)

/-- CORE_PLL_TIMEOUT (R69): 10 ms without relock. -/
def execCorePllTimeout (s : State) : Host.Outcome State Fault Refusal :=
  .next (if s.clocks.corePllLost then enterFault 2 true s else s)

/-- CTRL_PLL_UNLOCK (R39, R69): RESET, from which the loss's sticky bit is seen (R75). [DEDUCED, notes/assumptions/131] -/
def execCtrlPllUnlock (s : State) : Host.Outcome State Fault Refusal :=
  .next (if s.mode.current == .reset then s
    else onClk (fun c => { c with lossSeen := c.lossSeen ||| 2#5 }) (resetFor 0x10 true s))

/-- DRAM_PLL_UNLOCK (R69). [DEDUCED, notes/assumptions/56] -/
def execDramPllUnlock (a : Fin 2) (s : State) : Host.Outcome State Fault Refusal :=
  .next (if s.mode.current == .reset || !pllLocked s (2 + a) then s else dramOffline a 4 (pllLost (2 + a) s))

/-- PCIE_PLL_UNLOCK (R69): the link goes down and retrains by itself. -/
def execPciePllUnlock (s : State) : Host.Outcome State Fault Refusal :=
  .next (if s.mode.current == .reset || !pllLocked s 4 then s else pcieDown (pllLost 4 s))

/-- The junction temperature reads `temp` (1/16 °C); below the limit the cause of THERMAL_LIMIT is gone (R85). [DESIGN CHOICE, notes/assumptions/38] -/
def setTemp (temp : Int) (s : State) : State :=
  let s := onCal (fun c => { c with temp := temp }) s
  if s.mode.faultCode == 8 then onMode (fun x => { x with faultPresent := decide (gradeMax + 80 ≤ temp) }) s else s

/-- THERMAL_LIMIT (R85). [DESIGN CHOICE, notes/assumptions/38] -/
def execThermalLimit (temp : Int) (s : State) : Host.Outcome State Fault Refusal :=
  .next (let s := setTemp temp s
    if gradeMax + 80 ≤ temp then enterFault 8 true s else s)

end Sys2Proof.Machine
end

