-- ==== Sys2Proof/Machine/Time.lean ====
section
/-! DEFINITION. Network time (R396 to R407), SYNC_IN (R408 to R410), the pulse outputs (R415, R416) and the time-interval unit
(R417 to R422): their rows. -/

namespace Sys2Proof.Machine

/-! ## PTP -/

/-- A nanosecond in the unit of timestamps, 2^−16 ps: the visible 2^−16 ns of a counter (R396) and the whole picoseconds of the
latency parameters (R400) are both whole numbers of it. -/
def stampNs : Int := 65536000

/-- A domain counter as a timestamp, to the visible 2^−16 ns (R25, R396), in units of 2^−16 ps. [DESIGN CHOICE, notes/assumptions/81] -/
def domainStamp (x : Domain) : Int := ((x.count / 2 ^ 24 * 1000 : Nat) : Int)

/-- Receive timestamp of an event message on Ethernet port `n` in domain `d`, 2^−16 ps (R400). -/
def rxStamp (s : State) (d n : Nat) : Int := domainStamp (domainOf s d) - paramNat s Pid.timeEthRxLatencyPs n * 65536

/-- Transmit timestamp of an event message on Ethernet port `n` in domain `d`, 2^−16 ps (R400). -/
def txStamp (s : State) (d n : Nat) : Int := domainStamp (domainOf s d) + paramNat s Pid.timeEthTxLatencyPs n * 65536

/-- A difference of timestamps as reported nanoseconds. [DESIGN CHOICE, notes/assumptions/81] -/
def ptpNs (v : Int) : Int := if v % stampNs = 0 then v / stampNs else Config.ptpRound v

/-- Does domain `d` listen on Ethernet port `n` to this PTP domain and sdoId (R399)? -/
def ptpMatches (s : State) (d n domain sdo : Nat) : Bool :=
  paramNat s Pid.timeDomEthPort d == n && paramNat s Pid.timeDomPtpDomain d == domain && paramNat s Pid.timeDomSdoId d == sdo

/-- Domain `d` uses the peer-to-peer mechanism (R399). -/
def usesP2p (s : State) (d : Nat) : Bool := paramNat s Pid.timeDomMechanism d == 1

/-- An Announce (R399): the better dataset, the lower rank, wins; the present master's own data follow it. [PRESUMED, notes/assumptions/15] -/
def ptpAnnounce (d master rank : Nat) (s : State) : State :=
  let x := domainOf s d
  if x.masterId = master then onDomain d (fun x => { x with masterRank := rank }) s
  else if x.masterId = 0 || rank < x.masterRank then
    onDomain d (fun x => { x with masterId := master, masterRank := rank, masterChanged := true, syncWait := none }) s
  else s

/-- Offset from the master of a Sync with origin `t1` (with its corrections) received at `t2`, 2^−16 ps (R399). -/
def ptpOffset (d seq : Nat) (t1 t2 : Int) (s : State) : State :=
  onDomain d (fun x => { x with
    t1 := t1, t2 := t2, measSeq := seq, offsetNs := ptpNs (t2 - t1 - x.pathDelayNs * stampNs), syncWait := none }) s

/-- A Sync from the chosen master (R399 to R401). [PRESUMED, notes/assumptions/15] -/
def ptpSync (d : Fin 2) (n seq : Nat) (master : Nat) (twoStep : Bool) (origin correction : Int) (s : State) : State :=
  if (domainOf s d).masterId ≠ master then s
  else
    let t2 := rxStamp s d n
    let s := onDomain d (fun x => { x with twoStep := twoStep, syncTimeout := false }) s
    let s := if twoStep then onDomain d (fun x => { x with syncWait := some (seq, t2 - correction * stampNs) }) s
      else ptpOffset d seq ((origin + correction) * stampNs) t2 s
    lockUpdate d 4 s

/-- A Follow_Up completes the Sync of its sequence (R399). [PRESUMED, notes/assumptions/15] -/
def ptpFollowUp (d seq : Nat) (origin correction : Int) (s : State) : State :=
  match (domainOf s d).syncWait with
  | some (q, t2) => if q = seq then ptpOffset d seq ((origin + correction) * stampNs) t2 s else s
  | none => s

/-- A Delay_Resp gives the path delay of E2E (R399). [PRESUMED, notes/assumptions/15] -/
def ptpDelayResp (d seq : Nat) (receive correction : Int) (s : State) : State :=
  let x := domainOf s d
  if usesP2p s d || x.reqSeq ≠ seq then s
  else onDomain d (fun x => { x with pathDelayNs := ptpNs (((x.t2 - x.t1) + ((receive - correction) * stampNs - x.t3)) / 2) }) s

/-- A Pdelay_Resp gives the path delay of P2P (R399). [PRESUMED, notes/assumptions/15] -/
def ptpPdelayResp (d n seq : Nat) (turnaround : Int) (s : State) : State :=
  let x := domainOf s d
  if !usesP2p s d || x.reqSeq ≠ seq then s
  else
    let t4 := rxStamp s d n
    onDomain d (fun x => { x with pathDelayNs := ptpNs ((t4 - x.t3 - turnaround * stampNs) / 2) }) s

/-- Bytes most significant first. -/
def beBytes (n v : Nat) : List Byte := (leBytes n v).reverse

/-- Clock identity of Ethernet port `n`: the EUI-64 of its MAC address (PRESUMED: IEEE 1588-2019). [PRESUMED, notes/assumptions/15] -/
def clockIdentity (n : Nat) : List Byte :=
  let m := beBytes 6 (Config.macAddress n).toNat
  m.take 3 ++ [0xFF, 0xFE] ++ m.drop 3

/-- A PTP message of `len` bytes: header, then zeros (PRESUMED: IEEE 1588-2019). [PRESUMED, notes/assumptions/15] -/
def ptpBytes (type len : Nat) (s : State) (d n seq : Nat) : List Byte :=
  let sdo := paramNat s Pid.timeDomSdoId d
  let head := beBytes 1 (sdo / 256 * 16 + type) ++ [0x12] ++ beBytes 2 len ++ beBytes 1 (paramNat s Pid.timeDomPtpDomain d) ++
    beBytes 1 sdo ++ List.replicate 14 0 ++ clockIdentity n ++ beBytes 2 1 ++ beBytes 2 seq ++ [if type = 1 then 1 else 5, 0x7F]
  head ++ List.replicate (len - head.length) 0

/-- Pdelay_Resp to a peer's request, in one step (R399); destination 0 stands for the standard's multicast address. [PRESUMED, notes/assumptions/15] -/
def ptpPdelayReq (d n seq : Nat) (s : State) : State :=
  if usesP2p s d && (ethOf s n).linkUp then onEth n (fun e => { e with txPtp := e.txPtp ++ [(0, ptpBytes 3 54 s d n seq)] }) s else s

/-- Apply `f` to each domain that listens to a message. -/
def eachDomain (port : Fin 2) (domain sdo : Nat) (f : Fin 2 → State → State) (s : State) : State :=
  forEach (α := Fin 2) ([(0 : Fin 2), 1].filter fun d => ptpMatches s d.val port.val domain sdo) f s

/-- PTP_MESSAGE_RX (R399, R400), while Scribe serves. -/
def ptpMessageRx (m : PtpMessage) (s : State) : State :=
  if s.mode.current == .reset || s.mode.current == .boot || s.scribe.restarting then s
  else
    match m with
    | .announce port domain sdo master rank => eachDomain port domain sdo (fun d s => ptpAnnounce d master rank s) s
    | .sync port domain sdo seq master twoStep origin correction =>
      eachDomain port domain sdo (fun d s => ptpSync d port seq master twoStep origin correction s) s
    | .followUp port domain sdo seq origin correction =>
      eachDomain port domain sdo (fun d s => ptpFollowUp d seq origin correction s) s
    | .delayResp port domain sdo seq receive correction =>
      eachDomain port domain sdo (fun d s => ptpDelayResp d seq receive correction s) s
    | .pdelayReq port domain sdo seq => eachDomain port domain sdo (fun d s => ptpPdelayReq d port seq s) s
    | .pdelayResp port domain sdo seq turnaround =>
      eachDomain port domain sdo (fun d s => ptpPdelayResp d port seq turnaround s) s

/-- PTP_MESSAGE_RX. -/
def execPtpMessageRx (m : PtpMessage) (s : State) : Host.Outcome State Fault Refusal := .next (ptpMessageRx m s)

/-- PTP_MESSAGE_TX (R399, R400): the domain's Delay_Req or Pdelay_Req leaves on its Ethernet port, timestamped. -/
def ptpMessageTx (d : Nat) (s : State) : State :=
  let n := paramNat s Pid.timeDomEthPort d
  if s.mode.current == .reset || s.mode.current == .boot || s.scribe.restarting || !(ethOf s n).linkUp then s
  else
    let q := ((domainOf s d).reqSeq + 1) % 65536
    let s := onDomain d (fun x => { x with reqSeq := q, t3 := txStamp s d n }) s
    let m := if usesP2p s d then ptpBytes 2 54 s d n q else ptpBytes 1 44 s d n q
    onEth n (fun e => { e with sent := (0, m) }) s

/-- PTP_MESSAGE_TX. -/
def execPtpMessageTx (d : Fin 2) (s : State) : Host.Outcome State Fault Refusal := .next (ptpMessageTx d s)

/-- SYNC_TIMEOUT (R401). -/
def execSyncTimeout (d : Fin 2) (s : State) : Host.Outcome State Fault Refusal :=
  .next (lockUpdate d 2 (onDomain d (fun x => { x with syncTimeout := true }) s))

/-- SERVO_TIMEOUT (R401): the host has written nothing for `time.dom[d].servo_timeout_ms`. -/
def execServoTimeout (d : Fin 2) (s : State) : Host.Outcome State Fault Refusal :=
  .next (if s.ticks < (domainOf s d).servoTick + msTicks (paramNat s Pid.timeDomServoTimeoutMs d) then s
    else lockUpdate d 3 (onDomain d (fun x => { x with servoTimeout := true }) s))

/-! ## Host writes -/

/-- Does the time unit run: not in RESET or BOOT (R398)? -/
def timeRuns (s : State) : Bool := s.mode.current != .reset && s.mode.current != .boot

/-- Is an increment inside the range of R423? -/
def incrementOk (v : Nat) : Bool := decide (1373015145185 ≤ v) && decide (v ≤ 1375763924255)

/-- A host write of increment, adjust or servo_state counts for the servo timeout (R401). -/
def servoWritten (d : Fin 2) (s : State) : State := lockUpdate d 1 (onDomain d (fun x => { x with servoTimeout := false, servoTick := s.ticks }) s)

/-- A write of `time.dom[d].increment`, in force from the next tick (R397). -/
def writeIncrement (d : Fin 2) (v : Nat) (s : State) : State :=
  servoWritten d (paramPut Pid.timeDomIncrement d v (onDomain d (fun x => { x with nextIncrement := some v }) s))

/-- A write of `time.dom[d].adjust_ns`, added at the next tick (R397). -/
def writeAdjust (d : Fin 2) (v : Int) (s : State) : State := servoWritten d (onDomain d (fun x => { x with adjust := x.adjust + v }) s)

/-- TIME_DOMAIN_WRITE (R397): refused in MIRROR (R470), or with an increment out of range (R13). -/
def timeDomainWrite (d : Fin 2) (inc : Option Nat) (adj : Option Int) (s : State) : State :=
  if s.mode.current == .mirror || !timeRuns s || (inc.map fun v => !incrementOk v).getD false then s
  else
    let s := match inc with | some v => writeIncrement d v s | none => s
    match adj with | some v => writeAdjust d v s | none => s

/-- TIME_DOMAIN_WRITE. -/
def execTimeDomainWrite (d : Fin 2) (increment : Option Nat) (adjust : Option Int) (s : State) : Host.Outcome State Fault Refusal :=
  .next (timeDomainWrite d increment adjust s)

/-- A write of `time.dom[d].servo_state` (R401). -/
def writeServoState (d : Fin 2) (locked : Bool) (s : State) : State := servoWritten d (paramPut Pid.timeDomServoState d (bit locked) s)

/-- SERVO_STATE_WRITE. -/
def execServoStateWrite (d : Fin 2) (locked : Bool) (s : State) : Host.Outcome State Fault Refusal :=
  .next (if timeRuns s then writeServoState d locked s else s)

/-- Status of a write of `time.select` (R404): BUSY for an UNLOCKED domain, OUT_OF_RANGE for counters too far apart. -/
def timeSelectStatus (s : State) (d : Fin 2) (force : Bool) : Nat :=
  if d = s.time.select || force then 0
  else if !(domainOf s d).locked then 0x31
  else if !domainsNear s then 0x22
  else 0

/-- An accepted write of `time.select` (R404, R406). -/
def writeTimeSelect (d : Fin 2) (s : State) : State :=
  let s := onTime (fun t => { t with hostSelect := d }) (paramPut Pid.timeSelect 0 d.val s)
  if d = s.time.select then s else switchDomain d false s

/-- TIME_SELECT_WRITE (R404). -/
def execTimeSelectWrite (d : Fin 2) (force : Bool) (s : State) : Host.Outcome State Fault Refusal :=
  .next (if timeRuns s && timeSelectStatus s d force == 0 then writeTimeSelect d s else s)

/-! ## The axis -/

/-- The axis steps to its target: the phase of SYNC_IN, by the error of its last valid edge, or else the counter of the selected
domain (R402, R409). [DEDUCED, notes/assumptions/147] -/
def stepAxis (t : TimeUnit) (count : Nat) : TimeUnit :=
  if t.syncEngaged then
    { t with
      axis := ((t.axis : Int) - t.syncDiff * 2 ^ 32).toNat, syncDiff := 0, syncLast := t.syncLast.map fun u => ((u : Int) - t.syncDiff).toNat }
  else { t with axis := count }

/-- AXIS_SLEW_DONE (R402): the difference is closed. [DEDUCED, notes/assumptions/78] -/
def execAxisSlewDone (s : State) : Host.Outcome State Fault Refusal :=
  .next (if s.time.slewing then onTime (fun t => { t with axis := (selectedDomain s).count, slewing := false }) s else s)

/-- Step in microseconds toward the target, saturated to s32. [DESIGN CHOICE, notes/assumptions/81] -/
def stepUs (s : State) : Int :=
  sat 32 (if s.time.syncEngaged then -s.time.syncDiff / 256000 else -(axisOffset s) / (1000 * nsUnits))

/-- A mode transition or a handover also stops the ports. [DESIGN CHOICE, notes/assumptions/81] -/
def stopHeld (s : State) : Bool :=
  (s.mode.inProgress.map fun t => t.number == 8 || t.number == 10 || t.number == 14).getD false || s.pair.step == .stopping

/-- AXIS_STEP (R402): the firing ports have ended their grid periods; each resumes at its first slot 0 after the step. [DEDUCED, notes/assumptions/78; DEDUCED, notes/assumptions/147] -/
def axisStep (s : State) : State :=
  if !s.time.stepPending || portsFire s then s
  else
    let s := post 0x0504 (stepUs s) (bit s.time.syncEngaged) 0 s
    { onTime (fun t => { stepAxis t (selectedDomain s).count with stepPending := false, stepped := true }) s with
      ports := s.ports.map fun x => { x with stopping := x.stopping && stopHeld s, nextSlot := 0 } }

/-- AXIS_STEP. [DEDUCED, notes/assumptions/78] -/
def execAxisStep (s : State) : Host.Outcome State Fault Refusal := .next (axisStep s)

/-! ## SYNC_IN -/

/-- Axis time in LSBs of 3.90625 ps (R408). [DESIGN CHOICE, notes/assumptions/80] -/
def axisLsb (s : State) : Nat := s.time.axis / 2 ^ 32

/-- Distance of `v` from the nearest multiple of `e`, signed. -/
def nearest (v : Int) (e : Nat) : Int :=
  let r := v % (e : Int)
  if 2 * r < e then r else r - e

/-- Clamp to ± `m`. -/
def clamp (m : Nat) (v : Int) : Int := max (-(m : Int)) (min m v)

/-- `sync.enable` set or cleared (R408). -/
def writeSyncEnable (on : Bool) (s : State) : State :=
  let was := paramBool s Pid.syncEnable 0
  let s := paramPut Pid.syncEnable 0 (bit on) s
  if was == on then s
  else if on then onTime (fun t => { t with
    syncEngaged := true, slewing := false, syncValid := 0, syncGood := 0, syncIntegral := 0, syncRate := 0, syncLast := none }) s
  else retarget (onTime (fun t => { t with syncEngaged := false, syncLocked := false, syncStuck := false }) s)

/-- A valid edge updates the axis rate and the lock (R409); `phi` is in LSBs. [DEDUCED, notes/assumptions/147] -/
def syncValidEdge (lsb : Nat) (phi : Int) (s : State) : State :=
  let e := paramNat s Pid.syncPeriodNs 0
  let pull := paramNat s Pid.syncPullPpm 0 * 1000000
  let lock := paramNat s Pid.syncLockNs 0
  let phiNs := phi / 256
  let good := decide (phi.natAbs < 256 * lock)
  let s := onTime (fun t =>
    let i := clamp pull (t.syncIntegral - Config.syncTerm phi (64 * e))
    { t with
      syncLast := some lsb, syncStuck := false, syncPhase := sat 32 phiNs, syncDiff := phi, syncIntegral := i,
      syncRate := clamp pull (i - Config.syncTerm phi (4 * e)), syncGood := if good then t.syncGood + 1 else 0,
      syncLocked := t.syncLocked && decide (phi.natAbs < 1024 * lock) }) s
  if 8 ≤ s.time.syncGood && !s.time.syncLocked then
    post 0x0601 (sat 32 phiNs) 0 0 (onTime (fun t => { t with syncLocked := true }) s)
  else s

/-- An edge while the phase is lost: after 8 consecutive valid ones the axis re-engages (R410). [DEDUCED, notes/assumptions/147] -/
def syncWatchEdge (lsb : Nat) (s : State) : State :=
  let n := s.time.syncValid + 1
  let s := onTime (fun t => { t with syncLast := some lsb, syncStuck := false, syncValid := n }) s
  if 8 ≤ n then onTime (fun t => { t with
    syncEngaged := true, slewing := false, syncValid := 0, syncGood := 0, syncIntegral := 0 }) s
  else s

/-- The difference that a valid edge shows (R402): it is closed by a step where no port fires, by a step of stopped ports where it
exceeds `time.max_slew_ns`, and else by the rate of R409. [DEDUCED, notes/assumptions/147] -/
def syncClose (s : State) : State :=
  let d := s.time.syncDiff
  if d = 0 || s.time.stepPending then s
  else if !portsFire s then onTime (fun t => stepAxis t 0) s
  else if paramNat s Pid.timeMaxSlewNs 0 * 256 < d.natAbs then
    { onTime (fun t => { t with stepPending := true }) s with
      ports := s.ports.map fun x => { x with stopping := x.stopping || x.gridRunning } }
  else s

/-- SYNC_IN_EDGE (R408, R409), `sub` LSBs of 3.90625 ps after the tick. [DEDUCED, notes/assumptions/147] -/
def syncInEdge (sub : Nat) (s : State) : State :=
  if !paramBool s Pid.syncEnable 0 || !timeRuns s then s
  else
    let t := axisLsb s + sub
    let e := 256 * paramNat s Pid.syncPeriodNs 0
    let hold := 256 * paramNat s Pid.tdcCmpHoldoffNs 2
    let chatter := (s.time.syncLast.map fun u => decide ((t - u : Nat) < hold)).getD false
    let stray := s.time.syncLocked && (s.time.syncLast.map fun u =>
      decide (paramNat s Pid.syncWindowPct 0 * e < 100 * (nearest ((t : Int) - u) e).natAbs)).getD false
    if chatter then bump Pid.syncChatter 0 s
    else if stray then bump Pid.syncStray 0 s
    else if s.time.syncEngaged then
      syncClose (syncValidEdge t (nearest ((t : Int) - 256 * paramNat s Pid.syncPhaseNs 0) e) s)
    else syncWatchEdge t s

/-- Where in its tick of 320 LSB an asynchronous edge falls (R408): a free value. [DESIGN CHOICE, notes/assumptions/80] -/
def edgePlace (s : State) : Nat := (drawFree s).1 % 320

/-- SYNC_IN_EDGE. [DESIGN CHOICE, notes/assumptions/80] -/
def execSyncInEdge (s : State) : Host.Outcome State Fault Refusal := .next (syncInEdge (edgePlace s) (drawFree s).2)

/-- SYNC_LOSS (R410): cause 1 no valid edge for 3 × E, 2 stuck. -/
def syncLoss (stuck : Bool) (s : State) : State :=
  let s := if stuck then onTime (fun t => { t with syncStuck := true }) s else s
  if !s.time.syncEngaged then s
  else
    let s := bump Pid.syncLosses 0 (onTime (fun t => { t with
      syncEngaged := false, syncLocked := false, syncValid := 0, syncGood := 0 }) s)
    retarget (post 0x0602 (if stuck then 2 else 1) (paramGet s Pid.syncChatter 0) 0 s)

/-- SYNC_LOSS. -/
def execSyncLoss (stuck : Bool) (s : State) : Host.Outcome State Fault Refusal :=
  .next (if paramBool s Pid.syncEnable 0 then syncLoss stuck s else s)

/-! ## Pulse outputs -/

/-- TOUT_PULSE (R415, R416): the next pulse time has been reached. A time that a forward step passed counts late. [DEDUCED, notes/assumptions/79] -/
def toutPulse (u : Nat) (s : State) : State :=
  match (toutOf s u).next with
  | none => s
  | some t =>
    let now := toutNow s u
    if now < t then s
    else
      let late := decide (t + 2 ≤ now)
      let s := onTout u (fun x => { x with active := true, endsAt := now + paramNat s Pid.toutWidthNs u, next := none }) s
      let s := if paramNat s Pid.toutMode u = 1 then paramPut Pid.toutMode u 0 s
        else if paramNat s Pid.toutMode u = 2 then
          let p := paramNat s Pid.toutPeriodNs u
          onTout u (fun x => { x with next := some (t + ((now - t) / p + 1) * p) }) s
        else s
      if late then post 0x0603 u 0 0 (bump Pid.toutLate u s) else s

/-- TOUT_PULSE. -/
def execToutPulse (u : Fin 4) (s : State) : Host.Outcome State Fault Refusal := .next (if timeRuns s then toutPulse u s else s)

/-- The value that field `f` of output `u` will have once waiting writes apply. -/
def toutField (s : State) (u f : Nat) : Nat :=
  (Store.read (fun k => Store.read paramDefault s.params k) (toutOf s u).writes (paramKey (Pid.toutMode + f) u)).toNat

/-- Status of a write of a field (R13, R415): width below the period, and a GRID start below the port's P. -/
def toutStatus (s : State) (u f : Nat) (v : Int) : Nat :=
  let at_ (g : Nat) : Nat := if g = f then v.toNat else toutField s u g
  let cells := (portCfg s (at_ 7) Pid.gridPeriodCells (at_ 7)).toNat
  if at_ 4 ≤ at_ 5 || at_ 5 < 10 then 0x22
  else if at_ 0 = 3 && cells * 5 ≤ at_ 3 * 2 then 0x22
  else 0

/-- An accepted write of a field: it waits for a pulse in progress, and the next time is recomputed (R416). [DEDUCED, notes/assumptions/79] -/
def writeTout (u f : Nat) (v : Int) (s : State) : State :=
  if (toutOf s u).active then onTout u (fun x => { x with writes := Store.put x.writes (paramKey (Pid.toutMode + f) u) v }) s
  else
    let s := paramPut (Pid.toutMode + f) u v s
    onTout u (fun x => { x with next := toutFirst s u }) s

/-- TOUT_CONFIG_WRITE (R415, R416): `field` counts from `tout[u].mode` in the order of R423. -/
def execToutConfigWrite (u : Fin 4) (field : Fin 8) (v : Int) (s : State) : Host.Outcome State Fault Refusal :=
  .next (if timeRuns s && inRange (Pid.toutMode + field) u v && toutStatus s u field v == 0 then writeTout u field v s else s)

/-! ## The time-interval unit -/

/-- A write of `tdc.arm` outside SURVEY (R419). -/
def writeTdcArm (on : Bool) (s : State) : State :=
  if on then onTdc (fun x => { running := true, resultLsb := x.resultLsb, stampS := x.stampS, stampLsb := x.stampLsb }) s
  else tdcEnd false s

/-- TDC_ARM_WRITE (R419): refused during SURVEY (R422). -/
def execTdcArmWrite (on : Bool) (s : State) : Host.Outcome State Fault Refusal :=
  .next (if s.mode.current == .survey || !timeRuns s then s else writeTdcArm on s)

/-- Result of two edges in LSBs (R420): CLOSE below one LSB, OVF beyond `limit` ticks. [DESIGN CHOICE, notes/assumptions/80; DEDUCED, notes/assumptions/148] -/
def tdcPair (start stop limit : Nat) (s : State) : State :=
  let r : Int := (stop : Int) - start
  if limit * 320 < r.natAbs then tdcMeasured none (onTdc (fun x => { x with ovf := true }) s)
  else if r = 0 then tdcMeasured (some 0) (onTdc (fun x => { x with close := true }) s)
  else tdcMeasured (some r) s

/-- TDC_EDGE in ONE_SIDED mode (R419, R420). -/
def tdcOneSided (isStop : Bool) (lsb : Nat) (s : State) : State :=
  match s.time.tdc.start with
  | none =>
    if isStop then tdcMeasured none (onTdc (fun x => { x with order := true }) s)
    else tdcGrade (onTdc (fun x => { x with start := some lsb }) s)
  | some t => if isStop then tdcPair t lsb (2 ^ 24) s else s

/-- TDC_EDGE in TWO_SIDED mode (R419, R420): the first edge of each kind. -/
def tdcTwoSided (isStop : Bool) (lsb : Nat) (s : State) : State :=
  let s := tdcGrade (onTdc (fun x =>
    { x with start := if isStop then x.start else some (x.start.getD lsb), stop := if isStop then some (x.stop.getD lsb) else x.stop }) s)
  match s.time.tdc.start, s.time.tdc.stop with
  | some a, some b => tdcPair a b (2 ^ 23) s
  | _, _ => s

/-- Do both ends of a measurement name one source (R417)? Comparators 0 and 1 also by the edge, SHOT and LMON by the port. [DEDUCED, notes/assumptions/148] -/
def tdcOneSource (s : State) : Bool :=
  let a := paramNat s Pid.tdcStartSource 0
  a == paramNat s Pid.tdcStopSource 0 &&
  (if a < 2 then paramNat s Pid.tdcStartEdge 0 == paramNat s Pid.tdcStopEdge 0
   else if a < 4 then paramNat s Pid.tdcStartPort 0 == paramNat s Pid.tdcStopPort 0 else true)

/-- Comparator that an end listens to (R417). [DEDUCED, notes/assumptions/148] -/
def tdcComparator (s : State) (isStop : Bool) : Option Nat :=
  match paramNat s (if isStop then Pid.tdcStopSource else Pid.tdcStartSource) 0 with
  | 0 => some 0
  | 1 => some 1
  | 4 => some 2
  | _ => none

/-- Does the hold-off of its comparator hide an edge (R418)? [DEDUCED, notes/assumptions/148] -/
def heldOff (s : State) (isStop : Bool) (lsb : Nat) : Bool :=
  ((tdcComparator s isStop).bind fun i => (vecRead s.time.cmpLast i none).map fun t =>
    decide (lsb < t + 256 * paramNat s Pid.tdcCmpHoldoffNs i)).getD false

/-- The unit used an edge: the hold-off of its comparator starts (R418). [DEDUCED, notes/assumptions/148] -/
def usedEdge (isStop : Bool) (lsb : Nat) (s : State) : State :=
  match tdcComparator s isStop with
  | some i => onTime (fun t => { t with cmpLast := vecUpdate t.cmpLast i fun _ => some lsb }) s
  | none => s

/-- Does the measurement in progress take an edge of this end (R419)? [DEDUCED, notes/assumptions/148] -/
def takesEdge (s : State) (isStop : Bool) : Bool :=
  let x := s.time.tdc
  match paramNat s Pid.tdcMode 0 with
  | 0 => isStop || x.start.isNone
  | 1 => if isStop then x.stop.isNone else x.start.isNone
  | _ => !isStop

/-- Can an end see an edge (R422)? SHOT and LMON edges occur only while their port fires. -/
def edgeLive (s : State) (isStop : Bool) : Bool :=
  let source := paramNat s (if isStop then Pid.tdcStopSource else Pid.tdcStartSource) 0
  let port := paramNat s (if isStop then Pid.tdcStopPort else Pid.tdcStartPort) 0
  (source != 2 && source != 3) || (portsFire s && (portOf s port).gridRunning)

/-- TDC_EDGE (R417 to R422): an edge of a running series at `lsb` LSBs of 3.90625 ps on the axis. With one source for both ends, the
first edge starts and the next one stops. [DESIGN CHOICE, notes/assumptions/80; DEDUCED, notes/assumptions/148] -/
def tdcEdge (isStop : Bool) (lsb : Nat) (s : State) : State :=
  let isStop := if tdcOneSource s then s.time.tdc.start.isSome else isStop
  if !s.time.tdc.running || !edgeLive s isStop || heldOff s isStop lsb || !takesEdge s isStop then s
  else
    let s := usedEdge isStop lsb s
    match paramNat s Pid.tdcMode 0 with
    | 0 => tdcOneSided isStop lsb s
    | 1 => tdcTwoSided isStop lsb s
    | _ =>
      if isStop then s
      else
        let s := tdcGrade (onTdc (fun x => { x with
          start := some lsb, stampS := lsb / 256000000000, stampLsb := lsb % 256000000000 }) s)
        tdcMeasured none s

/-- TDC_EDGE. [DESIGN CHOICE, notes/assumptions/80] -/
def execTdcEdge (isStop : Bool) (lsb : Nat) (s : State) : Host.Outcome State Fault Refusal := .next (tdcEdge isStop lsb s)

/-- TDC_TIMEOUT (R420): the measurement that an edge began has no result. -/
def execTdcTimeout (s : State) : Host.Outcome State Fault Refusal :=
  .next (let x := s.time.tdc
    if x.running && (x.start.isSome || x.stop.isSome) then tdcMeasured none (onTdc (fun x => { x with ovf := true }) s) else s)

end Sys2Proof.Machine
end

