-- ==== Sys2Proof/Machine/Params.lean ====
section
/-! DEFINITION. Parameters as the mailbox sees them (R11 to R14, R133): what a read of each returns, what a write of each is
refused with, what an accepted write does; PARAM_GET, PARAM_GET_BLOCK, PARAM_SET and STAGE. -/

namespace Sys2Proof.Machine

/-! ## Reads -/

/-- What an identifier carries beside the table's own (R133): the port, or the DRAM port. -/
def unitOf (id : Nat) : Nat :=
  if 0x1000 ≤ id ∧ id < 0x1400 then (id - 0x1000) / 256 else if 0x2C40 ≤ id ∧ id < 0x2C60 then 1 else 0

/-- Clusters that are not gated (R18, R244): those with a bound or a busy lane; in MIRROR every lane has its self-test (R269). [DESIGN CHOICE, notes/assumptions/132] -/
def clustersAwake (s : State) : Nat :=
  let plan := if flowMode s == .sentinel then s.herder.sentinel else s.herder.run
  let bound := if flowMode s == .run || flowMode s == .sentinel then plan.pieces.map (·.lane) else []
  let busy := (s.serif.lanes.filter fun e => e.2.piece.isSome || !e.2.next.isEmpty).map (·.1)
  let replay := ((s.inkstone.jobs.map (·.2)).filter fun j => j.state == 1).filterMap (·.lane)
  if s.mode.current == .mirror then 0xFFFF
  else bits ((List.range 16).map fun c => (bound ++ busy ++ replay).any fun l => l / 8 == c)

/-- Lanes of a zone's grant as `zone[z].lanes` packs them (R214). -/
def zoneLanes (s : State) (z : Nat) : Nat :=
  match grantOf (planInForce s (zonePort z)) z with
  | some g => if g.laneCount = 0 then 0 else g.firstLane % 256 * 256 + g.laneCount % 256
  | none => 0

/-- Instructions that the library's programs hold (R266). -/
def programWords (s : State) : Nat := ((s.serif.library.map fun e => e.2.code.length)).sum

/-- Lanes that failed the last self-test (R269). -/
def selftestFailed (s : State) : Nat := ((List.range 128).filter fun l => s.serif.failed.getLsbD l).length

/-- Version of the running image (R101). -/
def fwVersion (s : State) : BitVec 32 := ((slotOf s s.firmware.running).version).getD Config.factoryVersion

/-- Last accepted reference of a port, or zeros (R283, R301). -/
def lastReference (s : State) (p : Nat) : Int × Int := (ramanOf s p).lastRef.getD (0, 0)

/-- Parameters that a read computes from the state: identifier, and value by state, unit and index. -/
def liveTable : List (Nat × (State → Nat → Nat → Int)) := [
  (Pid.idGrade, fun _ _ _ => bit Config.gradeIndustrial), (Pid.idStraps, fun s _ _ => idStraps s),
  (Pid.idJtagIdcode, fun _ _ _ => Config.jtagIdcode.toNat),
  (Pid.fwVersion, fun s _ _ => (fwVersion s).toNat), (Pid.fwSlot, fun s _ _ => s.firmware.running.val),
  (Pid.fwState, fun s _ _ => bit (!(slotOf s s.firmware.running).confirmed)), (Pid.fwSecverMin, fun s _ _ => s.firmware.secverMin),
  (Pid.modeCurrent, fun s _ _ => modeCode s.mode.current), (Pid.modePrevious, fun s _ _ => modeCode s.mode.previous),
  (Pid.modeResetRecord, fun s _ _ => s.mode.resetRecord.toNat), (Pid.modeFaultCode, fun s _ _ => s.mode.faultCode),
  (Pid.cfgActiveEpoch, fun s _ _ => s.banks.active.epoch),
  (Pid.cfgPreviousEpoch, fun s _ _ => ((s.banks.previous.map (·.epoch)).getD 0xFFFFFFFF : Nat)),
  (Pid.cfgBankState, fun s _ _ => bit s.banks.trial), (Pid.cfgRecordFormat, fun s _ _ => s.banks.active.format),
  (Pid.cfgConfirmRemainingS, fun s _ _ => confirmRemaining s),
  (Pid.powerRailStatus, fun s _ _ => s.power.railStatus.toNat), (Pid.powerResetCause, fun s _ _ => s.power.resetCause.toNat),
  (Pid.powerFeedStatus, fun s _ _ => feedStatus s), (Pid.clkStatus, fun s _ _ => clkStatus s),
  (Pid.clkPllStatus, fun s _ _ => pllStatus s), (Pid.clkRefinFreqHz, fun s _ _ => s.clocks.refinHz),
  (Pid.clkOcxoFreqHz, fun s _ _ => s.clocks.ocxoHz)] 

/-- Live parameters of the host links and of time. -/
def liveTable1 : List (Nat × (State → Nat → Nat → Int)) := [
  (Pid.hostQueueBytes, fun s _ q => (queueOf s q).bytes), (Pid.hostEthMac, fun _ _ n => (Config.macAddress n).toNat),
  (Pid.hostEthStatus, fun s _ n => ethStatus s n), (Pid.hostFlashSizeMib, fun s _ _ => s.links.flashMib),
  (Pid.hostFlashJedecId, fun s _ _ => s.links.flashJedec), (Pid.hostJournalNewest, fun s _ _ => s.journal.newest),
  (Pid.timeSelect, fun s _ _ => s.time.select.val), (Pid.timeStatus, fun s _ _ => timeStatus s),
  (Pid.timeAxisOffsetNs, fun s _ _ => axisOffset s / nsUnits), (Pid.timeDomAdjustNs, fun _ _ _ => 0),
  (Pid.timeDomOffsetNs, fun s _ d => (domainOf s d).offsetNs), (Pid.timeDomPathDelayNs, fun s _ d => (domainOf s d).pathDelayNs),
  (Pid.timeDomMeasSeq, fun s _ d => (domainOf s d).measSeq), (Pid.timeDomMasterId, fun s _ d => (domainOf s d).masterId),
  (Pid.timeDomStatus, fun s _ d => domainStatus s d), (Pid.timeDomNowS, fun s _ d => (netTime (domainOf s d).count).sec),
  (Pid.timeDomNowNs, fun s _ d => (netTime (domainOf s d).count).ns), (Pid.tdcArm, fun s _ _ => bit s.time.tdc.running),
  (Pid.tdcResultLsb, fun s _ _ => s.time.tdc.resultLsb), (Pid.tdcMeanLsb, fun s _ _ => s.time.tdc.meanLsb),
  (Pid.tdcSdevLsb, fun s _ _ => s.time.tdc.sdevLsb), (Pid.tdcDone, fun s _ _ => s.time.tdc.made),
  (Pid.tdcStatus, fun s _ _ => tdcStatus s), (Pid.tdcStampS, fun s _ _ => s.time.tdc.stampS),
  (Pid.tdcStampLsb, fun s _ _ => s.time.tdc.stampLsb), (Pid.gridIntervalDevCells, fun s _ p => intervalDevOf s p),
  (Pid.syncPhaseErrNs, fun s _ _ => s.time.syncPhase)]

/-- Live parameters of the ports, Raman, housekeeping, zones and Serif. [DESIGN CHOICE, notes/assumptions/120] -/
def liveTable2 : List (Nat × (State → Nat → Nat → Int)) := [
  (Pid.portLmonStatus, fun s p _ => lmonStatus s p), (Pid.portStrokeLatencyCells, fun s p _ => strokeLatency s p),
  (Pid.portCompTaps, fun s p _ => portTaps s p), (Pid.portCompBlock, fun s p _ => portBlock s p),
  (Pid.portCompShift, fun s p _ => compShift s p), (Pid.portStrokeStatus, fun s p _ => strokeStatus s p),
  (Pid.portFadePpm, fun s p _ => (rollStats s.ticks (portOf s p)).fadePpm),
  (Pid.portHeldPpm, fun s p _ => (rollStats s.ticks (portOf s p)).heldPpm),
  (Pid.ramanShotsDone, fun s _ p => (ramanOf s p).shots), (Pid.ramanStatus, fun s _ p => ramanStatus s p),
  (Pid.ramanLnRef, fun s _ p => (lastReference s p).1), (Pid.ramanTRef, fun s _ p => (lastReference s p).2),
  (Pid.rtdCalGain, fun s _ k => (rtdCal s k).1), (Pid.rtdCalOffsetMohm, fun s _ k => (rtdCal s k).2),
  (Pid.rtdResultMc, fun s _ k => (rtdOf s k).resultMc), (Pid.rtdResultMohm, fun s _ k => (rtdOf s k).resultMohm),
  (Pid.rtdStatus, fun s _ k => rtdStatus s k), (Pid.hkResult, fun s _ i => (vecRead s.hk.result i 0).toNat),
  (Pid.hkEventResult, fun s _ e => (vecRead s.hk.eventResult e 0).toNat), (Pid.zoneStatus, fun s _ z => zoneStatus s z),
  (Pid.zoneGrantedRateDiv, fun s _ z => ((grantOf (planInForce s (zonePort z)) z).map (·.div)).getD 0),
  (Pid.zoneLanes, fun s _ z => zoneLanes s z), (Pid.herderLanesUsed, fun s _ _ => s.herder.run.lanes.toList.sum),
  (Pid.serifStatus, fun s _ _ => serifStatus s), (Pid.serifProgWordsFree, fun s _ _ => (8192 - programWords s : Nat)),
  (Pid.serifClustersAwake, fun s _ _ => clustersAwake s), (Pid.serifSelftestFailed, fun s _ _ => selftestFailed s),
  (Pid.seqState, fun s _ i => validMask (seqState (globalBank s) (i / 32) (i % 32)))]

/-- Live parameters of the Pointer, the codec and the Kennel. -/
def liveTable3 : List (Nat × (State → Nat → Nat → Int)) := [
  (Pid.ptrStatus, fun s _ _ => ptrStatus s), (Pid.ptrOpenRecords, fun s _ _ => (openRecords s).length),
  (Pid.seqStatus, fun s _ q => seqStatus s q), (Pid.seqStateNow, fun s _ q => (seqOf s q).state),
  (Pid.seqCounterNow, fun s _ i => (vecRead (seqOf s (i / 32)).counters (i % 32) 0).toNat), (Pid.inkStatus, fun s _ _ => inkStatus s),
  (Pid.inkRingBitsPerPoint, fun s _ _ => ringBitsPerPoint s), (Pid.ringSpanMs, fun s _ _ => ringSpanMs s),
  (Pid.ringBlockNumber, fun s _ _ => s.inkstone.nextBlock.toNat),
  (Pid.memReqMbps, fun s _ i => Config.requesterMbps i s.ticks),
  (Pid.kennelRegionPages, fun s _ y => (vecRead s.memory.regions y 0 : Nat)), (Pid.kennelRegionUsed, fun s _ y => regionUsed s y),
  (Pid.kennelPagesFree, fun s _ _ => kennelFree s), (Pid.kennelHistoryQuotaPages, fun s _ _ => vecRead s.memory.regions 3 0 / 2)]

/-- Live parameters of memory ports, the pair, the panel, calibration and logs. -/
def liveTable4 : List (Nat × (State → Nat → Nat → Int)) := [
  (Pid.memPortTrainedRd, fun s a l => (vecRead (dramOf s a).delays.rd l 0 : Nat)), (Pid.memPortTrainedWr, fun s a l => (vecRead (dramOf s a).delays.wr l 0 : Nat)),
  (Pid.memPortEyeSteps, fun s a l => (vecRead (dramOf s a).delays.eye l 0 : Nat)), (Pid.memPortStatus, fun s a _ => memStatus s a),
  (Pid.memPortCapacityMib, fun s a _ => (dramOf s a).capacityMib), (Pid.memPortRetiredPages, fun s a _ => (dramOf s a).retired.length),
  (Pid.memPortPasrMask, fun s a _ => (dramOf s a).pasrMask.toNat), (Pid.pairStatus, fun s _ _ => pairStatus s),
  (Pid.pairCopyEpoch, fun s _ _ => s.pair.copyEpoch.toNat), (Pid.pairLinkVersion, fun s _ _ => s.pair.linkVersion),
  (Pid.pairTimeOffsetNs, fun s _ _ => s.pair.timeOffset), (Pid.safetyStatus, fun s _ _ => safetyStatus s),
  (Pid.safetyPortRestart, fun _ _ _ => 0), (Pid.safetyEstopRelease, fun _ _ _ => 0),
  (Pid.safetySticky, fun s _ _ => s.safety.sticky.toNat), (Pid.ledStatus, fun s _ j => ledStatus s j),
  (Pid.ledCfbTrim, fun s _ c => (vecRead s.safety.cfbTrim c 0 : Nat)), (Pid.panelInputStatus, fun s _ _ => panelStatus s),
  (Pid.panelLocateMask, fun s _ _ => s.safety.locateMask.toNat), (Pid.calStatus, fun s _ _ => calStatus s),
  (Pid.teleSequence, fun s _ _ => s.calib.teleSeq.toNat), (Pid.logNewest, fun s _ _ => s.log.newest),
  (Pid.logOldest, fun s _ _ => ((s.log.entries.getLast?.map (·.number)).getD 0 : Nat)), (Pid.logMaxErases, fun s _ _ => s.log.maxErases),
  (Pid.integStatus, fun s _ _ => integStatus s)]

/-- The port to which an at-commit parameter belongs, none for a value of no port (R93). [DEDUCED, notes/assumptions/139] -/
def idPort (id idx : Nat) : Option Nat :=
  let outer := match (paramRow id).map (·.family) with
    | some (.idx2 _ _) => idx / 32
    | _ => idx
  if 0x1000 ≤ id ∧ id < 0x1400 then some ((id - 0x1000) / 256)
  else if id / 256 = 0x18 then some (zonePort outer)
  else if id = Pid.gridPeriodCells ∨ id = Pid.gridOffsetCells ∨ (Pid.ramanEnable ≤ id ∧ id < 0x1430) ∨ id = Pid.safetyLocatorLed then some outer
  else none

/-- The value in force of the parameter an item names (R93, R133): a port's from its own switch on. [DEDUCED, notes/assumptions/139] -/
def readParam (s : State) (id idx : Nat) : Int :=
  match (liveTable ++ liveTable1 ++ liveTable2 ++ liveTable3 ++ liveTable4).find? fun e => e.1 == canonId id with
  | some e => e.2 s (unitOf id) idx
  | none =>
    match effectOf id, idPort id idx with
    | .atCommit, some p => bankRead (portBank s p) id idx
    | _, _ => paramGet s id idx

/-- The value a bank read returns: only at-commit parameters live in a bank (R133). -/
def readBank (s : State) (b : Bank) (id idx : Nat) : Int :=
  if effectOf id == .atCommit then bankValue b (paramKey id idx) else readParam s id idx

/-- The value for a bank code of PARAM_GET; none for an empty PREVIOUS. -/
def readCode (s : State) (code id idx : Nat) : Option Int :=
  if code = 0 then some (readParam s id idx) else (bankOfCode s code).map fun b => readBank s b id idx

/-! ## Writes -/

/-- Is a row's type signed? -/
def rowSigned (d : ParamDef) : Bool :=
  match d.range with
  | .span lo _ => decide (lo < 0)
  | _ => false

/-- The value of an item's eight bytes (R133). -/
def itemValue (d : ParamDef) (raw : Nat) : Int := if rowSigned d then signed 64 raw else raw

/-- Channels that the panel drives: the indicator, the locators and the status lamp (R507, R513). [DEDUCED, notes/assumptions/69] -/
def panelDrives (s : State) (j : Nat) : Bool :=
  j == indicatorLed s || allPorts.any (fun p => j == locatorLed s p) || statusChannel s j

/-- Channels that may not be disabled (R507). [DEDUCED, notes/assumptions/69] -/
def mustLight (s : State) (j : Nat) : Bool :=
  j == indicatorLed s || (profilePort s && allPorts.any fun p => portEnabled s p && j == locatorLed s p)

/-- Refusals that a parameter's own rule names, beyond R13 and R14: 0 for none. A Pt1000 channel takes no 1.0 mA (R285). [DEDUCED, notes/assumptions/69] -/
def specialStatus (s : State) (force : Bool) (id idx : Nat) (v : Int) : Nat :=
  let c := canonId id
  if c = Pid.timeSelect then timeSelectStatus s (if v = 0 then 0 else 1) force
  else if c = Pid.timeDomIncrement || c = Pid.timeDomAdjustNs then (if s.mode.current == .mirror then 0x30 else 0)
  else if c = Pid.syncPhaseNs then (if v < paramGet s Pid.syncPeriodNs 0 then 0 else 0x22)
  else if Pid.toutMode ≤ c ∧ c < Pid.toutMode + 8 then toutStatus s idx (c - Pid.toutMode) v
  else if c = Pid.tdcArm then (if s.mode.current == .survey then 0x31 else 0)
  else if c = Pid.memPortRateMts then (if s.mode.current == .config || s.mode.current == .dormant then 0 else 0x30)
  else if c = Pid.hostQueueRingBase || c = Pid.hostQueueRingEntries then (if (queueOf s idx).enabled then 0x31 else 0)
  else if c = Pid.ledEnable then (if v = 0 && mustLight s idx then 0x31 else 0)
  else if c = Pid.ledBrightness then (if panelDrives s idx then 0x31 else 0)
  else if c = Pid.rtdCurrent then (if v = 1000 ∧ paramNat s Pid.rtdType idx = 1 then 0x22 else 0)
  else if c = Pid.rtdType then (if v = 1 ∧ paramNat s Pid.rtdCurrent idx = 1000 then 0x22 else 0)
  else 0

/-- Status of one item of PARAM_SET (R13, R14, R133); `staging` asks for an at-commit parameter. -/
def itemStatus (s : State) (staging force : Bool) (id idx raw : Nat) : Nat :=
  match paramItem id idx with
  | none => 0x20
  | some d =>
    let v := itemValue d raw
    if d.access == .ro then 0x21
    else if staging && d.effect != .atCommit then 0x20
    else if !rangeOk d.range v then 0x22
    else
      match d.access with
      | .w1c _ reserved => if v.toNat &&& reserved = 0 then 0 else 0x20
      | _ => specialStatus s force id idx v

/-- Write-one-to-clear bits: identifier, and what the bits written 1 clear, by unit, index and value (R14). -/
def clearTable : List (Nat × (Nat → Nat → Nat → State → State)) := [
  (Pid.modeResetRecord, fun _ _ v => onMode fun x => { x with resetRecord := x.resetRecord &&& ~~~(BitVec.ofNat 8 v) }),
  (Pid.powerResetCause, fun _ _ v => onPower fun x => { x with resetCause := x.resetCause &&& ~~~(BitVec.ofNat 6 v) }),
  (Pid.clkPllStatus, fun _ _ v => onClk fun x => { x with lossSeen := x.lossSeen &&& ~~~(BitVec.ofNat 5 (v / 256)) }),
  (Pid.hostEthStatus, fun _ n v => onEth n fun x => { x with rxErrSeen := x.rxErrSeen && !hasBit v 5 }),
  (Pid.timeStatus, fun _ _ v => onTime fun x => { x with stepped := x.stepped && !hasBit v 10 }),
  (Pid.timeDomStatus, fun _ d v => onDomain d fun x => { x with masterChanged := x.masterChanged && !hasBit v 3 }),
  (Pid.portLmonStatus, fun p _ v => onPort p fun x => { x with
    missSeen := x.missSeen && !hasBit v 2, lightSeen := x.lightSeen && !hasBit v 4 }),
  (Pid.portStrokeStatus, fun p _ v => onPort p fun x => { x with
    rebased := x.rebased && !hasBit v 2, lostSeen := x.lostSeen && !hasBit v 3, satSeen := x.satSeen && !hasBit v 4 }),
  (Pid.ramanStatus, fun _ p v => onRaman p fun x => { x with
    maskSeen := x.maskSeen && !hasBit v 2, darkStaleSeen := x.darkStaleSeen && !hasBit v 5 }),
  (Pid.rtdStatus, fun _ k v => onRtd k fun x => { x with
    calRejected := x.calRejected && !hasBit v 2, faultSeen := x.faultSeen && !hasBit v 3 }),
  (Pid.zoneStatus, fun _ z v => onZone z fun x => { x with
    missSeen := x.missSeen && !hasBit v 5, historyLost := x.historyLost && !hasBit v 6 }),
  (Pid.serifStatus, fun _ _ v s => { s with serif := { s.serif with status := s.serif.status &&& ~~~(BitVec.ofNat 6 (v % 32)) } }),
  (Pid.ptrStatus, fun _ _ v => onPtr fun x => { x with
    openLimitSeen := x.openLimitSeen && !hasBit v 3, overwriteSeen := x.overwriteSeen && !hasBit v 4 }),
  (Pid.seqStatus, fun _ q v => onSeq q fun x => { x with
    disarmedByCommit := x.disarmedByCommit && !hasBit v 2, missedSeen := x.missedSeen && !hasBit v 7 }),
  (Pid.inkStatus, fun _ _ v s => { s with inkstone := { s.inkstone with
    selfcheckSeen := s.inkstone.selfcheckSeen && !hasBit v 0, decodeErrSeen := s.inkstone.decodeErrSeen && !hasBit v 1 } }),
  (Pid.memPortStatus, fun a _ v => onDram a fun x => { x with
    trainedKept := x.trainedKept && !hasBit v 4, ueSeen := x.ueSeen && !hasBit v 8, hammerSeen := x.hammerSeen && !hasBit v 9 }),
  (Pid.safetySticky, fun _ _ v => onSafety fun x => { x with sticky := x.sticky &&& ~~~(BitVec.ofNat 9 v) }),
  (Pid.ledStatus, fun _ j v => onSafety fun x => { x with
    leds := vecUpdate x.leds j fun l => { l with faultSeen := l.faultSeen && !hasBit v 5 } }),
  (Pid.calStatus, fun _ _ v => onCal fun x => { x with rejectSeen := x.rejectSeen && !hasBit v 8 }),
  (Pid.integStatus, fun _ _ v => onCal fun x => { x with
    xresync := x.xresync && !hasBit v 0, xovf := x.xovf && !hasBit v 1, tornSeen := x.tornSeen && !hasBit v 2 })]

/-- `host.oxras_udp_enable` and `host.oxras_udp_port`: clearing, or a change, ends the Ethernet session (R147). -/
def udpTransport (enable : Bool) (port : Nat) (s : State) : State :=
  let ends := !enable || port != paramNat s Pid.hostOxrasUdpPort 0
  let s := paramPut Pid.hostOxrasUdpPort 0 port (paramPut Pid.hostOxrasUdpEnable 0 (bit enable) s)
  if ends then endSession 2 s else s

/-- UDP_TRANSPORT_WRITE (R147). -/
def execUdpTransportWrite (enable : Bool) (port : Nat) (s : State) : Host.Outcome State Fault Refusal :=
  .next (if 1024 ≤ port ∧ port ≤ 65535 then udpTransport enable port s else s)

/-- Writes that act on more than the stored value: identifier, and the action by unit, index and value. -/
def actionTable : List (Nat × (Nat → Nat → Int → State → State)) := [
  (Pid.clkRefSelect, fun _ _ v => writeRefSelect v.toNat), (Pid.timeSelect, fun _ _ v => writeTimeSelect (if v = 0 then 0 else 1)),
  (Pid.timeDomIncrement, fun _ d v => writeIncrement (if d = 0 then 0 else 1) v.toNat),
  (Pid.timeDomAdjustNs, fun _ d v => writeAdjust (if d = 0 then 0 else 1) v),
  (Pid.timeDomServoState, fun _ d v => writeServoState (if d = 0 then 0 else 1) (v != 0)),
  (Pid.tdcArm, fun _ _ v => writeTdcArm (v != 0)), (Pid.syncEnable, fun _ _ v => writeSyncEnable (v != 0)),
  (Pid.memPortRateMts, fun a _ v => writeRate a v.toNat), (Pid.ptrMasterArm, fun _ _ v s => updateMasterArm 0 (paramPut Pid.ptrMasterArm 0 v s)),
  (Pid.ptrArmBus, fun _ _ v s => updateMasterArm 0 (paramPut Pid.ptrArmBus 0 v s)),
  (Pid.portDasGain, fun p _ v => dasGainWrite p v.toNat), (Pid.safetyHostEnable, fun _ _ v => hostEnable v.toNat),
  (Pid.safetyPortRestart, fun _ _ v => portRestart v.toNat), (Pid.safetyEstopRelease, fun _ _ v s => if v = 0 then s else estopRelease 0 s),
  (Pid.panelLocateMask, fun _ _ v => locateMask v.toNat),
  (Pid.ledEnable, fun _ j v s => settle s (paramPut Pid.ledEnable j v s)), (Pid.ledBrightness, fun _ j v s => relight (paramPut Pid.ledBrightness j v s)),
  (Pid.panelStatusBrightness, fun _ _ v s => relight (paramPut Pid.panelStatusBrightness 0 v s)),
  (Pid.hostOxrasUdpEnable, fun _ _ v s => udpTransport (v != 0) (paramNat s Pid.hostOxrasUdpPort 0) s),
  (Pid.hostOxrasUdpPort, fun _ _ v s => udpTransport (paramBool s Pid.hostOxrasUdpEnable 0) v.toNat s),
  (Pid.logFlashRatePerH, fun _ _ v s => paramPut Pid.logFlashRatePerH 0 v (logAccrue s)),
  (Pid.rtdType, fun _ k v s => rtdWritten k (paramPut Pid.rtdType k v s)),
  (Pid.rtdCurrent, fun _ k v s => rtdWritten k (paramPut Pid.rtdCurrent k v s))]

/-- An accepted write (R14): a bit field clears, an at-commit parameter is staged, others apply as they say. [DESIGN CHOICE, notes/assumptions/17] -/
def writeParam (id idx : Nat) (v : Int) (s : State) : State :=
  let c := canonId id
  let u := unitOf id
  match clearTable.find? fun e => e.1 == c with
  | some e => e.2 u idx v.toNat s
  | none =>
    if Pid.toutMode ≤ c ∧ c < Pid.toutMode + 8 then writeTout idx (c - Pid.toutMode) v s
    else
      match actionTable.find? fun e => e.1 == c with
      | some e => e.2 u idx v s
      | none =>
        match effectOf id with
        | .atCommit => stageValue id idx v s
        | .nextRound => onPort u (fun x => { x with nextRound := Store.put x.nextRound (paramKey id idx) v }) s
        | .atModeEntry => { s with modeEntry := Store.put s.modeEntry (paramKey id idx) v }
        | _ => paramPut id idx v s

/-! ## The list commands -/

/-- Items of a list request (R133): identifier, index and raw value. [DESIGN CHOICE, notes/assumptions/17] -/
def requestItems (p : List Byte) : List (Nat × Nat × Nat) :=
  (List.range (field p 0 2)).map fun i => (field p (4 + 12 * i) 2, field p (6 + 12 * i) 2, field p (8 + 12 * i) 8)

/-- Apply a list: each item is judged on what the items before it leave, and the first that fails gives its index and status
and undoes all (R133). [DESIGN CHOICE, notes/assumptions/17] -/
def applyItems (staging force : Bool) (n : Nat) (items : List (Nat × Nat × Nat)) (s : State) : Except (Nat × Nat) State :=
  match items with
  | [] => .ok s
  | (id, idx, raw) :: t =>
    let st := itemStatus s staging force id idx raw
    if st ≠ 0 then .error (n, st)
    else
      let v := ((paramItem id idx).map fun d => itemValue d raw).getD 0
      applyItems staging force (n + 1) t (writeParam id idx v s)

/-- Journal `k` steps and end the entry DONE. -/
def journalSteps (n k : Nat) (s : State) : State :=
  journalEnd n .done 0 0 (forEach (List.range k) (fun _ s => journalStep n s) s)

/-- PARAM_SET (R133): the detail of OK counts the items that went to PENDING. [DESIGN CHOICE, notes/assumptions/17] -/
def paramSet (r : Request) (s : State) : State :=
  let items := requestItems r.payload
  let staged := (items.filter fun i => effectOf i.1 == .atCommit).length
  match applyItems false (hasBit r.flags 4) 0 items s with
  | .error (i, st) => refuse r st i s
  | .ok _ =>
    withJournal r items.length (fun n s =>
      match applyItems false (hasBit r.flags 4) 0 items s with
      | .ok t => answerWork r n items.length staged (journalSteps n items.length t)
      | .error _ => s) s

/-- PARAM_SET. -/
def execParamSet (s : State) : Host.Outcome State Fault Refusal := .next (runCommand 0x0101 paramSet s)

/-- STAGE (R133): with RESTART, PENDING is first a copy of ACTIVE. [DESIGN CHOICE, notes/assumptions/17] -/
def stage (r : Request) (s : State) : State :=
  let items := requestItems r.payload
  let flags := field r.payload 2 1
  let base (s : State) : State :=
    if hasBit flags 0 then onBanks (fun b => { b with pending := some b.active }) s else s
  if 1 < flags then refuse r 0x20 0 s
  else
    match applyItems true false 0 items (base s) with
    | .error (i, st) => refuse r st i s
    | .ok _ =>
      withJournal r items.length (fun n s =>
        match applyItems true false 0 items (base s) with
        | .ok t => answerWork r n items.length 0 (journalSteps n items.length t)
        | .error _ => s) s

/-- STAGE. -/
def execStage (s : State) : Host.Outcome State Fault Refusal := .next (runCommand 0x0200 stage s)

/-- The answer of a list read (R133). -/
def answerItems (r : Request) (items : List (List Byte)) (s : State) : State :=
  answer r 0 0 (leBytes 2 items.length ++ leBytes 2 0 ++ items.flatten) s

/-- PARAM_GET (R133). -/
def paramGetCmd (r : Request) (s : State) : State :=
  let code := field r.payload 2 1
  let names := (List.range (field r.payload 0 2)).map fun i => (field r.payload (4 + 4 * i) 2, field r.payload (6 + 4 * i) 2)
  if 2 < code then refuse r 0x20 0 s
  else if code = 2 && s.banks.previous.isNone then refuse r 0x20 0xFF0A s
  else
    match (names.zipIdx).find? fun e => (paramItem e.1.1 e.1.2).isNone with
    | some e => refuse r 0x20 e.2 s
    | none => answerItems r (names.map fun n => itemBytes n.1 n.2 ((readCode s code n.1 n.2).getD 0)) s

/-- PARAM_GET. -/
def execParamGet (s : State) : Host.Outcome State Fault Refusal := .next (runCommand 0x0100 paramGetCmd s)

/-- PARAM_GET_BLOCK (R133): the identifiers of the span that are defined; one whose family lacks the index refuses the request
(R13). [DEDUCED, notes/assumptions/114] -/
def paramGetBlock (r : Request) (s : State) : State :=
  let first := field r.payload 0 2
  let idx := field r.payload 2 2
  let span := field r.payload 4 2
  let code := field r.payload 6 1
  if span = 0 || 339 < span || 2 < code then refuse r 0x20 0 s
  else if code = 2 && s.banks.previous.isNone then refuse r 0x20 0xFF0A s
  else
    let ids := ((List.range span).map (first + ·)).filter fun id => decide (id < 65536) && (paramRow id).isSome
    match ids.findIdx? fun id => (paramItem id idx).isNone with
    | some i => refuse r 0x20 i s
    | none => answerItems r (ids.map fun id => itemBytes id idx ((readCode s code id idx).getD 0)) s

/-- PARAM_GET_BLOCK. -/
def execParamGetBlock (s : State) : Host.Outcome State Fault Refusal := .next (runCommand 0x0102 paramGetBlock s)

end Sys2Proof.Machine
end

