-- ==== Sys2Proof/Machine/Programs.lean ====
section
/-! DEFINITION. Zone records as commands (R237 to R239) and USER programs (R258, R259, R262 to R266): the checker, PROG_LOAD,
PROG_DELETE and PROG_LIST. -/

namespace Sys2Proof.Machine

/-! ## Zone records -/

/-- Fields of a zone record as parameter items (R214, R237): identifier, index and value. `v2` says that the session is of
version 2.x, in which the class is B (R124). -/
def recordItems (v2 : Bool) (z : Nat) (b : List Byte) : List (Nat × Nat × Nat) :=
  let flag (i : Nat) : Nat := bit (hasBit (field b 5 1) i)
  [(Pid.zoneEnable, z, flag 0), (Pid.zoneRecipe, z, field b 3 1), (Pid.zoneClass, z, if v2 then 1 else field b 4 1),
   (Pid.zoneFirstCell, z, field b 8 4), (Pid.zoneLastCell, z, field b 12 4), (Pid.zonePitchCells, z, field b 16 2),
   (Pid.zoneGaugeCells, z, field b 18 2), (Pid.zoneRateDiv, z, field b 20 2), (Pid.zoneMaxHalvings, z, field b 7 1),
   (Pid.zoneIntegrateRounds, z, field b 22 2), (Pid.zoneSpectrumLen, z, field b 24 2), (Pid.zoneBandCount, z, field b 26 1),
   (Pid.zoneQueue, z, field b 6 1), (Pid.zoneRing, z, flag 1), (Pid.zoneCompress, z, flag 2), (Pid.zoneFeatures, z, flag 3),
   (Pid.zoneProgram, z, field b 27 1)] ++
  (List.range 8).flatMap fun k =>
    [(Pid.zoneBandLoHz, idx2 z k, field b (28 + 4 * k) 2), (Pid.zoneBandHiHz, idx2 z k, field b (30 + 4 * k) 2)]

/-- The zone record of a zone in a bank (R237); in a 2.x session the class byte is reserved. -/
def zoneRecord (v2 : Bool) (b : Bank) (z : Nat) : List Byte :=
  let v (id : Nat) : Nat := (bankRead b id z).toNat
  leBytes 2 z ++ leBytes 1 (zonePort z) ++ leBytes 1 (v Pid.zoneRecipe) ++ leBytes 1 (if v2 then 0 else v Pid.zoneClass) ++
  leBytes 1 (bits [v Pid.zoneEnable != 0, v Pid.zoneRing != 0, v Pid.zoneCompress != 0, v Pid.zoneFeatures != 0]) ++
  leBytes 1 (v Pid.zoneQueue) ++ leBytes 1 (v Pid.zoneMaxHalvings) ++ leBytes 4 (v Pid.zoneFirstCell) ++
  leBytes 4 (v Pid.zoneLastCell) ++ leBytes 2 (v Pid.zonePitchCells) ++ leBytes 2 (v Pid.zoneGaugeCells) ++
  leBytes 2 (v Pid.zoneRateDiv) ++ leBytes 2 (v Pid.zoneIntegrateRounds) ++ leBytes 2 (v Pid.zoneSpectrumLen) ++
  leBytes 1 (v Pid.zoneBandCount) ++ leBytes 1 (v Pid.zoneProgram) ++
  ((List.range 8).flatMap fun k =>
    leBytes 2 (bankRead b Pid.zoneBandLoHz (idx2 z k)).toNat ++ leBytes 2 (bankRead b Pid.zoneBandHiHz (idx2 z k)).toNat) ++
  leBytes 4 0

/-- Is a request served in a 2.x session (R124)? -/
def session2 (s : State) (r : Request) : Bool :=
  decide (((transportOf s r.transport).session.map (·.version)).getD r.version < 0x0300)

/-- Status of one zone record (R11, R13, R237), 0 when it passes. -/
def recordStatus (v2 : Bool) (b : List Byte) : Nat :=
  let z := field b 0 2
  if 1024 ≤ z ∨ field b 2 1 ≠ z / 256 ∨ 16 ≤ field b 5 1 ∨ field b 60 4 ≠ 0 ∨ (v2 ∧ field b 4 1 ≠ 0) then 0x20
  else if (recordItems v2 z b).all fun i => inRange i.1 i.2.1 (i.2.2 : Nat) then 0
  else 0x22

/-- Stage a zone record. -/
def stageRecord (v2 : Bool) (b : List Byte) (s : State) : State :=
  forEach (recordItems v2 (field b 0 2) b) (fun i s => stageValue i.1 i.2.1 (i.2.2 : Nat) s) s

/-- ZONE_DEFINE (R133, R237): the list is validated whole; each zone is one journal step. -/
def zoneDefine (r : Request) (s : State) : State :=
  let v2 := session2 s r
  let recs := (List.range (field r.payload 0 2)).map fun i => slice r.payload (4 + 64 * i) 64
  match (recs.zipIdx).find? fun e => recordStatus v2 e.1 ≠ 0 with
  | some (b, i) => refuse r (recordStatus v2 b) i s
  | none => withJournal r recs.length (fun n s => answerWork r n recs.length 0 (journalSteps n recs.length (forEach recs (stageRecord v2) s))) s

/-- ZONE_DEFINE. -/
def execZoneDefine (s : State) : Host.Outcome State Fault Refusal := .next (runCommand 0x0400 zoneDefine s)

/-- Every field of a zone at its default (R238). -/
def stageDefaults (z : Nat) (s : State) : State :=
  forEach (recordItems false z []) (fun i s => stageValue i.1 i.2.1 (paramDefault (paramKey i.1 i.2.1)) s) s

/-- ZONE_DELETE (R238). -/
def zoneDelete (r : Request) (s : State) : State :=
  let zs := (List.range (field r.payload 0 2)).map fun i => field r.payload (4 + 2 * i) 2
  match (zs.zipIdx).find? fun e => decide (1024 ≤ e.1) with
  | some (_, i) => refuse r 0x20 i s
  | none => withJournal r zs.length (fun n s => answerWork r n zs.length 0 (journalSteps n zs.length (forEach zs stageDefaults s))) s

/-- ZONE_DELETE. -/
def execZoneDelete (s : State) : Host.Outcome State Fault Refusal := .next (runCommand 0x0401 zoneDelete s)

/-- Bytes 64–79 of a ZONE_QUERY entry: what is in force (R239). -/
def zoneTail (s : State) (z : Nat) : List Byte :=
  let g := grantOf (planInForce s (zonePort z)) z
  leBytes 2 (zoneStatus s z) ++ leBytes 2 ((g.map (·.div)).getD 0) ++ leBytes 2 (zoneLanes s z / 256 + zoneLanes s z % 256 * 256) ++
  leBytes 2 0 ++ leBytes 6 (zoneOf s z).frameSeq.toNat ++ leBytes 2 0

/-- ZONE_QUERY (R239). [DEDUCED, notes/assumptions/66] -/
def zoneQuery (r : Request) (s : State) : State :=
  let first := field r.payload 0 2
  let n := field r.payload 2 2
  let code := field r.payload 4 1
  if n = 0 || 50 < n || 1024 < first + n || 2 < code then refuse r 0x20 0 s
  else
    match bankOfCode s code with
    | none => refuse r 0x20 0xFF0A s
    | some b =>
      let entry (i : Nat) : List Byte :=
        zoneRecord (session2 s r) b (first + i) ++ (if code = 0 then zoneTail s (first + i) else leBytes 16 0)
      answer r 0 0 (leBytes 2 n ++ leBytes 2 0 ++ (List.range n).flatMap entry) s

/-- ZONE_QUERY. [DEDUCED, notes/assumptions/66] -/
def execZoneQuery (s : State) : Host.Outcome State Fault Refusal := .next (runCommand 0x0402 zoneQuery s)

/-! ## The program checker -/

/-- Loop counter that an instruction sets before a loop (R259): the counter, and its count, none for LOOPP. -/
def loopSet (i : Instr) : Option (Nat × Option Nat) :=
  match i with
  | .loopi _ c n => some (c.val, some n.toNat)
  | .loopp _ c => some (c.val, none)
  | _ => none

/-- A branch: its counter and its offset. -/
def branchOf (i : Instr) : Option (Nat × Int) :=
  match i with
  | .dbnz _ c off => some (c.val, off.toInt)
  | _ => none

/-- Control instructions are opcodes 0x00 to 0x05 (R258). -/
def isControl (i : Instr) : Bool := ((serifWord i).map fun w => decide (w / 2 ^ 26 ≤ 5)).getD true

/-- The repeat count of REP. -/
def repOf (i : Instr) : Option Nat :=
  match i with
  | .rep _ n => some (n.toNat + 1)
  | _ => none

/-- A loop of a program (R259): from the branch's target to the branch, its counter, and its count. -/
structure LoopSpan where
  start : Nat
  stop : Nat
  counter : Nat
  count : Option Nat
  deriving DecidableEq, Repr

/-- The loop that the DBNZ at `i` closes (R259): its counter is set just before the target. -/
def loopAt (code : List Instr) (i : Nat) : Option LoopSpan :=
  match (code[i]?).bind branchOf with
  | none => none
  | some (c, off) =>
    let target := (i : Int) + off
    if off < 0 ∧ 1 ≤ target then
      match (code[target.toNat - 1]?).bind loopSet with
      | some (d, n) => if d = c then some ⟨target.toNat, i, c, n⟩ else none
      | none => none
    else none

/-- Loops of a program; none when some DBNZ closes none. -/
def loopsOf (code : List Instr) : Option (List LoopSpan) :=
  let branches := (List.range code.length).filter fun i => ((code[i]?).bind branchOf).isSome
  branches.mapM (loopAt code)

/-- Does `a` contain `b`? -/
def loopInside (a b : LoopSpan) : Bool := decide (a.start < b.start) && decide (b.stop < a.stop)

/-- Are two loops disjoint or nested? -/
def loopsNest (a b : LoopSpan) : Bool :=
  a == b || decide (a.stop < b.start) || decide (b.stop < a.start) || loopInside a b || loopInside b a

/-- Inside a loop nothing else writes its counter (R259). -/
def counterKept (code : List Instr) (a : LoopSpan) : Bool :=
  (List.range code.length).all fun i =>
    !(decide (a.start ≤ i) && decide (i < a.stop)) ||
    match code[i]? with
    | some x => (loopSet x).map (·.1) != some a.counter && (branchOf x).map (·.1) != some a.counter
    | none => true

/-- Control flow of R258 and R259. -/
def controlOk (code : List Instr) : Bool :=
  let ends := (List.range code.length).filter fun i => (code[i]?.bind serifWord) == some (packWord 0x01 [])
  let repsOk := (List.range code.length).all fun i =>
    match (code[i]?).bind repOf with
    | some _ => ((code[i + 1]?).map fun x => !isControl x).getD false
    | none => true
  match loopsOf code with
  | none => false
  | some ls =>
    let perPoint := ls.filter fun a => a.count.isNone
    ends == [code.length - 1] && code.length != 0 && repsOk && ls.all (fun a => ls.all (loopsNest a) && counterKept code a) &&
    decide (perPoint.length ≤ 1) && perPoint.all fun a => !ls.any fun b => loopInside b a

/-- Cycles of the instructions from `i` to `stop` (exclusive) that run once per pass, the LOOPP loop left out (R257, R259): a
counted loop of n passes takes n × (body + 2) − 1, and its DBNZ is the loop's own. -/
def passCycles (fuel : Nat) (code : List Instr) (ls : List LoopSpan) (i stop : Nat) : Nat :=
  match fuel with
  | 0 => 0
  | fuel + 1 =>
    if stop ≤ i then 0
    else
      match ls.find? fun a => a.start == i with
      | some a =>
        (match a.count with
         | some n => n * (passCycles fuel code (ls.filter fun b => b.start != i) a.start a.stop + 2) - 1
         | none => 0) + passCycles fuel code ls (a.stop + 1) stop
      | none =>
        match (code[i]?).bind repOf with
        | some n => 1 + n + passCycles fuel code ls (i + 2) stop
        | none => 1 + passCycles fuel code ls (i + 1) stop

/-- k and S of a program whose control flow holds (R259). -/
def programCost (code : List Instr) : Nat × Nat :=
  let ls := (loopsOf code).getD []
  let fuel := 2 * code.length + 2
  let outside := passCycles fuel code ls 0 code.length
  match ls.find? fun a => a.count.isNone with
  | some a => (passCycles fuel code (ls.filter (· != a)) a.start a.stop + 2, outside - 1)
  | none => (0, outside)

/-- Instructions of an image's code. -/
def imageCode (b : List Byte) : List (BitVec 32) :=
  (List.range (field b 12 2)).map fun i => BitVec.ofNat 32 (field b (64 + 4 * i) 4)

/-- Header fields inside their ranges, with reserved fields 0 (R262). [DEDUCED, notes/assumptions/65] -/
def programHeaderOk (b : List Byte) : Bool :=
  decide (field b 7 1 < 4) && decide (1 ≤ field b 12 2) && decide (field b 12 2 ≤ 4096) && decide (field b 14 2 ≤ 256) &&
  decide (field b 16 2 ≤ 4096) && decide (1 ≤ field b 18 2) && decide (1 ≤ field b 20 1) && decide (field b 20 1 ≤ 64) &&
  decide (field b 21 1 ≤ 32) && decide (1 ≤ field b 22 2) && decide (field b 24 1 ≤ 8) && field b 25 1 == 0 &&
  field b 44 16 == 0 && (List.range (field b 24 1)).all fun f => field b 26 2 / 4 ^ f % 4 != 3

/-- Check 1 of R263: CRC, magic, format and length. [DEDUCED, notes/assumptions/65] -/
def imageSound (b : List Byte) (length : Nat) : Bool :=
  b.length == length && decide (64 ≤ length) && length == 64 + 4 * field b 12 2 + field b 14 2 &&
  field b 60 4 == (crc32c (slice b 0 60 ++ leBytes 4 0 ++ b.drop 64)).toNat && field b 0 4 == 0x53455246 && field b 4 2 == 1

/-- The checker of R263 on an image: the first check that fails, or the program. `free` is the program memory left. [DEDUCED, notes/assumptions/65] -/
def checkImage (free length : Nat) (b : List Byte) : Except Nat Program :=
  let words := imageCode b
  let decoded := words.mapM fun w => decodeSerif 0 w.toNat
  let code := decoded.getD []
  let (k, S) := programCost code
  if !imageSound b length then .error 1
  else if field b 6 1 ≠ 1 then .error 2
  else if decoded.isNone || !programHeaderOk b then .error 3
  else if !controlOk code then .error 4
  else if field b 18 2 < k ∨ field b 20 1 < S then .error 5
  else if free < words.length then .error 6
  else .ok {
    flags := BitVec.ofNat 8 (field b 7 1), version := field b 8 4, code := words,
    constants := slice b (64 + 4 * field b 12 2) (field b 14 2), history := field b 16 2, k := k, s := S,
    outBytes := field b 21 1, interval := field b 22 2, featCount := field b 24 1, featModes := field b 26 2,
    name := slice b 28 16, crc := field b 60 4 }

/-! ## Program commands -/

/-- Does a zone of a bank use program `i` (R264)? -/
def bankUses (b : Bank) (i : Nat) : Bool :=
  b.params.any fun e => e.1 / 65536 == Pid.zoneRecipe && e.2 == 6 && bankRead b Pid.zoneEnable (e.1 % 65536) != 0 &&
    bankRead b Pid.zoneProgram (e.1 % 65536) == (i : Int)

/-- A program in use by a zone of a bank (R264) or by an open replay job (R356). -/
def programUsed (s : State) (i : Nat) : Bool :=
  bankUses s.banks.active i || (s.banks.switch.map fun w => bankUses w.old i).getD false ||
  (s.banks.pending.map fun b => bankUses b i).getD false || (s.banks.previous.map fun b => bankUses b i).getD false ||
  s.inkstone.jobs.any fun e => decide (e.2.state ≤ 1) && field e.2.zoneRecord 3 1 == 6 && field e.2.zoneRecord 27 1 == i

/-- The active unit repeats a change of its library to the standby (R483). -/
def replicateProgram (i : Nat) (crc : Option Nat) (s : State) : State :=
  if pairEnabled s && s.pair.own && s.pair.linkUp then
    segorSend 2 (Config.replicaProgram i crc) s
  else s

/-- Update the Serif array. -/
def onSerif (f : Serif → Serif) (s : State) : State := { s with serif := f s.serif }

/-- Drop the upload in progress with a final state of its entry. -/
def dropUpload (j : JState) (status detail : Nat) (s : State) : State :=
  match s.serif.upload with
  | some u => journalEnd u.journal j status detail (onSerif (fun x => { x with upload := none }) s)
  | none => s

/-- Run the checker on a complete image (R263): install the program, or end the entry ROLLED_BACK. -/
def progInstall (r : Request) (u : ProgUpload) (s : State) : State :=
  let others := ((s.serif.library.filter fun e => e.1 != u.index).map fun e => e.2.code.length).sum
  match checkImage (8192 - others) u.length u.bytes with
  | .error c =>
    let st := if c = 6 then 0x40 else 0x20
    let d := if c = 6 then 0 else c
    refuse r st d (dropUpload .rolledBack st d s)
  | .ok g =>
    let s := onSerif (fun x => { x with library := Store.put x.library u.index g }) s
    let s := onJournal u.journal (fun e => { e with summary := g.k + 2 ^ 16 * g.s }) s
    let s := post 0x2005 u.index g.version g.code.length (dropUpload .done 0 0 s)
    answerWork r u.journal 1 0 (replicateProgram u.index (some g.crc) s)

/-- A segment in order joins the upload (R263); each is one journal step. -/
def progSegment (r : Request) (u : ProgUpload) (s : State) : State :=
  let u := { u with next := u.next + 1, bytes := u.bytes ++ r.payload.drop 8 }
  let s := journalStep u.journal (onSerif (fun x => { x with upload := some u }) s)
  if u.next = u.segments then progInstall r u s else answerWork r u.journal 1 0 s

/-- PROG_LOAD (R263, R264): segment 0 starts an image, and ends an unfinished one as PARTIAL. [DEDUCED, notes/assumptions/65] -/
def progLoad (r : Request) (s : State) : State :=
  let p := r.payload
  let i := field p 0 1
  let seg := field p 1 1
  let n := field p 2 1
  let len := field p 4 4
  if 63 < i || n = 0 || n ≤ seg then refuse r 0x20 0 s
  else if programUsed s i then refuse r 0x31 0 s
  else if seg = 0 then
    withJournal r n (fun j s => progSegment r ⟨i, n, len, 0, [], j⟩ s) (dropUpload .part 0x31 0 s)
  else
    match s.serif.upload with
    | some u => if u.index = i ∧ u.segments = n ∧ u.length = len ∧ u.next = seg then progSegment r u s else refuse r 0x20 0 s
    | none => refuse r 0x20 0 s

/-- PROG_LOAD. -/
def execProgLoad (s : State) : Host.Outcome State Fault Refusal := .next (runCommand 0x0C00 progLoad s)

/-- PROG_DELETE (R264). -/
def progDelete (r : Request) (s : State) : State :=
  let i := field r.payload 0 1
  if 63 < i then refuse r 0x20 0 s
  else if programUsed s i then refuse r 0x31 0 s
  else
    withJournal r 1 (fun n s =>
      answerWork r n 1 0 (replicateProgram i none (journalSteps n 1 (onSerif (fun x => { x with library := Store.erase x.library i }) s)))) s

/-- PROG_DELETE. -/
def execProgDelete (s : State) : Host.Outcome State Fault Refusal := .next (runCommand 0x0C01 progDelete s)

/-- An entry of PROG_LIST (R265). -/
def programEntry (i : Nat) (g : Program) : List Byte :=
  leBytes 1 i ++ leBytes 1 g.flags.toNat ++ leBytes 2 g.code.length ++ leBytes 4 g.version ++ leBytes 2 g.k ++ leBytes 1 g.s ++
  leBytes 1 g.outBytes ++ leBytes 2 g.history ++ leBytes 2 g.interval ++ leBytes 1 g.featCount ++ leBytes 1 0 ++
  leBytes 2 g.featModes ++ slice g.name 0 16 ++ leBytes 4 g.crc

/-- PROG_LIST (R265). -/
def progList (r : Request) (s : State) : State :=
  let first := field r.payload 0 1
  let n := field r.payload 1 1
  if 63 < first || n = 0 || 64 < n then refuse r 0x20 0 s
  else
    let room := (requestLimit s r - 8) / 40
    let es := (s.serif.library.filter fun e => decide (first ≤ e.1) && decide (e.1 < first + n)).take room
    answer r 0 0 (leBytes 2 es.length ++ leBytes 2 0 ++ es.flatMap fun e => programEntry e.1 e.2) s

/-- PROG_LIST. -/
def execProgList (s : State) : Host.Outcome State Fault Refusal := .next (runCommand 0x0C02 progList s)

end Sys2Proof.Machine
end

