-- ==== Sys2Proof/Machine/Replay.lean ====
section
/-! DEFINITION. Replay jobs (R355 to R361) and the Pointer's commands: SEQ_LOAD, ARM, DISARM and EVENT_READ (R313 to R315, R326
to R329). -/

namespace Sys2Proof.Machine

/-! ## Sources -/

/-- Decode a copy stream (R322): one history for both components, AMPLITUDE after its PHASE. -/
def copyRuns (fuel : Nat) (roundPs : Nat) (round0 : Nat) (ns0 : Int) (epoch : Nat) (hist : List Elem)
    (open_ : Option (BlockHeader × List Elem)) (bytes : List Byte) : List RingRun :=
  match fuel with
  | 0 => []
  | fuel + 1 =>
    if bytes.isEmpty then []
    else
      match decodeBlock hist bytes with
      | .error _ => []
      | .ok (h, xs, rest) =>
        let hist := trimHistory (hist ++ xs)
        if h.component = 0 then copyRuns fuel roundPs round0 ns0 epoch hist (some (h, xs)) rest
        else
          match open_ with
          | some (ph, px) =>
            { zone := ph.zone, round := ph.round,
              time := (ns0 + signed 32 (ph.round + 2 ^ 32 - round0) * roundPs / 1000).toNat, epoch := epoch,
              holdover := ph.holdover, first := ph.first, block := ph.seq,
              words := (px.zip xs).map fun (a, b) => wordOfElems a b } ::
              copyRuns fuel roundPs round0 ns0 epoch hist none rest
          | none => copyRuns fuel roundPs round0 ns0 epoch hist none rest

/-- Duration of a round of port `p` under a bank, in ps. -/
def bankRoundPs (s : State) (b : Bank) (p : Nat) : Nat :=
  let run := portRun b (flowMode s == .sentinel) p
  run.period * 2500 / run.slots

/-- The zone entry of an event record (R326). -/
def recordEntry (s : State) (n i : Nat) : Option (EventRecord × RecordZone) :=
  ((recordOf s n).filter (headerReadable s)).bind fun r => (r.zones[i]?).map fun z => (r, z)

/-- What a replay source holds of a zone, in ascending rounds (R356): from the ring, or from an event record's copy. -/
def sourceRuns (s : State) (source z event entry : Nat) : List RingRun :=
  if source = 0 then zoneRuns (readPort s (zonePort z)) z
  else
    match recordEntry s event entry with
    | some (r, e) =>
      copyRuns (e.copy.length + 1) (bankRoundPs s (bankOfEpoch s r.port r.epoch) r.port) r.round (netNs r.time) r.epoch [] none e.copy
    | none => []

/-- Point word of a cell in a round of a source whose zone has its feed on `first`, `pitch` (R236). -/
def sourceWord (runs : List RingRun) (first pitch round cell : Nat) : BitVec 48 :=
  let i := (cell - first) / max 1 pitch
  match runs.find? fun u => u.round == round && decide (u.first ≤ i) && decide (i < u.first + u.words.length) with
  | some u => u.words.getD (i - u.first) 0
  | none => 0

/-! ## REPLAY_START -/

/-- A bank with a zone's record replaced by a replay record: class, max_halvings, enable, ring and features do not count
(R355). -/
def recordBank (b : Bank) (z : Nat) (record : List Byte) : Bank :=
  let b := (recordItems false z record).foldl (fun b i => bankWrite b i.1 i.2.1 (i.2.2 : Nat)) b
  bankWrite (bankWrite (bankWrite b Pid.zoneEnable z 1) Pid.zoneRing z 0) Pid.zoneFeatures z 0

/-- The bank by which a job's record is served. -/
def jobBank (s : State) (j : ReplayJob) : Bank :=
  recordBank (portBank s (zonePort j.sourceId)) j.sourceId j.zoneRecord

/-- Rounds of a span by the grid of an anchor round (R355): the first round at or after the start, and the first at or after
the end, counted from the anchor. -/
def spanEdges (ns0 : Int) (roundPs startNs endNs : Nat) : Int × Int :=
  let up (t : Nat) : Int := -((-(((t : Int) - ns0) * 1000)) / (max 1 roundPs : Nat))
  (up startNs, up endNs)

/-- Processed rounds of a span (R357): how many, and the first. [DESIGN CHOICE, notes/assumptions/41] -/
def spanRounds (round0 : Nat) (ns0 : Int) (roundPs startNs endNs d : Nat) : Nat × Nat :=
  let (a, b) := spanEdges ns0 roundPs startNs endNs
  let lo := ((round0 : Int) + a) % (2 ^ 32 : Nat)
  let n := (b - a).toNat
  let skip := (d - lo.toNat % d) % d
  (if n ≤ skip then 0 else (n - skip - 1) / d + 1, (lo.toNat + skip) % 2 ^ 32)

/-- What a request for a replay names. -/
structure ReplayAsk where
  source : Nat
  zone : Nat
  event : Nat
  entry : Nat
  startNs : Nat
  endNs : Nat
  record : List Byte
  crc : Nat
  deriving DecidableEq, Repr

/-- The request's fields (R355). The zone of an event-record source is its entry's. [DEDUCED, notes/assumptions/67] -/
def replayAsk (s : State) (p : List Byte) : ReplayAsk :=
  let source := field p 0 1
  let event := field p 4 4
  let entry := field p 2 1
  { source := source, event := event, entry := entry,
    zone := if source = 0 then field p 2 2 else ((recordEntry s event entry).map (·.2.zone)).getD 0,
    startNs := field p 8 6 * 1000000000 + field p 14 4, endNs := field p 18 6 * 1000000000 + field p 24 4,
    record := slice p 32 64, crc := field p 28 4 }

/-- Does a zone record pass R215 with its program left aside where that is not loaded (R356)? -/
def replayRecordOk (b : Bank) (lib : Store Program) (z : Nat) : Bool :=
  (zoneChecks b lib z).all fun c => c.1 || (c.2.1 == Pid.zoneProgram && (programOf lib (zoneNat b Pid.zoneProgram z)).isNone)

/-- Does the source hold every round of the span (R356)? -/
def sourceHolds (s : State) (a : ReplayAsk) (runs : List RingRun) : Bool :=
  let p := zonePort a.zone
  if a.source = 0 then
    match runs.head?, runs.getLast? with
    | some o, some n =>
      decide (o.time < a.startNs + bankRoundPs s (bankOfEpoch s p o.epoch) p / 1000) &&
      decide (a.endNs ≤ n.time + bankRoundPs s (bankOfEpoch s p n.epoch) p / 1000)
    | _, _ => false
  else
    match recordEntry s a.event a.entry with
    | some (r, e) => !r.flags.getLsbD 4 && r.completeness != 0 && e.data == 1 &&
        decide (netNs r.time ≤ a.startNs + r.preActual * 1000) && decide (a.endNs ≤ netNs r.time + r.postActual * 1000)
    | none => false

/-- Banks under which the span's rounds ran. -/
def spanBanks (s : State) (a : ReplayAsk) (runs : List RingRun) : List Bank :=
  let es := ((runs.filter fun u => decide (a.startNs ≤ u.time) && decide (u.time < a.endNs)).map (·.epoch)).eraseDups
  es.map (bankOfEpoch s (zonePort a.zone))

/-- What has to stay the same throughout the span (R356). -/
def spanShape (b : Bank) (z : Nat) : List Nat :=
  let p := zonePort z
  [zoneNat b Pid.zoneFirstCell z, zoneNat b Pid.zoneLastCell z, zoneNat b Pid.zonePitchCells z, zoneNat b Pid.zoneGaugeCells z,
   bankPort b p Pid.portSlots 0, zoneNat b Pid.gridPeriodCells p]

/-- The OUT_OF_RANGE conditions of R356. [DESIGN CHOICE, notes/assumptions/41] -/
def replayInRange (s : State) (a : ReplayAsk) (runs : List RingRun) : Bool :=
  let z := a.zone
  let src := (spanBanks s a runs).headD (portBank s (zonePort z))
  let b := recordBank src z a.record
  let lib := s.serif.library
  let first := zoneNat src Pid.zoneFirstCell z
  let pitch := zoneNat src Pid.zonePitchCells z
  let last := zoneNat b Pid.zoneLastCell z + (if usesGauge b lib z then zoneNat b Pid.zoneGaugeCells z else 0)
  decide (a.startNs < a.endNs) && decide (a.endNs - a.startNs ≤ 3600 * 1000000000) && sourceHolds s a runs &&
  ((recordItems false z a.record).filter fun i => i.1 != Pid.zoneClass && i.1 != Pid.zoneMaxHalvings).all (fun i => inRange i.1 i.2.1 (i.2.2 : Nat)) &&
  zoneNat b Pid.zoneRecipe z != 5 && replayRecordOk b lib z && decide (first ≤ zoneNat b Pid.zoneFirstCell z) &&
  (zoneNat b Pid.zoneFirstCell z - first) % pitch == 0 && zoneNat b Pid.zonePitchCells z % pitch == 0 &&
  (!usesGauge b lib z || zoneNat b Pid.zoneGaugeCells z % pitch == 0) &&
  ((feedCells src lib z).getLast?.map fun c => decide (last ≤ c)).getD false &&
  (spanBanks s a runs).all (fun x => spanShape x z == spanShape src z)

/-- Is the USER program missing, or another than expected (R356)? -/
def replayProgramBad (s : State) (a : ReplayAsk) : Bool :=
  field a.record 3 1 == 6 &&
  match programOf s.serif.library (field a.record 27 1) with
  | some g => a.crc != 0 && g.crc != a.crc
  | none => true

/-- REPLAY_START (R355, R356, R360, R385, R389): ACCEPTED with the lowest free job index. [DEDUCED, notes/assumptions/67] -/
def replayStart (r : Request) (s : State) : State :=
  let p := r.payload
  let a := replayAsk s p
  let reserved := if a.source = 0 then field p 4 4 == 0 else field p 3 1 == 0
  let open_ (i : Nat) : Bool := ((s.inkstone.jobs.find? fun e => e.1 == i).map fun e => decide (e.2.state ≤ 1)).getD false
  let runs := sourceRuns s a.source a.zone a.event a.entry
  if !reserved || field a.record 60 4 ≠ 0 then refuse r 0x20 0 s
  else if !replayMode s.mode.current then refuse r 0x30 0 s
  else if 1 < a.source || 2 < field p 1 1 || 1024 ≤ a.zone || field a.record 2 1 ≠ zonePort a.zone ||
      16 ≤ field a.record 5 1 then refuse r 0x20 0 s
  else if !replayInRange s a runs then refuse r 0x22 0 s
  else if replayProgramBad s a then refuse r 0x20 0 s
  else if s.pointer.areaSram then refuse r 0x40 0 s
  else
    match (List.range 16).find? fun i => !open_ i && decide (16 ≤ vecRead s.memory.regions 4 0) with
    | none => refuse r 0x40 0 s
    | some i =>
      let b := (spanBanks s a runs).headD (portBank s (zonePort a.zone))
      let anchor := ((runs.find? fun u => decide (a.startNs ≤ u.time)).map fun u => (u.round, u.time)).getD (0, 0)
      let (n, first) := spanRounds anchor.1 anchor.2 (bankRoundPs s b (zonePort a.zone)) a.startNs a.endNs (field a.record 20 2)
      withJournal r n (fun k s =>
        let j : ReplayJob := {
          priority := field p 1 1, source := a.source, sourceId := a.zone, event := a.event, entry := a.entry,
          zoneRecord := a.record, startNs := a.startNs, endNs := a.endNs, journal := k, total := n, nextRound := first }
        let s := scheduleJobs (onInk (fun x => { x with jobs := Store.put x.jobs i j, order := x.order ++ [i] }) s)
        let s := answer r 0x01 0 (leBytes 4 k ++ leBytes 1 i ++ leBytes 1 0 ++ leBytes 2 (1024 + i) ++ leBytes 4 n) s
        if n = 0 then endJob i 0 s else s) s

/-- REPLAY_START. [DEDUCED, notes/assumptions/67] -/
def execReplayStart (s : State) : Host.Outcome State Fault Refusal := .next (runCommand 0x0600 replayStart s)

/-- REPLAY_CANCEL (R360). -/
def replayCancel (r : Request) (s : State) : State :=
  let i := field r.payload 0 1
  if s.inkstone.jobs.any fun e => e.1 == i && decide (e.2.state ≤ 1) then answerOk r (endJob i 1 s) else refuse r 0x20 0 s

/-- REPLAY_CANCEL. -/
def execReplayCancel (s : State) : Host.Outcome State Fault Refusal := .next (runCommand 0x0601 replayCancel s)

/-- The state entry of a job (R360). -/
def jobEntry (i : Nat) (j : ReplayJob) : List Byte :=
  leBytes 1 i ++ leBytes 1 j.state ++ leBytes 1 j.priority ++ leBytes 1 j.reason ++ leBytes 4 j.journal ++ leBytes 4 j.total ++
  leBytes 4 j.done ++ leBytes 4 j.nextRound ++ leBytes 4 j.cycles ++ leBytes 4 j.frames ++ leBytes 1 j.error ++ leBytes 3 0

/-- REPLAY_STATUS (R360). -/
def replayStatus (r : Request) (s : State) : State :=
  let i := field r.payload 0 1
  if 15 < i && i ≠ 0xFF then refuse r 0x20 0 s
  else
    let es := s.inkstone.jobs.filter fun e => i == 0xFF || e.1 == i
    answer r 0 0 (leBytes 2 es.length ++ leBytes 2 0 ++ es.flatMap fun e => jobEntry e.1 e.2) s

/-- REPLAY_STATUS. -/
def execReplayStatus (s : State) : Host.Outcome State Fault Refusal := .next (runCommand 0x0602 replayStatus s)

/-! ## A job's rounds -/

/-- A frame of a job (R230, R358): zone 1,024 + index, REPLAY set, and the sequence of the job. -/
def jobFrame (i : Nat) (b : Bank) (j : ReplayJob) (flags : Nat) (time : NetTime) (round cell count epoch : Nat)
    (payload : List Byte) : ReplayJob :=
  let z := j.sourceId
  { j with
    made := j.made + 1,
    waiting := j.waiting ++ [frameBytes (zonePort z) (zoneNat b Pid.zoneRecipe z) (1024 + i) (flags + 32) j.made time round cell
      count (zoneNat b Pid.zonePitchCells z) epoch payload] }

/-- The GAP marker that waits (R233, R358). [DEDUCED, notes/assumptions/67] -/
def jobGap (i : Nat) (b : Bank) (epoch : Nat) (j : ReplayJob) : ReplayJob :=
  match j.gap with
  | none => j
  | some (lost, cause) =>
    { jobFrame i b j 64 j.gapFirst.2 j.gapFirst.1 (zoneNat b Pid.zoneFirstCell j.sourceId) 0 epoch
        (leBytes 4 (min lost (2 ^ 32 - 1)) ++ leBytes 1 cause ++ leBytes 3 0) with gap := none }

/-- The frames of a job's output, and its encoded blocks for the counts (R232, R358). [DEDUCED, notes/assumptions/67] -/
def jobOutput (i : Nat) (s : State) (b : Bank) (u : RingRun) (edge : Bool) (j : ReplayJob) : ReplayJob × List Encoded :=
  let z := j.sourceId
  let lib := s.serif.library
  let width := pointWidth b lib z
  let flags := j.zone.flags.toNat + 128 * bit u.holdover + 512 * bit edge
  let compress := bankRead b Pid.zoneCompress z != 0
  let parts := splitPayload (j.zone.out.length + 1) width 0 j.zone.out
  let (j, es) := parts.foldl (fun (acc : ReplayJob × List Encoded) p =>
    let cell := zoneNat b Pid.zoneFirstCell z + p.1 * zoneNat b Pid.zonePitchCells z
    let count := p.2.length / max width 1
    let es := if compress then frameStream (pointFields b lib z) width (1024 + i) u.round u.holdover false p.2 else []
    let payload := if compress then es.flatMap (·.bytes) else p.2
    (jobFrame i b acc.1 (flags + 256 * bit compress) (nsNet u.time) u.round cell count u.epoch payload, acc.2 ++ es))
    (jobGap i b u.epoch j, [])
  ({ j with zone := { j.zone with out := [], feats := [], flags := 0, gathered := 0, edge := false } }, es)

/-- A job moves on to a round, past `skipped` processed rounds that its source lacks (R358). [DEDUCED, notes/assumptions/67; DESIGN CHOICE, notes/assumptions/133] -/
def jobAdvance (j : ReplayJob) (round : Nat) (time : NetTime) (d skipped : Nat) (r : ReplayResult) : ReplayJob :=
  let lost := ((j.gap.map (·.1)).getD 0) + skipped
  { j with
    done := j.done + skipped + 1, nextRound := (round + d) % 2 ^ 32, cycles := r.cycles,
    gap := if skipped = 0 then j.gap else some (lost, if r.idled then 6 else 4),
    gapFirst := if skipped = 0 ∨ j.gap.isSome then j.gapFirst else (round, time) }

/-- One processed round of a job (R355 to R358): its points from the source's words, or as the lanes gave them. [DEDUCED, notes/assumptions/67; DESIGN CHOICE, notes/assumptions/133] -/
def jobRound (i : Nat) (s : State) (b : Bank) (j : ReplayJob) (u : RingRun) (word : Nat → BitVec 48) (r : ReplayResult) :
    ReplayJob × List Encoded :=
  let z := j.sourceId
  let d := max 1 (zoneNat b Pid.zoneRateDiv z)
  let j := jobAdvance j u.round (nsNet u.time) d ((u.round + 2 ^ 32 - j.nextRound) % 2 ^ 32 / d) r
  let onGrid := outputDue b s.serif.library z d u.round
  let due := onGrid || decide (j.total ≤ j.done)
  let x := (List.range (zonePoints b z)).foldl (recipePoint s b z d word due) j.zone
  let exact := zoneNat b Pid.zoneRecipe z != 6
  let x := if exact || !due then x else { x with out := x.out ++ r.payload }
  if due then jobOutput i s b u (x.edge || !onGrid) { j with zone := x }
  else ({ j with zone := { x with out := [], feats := [], gathered := x.gathered + 1 } }, [])

/-- Frames that fit enter staging (R434); once all have, the rounds done count as steps, whose output was delivered (R146). [DESIGN CHOICE, notes/assumptions/133] -/
def jobDrain (fuel i : Nat) (s : State) : State :=
  match fuel with
  | 0 => s
  | fuel + 1 =>
    match (s.inkstone.jobs.find? fun e => e.1 == i).map (·.2) with
    | some j =>
      let q := field j.zoneRecord 6 1
      match j.waiting with
      | f :: rest =>
        if j.state ≤ 1 && dropCause s q f.length = 0 then
          jobDrain fuel i (stageItem q 0 f (onInk (fun x => { x with
            jobs := Store.put x.jobs i { j with waiting := rest, frames := j.frames + 1 } }) s))
        else s
      | [] =>
        let s := forEach (List.range (j.done - j.stepped)) (fun _ s => journalStep j.journal s)
          (onInk (fun x => { x with jobs := Store.put x.jobs i { j with stepped := j.done } }) s)
        if j.state ≤ 1 && decide (j.total ≤ j.done) then endJob i 0 s else s
    | none => s

/-- Lane-cycles between lane `l`'s last live piece and C_p − 128 in the plan in force (R226, R245, R357), none for a lane that no port
holds. [DESIGN CHOICE, notes/assumptions/133] -/
def spareCycles (s : State) (l : Nat) : Option Nat :=
  let live := flowMode s == .run || flowMode s == .sentinel
  let here := allPorts.flatMap fun p => (planInForce s p).pieces.filter fun x => live && zonePort x.zone == p && x.lane == l
  match here with
  | [] => none
  | x :: _ =>
    let b := portBank s (zonePort x.zone)
    let ends := here.map fun y => y.used + 96 + y.take * (recipeCost b s.serif.library y.zone).1
    some (laneCycles (portRun b (flowMode s == .sentinel) (zonePort x.zone)) - ends.foldl Nat.max 0)

/-- Lane-cycles of a job's largest piece, and whether it runs only on lanes that no port holds (R248, R357). [DESIGN CHOICE, notes/assumptions/133] -/
def jobPiece (s : State) (b : Bank) (z : Nat) : Nat × Bool :=
  let l := zoneLoad b s.serif.library z
  let cap := if 2048 < l.hist then 6144 / l.hist else 2048 / max l.hist 1
  (96 + l.cost * (if l.wide then sliceLen l else min cap (sliceLen l)), l.wide || decide (2048 < l.hist))

/-- The first spare interval, in ascending lane order, that holds the job's pieces (R20, R357). [DESIGN CHOICE, notes/assumptions/133] -/
def jobLane (s : State) (j : ReplayJob) : Option Nat :=
  let (need, own) := jobPiece s (jobBank s j) j.sourceId
  (List.range 128).find? fun l =>
    match spareCycles s l with
    | none => true
    | some n => !own && decide (need ≤ n)

/-- REPLAY_ROUND_DONE (R20, R357 to R359): in lane-cycles that the admitted zones leave, a running job whose frames have all entered staging completes its next processed round. [DESIGN CHOICE, notes/assumptions/133] -/
def replayRoundDone (i : Nat) (r : ReplayResult) (s : State) : State :=
  let s := jobDrain 64 i s
  match (s.inkstone.jobs.find? fun e => e.1 == i).map (·.2) with
  | none => s
  | some j =>
    if j.state ≠ 1 || !j.waiting.isEmpty || (jobLane s j).isNone then s
    else if r.decodeError ≠ 0 then
      endJob i 3 (decodeError (1 + i) r.decodeError 0 (onInk (fun x => { x with
        jobs := Store.put x.jobs i { j with error := r.decodeError } }) s))
    else
      let runs := sourceRuns s j.source j.sourceId j.event j.entry
      let d := max 1 (field j.zoneRecord 20 2)
      let ahead (u : RingRun) : Nat := (u.round + 2 ^ 32 - j.nextRound) % 2 ^ 32
      let lostOldest := (runs.head?.map fun u => decide (0 < ahead u) && decide (ahead u < 2 ^ 31)).getD true
      if j.source = 0 && lostOldest then endJob i 2 s
      else
        match runs.find? fun u => decide (ahead u < 2 ^ 31) && u.round % d == 0 with
        | none => s
        | some u =>
          if j.endNs ≤ u.time then endJob i 0 s
          else
            let src := bankOfEpoch s (zonePort j.sourceId) u.epoch
            let word := sourceWord runs (zoneNat src Pid.zoneFirstCell j.sourceId) (zoneNat src Pid.zonePitchCells j.sourceId) u.round
            let (k, es) := jobRound i s (jobBank s j) { j with lane := jobLane s j } u word r
            let s := countStream 8 es false (onInk (fun x => { x with jobs := Store.put x.jobs i k }) s)
            jobDrain 64 i s

/-- REPLAY_ROUND_DONE. -/
def execReplayRoundDone (job : Fin 16) (r : ReplayResult) (s : State) : Host.Outcome State Fault Refusal :=
  .next (replayRoundDone job.val r s)

/-! ## Pointer commands -/

/-- Are a term's codes among those of R309 and R313? -/
def termFields (t : List Byte) : Bool :=
  let src := field t 0 1
  let b := field t 1 1
  let i := field t 2 1
  decide (src ≤ 9) &&
  (match src with
   | 2 => decide (b % 8 ≤ 5) && decide (b < 16) && decide (i ≤ 7) && decide (field t 4 2 < 1024)
   | 3 => b == 0 && decide (field t 4 2 < 1024)
   | 4 => b == 0 && decide (i ≤ 1)
   | 5 => b == 0 && decide (i ≤ 1)
   | 6 => decide (b ≤ 1)
   | 8 => decide (b ≤ 1) && decide (i ≤ 7)
   | 9 => decide (b % 8 ≤ 5) && decide (b < 16) && decide (i ≤ 31)
   | _ => b == 0)

/-- Bit pairs of the actions that one condition may not set together (R312): START and STOP, INC and CLEAR, OPEN and CLOSE,
SET and CLEAR. -/
def actionPairs : List Nat := [1, 3, 5, 7, 9, 11]

/-- Is a condition record one that R312 and R313 allow? Reserved bits and fields are 0 in every record (R11); the codes of a
valid condition and the pairs of its actions are checked, the codes of term B not under join 0. [DEDUCED, notes/assumptions/113] -/
def condFields (c : Condition) : Bool :=
  field c 0 1 / 16 % 8 == 0 && decide (field c 6 1 < 8) && field c 7 1 == 0 && decide (field c 2 2 < 8192) &&
  field c 14 2 == 0 && field c 26 2 == 0 &&
  (!condValid c || (decide (field c 1 1 ≤ 3) && actionPairs.all (fun i => !(hasBit (field c 2 2) i && hasBit (field c 2 2) (i + 1))) &&
    termFields (slice c 8 12) && (field c 1 1 == 0 || termFields (slice c 20 12))))

/-- SEQ_LOAD (R313): each state is one journal step; RESTART clears the staged states first. -/
def seqLoad (r : Request) (s : State) : State :=
  let p := r.payload
  let q := field p 0 1
  let first := field p 1 1
  let n := field p 2 1
  let flags := field p 3 1
  let states := (List.range n).map fun i => slice p (4 + 128 * i) 128
  if 7 < q || 16 < first + n || 1 < flags then refuse r 0x20 0 s
  else
    match (states.zipIdx).find? fun e => (List.range 4).any fun j => !condFields (condOf e.1 j) with
    | some (_, i) => refuse r 0x20 i s
    | none =>
      withJournal r n (fun k s =>
        let base := s.banks.pending.getD s.banks.active
        let kept := if flags = 1 then base.seqs.filter fun e => e.1 / 16 != q else base.seqs
        let seqs := (states.zipIdx).foldl (fun m e => Store.put m (q * 16 + first + e.2) e.1) kept
        answerWork r k n 0 (journalSteps k n (onBanks (fun b => { b with pending := some { base with seqs := seqs } }) s))) s

/-- SEQ_LOAD. -/
def execSeqLoad (s : State) : Host.Outcome State Fault Refusal := .next (runCommand 0x0500 seqLoad s)

/-- Modes in which ARM and DISARM are accepted (R315). -/
def armMode (m : Mode) : Bool := m == .config || m == .run || m == .sentinel || m == .inhibit

/-- Sequencers of a mask. -/
def maskSeqs (m : Nat) : List Nat := (List.range 8).filter fun q => hasBit m q

/-- ARM (R315). -/
def arm (r : Request) (s : State) : State :=
  let mask := field r.payload 0 1
  let flags := field r.payload 1 1
  if !armMode s.mode.current then refuse r 0x30 0 s
  else if 1 < flags || (maskSeqs mask).any (fun q => !seqDefined (globalBank s) q) then refuse r 0x20 0 s
  else
    let s := forEach (maskSeqs mask) (fun q s => if (seqOf s q).arm == .idle || flags == 1 then armSeq q s else s) s
    answer r 0 0 (leBytes 1 (bits ((List.range 8).map fun q => (seqOf s q).arm != .idle))) s

/-- ARM. -/
def execArm (s : State) : Host.Outcome State Fault Refusal := .next (runCommand 0x0501 arm s)

/-- DISARM (R315). -/
def disarmCmd (r : Request) (s : State) : State :=
  if !armMode s.mode.current then refuse r 0x30 0 s
  else answerOk r (forEach (maskSeqs (field r.payload 0 1)) (disarm 1) s)

/-- DISARM. -/
def execDisarm (s : State) : Host.Outcome State Fault Refusal := .next (runCommand 0x0502 disarmCmd s)

/-- A sequencer entry of an event record (R326). -/
def recordSeqBytes (e : RecordSeq) : List Byte :=
  leBytes 2 e.code ++ leBytes 1 e.fromState ++ leBytes 1 e.cond ++ leBytes 4 (min e.missed (2 ^ 32 - 1)) ++ leBytes 8 e.dead

/-- A zone entry of an event record (R326). -/
def recordZoneBytes (z : RecordZone) : List Byte :=
  leBytes 2 z.zone ++ leBytes 1 z.data ++ leBytes 1 0 ++ leBytes 6 z.firstFrame ++ leBytes 6 z.lastFrame ++ leBytes 4 z.firstBlock ++
  leBytes 4 z.lastBlock ++ leBytes 4 z.stream ++ leBytes 4 z.copy.length

/-- The 512 bytes of an event record (R326). -/
def recordBytes (r : EventRecord) : List Byte :=
  let seqEntry (q : Nat) : List Byte := ((r.seqs.find? fun e => e.seq == q).map recordSeqBytes).getD (leBytes 16 0)
  let zoneEntry (i : Nat) : List Byte := ((r.zones[i]?).map recordZoneBytes).getD (leBytes 2 0xFFFF ++ leBytes 30 0)
  let also := (r.seqs.map fun e => e.alsoTrue * 2 ^ (4 * e.seq)).sum
  let b := leBytes 4 r.number ++ leBytes 2 1 ++ leBytes 1 r.completeness ++ leBytes 1 r.flags.toNat ++ leBytes 1 r.port ++
    leBytes 1 (bits ((List.range 8).map fun q => r.seqs.any fun e => e.seq == q)) ++ leBytes 1 r.zones.length ++ leBytes 1 0 ++
    leBytes 4 r.round ++ leBytes 6 r.time.sec ++ leBytes 4 r.time.ns ++ leBytes 2 0 ++ leBytes 4 also ++ leBytes 4 r.preReq ++
    leBytes 4 r.preActual ++ leBytes 4 r.postReq ++ leBytes 4 r.postActual ++ leBytes 4 r.epoch ++ leBytes 6 r.closed.sec ++
    leBytes 4 r.closed.ns ++ leBytes 2 0 ++ (List.range 8).flatMap seqEntry ++ (List.range 8).flatMap zoneEntry ++ leBytes 60 0
  b ++ leBytes 4 (crc32c b).toNat

/-- EVENT_READ (R329). [DEDUCED, notes/assumptions/61] -/
def eventRead (r : Request) (s : State) : State :=
  let p := r.payload
  let n := if field p 4 4 = 0 then s.pointer.newest else field p 4 4
  let k := field p 8 1
  match field p 0 1 with
  | 0 =>
    if k = 0 || 7 < k then refuse r 0x20 0 s
    else
      let rs := (s.pointer.records.map (·.2)).filter fun e =>
        decide ((n + 2 ^ 32 - e.number) % 2 ^ 32 < 1024) && headerReadable s e
      let rs := (rs.insertionSort fun a b => (n + 2 ^ 32 - a.number) % 2 ^ 32 ≤ (n + 2 ^ 32 - b.number) % 2 ^ 32).take k
      answer r 0 0 (leBytes 2 rs.length ++ leBytes 2 0 ++ rs.flatMap recordBytes) s
  | 1 =>
    match recordEntry s n k with
    | some (_, z) =>
      if z.copy.isEmpty then refuse r 0x20 0 s
      else
        let room := requestLimit s r - 8
        answer r 0 0 (leBytes 4 z.copy.length ++ (z.copy.drop (field p 12 4)).take room) s
    | none => refuse r 0x20 0 s
  | _ => refuse r 0x20 0 s

/-- EVENT_READ. -/
def execEventRead (s : State) : Host.Outcome State Fault Refusal := .next (runCommand 0x0503 eventRead s)

end Sys2Proof.Machine
end

