-- ==== Sys2Proof/Machine/CalibExec.lean ====
section
/-! DEFINITION. Calibration (R523 to R534), crossings (R536), the lanes' self-test (R269), Scribe's heartbeat (R109), and
CAL_RUN, CAL_POINT and CAL_READ. -/

namespace Sys2Proof.Machine

/-! ## Fields in force and their limits -/

/-- Fields of an item (R523). Items 6 to 8 keep what their rules accept: two dark values, ln R_ref and T_ref, one trim. [DESIGN CHOICE, notes/assumptions/96] -/
def calFieldCount (item : Nat) : Nat := [0, 28, 19, 2, 2, 8, 2, 2, 1].getD item 0

/-- Indexes of an item (R523). [DESIGN CHOICE, notes/assumptions/96] -/
def calIndexes (item : Nat) : Nat := [0, 4, 4, 8, 4, 1, 4, 4, 3].getD item 0

/-- Factory value of a field: the fuses for items 1 and 5, unity gain for item 3, colour trims of 1, else 0. -/
def calFactory (item index k : Nat) : Int :=
  match item with
  | 1 | 5 => Config.factoryField item index k
  | 3 => if k = 0 then 0x01000000 else 0
  | 8 => 0x8000
  | _ => 0

/-- A fit coefficient as a bank holds it (R295, R525). [DESIGN CHOICE, notes/assumptions/96] -/
def fitCoef (b : Bank) (index k : Nat) : Int := bankRead b Pid.thermalCoef (idx2 index k)

/-- The value in force of a field (R532). -/
def calInForce (s : State) (item index k : Nat) : Int :=
  if item = 4 then fitCoef s.banks.active index k
  else (calItem s item index).inForce.getD k (calFactory item index k)

/-- The previous value of a field (R532). -/
def calPrevious (s : State) (item index k : Nat) : Int :=
  if item = 4 then fitCoef (s.banks.previous.getD s.banks.active) index k
  else (calItem s item index).previous.getD k (calFactory item index k)

/-- Is `v` within `d` of `c`? -/
def within (c v : Int) (d : Nat) : Bool := decide ((v - c).natAbs ≤ d)

/-- Limits of a trim's fields (R523): ratios and gains in 2^−24 (±5 %), offsets in µV. [DESIGN CHOICE, notes/assumptions/96] -/
def trimOk (k : Nat) (v : Int) : Bool :=
  if k < 18 then
    let r : Int := [2, 4, 8].getD (k % 3) 2
    decide ((v - r * 2 ^ 24).natAbs * 20 ≤ (r * 2 ^ 24).natAbs)
  else if k < 24 then within 0 v 20000
  else if k < 26 then within 0 v 10000
  else decide ((v - 2 ^ 24).natAbs * 20 ≤ 2 ^ 24)

/-- Limits of the correction's fields (R169), as item 2 numbers them. [DESIGN CHOICE, notes/assumptions/96] -/
def corrOk (k : Nat) (v : Int) : Bool :=
  if k < 4 then within 0 v 4096 else if k < 8 then within 0 v 30000 else if k < 11 then within 0 v 20000
  else if k < 13 then within 0 v 500 else if k < 15 then within 0 v 3000 else if k < 17 then within 0 v 4096 else within 0 v 30000

/-- Does field `k` of an item lie within its limits (R288, R523)? [DESIGN CHOICE, notes/assumptions/96] -/
def calFieldOk (s : State) (item index k : Nat) (v : Int) : Bool :=
  match item with
  | 1 => trimOk k v
  | 2 => corrOk k v
  | 3 => if k = 0 then within 0x01000000 v 83886 else within 0 v (if paramNat s Pid.rtdType index = 0 then 500 else 5000)
  | 4 => if k = 0 then within 0 v 327680 else within 0 v 2621440
  | 5 => if k < 6 then within (calFactory 5 0 k) v 500 else if k = 6 then within 320000 v 32000 else true
  | _ => true

/-- The first failing field of a set, with its value (R528). A field the set does not hold counts as 0. -/
def calFailing (s : State) (item index : Nat) (fields : List Int) : Option (Nat × Int) :=
  ((List.range (calFieldCount item)).map fun k => (k, fields.getD k 0)).find? fun f => !calFieldOk s item index f.1 f.2

/-- Is a run or a point of an item and index in progress (R527)? Index 0xFF of item 1 stands for every port. -/
def calRunning (s : State) (item index : Nat) : Bool :=
  if item = 1 then (if index = 0xFF then s.calib.trimming != 0 else s.calib.trimming.getLsbD index)
  else if item = 5 then (calItem s 5 0).running
  else s.calib.jobs.any fun j => j.item == item && j.index == index

/-! ## The ends of a run -/

/-- A step of a CAL_RUN entry is over: `bad` carries a rejected field. The entry ends with its last port (R146, R528). [DEDUCED, notes/assumptions/98] -/
def calStepEnd (n : Nat) (left : Bool) (bad : Option Nat) (s : State) : State :=
  let s := match bad with
    | some k => onJournal n (fun e => if e.status = 0 then { e with status := 0x22, detail := k } else e) s
    | none => journalStep n s
  if left then s
  else
    match journalOf s n with
    | some e => journalEnd n (if e.status = 0 then .done else .part) e.status e.detail s
    | none => s

/-- The journal of a run, and whether other indexes of the item still run under it; the item lets go of it. [DEDUCED, notes/assumptions/98] -/
def calTakeJournal (item index : Nat) (s : State) : Option (Nat × Bool) × State :=
  match (calItem s item index).journal with
  | some n =>
    let s := onItem item index (fun i => { i with journal := none }) s
    (some (n, (List.range (calIndexes item)).any fun i => (calItem s item i).journal == some n), s)
  | none => (none, s)

/-- A run of item 1 or 5 ends with `fields` (R525, R526, R528): within limits they wait for the round start; otherwise they are
rejected and the set in force stays. [DEDUCED, notes/assumptions/98] -/
def calFinish (item index : Nat) (fields : List Int) (s : State) : State :=
  let (job, s) := calTakeJournal item index s
  let bad := calFailing s item index fields
  let s := match bad with
    | some (k, v) => calReject item index k v s
    | none => calDone item index ((job.map (·.1)).getD 0) (calNext item index (fields.take (calFieldCount item)) s)
  match job with
  | some (n, left) => calStepEnd n left (bad.map (·.1)) s
  | none => s

/-- A port that waited for its trim is back in service while its rails hold (R52, R524). -/
def trimReturn (p : Nat) (s : State) : State :=
  let bit : BitVec 4 := 1#4 <<< p
  let back := s.calib.returning.getLsbD p && s.power.railStatus.getLsbD p && s.power.railStatus.getLsbD (4 + p)
  let s := onCal (fun c => { c with trimming := c.trimming &&& ~~~bit, returning := c.returning &&& ~~~bit }) s
  if back then
    settle s (onPort p (fun x => { x with awaitSlot0 := true })
      { s with power := { s.power with portOos := vecUpdate s.power.portOos p fun _ => false } })
  else s

/-- ANALOGUE_TRIM_DONE (R524 to R526): a trim of BOOT applies before the first shot, another at the port's next round. -/
def analogueTrimDone (p : Nat) (fields : List Int) (s : State) : State :=
  if s.mode.current == .boot then
    match calFailing s 1 p fields with
    | some (k, v) =>
      let stored := (calItem s 1 p).accepted
      calReject 1 p k v (onCal (fun c => { c with factoryTrim := if stored then c.factoryTrim else c.factoryTrim ||| (1#4 <<< p) }) s)
    | none =>
      calDone 1 p 0 (calAccept 1 p (fields.take 28) (onCal (fun c => { c with factoryTrim := c.factoryTrim &&& ~~~(1#4 <<< p) }) s))
  else if s.calib.trimming.getLsbD p then
    let ok := (calFailing s 1 p fields).isNone
    let s := onCal (fun c => { c with factoryTrim := if ok then c.factoryTrim &&& ~~~(1#4 <<< p) else c.factoryTrim }) s
    trimReturn p (calFinish 1 p fields s)
  else s

/-- ANALOGUE_TRIM_DONE. -/
def execAnalogueTrimDone (p : Fin 4) (fields : List Int) (s : State) : Host.Outcome State Fault Refusal :=
  .next (analogueTrimDone p fields s)

/-- A host series or the survey owns the measurement channel (R422, R524). [DEDUCED, notes/assumptions/101] -/
def tdcHeld (s : State) : Bool := s.time.tdc.running || s.mode.current == .survey

/-- A run of item 5 begins (R524). [DEDUCED, notes/assumptions/101] -/
def tdcDelayBegin (s : State) : State :=
  onItem 5 0 (fun i => { i with running := true }) (onCal (fun c => { c with tdcDue := false, tdcTemp := c.temp }) s)

/-- A run that temperature has made due begins once the channel is free (R524). [DEDUCED, notes/assumptions/101] -/
def tdcDelayStart (s : State) : State :=
  if s.calib.tdcDue && !tdcHeld s && !(calItem s 5 0).running && scribeRuns s then tdcDelayBegin s else s

/-- TDC_DELAY_RUN (R524): the junction, in 1/16 °C, has moved 10 °C since the last run. -/
def tdcDelayRun (temp : Int) (s : State) : State :=
  let s := onCal (fun c => { c with temp := temp }) s
  if !scribeRuns s || (temp - s.calib.tdcTemp).natAbs < 160 then s
  else tdcDelayStart (onCal (fun c => { c with tdcDue := true }) s)

/-- TDC_DELAY_RUN. -/
def execTdcDelayRun (temp : Int) (s : State) : Host.Outcome State Fault Refusal := .next (tdcDelayRun temp s)

/-- TDC_DELAY_DONE (R524, R525), at BOOT or after a run. [DEDUCED, notes/assumptions/101] -/
def tdcDelayDone (fields : List Int) (s : State) : State :=
  if s.mode.current == .boot then calFinish 5 0 fields (onCal (fun c => { c with tdcTemp := c.temp }) s)
  else if (calItem s 5 0).running then calFinish 5 0 fields (onItem 5 0 (fun i => { i with running := false }) s)
  else s

/-- TDC_DELAY_DONE. -/
def execTdcDelayDone (fields : List Int) (s : State) : Host.Outcome State Fault Refusal := .next (tdcDelayDone fields s)

/-! ## The plausibility watch -/

/-- A watch check's outcome (R534): its bit follows, and CAL_WATCH is posted on a change. [DEDUCED, notes/assumptions/100] -/
def watchSet (i : Nat) (failing : Bool) (value : Int) (s : State) : State :=
  if watchFailing s i == failing then s
  else post 0x3803 i (bit failing) value (onCal (fun c => { c with
    watch := if failing then c.watch ||| (1#4 <<< i) else c.watch &&& ~~~(1#4 <<< i) }) s)

/-- The first field in force of items 1 to 5 outside its limits: item, index, field, value. Running items are skipped (R527). [DEDUCED, notes/assumptions/100] -/
def inForceFailing (s : State) : Option (Nat × Nat × Nat × Int) :=
  let all := [1, 2, 3, 4, 5].flatMap fun item => (List.range (calIndexes item)).flatMap fun index =>
    if calRunning s item index || ((item = 1 ∨ item = 5) ∧ (calItem s item index).inForce = []) then []
    else (List.range (calFieldCount item)).map fun k => (item, index, k, calInForce s item index k)
  all.find? fun (item, index, k, v) => !calFieldOk s item index k v

/-- The previous set of an item comes back into force (R534, under R528). [DEDUCED, notes/assumptions/100] -/
def calRestore (item index k : Nat) (v : Int) (s : State) : State :=
  let s := calReject item index k v s
  if item = 4 then
    let old := s.banks.previous.getD s.banks.active
    let put (k : Nat) (b : Bank) : Bank := bankWrite b Pid.thermalCoef (idx2 index k) (fitCoef old index k)
    onBanks (fun b => { b with active := put 1 (put 0 b.active) }) s
  else onItem item index (fun i => { i with inForce := i.previous }) s

/-- PLAUSIBILITY_WATCH (R534): the readings of inputs 31 and 30, and the mean REXT code scaled to 1 mA. [DEDUCED, notes/assumptions/100] -/
def plausibilityWatch (offset reference rext : Int) (s : State) : State :=
  if !scribeRuns s || s.scribe.restarting then s
  else
    let s := watchSet 0 (!within 0 offset 16) offset s
    let s := watchSet 1 (decide (Config.referenceFactory < (reference - Config.referenceFactory).natAbs * 500)) reference s
    let boot := s.calib.rextBoot.getD rext
    let far := decide (3 * boot.natAbs < (rext - boot).natAbs * 100)
    let s := watchSet 2 far rext (onCal (fun c => { c with rextBoot := some boot }) s)
    let s := if far then { s with rtd := s.rtd.map fun r => { r with valid := false } } else s
    match inForceFailing s with
    | some (item, index, k, v) => calRestore item index k v (watchSet 3 true v s)
    | none => watchSet 3 false 0 s

/-- PLAUSIBILITY_WATCH. -/
def execPlausibilityWatch (offset reference rext : Int) (s : State) : Host.Outcome State Fault Refusal :=
  .next (plausibilityWatch offset reference rext s)

/-! ## Crossings, self-test and heartbeat -/

/-- XOVF (R536): a crossing of R537 has transferred a saturated count. [DESIGN CHOICE, notes/assumptions/74] -/
def crossingOverflow (x : Nat) (s : State) : State :=
  if x = 0 then s
  else tell 0x3C04 x 0 0 (bump Pid.integXovfCount 0 (onCal (fun c => { c with xovf := true, lastXidHi := BitVec.ofNat 4 x }) s))

/-- XOVF. -/
def execXovf (crossing : Fin 10) (s : State) : Host.Outcome State Fault Refusal := .next (crossingOverflow crossing s)

/-- SERIF_SELFTEST (R269, R271, R272): the lanes that failed, in MIRROR, or on request in TEST. -/
def serifSelftest (failed : BitVec 128) (s : State) : State :=
  if s.mode.current == .mirror || s.mode.current == .test then
    let s := { s with serif := { s.serif with
      failed := failed, status := if failed = 0 then s.serif.status &&& ~~~0x20 else s.serif.status ||| 0x20 } }
    let lanes := (List.range 128).filter failed.getLsbD
    match lanes with
    | [] => s
    | l :: _ => post 0x2006 lanes.length l 0 s
  else s

/-- SERIF_SELFTEST. -/
def execSerifSelftest (failed : BitVec 128) (s : State) : Host.Outcome State Fault Refusal := .next (serifSelftest failed s)

/-- HEARTBEAT_TOGGLE (R109): every 100 ms while Scribe runs. -/
def execHeartbeatToggle (s : State) : Host.Outcome State Fault Refusal :=
  .next (if s.scribe.ready && !s.scribe.restarting then { s with scribe := { s.scribe with heartbeat := !s.scribe.heartbeat } } else s)

/-- LOG_PROGRAM (R543, R544): logs pause in a Scribe restart (R90). -/
def execLogProgram (s : State) : Host.Outcome State Fault Refusal := .next (if s.scribe.restarting then s else logFlush s)

/-! ## CAL_RUN -/

/-- Answer ACCEPTED with the journal identifier in bytes 4 to 7 (R529). [DEDUCED, notes/assumptions/99] -/
def calAccepted (r : Request) (n : Nat) (s : State) : State := answer r 0x01 0 (leBytes 4 n) s

/-- A run that ends within its command: accepted fields or a rejection (R528, R531). -/
def calAtOnce (r : Request) (item index : Nat) (bad : Option (Nat × Int)) (use : State → State) (s : State) : State :=
  withJournal r 1 (fun n s =>
    let s := calAccepted r n (journalStart n s)
    match bad with
    | some (k, v) => journalEnd n .part 0x22 k (calReject item index k v s)
    | none => journalSteps n 1 (calDone item index n (use s))) s

/-- Ports of a CAL_RUN of item 1. [DESIGN CHOICE, notes/assumptions/132] -/
def trimPorts (index : Nat) : List Nat := if index = 0xFF then allPorts else [index]

/-- CAL_RUN of ANALOGUE_TRIM (R524, R529): the trims of its ports begin. [DEDUCED, notes/assumptions/98] -/
def calRunTrim (r : Request) (index : Nat) (s : State) : State :=
  withJournal r (trimPorts index).length (fun n s =>
    let s := calAccepted r n (journalStart n s)
    forEach (trimPorts index) (fun p s =>
      onItem 1 p (fun i => { i with journal := some n }) (onCal (fun c => { c with trimming := c.trimming ||| (1#4 <<< p) }) s)) s) s

/-- CAL_RUN of TDC_DELAY (R524). [DEDUCED, notes/assumptions/98] -/
def calRunDelay (r : Request) (s : State) : State :=
  withJournal r 1 (fun n s => onItem 5 0 (fun i => { i with journal := some n }) (tdcDelayBegin (calAccepted r n (journalStart n s)))) s

/-- Gain and offset of RTD_SYSCAL (R531) from the applied resistances in mΩ and the sums of 16 measurements in 2^−20 mΩ; equal
measurements leave the gain open. [DESIGN CHOICE, notes/assumptions/96] -/
def sysCal (zero full : Int × Int × Int) (s : State) : (Int × Int) × State :=
  let dm := full.2.1 - zero.2.1
  let (gain, s) := if dm = 0 then let (v, s) := drawFree s; ((v : Int), s) else (rhuDiv' ((full.1 - zero.1) * 2 ^ 48) dm, s)
  ((gain, rhu (zero.1 * 2 ^ 48 - gain * zero.2.1) 48), s)
where
  /-- Round half up after division by an integer of either sign. -/
  rhuDiv' (v d : Int) : Int := if d < 0 then rhuDiv (-v) (-d) else rhuDiv v d

/-- CAL_RUN of RTD_SYSCAL (R288, R531). [DEDUCED, notes/assumptions/98] -/
def calRunRtd (r : Request) (k : Nat) (s : State) : State :=
  let ps := (calItem s 3 k).points
  let apart : Int := if paramNat s Pid.rtdType k = 0 then 50000 else 500000
  match ps.find? (·.1 == 0), ps.find? (·.1 == 1) with
  | some (_, z), some (_, f) =>
    if (f.1 - z.1).natAbs < apart.natAbs then refuse r 0x20 0 s
    else
      let ((gain, offset), s) := sysCal z f s
      let fields := [gain, offset]
      let bad := if f.2.1 = z.2.1 then some (0, gain) else calFailing s 3 k fields
      let s := if bad.isSome then onRtd k (fun x => { x with calRejected := true }) s else s
      calAtOnce r 3 k bad (calAccept 3 k fields) s
  | _, _ => refuse r 0x20 0 s

/-- b00 and b10 of DTS_FIT in 2^−16 °C (R531), by least squares over its points: T_cal − T in m°C against x in 2^−20. Points of
equal x that should give a slope leave the fit open. [DESIGN CHOICE, notes/assumptions/97] -/
def fitSolve (slope : Bool) (ys xs : List Int) (s : State) : (Int × Int) × State :=
  let n : Int := ys.length
  let sy := ys.sum
  let sx := xs.sum
  let sxx := (xs.map fun x => x * x).sum
  let sxy := ((xs.zip ys).map fun e => e.1 * e.2).sum
  let d := n * sxx - sx * sx
  if !slope then ((rhuDiv (65536 * sy) (1000 * n), 0), s)
  else if d = 0 then
    let (a, s) := drawFree s
    let (b, s) := drawFree s
    (((a : Int), (b : Int)), s)
  else ((rhuDiv ((sy * sxx - sx * sxy) * 65536) (1000 * d), rhuDiv ((n * sxy - sx * sy) * 2 ^ 36) (1000 * d)), s)

/-- Is the fit's residual above 0.50 °C rms (R523)? [DESIGN CHOICE, notes/assumptions/97] -/
def fitLoose (b00 b10 : Int) (ys xs : List Int) : Bool :=
  let rs := (xs.zip ys).map fun e => e.2 * 2 ^ 36 - 1000 * (b00 * 2 ^ 20 + b10 * e.1)
  decide ((ys.length : Int) * (500 * 2 ^ 36) ^ 2 < (rs.map fun v => v * v).sum)

/-- CAL_RUN of DTS_FIT (R525, R531): the fit is staged into PENDING. A residual above its limit is rejected; which field and value
name it is open. [DESIGN CHOICE, notes/assumptions/97] -/
def calRunFit (r : Request) (p : Nat) (s : State) : State :=
  let ps := (calItem s 4 p).points.map (·.2)
  if ps.isEmpty then refuse r 0x20 0 s
  else
    let ys := ps.map fun e => e.1 - 10 * e.2.2
    let xs := ps.map fun e => e.2.1
    let slope := ps.any fun a => ps.any fun b => decide (20000 ≤ a.1 - b.1)
    let ((b00, b10), s) := fitSolve slope ys xs s
    let bad := calFailing s 4 p [b00, b10]
    let (bad, s) :=
      if bad.isNone && fitLoose b00 b10 ys xs then
        let (k, s) := drawFree s
        let (v, s) := drawFree s
        (some (k % 256, (v : Int)), s)
      else (bad, s)
    calAtOnce r 4 p bad (fun s =>
      let s := onItem 4 p (fun i => { i with accepted := true, acceptedTime := nowNet s }) s
      stageValue Pid.thermalCoef (idx2 p 0) b00 (stageValue Pid.thermalCoef (idx2 p 1) b10 s)) s

/-- CAL_RUN (R527, R529). [DEDUCED, notes/assumptions/98] -/
def calRun (r : Request) (s : State) : State :=
  let item := field r.payload 0 1
  let index := field r.payload 1 1
  let flags := field r.payload 2 1
  let known := [1, 3, 4, 5].contains item && (decide (index < calIndexes item) || (item == 1 && index == 0xFF))
  if item = 1 ∧ s.mode.current ≠ .config then refuse r 0x30 0 s
  else if !known || 1 < flags then refuse r 0x20 0 s
  else if calRunning s item index || (item = 5 ∧ tdcHeld s) then refuse r 0x31 0 s
  else if flags = 1 then
    let n := if item = 1 then (trimPorts index).length else 1
    withJournal r n (fun j s =>
      journalSteps j n (onItem item index (fun i => { i with points := [] }) (calAccepted r j (journalStart j s)))) s
  else
    match item with
    | 1 => calRunTrim r index s
    | 3 => calRunRtd r index s
    | 4 => calRunFit r index s
    | _ => calRunDelay r s

/-- CAL_RUN. -/
def execCalRun (s : State) : Host.Outcome State Fault Refusal := .next (runCommand 0x0800 calRun s)

/-! ## CAL_POINT and CAL_READ -/

/-- CAL_POINT (R527, R530). [DEDUCED, notes/assumptions/99] -/
def calPoint (r : Request) (s : State) : State :=
  let item := field r.payload 0 1
  let index := field r.payload 1 1
  let slot := field r.payload 2 1
  let first := field r.payload 8 4
  let last := field r.payload 12 4
  let ok :=
    if item = 3 then decide (index < 8) && decide (slot < 2) && first == 0 && last == 0
    else item == 4 && decide (index < 4) && decide (slot < 8) && decide (first ≤ last) && decide (last < dtsCells s index)
  if !ok then refuse r 0x20 0 s
  else if calRunning s item index then refuse r 0x31 0 s
  else
    withJournal r 1 (fun n s =>
      let given : Int := if item = 3 then field r.payload 4 4 else signed 32 (field r.payload 4 4)
      let job : PointJob := { item := item, index := index, slot := slot, given := given, first := first, last := last, journal := n }
      onCal (fun c => { c with jobs := c.jobs ++ [job] }) (calAccepted r n (journalStart n s))) s

/-- CAL_POINT. [DEDUCED, notes/assumptions/99] -/
def execCalPoint (s : State) : Host.Outcome State Fault Refusal := .next (runCommand 0x0801 calPoint s)

/-- Ten bytes of a network time (R10). -/
def timeBytes (t : NetTime) : List Byte := leBytes 6 t.sec ++ leBytes 4 t.ns

/-- Result fields of CAL_READ (R532). [DEDUCED, notes/assumptions/99] -/
def calBody (s : State) (item index : Nat) : List Byte :=
  let i := calItem s item index
  let state := if calRunning s item index then 2 else if i.accepted then 1 else 0
  let points := bits ((List.range 8).map fun k => i.points.any (·.1 == k))
  leBytes 1 item ++ leBytes 1 index ++ leBytes 1 state ++ leBytes 1 points ++ timeBytes i.acceptedTime ++ timeBytes i.rejectedTime ++
    leInt 4 i.rejectedValue ++ leBytes 1 i.rejectedField ++ leBytes 1 (calFieldCount item) ++ leBytes 2 0 ++
    (List.range (calFieldCount item)).flatMap fun k => leInt 4 (calInForce s item index k) ++ leInt 4 (calPrevious s item index k)

/-- CAL_READ (R532). [DEDUCED, notes/assumptions/99] -/
def calRead (r : Request) (s : State) : State :=
  let item := field r.payload 0 1
  let index := field r.payload 1 1
  if index < calIndexes item then answer r 0 0 (calBody s item index) s else refuse r 0x20 0 s

/-- CAL_READ. -/
def execCalRead (s : State) : Host.Outcome State Fault Refusal := .next (runCommand 0x0802 calRead s)

end Sys2Proof.Machine
end

