-- ==== Sys2Proof/Machine/Mailbox.lean ====
section
/-! DEFINITION. The rows of the mailbox itself: doorbell, response area and event queue of the control page (R113, R114,
R139), throttle and session ends, HELLO, PING, BYE and EVENT_SUBSCRIBE (R125 to R128, R136, R140), and the reads of the
journal, the log and the survey (R145, R177, R545). -/

namespace Sys2Proof.Machine

/-- DOORBELL_WRITE (R113, R120): submits the message in the request area, or sets OVERRUN while FREE is 0. [DEDUCED, notes/assumptions/63] -/
def doorbellWrite (t : Nat) (v : BitVec 32) (s : State) : State :=
  if (pageOf s t).reqFree then onPage t (fun g => { g with reqFree := false, doorbell := some (v.toNat % 8192) }) s
  else
    let s := onPage t (fun g => { g with overrun := true }) s
    if (transportOf s t).throttled then s else countViolation t s

/-- DOORBELL_WRITE. [DEDUCED, notes/assumptions/63] -/
def execDoorbellWrite (t : Fin 2) (v : BitVec 32) (s : State) : Host.Outcome State Fault Refusal := .next (doorbellWrite t v s)

/-- Bytes of the request area of a page transport (R106). -/
def requestArea (s : State) (t n : Nat) : List Byte :=
  (List.range n).map fun i => Store.read (fun _ => 0) (pageOf s t).request i

/-- MESSAGE_TAKEN (R113): Scribe copies the submitted message and frees the request area. -/
def messageTaken (t : Nat) (s : State) : State :=
  match (pageOf s t).doorbell with
  | none => s
  | some n =>
    if !s.scribe.ready then s
    else
      let bytes := requestArea s t (min n 4096)
      receive t 0 0 n bytes (irqSet t 2 (onPage t (fun g => { g with doorbell := none, reqFree := true }) s))

/-- MESSAGE_TAKEN. -/
def execMessageTaken (t : Fin 2) (s : State) : Host.Outcome State Fault Refusal := .next (messageTaken t s)

/-- RSP_ACK_WRITE (R114). -/
def execRspAckWrite (t : Fin 2) (s : State) : Host.Outcome State Fault Refusal :=
  .next (onPage t (fun g => { g with rspValid := false }) s)

/-- Is a message the OK answer of BYE, after which its session ends (R136)? [DEDUCED, notes/assumptions/62] -/
def byeAnswer (m : List Byte) : Bool := field m 2 2 == 0x0003 && field m 16 1 == 0

/-- RESPONSE_PLACED (R114, R122): the oldest waiting answer enters the response area and frees its tag. [DEDUCED, notes/assumptions/62] -/
def responsePlaced (t : Nat) (s : State) : State :=
  if (pageOf s t).rspValid then s
  else
    match (transportOf s t).waiting with
    | [] => s
    | w :: rest =>
      let s := onTransport t (fun x => { x with
        waiting := rest, tags := if w.holdsTag then x.tags.erase w.tag else x.tags }) s
      let s := irqSet t 0 (onPage t (fun g => { g with rspValid := true, rspTag := w.tag, response := w.bytes }) s)
      if byeAnswer w.bytes then endSession t s else s

/-- RESPONSE_PLACED. -/
def execResponsePlaced (t : Fin 2) (s : State) : Host.Outcome State Fault Refusal := .next (responsePlaced t s)

/-- Write EVENTS_LOST when events were dropped and the queue has space again (R139). -/
def eventsLost (s : State) : State :=
  if s.evq.dropped = 0 || (s.evq.head + 1) % 128 == s.evq.tail then s
  else
    let n := s.evq.dropped
    post 0x3C02 n 0 0 { s with evq := { s.evq with dropped := 0 } }

/-- EVQ_TAIL_WRITE (R108, R139): only the owner's write of a value below 128 counts. -/
def evqTailWrite (t : Nat) (v : BitVec 32) (s : State) : State :=
  if 128 ≤ v.toNat || paramNat s Pid.hostEvqOwner 0 ≠ t then s
  else eventsLost { s with evq := { s.evq with tail := v.toNat } }

/-- EVQ_TAIL_WRITE. -/
def execEvqTailWrite (t : Fin 2) (v : BitVec 32) (s : State) : Host.Outcome State Fault Refusal := .next (evqTailWrite t v s)

/-- THROTTLE_END (R123). -/
def throttleEnd (t : Nat) (s : State) : State :=
  let x := transportOf s t
  if x.throttled && decide (x.throttleFrom + msTicks 1000 ≤ s.ticks) then onTransport t (fun x => { x with throttled := false }) s
  else s

/-- THROTTLE_END. -/
def execThrottleEnd (t : Fin 4) (s : State) : Host.Outcome State Fault Refusal := .next (throttleEnd t s)

/-- SESSION_TIMEOUT (R127): the Ethernet session ends when no valid message has come for its timeout. -/
def sessionTimeout (s : State) : State :=
  match (transportOf s 2).session with
  | some ss => if ss.lastValid + secTicks (paramNat s Pid.hostOxrasSessionTimeoutS 0) ≤ s.ticks then endSession 2 s else s
  | none => s

/-- SESSION_TIMEOUT. -/
def execSessionTimeout (s : State) : Host.Outcome State Fault Refusal := .next (sessionTimeout s)

/-- Result fields of HELLO (R126). -/
def helloBody (r : Request) (v ident : Nat) (s : State) : List Byte :=
  leBytes 1 (v / 256) ++ leBytes 1 v ++ [3, 2, 2, 0].map (BitVec.ofNat 8) ++
  leBytes 2 (payloadLimit s r.transport r.ethPort r.source) ++ leBytes 1 16 ++ leBytes 1 r.transport ++ leBytes 2 0 ++
  leBytes 4 ident ++ leBytes 4 s.banks.active.epoch ++ leBytes 4 (fwVersion s).toNat ++ leBytes 4 s.journal.newest

/-- HELLO (R125 to R128): ends a live session and starts a new one. -/
def hello (r : Request) (s : State) : State :=
  if heldByOther s r && !hasBit r.flags 4 then refuse r 0x31 0xFF07 s
  else
    let old := ((transportOf s r.transport).session.map (·.source)).getD 0
    let s := if heldByOther s r then
        post 0x0402 r.transport (Config.addressHash old).toNat (Config.addressHash r.source).toNat s else s
    let v := (negotiate r.payload).getD 0x0302
    let ident := (s.scribe.sessions + 1) % 2 ^ 32
    let s := endSession r.transport { s with scribe := { s.scribe with sessions := ident } }
    let ss : Session := {
      version := v, ident := ident, source := r.source, ethPort := r.ethPort, lastValid := s.ticks }
    let s := onTransport r.transport (fun x => { x with session := some ss, tags := [r.tag] }) s
    answer { r with session := ident } 0 0 (helloBody r v ident s) s

/-- HELLO. -/
def execHello (s : State) : Host.Outcome State Fault Refusal := .next (runCommand 0x0001 hello s)

/-- PING (R136): echoes its payload. -/
def execPing (s : State) : Host.Outcome State Fault Refusal :=
  .next (runCommand 0x0002 (fun r => answer r 0 0 r.payload) s)

/-- BYE (R128, R136): the session ends after its answer, which a page transport still has to place. -/
def bye (r : Request) (s : State) : State :=
  let s := answerOk r s
  if r.transport < 2 then s
  else
    let eth := s.links.eth
    let s := endSession r.transport s
    { s with links := { s.links with eth := eth } }

/-- BYE. [DEDUCED, notes/assumptions/62] -/
def execBye (s : State) : Host.Outcome State Fault Refusal := .next (runCommand 0x0003 bye s)

/-- EVENT_SUBSCRIBE (R140): the sequence of a subscription counts from 0. -/
def eventSubscribe (r : Request) (s : State) : State :=
  let on := field r.payload 0 1
  if 1 < on then refuse r 0x20 0 s
  else answerOk r (onTransport r.transport (fun x => { x with
    session := x.session.map fun ss => { ss with subscribed := on == 1, eventSeq := 0 } }) s)

/-- EVENT_SUBSCRIBE. -/
def execEventSubscribe (s : State) : Host.Outcome State Fault Refusal := .next (runCommand 0x0009 eventSubscribe s)

/-- Version a request is served in: its session's. -/
def servedVersion (s : State) (r : Request) : Nat := ((transportOf s r.transport).session.map (·.version)).getD r.version

/-- JOURNAL_READ (R145). [DEDUCED, notes/assumptions/61] -/
def journalRead (r : Request) (s : State) : State :=
  let p := r.payload
  let sel := field p 0 1
  let arg := field p 1 1
  let newest := field p 4 4
  let most := field p 8 1
  if 2 < sel || (sel == 2 && (decide (servedVersion s r < 0x0302) || decide (4 < arg))) || most = 0 || 32 < most then
    refuse r 0x20 0 s
  else
    let wanted (e : JournalEntry) : Bool :=
      (newest == 0 || decide (e.ident ≤ newest)) &&
      (match sel with
       | 0 => e.tag == field p 2 2 && (arg == 0xFF || e.transport == arg)
       | 1 => true
       | _ => jstateCode e.state == arg)
    let es := (s.journal.entries.filter wanted).take most
    answer r 0 0 (leBytes 2 es.length ++ leBytes 2 0 ++ (es.map journalBytes).flatten) s

/-- JOURNAL_READ. -/
def execJournalRead (s : State) : Host.Outcome State Fault Refusal := .next (runCommand 0x0A00 journalRead s)

/-- A log entry as LOG_READ returns it (R545): its number, then the entry of R138; LOG_CONT carries data in bytes 8–23
(R544). -/
def logEntryBytes (e : LogEntry) : List Byte :=
  let b := entryBytes e.entry
  leBytes 4 e.number ++ (if e.entry.code = 0x3C06 then slice b 0 8 ++ slice e.data 0 16 ++ b.drop 24 else b)

/-- Up to `n` entries that `want` picks, newest first, and how many failed their check on the way (R543, R545). [DEDUCED, notes/assumptions/64] -/
def logScan (want : LogEntry → Bool) (n : Nat) (es : List LogEntry) : List LogEntry × Nat :=
  match es with
  | [] => ([], 0)
  | e :: rest =>
    match n with
    | 0 => ([], 0)
    | m + 1 =>
      if e.bad then let r := logScan want (m + 1) rest; (r.1, r.2 + 1)
      else if want e then let r := logScan want m rest; (e :: r.1, r.2)
      else logScan want (m + 1) rest

/-- LOG_READ (R543, R545): entries that fail their check are skipped and counted. [DEDUCED, notes/assumptions/64] -/
def logRead (r : Request) (s : State) : State :=
  let p := r.payload
  let sel := field p 0 1
  let newest := field p 4 4
  let most := field p 8 1
  if 1 < sel || most = 0 || 113 < most then refuse r 0x20 0 s
  else
    let n := min most ((requestLimit s r - 8) / 36)
    let from_ := s.log.entries.filter fun e => newest == 0 || decide (e.number ≤ newest)
    let (es, bad) := logScan (fun e => sel == 0 || e.entry.code == field p 2 2) n from_
    let s := if bad = 0 then s else bumpBy bad Pid.logBadEntries 0 s
    answer r 0 0 (leBytes 2 es.length ++ leBytes 2 0 ++ (es.map logEntryBytes).flatten) s

/-- LOG_READ. -/
def execLogRead (s : State) : Host.Outcome State Fault Refusal := .next (runCommand 0x0A01 logRead s)

/-- SURVEY_READ (R177). -/
def surveyRead (r : Request) (s : State) : State :=
  let p := field r.payload 0 1
  if 3 < p then refuse r 0x20 0 s
  else
    let v := (portOf s p).survey
    let first := field r.payload 4 2
    let room := (requestLimit s r - 304) / 2
    let pts := (v.profile.drop first).take (min (field r.payload 6 2) room)
    let pair (n : Nat) (xs : List (Nat × Nat)) : List Byte :=
      ((List.range n).map fun i => leBytes 4 ((xs[i]?.map (·.1)).getD 0) ++ leBytes 4 ((xs[i]?.map (·.2)).getD 0)).flatten
    let refl := ((List.range 32).map fun i =>
      leBytes 4 ((v.reflections[i]?.map (·.1)).getD 0) ++ leInt 2 ((v.reflections[i]?.map (·.2)).getD 0)).flatten
    answer r 0 0 (leBytes 4 v.journal ++ leBytes 6 v.time.sec ++ leBytes 4 v.time.ns ++ leBytes 1 v.result ++
      leBytes 1 v.blots.length ++ leBytes 4 v.endCell ++ leBytes 4 v.coilEnd ++ leBytes 4 v.groupIndex ++
      leBytes 4 v.originCell ++ pair 8 v.blots ++ leBytes 1 v.reflections.length ++ leBytes 3 0 ++ refl ++ leBytes 2 256 ++
      leBytes 2 v.profile.length ++ leBytes 2 first ++ leBytes 2 pts.length ++ (pts.map (leInt 2)).flatten) s

/-- SURVEY_READ. -/
def execSurveyRead (s : State) : Host.Outcome State Fault Refusal := .next (runCommand 0x0700 surveyRead s)

end Sys2Proof.Machine
end

