-- ==== Sys2Proof/Machine/HostLinks.lean ====
section
/-! DEFINITION. The host links of chapter 15 and the control page of chapter 05: PCIe resets and link (R42, R428 to R431),
Ethernet link and received frames (R445, R446), reads and writes of the page's registers (R107, R108, R538), SPI (R452,
R453), SMBus (R454) and JTAG (R459). -/

namespace Sys2Proof.Machine

/-- Update the host links. -/
def onLinks (f : Links → Links) (s : State) : State := { s with links := f s.links }

/-! ## PCIe -/

/-- PE_PERST_N, hot reset and function level reset (R42, R430): the endpoint, the PCIe mailbox transport and its page
registers, DMA_ENABLE, HEAD and TAIL. [DESIGN CHOICE, notes/assumptions/37] -/
def pcieReset (s : State) : State :=
  let s := onPage 0 (fun _ => { reqFree := s.scribe.ready }) (endSession 0 s)
  resetQueues (onLinks (fun l => { l with msix := 0, pcieL1 := false, peWake := false }) s)

/-- PE_PERST_N_ASSERT (R42). -/
def execPePerstNAssert (s : State) : Host.Outcome State Fault Refusal :=
  .next { pcieReset s with pins := { s.pins with perst := true } }

/-- PCIE_HOT_RESET (R430). -/
def execPcieHotReset (s : State) : Host.Outcome State Fault Refusal := .next (pcieReset s)

/-- PCIE_FLR (R430). -/
def execPcieFlr (s : State) : Host.Outcome State Fault Refusal := .next (pcieReset s)

/-- Is the PCIe link held down by its rail or by RESET? [DEDUCED, notes/assumptions/82] -/
def pcieHeld (s : State) : Bool := !s.power.railStatus.getLsbD 10 || s.mode.current == .reset

/-- PCIE_LINK_CHANGE (R428, R463): the caps of `host.pcie_max_gen` and `host.pcie_max_width` bound what training gives; a
link that is up has its PLL locked and is in L0. [DEDUCED, notes/assumptions/82] -/
def pcieLinkChange (up : Bool) (gen : BitVec 4) (width : BitVec 3) (s : State) : State :=
  if !up then pcieDown s
  else if pcieHeld s then s
  else
    let g := min gen.toNat (paramNat s Pid.hostPcieMaxGen 0)
    let w := min width.toNat (paramNat s Pid.hostPcieMaxWidth 0)
    let same := s.links.pcieUp && s.links.pcieGen == BitVec.ofNat 4 g && s.links.pcieWidth == BitVec.ofNat 3 w
    let s := { onLinks (fun l => { l with
        pcieUp := true, pcieGen := BitVec.ofNat 4 g, pcieWidth := BitVec.ofNat 3 w, pcieL1 := false, peWake := false }) s with
      pins := { s.pins with perst := false }, clocks := { s.clocks with locked := s.clocks.locked ||| 0x10#5 } }
    if same then s else tell 0x0406 1 g w s

/-- PCIE_LINK_CHANGE. -/
def execPcieLinkChange (up : Bool) (gen : BitVec 4) (width : BitVec 3) (s : State) : Host.Outcome State Fault Refusal :=
  .next (pcieLinkChange up gen width s)

/-- Something asks for the PCIe link: an item staged for it, or an enabled interrupt condition (R431). [DEDUCED, notes/assumptions/82] -/
def pcieWanted (s : State) : Bool :=
  (List.range 8).any (fun q => queueLink s q == 1 && !(queueOf s q).staged.isEmpty) ||
  ((pageOf s 0).irqStatus &&& (pageOf s 0).irqEnable) != 0

/-- PCIE_L1_WAKE (R431). [DEDUCED, notes/assumptions/82] -/
def execPcieL1Wake (s : State) : Host.Outcome State Fault Refusal :=
  .next (if s.links.pcieL1 && pcieWanted s then onLinks (fun l => { l with peWake := true }) s else s)

/-! ## Ethernet -/

/-- ETH_LINK (R445, R463). -/
def ethLink (n : Nat) (up : Bool) (s : State) : State :=
  if !up then ethDown n s
  else if ethHeld s n || (ethOf s n).linkUp then s
  else
    let g := ethRate1g s n
    let s := onEth n (fun e => { e with linkUp := true, rate1g := g, anComplete := g }) s
    tell 0x0405 n 1 (bit g) (bump Pid.hostEthLinkChanges n s)

/-- ETH_LINK. -/
def execEthLink (n : Fin 2) (up : Bool) (s : State) : Host.Outcome State Fault Refusal := .next (ethLink n up s)

/-- Learn a neighbour's MAC address (R446). [DESIGN CHOICE, notes/assumptions/84; DEDUCED, notes/assumptions/151] -/
def learn (n addr mac : Nat) (s : State) : State :=
  onEth n (fun e => { e with neighbours := (addr, mac) :: e.neighbours.filter fun x => x.1 != addr }) s

/-- Discard a received frame and count it (R446). [DESIGN CHOICE, notes/assumptions/84] -/
def rxDrop (n : Nat) (s : State) : State := bump Pid.hostEthRxDropped n s

/-- IPv6 address of port `n`, 0 for none (R461). -/
def ethIpv6 (s : State) (n : Nat) : Nat := paramNat s Pid.hostEthIpv6Hi n * 2 ^ 64 + paramNat s Pid.hostEthIpv6Lo n

/-- A datagram of the port's own protocols joins the transmit queue after PTP (R448). [DESIGN CHOICE, notes/assumptions/84] -/
def ethReply (n dest : Nat) (m : List Byte) (s : State) : State :=
  onEth n (fun e => { e with txOxras := e.txOxras ++ [(dest, m)] }) s

/-- Address to which port `n` sends a datagram for `dest` (R446): itself on the link, else the gateway of IPv4 or the learned IPv6 router;
an IPv6 link has a prefix of 64 bits. -/
def nextHop (s : State) (n dest : Nat) (v6 : Bool) : Option Nat :=
  if v6 then
    if dest / 2 ^ 64 = ethIpv6 s n / 2 ^ 64 then some dest else (ethOf s n).router.map (·.1)
  else
    let host := 2 ^ (32 - paramNat s Pid.hostEthIpv4Prefix n)
    let gate := paramNat s Pid.hostEthIpv4Gateway n
    if dest / host = paramNat s Pid.hostEthIpv4 n / host then some dest else if gate = 0 then none else some gate

/-- An ARP reply (PRESUMED: RFC 826). [PRESUMED, notes/assumptions/14] -/
def arpReply (s : State) (n addr mac : Nat) : List Byte :=
  beBytes 2 1 ++ beBytes 2 0x0800 ++ [6, 4] ++ beBytes 2 2 ++ beBytes 6 (Config.macAddress n).toNat ++
  beBytes 4 (paramNat s Pid.hostEthIpv4 n) ++ beBytes 6 mac ++ beBytes 4 addr

/-- A neighbour advertisement without its checksum (PRESUMED: RFC 4861). [PRESUMED, notes/assumptions/14; DEDUCED, notes/assumptions/151] -/
def neighbourReply (s : State) (n : Nat) : List Byte :=
  [136, 0, 0, 0, 0x60, 0, 0, 0] ++ beBytes 16 (ethIpv6 s n) ++ [2, 1] ++ beBytes 6 (Config.macAddress n).toNat

/-- An echo reply without its checksum (PRESUMED: RFC 792, RFC 4443). [PRESUMED, notes/assumptions/14] -/
def echoReply (v6 : Bool) (payload : List Byte) : List Byte := [if v6 then 129 else 0, 0, 0, 0] ++ payload

/-- Number that stands for a source address and UDP port, with its family. [DESIGN CHOICE, notes/assumptions/84] -/
def sourceNumber (source : Nat) (v6 : Bool) : Nat := source * 2 + bit v6

/-- A PTP message as Ethernet port `n` received it. -/
def ptpOnPort (n : Fin 2) (m : PtpMessage) : PtpMessage :=
  match m with
  | .announce _ d o a b => .announce n d o a b
  | .sync _ d o q a b c e => .sync n d o q a b c e
  | .followUp _ d o q a b => .followUp n d o q a b
  | .delayResp _ d o q a b => .delayResp n d o q a b
  | .pdelayReq _ d o q => .pdelayReq n d o q
  | .pdelayResp _ d o q a => .pdelayResp n d o q a

/-- ETH_FRAME_RX (R446). Oxras datagrams that come while Scribe takes no messages are discarded uncounted (R120). [PRESUMED, notes/assumptions/14; DESIGN CHOICE, notes/assumptions/84] -/
def ethFrameRx (n : Fin 2) (f : EthFrame) (s : State) : State :=
  if !(ethOf s n).linkUp then s
  else
    match f with
    | .badFcs => rxDrop n (onEth n (fun e => { e with rxErrSeen := true }) s)
    | .arp addr mac request target =>
      let own := paramNat s Pid.hostEthIpv4 n
      if own = 0 || target ≠ own then rxDrop n s
      else
        let s := learn n addr mac s
        if request then ethReply n addr (arpReply s n addr mac) s else s
    | .neighbour addr mac solicit hi lo =>
      let own := ethIpv6 s n
      if own = 0 || (solicit && hi * 2 ^ 64 + lo ≠ own) then rxDrop n s
      else
        let s := learn n addr mac s
        if solicit then ethReply n addr (neighbourReply s n) s else s
    | .router addr mac =>
      if ethIpv6 s n = 0 then rxDrop n s else onEth n (fun e => { e with router := some (addr, mac) }) s
    | .echo source dest v6 payload =>
      let own := if v6 then ethIpv6 s n else paramNat s Pid.hostEthIpv4 n
      if own = 0 || dest ≠ own then rxDrop n s else ethReply n source (echoReply v6 payload) s
    | .udp source v6 port fragment payload =>
      if fragment || !paramBool s Pid.hostOxrasUdpEnable 0 || port ≠ paramNat s Pid.hostOxrasUdpPort 0 then rxDrop n s
      else if !s.scribe.ready then s
      else receive 2 (sourceNumber source v6) n payload.length payload s
    | .ptp m => ptpMessageRx (ptpOnPort n m) s
    | .other => rxDrop n s

/-- ETH_FRAME_RX. [PRESUMED, notes/assumptions/14] -/
def execEthFrameRx (n : Fin 2) (f : EthFrame) (s : State) : Host.Outcome State Fault Refusal := .next (ethFrameRx n f s)

/-! ## Register reads -/

/-- Word `n` of a byte list, little-endian. -/
def byteWord (bs : List Byte) (n : Nat) : Nat := field bs (4 * n) 4

/-- TIME_SNAP_HI and TIME_SNAP_EXT with snapshot tag `tag` (R108). -/
def snapHi (s : State) : Nat := (selectedNet s).sec % 2 ^ 32
/-- TIME_SNAP_EXT (R108). -/
def snapExt (s : State) (tag : BitVec 4) : Nat := tag.toNat * 65536 + (selectedNet s).sec / 2 ^ 32 % 65536

/-- ESTOP (R111). -/
def estopWord (s : State) : Nat := s.safety.estopCount.toNat * 256 + 2 * bit s.safety.estop

/-- RSP_STATUS of page transport `t` (R108). -/
def rspStatus (s : State) (t : Nat) : Nat :=
  let g := pageOf s t
  g.rspTag * 65536 + 32768 * bit g.rspValid + g.response.length

/-- Identity registers, offsets below 0x100 (R108). -/
def identityWord (s : State) (off : Nat) : Nat :=
  match off with
  | 0x00 => 0x46400B31
  | 0x04 => 0x10 * 2 ^ 24 + bit Config.gradeIndustrial * 65536
  | 0x08 => Config.serial.toNat % 2 ^ 32
  | 0x0C => Config.serial.toNat / 2 ^ 32
  | 0x10 => (fwVersion s).toNat
  | 0x14 => 0x02000302
  | 0x18 => capsWord s
  | 0x1C => idStraps s
  | _ => 0

/-- Registers with a snapshot: low word offset, and the live values of its high words (R108, R538). [DEDUCED, notes/assumptions/70] -/
def snapshotHighs (s : State) (t off : Nat) : List (Nat × Nat) :=
  if off = 0x144 then [(0x148, snapHi s), (0x14C, snapExt s s.calib.snapTag)]
  else if off = 0x150 then [(0x154, (transportOf s t).messages / 2 ^ 32)]
  else if 0x180 ≤ off ∧ off < 0x1A0 ∧ off % 8 = 0 then [(off + 4, (portOf s ((off - 0x180) / 8)).shotSeq.toNat / 2 ^ 32)]
  else []

/-- Low words with a snapshot (R108). [DEDUCED, notes/assumptions/70] -/
def snapshotLows : List Nat := [0x144, 0x150, 0x180, 0x188, 0x190, 0x198]

/-- Live value of a snapshot high word; none for another offset. -/
def liveHigh (s : State) (t off : Nat) : Option Nat :=
  ((snapshotLows.flatMap (snapshotHighs s t)).find? fun e => e.1 == off).map (·.2)

/-- Status and counter registers that are no snapshot high word, as page transport `t` reads them (R108). Write-only
registers read 0. -/
def statusWord (s : State) (t off : Nat) : Nat :=
  match off with
  | 0x100 => hostStatus s (some t)
  | 0x108 => bit (pageOf s t).reqFree + 2 * bit (pageOf s t).overrun
  | 0x10C => rspStatus s t
  | 0x114 => estopWord s
  | 0x118 => healthWord s
  | 0x11C => cfgState s
  | 0x120 => s.banks.active.epoch
  | 0x124 => (pageOf s t).irqStatus.toNat
  | 0x128 => (pageOf s t).irqEnable.toNat
  | 0x12C => s.scribe.scratch.toNat
  | 0x130 => s.evq.head
  | 0x134 => s.evq.tail
  | 0x138 => paramNat s Pid.hostEvqLost 0
  | 0x13C => paramNat s (violParam t) 0
  | 0x140 => bits (allPorts.map fun i => (transportOf s i).throttled)
  | 0x144 => (selectedNet s).ns
  | 0x150 => (transportOf s t).messages % 2 ^ 32
  | 0x158 => linkStatus s
  | 0x15C => unsigned 16 s.calib.temp
  | 0x160 => feedStatus s
  | 0x164 => clkStatus s
  | 0x168 => pairStatus s
  | 0x16C => safetyStatus s
  | 0x170 => ringSpanMs s
  | 0x174 => s.pointer.newest
  | 0x178 => dmaEnable s
  | 0x17C => dmaStatus s
  | _ =>
    if 0x180 ≤ off ∧ off < 0x1A0 ∧ off % 8 = 0 then (portOf s ((off - 0x180) / 8)).shotSeq.toNat % 2 ^ 32
    else if 0x200 ≤ off ∧ off < 0x220 then (queueOf s ((off - 0x200) / 4)).head.toNat
    else if 0x220 ≤ off ∧ off < 0x240 then (queueOf s ((off - 0x220) / 4)).tail.toNat
    else 0

/-- Word of the request, response and event areas (R106). -/
def areaWord (s : State) (t off : Nat) : Nat :=
  if off < 0x2000 then leNat ((List.range 4).map fun i => Store.read (fun _ => 0) (pageOf s t).request (off - 0x1000 + i))
  else if off < 0x3000 then byteWord (pageOf s t).response ((off - 0x2000) / 4)
  else if off < 0x4000 then
    match s.evq.slots.find? fun e => e.1 == (off - 0x3000) / 32 with
    | some e => byteWord (entryBytes e.2) (off % 32 / 4)
    | none => 0
  else 0

/-- A read of a snapshot high word (R538): a latched value is returned and its latch released; without one the live
value is returned and TORN_READ is set. [DEDUCED, notes/assumptions/70] -/
def readHigh (t off live : Nat) (s : State) : State :=
  match (pageOf s t).latched.find? fun e => e.1 == off with
  | some e => onPage t (fun g => { g with latched := Store.erase g.latched off, readData := e.2 }) s
  | none =>
    { onPage t (fun g => { g with torn := true, readData := BitVec.ofNat 32 live }) s with
      calib := { s.calib with tornSeen := true } }

/-- A read of a snapshot low word (R538): its high words are latched; TIME_SNAP's tag rises by 1. [DEDUCED, notes/assumptions/70] -/
def readLow (t off : Nat) (s : State) : State :=
  let s := if off = 0x144 then { s with calib := { s.calib with snapTag := s.calib.snapTag + 1 } } else s
  let highs := snapshotHighs s t off
  onPage t (fun g => { g with
    latched := highs.foldl (fun l e => Store.put l e.1 (BitVec.ofNat 32 e.2)) g.latched,
    readData := BitVec.ofNat 32 (statusWord s t off) }) s

/-- A 32-bit read of the control page at an aligned offset by transport `t`, with its effects (R107, R108). [DEDUCED, notes/assumptions/13; DESIGN CHOICE, notes/assumptions/108] -/
def readWord (t off : Nat) (s : State) : State :=
  if snapshotLows.contains off then readLow t off s
  else
    match liveHigh s t off with
    | some v => readHigh t off v s
    | none =>
      let v := if off < 0x100 then identityWord s off else if off < 0x1000 then statusWord s t off else areaWord s t off
      onPage t (fun g => { g with readData := BitVec.ofNat 32 v }) s

/-- SNAPSHOT_LOW_READ (R538): a read of a low word. -/
def execSnapshotLowRead (t : Fin 2) (off : Nat) (s : State) : Host.Outcome State Fault Refusal :=
  .next (if snapshotLows.contains off then readLow t off s else s)

/-- SNAPSHOT_HIGH_READ (R538): a read of a high word. -/
def execSnapshotHighRead (t : Fin 2) (off : Nat) (s : State) : Host.Outcome State Fault Refusal :=
  .next (match liveHigh s t off with
    | some v => readHigh t off v s
    | none => s)

/-! ## Register writes -/

/-- IRQ_ENABLE (R110): a PCIe bit newly enabled over a set status bit raises its vector. [DEDUCED, notes/assumptions/13; DESIGN CHOICE, notes/assumptions/37] -/
def writeIrqEnable (t : Nat) (v : BitVec 5) (s : State) : State :=
  let g := pageOf s t
  let fresh := v &&& ~~~g.irqEnable &&& g.irqStatus
  let s := onPage t (fun g => { g with irqEnable := v }) s
  if t = 0 then forEach ((List.range 5).filter fun i => fresh.getLsbD i) raiseVector s else s

/-- DMA_ENABLE (R440): a rising bit starts its queue, a falling one stops it. -/
def writeDmaEnable (v : BitVec 32) (s : State) : State :=
  forEach (List.range 8) (fun q s =>
    if v.getLsbD q == (queueOf s q).enabled then s
    else if v.getLsbD q then queueEnable q s else queueDisable q s) s

/-- A byte written into the request area (R106). -/
def writeAreaByte (t off : Nat) (b : Byte) (s : State) : State :=
  if 0x1000 ≤ off ∧ off < 0x2000 then
    onPage t (fun g => { g with request := Store.write (fun _ => 0) g.request (off - 0x1000) b }) s
  else s

/-- A 32-bit write at an aligned offset of the control page by transport `t` (R107, R108); reserved and read-only
registers ignore it. [DEDUCED, notes/assumptions/13; DEDUCED, notes/assumptions/138] -/
def writeWord (t off : Nat) (v : BitVec 32) (s : State) : State :=
  match off with
  | 0x100 => onPage t (fun g => { g with torn := g.torn && !v.getLsbD 15 }) s
  | 0x104 => doorbellWrite t v s
  | 0x108 => onPage t (fun g => { g with overrun := g.overrun && !v.getLsbD 1 }) s
  | 0x110 => onPage t (fun g => { g with rspValid := false }) s
  | 0x114 => if v.getLsbD 0 then estopStop t s else s
  | 0x124 => onPage t (fun g => { g with irqStatus := g.irqStatus &&& ~~~(v.setWidth 5) }) s
  | 0x128 => writeIrqEnable t (v.setWidth 5) s
  | 0x12C => { s with scribe := { s.scribe with scratch := v } }
  | 0x134 => evqTailWrite t v s
  | 0x178 => writeDmaEnable v s
  | _ =>
    if 0x220 ≤ off ∧ off < 0x240 then writeTail ((off - 0x220) / 4) v s
    else if 0x1000 ≤ off ∧ off < 0x2000 then
      forEach (List.range 4) (fun i s => writeAreaByte t (off + i) (BitVec.ofNat 8 (v.toNat / 256 ^ i)) s) s
    else s

/-- REGISTER_WRITE (R107) of 8, 16 or 32 bits (`size` 0, 1, 2): a register ignores a narrow or an unaligned write; the request area
takes each byte. -/
def registerWrite (t size off : Nat) (v : BitVec 32) (s : State) : State :=
  if size = 2 && off % 4 == 0 then writeWord t off v s
  else if 0x1000 ≤ off && off < 0x2000 then
    forEach (List.range (2 ^ size)) (fun i s => writeAreaByte t (off + i) (BitVec.ofNat 8 (v.toNat / 256 ^ i)) s) s
  else s

/-- REGISTER_WRITE. [DESIGN CHOICE, notes/assumptions/106; DEDUCED, notes/assumptions/138] -/
def execRegisterWrite (t : Fin 2) (off : Nat) (v : RegData) (s : State) : Host.Outcome State Fault Refusal :=
  .next (registerWrite t v.size off v.value s)

/-! ## SPI -/

/-- The target takes SPI transactions: it is out of reset. [DEDUCED, notes/assumptions/83] -/
def targetsServe (s : State) : Bool := s.mode.current != .reset

/-- Status byte of byte 0 (R453). [DEDUCED, notes/assumptions/83] -/
def spiStatus (s : State) : Byte :=
  let w := hostStatus s (some 1)
  BitVec.ofNat 8 (4 * bits ([11, 7, 10, 8, 9, 12].map (hasBit w)))

/-- Data of `n` bytes read from offset `off` (R452): each register is read once, when the first of its bytes is due. [DEDUCED, notes/assumptions/83; DEDUCED, notes/assumptions/138] -/
def spiRead (n off : Nat) (first : Bool) (s : State) : List Byte × State :=
  match n with
  | 0 => ([], s)
  | m + 1 =>
    if 0x4000 ≤ off then (List.replicate (m + 1) 0, s)
    else
      let s := if first || off % 4 == 0 then readWord 1 (off - off % 4) s else s
      let b := BitVec.ofNat 8 ((pageOf s 1).readData.toNat / 256 ^ (off % 4))
      let r := spiRead m (off + 1) false s
      (b :: r.1, r.2)

/-- Data bytes written from offset `off` (R452): a register is written when its fourth byte arrives, so a part of one has
no effect. `seen` holds the bytes of the word in progress, newest first. [DEDUCED, notes/assumptions/83; DEDUCED, notes/assumptions/138] -/
def spiWrite (data : List Byte) (off : Nat) (seen : List Byte) (s : State) : State :=
  match data with
  | [] => s
  | b :: rest =>
    let seen := if off % 4 = 0 then [b] else b :: seen
    let s :=
      if 0x1000 ≤ off then writeAreaByte 1 off b s
      else if off % 4 = 3 ∧ seen.length = 4 then writeWord 1 (off - 3) (BitVec.ofNat 32 (leNat seen.reverse)) s
      else s
    spiWrite rest (off + 1) seen s

/-- SPI_TRANSACTION (R452, R453): with `host.spi_enable` clear the target answers every read with 0 and ignores writes. [DEDUCED, notes/assumptions/83] -/
def spiTransaction (mosi : List Byte) (s : State) : State :=
  if !targetsServe s then s
  else
    let st := spiStatus s
    let off := ((mosi.getD 1 0).toNat * 256 + (mosi.getD 2 0).toNat)
    let on := paramBool s Pid.hostSpiEnable 0
    let done (data : List Byte) (s : State) : State := onLinks (fun l => { l with spiData := st :: data }) s
    match mosi with
    | 0x03#8 :: _ =>
      let n := mosi.length - 4
      if on then let r := spiRead n off true s; done r.1 r.2 else done (List.replicate n 0) s
    | 0x02#8 :: _ => done [] (if on && decide (3 ≤ mosi.length) then spiWrite (mosi.drop 3) off [] s else s)
    | _ => done [] s

/-- SPI_TRANSACTION. -/
def execSpiTransaction (mosi : List Byte) (s : State) : Host.Outcome State Fault Refusal := .next (spiTransaction mosi s)

/-! ## SMBus -/

/-- The 7-bit address of the SMBus target: 0x58 and the sampled SMB_ASEL straps (R46). -/
def smbAddress (s : State) : BitVec 7 := BitVec.ofNat 7 (0x58 + s.straps.smbAsel.toNat)

/-- A transaction is this target's (R46, R454): its address is the strap address, and the target serves from BOOT on. -/
def smbMine (s : State) (addr : BitVec 7) : Bool := addr == smbAddress s && targetsServe s

/-- A block read at the target's address returns its words (R454). -/
def smbRead (addr : BitVec 7) (words : List Nat) (s : State) : State :=
  if smbMine s addr then onLinks (fun l => { l with smbData := (words.map (leBytes 4)).flatten }) s else s

/-- SMB_READ_ID (R454): ID_LO, ID_HI. -/
def execSmbReadId (addr : BitVec 7) (s : State) : Host.Outcome State Fault Refusal :=
  .next (smbRead addr [identityWord s 0x00, identityWord s 0x04] s)

/-- SMB_READ_SERIAL (R454). -/
def execSmbReadSerial (addr : BitVec 7) (s : State) : Host.Outcome State Fault Refusal :=
  .next (smbRead addr [identityWord s 0x08, identityWord s 0x0C] s)

/-- SMB_READ_FW_VERSION (R454). -/
def execSmbReadFwVersion (addr : BitVec 7) (s : State) : Host.Outcome State Fault Refusal :=
  .next (smbRead addr [identityWord s 0x10] s)

/-- SMB_READ_HOST_STATUS (R454): the bits that belong to a mailbox transport read 0. -/
def execSmbReadHostStatus (addr : BitVec 7) (s : State) : Host.Outcome State Fault Refusal :=
  .next (smbRead addr [hostStatus s none] s)

/-- SMB_READ_HEALTH (R454). -/
def execSmbReadHealth (addr : BitVec 7) (s : State) : Host.Outcome State Fault Refusal := .next (smbRead addr [healthWord s] s)

/-- SMB_READ_TEMP (R454). -/
def execSmbReadTemp (addr : BitVec 7) (s : State) : Host.Outcome State Fault Refusal :=
  .next (smbRead addr [unsigned 16 s.calib.temp] s)

/-- SMB_READ_FEED_STATUS (R454). -/
def execSmbReadFeedStatus (addr : BitVec 7) (s : State) : Host.Outcome State Fault Refusal := .next (smbRead addr [feedStatus s] s)

/-- SMB_READ_SAFETY_STATUS (R454). -/
def execSmbReadSafetyStatus (addr : BitVec 7) (s : State) : Host.Outcome State Fault Refusal :=
  .next (smbRead addr [safetyStatus s] s)

/-- SMB_READ_TIME_SNAP (R454, R538): the three words from one snapshot, whose tag rises. [DEDUCED, notes/assumptions/70] -/
def smbTimeSnap (addr : BitVec 7) (s : State) : State :=
  if smbMine s addr then
    let s := { s with calib := { s.calib with snapTag := s.calib.snapTag + 1 } }
    smbRead addr [(selectedNet s).ns, snapHi s, snapExt s s.calib.snapTag] s
  else s

/-- SMB_READ_TIME_SNAP. -/
def execSmbReadTimeSnap (addr : BitVec 7) (s : State) : Host.Outcome State Fault Refusal := .next (smbTimeSnap addr s)

/-- SMB_READ_ESTOP (R454). -/
def execSmbReadEstop (addr : BitVec 7) (s : State) : Host.Outcome State Fault Refusal := .next (smbRead addr [estopWord s] s)

/-- SMB_WRITE_ESTOP (R111, R454): a wrong PEC or count has no effect and is counted. [DESIGN CHOICE, notes/assumptions/106] -/
def smbWriteEstop (data : SmbData) (pecOk : Bool) (s : State) : State :=
  if !smbMine s data.address then s
  else if !pecOk || data.bytes.length ≠ 4 then bump Pid.hostSmbPecErrors 0 s
  else if hasBit (leNat data.bytes) 0 then estopStop 2 s
  else s

/-- SMB_WRITE_ESTOP. -/
def execSmbWriteEstop (data : SmbData) (pecOk : Bool) (s : State) : Host.Outcome State Fault Refusal :=
  .next (smbWriteEstop data pecOk s)

/-! ## JTAG -/

/-- An instruction that leaves the balls to the device takes the place of a test instruction (R459): the leash follows
the mode again. [DEDUCED, notes/assumptions/85] -/
def jtagFunctional (s : State) : State :=
  if s.links.jtagTest then
    let s := onLinks (fun l => { l with jtagTest := false }) s
    settle s (modeLeash s)
  else s

/-- JTAG_BYPASS (R459). [DEDUCED, notes/assumptions/85] -/
def execJtagBypass (s : State) : Host.Outcome State Fault Refusal := .next (jtagFunctional s)

/-- JTAG_IDCODE (R459). -/
def execJtagIdcode (s : State) : Host.Outcome State Fault Refusal :=
  .next (onLinks (fun l => { l with jtagData := Config.jtagIdcode }) (jtagFunctional s))

/-- JTAG_SAMPLE_PRELOAD (R459): the boundary register takes the levels of the signal balls. -/
def execJtagSamplePreload (levels : List Bool) (s : State) : Host.Outcome State Fault Refusal :=
  .next (onLinks (fun l => { l with boundary := levels }) (jtagFunctional s))

/-- JTAG_EXTEST (R459): emission stays off, and ILK_N is released. [DEDUCED, notes/assumptions/85] -/
def jtagExtest (s : State) : State :=
  settle s (stopDriving (onLinks (fun l => { l with jtagTest := true }) s))

/-- JTAG_EXTEST. -/
def execJtagExtest (s : State) : Host.Outcome State Fault Refusal := .next (jtagExtest s)

/-- JTAG_TRST (R459): the TAP in reset holds no test instruction. [DEDUCED, notes/assumptions/85] -/
def execJtagTrst (s : State) : Host.Outcome State Fault Refusal := .next (jtagFunctional s)

end Sys2Proof.Machine
end

