-- ==== Sys2Proof/Machine/PairExec.lean ====
section
/-! DEFINITION. The pair unit (chapter 16): barks and failure detection (R469 to R473), the leash and takes (R474 to R480),
state copies (R481 to R483), readiness (R484), planned handovers (R485 to R487), what the taker continues from (R488, R489),
and the pair's commands (R490 to R494). -/

namespace Sys2Proof.Machine

/-! ## Readiness -/

/-- Library CRC (R469): over the image CRCs of program indexes 0 to 63, 0 for an empty index. -/
def libraryCrc (s : State) : Nat :=
  (crc32c ((List.range 64).flatMap fun i => leBytes 4 (((programOf s.serif.library i).map (·.crc)).getD 0))).toNat

/-- The conditions of R484 in order. [DEDUCED, notes/assumptions/88] -/
def readyConditions (s : State) : List Bool :=
  let peer := s.pair.peer
  let x := slotOf s s.firmware.running
  let trial := (s.pair.applied.map (·.trial)).getD s.banks.trial
  [s.mode.current == .mirror && pairEnabled s, pathsLive s, decide (s.pair.copyAge.toNat ≤ 2),
   (peer.map fun b => b.epoch == s.banks.active.epoch).getD false && trial == s.banks.trial,
   (peer.map fun b => b.library == libraryCrc s).getD false,
   decide (x.formatLo ≤ s.banks.active.format) && decide (s.banks.active.format ≤ x.formatHi),
   selftestFailed s == 0, decide (s.pair.timeOffset.natAbs ≤ 1000)]

/-- First failing condition of R484, 0 for none. [DEDUCED, notes/assumptions/88] -/
def readyCondition (s : State) : Nat := (((readyConditions s).findIdx? fun c => !c).map (· + 1)).getD 0

/-- READY and PULL_OK follow their conditions, and a change of either is posted (R484, R490, R497). [DEDUCED, notes/assumptions/88] -/
def pairRefresh (s : State) : State :=
  let c := readyCondition s
  let now := c == 0
  let changed := now != s.pair.ready
  let s := onPair (fun x => { x with ready := now, readyCond := c }) s
  let s := if changed then tell 0x300A (bit now) c 0 s else s
  let p := pullOkNow s
  if p == s.pair.pullOk then s
  else
    let old := s
    tell 0x300B (bit p) 0 0 (settle old (onPair (fun x => { x with pullOk := p }) s))

/-! ## Takes -/

/-- The unit's take, or its wait for the peer's, ends in MIRROR (R478, R486): T19. [DEDUCED, notes/assumptions/90] -/
def returnMirror (s : State) : State := enterMirror 19 (cutHandover 0x31 (stopDriving s))

/-- ILK_N is driven, and the test of R474 follows 10 µs later. [DEDUCED, notes/assumptions/90] -/
def takeDrive (s : State) : State := startDriving (onPair (fun x => { x with step := .driving }) s)

/-- A take starts with T17 (R476, R477). `planned` says that a FINAL copy marked it, `host` that PAIR_HANDOVER TAKE did. A
planned take waits for the peer to release ILK_N; another one never takes a held leash. -/
def beginTake (cause : Nat) (planned host : Bool) (s : State) : State :=
  let s := interruptTransition 0x30 s
  let zero := planned || !s.straps.unitId || (host && s.pair.idConflict)
  let s := onPair (fun x => { x with
    step := .waiting, taking := true, cause := cause, fromMode := .mirror, waitZero := zero || planned }) s
  let s := tell 0x3004 cause 3 0 (setMode .handover 17 s)
  if s.pair.ilkHeld then (if planned then s else returnMirror s)
  else if zero then takeDrive s
  else s

/-- An automatic take (R465, R476): from MIRROR with the pair enabled, outside an ID conflict. -/
def autoTake (cause : Nat) (s : State) : State :=
  if s.mode.current == .mirror && pairEnabled s && !s.pair.idConflict && !s.pair.ilkHeld then beginTake cause false false s else s

/-- A mode a take resumes (R480, T18): RUN or SENTINEL. [DEDUCED, notes/assumptions/91] -/
def takenMode (c : Option CopyState) : Mode :=
  match c with
  | some x => if (if x.mode == .inhibit then x.interrupted else x.mode) == .sentinel then .sentinel else .run
  | none => .run

/-- Slot fire times of port `p`'s grid from the axis epoch up to `ns` (R152, R412), with a tolerance of one cell for a fire
time stated in whole nanoseconds. [DEDUCED, notes/assumptions/91] -/
def slotsUntil (s : State) (p ns : Nat) : Nat :=
  ((2 * ns + 5) * portSlots s p / 5 - paramNat s Pid.gridOffsetCells p * portSlots s p) / max 1 (portPeriod s p)

/-- Slot fire times up to, and with, the first slot 0 at or after `ns` (R412). [DEDUCED, notes/assumptions/91] -/
def slotsToStart (s : State) (p ns : Nat) : Nat :=
  ceilDiv (ceilDiv (2 * ns) 5 - paramNat s Pid.gridOffsetCells p) (max 1 (portPeriod s p)) * portSlots s p

/-- Slot fire times after the copied shot of port `p`, up to and with this unit's first shot (R488). [DEDUCED, notes/assumptions/91] -/
def slotsMissed (c : CopyState) (s : State) (p : Nat) : Nat :=
  let start := nowNs s + paramNat s Pid.pairSwitchSettleUs 0 * 1000
  slotsToStart s p start - slotsUntil s p (vecRead c.fireNs p 0)

/-- Processed rounds of a zone after its copied last output and before this unit's first round (R488). [DEDUCED, notes/assumptions/91] -/
def zoneLost (c : CopyState) (z : CopyZone) (s : State) : Nat :=
  let p := zonePort z.zone
  let copied := vecRead c.shotSeq p 0
  let first := copied + slotsMissed c s p
  let last := copied - ((copied + 2 ^ 32 - z.last.getD copied % 2 ^ 32) % 2 ^ 32)
  (first - 1) / max 1 z.div - last / max 1 z.div

/-- Frames of one output of zone `z` (R230). [DEDUCED, notes/assumptions/91] -/
def framesPerOutput (s : State) (z : Nat) : Nat :=
  let b := s.banks.active
  let w := max 1 (pointWidth b s.serif.library z)
  max 1 (ceilDiv (zonePoints b z) (65536 / w))

/-- A zone continues from the copy (R488, R489): history from zero, EDGE, and one GAP marker of cause HANDOVER. [DEDUCED, notes/assumptions/91] -/
def continueZone (c : CopyState) (z : CopyZone) (s : State) : State :=
  let lost := zoneLost c z s
  let jump := if c.final then 0 else (lost + 1) * framesPerOutput s z.zone
  noteGap z.zone lost (if z.suspended then 2 else 1) (forgetPieces z.zone (onZone z.zone (fun x => { freshZone x with
    suspended := z.suspended, paged := z.paged,
    degraded := ((grantOf (planInForce s (zonePort z.zone)) z.zone).map fun g => grantDegraded g && !g.suspended).getD false, frameSeq := BitVec.ofNat 48 (z.nextSeq + jump), lastOut := z.last }) s))

/-- A copied open record is closed INCOMPLETE with its data freed (R324, R488). [DEDUCED, notes/assumptions/91] -/
def continueRecord (c : CopyState) (r : EventRecord) (s : State) : State :=
  let post_ := min r.postReq ((c.taken - netNs r.time) / 1000)
  let r : EventRecord := { r with
    completeness := 3, flags := r.flags ||| 0x10#8, postActual := post_, closed := nowNet s,
    zones := r.zones.map fun z => { z with stream := 0, copy := [] } }
  let slot := recordSlot s r.number
  let s := if s.pointer.records.any fun e => e.1 == slot then bump Pid.ptrRecordsOverwritten 0 s else s
  let s := endCollection r (onPtr (fun x => { x with records := Store.put x.records slot r }) s)
  post 0x2402 r.number 3 r.flags.toNat (setRecord { r with collecting := false } s)

/-- A time in the sender's ticks before the snapshot, as ticks of this unit (R482): both axes tell how long ago the snapshot was. -/
def ownTick (c : CopyState) (s : State) (tick : Nat) : Nat := s.ticks - (c.takenTick - tick + (netNs (nowNet s) - c.taken) * 4 / 5)

/-- A port's accumulation continues from the copied snapshot (R280, R488); the last trace's buffer is the unit's own. [DEDUCED, notes/assumptions/91] -/
def continueRaman (c : CopyState) (p : Nat) (s : State) : State :=
  let x := vecRead c.raman p {}
  paramPut Pid.ramanTraces p (vecRead c.traces p 0 : Nat) (onRaman p (fun own => { x with
    resumed := x.running, launchOpen := false, firstTick := ownTick c s x.firstTick, lastTick := ownTick c s x.lastTick, launchTick := ownTick c s x.launchTick,
    handoff := own.handoff, handoffHeld := own.handoffHeld, handoffTick := own.handoffTick, header := own.header }) s)

/-- The time unit continues (R482, R488): domains keep this unit's steered counters. [DEDUCED, notes/assumptions/91] -/
def continueTime (c : CopyState) (s : State) : State :=
  let s := forEach [0, 1] (fun d s =>
    let x := vecRead c.domains d {}
    paramPut Pid.timeDomServoState d (vecRead c.servo d 0) (onDomain d (fun own => { own with
      increment := x.increment, locked := x.locked, servoTimeout := x.servoTimeout, syncTimeout := x.syncTimeout,
      servoTick := ownTick c s x.servoTick }) s)) s
  onTime (fun t => { t with
    select := c.select, holdover := c.holdover, holdCause := c.holdCause, holdIncrement := c.holdIncrement,
    axis := (((vecRead t.domains c.select.val {}).count : Int) + c.axisOffset).toNat,
    slewing := c.slewing, syncIntegral := c.syncIntegral, syncLocked := c.syncLocked }) s

/-- A port continues (R480, R488): shot numbers stay on its grid, it starts after the settling time, and the Stroke
re-baselines with cause 4. [DEDUCED, notes/assumptions/91] -/
def continuePort (c : Option CopyState) (p : Nat) (s : State) : State :=
  let seq := (c.map fun c => vecRead c.shotSeq p 0 + slotsMissed c s p - 1).getD (portOf s p).shotSeq.toNat
  onPort p (fun x => { x with
    shotSeq := BitVec.ofNat 48 seq, holdUntil := s.ticks + usTicks (paramNat s Pid.pairSwitchSettleUs 0),
    rebaseNext := some (0, 4) }) s

/-- The copied grants of the zones apply to the plan in force (R482). [DEDUCED, notes/assumptions/91] -/
def continuePlan (c : CopyState) (pl : Plan) : Plan :=
  { pl with grants := pl.grants.map fun g =>
    match c.zones.find? fun z => z.zone == g.zone with
    | some z => { g with div := z.div, suspended := z.suspended, paged := z.paged }
    | none => g }

/-- The unit that takes over continues from its last applied copy (R488, R489). [DEDUCED, notes/assumptions/91] -/
def continueCopy (c : CopyState) (s : State) : State :=
  let ports := allPorts.filter (portEnabled s)
  let jump := if c.final then 0 else (ports.map (slotsMissed c s)).sum
  let s := { s with herder := { s.herder with
    run := continuePlan c s.herder.run, sentinel := continuePlan c s.herder.sentinel } }
  let s := forEach c.zones (continueZone c) s
  let s := if c.activeEpoch = s.banks.active.epoch then onBanks (fun b => { b with commitTime := c.commitTime }) s else s
  let s := onPtr (fun x => { x with seqs := c.seqs, newest := (c.newestEvent + jump) % 2 ^ 32 }) s
  let s := forEach c.openRecords (continueRecord c) s
  let s := updateMasterArm 2 (paramPut Pid.ptrFlags 0 c.flags (paramPut Pid.ptrMasterArm 0 (bit c.masterArm) s))
  continueTime c (forEach allPorts (continueRaman c) s)

/-- T18 of a take (R480): OWN is set, and the unit enters the mode of its last applied copy. A device-wide withdrawal then
causes T12 at once. [DEDUCED, notes/assumptions/91] -/
def takeDone (s : State) : State :=
  let cause := s.pair.cause
  let copy := s.pair.applied
  let s := onPair (fun x => { x with
    step := .idle, taking := false, lastCause := cause, lastTime := nowNet s, unacked := false }) (bump Pid.pairHandovers 0 s)
  let s := if takenMode copy == .sentinel then enterSentinel 18 s else enterRun 18 s
  let lost := (copy.map fun c => ((c.zones.map fun z => zoneLost c z s).foldl Nat.max 0)).getD 0
  let s := forEach (allPorts.filter (portEnabled s)) (continuePort copy)
    (match copy with | some c => continueCopy c s | none => s)
  let s := post 0x3005 cause ((copy.map (·.epoch)).getD 0) lost (ringRestart 4 s)
  let s := match s.pair.journal with
    | some n => journalSteps n 4 (onPair (fun x => { x with journal := none }) s)
    | none => s
  if devicePermit s then s else enterInhibit s

/-! ## The leash -/

/-- A collision (R479): unit 1, or both under an ID conflict, stop driving; unit 0 retests. [DEDUCED, notes/assumptions/90] -/
def leashCollision (s : State) : State :=
  let gives := s.pair.idConflict || s.straps.unitId
  let s := tell 0x3008 (bit s.straps.unitId) (bit gives) 0 (bump Pid.pairLeashCollisions 0 s)
  if gives then
    let s := onPair (fun x => { x with ilkHeld := true }) (stopDriving s)
    if s.mode.current == .handover then returnMirror s else s
  else onPair (fun x => { x with retest := true }) s

/-- LEASH_OWN_TEST (R474, R477): the test 10 µs after the unit began to drive, or the retest of R479. [DEDUCED, notes/assumptions/90] -/
def leashOwnTest (held current : Bool) (s : State) : State :=
  if !s.pair.driving || s.pair.own then s
  else
    let old := s
    let s := onPair (fun x => { x with ilkHeld := held, retest := false }) s
    if held && current then
      let s := settle old (onPair (fun x => { x with own := true }) s)
      if s.mode.current == .handover then takeDone s else s
    else if held then leashCollision s
    else
      let s := stopDriving s
      if s.mode.current == .handover then returnMirror s else s

/-- LEASH_OWN_TEST. -/
def execLeashOwnTest (held current : Bool) (s : State) : Host.Outcome State Fault Refusal :=
  .next (pairRefresh (leashOwnTest held current s))

/-- OWN_CLEAR (R474, R501): OWN clears while the unit drives, which withdraws the OWN term. [DEDUCED, notes/assumptions/90] -/
def ownClear (held : Bool) (s : State) : State :=
  if !s.pair.driving || !s.pair.own then s
  else
    let s1 := settle s (onPair (fun x => { x with own := false, ilkHeld := held }) s)
    let s2 := if scribeRuns s1 then emissionStopped 8 0xF s1 else s1
    if held then leashCollision s2 else stopDriving s2

/-- OWN_CLEAR. -/
def execOwnClear (held : Bool) (s : State) : Host.Outcome State Fault Refusal := .next (pairRefresh (ownClear held s))

/-- ILK_N_RELEASED (R476, R477): a planned take drives at once; a unit in MIRROR takes from a failed or releasing peer. -/
def ilkNReleased (s : State) : State :=
  if s.pair.driving then s
  else
    let s := onPair (fun x => { x with ilkHeld := false }) s
    if s.mode.current == .handover then
      (if s.pair.step == .waiting && s.pair.waitZero then takeDrive s else s)
    else if s.pair.peerFailed then autoTake 3 s
    else if (s.pair.peer.map fun b => b.flags.getLsbD 4).getD false then autoTake 4 s
    else s

/-- ILK_N_RELEASED. -/
def execIlkNReleased (s : State) : Host.Outcome State Fault Refusal := .next (pairRefresh (ilkNReleased s))

/-- The releasing unit finds ILK_N held by its peer (R485 step 8, R487): T19, or T23 after a release for T14. [DEDUCED, notes/assumptions/89] -/
def releaseDone (s : State) : State :=
  let s := onPair (fun x => { x with lastCause := x.cause, lastTime := nowNet s }) (bump Pid.pairHandovers 0 s)
  if s.pair.toConfig then
    let request := s.pair.request
    let journal := s.pair.journal
    let s := enterConfig 23 (onPair (fun x => { x with
      step := .idle, handoverReq := false, finalSent := false, toConfig := false, journal := none, request := none }) s)
    match journal with
    | some n =>
      let s := journalSteps n 1 s
      match request with
      | some r => answer r 0 0 (leBytes 4 23 ++ leBytes 4 n) s
      | none => s
    | none => s
  else
    let s := match s.pair.journal with
      | some n => journalSteps n 1 (onPair (fun x => { x with journal := none }) s)
      | none => s
    enterMirror 19 s

/-- ILK_N_HELD (R485): the line is held while this unit does not drive it. [DEDUCED, notes/assumptions/90] -/
def ilkNHeld (s : State) : State :=
  if s.pair.driving then s
  else
    let s := onPair (fun x => { x with ilkHeld := true }) s
    if s.mode.current == .handover && s.pair.step == .released then releaseDone s else s

/-- ILK_N_HELD. -/
def execIlkNHeld (s : State) : Host.Outcome State Fault Refusal := .next (pairRefresh (ilkNHeld s))

/-- VACANT_TIMEOUT (R476): ILK_N has stayed released for `pair.vacant_ms`. -/
def vacantTimeout (s : State) : State :=
  let busy := (s.pair.busyBark.map fun t => decide (s.ticks < t + msTicks (paramNat s Pid.pairVacantMs 0))).getD false
  if paramBool s Pid.pairAutoTake 0 && !busy then autoTake 6 s else s

/-- VACANT_TIMEOUT. -/
def execVacantTimeout (s : State) : Host.Outcome State Fault Refusal := .next (pairRefresh (vacantTimeout s))

/-- TAKE_WAIT_END (R477): the 100 µs are over. -/
def takeWaitEnd (s : State) : State :=
  if s.mode.current != .handover || s.pair.step != .waiting || s.pair.waitZero then s
  else if s.pair.ilkHeld then returnMirror s
  else takeDrive s

/-- TAKE_WAIT_END. -/
def execTakeWaitEnd (s : State) : Host.Outcome State Fault Refusal := .next (pairRefresh (takeWaitEnd s))

/-- HANDOVER_TIMEOUT (R478): 100 ms in HANDOVER without the leash. -/
def handoverTimeout (s : State) : State :=
  if s.mode.current != .handover || s.pair.own then s else returnMirror s

/-- HANDOVER_TIMEOUT. -/
def execHandoverTimeout (s : State) : Host.Outcome State Fault Refusal := .next (pairRefresh (handoverTimeout s))

/-! ## Barks and failure -/

/-- The unit sends barks (R78, R469, R471): the pair enabled, out of RESET and BOOT, not stopped by T16, Scribe running. -/
def barksSent (s : State) : Bool := pairEnabled s && scribeRuns s && !s.pair.stopped && !s.scribe.restarting

/-- Flags of a bark (R469). -/
def barkFlags (s : State) : Nat :=
  bits [s.pair.own, s.mode.current == .fault, s.pair.ready, s.pair.handoverReq, s.pair.release, s.pair.finalSent,
    s.pair.taking, pullOkNow s]

/-- The ten bytes of a network time in a bark. -/
def stampBytes (t : NetTime) : List Byte := leBytes 6 t.sec ++ leBytes 4 t.ns

/-- The 64 bytes of a bark (R469). -/
def barkBytes (s : State) : List Byte :=
  let copy := if s.mode.current == .mirror then ((s.pair.applied.map (·.epoch)).getD 0) else s.pair.copyEpoch.toNat
  let b := leBytes 1 1 ++ leBytes 1 s.pair.linkVersion ++ leBytes 1 (bit s.straps.unitId) ++
    leBytes 1 (modeCode s.mode.current) ++ leBytes 4 s.pair.barkSeq.toNat ++ leBytes 2 (barkFlags s) ++
    leBytes 1 (feedStatus s) ++ leBytes 1 (selftestFailed s) ++ leBytes 4 copy ++ stampBytes (selectedNet s) ++
    stampBytes s.pair.echo ++ stampBytes s.pair.rx ++ leBytes 4 s.banks.active.epoch ++ leBytes 4 (fwVersion s).toNat ++
    leBytes 4 (libraryCrc s) ++ leBytes 2 (healthWord s)
  b ++ leBytes 4 (crc32c b).toNat

/-- BARK_SEND (R469): a Scribe that fills barks services the pair watchdog. -/
def barkSend (s : State) : State :=
  if !barksSent s then s
  else
    let s := pairRefresh (onPair (fun x => { x with watchdogOk := true }) s)
    let b := barkBytes s
    segorSend 0 b (onPair (fun x => { x with barkSeq := x.barkSeq + 1 }) s)

/-- BARK_SEND. -/
def execBarkSend (s : State) : Host.Outcome State Fault Refusal := .next (barkSend s)

/-- PAIR_WATCHDOG_EXPIRY (R471): HB_OUT is held at 0. -/
def execPairWatchdogExpiry (s : State) : Host.Outcome State Fault Refusal :=
  .next (onPair (fun x => { x with watchdogOk := false }) s)

/-- ID_CONFLICT (R465) follows the peer's UNIT_ID; it is posted once. -/
def idConflict (unitId : Bool) (s : State) : State :=
  let now := unitId == s.straps.unitId
  let was := s.pair.idConflict
  let s := onPair (fun x => { x with idConflict := now }) s
  if now && !was then tell 0x3009 (bit s.straps.unitId) 0 0 s else s

/-- Offset of the peer's time from a bark received at `t4` (R470), ns. [DESIGN CHOICE, notes/assumptions/81] -/
def barkOffset (b : Bark) (t4 : NetTime) : Int :=
  ptpNs ((((netNs b.rx : Int) - netNs b.echo) - ((netNs t4 : Int) - netNs b.tx)) * (stampNs / 2))

/-- A handover of this unit is given up before the release (R486): it keeps the leash and resumes its mode under T18. [DEDUCED, notes/assumptions/92] -/
def abortHandover (reason : Nat) (s : State) : State :=
  let from_ := s.pair.fromMode
  let s := cutHandover 0x31 (tell 0x3006 reason 0 0 s)
  setMode from_ 18 { s with ports := s.ports.map fun x => { x with stopping := false, awaitSlot0 := true, dark := true } }

/-- BARK_RECEIVED (R465, R469, R470, R476, R485): the peer's status, the ID check and, in MIRROR, the time steering. -/
def barkReceived (b : Bark) (s : State) : State :=
  if !pairEnabled s || !s.pair.linkUp || !scribeRuns s then s
  else
    let t4 := selectedNet s
    let s := idConflict b.unitId (onPair (fun x => { x with
      peer := some b, echo := b.tx, rx := t4, busyBark := if b.flags.getLsbD 6 || b.flags.getLsbD 3 then some s.ticks else x.busyBark }) s)
    let s :=
      if s.mode.current == .mirror then
        let d := barkOffset b t4
        onPair (fun x => { x with timeOffset := d, steer := if 20 < d.natAbs then d * nsUnits else 0 }) s
      else s
    let s := if s.pair.step == .stopping && !s.pair.forced && !b.flags.getLsbD 2 then abortHandover 2 s else s
    if b.flags.getLsbD 4 then autoTake 4 s else s

/-- BARK_RECEIVED. -/
def execBarkReceived (b : Bark) (s : State) : Host.Outcome State Fault Refusal := .next (pairRefresh (barkReceived b s))

/-- HB_PATH_SILENT (R472). -/
def hbPathSilent (s : State) : State :=
  if !pairEnabled s || s.pair.hbSilent then s
  else tell 0x3001 0 (pairRole s) 0 (onPair (fun x => { x with hbSilent := true }) s)

/-- HB_PATH_SILENT. -/
def execHbPathSilent (s : State) : Host.Outcome State Fault Refusal := .next (pairRefresh (hbPathSilent s))

/-- BARK_PATH_SILENT (R472). -/
def barkPathSilent (s : State) : State :=
  if !pairEnabled s || s.pair.linkLost then s
  else tell 0x3001 1 (pairRole s) 0 (onPair (fun x => { x with linkLost := true }) s)

/-- BARK_PATH_SILENT. -/
def execBarkPathSilent (s : State) : Host.Outcome State Fault Refusal := .next (pairRefresh (barkPathSilent s))

/-- PAIR_PATH_RESTORED (R472, R473): PEER_FAILED clears when both paths are live again. -/
def pairPathRestored (path : Fin 2) (s : State) : State :=
  let silent := if path = 0 then s.pair.hbSilent else s.pair.linkLost
  if !silent then s
  else
    let s := onPair (fun x => if path = 0 then { x with hbSilent := false } else { x with linkLost := false }) s
    tell 0x3002 path.val 0 0 (if s.pair.hbSilent || s.pair.linkLost then s else onPair (fun x => { x with peerFailed := false }) s)

/-- PAIR_PATH_RESTORED. -/
def execPairPathRestored (path : Fin 2) (s : State) : Host.Outcome State Fault Refusal :=
  .next (pairRefresh (pairPathRestored path s))

/-- PEER_FAILED (R473): both paths have been silent for `pair.failover_ms`; the peer ceases to be READY. -/
def peerFailed (s : State) : State :=
  if !pairEnabled s || !s.pair.hbSilent || !s.pair.linkLost || s.pair.peerFailed then s
  else
    let s := tell 0x3003 (pairRole s) (bit s.pair.ilkHeld) 0 (onPair (fun x => { x with
      peerFailed := true, peer := x.peer.map fun b => { b with flags := b.flags &&& ~~~0x0004#16 } }) s)
    autoTake 3 s

/-- PEER_FAILED. -/
def execPeerFailed (s : State) : Host.Outcome State Fault Refusal := .next (pairRefresh (peerFailed s))

/-- PEER_PRESENT_CHANGE (R466). -/
def execPeerPresentChange (present : Bool) (s : State) : Host.Outcome State Fault Refusal :=
  .next (onPair (fun x => { x with peerPresent := present }) s)

/-! ## The Segor link -/

/-- SEGOR_LINK_UP (R467): the highest version that both sides have, of 1 and 2 here; without one the link stays down. [DEDUCED, notes/assumptions/94] -/
def segorLinkUp (lo hi : Nat) (s : State) : State :=
  let v := min 2 hi
  if s.mode.current == .reset || !s.power.railStatus.getLsbD 10 || v < max 1 lo then s
  else onPair (fun x => { x with linkUp := true, linkVersion := v }) s

/-- SEGOR_LINK_UP. -/
def execSegorLinkUp (peerLow peerHigh : Nat) (s : State) : Host.Outcome State Fault Refusal :=
  .next (pairRefresh (segorLinkUp peerLow peerHigh s))

/-- SEGOR_LINK_DOWN (R103, R467, R497): a planned handover that waits for COPY_ACK or for its ports is aborted. [DEDUCED, notes/assumptions/94] -/
def segorLinkDown (s : State) : State :=
  let s := segorDown s
  if s.pair.step == .stopping || s.pair.step == .finalSent then abortHandover 3 s else s

/-- SEGOR_LINK_DOWN. -/
def execSegorLinkDown (s : State) : Host.Outcome State Fault Refusal := .next (pairRefresh (segorLinkDown s))

/-- A MAILBOX frame (R136, R468): a request of transport 3, or the peer's response to a relayed message. -/
def mailboxFrame (m : List Byte) (s : State) : State :=
  if !s.scribe.ready then s
  else if hasBit (field m 10 2) 6 then s
  else if hasBit (field m 10 2) 5 then
    match s.links.relay with
    | some r => answer r 0 0 m (onLinks (fun l => { l with relay := none }) s)
    | none => s
  else receive 3 0 0 m.length m s

/-- SEGOR_FRAME_RECEIVED (R468): a frame with a bad CRC is discarded and counted. Barks, COPY_ACK and copies have their effect
under rows of their own. [DEDUCED, notes/assumptions/93] -/
def segorFrameReceived (kind : Nat) (bytes : List Byte) (s : State) : State :=
  let n := bytes.length - 4
  if !s.pair.linkUp then s
  else if bytes.length < 5 || field bytes n 4 ≠ (crc32c (bytes.take n)).toNat then bump Pid.pairFrameErrors 0 s
  else
    let body := (bytes.take n).drop 1
    match kind with
    | 2 => mailboxFrame body s
    | 3 => onPair (fun x => { x with peerCond := some (field body 20 1, s.ticks) }) s
    | _ => s

/-- SEGOR_FRAME_RECEIVED. -/
def execSegorFrameReceived (kind : Fin 5) (bytes : List Byte) (s : State) : Host.Outcome State Fault Refusal :=
  .next (segorFrameReceived kind.val bytes s)

/-! ## Copies -/

/-- Fire time of the last shot of port `p` on the axis, ns, from its grid period and slot (R152, R412). -/
def lastFireNs (s : State) (p : Nat) : Nat :=
  match (portOf s p).shots.head? with
  | some t =>
    let n := max 1 (portSlots s p)
    ((paramNat s Pid.gridOffsetCells p + t.period * portPeriod s p) * n + t.slot * portPeriod s p) * 5 / (2 * n)
  | none => nowNs s

/-- A zone as a copy carries it (R482). -/
def copyZone (s : State) (z : Nat) : CopyZone :=
  let x := zoneOf s z
  ⟨z, grantedDiv s z, x.suspended, x.paged, x.frameSeq.toNat, x.lastOut⟩

/-- A snapshot for copy epoch `epoch` (R481, R482); `mode` is the mode it names. [DEDUCED, notes/assumptions/93] -/
def snapshot (epoch : Nat) (final : Bool) (mode : Mode) (s : State) : CopyState := {
  epoch := epoch, final := final, cause := s.pair.cause, activeEpoch := s.banks.active.epoch,
  previousEpoch := s.banks.previous.map (·.epoch), trial := s.banks.trial, commitTime := s.banks.commitTime, mode := mode, interrupted := s.mode.interrupted,
  taken := netNs (nowNet s), shotSeq := s.ports.map (·.shotSeq.toNat), fireNs := Vector.ofFn fun p : Fin 4 => lastFireNs s p.val,
  zones := (enabledZones s.banks.active).map (copyZone s), seqs := s.pointer.seqs,
  masterArm := paramBool s Pid.ptrMasterArm 0, flags := paramNat s Pid.ptrFlags 0, newestEvent := s.pointer.newest,
  openRecords := (openRecords s).map fun r => { r with preActual := preReach s r / 1000 },
  raman := s.raman, traces := Vector.ofFn fun p : Fin 4 => paramNat s Pid.ramanTraces p.val,
  select := s.time.select, domains := s.time.domains, servo := Vector.ofFn fun d : Fin 2 => paramGet s Pid.timeDomServoState d.val,
  slewing := s.time.slewing, holdover := s.time.holdover, holdCause := s.time.holdCause, holdIncrement := s.time.holdIncrement,
  axisOffset := axisOffset s, takenTick := s.ticks, syncIntegral := s.time.syncIntegral, syncLocked := s.time.syncLocked }

/-- A copy with the state of port `p` as it is now (R481, R482): its shot numbers, zones, sequencers and DTS accumulation. -/
def copyPort (p : Nat) (s : State) (c : CopyState) : CopyState := { c with
  shotSeq := vecUpdate c.shotSeq p fun _ => (portOf s p).shotSeq.toNat,
  fireNs := vecUpdate c.fireNs p fun _ => lastFireNs s p,
  zones := c.zones.map fun z => if zonePort z.zone = p then copyZone s z.zone else z,
  seqs := Vector.ofFn fun q : Fin 8 =>
    if bankRead s.banks.active Pid.seqPort q.val = (p : Int) then vecRead s.pointer.seqs q.val {} else vecRead c.seqs q.val {},
  raman := vecUpdate c.raman p fun _ => ramanOf s p,
  traces := vecUpdate c.traces p fun _ => paramNat s Pid.ramanTraces p }

/-- A copy is sent (R481). -/
def issueCopy (c : CopyState) (s : State) : State :=
  segorSend 4 (Config.copySegments c.epoch c.final) (onPair (fun x => { x with
    copyEpoch := BitVec.ofNat 32 c.epoch, unacked := true, gather := none, lastCopy := some c }) s)

/-- The active unit takes a snapshot of the next epoch (R481): a port that fires gives its part at its next round start, and the copy is
sent once every port has given it. -/
def sendCopy (final : Bool) (mode : Mode) (s : State) : State :=
  let c := snapshot (s.pair.copyEpoch + 1).toNat final mode s
  let left := BitVec.ofNat 4 (portBits fun p => !final && (portOf s p).gridRunning)
  if left == 0 then issueCopy c s else onPair (fun x => { x with gather := some (c, left) }) s

/-- Port `p`'s round start gives its part of a copy that waits for it (R481). [DEDUCED, notes/assumptions/93] -/
def gatherPort (p : Nat) (s : State) : State :=
  match s.pair.gather with
  | some (c, left) =>
    if !left.getLsbD p then s
    else
      let c := copyPort p s c
      let left := left &&& ~~~(1#4 <<< p)
      if left == 0 then issueCopy c s else onPair (fun x => { x with gather := some (c, left) }) s
  | none => s

/-- The active role (R464): a paired unit that holds the leash and has not sent its FINAL copy. -/
def activeRole (s : State) : Bool :=
  pairEnabled s && s.pair.own && (s.pair.step == .idle || s.pair.step == .stopping)

/-- COPY_EPOCH_END (R481, R485): COPY_AGE rises, the active unit sends a copy, and a releasing one lets each port end its grid
period in progress. [DEDUCED, notes/assumptions/93] -/
def copyEpochEnd (s : State) : State :=
  if !pairEnabled s || !scribeRuns s then s
  else
    let s := onPair (fun x => { x with copyAge := if x.copyAge = 0xFF then x.copyAge else x.copyAge + 1 }) s
    let s :=
      if activeRole s && s.pair.linkUp && !s.pair.peerFailed then
        let s := if s.pair.unacked || s.pair.gather.isSome then bump Pid.pairCopiesMissed 0 s else s
        sendCopy false (if s.mode.current == .handover then s.pair.fromMode else s.mode.current) s
      else s
    if s.pair.step == .stopping then
      let fires (p : Nat) : Bool := s.pair.portsLeft.getLsbD p && (portOf s p).gridRunning
      onPair (fun x => { x with portsLeft := BitVec.ofNat 4 (portBits fires) }) { s with
        ports := s.ports.map fun x => { x with stopping := true } }
    else s

/-- COPY_EPOCH_END. -/
def execCopyEpochEnd (s : State) : Host.Outcome State Fault Refusal := .next (pairRefresh (copyEpochEnd s))

/-- COPY_RECEIVED (R476, R481, R485): the standby applies the copy whole and acknowledges it; a FINAL copy starts its take. -/
def copyReceived (c : CopyState) (s : State) : State :=
  if s.mode.current != .mirror || !pairEnabled s || !s.pair.linkUp then s
  else
    let s := onPair (fun x => { x with applied := some c, copyAge := 0 }) (onTime (fun t => { t with select := c.select }) s)
    let ack := segorSend 1 (Config.copyAck c.epoch)
    if c.final then ack (beginTake c.cause true false s) else ack s

/-- COPY_RECEIVED. -/
def execCopyReceived (c : CopyState) (s : State) : Host.Outcome State Fault Refusal := .next (pairRefresh (copyReceived c s))

/-- Rounds that have fired and whose last slice has not been dispatched yet in zone `z` (R19, R220, R485). -/
def roundsPending (s : State) (z : Nat) : Bool :=
  let p := zonePort z
  let b := portBank s p
  let x := portOf s p
  match x.shots.head?, x.shots.find? (·.fired) with
  | some now, some t =>
    zoneServed s z && zoneNat b Pid.zoneRecipe z != 5 &&
    decide ((now.round + 2 ^ 32 - t.round) % 2 ^ 32 < dispatchDelay s b z + grantedDiv s z)
  | _, _ => false

/-- FINAL_COPY_SEND (R467, R485): every port has stopped and the work of its last round is done. Under version 1 there is no
FINAL copy, and the unit releases the leash with RELEASE set. [DEDUCED, notes/assumptions/92] -/
def finalCopySend (s : State) : State :=
  if s.pair.step != .stopping || s.pair.portsLeft != 0 || !s.herder.work.isEmpty ||
      (enabledZones s.banks.active).any (roundsPending s) then s
  else
    let s := match s.pair.journal with
      | some n => if s.pair.toConfig then s else journalStep n (journalStep n s)
      | none => s
    if s.pair.linkVersion = 2 then onPair (fun x => { x with step := .finalSent, finalSent := true }) (sendCopy true s.pair.fromMode s)
    else
      let s := match s.pair.journal with
        | some n => if s.pair.toConfig then s else journalStep n s
        | none => s
      settle s (stopDriving (onPair (fun x => { x with step := .released, release := true }) s))

/-- FINAL_COPY_SEND. -/
def execFinalCopySend (s : State) : Host.Outcome State Fault Refusal := .next (pairRefresh (finalCopySend s))

/-- COPY_ACK_RECEIVED (R481, R485): the copy is acknowledged; the FINAL one's answer releases ILK_N. -/
def copyAckReceived (epoch : Nat) (s : State) : State :=
  if !s.pair.unacked || s.pair.copyEpoch.toNat ≠ epoch then s
  else
    let s := onPair (fun x => { x with unacked := false, copyAge := 0 }) s
    if s.pair.step != .finalSent then s
    else
      let s := match s.pair.journal with
        | some n => if s.pair.toConfig then s else journalStep n s
        | none => s
      settle s (stopDriving (onPair (fun x => { x with step := .released }) s))

/-- COPY_ACK_RECEIVED. -/
def execCopyAckReceived (epoch : Nat) (s : State) : Host.Outcome State Fault Refusal :=
  .next (pairRefresh (copyAckReceived epoch s))

/-- COPY_ACK_TIMEOUT (R486): 20 ms after the FINAL copy. -/
def execCopyAckTimeout (s : State) : Host.Outcome State Fault Refusal :=
  .next (pairRefresh (if s.pair.step == .finalSent then abortHandover 1 s else s))

/-- What the active unit replicates is stored in flash by the standby, which journals it under transport 3 (R483). -/
def bankReplica (r : Replica) (s : State) : State :=
  if s.mode.current != .mirror || !pairEnabled s || s.scribe.restarting then s
  else
    match r with
    | .banks opcode active previous trial tick timeout =>
      withJournal { transport := 3, opcode := opcode } 1 (fun n s =>
        let top := Nat.max active.epoch ((previous.map (·.epoch)).getD 0)
        let plans := plansOf active s
        let s := onBanks (fun b => { b with
          previous := previous, trial := trial, highestEpoch := Nat.max b.highestEpoch top, confirmTimeout := timeout,
          commitTick := tick, commitTime := nowNet s, slot := if active.epoch = b.active.epoch then b.slot else freeSlot b,
          previousSlot := if active.epoch = b.active.epoch then b.previousSlot else b.slot, revertRaised := false }) (onJournal n (fun e => { e with summary := active.epoch }) s)
        journalSteps n 1 (activate active plans.1 plans.2 s)) s
    | .program i p =>
      withJournal { transport := 3, opcode := if p.isSome then 0x0C00 else 0x0C01 } 1 (fun n s =>
        journalSteps n 1 (onSerif (fun x => { x with library :=
          match p with
          | some g => Store.put x.library i g
          | none => Store.erase x.library i }) s)) s

/-- BANK_REPLICA. -/
def execBankReplica (r : Replica) (s : State) : Host.Outcome State Fault Refusal := .next (pairRefresh (bankReplica r s))

/-! ## Commands -/

/-- Bytes 20 to 43 of the PAIR_QUERY response (R493). [DEDUCED, notes/assumptions/93] -/
def pairFigures (s : State) : List Byte :=
  let b := s.pair.peer.getD {}
  leBytes 1 b.mode ++ leBytes 1 b.version ++ leBytes 1 b.feed ++ leBytes 1 b.selftest ++ leBytes 4 b.fwVersion ++
  leBytes 4 b.epoch ++ leBytes 4 b.health ++ leInt 4 s.pair.timeOffset ++ leBytes 1 (readyCondition s) ++
  leBytes 1 s.pair.lastCause ++ leBytes 2 0

/-- HEALTH_FRAME_SEND (R468, R484): the standby's HEALTH frame. [DEDUCED, notes/assumptions/93] -/
def healthFrameSend (s : State) : State :=
  if s.mode.current != .mirror || !pairEnabled s || s.scribe.restarting then s
  else
    let b := Config.healthType :: pairFigures s
    segorSend 3 (b ++ leBytes 4 (crc32c b).toNat) s

/-- HEALTH_FRAME_SEND. -/
def execHealthFrameSend (s : State) : Host.Outcome State Fault Refusal := .next (pairRefresh (healthFrameSend s))

/-- SERVICE_PRESS (R485, R490): the debounced fall of SERVICE_N. [DEDUCED, notes/assumptions/88] -/
def servicePress (s : State) : State :=
  if s.safety.service then s
  else
    let s := onSafety (fun x => { x with service := true }) s
    if pairEnabled s && s.pair.own && (s.mode.current == .run || s.mode.current == .sentinel) then
      if mayRelease false s then beginRelease 1 s
      else swapRefused (peerCondition s) 1 s
    else if scribeRuns s then swapRefused 0 1 s
    else s

/-- SERVICE_PRESS. -/
def execServicePress (s : State) : Host.Outcome State Fault Refusal := .next (pairRefresh (servicePress s))

/-- Answer of PAIR_HANDOVER (R492): transition 17 and the journal identifier. [DEDUCED, notes/assumptions/92] -/
def handoverAnswer (r : Request) (status n : Nat) (s : State) : State := answer r status 0 (leBytes 4 17 ++ leBytes 4 n) s

/-- PAIR_HANDOVER RELEASE (R485, R492). [DEDUCED, notes/assumptions/92] -/
def pairRelease (r : Request) (s : State) : State :=
  let force := hasBit r.flags 4
  if !pairEnabled s || !(s.mode.current == .run || s.mode.current == .sentinel) then refuse r 0x30 0 s
  else if !s.pair.own || !mayRelease force s then refuse r 0x31 0 (swapRefused (peerCondition s) 2 s)
  else
    withJournal r 5 (fun n s =>
      handoverAnswer r 0x01 n (onPair (fun x => { x with journal := some n, forced := force }) (beginRelease 2 (journalStep n s)))) s

/-- PAIR_HANDOVER TAKE (R477, R492). [DEDUCED, notes/assumptions/92] -/
def pairTake (r : Request) (s : State) : State :=
  if !pairEnabled s || s.mode.current != .mirror then refuse r 0x30 0 s
  else if s.pair.ilkHeld then refuse r 0x31 0 s
  else
    withJournal r 5 (fun n s =>
      beginTake 2 false true (onPair (fun x => { x with journal := some n }) (handoverAnswer r 0 n (journalStep n s)))) s

/-- PAIR_HANDOVER (R492). [DEDUCED, notes/assumptions/92] -/
def pairHandover (r : Request) (s : State) : State :=
  match field r.payload 0 1 with
  | 0 => pairRelease r s
  | 1 => pairTake r s
  | _ => refuse r 0x20 0 s

/-- PAIR_HANDOVER. -/
def execPairHandover (s : State) : Host.Outcome State Fault Refusal := .next (pairRefresh (runCommand 0x0900 pairHandover s))

/-- PAIR_QUERY (R493). [DEDUCED, notes/assumptions/93] -/
def pairQuery (r : Request) (s : State) : State :=
  let copy := if s.mode.current == .mirror then ((s.pair.applied.map (·.epoch)).getD 0) else s.pair.copyEpoch.toNat
  answer r 0 0 (leBytes 4 (pairStatus s) ++ leBytes 4 copy ++ leBytes 4 (paramNat s Pid.pairCopiesMissed 0) ++
    leBytes 4 (paramNat s Pid.pairHandovers 0) ++ pairFigures s ++ stampBytes s.pair.lastTime ++ leBytes 2 0) s

/-- PAIR_QUERY. -/
def execPairQuery (s : State) : Host.Outcome State Fault Refusal := .next (runCommand 0x0901 pairQuery s)

/-- PEER_RELAY (R136, R494): the inner message goes to the peer's transport 3, and the answer waits for the peer's. [DEDUCED, notes/assumptions/94] -/
def peerRelay (r : Request) (s : State) : State :=
  if !s.pair.linkUp then refuse r 0x31 0 s
  else segorSend 2 r.payload (onLinks (fun l => { l with relay := some r }) s)

/-- PEER_RELAY: one message at a time waits for the peer. [DEDUCED, notes/assumptions/94] -/
def execPeerRelay (s : State) : Host.Outcome State Fault Refusal :=
  .next (if s.links.relay.isSome then s else runCommand 0x0902 peerRelay s)

end Sys2Proof.Machine
end

