-- ==== Sys2Proof/Machine/Round.lean ====
section
/-! DEFINITION. SLOT_FIRE_TIME: a port's slot fire time arrives on the grid (R152, R182, R412), the glyph plays or the round is
held dark, and everything that falls on a round start happens. -/

namespace Sys2Proof.Machine

/-- Axis time in base cells of 2.5 ns from the axis epoch (R412). [DESIGN CHOICE, notes/assumptions/74] -/
def axisCells (s : State) : Nat := s.time.axis * 2 / (5 * nsUnits)

/-- Grid period m of a slot 0 now: the nearest one of R412. [DESIGN CHOICE, notes/assumptions/74] -/
def gridPeriodNow (s : State) (p : Nat) : Nat :=
  let n := portPeriod s p
  let offset := (portCfg s p Pid.gridOffsetCells p).toNat
  (axisCells s + n / 2 - offset) / max 1 n

/-- May port `p` fire on its grid in the present mode (R182)? A port that waits after a take has not started yet (R480). -/
def gridMode (s : State) (p : Nat) : Bool :=
  portEnabled s p && (flowMode s == .run || flowMode s == .sentinel) && ((portOf s p).gridRunning || decide ((portOf s p).holdUntil ≤ s.ticks))

/-- Parameters of the port that take effect at a round start (R14). [DESIGN CHOICE, notes/assumptions/74] -/
def applyNextRound (p : Nat) (s : State) : State :=
  let w := (portOf s p).nextRound
  w.foldl (fun s e => { s with params := Store.write paramDefault s.params e.1 e.2 }) (onPort p (fun x => { x with nextRound := [] }) s)

/-- A port stopped for a handover has fired its last shot (R485). [DESIGN CHOICE, notes/assumptions/74] -/
def portStopped (p : Nat) (s : State) : State := onPair (fun x => { x with portsLeft := x.portsLeft &&& ~~~(1#4 <<< p) }) s

/-- Re-baselines at the first shot after an interval without firing (R204, R205): a waiting one, else cause 5 after a long
interval, measured from the last fire time. [DESIGN CHOICE, notes/assumptions/122] -/
def rebaseAtShot (p : Nat) (s : State) : State :=
  let x := portOf s p
  match x.rebaseNext with
  | some (kind, cause) => rebaseline p kind cause (onPort p (fun x => { x with rebaseNext := none }) s)
  | none =>
    let long := (x.lastFired.map fun t => decide (msTicks (portNat s p Pid.portRebaseGapMs 0) < s.ticks - t)).getD false
    if x.dark && long then rebaseline p 1 5 s else s

/-- What the round that starts now runs with (R14, R15). -/
def roundSettings (s : State) (p : Nat) : RoundSettings :=
  let x := portOf s p
  { slots := portSlots s p, dasGain := x.dasGain, corr := x.corr, corrOn := portBool s p Pid.portAdcCorrEnable 0,
    ovrGuard := portNat s p Pid.portOvrGuard 0, ramanGuard := portNat s p Pid.portRamanOvrGuard 0,
    ampShift := portNat s p Pid.portAmpShift 0, fadeHold := portBool s p Pid.portFadeHold 0,
    fadePct := portNat s p Pid.portFadePct 0, fadeFloor := portNat s p Pid.portFadeFloor 0, gen := x.gen, rgen := x.rgen }

/-- The record of the slot fire time (R182): the shot sequence has advanced to it. `played` says that light left the port as the
glyph tells; a shot whose gate was cut short before its fire time is handed on as lost (R157). -/
def shotRecord (s : State) (p slot period : Nat) (fired played gap : Bool) : Shot :=
  let seq := (portOf s p).shotSeq.toNat
  { round := seq % 2 ^ 32, slot := slot, period := period, seq := seq, fireTick := s.ticks, time := selectedNet s, fired := fired,
    lost := fired && !played, cut := fired && !played, window := fired && played, windowEnd := launchWindow s p s.ticks,
    gap := gap, epoch := (portBank s p).epoch, holdover := s.time.holdover, run := roundSettings s p }

/-- Enter the record: the words of the round that its place held go, and the slot advances. -/
def enterShot (p : Nat) (t : Shot) (slots : Nat) (s : State) : State :=
  onPort p (fun x => { x with
    shots := (t :: x.shots).take 512, words := x.words.filter fun e => e.1 / 262144 != t.round % 512, gridRunning := true,
    period := t.period, nextSlot := if t.slot + 1 < slots then t.slot + 1 else 0,
    dark := !t.fired, leadCut := false, lastFired := if t.fired then some s.ticks else x.lastFired }) s

/-- A rise of the comparator after GATEp opened and before the fire time shows the shot's launch (R158). -/
def earlyLaunch (p : Nat) (s : State) : State :=
  let early := ((portOf s p).riseTick.map fun t => decide (s.ticks ≤ t + gateLead (portBank s p) p) && decide (t ≤ s.ticks)).getD false
  if early then onPort p (fun x => { x with
    launchOk := true, misses := 0, launchMissing := false, shots := x.shots.map fun t => { t with window := false } }) s
  else s

/-- The new record of a slot fire time: a lost shot is counted (R201), a played one may have shown its launch already. -/
def recordShot (p : Nat) (t : Shot) (s : State) : State :=
  let s := enterShot p t (portSlots s p) s
  if t.lost then markLost p t.round s else if t.window then earlyLaunch p s else s

/-- Largest deviation of an interval between fires from P/N in the second in progress (R413). [DEDUCED, notes/assumptions/73; DESIGN CHOICE, notes/assumptions/105] -/
def noteInterval (p : Nat) (s : State) : State :=
  let sec := s.ticks / secTicks 1
  match (portOf s p).shots.head? with
  | some u =>
    if !(portOf s p).gridRunning then s
    else
      let dev : Int := ((s.ticks - u.fireTick : Nat) : Int) / 2 - (portPeriod s p / max 1 (portSlots s p) : Nat)
      let at_ := vecRead s.time.intervalSec p 0
      let run := vecRead s.time.intervalDev p 0
      let old := if at_ = sec then run else 0
      onTime (fun t => { t with
        intervalLast := if at_ = sec then t.intervalLast else vecUpdate t.intervalLast p fun _ => if at_ + 1 = sec then run else 0,
        intervalSec := vecUpdate t.intervalSec p (fun _ => sec),
        intervalDev := vecUpdate t.intervalDev p fun _ => if old.natAbs < dev.natAbs then dev else old }) s
  | none => s

/-- Saturated drive samples since the port's last slot fire time (R151, R179): PRB_CLIP at most once per second. [DESIGN CHOICE, notes/assumptions/121] -/
def noteClipped (p : Nat) (s : State) : State :=
  let n := ((portOf s p).shots.head?.map fun u => clippedSince s p u.fireTick).getD 0
  if n = 0 then s
  else
    let s := bumpBy n (portId p Pid.portPrbClipCount) 0 s
    let (hit, r) := rateHit s.ticks n 0 (portOf s p).clipRate
    let s := onPort p (fun x => { x with clipRate := r }) s
    match hit with
    | some (k, _) => post 0x1003 p k 0 s
    | none => s

/-- RAMTRGp of a grid period (R81, R156, R275): every period, in SENTINEL every `mode.sentinel_dts_divider`-th; the accumulator of an
enabled channel pair takes it as a launch. [DEDUCED, notes/assumptions/76] -/
def ramanPulse (p : Nat) (t : Shot) (s : State) : State :=
  if flowMode s == .sentinel && decide ((ramanOf s p).sentinelCount + 1 < paramNat s Pid.modeSentinelDtsDivider 0) then
    onRaman p (fun x => { x with sentinelCount := x.sentinelCount + 1 }) s
  else
    let s := onRaman p (fun x => { x with sentinelCount := 0 })
      (onPort p (fun x => { x with ramTrg := some (t.fireTick + portNat s p Pid.portRamtrgOffsetTicks 0) }) s)
    if portCfg s p Pid.ramanEnable p == 0 then s else ramanLaunch p t s

/-- GRID pulses of the outputs that follow the port (R415). [DESIGN CHOICE, notes/assumptions/74] -/
def gridPulses (p : Nat) (s : State) : State :=
  forEach (allPorts.filter fun u => paramNat s Pid.toutMode u == 3 && paramNat s Pid.toutGridPort u == p) (fun u s =>
    onTout u (fun x => { x with next := some (toutNow s u + paramNat s Pid.toutStartNs u) }) s) s

/-- Suspended zones of the port count the processed rounds they lose (R216, R233). [DEDUCED, notes/assumptions/73] -/
def countSuspended (p round : Nat) (s : State) : State :=
  forEach ((enabledZones (portBank s p)).filter fun z =>
      zonePort z == p && (zoneOf s z).suspended && zoneNat (portBank s p) Pid.zoneRecipe z != 5 && round % grantedDiv s z == 0)
    (fun z s => noteGap z 1 2 s) s

/-- A re-admission reaches the port at its round start (R228). [DEDUCED, notes/assumptions/35] -/
def readmitAtRound (p : Nat) (s : State) : State :=
  match (portOf s p).readmit with
  | some cause =>
    let lost := (portOf s p).lostHist
    applyGrants cause p (forEach lost (fun (z, a) s => loseHistory z a 0 s)
      (onPort p (fun x => { x with readmit := none, lostHist := [] }) s))
  | none => s

/-- A checkpoint of the ring that is due at this round start (R353). -/
def checkpointAtRound (p : Nat) (gap : Bool) (s : State) : State :=
  if gap || decide (vecRead s.inkstone.checkpointTick p 0 + msTicks (paramNat s Pid.ringCheckpointMs 0) ≤ s.ticks) then checkpoint p s
  else s

/-- Zones of port `p` in the order of the fill (R223, R226): class, then zone. -/
def dispatchOrder (b : Bank) (p : Nat) : List Nat :=
  let own := (enabledZones b).filter fun z => zonePort z == p
  [0, 1, 2].flatMap fun c => own.filter fun z => zoneNat b Pid.zoneClass z == c

/-- What Scribe, the Herder and the Pointer do at a round start (R165, R220, R228, R236, R306, R320, R353). `steps` says that the
port fires in the sense of R306. -/
def roundWork (p : Nat) (t : Shot) (steps : Bool) (s : State) : State :=
  let s := checkpointAtRound p t.gap (readmitAtRound p s)
  let s := feedRound t.round p s
  let s := forEach (dispatchOrder (portBank s p) p) (dispatchZone t.round) (dispatchLeaving t.round p s)
  let s := countIdle p t.round (countSuspended p t.round s)
  endCollections p t.round (if steps then pointerStep p t s else darkRound p t.round s)

/-- One slot fire time of a running grid (R182). `first` marks slot 0, `stopped` a port that has ended its last grid period; a shot
whose gate was cut short in its lead is a lost shot (R157). [DESIGN CHOICE, notes/assumptions/74; DESIGN CHOICE, notes/assumptions/119] -/
def fireSlot (p : Nat) (first stopped : Bool) (peakPct : Nat) (s : State) : State :=
  let slot := if first then 0 else (portOf s p).nextSlot
  let period := if first then gridPeriodNow s p else (portOf s p).period
  let s := gatherPort p s
  let s := onPort p (fun x => { x with shotSeq := x.shotSeq + 1 }) (noteInterval p (noteClipped p s))
  let s := corrAtRound p (gainAtRound p peakPct (applyNextRound p s))
  let may := mayFire s p && !stopped && (first || !(portOf s p).awaitSlot0)
  let played := may && !(portOf s p).leadCut && playsGlyphs s p
  let fired := played || (portOf s p).leadCut
  let s := onPort p (fun x => { x with awaitSlot0 := !may }) s
  let gap := fired && (portOf s p).dark
  let s := if fired then rebaseAtShot p s else s
  let s := if gap then gapAtFire p s else s
  let t := shotRecord s p slot period fired played gap
  let s := recordShot p t s
  let s := if first && may then ramanPulse p t (gridPulses p s) else s
  let s := roundWork p t (may || fired) s
  if may && !fired then darkRound p t.round s else s

/-- A survey shot (R175): it is no round of the grid and no gain changes at it, but its launch is watched (R158). A port fires 256 shots
for its latency and 8,192 for its trace. [DEDUCED, notes/assumptions/60] -/
def surveyShot (p : Nat) (s : State) : State :=
  let x := portOf s p
  if !x.surveying || !mayFire s p || decide (256 + 8192 ≤ x.surveyShots) then s
  else
    let t := shotRecord s p 0 0 true true false
    earlyLaunch p (onPort p (fun x => { x with shots := [t], surveyShots := x.surveyShots + 1 }) (noteClipped p s))

/-- SLOT_FIRE_TIME (R152, R182): at slot 0 the samples of the last Raman launch are in, and the switch of R93 comes first; a port that
stops fires no further period. [DESIGN CHOICE, notes/assumptions/74; DEDUCED, notes/assumptions/76] -/
def slotFireTime (p peakPct : Nat) (raman : RamanCodes) (s : State) : State :=
  if s.mode.current == .survey then surveyShot p s
  else if !gridMode s p then s
  else
    let first := !(portOf s p).gridRunning || (portOf s p).nextSlot == 0
    let s := if first then commitSwitch p (ramanClose p raman s) else s
    let stopped := first && (portOf s p).stopping
    if !portEnabled s p then s
    else if stopped && s.time.stepPending then portStopped p (onPort p (fun x => { x with gridRunning := false, dark := true }) s)
    else
      let s := if stopped then portStopped p s else s
      fireSlot p first stopped peakPct s

/-- SLOT_FIRE_TIME. -/
def execSlotFireTime (p : Fin 4) (peakPct : Nat) (raman : RamanCodes) (s : State) : Host.Outcome State Fault Refusal :=
  .next (slotFireTime p peakPct raman s)

end Sys2Proof.Machine
end

