-- ==== Sys2Proof/Machine/Telemetry.lean ====
section
/-! DEFINITION. The 64-bit extensions of activity counters (R539) and the telemetry record (R540, R541). -/

namespace Sys2Proof.Machine

/-- Is a store key one of a counter marked "wraps" (R539, R546)? [DEDUCED, notes/assumptions/103] -/
def isActivity (key : Nat) : Bool := ((paramRow (key / 65536)).map (·.counter)) == some CounterKind.wraps

/-- Keys of activity counters that may differ from 0: those stored, those read before, and those that live elsewhere. [DEDUCED, notes/assumptions/103] -/
def activityKeys (s : State) : List Nat :=
  (((s.params.map (·.1)) ++ s.calib.extLast.map (·.1)).filter isActivity ++
    [paramKey Pid.timeDomMeasSeq 0, paramKey Pid.timeDomMeasSeq 1, paramKey Pid.pairCopyEpoch 0]).eraseDups

/-- Read one activity counter: its upper word rises when the 32-bit value has wrapped since the last reading. [DEDUCED, notes/assumptions/103] -/
def extendOne (key : Nat) (s : State) : State :=
  let now := (readParam s (key / 65536) (key % 65536)).toNat
  let last := Store.read (fun _ => 0) s.calib.extLast key
  onCal (fun c => { c with
    extHi := if now < last then Store.write (fun _ => 0) c.extHi key (Store.read (fun _ => 0) c.extHi key + 1) else c.extHi,
    extLast := Store.write (fun _ => 0) c.extLast key now }) s

/-- COUNTER_EXTEND (R539). [DEDUCED, notes/assumptions/103] -/
def counterExtend (s : State) : State := if scribeRuns s && !s.scribe.restarting then forEach (activityKeys s) extendOne s else s

/-- COUNTER_EXTEND. -/
def execCounterExtend (s : State) : Host.Outcome State Fault Refusal := .next (counterExtend s)

/-- The extension of a counter as eight bytes. [DEDUCED, notes/assumptions/103] -/
def ext64 (s : State) (id idx : Nat) : List Byte :=
  leBytes 4 (readParam s id idx).toNat ++ leBytes 4 (Store.read (fun _ => 0) s.calib.extHi (paramKey id idx))

/-- The value of a parameter as `n` bytes. [DESIGN CHOICE, notes/assumptions/102] -/
def teleField (s : State) (n id idx : Nat) : List Byte := leInt n (readParam s id idx)

/-- The block of port `p`, 64 bytes (R541). [DESIGN CHOICE, notes/assumptions/102] -/
def telePort (s : State) (p : Nat) : List Byte :=
  let f (n id : Nat) : List Byte := teleField s n (portId p id) 0
  let r (n id : Nat) : List Byte := teleField s n id p
  leBytes 6 (portOf s p).shotSeq.toNat ++ f 1 Pid.portDasGain ++ f 1 Pid.portLmonStatus ++ f 2 Pid.portStrokeStatus ++
    r 2 Pid.ramanStatus ++ f 4 Pid.portFadePpm ++ f 4 Pid.portHeldPpm ++ f 4 Pid.portOvrCount ++ f 4 Pid.portLostShots ++
    f 4 Pid.portStrokeSatCount ++ ext64 s (portId p Pid.portDiscontCount) 0 ++ f 4 Pid.portRebaselines ++ r 4 Pid.ramanShotsDone ++
    r 4 Pid.ramanTraces ++ r 4 Pid.ramanTRef ++ f 4 Pid.portLaunchLatencyPs ++ f 4 Pid.portPrbClipCount

/-- The block of DRAM port `a`, 64 bytes, reserved bytes 0 (R11, R541). [DESIGN CHOICE, notes/assumptions/102] -/
def teleDram (s : State) (a : Nat) : List Byte :=
  slice (([Pid.memPortStatus, Pid.memPortCapacityMib, Pid.memPortCeCount, Pid.memPortUeCount, Pid.memPortRetiredPages,
    Pid.memPortRetrains, Pid.memPortHammerEvents].flatMap fun id => teleField s 4 (dramId a id) 0) ++
    (List.range 4).flatMap fun l => teleField s 1 (dramId a Pid.memPortEyeSteps) l) 0 64

/-- The block of requester `i`, 16 bytes. [DESIGN CHOICE, notes/assumptions/102] -/
def teleRequester (s : State) (i : Nat) : List Byte :=
  teleField s 4 Pid.memReqLate i ++ teleField s 4 Pid.memReqThrottled i ++ teleField s 4 Pid.memReqMbps i ++ leBytes 4 0

/-- The block of queue `q`, 16 bytes: its DMA_STATUS bits in the places RUNNING 0, STARVED 1, ERROR 2. [DESIGN CHOICE, notes/assumptions/102] -/
def teleQueueBlock (s : State) (q : Nat) : List Byte :=
  let x := queueOf s q
  ext64 s Pid.hostQueueItems q ++ teleField s 4 Pid.hostQueueDrops q ++ leBytes 4 (bits [x.running, x.starved, x.error])

/-- The block of RTD channel `k`, 16 bytes. [DESIGN CHOICE, notes/assumptions/102] -/
def teleRtd (s : State) (k : Nat) : List Byte :=
  [Pid.rtdResultMc, Pid.rtdResultMohm, Pid.rtdStatus, Pid.rtdExcChanges].flatMap fun id => teleField s 4 id k

/-- The block of sequencer `q`, 16 bytes. [DESIGN CHOICE, notes/assumptions/102] -/
def teleSeqBlock (s : State) (q : Nat) : List Byte :=
  teleField s 2 Pid.seqStatus q ++ teleField s 2 Pid.seqStateNow q ++ teleField s 2 Pid.seqCounterNow (idx2 q 0) ++
    teleField s 2 Pid.seqCounterNow (idx2 q 1) ++ teleField s 4 Pid.seqFires q ++ teleField s 4 Pid.seqMissed q

/-- The device block, 128 bytes. [DESIGN CHOICE, notes/assumptions/102] -/
def teleDevice (s : State) : List Byte :=
  let b := ext64 s Pid.ringPagesOverwritten 0 ++ ext64 s Pid.ptrRecordsOverwritten 0 ++ ext64 s Pid.inkBlocksCoded 0 ++
    ([Pid.inkSelfcheckFail, Pid.inkDecodeErrors, Pid.serifSatCount, Pid.serifOverruns, Pid.herderMisses, Pid.integXresyncCount,
      Pid.integXovfCount, Pid.calRejects, Pid.logSuppressed].flatMap fun id => teleField s 4 id 0)
  slice b 0 128

/-- Two bytes of zone `z`: status, then log2 of the granted divider (0 without a grant). [DESIGN CHOICE, notes/assumptions/102] -/
def teleZone (s : State) (z : Nat) : List Byte :=
  leBytes 1 (zoneStatus s z) ++ leBytes 1 (Nat.log2 (readParam s Pid.zoneGrantedRateDiv z).toNat)

/-- Bytes 0 to 63 of a record. [DESIGN CHOICE, notes/assumptions/102] -/
def teleHead (s : State) : List Byte :=
  let now := nowNet s
  leBytes 2 1 ++ leBytes 2 4096 ++ leBytes 4 s.calib.teleSeq.toNat ++ leBytes 6 now.sec ++ leBytes 4 now.ns ++
    leBytes 1 (modeCode s.mode.current) ++ leBytes 1 (bits [s.calib.teleRestarted, s.time.holdover]) ++ leBytes 4 (hostStatus s none) ++
    leBytes 4 (healthWord s) ++ leBytes 4 (safetyStatus s) ++ leBytes 4 (pairStatus s) ++ leBytes 4 s.banks.active.epoch ++
    leInt 2 s.calib.temp ++ leBytes 2 (timeStatus s) ++ leBytes 2 (clkStatus s) ++ leBytes 1 (feedStatus s) ++ leBytes 1 0 ++
    teleField s 4 Pid.teleIntervalMs 0 ++ leBytes 4 (ringSpanMs s) ++ leBytes 4 (calStatus s) ++ leBytes 4 (integStatus s)

/-- A telemetry record, 4,096 bytes (R541). [DESIGN CHOICE, notes/assumptions/102] -/
def teleRecord (s : State) : List Byte :=
  let body := teleHead s ++ (List.range 4).flatMap (telePort s) ++ (List.range 2).flatMap (teleDram s) ++
    (List.range 8).flatMap (teleRequester s) ++ (List.range 8).flatMap (teleQueueBlock s) ++ (List.range 8).flatMap (teleRtd s) ++
    (List.range 8).flatMap (teleSeqBlock s) ++ teleDevice s ++ (List.range 1024).flatMap (teleZone s)
  let b := slice body 0 4092
  b ++ leBytes 4 (crc32c b).toNat

/-- TELEMETRY_RECORD (R540): a record goes to `tele.queue` while Scribe takes messages; its counters are read for it. [DESIGN CHOICE, notes/assumptions/102] -/
def telemetryRecord (s : State) : State :=
  let q := paramNat s Pid.teleQueue 0
  if !s.scribe.ready || s.scribe.restarting || 8 ≤ q then s
  else
    let s := counterExtend s
    stageItem q 1 (teleRecord s) (onCal (fun c => { c with teleSeq := c.teleSeq + 1, teleRestarted := false }) s)

/-- TELEMETRY_RECORD. -/
def execTelemetryRecord (s : State) : Host.Outcome State Fault Refusal := .next (telemetryRecord s)

end Sys2Proof.Machine
end

