-- ==== Sys2Proof/Machine/Dispatch.lean ====
section
/-! DEFINITION. One arm per command: each calls the command's meaning. -/

namespace Sys2Proof.Machine

/-- The effect of a command on everything but the queue. [DESIGN CHOICE, notes/assumptions/3; DESIGN CHOICE, notes/assumptions/111] -/
def exec (i : Instr) (s : State) : Host.Outcome State Fault Refusal :=
  match i with
  | .powerOn feed seqViolation => Sys2Proof.Machine.execPowerOn feed seqViolation s
  | .powerOff => Sys2Proof.Machine.execPowerOff s
  | .resetNFall => Sys2Proof.Machine.execResetNFall s
  | .pwrgdFall => Sys2Proof.Machine.execPwrgdFall s
  | .resetRelease => Sys2Proof.Machine.execResetRelease s
  | .strapSample levels => Sys2Proof.Machine.execStrapSample levels s
  | .railUndervoltage r => Sys2Proof.Machine.execRailUndervoltage r s
  | .railRestored r => Sys2Proof.Machine.execRailRestored r s
  | .feedLost x volt pin => Sys2Proof.Machine.execFeedLost x volt pin s
  | .feedRestored x => Sys2Proof.Machine.execFeedRestored x s
  | .feedLossAction => Sys2Proof.Machine.execFeedLossAction s
  | .refPresent src hz25 => Sys2Proof.Machine.execRefPresent src hz25 s
  | .refAbsent src => Sys2Proof.Machine.execRefAbsent src s
  | .ocxoWarmChange warm => Sys2Proof.Machine.execOcxoWarmChange warm s
  | .refSwitch => Sys2Proof.Machine.execRefSwitch s
  | .xtalFail => Sys2Proof.Machine.execXtalFail s
  | .corePllUnlock => Sys2Proof.Machine.execCorePllUnlock s
  | .corePllRelock => Sys2Proof.Machine.execCorePllRelock s
  | .corePllTimeout => Sys2Proof.Machine.execCorePllTimeout s
  | .ctrlPllUnlock => Sys2Proof.Machine.execCtrlPllUnlock s
  | .dramPllUnlock a => Sys2Proof.Machine.execDramPllUnlock a s
  | .pciePllUnlock => Sys2Proof.Machine.execPciePllUnlock s
  | .thermalLimit temp => Sys2Proof.Machine.execThermalLimit temp s
  | .bootRomStart => Sys2Proof.Machine.execBootRomStart s
  | .bootSramClearDone ok => Sys2Proof.Machine.execBootSramClearDone ok s
  | .bootComplete => Sys2Proof.Machine.execBootComplete s
  | .autoRun => Sys2Proof.Machine.execAutoRun s
  | .recoveryImage image => Sys2Proof.Machine.execRecoveryImage image s
  | .scribeWatchdog => Sys2Proof.Machine.execScribeWatchdog s
  | .scribeRestartDone mismatch => Sys2Proof.Machine.execScribeRestartDone mismatch s
  | .fwConfirmTimeout => Sys2Proof.Machine.execFwConfirmTimeout s
  | .cfgConfirmTimeout => Sys2Proof.Machine.execCfgConfirmTimeout s
  | .autoRevert => Sys2Proof.Machine.execAutoRevert s
  | .commitRecordProgrammed => Sys2Proof.Machine.execCommitRecordProgrammed s
  | .commitSwitch p => Sys2Proof.Machine.execCommitSwitch p s
  | .modeTransitionDone => Sys2Proof.Machine.execModeTransitionDone s
  | .surveyPortDone p trace => Sys2Proof.Machine.execSurveyPortDone p trace s
  | .slotFireTime p peakPct raman => Sys2Proof.Machine.execSlotFireTime p peakPct raman s
  | .launchWindowEnd p => Sys2Proof.Machine.execLaunchWindowEnd p s
  | .lightWithoutGate p => Sys2Proof.Machine.execLightWithoutGate p s
  | .inputOverRange p group => Sys2Proof.Machine.execInputOverRange p group s
  | .ovrGuardEnd p group => Sys2Proof.Machine.execOvrGuardEnd p group s
  | .adcCorrEstimate p input c => Sys2Proof.Machine.execAdcCorrEstimate p input c s
  | .pointUnwrap pt => Sys2Proof.Machine.execPointUnwrap pt s
  | .sliceComplete r => Sys2Proof.Machine.execSliceComplete r s
  | .sliceDeadline z => Sys2Proof.Machine.execSliceDeadline z s
  | .laneBudgetEnd l => Sys2Proof.Machine.execLaneBudgetEnd l s
  | .dtsTraceComplete p codes => Sys2Proof.Machine.execDtsTraceComplete p codes s
  | .rtdDue k => Sys2Proof.Machine.execRtdDue k s
  | .rtdMeasurementEnd k m => Sys2Proof.Machine.execRtdMeasurementEnd k m s
  | .rtdPulseTimeout k => Sys2Proof.Machine.execRtdPulseTimeout k s
  | .hkScan codes => Sys2Proof.Machine.execHkScan codes s
  | .hkPulseEvent e code late => Sys2Proof.Machine.execHkPulseEvent e code late s
  | .trgArmNChange low => Sys2Proof.Machine.execTrgArmNChange low s
  | .remoteFireEdge => Sys2Proof.Machine.execRemoteFireEdge s
  | .firePulseEnd => Sys2Proof.Machine.execFirePulseEnd s
  | .recordClose number => Sys2Proof.Machine.execRecordClose number s
  | .replayRoundDone job r => Sys2Proof.Machine.execReplayRoundDone job r s
  | .sramEccError e => Sys2Proof.Machine.execSramEccError e s
  | .sramScrubRewrite store word => Sys2Proof.Machine.execSramScrubRewrite store word s
  | .dramEccError e => Sys2Proof.Machine.execDramEccError e s
  | .pageRetire a page => Sys2Proof.Machine.execPageRetire a page s
  | .dramTrainingDone a r => Sys2Proof.Machine.execDramTrainingDone a r s
  | .dramRetrainCheck a mr4 pass => Sys2Proof.Machine.execDramRetrainCheck a mr4 pass s
  | .rowHammer a loc => Sys2Proof.Machine.execRowHammer a loc s
  | .hammerWindow => Sys2Proof.Machine.execHammerWindow s
  | .hammerThrottleEnd k => Sys2Proof.Machine.execHammerThrottleEnd k s
  | .dramRefresh a waiting => Sys2Proof.Machine.execDramRefresh a waiting s
  | .memLate k n => Sys2Proof.Machine.execMemLate k n s
  | .analogueTrimDone p fields => Sys2Proof.Machine.execAnalogueTrimDone p fields s
  | .tdcDelayRun temp => Sys2Proof.Machine.execTdcDelayRun temp s
  | .tdcDelayDone fields => Sys2Proof.Machine.execTdcDelayDone fields s
  | .plausibilityWatch offset reference rext => Sys2Proof.Machine.execPlausibilityWatch offset reference rext s
  | .telemetryRecord => Sys2Proof.Machine.execTelemetryRecord s
  | .counterExtend => Sys2Proof.Machine.execCounterExtend s
  | .logProgram => Sys2Proof.Machine.execLogProgram s
  | .heartbeatToggle => Sys2Proof.Machine.execHeartbeatToggle s
  | .unitIdSample level => Sys2Proof.Machine.execUnitIdSample level s
  | .xovf crossing => Sys2Proof.Machine.execXovf crossing s
  | .serifSelftest failed => Sys2Proof.Machine.execSerifSelftest failed s
  | .lkeyOff => Sys2Proof.Machine.execLkeyOff s
  | .lkeyOn => Sys2Proof.Machine.execLkeyOn s
  | .loopOkLow => Sys2Proof.Machine.execLoopOkLow s
  | .loopOkHigh => Sys2Proof.Machine.execLoopOkHigh s
  | .plugOpenLatch p => Sys2Proof.Machine.execPlugOpenLatch p s
  | .plugDebouncedOpen p => Sys2Proof.Machine.execPlugDebouncedOpen p s
  | .plugDebouncedClose p => Sys2Proof.Machine.execPlugDebouncedClose p s
  | .aprRestartExpiry p => Sys2Proof.Machine.execAprRestartExpiry p s
  | .panelInputChatter k => Sys2Proof.Machine.execPanelInputChatter k s
  | .inputStuck button => Sys2Proof.Machine.execInputStuck button s
  | .servicePress => Sys2Proof.Machine.execServicePress s
  | .locatePress => Sys2Proof.Machine.execLocatePress s
  | .locateEnd => Sys2Proof.Machine.execLocateEnd s
  | .ledDiagnosis j result => Sys2Proof.Machine.execLedDiagnosis j result s
  | .colourFeedback dark lit => Sys2Proof.Machine.execColourFeedback dark lit s
  | .barkSend => Sys2Proof.Machine.execBarkSend s
  | .barkReceived b => Sys2Proof.Machine.execBarkReceived b s
  | .hbPathSilent => Sys2Proof.Machine.execHbPathSilent s
  | .barkPathSilent => Sys2Proof.Machine.execBarkPathSilent s
  | .pairPathRestored path => Sys2Proof.Machine.execPairPathRestored path s
  | .peerFailed => Sys2Proof.Machine.execPeerFailed s
  | .peerPresentChange present => Sys2Proof.Machine.execPeerPresentChange present s
  | .segorLinkUp peerLow peerHigh => Sys2Proof.Machine.execSegorLinkUp peerLow peerHigh s
  | .segorLinkDown => Sys2Proof.Machine.execSegorLinkDown s
  | .segorFrameReceived kind bytes => Sys2Proof.Machine.execSegorFrameReceived kind bytes s
  | .leashOwnTest held current => Sys2Proof.Machine.execLeashOwnTest held current s
  | .ownClear held => Sys2Proof.Machine.execOwnClear held s
  | .ilkNReleased => Sys2Proof.Machine.execIlkNReleased s
  | .vacantTimeout => Sys2Proof.Machine.execVacantTimeout s
  | .takeWaitEnd => Sys2Proof.Machine.execTakeWaitEnd s
  | .handoverTimeout => Sys2Proof.Machine.execHandoverTimeout s
  | .copyEpochEnd => Sys2Proof.Machine.execCopyEpochEnd s
  | .copyReceived c => Sys2Proof.Machine.execCopyReceived c s
  | .finalCopySend => Sys2Proof.Machine.execFinalCopySend s
  | .copyAckReceived epoch => Sys2Proof.Machine.execCopyAckReceived epoch s
  | .copyAckTimeout => Sys2Proof.Machine.execCopyAckTimeout s
  | .healthFrameSend => Sys2Proof.Machine.execHealthFrameSend s
  | .bankReplica r => Sys2Proof.Machine.execBankReplica r s
  | .ptpMessageRx m => Sys2Proof.Machine.execPtpMessageRx m s
  | .ptpMessageTx d => Sys2Proof.Machine.execPtpMessageTx d s
  | .syncTimeout d => Sys2Proof.Machine.execSyncTimeout d s
  | .servoTimeout d => Sys2Proof.Machine.execServoTimeout d s
  | .axisSlewDone => Sys2Proof.Machine.execAxisSlewDone s
  | .axisStep => Sys2Proof.Machine.execAxisStep s
  | .syncInEdge => Sys2Proof.Machine.execSyncInEdge s
  | .syncLoss stuck => Sys2Proof.Machine.execSyncLoss stuck s
  | .toutPulse u => Sys2Proof.Machine.execToutPulse u s
  | .tdcEdge isStop lsb => Sys2Proof.Machine.execTdcEdge isStop lsb s
  | .tdcTimeout => Sys2Proof.Machine.execTdcTimeout s
  | .pePerstNAssert => Sys2Proof.Machine.execPePerstNAssert s
  | .pcieHotReset => Sys2Proof.Machine.execPcieHotReset s
  | .pcieFlr => Sys2Proof.Machine.execPcieFlr s
  | .pcieLinkChange up gen width => Sys2Proof.Machine.execPcieLinkChange up gen width s
  | .pcieL1Wake => Sys2Proof.Machine.execPcieL1Wake s
  | .ethLink n up => Sys2Proof.Machine.execEthLink n up s
  | .ethFrameRx n f => Sys2Proof.Machine.execEthFrameRx n f s
  | .queueItemDeliver q buffers => Sys2Proof.Machine.execQueueItemDeliver q buffers s
  | .queueIrq q => Sys2Proof.Machine.execQueueIrq q s
  | .descriptorReadDone q r => Sys2Proof.Machine.execDescriptorReadDone q r s
  | .doorbellWrite t v => Sys2Proof.Machine.execDoorbellWrite t v s
  | .messageTaken t => Sys2Proof.Machine.execMessageTaken t s
  | .throttleEnd t => Sys2Proof.Machine.execThrottleEnd t s
  | .sessionTimeout => Sys2Proof.Machine.execSessionTimeout s
  | .rspAckWrite t => Sys2Proof.Machine.execRspAckWrite t s
  | .responsePlaced t => Sys2Proof.Machine.execResponsePlaced t s
  | .evqTailWrite t v => Sys2Proof.Machine.execEvqTailWrite t v s
  | .estopStop t => Sys2Proof.Machine.execEstopStop t s
  | .snapshotLowRead t off => Sys2Proof.Machine.execSnapshotLowRead t off s
  | .snapshotHighRead t off => Sys2Proof.Machine.execSnapshotHighRead t off s
  | .queueTailWrite q v => Sys2Proof.Machine.execQueueTailWrite q v s
  | .dmaQueueEnable q => Sys2Proof.Machine.execDmaQueueEnable q s
  | .dmaQueueDisable q => Sys2Proof.Machine.execDmaQueueDisable q s
  | .registerWrite t off v => Sys2Proof.Machine.execRegisterWrite t off v s
  | .spiTransaction mosi => Sys2Proof.Machine.execSpiTransaction mosi s
  | .smbReadId addr => Sys2Proof.Machine.execSmbReadId addr s
  | .smbReadSerial addr => Sys2Proof.Machine.execSmbReadSerial addr s
  | .smbReadFwVersion addr => Sys2Proof.Machine.execSmbReadFwVersion addr s
  | .smbReadHostStatus addr => Sys2Proof.Machine.execSmbReadHostStatus addr s
  | .smbReadHealth addr => Sys2Proof.Machine.execSmbReadHealth addr s
  | .smbReadTemp addr => Sys2Proof.Machine.execSmbReadTemp addr s
  | .smbReadFeedStatus addr => Sys2Proof.Machine.execSmbReadFeedStatus addr s
  | .smbReadSafetyStatus addr => Sys2Proof.Machine.execSmbReadSafetyStatus addr s
  | .smbReadTimeSnap addr => Sys2Proof.Machine.execSmbReadTimeSnap addr s
  | .smbReadEstop addr => Sys2Proof.Machine.execSmbReadEstop addr s
  | .smbWriteEstop data pecOk => Sys2Proof.Machine.execSmbWriteEstop data pecOk s
  | .jtagBypass => Sys2Proof.Machine.execJtagBypass s
  | .jtagIdcode => Sys2Proof.Machine.execJtagIdcode s
  | .jtagSamplePreload levels => Sys2Proof.Machine.execJtagSamplePreload levels s
  | .jtagExtest => Sys2Proof.Machine.execJtagExtest s
  | .jtagTrst => Sys2Proof.Machine.execJtagTrst s
  | .hello => Sys2Proof.Machine.execHello s
  | .ping => Sys2Proof.Machine.execPing s
  | .bye => Sys2Proof.Machine.execBye s
  | .eventSubscribe => Sys2Proof.Machine.execEventSubscribe s
  | .paramGet => Sys2Proof.Machine.execParamGet s
  | .paramSet => Sys2Proof.Machine.execParamSet s
  | .paramGetBlock => Sys2Proof.Machine.execParamGetBlock s
  | .stage => Sys2Proof.Machine.execStage s
  | .commit => Sys2Proof.Machine.execCommit s
  | .confirm => Sys2Proof.Machine.execConfirm s
  | .revert => Sys2Proof.Machine.execRevert s
  | .bankDiff => Sys2Proof.Machine.execBankDiff s
  | .pendingDiscard => Sys2Proof.Machine.execPendingDiscard s
  | .modeRequest => Sys2Proof.Machine.execModeRequest s
  | .deviceReset => Sys2Proof.Machine.execDeviceReset s
  | .zoneDefine => Sys2Proof.Machine.execZoneDefine s
  | .zoneDelete => Sys2Proof.Machine.execZoneDelete s
  | .zoneQuery => Sys2Proof.Machine.execZoneQuery s
  | .seqLoad => Sys2Proof.Machine.execSeqLoad s
  | .arm => Sys2Proof.Machine.execArm s
  | .disarm => Sys2Proof.Machine.execDisarm s
  | .eventRead => Sys2Proof.Machine.execEventRead s
  | .replayStart => Sys2Proof.Machine.execReplayStart s
  | .replayCancel => Sys2Proof.Machine.execReplayCancel s
  | .replayStatus => Sys2Proof.Machine.execReplayStatus s
  | .surveyRead => Sys2Proof.Machine.execSurveyRead s
  | .calRun => Sys2Proof.Machine.execCalRun s
  | .calPoint => Sys2Proof.Machine.execCalPoint s
  | .calRead => Sys2Proof.Machine.execCalRead s
  | .pairHandover => Sys2Proof.Machine.execPairHandover s
  | .pairQuery => Sys2Proof.Machine.execPairQuery s
  | .peerRelay => Sys2Proof.Machine.execPeerRelay s
  | .journalRead => Sys2Proof.Machine.execJournalRead s
  | .logRead => Sys2Proof.Machine.execLogRead s
  | .fwBegin => Sys2Proof.Machine.execFwBegin s
  | .fwData => Sys2Proof.Machine.execFwData s
  | .fwEnd => Sys2Proof.Machine.execFwEnd s
  | .fwActivate => Sys2Proof.Machine.execFwActivate s
  | .fwConfirm => Sys2Proof.Machine.execFwConfirm s
  | .progLoad => Sys2Proof.Machine.execProgLoad s
  | .progDelete => Sys2Proof.Machine.execProgDelete s
  | .progList => Sys2Proof.Machine.execProgList s
  | .timeDomainWrite d increment adjust => Sys2Proof.Machine.execTimeDomainWrite d increment adjust s
  | .servoStateWrite d locked => Sys2Proof.Machine.execServoStateWrite d locked s
  | .timeSelectWrite d force => Sys2Proof.Machine.execTimeSelectWrite d force s
  | .tdcArmWrite on => Sys2Proof.Machine.execTdcArmWrite on s
  | .toutConfigWrite u field v => Sys2Proof.Machine.execToutConfigWrite u field v s
  | .dasGainWrite p gain => Sys2Proof.Machine.execDasGainWrite p gain s
  | .rateMtsWrite a rate => Sys2Proof.Machine.execRateMtsWrite a rate s
  | .estopReleaseWrite on => Sys2Proof.Machine.execEstopReleaseWrite on s
  | .portRestartWrite mask => Sys2Proof.Machine.execPortRestartWrite mask s
  | .hostEnableWrite mask => Sys2Proof.Machine.execHostEnableWrite mask s
  | .locateMaskWrite mask => Sys2Proof.Machine.execLocateMaskWrite mask s
  | .masterArmWrite on => Sys2Proof.Machine.execMasterArmWrite on s
  | .ptrFlagsWrite v => Sys2Proof.Machine.execPtrFlagsWrite v s
  | .udpTransportWrite enable port => Sys2Proof.Machine.execUdpTransportWrite enable port s
  | .nop l => Sys2Proof.Machine.execNop l s
  | .endInsn l => Sys2Proof.Machine.execEndInsn l s
  | .rep l nMinus1 => Sys2Proof.Machine.execRep l nMinus1 s
  | .loopi l c n => Sys2Proof.Machine.execLoopi l c n s
  | .loopp l c => Sys2Proof.Machine.execLoopp l c s
  | .dbnz l c off => Sys2Proof.Machine.execDbnz l c off s
  | .ldi l d v => Sys2Proof.Machine.execLdi l d v s
  | .ldih l d v => Sys2Proof.Machine.execLdih l d v s
  | .mov l d a => Sys2Proof.Machine.execMov l d a s
  | .movs l d n => Sys2Proof.Machine.execMovs l d n s
  | .seta l t a => Sys2Proof.Machine.execSeta l t a s
  | .setai l t v => Sys2Proof.Machine.execSetai l t v s
  | .geta l d t => Sys2Proof.Machine.execGeta l d t s
  | .getf l d => Sys2Proof.Machine.execGetf l d s
  | .add l d a b => Sys2Proof.Machine.execAdd l d a b s
  | .sub l d a b => Sys2Proof.Machine.execSub l d a b s
  | .addw l d a b => Sys2Proof.Machine.execAddw l d a b s
  | .subw l d a b => Sys2Proof.Machine.execSubw l d a b s
  | .and l d a b => Sys2Proof.Machine.execAnd l d a b s
  | .or l d a b => Sys2Proof.Machine.execOr l d a b s
  | .xor l d a b => Sys2Proof.Machine.execXor l d a b s
  | .min l d a b => Sys2Proof.Machine.execMin l d a b s
  | .max l d a b => Sys2Proof.Machine.execMax l d a b s
  | .abs l d a => Sys2Proof.Machine.execAbs l d a s
  | .neg l d a => Sys2Proof.Machine.execNeg l d a s
  | .shli l d a n => Sys2Proof.Machine.execShli l d a n s
  | .shrai l d a n => Sys2Proof.Machine.execShrai l d a n s
  | .shrli l d a n => Sys2Proof.Machine.execShrli l d a n s
  | .shrri l d a n => Sys2Proof.Machine.execShrri l d a n s
  | .shv l d a b => Sys2Proof.Machine.execShv l d a b s
  | .cmp l a b => Sys2Proof.Machine.execCmp l a b s
  | .sel l d a b cond => Sys2Proof.Machine.execSel l d a b cond s
  | .qor l a => Sys2Proof.Machine.execQor l a s
  | .qget l d => Sys2Proof.Machine.execQget l d s
  | .exp l d a => Sys2Proof.Machine.execExp l d a s
  | .bxp l a => Sys2Proof.Machine.execBxp l a s
  | .bxg l d => Sys2Proof.Machine.execBxg l d s
  | .ld l d p o size sign => Sys2Proof.Machine.execLd l d p o size sign s
  | .st l a p o size => Sys2Proof.Machine.execSt l a p o size s
  | .ldpt l d p o => Sys2Proof.Machine.execLdpt l d p o s
  | .inInsn l d => Sys2Proof.Machine.execInInsn l d s
  | .out l a size => Sys2Proof.Machine.execOut l a size s
  | .feat l k a b mode => Sys2Proof.Machine.execFeat l k a b mode s
  | .clr l j => Sys2Proof.Machine.execClr l j s
  | .mac l j a b => Sys2Proof.Machine.execMac l j a b s
  | .msu l j a b => Sys2Proof.Machine.execMsu l j a b s
  | .mac2 l pr a b a2 b2 => Sys2Proof.Machine.execMac2 l pr a b a2 b2 s
  | .macld l j a b p o p2 o2 => Sys2Proof.Machine.execMacld l j a b p o p2 o2 s
  | .ext l d j sh => Sys2Proof.Machine.execExt l d j sh s
  | .lda l j a sh => Sys2Proof.Machine.execLda l j a sh s
  | .adda l j j2 => Sys2Proof.Machine.execAdda l j j2 s
  | .log2 l d j => Sys2Proof.Machine.execLog2 l d j s
  | .launchSeen p => Sys2Proof.Machine.execLaunchSeen p s
  | .blankInputChange p level => Sys2Proof.Machine.execBlankInputChange p level s
  | .pairWatchdogExpiry => Sys2Proof.Machine.execPairWatchdogExpiry s
  | .ilkNHeld => Sys2Proof.Machine.execIlkNHeld s
  | .delayedReset => Sys2Proof.Machine.execDelayedReset s
  | .buttonStableRelease button => Sys2Proof.Machine.execButtonStableRelease button s

end Sys2Proof.Machine
end

