-- ==== Sys2Proof/Machine/Tick.lean ====
section
/-! DEFINITION. What a tick of 1.25 ns does when no command waits: the counters and the axis advance (R396 to R398), the standby's
counters are steered (R470), each link sends one datagram or frame by its priorities (R448, R468), frames of replay jobs enter staging
(R434), and a path-delay run that waits begins (R524). -/

namespace Sys2Proof.Machine

/-- Largest steering of a counter in one tick: 100 ppm (R470). [DESIGN CHOICE, notes/assumptions/95] -/
def steerMax : Int := 137438953

/-- The standby's counters move towards the peer's (R470). [DESIGN CHOICE, notes/assumptions/95] -/
def steerTick (s : State) : State :=
  let d := s.pair.steer
  if s.mode.current != .mirror || d = 0 then s
  else
    let step := max (-steerMax) (min steerMax d)
    onPair (fun x => { x with steer := d - step })
      (onTime (fun t => { t with domains := t.domains.map fun x => { x with count := ((x.count : Int) + step).toNat } }) s)

/-- Bytes that `max_mbps` allows in a millisecond (R448). -/
def paceBudget (s : State) (q : Nat) : Nat := paramNat s Pid.hostQueueMaxMbps q * 125

/-- Bytes a queue has sent ahead of its pace by now. [DESIGN CHOICE, notes/assumptions/86] -/
def paceDebtNow (s : State) (q : Nat) : Nat :=
  let x := queueOf s q
  x.paceDebt - (s.ticks / msTicks 1 - x.paceMs) * paceBudget s q

/-- May queue `q` send a datagram now (R448)? [DESIGN CHOICE, notes/assumptions/86] -/
def paceOpen (s : State) (q : Nat) : Bool := paceBudget s q == 0 || decide (paceDebtNow s q < paceBudget s q)

/-- Queues that follow `last` in turn. [DESIGN CHOICE, notes/assumptions/86] -/
def roundRobin (last : Nat) : List Nat := (List.range 8).map fun i => (last + 1 + i) % 8

/-- The queue datagrams of port `n` served round-robin (R448). [DESIGN CHOICE, notes/assumptions/86] -/
def sendQueueDatagram (n : Nat) (s : State) : State :=
  let e := ethOf s n
  match (roundRobin e.lastQueue).find? fun q => e.txQueue.any (·.1 == q) && paceOpen s q with
  | some q =>
    match e.txQueue.find? (·.1 == q) with
    | some d =>
      let debt := paceDebtNow s q + d.2.length
      onEth n (fun e => { e with txQueue := e.txQueue.erase d, sent := d, lastQueue := q })
        (onQueue q (fun x => { x with paceDebt := if paceBudget s q = 0 then 0 else debt, paceMs := s.ticks / msTicks 1 }) s)
    | none => s
  | none => s

/-- Port `n` transmits one datagram in strict priority (R448). [DESIGN CHOICE, notes/assumptions/86] -/
def ethTransmit (n : Nat) (s : State) : State :=
  let e := ethOf s n
  if !e.linkUp then s
  else
    match e.txPtp, e.txOxras with
    | d :: t, _ => onEth n (fun e => { e with txPtp := t, sent := d }) s
    | [], d :: t => onEth n (fun e => { e with txOxras := t, sent := d }) s
    | [], [] => sendQueueDatagram n s

/-- The Segor link sends one frame: of the most urgent kind that waits, the oldest (R468). [DESIGN CHOICE, notes/assumptions/86] -/
def segorTransmit (s : State) : State :=
  if !s.pair.linkUp then s
  else
    match ((List.range 5).filterMap fun k => s.pair.tx.find? (·.1 == k)).head? with
    | some f => onPair (fun x => { x with tx := x.tx.erase f, sent := f }) s
    | none => s

/-- Frames of running jobs that fit enter staging (R434). -/
def drainJobs (s : State) : State := forEach ((jobsRunning s).map (·.1)) (fun i s => jobDrain 64 i s) s

/-- The patrol scrub of DRAM goes on: every sector of an online port once in 24 h, skipping pages in self-refresh (R392). -/
def scrubTick (s : State) : State :=
  { s with memory := { s.memory with ports := s.memory.ports.map fun d =>
      if d.state == .online && !d.pasr then { d with scrub := (d.scrub + 1) % secTicks 86400 } else d } }

/-- One tick of 1.25 ns. [DESIGN CHOICE, notes/assumptions/2] -/
def tick (s : State) : State :=
  let s := { s with ticks := s.ticks + 1 }
  if s.mode.current == .reset || s.mode.current == .boot then s
  else
    let s := timeTick (steerTick (scrubTick s))
    tdcDelayStart (drainJobs (segorTransmit (ethTransmit 1 (ethTransmit 0 s))))

end Sys2Proof.Machine
end

