-- ==== Sys2Proof/Machine/Step.lean ====
section
/-! DEFINITION. One step: the command at the front of the queue, or one idle tick; and where the host puts a command that a table
word spells. -/

namespace Sys2Proof.Machine

/-- A step takes the command at the front of the queue and runs it with the rest of the queue; with none waiting, one tick of
1.25 ns passes (notes/assumptions/2). [DESIGN CHOICE, notes/assumptions/1; DESIGN CHOICE, notes/assumptions/2; DESIGN CHOICE, notes/assumptions/111] -/
def step (s : State) : Host.Outcome State Fault Refusal :=
  match s.pending with
  | [] => .next (tick s)
  | c :: rest => exec c { s with pending := rest }

/-- `s` with the command that a word of the opcode table spells at the front of its queue; `s` where it spells none. No row of the
table gives bits, so no word spells a command. [DESIGN CHOICE, notes/assumptions/1] -/
def State.withFetchWord (s : State) (nbits w : Nat) : State :=
  match decodeTableWord nbits w with
  | some c => { s with pending := c :: s.pending }
  | none => s

end Sys2Proof.Machine
end

