-- ==== Sys2Proof/Safety.lean ====
section
/-! DEFINITION. What claims about a run speak of: when a port may emit, what a device reset and a Scribe restart leave, which
request executes next, and that sparse stores stand in their canonical form. -/

namespace Sys2Proof.Machine

/-- Everything that R498 and R499 ask of port `p` before light may leave it: each term of the emission chain, and a lamp that is
lit and good. -/
def emissionAllowed (s : State) (p : Nat) : Prop :=
  s.safety.key = true ∧ s.safety.loop = true ∧ s.safety.estop = false ∧ s.pair.own = true ∧ indTerm s p = true ∧
    portPermit s p = true ∧ s.safety.fire.getLsbD p = true ∧ (ledOf s (portLamp s p)).litGood = true

/-- A state is safe when no port emits without all of that. -/
def emissionSafe (s : State) : Prop := ∀ p : Nat, emitEn s p = true → emissionAllowed s p

/-- No EMITp_EN and no SWSELp is high. -/
def emissionOff (t : State) : Prop := ∀ p : Nat, emitEn t p = false ∧ swsel t p = false

/-- What a device reset leaves (R39, R78 T1, the device row of R89): RESET with emission off and the leash released; flash, the
clock and the waiting commands kept; Scribe, its sessions, PENDING and every on-chip store cleared. -/
def deviceWasReset (s t : State) : Prop :=
  t.mode.current = .reset ∧ t.mode.previous = s.mode.current ∧ emissionOff t ∧ t.pair.driving = false ∧ t.pair.own = false ∧
    t.banks.active = s.banks.active ∧ t.banks.previous = s.banks.previous ∧ t.banks.trial = s.banks.trial ∧ t.banks.pending = none ∧
    t.journal = s.journal ∧ t.log.entries = s.log.entries ∧ t.serif.library = s.serif.library ∧
    t.scribe = {} ∧ t.evq = {} ∧ t.herder = {} ∧ t.raman = Vector.replicate 4 {} ∧ t.inkstone = {} ∧ t.time = {} ∧
    t.straps = {} ∧ t.power.feedGood = s.power.feedGood ∧ t.safety.estop = s.safety.estop ∧
    t.ticks = s.ticks ∧ t.free = s.free ∧ t.pending = s.pending

/-- Request `r` with opcode `code` is the one that executes now (R22, R130), and step 9 of R119 finds nothing wrong with it. -/
def mayExecute (s : State) (code : Nat) (r : Request) : Prop :=
  nextRequest code s = some r ∧ ∃ o, opRow code = some o ∧ step9 o r = none

/-- Internal command `r` of transport 4 stands at the head of the queue and may run (R22). -/
def internalAtHead (s : State) (r : Request) (code : Nat) : Prop :=
  (readyQueue s).head? = some r ∧ r.transport = 4 ∧ r.opcode = code ∧ s.scribe.restarting = false ∧ s.banks.job = none

/-- Identifier that the next journal entry takes (R143). -/
def nextJournal (s : State) : Nat := (s.journal.newest + 1) % 2 ^ 32

/-- The state of a journal entry, none when no entry has the identifier. -/
def journalState (s : State) (n : Nat) : Option JState := (journalOf s n).map (·.state)

/-- What Scribe's handling of a request, and a report, leave alone: power, references, balls, emission's terms, acquisition, records, memory,
time, the lanes, the clock and the waiting commands. -/
def plantUntouched (s t : State) : Prop :=
  t.power = s.power ∧ t.clocks = s.clocks ∧ t.straps = s.straps ∧ t.pins = s.pins ∧ t.mode = s.mode ∧ t.banks = s.banks ∧
    t.booted = s.booted ∧ t.modeEntry = s.modeEntry ∧ t.firmware = s.firmware ∧ t.ports = s.ports ∧ t.herder = s.herder ∧
    t.serif = s.serif ∧ t.raman = s.raman ∧ t.rtd = s.rtd ∧ t.hk = s.hk ∧ t.pointer = s.pointer ∧ t.inkstone = s.inkstone ∧
    t.memory = s.memory ∧ t.time = s.time ∧ t.safety = s.safety ∧ t.calib = s.calib ∧ t.ticks = s.ticks ∧ t.free = s.free ∧
    t.pending = s.pending

/-- Beyond reports, at most the ports, whose shots may be cut, the Raman launches cut with them, and the safety unit differ. -/
def emissionOnly (s t : State) : Prop := plantUntouched { s with ports := t.ports, raman := t.raman, safety := t.safety } t

/-- FIRE terms stand only in the modes that fire and in HANDOVER, where the releasing unit fires on (R77, R485, R498). -/
def State.fireConfined (s : State) : Prop := s.mode.current ∈ [Mode.run, .sentinel, .survey, .handover] ∨ s.safety.fire = 0

/-- Serif instruction `i` completes on lane `l` and leaves it as `x`, at the next word and one cycle on; other lanes and the rest of the
device stay as they are. -/
def laneRuns (i : Instr) (l : Nat) (s : State) (x : Lane) : Prop :=
  ∃ t, exec i s = .next t ∧ laneOf t l = { x with pc := (laneOf s l).pc + 1, cycles := (laneOf s l).cycles + 1, rep := none } ∧
    (∀ k, k ≠ l → laneOf t k = laneOf s k) ∧ t = { s with serif := { s.serif with lanes := t.serif.lanes } }

/-- Serif instruction `i` completes on lane `l`, of which then `p` holds, perhaps with a free value; other lanes and the rest of the
device stay as they are. -/
def laneMoves (i : Instr) (l : Nat) (s : State) (p : Lane → Prop) : Prop :=
  ∃ t, exec i s = .next t ∧ p (laneOf t l) ∧ (∀ k, k ≠ l → laneOf t k = laneOf s k) ∧
    t = { s with serif := { s.serif with lanes := t.serif.lanes }, free := t.free }

/-- The stores of parameter values hold rising keys and no default (R14). -/
def State.paramsWf (s : State) : Bool := Store.wf paramDefault s.params

end Sys2Proof.Machine
end

