-- ==== Sys2Proof/Certificates/Slice0/Obligations.lean ====
section
/-! DEFINITION. The statements about the model. Each names the rules of spec/ it formalises; a command's statement says the next
state that exec answers, and what that state holds and keeps. -/

open Sys2Proof Sys2Proof.Machine

/-- A step takes the command at the front of the queue and is exec of it on the state with the rest of the queue. -/
def Obligations.FrontCommandRuns : Prop :=
  ∀ (c : Instr) (rest : List Instr) (s : State), step { s with pending := c :: rest } = exec c { s with pending := rest }

/-- With no command waiting a step is one tick of 1.25 ns (the model's choice, log entry 2): the clock counts one, and in RESET and
BOOT nothing else changes. -/
def Obligations.IdleTickPasses : Prop :=
  ∀ s : State, s.pending = [] → ∃ t, step s = .next t ∧
    ((s.mode.current = .reset ∨ s.mode.current = .boot) → t = { s with ticks := s.ticks + 1 }) ∧
    t.ticks = s.ticks + 1 ∧ t.pending = []

/-- A fall of RESET_N or PWRGD, a core-group undervoltage and a loss of the control PLL enter RESET and record their causes
(R39, R52, R69, R72).
Rests on choices of the model: log entry 47. -/
def Obligations.ResetCausesEnterReset : Prop :=
  ∀ s : State, s.power.aon = true → s.mode.current ≠ .reset →
    (∃ t, exec .resetNFall s = .next t ∧ deviceWasReset s t ∧ t.power.resetCause = s.power.resetCause ||| 0x04 ∧
      t.pins.resetN = false ∧ t.firmware.slots = s.firmware.slots) ∧
    (∃ t, exec .pwrgdFall s = .next t ∧ deviceWasReset s t ∧ t.power.resetCause = s.power.resetCause ||| 0x02 ∧
      t.pins.pwrgd = false ∧ t.firmware.slots = s.firmware.slots) ∧
    (∃ t, exec (.railUndervoltage .core) s = .next t ∧ deviceWasReset s t ∧ t.power.resetCause = s.power.resetCause ||| 0x08 ∧
      t.power.coreOk = false ∧ t.power.resetHeld = true ∧ t.firmware.slots = s.firmware.slots) ∧
    (∃ t, exec .ctrlPllUnlock s = .next t ∧ deviceWasReset s t ∧ t.power.resetCause = s.power.resetCause ||| 0x10 ∧
      t.power.resetHeld = true ∧ t.firmware.slots = s.firmware.slots)

/-- Power rises on one feed and falls on both, the reset balls are released, and the straps are sampled (R39, R45, R54, R57, R78
T2): flash alone outlives a loss of power; RESET is left for BOOT with everything else as it was.
Rests on choices of the model: log entries 47, 52 and 54. -/
def Obligations.PowerUpAndRelease : Prop :=
  (∀ (s : State) (feed : Fin 2) (seq : Bool), s.power.aon = false → ∃ t, exec (.powerOn feed seq) s = .next t ∧
    t.power.aon = true ∧ t.power.feedVolt = s.power.feedVolt.set feed true ∧ t.power.resetCause = (if seq then 0x21 else 0x01) ∧
    t.mode.current = .reset ∧ emissionOff t ∧ t.banks.active = s.banks.active ∧ t.journal = s.journal ∧
    t.log.entries = s.log.entries ∧ t.firmware.slots = s.firmware.slots ∧ t.scribe = {} ∧ t.pending = s.pending) ∧
  (∀ s : State, ∃ t, exec .powerOff s = .next t ∧ t.power.aon = false ∧ t.power.feedVolt = Vector.replicate 2 false ∧
    t.power.resetCause = 0 ∧ t.mode.current = .reset ∧ emissionOff t ∧ t.pair.own = false ∧ t.banks.active = s.banks.active ∧
    t.journal = s.journal ∧ t.firmware.slots = s.firmware.slots ∧ t.scribe = {} ∧ t.pending = s.pending) ∧
  (∀ s : State, s.mode.current = .reset → s.power.aon = true → s.power.coreOk = true → s.power.railStatus = 0x1FFF →
    ∃ t, exec .resetRelease s = .next t ∧
      t = { s with
        mode := { s.mode with previous := .reset, current := .boot }
        pins := { s.pins with resetN := true, pwrgd := true }
        power := { s.power with resetHeld := false }
        time := { s.time with holdover := true, holdCause := 1 }
        safety := t.safety } ∧
      t.safety = { s.safety with leds := t.safety.leds } ∧ emissionOff t) ∧
  (∀ (s : State) (levels : Straps), s.mode.current = .boot → s.pins.strapsSampled = false →
    exec (.strapSample levels) s = .next { s with
      straps := levels, pins := { s.pins with straps := levels, strapsSampled := true, unitIdNow := levels.unitId } }) ∧
  (∀ (s : State) (levels : Straps), s.mode.current ≠ .boot ∨ s.pins.strapsSampled = true →
    exec (.strapSample levels) s = .next { s with pins := { s.pins with straps := levels } })

/-- Rails of R51: an undervoltage clears the rail's bit, reports RAIL_UV and applies its action, which for a port's rail ends its emission;
RAIL_RESTORED sets the bit again (R51, R52, R54, R71). The present level of UNIT_ID is followed, and a difference from the strap is logged
once while it lasts (R47).
Rests on choices of the model: log entry 53. -/
def Obligations.RailsAndStrapWatch : Prop :=
  (∀ (s : State) (r : Rail) (b : Nat), railBit r = some b → s.mode.current ≠ .reset → s.power.aon = true →
    exec (.railUndervoltage r) s = .next (railAction r (tell 0x0201 b 0 0 { s with power := { s.power with
      railStatus := s.power.railStatus &&& ~~~(1#13 <<< b), railStable := s.power.railStable &&& ~~~(1#13 <<< b) } }))) ∧
  (∀ (s : State) (p : Nat), vecRead s.power.portOos p true = false → p < 4 →
    vecRead (portOut p s).power.portOos p false = true ∧ emitEn (portOut p s) p = false ∧ swsel (portOut p s) p = false ∧
    (portOut p s).mode.current = s.mode.current) ∧
  (∀ s : State, railAction .hk s = s ∧ railAction .io33 s = enterFault 3 true s ∧
    railAction .serdes s = segorDown (ethDown 1 (ethDown 0 (pcieDown s))) ∧
    (∀ a : Fin 2, railAction (.vddq a) s = dramOffline a 3 s) ∧
    ∀ p : Fin 4, railAction (.rx p) s = portOut p s ∧ railAction (.tx p) s = portOut p s) ∧
  (∀ (s : State) (r : Rail) (b : Nat), railBit r = some b → s.mode.current ≠ .reset → ¬(r = .io33 ∧ s.mode.faultCode = 3) →
    exec (.railRestored r) s = .next { s with power := { s.power with
      railStatus := s.power.railStatus ||| (1#13 <<< b), railStable := s.power.railStable ||| (1#13 <<< b) } }) ∧
  (∀ s : State, exec (.railRestored .core) s = .next { s with power := { s.power with coreOk := true } }) ∧
  (∀ (s : State) (r : Rail) (b : Nat), railBit r = some b → s.mode.current = .reset → s.mode.faultCode = 0 → ∃ t,
    exec (.railRestored r) s = .next t ∧ t.power.railStatus = s.power.railStatus ||| (1#13 <<< b) ∧
    t.power.seqViolation = (s.power.seqViolation || (lateRail r && !earlierRails s)) ∧ t = { s with power := t.power }) ∧
  (∀ s : State, s.mode.faultCode = 3 → ∃ t, exec (.railRestored .io33) s = .next t ∧ t.mode.faultPresent = false ∧
    t.power.railStatus = s.power.railStatus ||| (1#13 <<< 9)) ∧
  (∀ (s : State) (level : Bool), scribeRuns s = true → level ≠ s.straps.unitId → s.pins.strapLogged = false →
    ∃ u, exec (.unitIdSample level) s = .next (post 0x0101 (idStraps { s with pins := { s.pins with unitIdNow := level } }) (bit level) 0 u) ∧
      u = { s with pins := { s.pins with unitIdNow := level, strapLogged := true } }) ∧
  (∀ (s : State) (level : Bool), scribeRuns s = true → level ≠ s.straps.unitId → s.pins.strapLogged = true →
    exec (.unitIdSample level) s = .next { s with pins := { s.pins with unitIdNow := level } })

/-- Feeds (R58, R59, R73): a lost feed is posted, naming the action that is applied or 0xFF, with BOTH_FEEDS_LOST when neither is
good; its action is queued as an internal command where it fits the mode, and with no action configured and no handover the loss only
reports. A restored feed is posted and changes no mode.
Rests on choices of the model: log entry 54. -/
def Obligations.FeedsLostAndRestored : Prop :=
  (∀ (s : State) (x : Fin 2) (volt pin : Bool), s.power.feedGood.get x = true → scribeRuns s = true → feedAction s x = 0 →
    feedHandover s = false → s.power.feedGood.get (1 - x) = true →
    exec (.feedLost x volt pin) s = .next (post 0x0202 x.val 0 0 { s with power := { s.power with
      feedVolt := s.power.feedVolt.set x volt, feedPin := s.power.feedPin.set x pin, feedGood := s.power.feedGood.set x false } })) ∧
  (∀ (s : State) (x : Fin 2) (volt pin : Bool), s.power.feedGood.get x = true → canPost s = true →
    let applied : Nat := if feedAction s x = 0 then 0 else if !feedHandover s && feedActionFits s (feedAction s x) then feedAction s x else 0xFF
    let u := post 0x0202 x.val applied 0 { s with power := { s.power with
      feedVolt := s.power.feedVolt.set x volt, feedPin := s.power.feedPin.set x pin, feedGood := s.power.feedGood.set x false } }
    exec (.feedLost x volt pin) s = .next (feedReact x (if s.power.feedGood.get (1 - x) then u else post 0x0204 0 0 0 u))) ∧
  (∀ (s : State) (x : Fin 2) (volt pin : Bool), s.power.feedGood.get x = true → scribeRuns s = true → feedAction s x ≠ 0 →
    feedHandover s = false → feedActionFits s (feedAction s x) = true → ∃ t, exec (.feedLost x volt pin) s = .next t ∧
      t.scribe.queue = s.scribe.queue ++ [{ transport := 4, opcode := 0x0300, payload := [if feedAction s x = 2 then 6 else 5, 0, BitVec.ofNat 8 x.val, 0] }] ∧
      t.power.feedGood = s.power.feedGood.set x false ∧ t.mode = s.mode) ∧
  (∀ (s : State) (x : Fin 2), s.power.aon = true → s.power.feedGood.get x = false →
    exec (.feedRestored x) s = .next (tell 0x0203 x.val 0 0 { s with power := { s.power with
      feedVolt := s.power.feedVolt.set x true, feedPin := s.power.feedPin.set x true, feedGood := s.power.feedGood.set x true } }))

/-- References (R62 to R65, R67, R74): presence, its loss, OCXO_WARM and the wanted source; a switch completes with the core PLL
on the new source, and is posted; a failed crystal latches FAULT.
Rests on choices of the model: log entries 55 and 56. -/
def Obligations.ReferencesSwitch : Prop :=
  (∀ (s : State) (src : Fin 2) (hz25 : Bool), s.mode.current ≠ .reset → ∃ u,
    exec (.refPresent src hz25) s = .next (refReact u) ∧
    u = { s with clocks := if src = 0 then { s.clocks with refinPresent := true, refinHz := if hz25 then 25000000 else 10000000 }
                           else { s.clocks with ocxoPresent := true, ocxoHz := if hz25 then 25000000 else 10000000 } }) ∧
  (∀ s : State, s.clocks.refinPresent = true → refForced s 0 = false → exec (.refAbsent 0) s =
    .next (refReact { s with clocks := { s.clocks with refinPresent := false, refinHz := 0 } })) ∧
  (∀ s : State, s.clocks.refinPresent = true → refForced s 0 = true → scribeRuns s = true → exec (.refAbsent 0) s =
    .next (refReact (post 0x0302 1 0 0 { s with clocks := { s.clocks with refinPresent := false, refinHz := 0 } }))) ∧
  (∀ s : State, s.clocks.ocxoPresent = true → refForced s 1 = false → exec (.refAbsent 1) s =
    .next (refReact { s with clocks := { s.clocks with ocxoPresent := false, ocxoHz := 0 } })) ∧
  (∀ (s : State) (warm : Bool), exec (.ocxoWarmChange warm) s = .next (refReact { s with clocks := { s.clocks with ocxoWarm := warm } })) ∧
  (∀ s : State, scribeRuns s = true → s.clocks.corePllLost = false → s.clocks.switchTo = none → wantedRef s ≠ s.clocks.inUse →
    refReact s = { s with clocks := { s.clocks with switchTo := some (wantedRef s) } }) ∧
  (∀ (s : State) (r : RefSource), s.clocks.switchTo = some r → scribeRuns s = true → ∃ t, exec .refSwitch s = .next t ∧
    t.clocks = { s.clocks with inUse := r, switchTo := none } ∧ t.mode = s.mode ∧ t.ports = s.ports ∧ t.power = s.power ∧
    t.evq.seq = s.evq.seq + 1) ∧
  (∀ s : State, s.mode.current ≠ .reset → s.mode.current ≠ .fault → ∃ t, exec .xtalFail s = .next t ∧
    t.mode.current = .fault ∧ t.mode.faultCode = 1 ∧ t.clocks.xtalFailed = true)

/-- PLLs (R69, R75, R85): a loss of lock sets its sticky bit and takes its action; ten milliseconds without the core PLL, and a
junction 5 °C above the grade's maximum, latch FAULT.
Rests on choices of the model: log entries 55 and 56. -/
def Obligations.PllsLoseLock : Prop :=
  (∀ s : State, s.clocks.switchTo = none → pllLocked s 0 = true → ∃ t, exec .corePllUnlock s = .next t ∧
    t.clocks = { s.clocks with
      locked := s.clocks.locked &&& 0x1E, lossSeen := s.clocks.lossSeen ||| 0x01, corePllLost := true, lossTicks := t.clocks.lossTicks } ∧
    t.mode = s.mode ∧ t.power = s.power ∧ t.banks = s.banks) ∧
  (∀ s : State, s.mode.current ≠ .reset → s.mode.current ≠ .boot → pllLocked s 0 = false → ∃ t, exec .corePllRelock s = .next t ∧
    t.clocks.locked = s.clocks.locked ||| 0x01 ∧ t.clocks.corePllLost = false ∧ t.clocks.inUse = s.clocks.inUse ∧
    t.mode.current = s.mode.current) ∧
  (∀ s : State, s.clocks.corePllLost = true → s.mode.current ≠ .reset → s.mode.current ≠ .fault → ∃ t,
    exec .corePllTimeout s = .next t ∧ t.mode.current = .fault ∧ t.mode.faultCode = 2 ∧ t.mode.faultPresent = true) ∧
  (∀ (s : State) (a : Fin 2), s.mode.current ≠ .reset → pllLocked s (2 + a) = true → ∃ t, exec (.dramPllUnlock a) s = .next t ∧
    t.clocks.lossSeen = s.clocks.lossSeen ||| (1#5 <<< (2 + a.val)) ∧ dramOnline t a = false ∧ t.mode.current = s.mode.current) ∧
  (∀ s : State, s.mode.current ≠ .reset → pllLocked s 4 = true → ∃ t, exec .pciePllUnlock s = .next t ∧
    t.clocks.lossSeen = s.clocks.lossSeen ||| 0x10 ∧ t.links.pcieUp = false ∧ t.mode = s.mode ∧ t.ports = s.ports) ∧
  (∀ (s : State) (temp : Int), gradeMax + 80 ≤ temp → s.mode.current ≠ .reset → s.mode.current ≠ .fault → ∃ t,
    exec (.thermalLimit temp) s = .next t ∧ t.mode.current = .fault ∧ t.mode.faultCode = 8 ∧ t.calib.temp = temp)

/-- Taking a fault (R84, R85, T20): from any mode but RESET and FAULT the device enters FAULT with the code latched, and no port
emits; a fault that arises in FAULT leaves the latched code.
Rests on choices of the model: log entry 43. -/
def Obligations.FaultIsLatched : Prop :=
  (∀ (s : State) (code : Nat) (present : Bool), s.mode.current ≠ .reset → s.mode.current ≠ .fault →
    (enterFault code present s).mode.current = .fault ∧ (enterFault code present s).mode.faultCode = code ∧
    (enterFault code present s).mode.faultPresent = present ∧ (enterFault code present s).mode.faultFromTest = (s.mode.current == .test) ∧
    emissionOff (enterFault code present s) ∧ (enterFault code present s).pair.driving = false) ∧
  (∀ (s : State) (code : Nat) (present : Bool), s.mode.current = .fault →
    (enterFault code present s).mode.faultCode = s.mode.faultCode ∧ (enterFault code present s).mode.current = .fault)

/-- Start-up and Scribe's own failures (R89, R90, R97 to R99, R102): the boot ROM's choice of image, the store clear, the end of
BOOT, the recovery loader, and the resets and restarts that Scribe's commands and timeouts cause.
Rests on choices of the model: log entries 7 and 48. -/
def Obligations.BootAndRestarts : Prop :=
  (∀ s : State, s.mode.current = .boot → s.mode.imageRunning = false → s.mode.bootNoImage = false → s.straps.bootRecover = false →
    preferredBoots s = true → ∃ t, exec .bootRomStart s = .next t ∧ t.mode.imageRunning = true ∧
      t.firmware.running = s.firmware.preferred ∧ t.clocks.locked = s.clocks.locked ||| 0x02 ∧
      t.firmware.trialBoots = (if (slotOf s s.firmware.preferred).confirmed then s.firmware.trialBoots else s.firmware.trialBoots + 1) ∧
      t = { s with mode := t.mode, firmware := t.firmware, clocks := t.clocks }) ∧
  (∀ s : State, s.mode.current = .boot → s.mode.imageRunning = false → s.mode.bootNoImage = false → s.straps.bootRecover = false →
    (slotOf s 0).verifies = false → (slotOf s 1).verifies = false → ∃ t, exec .bootRomStart s = .next t ∧
      t.mode = { s.mode with bootNoImage := true } ∧ t = { s with mode := t.mode, clocks := t.clocks }) ∧
  (∀ s : State, s.mode.current = .boot → exec (.bootSramClearDone true) s = .next { s with mode := { s.mode with sramCleared := true } }) ∧
  (∀ s : State, s.mode.current = .boot → ∃ t, exec (.bootSramClearDone false) s = .next t ∧ t.mode.current = .fault ∧ t.mode.faultCode = 9) ∧
  (∀ s : State, s.mode.current = .boot → s.mode.imageRunning = true → s.mode.sramCleared = true → ∃ t, exec .bootComplete s = .next t ∧
    (t.mode.current = .config ∨ t.mode.current = .mirror) ∧ t.mode.admitted = true ∧ t.scribe.ready = true ∧ emissionOff t) ∧
  (∀ (s : State) (image : List Byte), s.mode.current = .boot → s.mode.bootNoImage = true → Config.imageVerifies image = true →
    s.firmware.secverMin ≤ (Config.imageHeader image).2.1 → ∃ t, exec (.recoveryImage image) s = .next t ∧ deviceWasReset s t ∧
      (t.firmware.slots.get t.firmware.preferred).verifies = true ∧ (t.firmware.slots.get t.firmware.preferred).confirmed = false ∧
      t.firmware.trialBoots = 0) ∧
  (∀ s : State, scribeRuns s = true → s.scribe.restarting = false → ∃ t, exec .scribeWatchdog s = .next t ∧
    t.scribe.restarting = true ∧ t.scribe.queue = [] ∧ t.banks.pending = none ∧ t.banks.active = s.banks.active ∧
    t.mode.resetRecord = s.mode.resetRecord ||| 0x80 ∧ t.mode.current = s.mode.current ∧
    t = { s with scribe := t.scribe, banks := t.banks, mode := t.mode, firmware := t.firmware, serif := t.serif, pair := t.pair,
                 calib := t.calib, links := t.links, pointer := t.pointer } ∧
    t.pointer = (if s.pointer.areaSram then { s.pointer with records := [] } else s.pointer)) ∧
  (∀ s : State, s.scribe.restarting = true → (s.journal.entries.map (·.ident)).Nodup → ∃ t, exec (.scribeRestartDone false) s = .next t ∧ t.scribe.restarting = false ∧
    t.scribe.ready = true ∧ t.mode = s.mode ∧ t.banks = s.banks ∧ t.ports = s.ports ∧ t.memory = s.memory ∧
    ∀ e ∈ t.journal.entries, jstateOpen e.state = false) ∧
  (∀ (s : State) (from_ : Nat), s.firmware.confirmFrom = some from_ → from_ + secTicks (paramNat s Pid.fwConfirmTimeoutS 0) ≤ s.ticks →
    ∃ t, exec .fwConfirmTimeout s = .next t ∧ deviceWasReset s t ∧ t.mode.resetRecord = s.mode.resetRecord ||| 0x10 ∧
      (t.firmware.slots.get s.firmware.running).failed = true) ∧
  (∀ s : State, s.scribe.delayedReset = some 0 → ∃ t, exec .delayedReset s = .next t ∧ t.scribe.restarting = true ∧
    t.banks.active = s.banks.active ∧ t.ports = s.ports ∧ t.mode.current = s.mode.current) ∧
  (∀ (s : State) (k : Nat), s.scribe.delayedReset = some (k + 1) → ∃ t, exec .delayedReset s = .next t ∧ deviceWasReset s t ∧
    t.power.resetHeld = true)

/-- Requests (R78, R80, R94, R135): a MODE_REQUEST whose transition's preconditions hold starts that transition and is journaled;
one that names no transition is WRONG_MODE, and one during a transition BUSY. -/
def Obligations.ModeRequestsStart : Prop :=
  (∀ (s : State) (r : Request) (m : Mode) (a : Asked), mayExecute s 0x0300 r → s.banks.switch = none →
    modeOfCode (field r.payload 0 1) = some m → m ≠ .survey → (restorePorts (dequeue r s)).mode.inProgress = none →
    askedFor (restorePorts (dequeue r s)) m = some a → askedStatus (restorePorts (dequeue r s)) a = 0 → a.number ≠ 14 → a.number ≠ 6 →
    ∃ t, exec .modeRequest s = .next t ∧
      t.mode = { (restorePorts (dequeue r s)).mode with inProgress := some (Transition.mk a.number a.target
        (.host (nextJournal (restorePorts (dequeue r s)))) (BitVec.ofNat 4 (field r.payload 1 1)) a.thenRun) } ∧
      t.journal.newest = nextJournal (restorePorts (dequeue r s)) ∧ t.power = (restorePorts (dequeue r s)).power ∧
      t.banks = (restorePorts (dequeue r s)).banks) ∧
  (∀ (s : State) (r : Request) (m : Mode), mayExecute s 0x0300 r → s.banks.switch = none →
    modeOfCode (field r.payload 0 1) = some m → (restorePorts (dequeue r s)).mode.inProgress = none →
    askedFor (restorePorts (dequeue r s)) m = none →
    exec .modeRequest s = .next (refuse r 0x30 0 (restorePorts (dequeue r s)))) ∧
  (∀ (s : State) (r : Request) (m : Mode), mayExecute s 0x0300 r → s.banks.switch = none →
    modeOfCode (field r.payload 0 1) = some m → (restorePorts (dequeue r s)).mode.inProgress.isSome = true →
    exec .modeRequest s = .next (refuse r 0x31 0 (restorePorts (dequeue r s)))) ∧
  (∀ s : State, s.banks.switch.isSome = true → exec .modeRequest s = .next s)

/-- A transition that takes time completes in its target mode, with the mode it left as `mode.previous`, nothing in progress, and no
port emitting where the target is no mode of emission (R76, R78); a surveyed port's step records its result and the port stops being
surveyed (R175, R176).
Rests on choices of the model: log entry 60. -/
def Obligations.TransitionsComplete : Prop :=
  (∀ (s : State) (w : Transition), s.mode.inProgress = some w → w.thenRun = false →
    w.target ∈ [Mode.config, .survey, .run, .sentinel, .dormant, .mirror, .test] → ∃ t, exec .modeTransitionDone s = .next t ∧
      t.mode.current = w.target ∧ t.mode.previous = s.mode.current ∧ t.mode.inProgress = none ∧
      (w.target ∈ [Mode.config, .dormant, .mirror, .test] → ∀ p, emitEn t p = false) ∧ t.power.feedGood = s.power.feedGood ∧
      t.ticks = s.ticks ∧ t.pending = s.pending) ∧
  (∀ (s : State) (p : Fin 4) (trace : SurveyTrace), s.mode.current = .survey → (portOf s p).surveying = true → ∃ t,
    exec (.surveyPortDone p trace) s = .next t ∧ (portOf t p).surveying = false ∧ (portOf t p).survey = surveyResult s p trace ∧
      (surveyResult s p trace).endCell = trace.endCell ∧ (surveyResult s p trace).journal = s.mode.surveyJournal ∧ t.mode.current = .survey ∧ t.safety.fire.getLsbD p = false ∧
      t.power = s.power ∧ t.clocks = s.clocks ∧ t.memory = s.memory ∧ t.pending = s.pending)

/-- Scribe's own commands (R22, R59, R87, R95, R96): each is journaled under transport 4 when it reaches the head of the queue and
runs; auto-run and a feed-loss action start their transition when its preconditions hold, the automatic revert is raised at the
confirm timeout and starts on PREVIOUS, and it is discarded when its occasion is gone.
Rests on choices of the model: log entry 58. -/
def Obligations.InternalCommandsRun : Prop :=
  (∀ (s : State) (r : Request), internalAtHead s r 0x0300 → field r.payload 0 1 = 4 → s.banks.switch = none →
    (restorePorts (journalOpen r 1 (dequeue r s))).mode.inProgress = none → s.mode.current = .config →
    mayRun (restorePorts (journalOpen r 1 (dequeue r s))) = true →
    askedStatus (restorePorts (journalOpen r 1 (dequeue r s))) { number := 5, target := .run, fires := true, admits := true } = 0 →
    ∃ t, exec .autoRun s = .next t ∧ t.mode.inProgress = some { number := 5, target := .run, origin := .internal (nextJournal s) } ∧
      t.journal.newest = nextJournal s ∧ journalState t (nextJournal s) = some .running ∧ t.mode.current = .config) ∧
  (∀ (s : State) (r : Request), internalAtHead s r 0x0300 → field r.payload 0 1 = 5 → s.banks.switch = none →
    s.mode.inProgress = none → s.mode.current = .run → ∃ t, exec .feedLossAction s = .next t ∧
      t.mode.inProgress = some { number := 8, target := .sentinel, origin := .internal (nextJournal s) } ∧
      journalState t (nextJournal s) = some .running ∧ t.mode.current = .run ∧ t.banks = s.banks ∧ t.power = s.power ∧
      t.safety = s.safety ∧ t.pair = s.pair) ∧
  (∀ s : State, confirmExpired s s.ticks = true → s.banks.revertRaised = false → scribeRuns s = true → s.scribe.restarting = false →
    s.mode.current ≠ .mirror → exec .cfgConfirmTimeout s = .next { s with
      banks := { s.banks with revertRaised := true }
      scribe := { s.scribe with queue := s.scribe.queue ++
        [{ transport := 4, opcode := 0x0203, payload := leBytes 4 s.banks.active.epoch }] } }) ∧
  (∀ (s : State) (r : Request) (b : Bank), internalAtHead s r 0x0203 → s.banks.previous = some b → s.banks.trial = true →
    field r.payload 0 4 = s.banks.active.epoch → ∃ t j, exec .autoRevert s = .next t ∧ t.banks.job = some j ∧ j.kind = 2 ∧
      j.bank = b ∧ j.journal = nextJournal s ∧ t.banks = { s.banks with job := some j } ∧ t.mode = s.mode ∧ t.ports = s.ports) ∧
  (∀ (s : State) (r : Request), internalAtHead s r 0x0203 → s.banks.trial = false →
    exec .autoRevert s = .next (dequeue r s))

/-- Configuration banks (R91, R92, R95, R96, R134): STAGE and PENDING_DISCARD fill and empty PENDING; COMMIT and REVERT start the
programming of a commit record; once it is programmed the new bank is ACTIVE with the next epoch and the old one PREVIOUS; CONFIRM
ends TRIAL; BANK_DIFF changes nothing but its answer.
Rests on choices of the model: log entry 19. -/
def Obligations.BanksChange : Prop :=
  (∀ (s : State) (r : Request) (u : State), mayExecute s 0x0200 r → field r.payload 2 1 = 0 →
    applyItems true false 0 (requestItems r.payload) (dequeue r s) = .ok u → ∃ t, exec .stage s = .next t ∧
      t.banks = u.banks ∧ t.journal.newest = nextJournal s ∧ t.mode = s.mode ∧
      t.ports = u.ports ∧ t.safety = u.safety) ∧
  (∀ (s : State) (r : Request) (i st : Nat), mayExecute s 0x0200 r → field r.payload 2 1 = 0 →
    applyItems true false 0 (requestItems r.payload) (dequeue r s) = .error (i, st) →
    exec .stage s = .next (refuse r st i (dequeue r s))) ∧
  (∀ (s : State) (r : Request) (b : Bank), mayExecute s 0x0201 r → commitMode s = true → s.banks.trial = false →
    field r.payload 0 4 = 0xFFFFFFFF → s.banks.pending = some b → validate b s.serif.library = none →
    (admitPlan b s.serif.library (planLimits (restorePorts (dequeue r s)) b) false).fits = true →
    (admitPlan b s.serif.library (planLimits (restorePorts (dequeue r s)) b) true).fits = true →
    ∃ t j, exec .commit s = .next t ∧ t.banks = { (restorePorts (dequeue r s)).banks with job := some j } ∧ j.kind = 0 ∧ j.bank = b ∧
      j.journal = t.journal.newest ∧ j.request = r) ∧
  (∀ (s : State) (j : CommitJob), s.banks.job = some j → j.kind = 0 → s.banks.switch = none → s.mode.current = .run → ∃ t,
    exec .commitRecordProgrammed s = .next t ∧ t.banks.active = { j.bank with epoch := s.banks.highestEpoch + 1, format := 4 } ∧
      t.banks.highestEpoch = s.banks.highestEpoch + 1 ∧ t.banks.previous = some s.banks.active ∧ t.banks.pending = none ∧
      t.banks.trial = (paramNat s Pid.cfgConfirmTimeoutS 0 != 0) ∧ t.banks.job = none ∧ t.mode.current = .run ∧
      (∃ w, t.banks.switch = some w ∧ w.old = s.banks.active ∧ w.portsLeft = 0xF ∧
        s.ticks + msTicks 1 ≤ w.tsw)) ∧
  (∀ (s : State) (p : Fin 4) (w : BankSwitch), s.banks.switch = some w → w.tsw ≤ s.ticks → w.portsLeft = 1#4 <<< p.val →
    ((portOf s p).gridRunning = false ∨ (portOf s p).nextSlot = 0) → ∃ t, exec (.commitSwitch p) s = .next t ∧
      t.banks.switch = none ∧ t.banks.active = s.banks.active ∧ t.mode.current = s.mode.current) ∧
  (∀ (s : State) (r : Request), mayExecute s 0x0202 r → field r.payload 0 4 = s.banks.active.epoch → s.banks.trial = true →
    confirmExpired s r.arrived = false → ∃ t, exec .confirm s = .next t ∧ t.banks = { s.banks with trial := false } ∧ t.mode = s.mode ∧
      t.ports = s.ports ∧ t.memory = s.memory ∧ t.safety = s.safety) ∧
  (∀ (s : State) (r : Request) (b : Bank), mayExecute s 0x0203 r → commitMode s = true → field r.payload 0 4 = s.banks.active.epoch →
    s.banks.previous = some b → (admitPlan b s.serif.library (planLimits (journalOpen r 3 (dequeue r s)) b) false).fits = true →
    (admitPlan b s.serif.library (planLimits (journalOpen r 3 (dequeue r s)) b) true).fits = true → ∃ t j, exec .revert s = .next t ∧
      t.banks = { s.banks with job := some j } ∧ j.kind = 1 ∧ j.bank = b ∧ t.mode = s.mode ∧ t.ports = s.ports) ∧
  (∀ (s : State) (r : Request), mayExecute s 0x0204 r → field r.payload 0 1 = 0 → field r.payload 1 1 = 1 →
    ∃ (t : State) (body : List Byte), exec .bankDiff s = .next t ∧ t = answer r 0 0 body (dequeue r s) ∧ plantUntouched s t) ∧
  (∀ (s : State) (r : Request), mayExecute s 0x0205 r → ∃ t, exec .pendingDiscard s = .next t ∧
    t = answerOk r (post 0x0221 2 0 0 { dequeue r s with banks := { s.banks with pending := none } }) ∧
    t.banks = { s.banks with pending := none })

/-- The answer of a command on a page transport (R114, R115, R117, R121): it waits for the response area under its request's tag, as a
message with the session's version and next response sequence, RESP set, and the prefix of status and detail before the result bytes;
nothing outside the mailbox changes. -/
def Obligations.AnswersWait : Prop :=
  ∀ (s : State) (r : Request) (ss : Session) (status detail : Nat) (body : List Byte), r.transport < 2 → status ≠ 0x01 →
    status ≠ 0x13 → r.opcode ≠ 0x0002 →
    (transportOf s r.transport).session = some ss → (r.session = 0 ∨ r.session = ss.ident) → body.length ≤ 4076 →
    (transportOf (answer r status detail body s) r.transport).waiting = (transportOf s r.transport).waiting ++
      [⟨r.tag, message ss.version r.opcode r.tag ss.respSeq 0x20
        (leBytes 1 status ++ leBytes 1 0 ++ leBytes 2 detail ++ body), true⟩] ∧
    (transportOf (answer r status detail body s) r.transport).tags = (transportOf s r.transport).tags ∧
    ((transportOf (answer r status detail body s) r.transport).session.map (·.respSeq)) = some ((ss.respSeq + 1) % 65536) ∧
    answer r status detail body s = { s with scribe := { s.scribe with transports := (answer r status detail body s).scribe.transports } }

/-- Step 9 of R119 on the command that executes now: a payload length that does not fit is refused with BAD_LENGTH and counted as a
violation, a reserved field that is not 0 with BAD_PARAM; the command has no other effect. -/
def Obligations.StepNineRefuses : Prop :=
  ∀ (s : State) (code : Nat) (h : Request → State → State) (r : Request) (o : OpRow), nextRequest code s = some r →
    opRow code = some o →
    ((lenOk o.len r.payload = false → runCommand code h s =
      refuse r 0x10 0 (violate r.transport 0x10 r.opcode (headerBytes r) (dequeue r s))) ∧
     (lenOk o.len r.payload = true → (r.flags &&& 0xFF07 ≠ 0 ∨ reservedOk o.reserved r.payload = false) →
       runCommand code h s = refuse r 0x20 0 (dequeue r s)))

/-- The page's own registers (R108, R110, R113, R114, R139, R538): DOORBELL submits while FREE is 1, Scribe takes the message and frees
the area, the oldest answer is placed and acknowledged, the owner of the event queue moves its tail, snapshot low words latch their high words and a high word's read releases it, or
is torn where nothing is latched, and a plain register write changes its register alone.
Rests on choices of the model: log entries 13, 63 and 70. -/
def Obligations.PageRegistersWork : Prop :=
  (∀ (s : State) (t : Fin 2) (v : BitVec 32), (pageOf s t).reqFree = true →
    exec (.doorbellWrite t v) s = .next (onPage t (fun g => { g with reqFree := false, doorbell := some (v.toNat % 8192) }) s)) ∧
  (∀ (s : State) (t : Fin 2) (n : Nat), (pageOf s t).doorbell = some n → s.scribe.ready = true → exec (.messageTaken t) s =
    .next (receive t 0 0 n (requestArea s t (min n 4096))
      (irqSet t 2 (onPage t (fun g => { g with doorbell := none, reqFree := true }) s)))) ∧
  (∀ (s : State) (t : Fin 2), exec (.rspAckWrite t) s = .next (onPage t (fun g => { g with rspValid := false }) s)) ∧
  (∀ (s : State) (t : Fin 2) (w : WaitingAnswer) (rest : List WaitingAnswer), (pageOf s t).rspValid = false →
    (transportOf s t).waiting = w :: rest → byeAnswer w.bytes = false → ∃ u, exec (.responsePlaced t) s = .next u ∧
      (pageOf u t).rspValid = true ∧ (pageOf u t).rspTag = w.tag ∧ (pageOf u t).response = w.bytes ∧
      (transportOf u t).waiting = rest ∧
      (transportOf u t).tags = (if w.holdsTag then (transportOf s t).tags.erase w.tag else (transportOf s t).tags) ∧
      plantUntouched s u) ∧
  (∀ (s : State) (t : Fin 2) (v : BitVec 32), v.toNat < 128 → paramNat s Pid.hostEvqOwner 0 = t → s.evq.dropped = 0 →
    exec (.evqTailWrite t v) s = .next { s with evq := { s.evq with tail := v.toNat } }) ∧
  (∀ (s : State) (t : Fin 2) (off : Nat), off ∈ snapshotLows → ∃ u, exec (.snapshotLowRead t off) s = .next u ∧
    (pageOf u t).readData = BitVec.ofNat 32 (statusWord s t off) ∧
    (off ≠ 0x144 → ∀ e ∈ snapshotHighs s t off, Store.read (fun _ => 0) (pageOf u t).latched e.1 = BitVec.ofNat 32 e.2) ∧
    u.mode = s.mode ∧ u.time = s.time ∧ u.ports = s.ports ∧ u.evq = s.evq) ∧
  (∀ (s : State) (t : Fin 2) (off live : Nat) (e : Nat × BitVec 32), liveHigh s t off = some live →
    ((pageOf s t).latched.find? fun e => e.1 == off) = some e → exec (.snapshotHighRead t off) s =
      .next (onPage t (fun g => { g with latched := Store.erase g.latched off, readData := e.2 }) s)) ∧
  (∀ (s : State) (t : Fin 2) (off live : Nat), liveHigh s t off = some live → (pageOf s t).latched = [] → ∃ u,
    exec (.snapshotHighRead t off) s = .next u ∧ (pageOf u t).readData = BitVec.ofNat 32 live ∧ (pageOf u t).torn = true ∧
    u.mode = s.mode ∧ u.time = s.time ∧ u.ports = s.ports ∧ u.evq = s.evq) ∧
  (∀ (s : State) (t : Fin 2) (v : BitVec 32),
    exec (.registerWrite t 0x12C ⟨2, v⟩) s = .next { s with scribe := { s.scribe with scratch := v } } ∧
    exec (.registerWrite t 0x124 ⟨2, v⟩) s =
      .next (onPage t (fun g => { g with irqStatus := g.irqStatus &&& ~~~(v.setWidth 5) }) s))

/-- Sessions (R123, R125, R127, R128, R136, R140): HELLO starts one with the version chosen and response sequence 1 after its own answer,
PING echoes, BYE answers and ends the peer's session at once, EVENT_SUBSCRIBE sets the subscription; the Ethernet session ends at its timeout and a throttle after
1,000 ms.
Rests on choices of the model: log entry 62. -/
def Obligations.SessionsLive : Prop :=
  (∀ (s : State) (r : Request) (v : Nat), mayExecute s 0x0001 r → r.transport < 2 → negotiate r.payload = some v →
    ∃ t, exec .hello s = .next t ∧
      ((transportOf t r.transport).session.map fun x => (x.version, x.ident, x.respSeq, x.subscribed)) =
        some (v, (s.scribe.sessions + 1) % 2 ^ 32, 1, false) ∧
      (transportOf t r.transport).tags = [r.tag] ∧ plantUntouched s t) ∧
  (∀ (s : State) (r : Request), mayExecute s 0x0002 r → exec .ping s = .next (answer r 0 0 r.payload (dequeue r s))) ∧
  (∀ (s : State) (r : Request), mayExecute s 0x0003 r → r.transport < 2 → exec .bye s = .next (answerOk r (dequeue r s))) ∧
  (∀ (s : State) (r : Request), mayExecute s 0x0003 r → r.transport = 3 → ∃ t, exec .bye s = .next t ∧
    (transportOf t 3).session = none ∧ (transportOf t 3).tags = []) ∧
  (∀ (s : State) (r : Request), mayExecute s 0x0009 r → field r.payload 0 1 = 1 → exec .eventSubscribe s =
    .next (answerOk r (onTransport r.transport (fun x => { x with
      session := x.session.map fun ss => { ss with subscribed := true, eventSeq := 0 } }) (dequeue r s)))) ∧
  (∀ (s : State) (t : Fin 4), (transportOf s t).throttled = true → (transportOf s t).throttleFrom + msTicks 1000 ≤ s.ticks →
    exec (.throttleEnd t) s = .next (onTransport t (fun x => { x with throttled := false }) s)) ∧
  (∀ (s : State) (ss : Session), (transportOf s 2).session = some ss →
    ss.lastValid + secTicks (paramNat s Pid.hostOxrasSessionTimeoutS 0) ≤ s.ticks → ∃ t, exec .sessionTimeout s = .next t ∧
      (transportOf t 2).session = none ∧ (transportOf t 2).tags = [] ∧ (transportOf t 2).waiting = [] ∧ plantUntouched s t)

/-- Parameters (R13, R14, R133, R147): reads answer the items asked for and change nothing else; a PARAM_SET of one item in its
range applies it and is journaled DONE, and a failing item refuses the message with its index, no item applied; a write of the UDP transport's
parameters ends its session where it is disabled or moved.
Rests on choices of the model: log entry 17. -/
def Obligations.ParametersReadAndSet : Prop :=
  (∀ (s : State) (r : Request), mayExecute s 0x0100 r → field r.payload 2 1 = 0 →
    (∀ i < field r.payload 0 2, (paramItem (field r.payload (4 + 4 * i) 2) (field r.payload (6 + 4 * i) 2)).isSome = true) →
    ∃ t, exec .paramGet s = .next t ∧ plantUntouched s t ∧
      t = answerItems r ((List.range (field r.payload 0 2)).map fun i =>
        itemBytes (field r.payload (4 + 4 * i) 2) (field r.payload (6 + 4 * i) 2)
          (readParam (dequeue r s) (field r.payload (4 + 4 * i) 2) (field r.payload (6 + 4 * i) 2))) (dequeue r s)) ∧
  (∀ (s : State) (r : Request), mayExecute s 0x0102 r → field r.payload 6 1 = 0 → 1 ≤ field r.payload 4 2 →
    field r.payload 4 2 ≤ 339 → ∃ (t : State) (items : List (List Byte)), exec .paramGetBlock s = .next t ∧ plantUntouched s t ∧
      t = answerItems r items (dequeue r s) ∧ items.length ≤ field r.payload 4 2) ∧
  (∀ (s : State) (r : Request), mayExecute s 0x0101 r → field r.payload 0 2 = 1 → field r.payload 4 2 = Pid.powerFeedDebounceMs →
    field r.payload 6 2 = 0 → 1 ≤ field r.payload 8 8 → field r.payload 8 8 ≤ 255 → s.paramsWf = true → ∃ t, exec .paramSet s = .next t ∧
      paramGet t Pid.powerFeedDebounceMs 0 = field r.payload 8 8 ∧ t.journal.newest = nextJournal s ∧
      journalState t (nextJournal s) = some .done ∧ plantUntouched s t) ∧
  (∀ (s : State) (r : Request) (i st : Nat), mayExecute s 0x0101 r →
    applyItems false (hasBit r.flags 4) 0 (requestItems r.payload) (dequeue r s) = .error (i, st) →
    exec .paramSet s = .next (refuse r st i (dequeue r s))) ∧
  (∀ (s : State) (enable : Bool) (port : Nat), 1024 ≤ port → port ≤ 65535 → s.paramsWf = true → ∃ t,
    exec (.udpTransportWrite enable port) s = .next t ∧ paramNat t Pid.hostOxrasUdpPort 0 = port ∧
      paramBool t Pid.hostOxrasUdpEnable 0 = enable ∧
      ((enable = false ∨ port ≠ paramNat s Pid.hostOxrasUdpPort 0) → (transportOf t 2).session = none) ∧ plantUntouched s t)

/-- Reads of records (R145, R177, R545): JOURNAL_READ, LOG_READ and SURVEY_READ answer OK and leave the plant as it is. -/
def Obligations.RecordsAreRead : Prop :=
  (∀ (s : State) (r : Request), mayExecute s 0x0A00 r → field r.payload 0 1 ≤ 1 → 1 ≤ field r.payload 8 1 → field r.payload 8 1 ≤ 32 →
    ∃ (t : State) (es : List JournalEntry), exec .journalRead s = .next t ∧ plantUntouched s t ∧ t.journal = s.journal ∧ t.log = s.log ∧
      es.length ≤ field r.payload 8 1 ∧ (∀ e ∈ es, e ∈ s.journal.entries) ∧
      t = answer r 0 0 (leBytes 2 es.length ++ leBytes 2 0 ++ (es.map journalBytes).flatten) (dequeue r s)) ∧
  (∀ (s : State) (r : Request), mayExecute s 0x0A01 r → field r.payload 0 1 ≤ 1 → 1 ≤ field r.payload 8 1 → field r.payload 8 1 ≤ 113 →
    (∀ e ∈ s.log.entries, e.bad = false) → ∃ (t : State) (es : List LogEntry), exec .logRead s = .next t ∧ plantUntouched s t ∧ t.log = s.log ∧
      es.length ≤ field r.payload 8 1 ∧ (∀ e ∈ es, e ∈ s.log.entries) ∧
      t = answer r 0 0 (leBytes 2 es.length ++ leBytes 2 0 ++ (es.map logEntryBytes).flatten) (dequeue r s)) ∧
  (∀ (s : State) (r : Request), mayExecute s 0x0700 r → field r.payload 0 1 ≤ 3 → ∃ (t : State) (body : List Byte), exec .surveyRead s = .next t ∧
    plantUntouched s t ∧ t = answer r 0 0 body (dequeue r s) ∧ field body 0 4 = (portOf s (field r.payload 0 1)).survey.journal % 2 ^ 32)

/-- Firmware update (R99, R102): FW_BEGIN opens and erases the slot that is not running, FW_DATA appends a chunk, FW_END stores a
verified image, FW_ACTIVATE prefers it in state TRIAL with a reset to follow, FW_CONFIRM confirms the running slot.
Rests on choices of the model: log entry 7. -/
def Obligations.FirmwareUpdates : Prop :=
  (∀ (s : State) (r : Request), mayExecute s 0x0B00 r → fwMode s = true → 6144 ≤ s.memory.usablePages → s.firmware.upload = none →
    ∃ t, exec .fwBegin s = .next t ∧ t.firmware = { s.firmware with
      upload := some { journal := nextJournal s }, slots := s.firmware.slots.set (otherSlot s.firmware.running) {} } ∧
      t.journal.newest = nextJournal s ∧ t.mode = s.mode ∧ t.banks = s.banks) ∧
  (∀ (s : State) (r : Request) (u : FwUpload), mayExecute s 0x0B01 r → fwMode s = true → s.firmware.upload = some u →
    u.bytes.length + r.payload.length ≤ 4194304 → ∃ t, exec .fwData s = .next t ∧ t.firmware = { s.firmware with
      upload := some { u with bytes := u.bytes ++ r.payload } } ∧ t.mode = s.mode ∧ t.banks = s.banks) ∧
  (∀ (s : State) (r : Request) (u : FwUpload), mayExecute s 0x0B02 r → fwMode s = true → s.firmware.upload = some u →
    Config.imageVerifies u.bytes = true → s.firmware.secverMin ≤ (trialSlot u.bytes).security →
    (trialSlot u.bytes).formatLo ≤ s.banks.active.format → s.banks.active.format ≤ (trialSlot u.bytes).formatHi →
    ∃ t, exec .fwEnd s = .next t ∧ t.firmware = { s.firmware with
      upload := none, slots := s.firmware.slots.set (otherSlot s.firmware.running) (trialSlot u.bytes) } ∧ t.mode = s.mode) ∧
  (∀ (s : State) (r : Request), mayExecute s 0x0B03 r → fwMode s = true →
    (slotOf s (otherSlot s.firmware.running)).verifies = true → ∃ t, exec .fwActivate s = .next t ∧
      t.firmware.preferred = otherSlot s.firmware.running ∧ t.firmware.trialBoots = 0 ∧
      (t.firmware.slots.get (otherSlot s.firmware.running)).confirmed = false ∧ t.scribe.delayedReset = some 2 ∧
      t.mode = { s.mode with resetRecord := s.mode.resetRecord ||| 0x08 }) ∧
  (∀ (s : State) (r : Request), mayExecute s 0x0B04 r → fwMode s = true → ∃ t, exec .fwConfirm s = .next t ∧
    (t.firmware.slots.get s.firmware.running).confirmed = true ∧ t.firmware.confirmFrom = none ∧
    t.firmware.secverMin = max s.firmware.secverMin (s.firmware.slots.get s.firmware.running).security ∧ t.mode = s.mode) ∧
  (∀ (s : State) (r : Request), mayExecute s 0x0301 r → field r.payload 0 1 ≤ 1 → ∃ t, exec .deviceReset s = .next t ∧
    t.scribe.delayedReset = some (field r.payload 0 1) ∧
    t.mode = { s.mode with resetRecord := s.mode.resetRecord ||| (if field r.payload 0 1 = 1 then 0x20 else 0x40) } ∧
    t.banks = s.banks ∧ t.ports = s.ports ∧ t.safety = s.safety)

/-- The PCIe endpoint (R42, R428, R430, R431): PE_PERST_N, a hot reset and a function level reset end the PCIe session and free its tags,
and touch neither acquisition nor the SPI page beyond its interrupt status; the link comes up at the lower of what trains and what is allowed, and PE_WAKE_N asks
for L0.
Rests on choices of the model: log entries 37 and 82. -/
def Obligations.PcieEndpoint : Prop :=
  (∀ (s : State) (c : Instr), c = .pePerstNAssert ∨ c = .pcieHotReset ∨ c = .pcieFlr → ∃ t, exec c s = .next t ∧
    (transportOf t 0).session = none ∧ (transportOf t 0).tags = [] ∧ (transportOf t 0).waiting = [] ∧
    (pageOf t 0).rspValid = false ∧ (pageOf t 0).irqEnable = 0 ∧
    pageOf t 1 = { pageOf s 1 with irqStatus := (pageOf t 1).irqStatus } ∧ transportOf t 1 = transportOf s 1 ∧
    transportOf t 2 = transportOf s 2 ∧ t.scribe.queue = s.scribe.queue ∧ t.mode = s.mode ∧ t.ports = s.ports ∧ t.time = s.time ∧
    t.safety = s.safety ∧ t.banks = s.banks ∧ (c = .pePerstNAssert → t.pins.perst = true)) ∧
  (∀ (s : State) (gen : BitVec 4) (width : BitVec 3), pcieHeld s = false → gen.toNat ≤ paramNat s Pid.hostPcieMaxGen 0 →
    width.toNat ≤ paramNat s Pid.hostPcieMaxWidth 0 → ∃ t, exec (.pcieLinkChange true gen width) s = .next t ∧
      t.links.pcieUp = true ∧ t.links.pcieGen = gen ∧ t.links.pcieWidth = width ∧ t.links.pcieL1 = false ∧
      t.clocks.locked = s.clocks.locked ||| 0x10 ∧ t.mode = s.mode ∧ t.ports = s.ports ∧ t.banks = s.banks) ∧
  (∀ (s : State) (gen : BitVec 4) (width : BitVec 3), s.links.pcieUp = true → scribeRuns s = true → ∃ t,
    exec (.pcieLinkChange false gen width) s = .next t ∧ t.links.pcieUp = false ∧ t.links.pcieGen = 0 ∧ t.links.pcieWidth = 0 ∧
      t.evq.seq = s.evq.seq + 1 ∧ t.mode = s.mode ∧ t.ports = s.ports) ∧
  (∀ s : State, s.links.pcieL1 = true → pcieWanted s = true →
    exec .pcieL1Wake s = .next { s with links := { s.links with peWake := true } })

/-- The Ethernet ports (R120, R445, R446): a link comes up at its rate and falls with what waits on it; a frame with a bad FCS and one for
no protocol of the port are counted and dropped; a datagram for the Oxras port reaches Scribe whole, and is discarded uncounted while
Scribe takes no messages.
Rests on choices of the model: log entry 84. -/
def Obligations.EthernetPorts : Prop :=
  (∀ (s : State) (n : Fin 2), ethHeld s n = false → (ethOf s n).linkUp = false → ∃ t, exec (.ethLink n true) s = .next t ∧
    (ethOf t n).linkUp = true ∧ (ethOf t n).rate1g = ethRate1g s n ∧ t.mode = s.mode ∧ t.ports = s.ports ∧ t.time = s.time) ∧
  (∀ (s : State) (n : Fin 2), (ethOf s n).linkUp = true → ∃ t, exec (.ethLink n false) s = .next t ∧
    (ethOf t n).linkUp = false ∧ (ethOf t n).txQueue = [] ∧ (ethOf t n).txPtp = [] ∧ t.mode = s.mode ∧ t.time = s.time) ∧
  (∀ (s : State) (n : Fin 2), (ethOf s n).linkUp = true → exec (.ethFrameRx n .other) s = .next (bump Pid.hostEthRxDropped n s)) ∧
  (∀ (s : State) (n : Fin 2), (ethOf s n).linkUp = true → exec (.ethFrameRx n .badFcs) s =
    .next (bump Pid.hostEthRxDropped n (onEth n (fun e => { e with rxErrSeen := true }) s))) ∧
  (∀ (s : State) (n : Fin 2) (source port : Nat) (v6 : Bool) (payload : List Byte), (ethOf s n).linkUp = true →
    paramBool s Pid.hostOxrasUdpEnable 0 = true → port = paramNat s Pid.hostOxrasUdpPort 0 →
    (s.scribe.ready = true → exec (.ethFrameRx n (.udp source v6 port false payload)) s =
      .next (receive 2 (sourceNumber source v6) n payload.length payload s)) ∧
    (s.scribe.ready = false → exec (.ethFrameRx n (.udp source v6 port false payload)) s = .next s))

/-- The SPI and SMBus targets (R107, R111, R452 to R454): an SPI read returns the status byte and the register, an SPI write of four bytes
writes it; each SMBus read command at the device's address 0x58 + ASEL returns its words, and a transaction for another address changes nothing;
an SMBus stop write is served without Scribe, and a wrong PEC is counted.
Rests on choices of the model: log entries 70 and 83. -/
def Obligations.SpiAndSmbusTargets : Prop :=
  (∀ (s : State) (d : Byte), targetsServe s = true → paramBool s Pid.hostSpiEnable 0 = true → ∃ t,
    exec (.spiTransaction [0x03, 0, 0, d, 0, 0, 0, 0]) s = .next t ∧ t.links.spiData = spiStatus s :: leBytes 4 0x46400B31 ∧
      t.links.eth = s.links.eth ∧ t.links.queues = s.links.queues ∧ plantUntouched s t) ∧
  (∀ (s : State) (b0 b1 b2 b3 : Byte), targetsServe s = true → paramBool s Pid.hostSpiEnable 0 = true → ∃ t,
    exec (.spiTransaction [0x02, 0x01, 0x2C, b0, b1, b2, b3]) s = .next t ∧ t.scribe.scratch.toNat = leNat [b0, b1, b2, b3] ∧
      t.links.spiData = [spiStatus s] ∧ plantUntouched s t) ∧
  (∀ (s : State) (a : BitVec 7), targetsServe s = true → a = smbAddress s →
    let gives (c : Instr) (words : List Nat) : Prop :=
      exec c s = .next { s with links := { s.links with smbData := (words.map (leBytes 4)).flatten } }
    gives (.smbReadId a) [0x46400B31, identityWord s 4] ∧ gives (.smbReadSerial a) [identityWord s 8, identityWord s 12] ∧
    gives (.smbReadFwVersion a) [(fwVersion s).toNat] ∧ gives (.smbReadHostStatus a) [hostStatus s none] ∧
    gives (.smbReadHealth a) [healthWord s] ∧ gives (.smbReadTemp a) [unsigned 16 s.calib.temp] ∧
    gives (.smbReadFeedStatus a) [feedStatus s] ∧ gives (.smbReadSafetyStatus a) [safetyStatus s] ∧
    gives (.smbReadEstop a) [estopWord s]) ∧
  (∀ (s : State) (a : BitVec 7) (data : List Byte) (ok : Bool), a ≠ smbAddress s →
    ∀ c ∈ [Instr.smbReadId a, .smbReadSerial a, .smbReadFwVersion a, .smbReadHostStatus a, .smbReadHealth a, .smbReadTemp a, .smbReadFeedStatus a,
      .smbReadSafetyStatus a, .smbReadTimeSnap a, .smbReadEstop a, .smbWriteEstop ⟨a, data⟩ ok], exec c s = .next s) ∧
  (∀ s : State, smbAddress s = BitVec.ofNat 7 (0x58 + s.straps.smbAsel.toNat)) ∧
  (∀ s : State, targetsServe s = true → exec (.smbReadTimeSnap (smbAddress s)) s = .next { s with
    calib := { s.calib with snapTag := s.calib.snapTag + 1 }
    links := { s.links with smbData := leBytes 4 (selectedNet s).ns ++ leBytes 4 (snapHi s) ++ leBytes 4 (snapExt s (s.calib.snapTag + 1)) } }) ∧
  (∀ (s : State) (data : List Byte), targetsServe s = true → data.length = 4 → hasBit (leNat data) 0 = true →
    exec (.smbWriteEstop ⟨smbAddress s, data⟩ true) s = .next (estopStop 2 s)) ∧
  (∀ (s : State) (data : List Byte) (ok : Bool), targetsServe s = true → ok = false ∨ data.length ≠ 4 →
    exec (.smbWriteEstop ⟨smbAddress s, data⟩ ok) s = .next (bump Pid.hostSmbPecErrors 0 s))

/-- JTAG (R459): a test instruction releases the leash and lets nothing emit; IDCODE reads the device's code; the boundary register
samples the balls; outside a test the functional instructions change nothing else.
Rests on choices of the model: log entry 85. -/
def Obligations.JtagTests : Prop :=
  (∀ s : State, ∃ t, exec .jtagExtest s = .next t ∧ t.links.jtagTest = true ∧ emissionOff t ∧ t.pair.driving = false ∧
    t.pair.own = false ∧ t.mode = s.mode ∧ t.banks = s.banks ∧ t.time = s.time) ∧
  (∀ s : State, s.links.jtagTest = false → exec .jtagBypass s = .next s ∧ exec .jtagTrst s = .next s ∧
    exec .jtagIdcode s = .next { s with links := { s.links with jtagData := Config.jtagIdcode } } ∧
    ∀ levels, exec (.jtagSamplePreload levels) s = .next { s with links := { s.links with boundary := levels } }) ∧
  (∀ (s : State) (c : Instr), s.links.jtagTest = true → c = .jtagBypass ∨ c = .jtagTrst ∨ c = .jtagIdcode → ∃ t, exec c s = .next t ∧
    t.links.jtagTest = false ∧ t.mode = s.mode ∧ t.banks = s.banks)


/-- Barks and the watch on the peer (R465, R466, R469 to R473): a bark carries the mode and sequence under a CRC and services the pair
watchdog; each silent path is marked, both return before PEER_FAILED clears, a declared failure leaves an active unit in its mode and makes a
standby take, and a bark received is held with its clock's offset. -/
def Obligations.PeerIsWatched : Prop :=
  (∀ s : State, barksSent s = true → s.pair.linkUp = true → ∃ t b, exec .barkSend s = .next t ∧ t.pair.tx.getLast? = some (0, b) ∧
    b.length = 64 ∧ field b 0 1 = 1 ∧ field b 3 1 = modeCode s.mode.current ∧ field b 4 4 = s.pair.barkSeq.toNat ∧
    field b 60 4 = (crc32c (b.take 60)).toNat ∧ t.pair.barkSeq = s.pair.barkSeq + 1 ∧ t.pair.watchdogOk = true ∧
    emissionOnly s t) ∧
  (∀ s : State, exec .pairWatchdogExpiry s = .next { s with pair := { s.pair with watchdogOk := false } }) ∧
  (∀ s : State, pairEnabled s = true → s.pair.hbSilent = false → ∃ t, exec .hbPathSilent s = .next t ∧ t.pair.hbSilent = true ∧
    t.pair.linkLost = s.pair.linkLost ∧ t.pair.own = s.pair.own ∧ emissionOnly s t) ∧
  (∀ s : State, pairEnabled s = true → s.pair.linkLost = false → ∃ t, exec .barkPathSilent s = .next t ∧ t.pair.linkLost = true ∧
    t.pair.hbSilent = s.pair.hbSilent ∧ t.pair.own = s.pair.own ∧ emissionOnly s t) ∧
  (∀ s : State, s.pair.hbSilent = true → ∃ t, exec (.pairPathRestored 0) s = .next t ∧ t.pair.hbSilent = false ∧
    t.pair.linkLost = s.pair.linkLost ∧ t.pair.peerFailed = (s.pair.peerFailed && s.pair.linkLost) ∧ t.pair.own = s.pair.own ∧
    emissionOnly s t) ∧
  (∀ s : State, s.pair.linkLost = true → ∃ t, exec (.pairPathRestored 1) s = .next t ∧ t.pair.linkLost = false ∧
    t.pair.hbSilent = s.pair.hbSilent ∧ t.pair.peerFailed = (s.pair.peerFailed && s.pair.hbSilent) ∧ t.pair.own = s.pair.own ∧
    emissionOnly s t) ∧
  (∀ s : State, pairEnabled s = true → s.pair.hbSilent = true → s.pair.linkLost = true → s.pair.peerFailed = false →
    s.mode.current ≠ .mirror → ∃ t, exec .peerFailed s = .next t ∧ t.pair.peerFailed = true ∧ peerReady t = false ∧
      t.pair.own = s.pair.own ∧ t.pair.driving = s.pair.driving ∧ emissionOnly s t) ∧
  (∀ s : State, pairEnabled s = true → s.pair.hbSilent = true → s.pair.linkLost = true → s.pair.peerFailed = false →
    s.mode.current = .mirror → s.mode.inProgress = none → s.pair.idConflict = false → s.pair.ilkHeld = false → ∃ t,
      exec .peerFailed s = .next t ∧ t.pair.peerFailed = true ∧ t.mode.current = .handover ∧ t.pair.taking = true ∧ t.pair.cause = 3 ∧
      t.power = s.power ∧ t.clocks = s.clocks ∧ t.banks = s.banks ∧ t.memory = s.memory ∧ t.time = s.time) ∧
  (∀ (s : State) (present : Bool), exec (.peerPresentChange present) s = .next { s with pair := { s.pair with peerPresent := present } }) ∧
  (∀ (s : State) (b : Bark), pairEnabled s = true → s.pair.linkUp = true → scribeRuns s = true → s.mode.current ≠ .mirror →
    s.pair.step ≠ .stopping → ∃ t, exec (.barkReceived b) s = .next t ∧ t.pair.peer = some b ∧ t.pair.echo = b.tx ∧
      t.pair.rx = selectedNet s ∧ t.pair.idConflict = (b.unitId == s.straps.unitId) ∧ t.pair.timeOffset = s.pair.timeOffset ∧
      t.pair.own = s.pair.own ∧ emissionOnly s t) ∧
  (∀ (s : State) (b : Bark), pairEnabled s = true → s.pair.linkUp = true → s.mode.current = .mirror → s.pair.step = .idle →
    b.flags.getLsbD 4 = false → ∃ t, exec (.barkReceived b) s = .next t ∧ t.pair.peer = some b ∧
      t.pair.timeOffset = barkOffset b (selectedNet s) ∧
      emissionOnly s t)

/-- The leash (R474, R475, R477 to R480): OWN sets only at a test that finds ILK_N held by this unit's own current; a collision makes
unit 1 let go and unit 0 retest; OWN clears with the drive, and nothing emits without it.
Rests on choices of the model: log entries 90 and 91. -/
def Obligations.LeashIsTaken : Prop :=
  (∀ s : State, s.pair.driving = true → s.pair.own = false → s.mode.current ≠ .handover → ∃ t, exec (.leashOwnTest true true) s = .next t ∧
    t.pair.own = true ∧ t.pair.ilkHeld = true ∧ emissionOnly s t) ∧
  (∀ s : State, s.pair.driving = true → s.pair.own = false → s.mode.current = .handover → ∃ t, exec (.leashOwnTest true true) s = .next t ∧
    t.pair.own = true ∧ (t.mode.current = takenMode s.pair.applied ∨ t.mode.current = .inhibit) ∧ t.pair.taking = false ∧
    t.pair.step = .idle ∧ t.pair.lastCause = s.pair.cause ∧ t.power = s.power ∧ t.clocks = s.clocks ∧ t.pending = s.pending) ∧
  (∀ s : State, s.pair.driving = true → s.pair.own = false → s.straps.unitId = true → s.mode.current ≠ .handover → ∃ t,
    exec (.leashOwnTest true false) s = .next t ∧ t.pair.own = false ∧ t.pair.driving = false ∧ emissionOff t ∧
    emissionOnly s t) ∧
  (∀ s : State, s.pair.driving = true → s.pair.own = false → s.straps.unitId = false → s.pair.idConflict = false → ∃ t,
    exec (.leashOwnTest true false) s = .next t ∧ t.pair.own = false ∧ t.pair.driving = true ∧ t.pair.retest = true ∧
    emissionOnly s t) ∧
  (∀ s : State, s.pair.driving = true → s.pair.own = false → s.mode.current ≠ .handover → ∃ t,
    exec (.leashOwnTest false false) s = .next t ∧ t.pair.own = false ∧ t.pair.driving = false ∧
    emissionOnly s t) ∧
  (∀ s : State, s.pair.driving = true → s.pair.own = true → ∃ t, exec (.ownClear false) s = .next t ∧ t.pair.own = false ∧
    t.pair.driving = false ∧ emissionOff t ∧ emissionOnly s t) ∧
  (∀ s : State, s.pair.driving = false → s.mode.current = .handover → s.pair.step = .waiting → s.pair.waitZero = true →
    s.links.jtagTest = false → ∃ t, exec .ilkNReleased s = .next t ∧ t.pair.driving = true ∧ t.pair.step = .driving ∧ t.pair.own = false ∧
      emissionOnly s t) ∧
  (∀ s : State, s.pair.driving = false → s.pair.step ≠ .released → ∃ t, exec .ilkNHeld s = .next t ∧ t.pair.ilkHeld = true ∧
    t.pair.driving = false ∧ emissionOnly s t) ∧
  (∀ s : State, s.pair.driving = false → s.mode.current = .handover → s.pair.step = .released → s.pair.toConfig = false → ∃ t,
    exec .ilkNHeld s = .next t ∧ t.mode.current = .mirror ∧ t.pair.step = .idle ∧ t.pair.lastCause = s.pair.cause ∧
    t.power = s.power ∧ t.clocks = s.clocks ∧ t.banks = s.banks ∧ t.memory = s.memory ∧ t.time = s.time) ∧
  (∀ s : State, s.mode.current = .mirror → pairEnabled s = true → paramBool s Pid.pairAutoTake 0 = true → s.pair.idConflict = false →
    s.pair.ilkHeld = false → s.pair.peer = none → s.mode.inProgress = none → ∃ t, exec .vacantTimeout s = .next t ∧
      t.mode.current = .handover ∧ t.pair.taking = true ∧ t.pair.cause = 6 ∧ t.power = s.power ∧ t.banks = s.banks ∧ t.time = s.time) ∧
  (∀ s : State, s.mode.current = .handover → s.pair.step = .waiting → s.pair.waitZero = false → s.pair.ilkHeld = false →
    s.pair.driving = false → s.links.jtagTest = false → ∃ t, exec .takeWaitEnd s = .next t ∧ t.pair.driving = true ∧
      t.pair.step = .driving ∧ t.pair.own = false ∧ emissionOnly s t) ∧
  (∀ s : State, s.mode.current = .handover → s.pair.own = false → ∃ t, exec .handoverTimeout s = .next t ∧
    t.mode.current = .mirror ∧ t.pair.driving = false ∧ t.pair.own = false ∧ emissionOff t ∧ t.power = s.power ∧ t.banks = s.banks)

/-- Copies and handovers (R476, R481, R483, R485, R486, R490, R492): the active unit copies its state each epoch, the standby applies a
copy whole, and a planned handover runs from its request over the FINAL copy to the release, or is given up without COPY_ACK.
Rests on choices of the model: log entries 91 and 92. -/
def Obligations.HandoversRun : Prop :=
  (∀ (s : State) (r : Request), mayExecute s 0x0900 r → field r.payload 0 1 = 0 → pairEnabled s = true →
    (s.mode.current = .run ∨ s.mode.current = .sentinel) → s.mode.inProgress = none → s.pair.own = true →
    mayRelease (hasBit r.flags 4) (dequeue r s) = true → ∃ t, exec .pairHandover s = .next t ∧ t.mode.current = .handover ∧
      t.pair.step = .stopping ∧ t.pair.handoverReq = true ∧ t.pair.cause = 2 ∧ t.pair.own = true ∧ t.pair.fromMode = s.mode.current ∧
      t.safety.fire = s.safety.fire ∧ t.journal.newest = nextJournal s ∧ t.banks = s.banks ∧ t.power = s.power) ∧
  (∀ (s : State) (r : Request), mayExecute s 0x0900 r → field r.payload 0 1 = 1 → pairEnabled s = true → s.mode.current = .mirror →
    s.mode.inProgress = none → s.pair.ilkHeld = false → ∃ t, exec .pairHandover s = .next t ∧ t.mode.current = .handover ∧
      t.pair.taking = true ∧ t.pair.cause = 2 ∧ t.journal.newest = nextJournal s ∧ t.banks = s.banks ∧ t.power = s.power) ∧
  (∀ s : State, s.safety.service = false → pairEnabled s = true → s.pair.own = true → (s.mode.current = .run ∨ s.mode.current = .sentinel) →
    s.mode.inProgress = none → mayRelease false s = true → ∃ t, exec .servicePress s = .next t ∧ t.mode.current = .handover ∧
      t.pair.step = .stopping ∧ t.pair.cause = 1 ∧ t.pair.own = true ∧ t.banks = s.banks ∧ t.power = s.power) ∧
  (∀ s : State, s.safety.service = false → pairEnabled s = false → scribeRuns s = true → ∃ t, exec .servicePress s = .next t ∧
    t.safety.service = true ∧ emissionOnly s t) ∧
  (∀ s : State, activeRole s = true → s.pair.linkUp = true → s.pair.peerFailed = false → scribeRuns s = true → s.pair.step = .idle →
    s.mode.current ≠ .handover → (∀ p : Fin 4, (portOf s p).gridRunning = false) → ∃ t c, exec .copyEpochEnd s = .next t ∧ t.pair.copyEpoch = s.pair.copyEpoch + 1 ∧ t.pair.unacked = true ∧
      t.pair.lastCopy = some c ∧ c.epoch = t.pair.copyEpoch.toNat ∧ c.final = false ∧ c.mode = s.mode.current ∧
      c.shotSeq = s.ports.map (·.shotSeq.toNat) ∧ c.seqs = s.pointer.seqs ∧ c.raman = s.raman ∧ c.activeEpoch = s.banks.active.epoch ∧
      t.pair.copyAge = (if s.pair.copyAge = 0xFF then 0xFF else s.pair.copyAge + 1) ∧
      emissionOnly s t) ∧
  (∀ (s : State) (p : Fin 4), activeRole s = true → s.pair.linkUp = true → s.pair.peerFailed = false → scribeRuns s = true →
    s.pair.step = .idle → s.mode.current ≠ .handover → (portOf s p).gridRunning = true → ∃ t g, exec .copyEpochEnd s = .next t ∧
      t.pair.gather = some g ∧ g.2.getLsbD p = true ∧ g.1.epoch = (s.pair.copyEpoch + 1).toNat ∧ t.pair.copyEpoch = s.pair.copyEpoch ∧
      t.pair.lastCopy = s.pair.lastCopy ∧ emissionOnly s t) ∧
  (∀ (s : State) (c : CopyState), s.mode.current = .mirror → pairEnabled s = true → s.pair.linkUp = true → c.final = false → ∃ t,
    exec (.copyReceived c) s = .next t ∧ t.pair.applied = some c ∧ t.pair.copyAge = 0 ∧ t.time = { s.time with select := c.select } ∧
      plantUntouched { s with ports := t.ports, safety := t.safety, time := t.time } t) ∧
  (∀ (s : State) (c : CopyState), s.mode.current = .mirror → pairEnabled s = true → s.pair.linkUp = true → c.final = true →
    s.mode.inProgress = none → ∃ t, exec (.copyReceived c) s = .next t ∧ t.pair.applied = some c ∧ t.mode.current = .handover ∧
      t.pair.taking = true ∧ t.pair.cause = c.cause ∧ t.banks = s.banks ∧ t.power = s.power) ∧
  (∀ s : State, s.pair.step = .stopping → s.pair.portsLeft = 0 → s.herder.work = [] → (enabledZones s.banks.active).any (roundsPending s) = false →
    s.pair.journal = none → s.pair.linkVersion = 2 → ∃ t c, exec .finalCopySend s = .next t ∧ t.pair.step = .finalSent ∧
      t.pair.finalSent = true ∧ t.pair.lastCopy = some c ∧ c.final = true ∧ c.mode = s.pair.fromMode ∧ t.pair.own = s.pair.own ∧
      emissionOnly s t) ∧
  (∀ s : State, s.pair.unacked = true → s.pair.step ≠ .finalSent → ∃ t, exec (.copyAckReceived s.pair.copyEpoch.toNat) s = .next t ∧
    t.pair.unacked = false ∧ t.pair.copyAge = 0 ∧ t.pair.own = s.pair.own ∧ emissionOnly s t) ∧
  (∀ s : State, s.pair.unacked = true → s.pair.step = .finalSent → ∃ t, exec (.copyAckReceived s.pair.copyEpoch.toNat) s = .next t ∧
    t.pair.step = .released ∧ t.pair.own = false ∧ t.pair.driving = false ∧ emissionOff t ∧
    emissionOnly s t) ∧
  (∀ s : State, s.pair.step = .finalSent → s.pair.own = true → pairEnabled s = true → s.pair.fromMode ∈ [Mode.run, .sentinel] → ∃ t,
    exec .copyAckTimeout s = .next t ∧ t.mode.current = s.pair.fromMode ∧ t.pair.step = .idle ∧ t.pair.own = true ∧
    t.banks = s.banks ∧ t.power = s.power ∧ t.memory = s.memory)

/-- The Segor link and what it carries (R467, R468, R483, R484, R493, R494): the highest common version, frames with a bad CRC counted,
the standby's replicas and HEALTH frames, the pair's query and the relay to the peer.
Rests on choices of the model: log entries 93 and 94. -/
def Obligations.SegorCarries : Prop :=
  (∀ (s : State) (lo hi : Nat), s.mode.current ≠ .reset → s.power.railStatus.getLsbD 10 = true → lo ≤ hi → lo ≤ 2 → 1 ≤ hi → ∃ t,
    exec (.segorLinkUp lo hi) s = .next t ∧ t.pair.linkUp = true ∧ t.pair.linkVersion = min 2 hi ∧
    emissionOnly s t) ∧
  (∀ (s : State) (lo hi : Nat), 2 < lo → exec (.segorLinkUp lo hi) s = .next (pairRefresh s)) ∧
  (∀ s : State, s.pair.linkUp = true → s.pair.step = .idle → ∃ t, exec .segorLinkDown s = .next t ∧ t.pair.linkUp = false ∧
    t.pair.linkVersion = 0 ∧ (transportOf t 3).session = none ∧ emissionOnly s t) ∧
  (∀ (s : State) (kind : Fin 5) (bytes : List Byte), s.pair.linkUp = true → 5 ≤ bytes.length →
    field bytes (bytes.length - 4) 4 ≠ (crc32c (bytes.take (bytes.length - 4))).toNat →
    exec (.segorFrameReceived kind bytes) s = .next (bump Pid.pairFrameErrors 0 s)) ∧
  (∀ (s : State) (body : List Byte), s.pair.linkUp = true → body ≠ [] →
    exec (.segorFrameReceived 3 (body ++ leBytes 4 (crc32c body).toNat)) s =
      .next { s with pair := { s.pair with peerCond := some (field (body.drop 1) 20 1, s.ticks) } }) ∧
  (∀ (s : State) (i : Nat) (g : Program), s.mode.current = .mirror → pairEnabled s = true → s.scribe.restarting = false → ∃ t,
    exec (.bankReplica (.program i (some g))) s = .next t ∧ t.serif.library = Store.put s.serif.library i g ∧
      t.journal.newest = nextJournal s ∧ t.mode = s.mode ∧ t.banks = s.banks ∧ t.memory = s.memory ∧ t.time = s.time) ∧
  (∀ (s : State) (op : Nat) (active : Bank) (previous : Option Bank) (trial : Bool) (tick timeout : Nat), s.mode.current = .mirror →
    pairEnabled s = true → s.scribe.restarting = false → ∃ t, exec (.bankReplica (.banks op active previous trial tick timeout)) s = .next t ∧
      t.banks.active = active ∧ t.banks.previous = previous ∧ t.banks.trial = trial ∧ t.banks.switch = none ∧
      t.banks.highestEpoch = max s.banks.highestEpoch (max active.epoch ((previous.map (·.epoch)).getD 0)) ∧
      t.journal.newest = nextJournal s ∧ t.mode.current = .mirror ∧ t.power = s.power ∧ t.clocks = s.clocks) ∧
  (∀ s : State, s.mode.current = .mirror → pairEnabled s = true → s.scribe.restarting = false → s.pair.linkUp = true → ∃ t b,
    exec .healthFrameSend s = .next t ∧ (3, b) ∈ t.pair.tx ∧ b.length = 29 ∧
      field b 25 4 = (crc32c (b.take 25)).toNat ∧ emissionOnly s t) ∧
  (∀ (s : State) (r : Request), mayExecute s 0x0901 r → ∃ (t : State) (body : List Byte), exec .pairQuery s = .next t ∧
    t = answer r 0 0 body (dequeue r s) ∧ body.length = 52 ∧ field body 0 4 = pairStatus s ∧
    field body 36 1 = readyCondition s ∧ field body 37 1 = s.pair.lastCause % 256 ∧ plantUntouched s t) ∧
  (∀ (s : State) (r : Request), mayExecute s 0x0902 r → s.links.relay = none → s.pair.linkUp = true → ∃ t, exec .peerRelay s = .next t ∧
    t.links.relay = some r ∧ t.pair.tx = s.pair.tx ++ [(2, r.payload)] ∧ plantUntouched s t) ∧
  (∀ (s : State) (r : Request), mayExecute s 0x0902 r → s.links.relay = none → s.pair.linkUp = false →
    exec .peerRelay s = .next (refuse r 0x31 0 (dequeue r s)))


/-- Calibration (R523 to R532): a trim and a delay run that pass wait whole for the round start, one outside its limits keeps what is in
force; CAL_RUN, CAL_POINT and CAL_READ answer and journal; RTD_SYSCAL applies at once.
Rests on choices of the model: log entries 96, 98 and 99. -/
def Obligations.CalibrationRuns : Prop :=
  (∀ (s : State) (p : Fin 4) (fields : List Int), s.mode.current ≠ .boot → s.calib.trimming.getLsbD p = true →
    calFailing s 1 p fields = none → s.calib.returning.getLsbD p = false → (calItem s 1 p).journal = none → ∃ t,
      exec (.analogueTrimDone p fields) s = .next t ∧ (calItem t 1 p).next = some (fields.take 28) ∧
      (calItem t 1 p).inForce = (calItem s 1 p).inForce ∧ t.calib.trimming.getLsbD p = false ∧ plantUntouched { s with calib := t.calib } t) ∧
  (∀ (s : State) (p : Fin 4) (fields : List Int) (k : Nat) (v : Int), s.mode.current ≠ .boot → s.calib.trimming.getLsbD p = true →
    calFailing s 1 p fields = some (k, v) → Store.wf (fun _ => {}) s.calib.items = true → s.calib.returning.getLsbD p = false → (calItem s 1 p).journal = none → ∃ t,
      exec (.analogueTrimDone p fields) s = .next t ∧ (calItem t 1 p).inForce = (calItem s 1 p).inForce ∧
      (calItem t 1 p).next = (calItem s 1 p).next ∧ (calItem t 1 p).rejectedField = k ∧ (calItem t 1 p).rejectedValue = v ∧
      t.calib.rejectSeen = true ∧ plantUntouched { s with calib := t.calib } t) ∧
  (∀ (s : State) (temp : Int), (temp - s.calib.tdcTemp).natAbs < 160 →
    exec (.tdcDelayRun temp) s = .next { s with calib := { s.calib with temp := temp } }) ∧
  (∀ (s : State) (temp : Int), 160 ≤ (temp - s.calib.tdcTemp).natAbs → scribeRuns s = true → tdcHeld s = false →
    (calItem s 5 0).running = false → ∃ t, exec (.tdcDelayRun temp) s = .next t ∧ (calItem t 5 0).running = true ∧
      t.calib.tdcTemp = temp ∧ t.calib.tdcDue = false ∧ t = { s with calib := t.calib }) ∧
  (∀ (s : State) (fields : List Int), s.mode.current ≠ .boot → (calItem s 5 0).running = true → calFailing s 5 0 fields = none →
    (calItem s 5 0).journal = none → ∃ t, exec (.tdcDelayDone fields) s = .next t ∧ (calItem t 5 0).running = false ∧
      (calItem t 5 0).next = some (fields.take 8) ∧ plantUntouched { s with calib := t.calib } t) ∧
  (∀ (s : State) (r : Request), mayExecute s 0x0800 r → field r.payload 0 1 = 1 → field r.payload 1 1 = 0xFF → field r.payload 2 1 = 0 →
    s.mode.current = .config → s.calib.trimming = 0 → ∃ t, exec .calRun s = .next t ∧ t.calib.trimming = 0xF ∧
      t.journal.newest = nextJournal s ∧ journalState t (nextJournal s) = some .running ∧ plantUntouched { s with calib := t.calib } t) ∧
  (∀ (s : State) (r : Request), mayExecute s 0x0800 r → field r.payload 0 1 = 1 → s.mode.current ≠ .config →
    exec .calRun s = .next (refuse r 0x30 0 (dequeue r s))) ∧
  (∀ (s : State) (r : Request) (k : Nat) (zero full : Int × Int × Int), mayExecute s 0x0800 r → field r.payload 0 1 = 3 →
    field r.payload 1 1 = k → k < 8 → field r.payload 2 1 = 0 → s.calib.jobs = [] →
    (calItem s 3 k).points.find? (·.1 == 0) = some (0, zero) → (calItem s 3 k).points.find? (·.1 == 1) = some (1, full) →
    500000 ≤ full.1 - zero.1 → full.2.1 ≠ zero.2.1 →
    calFailing s 3 k [(sysCal zero full s).1.1, (sysCal zero full s).1.2] = none → ∃ t, exec .calRun s = .next t ∧
      (calItem t 3 k).inForce = [(sysCal zero full s).1.1, (sysCal zero full s).1.2] ∧ (calItem t 3 k).previous = (calItem s 3 k).inForce ∧
      t.journal.newest = nextJournal s ∧ plantUntouched { s with calib := t.calib } t) ∧
  (∀ (s : State) (r : Request), mayExecute s 0x0801 r → field r.payload 0 1 = 3 → field r.payload 1 1 < 8 → field r.payload 2 1 < 2 →
    field r.payload 8 4 = 0 → field r.payload 12 4 = 0 → s.calib.jobs = [] → ∃ t, exec .calPoint s = .next t ∧
      t.calib.jobs = [{ item := 3, index := field r.payload 1 1, slot := field r.payload 2 1, given := field r.payload 4 4,
                        journal := nextJournal s }] ∧
      journalState t (nextJournal s) = some .running ∧ plantUntouched { s with calib := t.calib } t) ∧
  (∀ (s : State) (r : Request), mayExecute s 0x0802 r → field r.payload 1 1 < calIndexes (field r.payload 0 1) → ∃ t,
    exec .calRead s = .next t ∧ t = answer r 0 0 (calBody (dequeue r s) (field r.payload 0 1) (field r.payload 1 1)) (dequeue r s) ∧
      plantUntouched s t)

/-- The plausibility watch (R534): OFFSET, REFERENCE and REXT follow their readings, a REXT failure takes VALID from every RTD channel,
and a field outside its limits restores the set before it.
Rests on choices of the model: log entry 100. -/
def Obligations.WatchFollowsReadings : Prop :=
  ∀ (s : State) (offset reference rext : Int), scribeRuns s = true → s.scribe.restarting = false → ∃ t,
    exec (.plausibilityWatch offset reference rext) s = .next t ∧
    t.calib.watch.getLsbD 0 = decide (16 < offset.natAbs) ∧
    t.calib.watch.getLsbD 1 = decide (Config.referenceFactory < (reference - Config.referenceFactory).natAbs * 500) ∧
    t.calib.watch.getLsbD 2 = decide (3 * (s.calib.rextBoot.getD rext).natAbs < (rext - s.calib.rextBoot.getD rext).natAbs * 100) ∧
    t.calib.watch.getLsbD 3 = (inForceFailing s).isSome ∧
    (t.calib.watch.getLsbD 2 = true → ∀ k : Fin 8, (t.rtd.get k).valid = false) ∧
    (t.calib.watch.getLsbD 2 = false → t.rtd = s.rtd) ∧
    (inForceFailing s = none → t.banks = s.banks ∧ t.calib.items = s.calib.items) ∧
    plantUntouched { s with calib := t.calib, rtd := t.rtd, banks := t.banks } t

/-- Integrity (R109, R269, R536, R539, R540, R543, R544): crossings that overflow are marked and counted, the self-test sets
`serif.selftest_failed`, the heartbeat toggles, waiting log entries are programmed, severity 3 always, counters are extended when they
wrap, and each telemetry record takes the next sequence.
Rests on choices of the model: log entries 102, 103 and 104. -/
def Obligations.IntegrityKept : Prop :=
  (∀ (s : State) (x : Fin 10), x ≠ 0 → ∃ t, exec (.xovf x) s = .next t ∧
    t.calib = { s.calib with xovf := true, lastXidHi := BitVec.ofNat 4 x } ∧ 
    paramNat t Pid.integXovfCount 0 = paramNat (bump Pid.integXovfCount 0 s) Pid.integXovfCount 0 ∧
    plantUntouched { s with calib := t.calib } t) ∧
  (∀ (s : State) (failed : BitVec 128), (s.mode.current = .mirror ∨ s.mode.current = .test) → ∃ t, exec (.serifSelftest failed) s = .next t ∧
    t.serif = { s.serif with failed := failed, status := t.serif.status } ∧ t.serif.status.getLsbD 5 = decide (failed ≠ 0) ∧
    (failed = 0 → t = { s with serif := t.serif }) ∧ (failed ≠ 0 → t.evq.seq = s.evq.seq + 1) ∧ plantUntouched { s with serif := t.serif } t) ∧
  (∀ s : State, s.scribe.ready = true → s.scribe.restarting = false →
    exec .heartbeatToggle s = .next { s with scribe := { s.scribe with heartbeat := !s.scribe.heartbeat } }) ∧
  (∀ (s : State) (e : LogEntry), s.scribe.restarting = false → s.log.waiting = [e] → e.entry.severity = 3 → ∃ t,
    exec .logProgram s = .next t ∧ t.log.waiting = [] ∧ t.log.newest = (s.log.newest + 1) % 2 ^ 32 ∧
    t.log.entries = ({ e with number := t.log.newest } :: s.log.entries).take (logHeld t.log.newest) ∧
    t = { s with log := t.log, links := { s.links with console := t.links.console } }) ∧
  (∀ s : State, s.scribe.restarting = true → exec .logProgram s = .next s) ∧
  (∀ s : State, s.scribe.restarting = false → ∃ t, exec .logProgram s = .next t ∧ t.log.waiting = [] ∧ plantUntouched s t ∧ t.evq = s.evq ∧ t.scribe = s.scribe ∧
    t.journal = s.journal ∧ t.pair = s.pair) ∧
  (∀ (s : State) (v : Int), scribeRuns s = true → s.scribe.restarting = false → s.paramsWf = true →
    Store.wf (fun _ => 0) s.calib.extHi = true → Store.wf (fun _ => 0) s.calib.extLast = true →
    (paramKey Pid.inkBlocksCoded 0, v) ∈ s.params → 0 ≤ v → ∃ t, exec .counterExtend s = .next t ∧ t = { s with calib := t.calib } ∧
      Store.read (fun _ => 0) t.calib.extLast (paramKey Pid.inkBlocksCoded 0) = v.toNat ∧
      Store.read (fun _ => 0) t.calib.extHi (paramKey Pid.inkBlocksCoded 0) =
        Store.read (fun _ => 0) s.calib.extHi (paramKey Pid.inkBlocksCoded 0) +
          (if v.toNat < Store.read (fun _ => 0) s.calib.extLast (paramKey Pid.inkBlocksCoded 0) then 1 else 0)) ∧
  (∀ s : State, s.scribe.ready = true → s.scribe.restarting = false → paramNat s Pid.teleQueue 0 < 8 → ∃ t, exec .telemetryRecord s = .next t ∧
    t.calib.teleSeq = s.calib.teleSeq + 1 ∧ t.calib.teleRestarted = false ∧ plantUntouched { s with calib := t.calib } t)


/-- The emission chain's device-wide terms (R498, R501, R503, R504): a fall of LKEY or LOOP_OK and an emergency stop end all emission at
once and take a firing mode to INHIBIT; they return by their own inputs, an emergency stop by its release or a key cycle of 1 s.
Rests on choices of the model: log entry 110. -/
def Obligations.DeviceTermsFall : Prop :=
  (∀ s : State, s.safety.key = true → ∃ t, exec .lkeyOff s = .next t ∧ t.safety.key = false ∧ t.safety.keyOffTick = some s.ticks ∧
    emissionOff t ∧ (s.mode.current ∈ [Mode.run, .sentinel, .survey] → t.mode.current = .inhibit) ∧
    (s.mode.current ∉ [Mode.run, .sentinel, .survey] → t.mode.current = s.mode.current) ∧ t.safety.sticky.getLsbD 1 = true ∧
    t.power = s.power ∧ t.clocks = s.clocks ∧ t.memory = s.memory ∧ t.time = s.time) ∧
  (∀ s : State, s.safety.loop = true → ∃ t, exec .loopOkLow s = .next t ∧ t.safety.loop = false ∧ emissionOff t ∧
    (s.mode.current ∈ [Mode.run, .sentinel, .survey] → t.mode.current = .inhibit) ∧ t.safety.sticky.getLsbD 2 = true ∧
    (s.mode.current ∉ [Mode.run, .sentinel, .survey] → t.mode.current = s.mode.current) ∧
    t.power = s.power ∧ t.clocks = s.clocks ∧ t.memory = s.memory ∧ t.time = s.time) ∧
  (∀ (s : State) (x : Fin 2), s.safety.estop = false → ∃ t, exec (.estopStop x) s = .next t ∧ t.safety.estop = true ∧ emissionOff t ∧
    t.safety.estopCount = (if s.safety.estopCount = 0xFF then 0xFF else s.safety.estopCount + 1) ∧
    t.safety.sticky.getLsbD (6 + x.val) = true ∧ (s.mode.current ∈ [Mode.run, .sentinel, .survey] → t.mode.current = .inhibit) ∧
    (s.mode.current ∉ [Mode.run, .sentinel, .survey] → t.mode.current = s.mode.current) ∧
    t.power = s.power ∧ t.clocks = s.clocks ∧ t.memory = s.memory ∧ t.time = s.time) ∧
  (∀ s : State, s.safety.key = false → (s.safety.keyOffTick.map fun k => decide (k + secTicks 1 ≤ s.ticks)) = some true → ∃ t,
    exec .lkeyOn s = .next t ∧ t.safety.key = true ∧ t.safety.keyOffTick = none ∧ t.safety.estop = false ∧ emissionOnly s t) ∧
  (∀ s : State, s.safety.key = false → (s.safety.keyOffTick.map fun k => decide (k + secTicks 1 ≤ s.ticks)) ≠ some true → ∃ t,
    exec .lkeyOn s = .next t ∧ t.safety.key = true ∧ t.safety.keyOffTick = none ∧ t.safety.estop = s.safety.estop ∧ emissionOnly s t) ∧
  (∀ s : State, ∃ t, exec .loopOkHigh s = .next t ∧ t.safety.loop = true ∧ t.safety.key = s.safety.key ∧
    t.safety.estop = s.safety.estop ∧ emissionOnly s t) ∧
  (∀ s : State, ∃ t, exec (.estopReleaseWrite true) s = .next t ∧ t.safety.estop = false ∧ t.safety.estopCount = s.safety.estopCount ∧
    t.safety.key = s.safety.key ∧ emissionOnly s t) ∧
  (∀ s : State, exec (.estopReleaseWrite false) s = .next s)

/-- The emission chain's terms of one port (R160, R498, R501, R505): an open plug, light without a gate and a cleared HOST bit end that
port's emission and change no mode; the plug's latch clears at the end of its restart time or by `safety.port_restart`, and not while
the plug is open.
Rests on choices of the model: log entries 49 and 110. -/
def Obligations.PortTermsFall : Prop :=
  (∀ (s : State) (p : Fin 4), ∃ t, exec (.plugOpenLatch p) s = .next t ∧ t.safety.apr = s.safety.apr ||| (1#4 <<< p.val) ∧
    emitEn t p = false ∧ swsel t p = false ∧ emissionOnly s t ∧ t.evq = s.evq ∧ t.scribe = s.scribe) ∧
  (∀ (s : State) (p : Fin 4), gateOpen s p = false → ∃ t, exec (.lightWithoutGate p) s = .next t ∧ t.safety.lwg = s.safety.lwg ||| (1#4 <<< p.val) ∧
    emitEn t p = false ∧ (portOf t p).riseTick = some s.ticks ∧ (portOf t p).lightSeen = true ∧ emissionOnly s t) ∧
  (∀ (s : State) (p : Fin 4), gateOpen s p = true → exec (.lightWithoutGate p) s = .next s) ∧
  (∀ (s : State) (p : Fin 4), ∃ t, exec (.plugDebouncedOpen p) s = .next t ∧ t.safety.plugClosed = s.safety.plugClosed &&& ~~~(1#4 <<< p.val) ∧
    t.safety.apr = s.safety.apr ∧ t.safety.aprUntold = s.safety.aprUntold &&& ~~~(1#4 <<< p.val) ∧ plantUntouched { s with safety := t.safety } t) ∧
  (∀ (s : State) (p : Fin 4), ∃ t, exec (.plugDebouncedClose p) s = .next t ∧ t.safety.plugClosed = s.safety.plugClosed ||| (1#4 <<< p.val) ∧
    t.safety.apr = s.safety.apr ∧ t.safety.aprRestart = (if paramBool s Pid.safetyAprAutoRestart 0 = true ∧ s.safety.apr.getLsbD p = true
      then s.safety.aprRestart ||| (1#4 <<< p.val) else s.safety.aprRestart) ∧ plantUntouched { s with safety := t.safety } t) ∧
  (∀ (s : State) (p : Fin 4), s.safety.aprRestart.getLsbD p = true → ∃ t, exec (.aprRestartExpiry p) s = .next t ∧
    t.safety.apr = (if s.safety.plugClosed.getLsbD p then s.safety.apr &&& ~~~(1#4 <<< p.val) else s.safety.apr) ∧ emissionOnly s t) ∧
  (∀ (s : State) (mask : Nat), mask ≤ 15 → ∃ t, exec (.portRestartWrite mask) s = .next t ∧ emissionOnly s t ∧
    ∀ p : Fin 4, t.safety.apr.getLsbD p = (s.safety.apr.getLsbD p && !(hasBit mask p && s.safety.plugClosed.getLsbD p))) ∧
  (∀ (s : State) (mask : Nat), mask ≤ 15 → s.paramsWf = true → ∃ t, exec (.hostEnableWrite mask) s = .next t ∧ paramNat t Pid.safetyHostEnable 0 = mask ∧
    (∀ p : Fin 4, hasBit mask p = false → emitEn t p = false ∧ swsel t p = false) ∧ emissionOnly s t) ∧
  (∀ (s : State) (mask : Nat), 15 < mask → exec (.portRestartWrite mask) s = .next s ∧ exec (.hostEnableWrite mask) s = .next s)

/-- Lamps (R499, R508, R511, R512): three good diagnoses prove a channel, the third bad one in a row of a proven channel declares its
fault, sixteen good ones clear it; colour feedback keeps every trim between 0.75 and 1.25, and does nothing while it is disabled.
Rests on choices of the model: log entry 51. -/
def Obligations.LampsDiagnosed : Prop :=
  (∀ (s : State) (j : Fin 16), (ledOf s j).lit = true → ledPhase s j = true → (ledOf s j).fault = 0 → ∃ t, exec (.ledDiagnosis j 0) s = .next t ∧
    (ledOf t j).passed = min 3 ((ledOf s j).passed + 1) ∧ (ledOf t j).proven = decide (3 ≤ (ledOf s j).passed + 1) ∧
    (ledOf t j).run = (if (ledOf s j).kind = 0 then (ledOf s j).run + 1 else 1) ∧ (ledOf t j).kind = 0 ∧ (ledOf t j).fault = 0 ∧
    (ledOf t j).litGood = (ledOf t j).lit ∧ emissionOnly s t) ∧
  (∀ (s : State) (j : Fin 16), (ledOf s j).lit = true → ledPhase s j = true → (ledOf s j).fault ≠ 0 → (ledOf s j).kind = 0 → 15 ≤ (ledOf s j).run → ∃ t,
    exec (.ledDiagnosis j 0) s = .next t ∧ (ledOf t j).fault = 0 ∧ emissionOnly s t) ∧
  (∀ (s : State) (j : Fin 16), (ledOf s j).lit = true → ledPhase s j = true → (ledOf s j).fault = 0 → (ledOf s j).proven = true → (ledOf s j).kind = 1 →
    2 ≤ (ledOf s j).run → ∃ t, exec (.ledDiagnosis j 1) s = .next t ∧ (ledOf t j).fault = 1 ∧ (ledOf t j).faultSeen = true ∧
      t.safety.sticky.getLsbD 5 = true ∧ t.power = s.power ∧ t.clocks = s.clocks ∧ t.memory = s.memory ∧ t.time = s.time) ∧
  (∀ (s : State) (j : Fin 16) (kind : Fin 3), ((ledOf s j).lit = false ∨ ledPhase s j = false) → (ledOf s j).stretch = false →
    exec (.ledDiagnosis j kind) s = .next s) ∧
  (∀ (s : State) (dark lit : Vector Int 3), paramBool s Pid.ledCfbEnable 0 = false → exec (.colourFeedback dark lit) s = .next s) ∧
  (∀ (s : State) (dark lit : Vector Int 3), paramBool s Pid.ledCfbEnable 0 = true →
    ([0, 1, 2].any fun c => (ledOf s (statusLed s c)).lit) = true → ([0, 1, 2].any fun c => (ledOf s (statusLed s c)).cfbLimit) = false →
    ∃ t, exec (.colourFeedback dark lit) s = .next t ∧
      (∀ c : Fin 3, 0x6000 ≤ t.safety.cfbTrim.get c ∧ t.safety.cfbTrim.get c ≤ 0xA000) ∧
      plantUntouched { s with safety := t.safety, calib := t.calib } t)

/-- The panel (R514, R515): chatter is counted, a button held more than 10 s is STUCK until its stable release, and LOCATE sets bit 4 of the
locate mask, whose bits end by time or by a write.
Rests on choices of the model: log entry 50. -/
def Obligations.PanelAnswers : Prop :=
  (∀ (s : State) (i : Fin 8), paramNat s Pid.panelChatter i < 0xFFFFFFFF → ∃ t, exec (.panelInputChatter i) s = .next t ∧
    paramNat t Pid.panelChatter i = paramNat s Pid.panelChatter i + 1 ∧ plantUntouched { s with safety := t.safety } t) ∧
  (∀ s : State, s.safety.service = true → s.safety.serviceStuck = false → ∃ t, exec (.inputStuck 0) s = .next t ∧
    t.safety = { s.safety with serviceStuck := true } ∧ plantUntouched { s with safety := t.safety } t) ∧
  (∀ s : State, s.safety.locate = true → s.safety.locateStuck = false → ∃ t, exec (.inputStuck 1) s = .next t ∧
    t.safety = { s.safety with locateStuck := true } ∧ plantUntouched { s with safety := t.safety } t) ∧
  (∀ s : State, exec (.buttonStableRelease 0) s = .next { s with safety := { s.safety with service := false, serviceStuck := false } } ∧
    exec (.buttonStableRelease 1) s = .next { s with safety := { s.safety with locate := false, locateStuck := false } }) ∧
  (∀ s : State, s.safety.locate = false → ∃ t, exec .locatePress s = .next t ∧ t.safety.locate = true ∧
    t.safety.locateMask = s.safety.locateMask ||| 0x10 ∧ emissionOnly s t) ∧
  (∀ s : State, ∃ t, exec .locateEnd s = .next t ∧ emissionOnly s t ∧ t.evq = s.evq ∧ ∀ i : Fin 5, t.safety.locateMask.getLsbD i =
    (s.safety.locateMask.getLsbD i && decide (s.ticks < vecRead s.safety.locateFrom i 0 + secTicks (paramNat s Pid.panelLocateS 0)))) ∧
  (∀ (s : State) (mask : Nat), mask ≤ 31 → ∃ t, exec (.locateMaskWrite mask) s = .next t ∧ t.safety.locateMask.toNat = mask ∧
    emissionOnly s t ∧ t.evq = s.evq)

/-- No port emits unless every term of the emission chain holds and its lamp is lit and good (R498, R499). -/
def Obligations.EmissionNeedsTheChain : Prop :=
  ∀ (s : State) (p : Nat), emitEn s p = true → emissionAllowed s p ∧ heldLow s = false ∧ s.safety.apr.getLsbD p = false ∧
    s.safety.lwg.getLsbD p = false ∧ vecRead s.power.portOos p true = false


/-- Shots and their launches (R152, R158, R159, R182): at a slot fire time the 48-bit shot sequence rises by one and the shot's record is
the newest; a rise inside the launch window is a launch seen, a window without one a missed launch and a lost shot.
Rests on choices of the model: log entry 74. -/
def Obligations.ShotsFire : Prop :=
  (∀ (s : State) (p : Fin 4) (peak : Nat) (codes : RamanCodes), (s.mode.current = .run ∨ s.mode.current = .sentinel) → s.banks.switch = none →
    portEnabled s p = true → (portOf s p).gridRunning = true → (portOf s p).nextSlot ≠ 0 → (portOf s p).nextRound = [] → ∃ t u,
      exec (.slotFireTime p peak codes) s = .next t ∧ (portOf t p).shotSeq = (portOf s p).shotSeq + 1 ∧
      (portOf t p).shots.head? = some u ∧ u.seq = ((portOf s p).shotSeq + 1).toNat ∧ u.round = u.seq % 2 ^ 32 ∧
      u.slot = (portOf s p).nextSlot ∧ u.fireTick = s.ticks ∧
      ((portOf s p).riseTick = none → u.window = (u.fired && !u.lost)) ∧
      ((portOf s p).leadCut = true → u.fired = true ∧ u.lost = true) ∧ ((portOf s p).leadCut = false → u.lost = false ∧
        ((portOf s p).awaitSlot0 = true → u.fired = false) ∧ (s.clocks.corePllLost = true → u.fired = false)) ∧
      (portOf t p).gridRunning = true ∧ t.mode = s.mode ∧ t.banks = s.banks ∧ t.safety = s.safety ∧ t.power = s.power ∧
      t.clocks = s.clocks ∧ t.rtd = s.rtd ∧ t.hk = s.hk ∧ t.firmware = s.firmware) ∧
  (∀ (s : State) (p : Fin 4) (peak : Nat) (codes : RamanCodes), s.mode.current = .run → s.banks.switch = none → portEnabled s p = true →
    (portOf s p).gridRunning = true → (portOf s p).leadCut = false → (portOf s p).nextSlot ≠ 0 → (portOf s p).nextRound = [] → (portOf s p).awaitSlot0 = false →
    (portOf s p).gainWrite = none → portBool s p Pid.portDasAutorange 0 = false → mayFire s p = true → (portOf s p).dark = false →
    (portOf s p).rebaseNext = none → ∃ t u, exec (.slotFireTime p peak codes) s = .next t ∧ (portOf t p).shots.head? = some u ∧
      u.fired = true ∧ u.gap = false ∧ (portOf t p).dark = false ∧ (portOf t p).lastFired = some s.ticks ∧
      (portOf t p).nextSlot = (if (portOf s p).nextSlot + 1 < portSlots s p then (portOf s p).nextSlot + 1 else 0)) ∧
  (∀ (s : State) (p : Fin 4), ((portOf s p).shots.any fun u => u.window && decide (s.ticks ≤ u.windowEnd)) = true → ∃ t, exec (.launchSeen p) s = .next t ∧
    (portOf t p).launchOk = true ∧ (portOf t p).misses = 0 ∧ (portOf t p).launchMissing = false ∧ (portOf t p).riseTick = some s.ticks ∧
    (portOf t p).shots.any (·.window) = false ∧ (∀ q : Fin 4, q ≠ p → portOf t q = portOf s q) ∧ t = { s with ports := t.ports }) ∧
  (∀ (s : State) (p : Fin 4), ((portOf s p).shots.any fun u => u.window && decide (s.ticks ≤ u.windowEnd)) = false →
    exec (.launchSeen p) s = .next (onPort p (fun x => { x with riseTick := some s.ticks }) s)) ∧
  (∀ (s : State) (p : Fin 4) (u : Shot), ((portOf s p).shots.find? fun u => u.window && decide (u.windowEnd ≤ s.ticks)) = some u → ∃ t, exec (.launchWindowEnd p) s = .next t ∧
    (portOf t p).launchOk = false ∧ (portOf t p).missSeen = true ∧ (portOf t p).misses = (portOf s p).misses + 1 ∧
    (portOf t p).lostSeen = true ∧
    (portOf t p).shots = ((portOf s p).shots.map fun v => if v.round = u.round then { v with lost := true, window := false } else v) ∧
    (∀ q : Fin 4, q ≠ p → portOf t q = portOf s q) ∧ plantUntouched { s with ports := t.ports } t) ∧
  (∀ (s : State) (p : Fin 4), ((portOf s p).shots.any fun u => u.window && decide (u.windowEnd ≤ s.ticks)) = false →
    exec (.launchWindowEnd p) s = .next s) ∧
  (∀ (s : State) (p : Fin 4), ((portOf s p).shots.any fun u => u.window && decide (u.windowEnd ≤ s.ticks)) = true → (portOf s p).launchMissing = false →
    (portOf s p).misses + 1 < portNat s p Pid.portLmonMissLimit 0 → ∃ t, exec (.launchWindowEnd p) s = .next t ∧
      (portOf t p).launchMissing = false ∧ t.evq = s.evq)

/-- The receive front end's guards, gain and correction (R166, R169, R170, R172): an over-range opens its group's guard, a valid gain
waits for the next round start, and an estimate inside its limits waits there too while another is rejected.
Rests on choices of the model: log entry 107. -/
def Obligations.ReceiveGuards : Prop :=
  (∀ (s : State) (p : Fin 4) (g : Fin 2), ∃ t, exec (.inputOverRange p g) s = .next t ∧ vecRead (portOf t p).guard g false = true ∧
    (g.val = 0 → (portOf t p).overSeen = true) ∧ (portOf t p).dasGain = (portOf s p).dasGain ∧
    (vecRead (portOf s p).guard g false = true → s.ticks ≤ vecRead (portOf s p).guardLast g 0 + guardTicks s p g →
      vecRead (portOf t p).guardTick g 0 = vecRead (portOf s p).guardTick g 0) ∧ vecRead (portOf t p).guardLast g 0 = s.ticks ∧
    (∀ q : Fin 4, q ≠ p → portOf t q = portOf s q) ∧ plantUntouched { s with ports := t.ports } t) ∧
  (∀ (s : State) (p : Fin 4) (g : Fin 2), vecRead (portOf s p).guard g false = true → vecRead (portOf s p).guardLast g 0 + guardTicks s p g ≤ s.ticks →
    ∃ t, exec (.ovrGuardEnd p g) s = .next t ∧ vecRead (portOf t p).guard g false = false ∧
    vecRead (portOf t p).guard (1 - g.val) false = vecRead (portOf s p).guard (1 - g.val) false ∧
    (∀ q : Fin 4, q ≠ p → portOf t q = portOf s q) ∧ t = { s with ports := t.ports }) ∧
  (∀ (s : State) (p : Fin 4) (g : Fin 2), vecRead (portOf s p).guard g false = false ∨ s.ticks < vecRead (portOf s p).guardLast g 0 + guardTicks s p g →
    exec (.ovrGuardEnd p g) s = .next s) ∧
  (∀ (s : State) (p : Fin 4) (g : Nat), g ∈ [0, 6, 12, 18] → ∃ t, exec (.dasGainWrite p g) s = .next t ∧
    (portOf t p).gainWrite = some g ∧ (portOf t p).dasGain = (portOf s p).dasGain ∧
    (∀ q : Fin 4, q ≠ p → portOf t q = portOf s q) ∧ t = { s with ports := t.ports }) ∧
  (∀ (s : State) (p : Fin 4) (g : Nat), g ∉ [0, 6, 12, 18] → exec (.dasGainWrite p g) s = .next s) ∧
  (∀ (s : State) (p : Fin 4) (level : Bool), (portOf s p).blankLevel ≠ level → ∃ t, exec (.blankInputChange p level) s = .next t ∧
    (portOf t p).blankLevel = level ∧ (portOf t p).blankTick = s.ticks ∧ (∀ q : Fin 4, q ≠ p → portOf t q = portOf s q) ∧
    t = { s with ports := t.ports }) ∧
  (∀ (s : State) (p : Fin 4), exec (.blankInputChange p (portOf s p).blankLevel) s = .next s) ∧
  (∀ (s : State) (p : Fin 4) (i : Fin 6) (c : Correction), (∀ f ∈ corrFields i c, f.2.1.natAbs ≤ f.2.2) → ∃ t,
    exec (.adcCorrEstimate p i c) s = .next t ∧ vecRead (portOf t p).corrNext i none = some c ∧ (portOf t p).corr = (portOf s p).corr ∧
    (∀ q : Fin 4, q ≠ p → portOf t q = portOf s q) ∧ t = { s with ports := t.ports }) ∧
  (∀ (s : State) (p : Fin 4) (i : Fin 6) (c : Correction), (∃ f ∈ corrFields i c, f.2.2 < f.2.1.natAbs) → ∃ t,
    exec (.adcCorrEstimate p i c) s = .next t ∧ t.calib.rejectSeen = true ∧ plantUntouched { s with calib := t.calib } t)

/-- POINT_UNWRAP of a fired shot (R195, R198, R201): the point word and the trace store entry of the unwrap stage are stored, the
entry with the generations that the shot's round runs with; a lost shot's point is HELD with amplitude 0.
Rests on choices of the model: log entry 31. -/
def Obligations.PointsAreUnwrapped : Prop :=
  (∀ (s : State) (pt : RawPoint) (u : Shot), shotOf (portOf s pt.port) pt.round = some u → u.fired = true →
    pt.index * u.run.slots < bankPort (shotBank s pt.port u) pt.port Pid.portTraceCells 0 → ∃ t, exec (.pointUnwrap pt) s = .next t ∧
      Store.read (fun _ => 0) (portOf t pt.port).words (wordKey pt.round (pt.index * u.run.slots)) = (strokePoint s pt u).1.word ∧
      (Store.wf (fun _ => {}) (portOf s pt.port).trace = true →
        traceRead (portOf t pt.port) u.run.slots u.slot pt.index =
          { (strokePoint s pt u).1.entry with gen := u.run.gen, rgen := u.run.rgen }) ∧
      (portOf t pt.port).shots = (portOf s pt.port).shots ∧ (portOf t pt.port).secPoints ≤ (portOf s pt.port).secPoints + 1 ∧
      (∀ q : Fin 4, q ≠ pt.port → portOf t q = portOf s q) ∧ plantUntouched { s with ports := t.ports } t) ∧
  (∀ (s : State) (pt : RawPoint) (u : Shot), u.lost = true → ((strokePoint s pt u).1.word.setWidth 8).getLsbD 5 = true ∧
    ((strokePoint s pt u).1.word.setWidth 8).getLsbD 6 = true ∧ ((strokePoint s pt u).1.word >>> 8).setWidth 16 = 0#16) ∧
  (∀ (s : State) (pt : RawPoint), shotOf (portOf s pt.port) pt.round = none → exec (.pointUnwrap pt) s = .next s)

/-- The unwrap stage (R195): an update that is not held makes the low 16 bits of the position phase equal to the point's phase less
the slot's reference, moves it by at most half a turn, and emits it with HELD clear and DISCONT as it was pending; a held point
keeps the previous round's phase, and a first point takes its reference from the held phase. -/
def Obligations.UnwrapTracksPhase : Prop :=
  (∀ (u : UnwrapIn) (pr e : TraceEntry), u.hold = false → e.refValid = true → ∃ d : Int, -32768 ≤ d ∧ d < 32768 ∧
    (unwrapPoint u pr e).entry.unw = pr.unw + BitVec.ofInt 32 d ∧
    (unwrapPoint u pr e).entry.unw.setWidth 16 = u.phase - (e.ref >>> 16).setWidth 16 ∧
    ((unwrapPoint u pr e).word >>> 24).setWidth 24 = (unwrapPoint u pr e).entry.unw.setWidth 24 ∧
    ((unwrapPoint u pr e).word >>> 8).setWidth 16 = u.amp ∧
    (unwrapPoint u pr e).word.getLsbD 6 = false ∧ (unwrapPoint u pr e).word.getLsbD 7 = (pr.pend || u.gap) ∧
    (unwrapPoint u pr e).entry.pend = false ∧ (unwrapPoint u pr e).entry.holdRun = 0 ∧
    (u.slots ≤ 1 → (unwrapPoint u pr e).entry.ref = e.ref)) ∧
  (∀ (u : UnwrapIn) (pr e : TraceEntry), u.hold = true → (unwrapPoint u pr e).entry = { e with
    unw := pr.unw, pend := true, holdRun := if pr.holdRun = 0xFFFF#16 then 0xFFFF#16 else pr.holdRun + 1 } ∧
    ((unwrapPoint u pr e).word >>> 24).setWidth 24 = pr.unw.setWidth 24 ∧ (unwrapPoint u pr e).word.getLsbD 6 = true ∧
    (unwrapPoint u pr e).word.getLsbD 0 = false) ∧
  (∀ (u : UnwrapIn) (pr e : TraceEntry), u.hold = false → e.refValid = false →
    ((unwrapPoint u pr e).entry.ref >>> 16).setWidth 16 = u.phase - pr.unw.setWidth 16 ∧ (unwrapPoint u pr e).entry.refValid = true ∧
    (unwrapPoint u pr e).entry.ampAvg = u.amp ∧ (unwrapPoint u pr e).entry.unw = pr.unw ∧ (unwrapPoint u pr e).entry.pend = true ∧
    (unwrapPoint u pr e).word.getLsbD 6 = true ∧ (unwrapPoint u pr e).word.getLsbD 0 = true)

/-- The Herder's slices (R220, R221, R268): the completing slice leaves the work list, with the last due slice the zone's output
goes out; a slice that misses its deadline drops the round, in Class A with FAULT; a lane that overruns its budget drops the round of its
slice.
Rests on choices of the model: log entries 28 and 71. -/
def Obligations.SlicesWork : Prop :=
  (∀ (s : State) (r : SliceResult) (w : WorkItem),
    (s.herder.work.find? fun w => w.zone == r.zone.val && w.round == r.round && w.slice == r.slice) = some w → ∃ t,
      exec (.sliceComplete r) s = .next t ∧ t.herder.work = s.herder.work.erase w ∧ t.herder.run = s.herder.run ∧
      t.herder.sentinel = s.herder.sentinel ∧ t.herder.dispatched = s.herder.dispatched ∧
      plantUntouched { s with herder := t.herder, serif := t.serif, pointer := t.pointer, inkstone := t.inkstone, free := t.free } t) ∧
  (∀ (s : State) (r : SliceResult) (w : WorkItem),
    (s.herder.work.find? fun w => w.zone == r.zone.val && w.round == r.round && w.slice == r.slice) = some w →
    Store.get? s.herder.leaving r.zone = none → (zoneOf s r.zone).missed = some w.round → ∃ t, exec (.sliceComplete r) s = .next t ∧ (zoneOf t r.zone).out = [] ∧
      (zoneOf t r.zone).feats = [] ∧ (zoneOf t r.zone).frameSeq = (zoneOf s r.zone).frameSeq ∧
      plantUntouched { s with herder := t.herder, serif := t.serif } t) ∧
  (∀ (s : State) (r : SliceResult) (w : WorkItem) (u : Shot),
    (s.herder.work.find? fun w => w.zone == r.zone.val && w.round == r.round && w.slice == r.slice) = some w →
    Store.get? s.herder.leaving r.zone = none → (zoneOf s r.zone).missed ≠ some w.round → Store.wf (fun _ => {}) s.herder.zones = true →
    workShot s r.zone w.round w.epoch = some u → w.slices ≤ w.slice + 1 →
    outputDue (bankOfEpoch s (zonePort r.zone) w.epoch) s.serif.library r.zone w.div w.round = true → ∃ t,
      exec (.sliceComplete r) s = .next t ∧ (zoneOf t r.zone).out = [] ∧ (zoneOf t r.zone).gathered = 0 ∧
      (zoneOf t r.zone).lastOut = some u.round ∧ (zoneOf t r.zone).edge = false ∧ (zoneOf t r.zone).gap = none) ∧
  (∀ (s : State) (z : Fin 1024), (s.herder.work.find? fun w => w.zone == z.val) = none → exec (.sliceDeadline z) s = .next s) ∧
  (∀ (s : State) (z : Fin 1024) (w : WorkItem), (s.herder.work.find? fun w => w.zone == z.val) = some w →
    Store.get? s.herder.leaving z = none → (zoneOf s z).missed = some w.round →
    exec (.sliceDeadline z) s = .next { s with herder := { s.herder with work := s.herder.work.erase w } }) ∧
  (∀ (s : State) (z : Fin 1024) (w : WorkItem), (s.herder.work.find? fun w => w.zone == z.val) = some w →
    Store.get? s.herder.leaving z = none → (zoneOf s z).missed ≠ some w.round →
    zoneNat (bankOfEpoch s (zonePort z) w.epoch) Pid.zoneClass z ≠ 0 → ∃ t, exec (.sliceDeadline z) s = .next t ∧
      t.herder.work = s.herder.work.erase w ∧ (zoneOf t z).missed = some w.round ∧ (zoneOf t z).missSeen = true ∧
      (zoneOf t z).out = [] ∧ (zoneOf t z).gap.isSome = true ∧ plantUntouched { s with herder := t.herder } t) ∧
  (∀ (s : State) (z : Fin 1024) (w : WorkItem), (s.herder.work.find? fun w => w.zone == z.val) = some w →
    Store.get? s.herder.leaving z = none → (zoneOf s z).missed ≠ some w.round → zoneNat (bankOfEpoch s (zonePort z) w.epoch) Pid.zoneClass z = 0 →
    s.mode.current = .run → s.mode.inProgress = none → s.banks.switch = none →
    ∃ t, exec (.sliceDeadline z) s = .next t ∧ t.mode.current = .fault ∧ t.mode.previous = .run ∧ t.mode.faultCode = 4 ∧
      emissionOff t ∧ t.power = s.power ∧ t.memory = s.memory ∧ t.time = s.time) ∧
  (∀ (s : State) (l : Fin 128) (d : Piece) (w : WorkItem), (laneOf s l).piece = some d →
    (s.herder.work.find? fun w => w.zone == d.zone && w.round == d.round && w.slice == d.slice) = some w →
    Store.get? s.herder.leaving d.zone = none → (zoneOf s d.zone).missed ≠ some w.round →
    zoneNat (bankOfEpoch s (zonePort d.zone) w.epoch) Pid.zoneClass d.zone ≠ 0 → ∃ t, exec (.laneBudgetEnd l) s = .next t ∧
      t.serif.status = s.serif.status ||| 0x08#6 ∧ (zoneOf t d.zone).missed = some d.round ∧ (zoneOf t d.zone).gap.isSome = true ∧
      t.herder.work = s.herder.work.erase w ∧
      plantUntouched { s with herder := t.herder, serif := t.serif } t)

/-- Zone records and USER programs as commands (R133, R237 to R239, R263 to R265): records that pass stage their fields into PENDING
and nothing else, ZONE_QUERY gives the records of a bank, and a program is installed once its image passes every check.
Rests on choices of the model: log entries 65 and 66. -/
def Obligations.ZonesAndPrograms : Prop :=
  (∀ (s : State) (r : Request), mayExecute s 0x0400 r →
    (∀ i < field r.payload 0 2, recordStatus (session2 (dequeue r s) r) (slice r.payload (4 + 64 * i) 64) = 0) → ∃ t,
      exec .zoneDefine s = .next t ∧ t.banks = { s.banks with pending := t.banks.pending } ∧ t.journal.newest = nextJournal s ∧
      (1 ≤ field r.payload 0 2 → t.banks.pending.isSome = true) ∧ plantUntouched { s with banks := t.banks } t) ∧
  (∀ (s : State) (r : Request) (z : Nat), mayExecute s 0x0400 r → field r.payload 0 2 = 1 → z < 1024 → field r.payload 4 2 = z →
    recordStatus (session2 (dequeue r s) r) (slice r.payload 4 64) = 0 →
    Store.wf paramDefault (s.banks.pending.getD s.banks.active).params = true → ∃ t b, exec .zoneDefine s = .next t ∧ t.banks.pending = some b ∧
      bankRead b Pid.zoneProgram z = field r.payload 31 1 ∧ b.epoch = (s.banks.pending.getD s.banks.active).epoch) ∧
  (∀ (s : State) (r : Request), mayExecute s 0x0401 r → (∀ i < field r.payload 0 2, field r.payload (4 + 2 * i) 2 < 1024) → ∃ t,
    exec .zoneDelete s = .next t ∧ t.banks = { s.banks with pending := t.banks.pending } ∧ t.journal.newest = nextJournal s ∧
    plantUntouched { s with banks := t.banks } t) ∧
  (∀ (s : State) (r : Request) (b : Bank), mayExecute s 0x0402 r → 1 ≤ field r.payload 2 2 → field r.payload 2 2 ≤ 50 →
    field r.payload 0 2 + field r.payload 2 2 ≤ 1024 → field r.payload 4 1 ≤ 2 → bankOfCode s (field r.payload 4 1) = some b →
    ∃ (t : State) (es : List (List Byte)), exec .zoneQuery s = .next t ∧ es.length = field r.payload 2 2 ∧
      (∀ e ∈ es, e.length = 80) ∧ t = answer r 0 0 (leBytes 2 es.length ++ leBytes 2 0 ++ es.flatten) (dequeue r s) ∧
      plantUntouched s t) ∧
  (∀ (s : State) (r : Request), mayExecute s 0x0C00 r → field r.payload 0 1 ≤ 63 → 2 ≤ field r.payload 2 1 → field r.payload 1 1 = 0 →
    programUsed (dequeue r s) (field r.payload 0 1) = false → s.serif.upload = none → ∃ t, exec .progLoad s = .next t ∧
      t.serif = { s.serif with upload := some ⟨field r.payload 0 1, field r.payload 2 1, field r.payload 4 4, 1, r.payload.drop 8,
        nextJournal s⟩ } ∧ t.journal.newest = nextJournal s ∧ plantUntouched { s with serif := t.serif } t) ∧
  (∀ (s : State) (r : Request) (u : ProgUpload) (g : Program), mayExecute s 0x0C00 r → field r.payload 0 1 ≤ 63 →
    programUsed (dequeue r s) (field r.payload 0 1) = false → s.serif.upload = some u → u.index = field r.payload 0 1 →
    u.segments = field r.payload 2 1 → u.length = field r.payload 4 4 → u.next = field r.payload 1 1 → u.next ≠ 0 →
    u.next + 1 = u.segments → checkImage (8192 - ((s.serif.library.filter fun e => e.1 != u.index).map fun e => e.2.code.length).sum)
      u.length (u.bytes ++ r.payload.drop 8) = .ok g → ∃ t, exec .progLoad s = .next t ∧ t.serif.upload = none ∧
      programOf t.serif.library u.index = some g ∧ plantUntouched { s with serif := t.serif } t) ∧
  (∀ (s : State) (r : Request), mayExecute s 0x0C01 r → field r.payload 0 1 ≤ 63 → programUsed (dequeue r s) (field r.payload 0 1) = false →
    ∃ t, exec .progDelete s = .next t ∧ t.serif = { s.serif with library := Store.erase s.serif.library (field r.payload 0 1) } ∧
      t.journal.newest = nextJournal s ∧ plantUntouched { s with serif := t.serif } t) ∧
  (∀ (s : State) (r : Request), mayExecute s 0x0C02 r → field r.payload 0 1 ≤ 63 → 1 ≤ field r.payload 1 1 → field r.payload 1 1 ≤ 64 →
    ∃ (t : State) (es : List (Nat × Program)), exec .progList s = .next t ∧
      es = ((s.serif.library.filter fun e => decide (field r.payload 0 1 ≤ e.1) && decide (e.1 < field r.payload 0 1 + field r.payload 1 1)).take
        es.length) ∧
      t = answer r 0 0 (leBytes 2 es.length ++ leBytes 2 0 ++ es.flatMap fun e => programEntry e.1 e.2) (dequeue r s) ∧
      plantUntouched s t)


/-- One law for every Serif instruction that is no control instruction (R252, R257, R258): it has one effect on its lane; run alone it applies it
once and takes one cycle, after REP n it applies it n times and takes n cycles, and only its lane changes. REP itself takes one cycle, so a
repeated MACLD takes n + 1 with it. R258 allows no control instruction (opcodes 0x00 to 0x05) under REP and R257 states no result of an operand
outside its range: the instruction still runs, with a free value in that place (the model's choice, log entry 23).
Rests on choices of the model: log entries 22 and 23. -/
def Obligations.SerifRepeats : Prop :=
  (∀ (i : Instr) (l : Fin 128) (w : Nat), serifLane i = some l → serifWord i = some w → 6 ≤ w / 2 ^ 26 → i.wellFormed = true →
    ∃ f : Lane → Lane, ∀ s : State, ∃ t, exec i s = .next t ∧
      laneOf t l = { (Nat.repeat f ((laneOf s l).rep.getD 1) (laneOf s l)) with
        rep := none, pc := (laneOf s l).pc + 1, cycles := (laneOf s l).cycles + (laneOf s l).rep.getD 1 } ∧
      (∀ k, k ≠ l.val → laneOf t k = laneOf s k) ∧ t = { s with serif := { s.serif with lanes := t.serif.lanes } }) ∧
  (∀ (s : State) (l : Fin 128) (n : BitVec 12), (laneOf s l).rep = none → ∃ t, exec (.rep l n) s = .next t ∧ laneOf t l = { (laneOf s l) with
    rep := some (n.toNat + 1), pc := (laneOf s l).pc + 1, cycles := (laneOf s l).cycles + 1 } ∧
    (∀ k, k ≠ l.val → laneOf t k = laneOf s k) ∧ t = { s with serif := { s.serif with lanes := t.serif.lanes } }) ∧
  (∀ (s : State) (l : Fin 128) (c : Fin 4) (n : BitVec 12) (off : BitVec 16), (laneOf s l).rep.isSome = true →
    let x := laneOf s l
    let past : Lane := { x with rep := none, pc := x.pc + 1, cycles := x.cycles + x.rep.getD 1 }
    laneMoves (.nop l) l s (fun y => y = past) ∧
    laneMoves (.loopp l c) l s (fun y => y = { past with c := x.c.set c (BitVec.ofNat 16 ((x.piece.map (·.points)).getD 0)) }) ∧
    laneMoves (.loopi l c off) l s (fun y => ∃ v, (off ≠ 0 → v = off) ∧ y = { past with c := x.c.set c v }) ∧
    laneMoves (.rep l n) l s (fun y => ∃ k < 4096, y = { past with rep := some (k + 1) }) ∧
    laneMoves (.dbnz l c off) l s (fun y => ∃ v p, y = { past with c := x.c.set c v, pc := p })) ∧
  (∀ (s : State) (l : Fin 128) (d a : Fin 16) (n : BitVec 5), 23 < n.toNat → ∀ i ∈ [Instr.shli l d a n, .shrai l d a n, .shrli l d a n,
    .shrri l d a n], laneMoves i l s fun y => ∃ v sat, y = { (laneOf s l) with
      x := (laneOf s l).x.set d v, flags := (laneOf s l).flags ||| (if sat = true then 0x80#9 else 0), rep := none, pc := (laneOf s l).pc + 1,
      cycles := (laneOf s l).cycles + (laneOf s l).rep.getD 1 }) ∧
  (∀ (s : State) (l : Fin 128) (d : Fin 16) (j : Fin 4) (sh : BitVec 6), 48 < sh.toNat → laneMoves (.ext l d j sh) l s fun y =>
    ∃ v sat, y = { (laneOf s l) with
      x := (laneOf s l).x.set d v, flags := (laneOf s l).flags ||| (if sat = true then 0x80#9 else 0), rep := none, pc := (laneOf s l).pc + 1,
      cycles := (laneOf s l).cycles + (laneOf s l).rep.getD 1 })

/-- Serif arithmetic and logic (R252): ADD, SUB, ABS, NEG, SHLI and SHV to the left saturate to 24 bits and set SAT only then; ADDW and
SUBW wrap, and so do the phase differences of STRAIN_RATE; rounding is half up; shifts, minima and bit operations as the table says. -/
def Obligations.SerifAlu : Prop :=
  (∀ (s : State) (l : Fin 128) (d a b : Fin 16), (laneOf s l).rep = none →
    let x := laneOf s l
    let put (v : BitVec 24) : Lane := { x with x := x.x.set d v }
    let satPut (v : Int) : Lane := { x with
      x := x.x.set d (BitVec.ofInt 24 (if v < -8388608 then -8388608 else if 8388607 < v then 8388607 else v)),
      flags := if v < -8388608 ∨ 8388607 < v then x.flags ||| 0x080#9 else x.flags }
    let va := (x.x.get a).toInt
    let vb := (x.x.get b).toInt
    laneRuns (.add l d a b) l s (satPut (va + vb)) ∧ laneRuns (.sub l d a b) l s (satPut (va - vb)) ∧
    laneRuns (.addw l d a b) l s (put (x.x.get a + x.x.get b)) ∧ laneRuns (.subw l d a b) l s (put (x.x.get a - x.x.get b)) ∧
    laneRuns (.and l d a b) l s (put (x.x.get a &&& x.x.get b)) ∧ laneRuns (.or l d a b) l s (put (x.x.get a ||| x.x.get b)) ∧
    laneRuns (.xor l d a b) l s (put (x.x.get a ^^^ x.x.get b)) ∧
    laneRuns (.min l d a b) l s (put (BitVec.ofInt 24 (min va vb))) ∧ laneRuns (.max l d a b) l s (put (BitVec.ofInt 24 (max va vb))) ∧
    laneRuns (.abs l d a) l s (satPut (va.natAbs : Int)) ∧ laneRuns (.neg l d a) l s (satPut (-va)) ∧
    (0 ≤ vb → laneRuns (.shv l d a b) l s (put (BitVec.ofInt 24 (rhu va (min vb.toNat 23))))) ∧
    (vb < 0 → laneRuns (.shv l d a b) l s (satPut (va * 2 ^ min vb.natAbs 23)))) ∧
  (∀ (s : State) (l : Fin 128) (d a : Fin 16) (n : BitVec 5), (laneOf s l).rep = none → n.toNat ≤ 23 →
    let x := laneOf s l
    let put (v : BitVec 24) : Lane := { x with x := x.x.set d v }
    let va := (x.x.get a).toInt
    let v := va * 2 ^ n.toNat
    laneRuns (.shli l d a n) l s { x with
      x := x.x.set d (BitVec.ofInt 24 (if v < -8388608 then -8388608 else if 8388607 < v then 8388607 else v)),
      flags := if v < -8388608 ∨ 8388607 < v then x.flags ||| 0x080#9 else x.flags } ∧
    laneRuns (.shrai l d a n) l s (put ((x.x.get a).sshiftRight n.toNat)) ∧
    laneRuns (.shrli l d a n) l s (put (x.x.get a >>> n.toNat)) ∧
    laneRuns (.shrri l d a n) l s (put (BitVec.ofInt 24 (rhu va n.toNat)))) ∧
  (∀ (v : Int) (n : Nat), rhu v n = if n = 0 then v else (v + 2 ^ (n - 1)) / 2 ^ n) ∧ rhu (-40) 4 = -2 ∧
  (∀ (x : ZoneState) (j c : Nat) (w g : BitVec 48),
    let d : BitVec 24 := (g >>> 24).setWidth 24 - (w >>> 24).setWidth 24
    let o := strainPoint x j c w g
    Store.read (fun _ => 0) o.zone.hist j = d.toInt ∧
    o.out.take 3 = leInt 3 (d - BitVec.ofInt 24 (Store.read (fun _ => 0) x.hist j)).toInt)

/-- Serif moves, comparisons and exponents (R247, R249, R255, R256): immediates, pointers and offsets, the piece descriptor, the lane flags, CMP
and SEL, the quality accumulator, the number of redundant sign bits and the block exponent, and LOG2: 256 times the position b of the highest
set bit plus n, the rounded 256 × log2(1 + i/256) of the 8 bits i below it, that is 2^(2n − 1) ≤ (1 + i/256)^512 < 2^(2n + 1). -/
def Obligations.SerifMoves : Prop :=
  (∀ (s : State) (l : Fin 128) (d a : Fin 16) (v : BitVec 16) (b : BitVec 8), (laneOf s l).rep = none →
    let x := laneOf s l
    let put (v : BitVec 24) : Lane := { x with x := x.x.set d v }
    laneRuns (.ldi l d v) l s (put (v.signExtend 24)) ∧
    laneRuns (.ldih l d b) l s (put (b ++ (x.x.get d).setWidth 16)) ∧
    laneRuns (.mov l d a) l s (put (x.x.get a)) ∧
    laneRuns (.getf l d) l s (put (x.flags.setWidth 24)) ∧
    laneRuns (.qor l a) l s { x with q := x.q ||| (x.x.get a >>> 16).setWidth 8 } ∧
    laneRuns (.qget l d) l s { x with x := x.x.set d (x.q.setWidth 24), q := 0 } ∧
    laneRuns (.bxg l d) l s { x with x := x.x.set d (x.e.setWidth 24), e := 23 } ∧
    laneRuns (.bxp l a) l s { x with e := BitVec.ofNat 5 (min x.e.toNat (redundantSigns (x.x.get a))) } ∧
    laneRuns (.exp l d a) l s (put (BitVec.ofNat 24 (redundantSigns (x.x.get a))))) ∧
  (∀ (s : State) (l : Fin 128) (d a : Fin 16) (k : Fin 8) (v : BitVec 14), (laneOf s l).rep = none →
    let x := laneOf s l
    let put (v : BitVec 24) : Lane := { x with x := x.x.set d v }
    let ptr : Fin 16 := ⟨k.val, by omega⟩
    let off : Fin 16 := ⟨k.val + 8, by omega⟩
    laneRuns (.seta l ptr a) l s { x with p := x.p.set k ((x.x.get a).setWidth 14) } ∧
    laneRuns (.seta l off a) l s { x with o := x.o.set k ((x.x.get a).setWidth 14) } ∧
    laneRuns (.setai l ptr v) l s { x with p := x.p.set k v } ∧ laneRuns (.setai l off v) l s { x with o := x.o.set k v } ∧
    laneRuns (.geta l d ptr) l s (put ((x.p.get k).setWidth 24)) ∧
    laneRuns (.geta l d off) l s (put ((x.o.get k).signExtend 24))) ∧
  (∀ (s : State) (l : Fin 128) (d n : Fin 16) (pc : Piece), (laneOf s l).rep = none → (laneOf s l).piece = some pc →
    let x := laneOf s l
    let word : Nat := match n.val with
      | 0 => pc.zone | 1 => pc.port | 2 => pc.slots | 3 => pc.points | 4 => pc.firstPoint | 5 => pc.firstCell | 6 => pc.pitch | 7 => pc.gauge
      | 8 => pc.rateDiv | 9 => pc.slice | 10 => pc.slices | 11 => pc.round % 2 ^ 24 | 12 => pc.round / 2 ^ 24 % 256 | 13 => pc.histBase
      | 14 => pc.histLen | _ => if pc.emit then 1 else 0
    laneRuns (.movs l d n) l s { x with x := x.x.set d (BitVec.ofNat 24 word) }) ∧
  (∀ (s : State) (l : Fin 128) (a b : Fin 16), (laneOf s l).rep = none →
    let x := laneOf s l
    let lt := decide ((x.x.get a).toInt < (x.x.get b).toInt)
    let eq := x.x.get a == x.x.get b
    ∃ t, exec (.cmp l a b) s = .next t ∧ (laneOf t l).flags.getLsbD 0 = lt ∧ (laneOf t l).flags.getLsbD 1 = eq ∧
      (laneOf t l).flags >>> 2 = x.flags >>> 2 ∧
      laneOf t l = { x with flags := (laneOf t l).flags, pc := x.pc + 1, cycles := x.cycles + 1, rep := none } ∧
      (∀ k, k ≠ l.val → laneOf t k = laneOf s k) ∧ t = { s with serif := { s.serif with lanes := t.serif.lanes } }) ∧
  (∀ (s : State) (l : Fin 128) (d a b : Fin 16) (c : Fin 4), (laneOf s l).rep = none →
    let x := laneOf s l
    let lt := x.flags.getLsbD 0
    let eq := x.flags.getLsbD 1
    let yes := if c.val = 0 then lt else if c.val = 1 then eq else if c.val = 2 then lt || eq else !eq
    laneRuns (.sel l d a b c) l s { x with x := x.x.set d (if yes then x.x.get a else x.x.get b) }) ∧
  (∀ (s : State) (l : Fin 128) (d : Fin 16) (j : Fin 4), (laneOf s l).rep = none →
    laneRuns (.log2 l d j) l s { (laneOf s l) with x := (laneOf s l).x.set d (laneLog2 ((laneOf s l).m.get j)) }) ∧
  (∀ m : BitVec 56, m.toInt ≤ 0 → laneLog2 m = 0x800000#24) ∧
  (∀ m : BitVec 56, 0 < m.toInt → ∃ b i n : Nat, b ≤ 54 ∧ 2 ^ b ≤ m.toNat ∧ m.toNat < 2 ^ (b + 1) ∧ 256 + i = m.toNat * 256 / 2 ^ b ∧
    i < 256 ∧ 2 ^ (2 * n + 4096) ≤ 2 * (256 + i) ^ 512 ∧ 2 * (256 + i) ^ 512 < 2 ^ (2 * n + 4098) ∧
    laneLog2 m = BitVec.ofNat 24 (256 * b + n) ∧ (i = 0 → n = 0) ∧ (i = 255 → n = 255) ∧ 256 * b + n ≤ 14079) ∧
  redundantSigns 0 = 23 ∧ (∀ v : BitVec 24, redundantSigns v ≤ 23 ∧ -8388608 ≤ v.toInt * 2 ^ redundantSigns v ∧ v.toInt * 2 ^ redundantSigns v ≤ 8388607 ∧
    (v ≠ 0 → v.toInt * 2 ^ (redundantSigns v + 1) < -8388608 ∨ 8388607 < v.toInt * 2 ^ (redundantSigns v + 1)))

/-- Serif memory, input, output and features (R248, R250, R251, R257): a load inside the piece's windows reads little-endian bytes and
post-modifies its pointer, one outside reads 0 and sets ACCESS; a store changes exactly its bytes.
Rests on choices of the model: log entries 23 and 24. -/
def Obligations.SerifMemory : Prop :=
  (∀ (s : State) (l : Fin 128) (d : Fin 16) (p o : Fin 8) (size : BitVec 2) (sign : Bool), (laneOf s l).rep = none → size ≠ 0 →
    let x := laneOf s l
    let as := (List.range size.toNat).map fun i => ((x.p.get p).toNat + i) % 16384
    let v := leNat (as.map fun a => Store.read (fun _ => 0) x.mem a)
    let bump := x.p.set p (x.p.get p + x.o.get o)
    ((as.all (laneReadable x) = true → laneRuns (.ld l d p o size sign) l s { x with p := bump, x := x.x.set d (BitVec.ofInt 24 (if sign ∧ 2 ^ (8 * size.toNat - 1) ≤ v then (v : Int) - 2 ^ (8 * size.toNat) else v)) }) ∧
     (as.all (laneReadable x) = false → laneRuns (.ld l d p o size sign) l s { x with
       p := bump, x := x.x.set d 0, flags := x.flags ||| 0x100#9 }))) ∧
  (∀ (s : State) (l : Fin 128) (a : Fin 16) (p o : Fin 8) (size : BitVec 2), (laneOf s l).rep = none → size ≠ 0 →
    let x := laneOf s l
    let as := (List.range size.toNat).map fun i => ((x.p.get p).toNat + i) % 16384
    let bump := x.p.set p (x.p.get p + x.o.get o)
    (as.all (laneWritable x) = true → Store.wf (fun _ => 0#8) x.mem = true → ∃ mem, laneRuns (.st l a p o size) l s { x with
      p := bump, mem := mem } ∧ Store.wf (fun _ => 0#8) mem = true ∧
        ∀ k : Nat, Store.read (fun _ => 0#8) mem k = if k ∈ as then (x.x.get a >>> (8 * as.idxOf k)).setWidth 8
          else Store.read (fun _ => 0#8) x.mem k) ∧
    (as.all (laneWritable x) = false → laneRuns (.st l a p o size) l s { x with p := bump, flags := x.flags ||| 0x100#9 })) ∧
  (∀ (s : State) (l : Fin 128) (d : Fin 16) (p o : Fin 8), (laneOf s l).rep = none → d.val % 2 = 0 →
    let x := laneOf s l
    let e : Fin 16 := d + 1
    let as := (List.range 6).map fun i => ((x.p.get p).toNat + i) % 16384
    let bs := as.map fun a => Store.read (fun _ => 0#8) x.mem a
    let bump := x.p.set p (x.p.get p + x.o.get o)
    (as.all (laneReadable x) = true → laneRuns (.ldpt l d p o) l s { x with p := bump, x := (x.x.set d (BitVec.ofNat 24 (leNat (bs.drop 3)))).set e ((bs.getD 0 0 ++ bs.getD 2 0 ++ bs.getD 1 0)) }) ∧
    (as.all (laneReadable x) = false → laneRuns (.ldpt l d p o) l s { x with
      p := bump, x := (x.x.set d 0).set e 0, flags := x.flags ||| 0x100#9 })) ∧
  (∀ (s : State) (l : Fin 128) (d : Fin 16), (laneOf s l).rep = none → d.val % 2 = 0 →
    let x := laneOf s l
    let e : Fin 16 := d + 1
    (∀ w rest, x.input = w :: rest → laneRuns (.inInsn l d) l s { x with
      input := rest, x := (x.x.set d ((w >>> 24).setWidth 24)).set e (w.setWidth 8 ++ (w >>> 8).setWidth 16) }) ∧
    (x.input = [] → laneRuns (.inInsn l d) l s { x with x := (x.x.set d 0).set e 0, flags := x.flags ||| 0x100#9 })) ∧
  (∀ (s : State) (l : Fin 128) (a b : Fin 16) (k : Fin 8) (size mode : BitVec 2), (laneOf s l).rep = none →
    let x := laneOf s l
    (laneRuns (.out l a size) l s { x with output := x.output ++ leBytes size.toNat (x.x.get a).toNat }) ∧
    (mode ≠ 3 → laneRuns (.feat l k a b mode) l s { x with
      features := x.features ++ [⟨k.val, (x.x.get a).toInt, (x.x.get b).toNat, mode.toNat⟩] })) ∧
  (∀ (s : State) (l : Fin 128) (a b d : Fin 16) (p o k : Fin 8) (sign : Bool), d.val % 2 = 1 → (laneOf s l).rep = none →
    let x := laneOf s l
    let bump := x.p.set p (x.p.get p + x.o.get o)
    laneMoves (.ldpt l d p o) l s (fun y => ∃ v w f, y = { x with
      x := (x.x.set d v).set ((d + 1 : Fin 16)) w, p := bump, flags := f, pc := x.pc + 1, cycles := x.cycles + 1 }) ∧
    laneMoves (.inInsn l d) l s (fun y => ∃ v w f, y = { x with
      x := (x.x.set d v).set ((d + 1 : Fin 16)) w, input := x.input.tail, flags := f, pc := x.pc + 1, cycles := x.cycles + 1 }) ∧
    laneMoves (.ld l d p o 0 sign) l s (fun y => ∃ v, y = { x with
      x := x.x.set d v, p := bump, pc := x.pc + 1, cycles := x.cycles + 1 }) ∧
    laneRuns (.st l a p o 0) l s { x with p := bump } ∧
    laneMoves (.feat l k a b 3) l s (fun y => ∃ m < 3, y = { x with
      features := x.features ++ [⟨k.val, (x.x.get a).toInt, (x.x.get b).toNat, m⟩], pc := x.pc + 1, cycles := x.cycles + 1 }))

/-- Serif accumulators (R253, R254): products add exactly; an overflow stops the accumulator at the nearer 56-bit limit, sets its AOV bit, and holds it
there until CLR or LDA; EXT rounds half up and saturates, always from a frozen accumulator (log entry 21). -/
def Obligations.SerifAccumulators : Prop :=
  (∀ (s : State) (l : Fin 128) (j j2 : Fin 4) (a b : Fin 16) (v : Int), (laneOf s l).rep = none →
    let x := laneOf s l
    let add (v : Int) : Lane := { x with
      m := x.m.set j (BitVec.ofInt 56 (if v < -2 ^ 55 then -2 ^ 55 else if 2 ^ 55 ≤ v then 2 ^ 55 - 1 else v)),
      flags := if v < -2 ^ 55 ∨ 2 ^ 55 ≤ v then x.flags ||| (0x008#9 <<< j.val) else x.flags }
    let m := (x.m.get j).toInt
    let prod := (x.x.get a).toInt * (x.x.get b).toInt
    (x.flags.getLsbD (3 + j.val) = false → laneRuns (.mac l j a b) l s (add (m + prod)) ∧ laneRuns (.msu l j a b) l s (add (m - prod)) ∧
      laneRuns (.adda l j j2) l s (add (m + (x.m.get j2).toInt))) ∧
    (x.flags.getLsbD (3 + j.val) = true → laneRuns (.mac l j a b) l s x ∧ laneRuns (.msu l j a b) l s x ∧ laneRuns (.adda l j j2) l s x)) ∧
  (∀ (s : State) (l : Fin 128) (j : Fin 4) (a : Fin 16) (sh : BitVec 5), (laneOf s l).rep = none →
    let x := laneOf s l
    let clear (v : Int) : Lane := { x with m := x.m.set j (BitVec.ofInt 56 v), flags := x.flags &&& ~~~(0x008#9 <<< j.val) }
    laneRuns (.clr l j) l s (clear 0) ∧ laneRuns (.lda l j a sh) l s (clear ((x.x.get a).toInt * 2 ^ sh.toNat))) ∧
  (∀ (s : State) (l : Fin 128) (pr : Fin 2) (a b a2 b2 : Fin 16), (laneOf s l).rep = none →
    let x := laneOf s l
    let even : Fin 4 := ⟨2 * pr.val, by omega⟩
    let v := (x.m.get even).toInt + (x.x.get a).toInt * (x.x.get b).toInt
    let w := (x.m.get (even + 1)).toInt + (x.x.get a2).toInt * (x.x.get b2).toInt
    x.flags.getLsbD (3 + even.val) = false → x.flags.getLsbD (4 + even.val) = false → -2 ^ 55 ≤ v → v < 2 ^ 55 → -2 ^ 55 ≤ w → w < 2 ^ 55 →
    laneRuns (.mac2 l pr a b a2 b2) l s { x with m := (x.m.set even (BitVec.ofInt 56 v)).set (even + 1) (BitVec.ofInt 56 w) }) ∧
  (∀ (s : State) (l : Fin 128) (j : Fin 4) (a b : Fin 16) (p o p2 o2 : Fin 8), (laneOf s l).rep = none →
    let x := laneOf s l
    let v := (x.m.get j).toInt + (x.x.get a).toInt * (x.x.get b).toInt
    let load (q : Fin 8) : Int := signed 24 (leNat ((List.range 3).map fun i => Store.read (fun _ => 0#8) x.mem (((x.p.get q).toNat + i) % 16384)))
    let open3 (q : Fin 8) : Bool := (List.range 3).all fun i => laneReadable x (((x.p.get q).toNat + i) % 16384)
    x.flags.getLsbD (3 + j.val) = false → -2 ^ 55 ≤ v → v < 2 ^ 55 → p ≠ p2 → a ≠ b → open3 p = true → open3 p2 = true →
    laneRuns (.macld l j a b p o p2 o2) l s { x with
      m := x.m.set j (BitVec.ofInt 56 v), x := (x.x.set a (BitVec.ofInt 24 (load p))).set b (BitVec.ofInt 24 (load p2)),
      p := (x.p.set p (x.p.get p + x.o.get o)).set p2 (x.p.get p2 + x.o.get o2) }) ∧
  (∀ (s : State) (l : Fin 128) (d : Fin 16) (j : Fin 4) (sh : BitVec 6), (laneOf s l).rep = none → sh.toNat ≤ 48 →
    let x := laneOf s l
    let v : Int := if x.flags.getLsbD (3 + j.val) then (if (x.m.get j).toInt < 0 then -2 ^ 23 - 1 else 2 ^ 23) else rhu (x.m.get j).toInt sh.toNat
    laneRuns (.ext l d j sh) l s { x with
      x := x.x.set d (BitVec.ofInt 24 (if v < -8388608 then -8388608 else if 8388607 < v then 8388607 else v)),
      flags := if v < -8388608 ∨ 8388607 < v then x.flags ||| 0x080#9 else x.flags })

/-- Serif control (R245, R251, R257): NOP and the loop counters, DBNZ backwards while its counter is not zero, and END, which hands the
piece's output to the Herder and starts the lane's next piece.
Rests on choices of the model: log entry 22. -/
def Obligations.SerifControl : Prop :=
  (∀ (s : State) (l : Fin 128), (laneOf s l).rep = none → laneRuns (.nop l) l s (laneOf s l)) ∧
  (∀ (s : State) (l : Fin 128) (c : Fin 4) (n : BitVec 16), (laneOf s l).rep = none → n ≠ 0 →
    laneRuns (.loopi l c n) l s { (laneOf s l) with c := (laneOf s l).c.set c n }) ∧
  (∀ (s : State) (l : Fin 128) (c : Fin 4) (d : Piece), (laneOf s l).rep = none → (laneOf s l).piece = some d →
    laneRuns (.loopp l c) l s { (laneOf s l) with c := (laneOf s l).c.set c (BitVec.ofNat 16 d.points) }) ∧
  (∀ (s : State) (l : Fin 128) (c : Fin 4) (off : BitVec 16), (laneOf s l).rep = none → off.toInt < 0 → (laneOf s l).c.get c = 1 →
    laneRuns (.dbnz l c off) l s { (laneOf s l) with c := (laneOf s l).c.set c 0 }) ∧
  (∀ (s : State) (l : Fin 128) (c : Fin 4) (off : BitVec 16), (laneOf s l).rep = none → off.toInt < 0 → (laneOf s l).c.get c ≠ 1 → ∃ t,
    exec (.dbnz l c off) s = .next t ∧ laneOf t l = { (laneOf s l) with
      c := (laneOf s l).c.set c ((laneOf s l).c.get c - 1), pc := (((laneOf s l).pc : Int) + off.toInt).toNat,
      cycles := (laneOf s l).cycles + 2 } ∧
    (∀ k, k ≠ l.val → laneOf t k = laneOf s k) ∧ t = { s with serif := { s.serif with lanes := t.serif.lanes } }) ∧
  (∀ (s : State) (l : Fin 128) (d : Piece), (laneOf s l).rep = none → (laneOf s l).piece = some d → d.emit = true →
    (laneOf s l).output.length = d.expected → (laneOf s l).next = [] → ∃ t, exec (.endInsn l) s = .next t ∧
      (laneOf t l).piece = none ∧ (laneOf t l).x = (laneOf s l).x ∧ (laneOf t l).mem = (laneOf s l).mem ∧
      t.serif.results = s.serif.results ++ [⟨d.zone, d.round, d.slice, d.firstPoint, (laneOf s l).output, (laneOf s l).features⟩] ∧
      (∀ k, k ≠ l.val → laneOf t k = laneOf s k) ∧ plantUntouched { s with serif := t.serif, herder := t.herder } t) ∧
  (∀ (s : State) (l : Fin 128) (e : Piece) (rest : List Piece), (laneOf s l).rep = none → (laneOf s l).next = e :: rest →
    ∃ t, exec (.endInsn l) s = .next t ∧ (laneOf t l).piece = some e ∧ (laneOf t l).next = rest ∧ (laneOf t l).flags = 0 ∧
      (laneOf t l).input = e.input ∧ (laneOf t l).pc = 0 ∧
      (∀ k, k ≠ l.val → laneOf t k = laneOf s k) ∧ plantUntouched { s with serif := t.serif, herder := t.herder } t)

/-- Every well-formed Serif instruction is read back from its word (R257, R263): decoding the word that its fields spell gives it
with every operand, on whatever lane runs it. -/
def Obligations.SerifRoundTrip : Prop :=
  ∀ (i : Instr) (l : Fin 128) (w : Nat), serifLane i = some l → serifWord i = some w → i.wellFormed = true →
    w < 2 ^ 32 ∧ decodeSerif l w = some i


/-- Raman traces, RTD channels and the housekeeping converter (R277, R278, R284, R286, R289, R292, R293, R299): the final shot hands the trace
off, a measurement that is in range gives its channel a result and another a fault code, and scans and pulse events fill the result
words.
Rests on choices of the model: log entries 39 and 40. -/
def Obligations.ThermometersMeasure : Prop :=
  (∀ (s : State) (p : Fin 4) (codes : RamanCodes), (ramanOf s p).running = true → 2 ^ (ramanOf s p).cfg.shotsLog2 ≤ (ramanOf s p).shots →
    (ramanOf s p).launchOpen = true → ∃ t, exec (.dtsTraceComplete p codes) s = .next t ∧ (ramanOf t p).running = false ∧ (ramanOf t p).shots = 0 ∧
      (ramanOf t p).handoff = (traceFacts (ramanAccumulate p codes s) p).cells ∧ (ramanOf t p).header = (traceFacts (ramanAccumulate p codes s) p).header ∧
      (ramanOf t p).handoffHeld = (ramanOf t p).dark.isNone ∧ (ramanOf t p).traceCount = (ramanOf s p).traceCount + 1 ∧
      (∀ q : Fin 4, q ≠ p → ramanOf t q = ramanOf s q) ∧
      plantUntouched { s with raman := t.raman, rtd := t.rtd, calib := t.calib, herder := t.herder } t) ∧
  (∀ (s : State) (p : Fin 4) (codes : RamanCodes), (ramanOf s p).running = true → (ramanOf s p).shots < 2 ^ (ramanOf s p).cfg.shotsLog2 →
    exec (.dtsTraceComplete p codes) s = .next s) ∧
  (∀ (s : State) (k : Fin 8), paramBool s Pid.rtdEnable k = true → s.mode.current ≠ .reset → (∀ j : Fin 8, (rtdOf s j).running = false ∧ (rtdOf s j).due = false) →
    ∃ t, exec (.rtdDue k) s = .next t ∧ rtdOf t k = { rtdOf s k with running := true, due := false, attempts := 0, written := false } ∧
      (∀ j : Fin 8, j ≠ k → rtdOf t j = rtdOf s j) ∧ t = { s with rtd := t.rtd }) ∧
  (∀ (s : State) (k : Fin 8), s.mode.current = .reset → exec (.rtdDue k) s = .next s) ∧
  (∀ (s : State) (k j : Fin 8), paramBool s Pid.rtdEnable k = true → s.mode.current ≠ .reset → (rtdOf s j).running = true → ∃ t, exec (.rtdDue k) s = .next t ∧
    rtdOf t k = { rtdOf s k with due := true } ∧ (∀ i : Fin 8, i ≠ k → rtdOf t i = rtdOf s i) ∧ t = { s with rtd := t.rtd }) ∧
  (∀ (s : State) (k : Fin 8) (m : RtdSums), (rtdOf s k).running = true → rtdCode s k m = 0 → watchFailing s 2 = false → ∃ t,
    exec (.rtdMeasurementEnd k m) s = .next t ∧ (rtdOf t k).last = 0 ∧ (rtdOf t k).valid = true ∧
    (rtdOf t k).resultMohm = (rtdResistance s k m).toNat ∧ (rtdOf t k).validTick = rtdMidpoint s k ∧
    (rtdOf t k).resultMc = cvdTemperature (rtdResistance s k m) (rtdR0 s k) (paramGet s Pid.rtdCvdA k) (paramGet s Pid.rtdCvdB k)
      (paramGet s Pid.rtdCvdC k) ∧ plantUntouched { s with rtd := t.rtd, calib := t.calib } t) ∧
  (∀ (s : State) (k : Fin 8) (m : RtdSums), (rtdOf s k).running = true → 2 ≤ rtdCode s k m → ∃ t,
    exec (.rtdMeasurementEnd k m) s = .next t ∧ (rtdOf t k).last = rtdCode s k m ∧ (rtdOf t k).valid = false ∧ (rtdOf t k).faultSeen = true ∧
    (rtdOf t k).resultMc = (rtdOf s k).resultMc ∧ plantUntouched { s with rtd := t.rtd, calib := t.calib } t) ∧
  (∀ (s : State) (k : Fin 8) (m : RtdSums), (rtdOf s k).running = true → rtdCode s k m = 1 → (rtdOf s k).attempts < 2 → ∃ t,
    exec (.rtdMeasurementEnd k m) s = .next t ∧ rtdOf t k = { rtdOf s k with attempts := (rtdOf s k).attempts + 1, written := false } ∧
    plantUntouched { s with rtd := t.rtd } t) ∧
  (∀ (s : State) (k : Fin 8), (rtdOf s k).running = true → ∃ t, exec (.rtdPulseTimeout k) s = .next t ∧ (rtdOf t k).last = 5 ∧
    (rtdOf t k).valid = false ∧ (rtdOf t k).faultSeen = true ∧ plantUntouched { s with rtd := t.rtd, calib := t.calib } t) ∧
  (∀ (s : State) (codes : List Int), (scanInputs s).length ≤ codes.length → (scanInputs s).Nodup → (∀ i ∈ scanInputs s, i < 32) → ∃ t,
    exec (.hkScan codes) s = .next t ∧ (∀ i v, (i, v) ∈ (scanInputs s).zip codes →
      (vecRead t.hk.result i 0).setWidth 16 = BitVec.ofInt 16 v ∧ (vecRead t.hk.result i 0).getLsbD 16 = false ∧
      (vecRead t.hk.result i 0 >>> 24).setWidth 8 = (vecRead s.hk.result i 0 >>> 24).setWidth 8 + 1#8 ∧
      (vecRead t.hk.result i 0).getLsbD 17 = (!hkRailOk s || watchFailing s 0 || watchFailing s 1)) ∧
    (∀ i : Fin 32, i.val ∉ scanInputs s → vecRead t.hk.result i 0 = vecRead s.hk.result i 0) ∧
    t = { s with hk := t.hk, pointer := t.pointer }) ∧
  (∀ (s : State) (e : Fin 8) (code : Int) (late : Bool), paramNat s Pid.hkEventSource e ≠ 0 →
    vecRead s.hk.eventCount e 0 + 1 < paramNat s Pid.hkEventDivider e → ∃ t, exec (.hkPulseEvent e code late) s = .next t ∧
      vecRead t.hk.eventCount e 0 = vecRead s.hk.eventCount e 0 + 1 ∧ t.hk.eventResult = s.hk.eventResult ∧ t = { s with hk := t.hk }) ∧
  (∀ (s : State) (e : Fin 8) (code : Int) (late : Bool), paramNat s Pid.hkEventSource e ≠ 0 →
    paramNat s Pid.hkEventDivider e ≤ vecRead s.hk.eventCount e 0 + 1 → ∃ t, exec (.hkPulseEvent e code late) s = .next t ∧
      vecRead t.hk.eventCount e 0 = 0 ∧ (vecRead t.hk.eventResult e 0).setWidth 16 = BitVec.ofInt 16 code ∧
      (vecRead t.hk.eventResult e 0).getLsbD 16 = late ∧ t.hk.result = s.hk.result ∧
      plantUntouched { s with hk := t.hk, pointer := t.pointer } t)

/-- The Pointer's commands and lines (R308, R313 to R316, R318, R319): SEQ_LOAD stages state records, ARM and DISARM move the sequencers of a
mask alone, the master arm follows its parameter and TRG_ARM_N, `ptr.flags` takes a write, a remote fire reaches every sequencer, and a fire pulse ends. -/
def Obligations.SequencersArm : Prop :=
  (∀ (s : State) (r : Request), mayExecute s 0x0500 r → field r.payload 0 1 ≤ 7 → field r.payload 1 1 + field r.payload 2 1 ≤ 16 →
    field r.payload 3 1 ≤ 1 → (∀ i < field r.payload 2 1, ∀ j < 4, condFields (condOf (slice r.payload (4 + 128 * i) 128) j) = true) →
    ∃ t b, exec .seqLoad s = .next t ∧ t.banks = { s.banks with pending := some b } ∧
      (∀ i < field r.payload 2 1, seqState b (field r.payload 0 1) (field r.payload 1 1 + i) = slice r.payload (4 + 128 * i) 128) ∧
      b.params = (s.banks.pending.getD s.banks.active).params ∧ t.journal.newest = nextJournal s ∧
      plantUntouched { s with banks := t.banks } t) ∧
  (∀ (s : State) (r : Request), mayExecute s 0x0501 r → armMode s.mode.current = true → field r.payload 1 1 ≤ 1 →
    (∀ q : Fin 8, hasBit (field r.payload 0 1) q = true → seqDefined (globalBank s) q = true) → ∃ t, exec .arm s = .next t ∧
      (∀ q : Fin 8, hasBit (field r.payload 0 1) q = true → ((seqOf s q).arm = .idle ∨ field r.payload 1 1 = 1) →
        (seqOf t q).arm = .armed ∧ (seqOf t q).state = paramNat s Pid.seqInitialState q ∧ (seqOf t q).recording = false ∧
        (seqOf t q).timers = Vector.replicate 2 none ∧ (seqOf t q).counters = Vector.replicate 2 0 ∧ (seqOf t q).window = none) ∧
      (∀ q : Fin 8, hasBit (field r.payload 0 1) q = false → seqOf t q = seqOf s q) ∧
      plantUntouched { s with pointer := { s.pointer with seqs := t.pointer.seqs } } t) ∧
  (∀ (s : State) (r : Request), mayExecute s 0x0502 r → armMode s.mode.current = true → ∃ t, exec .disarm s = .next t ∧
    (∀ q : Fin 8, hasBit (field r.payload 0 1) q = true → (seqOf t q).arm = .idle) ∧
    (∀ q : Fin 8, hasBit (field r.payload 0 1) q = false → seqOf t q = seqOf s q) ∧
    plantUntouched { s with pointer := { s.pointer with seqs := t.pointer.seqs } } t) ∧
  (∀ (s : State) (r : Request), mayExecute s 0x0501 r → armMode s.mode.current = false →
    exec .arm s = .next (refuse r 0x30 0 (dequeue r s))) ∧
  (∀ (s : State) (on : Bool), s.paramsWf = true → ∃ t, exec (.masterArmWrite on) s = .next t ∧ paramBool t Pid.ptrMasterArm 0 = on ∧
    (on = false → t.pointer.masterArmed = false) ∧ (on = true → paramNat s Pid.ptrArmBus 0 ≠ 2 → t.pointer.masterArmed = true) ∧
    plantUntouched { s with pointer := { s.pointer with masterArmed := t.pointer.masterArmed } } t) ∧
  (∀ (s : State) (v : Nat), s.paramsWf = true → ∃ t, exec (.ptrFlagsWrite v) s = .next t ∧ paramNat t Pid.ptrFlags 0 = v % 256 ∧
    t = { s with params := t.params }) ∧
  (∀ (s : State) (low : Bool), ∃ t, exec (.trgArmNChange low) s = .next t ∧ t.pointer.armLow = low ∧
    (low = false → paramNat s Pid.ptrArmBus 0 = 2 → t.pointer.masterArmed = false) ∧
    (low = true → paramBool s Pid.ptrMasterArm 0 = true → linesLive s.mode.current = true → t.pointer.masterArmed = true) ∧
    plantUntouched { s with pointer := { s.pointer with armLow := low, masterArmed := t.pointer.masterArmed } } t) ∧
  (∀ s : State, s.pointer.fireOut = false → linesLive s.mode.current = true → ∃ t, exec .remoteFireEdge s = .next t ∧
    (∀ q : Fin 8, (t.pointer.inbox.get q).remote = nowNs s :: (s.pointer.inbox.get q).remote) ∧
    t = { s with params := t.params, pointer := { s.pointer with inbox := t.pointer.inbox } }) ∧
  (∀ s : State, exec .firePulseEnd s = .next { s with pointer := { s.pointer with fireOut := false } })

/-- Event records and replay jobs (R323, R326, R329, R355, R358, R360): a record whose data the ring holds closes, EVENT_READ gives records
and copies, and a replay job starts, advances by processed rounds while some lane has cycles to spare,
reports and is cancelled.
Rests on choices of the model: log entries 34 and 67. -/
def Obligations.RecordsAndReplays : Prop :=
  (∀ (s : State) (n : Nat) (r : EventRecord), recordOf s n = some r → r.completeness = 0 → recordReady s r = true → ∃ t u,
    exec (.recordClose n) s = .next t ∧ recordOf t n = some u ∧ (u.completeness = 1 ∨ u.completeness = 2) ∧ u.collecting = false ∧
    u.closed = nowNet s ∧ u.time = r.time ∧ u.postActual = (if s.pointer.areaSram then 0 else r.postReq) ∧ u.seqs = r.seqs ∧
    u.zones.map (·.zone) = r.zones.map (·.zone) ∧ t.pointer.seqs = s.pointer.seqs ∧ t.pointer.newest = s.pointer.newest ∧
    plantUntouched { s with pointer := t.pointer, inkstone := t.inkstone } t) ∧
  (∀ (s : State) (r : Request), mayExecute s 0x0503 r → field r.payload 0 1 = 0 → 1 ≤ field r.payload 8 1 → field r.payload 8 1 ≤ 7 →
    ∃ (t : State) (es : List EventRecord), exec .eventRead s = .next t ∧ es.length ≤ field r.payload 8 1 ∧
      (∀ e ∈ es, e ∈ s.pointer.records.map (·.2)) ∧ t = answer r 0 0 (leBytes 2 es.length ++ leBytes 2 0 ++ es.flatMap recordBytes) (dequeue r s) ∧
      plantUntouched s t) ∧
  (∀ r : EventRecord, (recordBytes r).length = 512) ∧
  (∀ (s : State) (r : Request), mayExecute s 0x0600 r → field r.payload 0 1 = 0 → field r.payload 1 1 ≤ 2 → field r.payload 4 4 = 0 →
    field r.payload 2 2 < 1024 → field (slice r.payload 32 64) 2 1 = zonePort (field r.payload 2 2) →
    field (slice r.payload 32 64) 5 1 < 16 → field (slice r.payload 32 64) 60 4 = 0 → replayMode s.mode.current = true →
    s.pointer.areaSram = false → replayInRange s (replayAsk s r.payload) (sourceRuns s 0 (field r.payload 2 2) 0 (field r.payload 2 1)) = true →
    replayProgramBad s (replayAsk s r.payload) = false → s.inkstone.jobs = [] → 16 ≤ vecRead s.memory.regions 4 0 → ∃ t j,
      exec .replayStart s = .next t ∧ t.inkstone.jobs = [(0, j)] ∧ j.journal = nextJournal s ∧ j.sourceId = field r.payload 2 2 ∧
      j.done = 0 ∧ j.startNs = (replayAsk s r.payload).startNs ∧ j.endNs = (replayAsk s r.payload).endNs ∧
      j.state = (if j.total = 0 then 2 else 1) ∧ t.journal.newest = nextJournal s ∧ plantUntouched { s with inkstone := t.inkstone } t) ∧
  (∀ (s : State) (r : Request) (j : ReplayJob), mayExecute s 0x0601 r → s.inkstone.jobs = [(field r.payload 0 1, j)] → j.state ≤ 1 → ∃ t k,
    exec .replayCancel s = .next t ∧ t.inkstone.jobs = [(field r.payload 0 1, k)] ∧ k.state = 3 ∧ k.reason = 1 ∧ k.done = j.done ∧
    k.waiting = [] ∧ plantUntouched { s with inkstone := t.inkstone } t) ∧
  (∀ (s : State) (r : Request), mayExecute s 0x0602 r → field r.payload 0 1 = 0xFF → ∃ t, exec .replayStatus s = .next t ∧
    t = answer r 0 0 (leBytes 2 s.inkstone.jobs.length ++ leBytes 2 0 ++ s.inkstone.jobs.flatMap fun e => jobEntry e.1 e.2) (dequeue r s) ∧
    plantUntouched s t) ∧
  (∀ (s : State) (i : Fin 16) (j : ReplayJob) (u : RingRun) (x : ReplayResult), s.inkstone.jobs = [(i.val, j)] → j.state = 1 → j.waiting = [] →
    j.done + 1 < j.total → (jobLane s j).isSome = true → x.decodeError = 0 → j.source = 0 → (zoneRuns (readPort s (zonePort j.sourceId)) j.sourceId).head? = some u →
    u.round = j.nextRound → u.round % max 1 (field j.zoneRecord 20 2) = 0 → u.time < j.endNs → ∃ t k,
      exec (.replayRoundDone i x) s = .next t ∧ t.inkstone.jobs = [(i.val, k)] ∧ k.done = j.done + 1 ∧ k.state = 1 ∧ k.cycles = x.cycles ∧
      plantUntouched { s with inkstone := t.inkstone } t) ∧
  (∀ (s : State) (i : Fin 16) (j : ReplayJob) (x : ReplayResult), s.inkstone.jobs = [(i.val, j)] → j.state = 1 → j.waiting = [] →
    j.done < j.total → (jobLane s j).isSome = true → x.decodeError ≠ 0 → ∃ t k, exec (.replayRoundDone i x) s = .next t ∧
      t.inkstone.jobs = [(i.val, k)] ∧ k.state = 3 ∧ k.reason = 3 ∧ k.error = x.decodeError ∧ k.done = j.done ∧
      plantUntouched { s with inkstone := t.inkstone } t) ∧
  (∀ (s : State) (i : Fin 16) (j : ReplayJob) (x : ReplayResult), s.inkstone.jobs = [(i.val, j)] → j.state = 1 → j.waiting = [] →
    j.done < j.total → j.stepped = j.done → jobLane s j = none → exec (.replayRoundDone i x) s = .next s)


/-- The memory system (R365 to R367, R370, R374, R376, R377, R379, R381 to R384, R390): errors are counted or taken to their store, pages are marked
and retired, training puts its delays in force or takes the port offline, and row hammer throttles its requester.
Rests on choices of the model: log entries 44, 45 and 87. -/
def Obligations.MemoryIsKept : Prop :=
  (∀ (s : State) (e : SramError), e.corrected = true → ∃ t, exec (.sramEccError e) s = .next t ∧ t = { s with params := t.params }) ∧
  (∀ (s : State) (e : SramError), e.corrected = false → e.store.val = 0 → ∃ t, exec (.sramEccError e) s = .next t ∧
    (0, e.word) ∈ t.memory.bad ∧ (∀ q : Fin 4, q.val ≠ e.word / 2 / 262144 → portOf t q = portOf s q) ∧
    plantUntouched { s with memory := { s.memory with bad := t.memory.bad }, ports := t.ports } t) ∧
  (∀ (s : State) (e : SramError), e.corrected = false → e.store.val = 4 → s.mode.current = .run → s.mode.inProgress = none →
    s.banks.switch = none → ∃ t, exec (.sramEccError e) s = .next t ∧ t.mode.current = .fault ∧ t.mode.faultCode = 5 ∧ emissionOff t ∧
      (4, e.word) ∈ t.memory.bad) ∧
  (∀ (s : State) (store : Fin 5) (word : Nat), exec (.sramScrubRewrite store word) s =
    .next { s with memory := { s.memory with bad := s.memory.bad.erase (store.val, word) } }) ∧
  (∀ (s : State) (e : DramError), e.uncorrectable = false → ∃ t, exec (.dramEccError e) s = .next t ∧ t = { s with params := t.params }) ∧
  (∀ (s : State) (e : DramError), e.uncorrectable = true → (dramOf s e.port).retired.length + (dramOf s e.port).marked.length < 1024 →
    sectorPage s e.port e.loc e.sector ∉ (dramOf s e.port).retired → ∃ t, exec (.dramEccError e) s = .next t ∧
      sectorPage s e.port e.loc e.sector ∈ (dramOf t e.port).marked ∧
      (dramOf t e.port).ueSeen = true ∧ (dramOf t e.port).state = (dramOf s e.port).state ∧
      (∀ a : Fin 2, a ≠ e.port → dramOf t a = dramOf s a) ∧
      plantUntouched { s with memory := t.memory, herder := t.herder, serif := t.serif, pointer := t.pointer, inkstone := t.inkstone, firmware := t.firmware } t) ∧
  (∀ (s : State) (a : Fin 2) (page : Nat), page ∈ (dramOf s a).marked → ∃ t, exec (.pageRetire a page) s = .next t ∧
    (dramOf t a).retired = (dramOf s a).retired ++ [page] ∧ (dramOf t a).marked = (dramOf s a).marked.erase page ∧
    (∀ b : Fin 2, b ≠ a → dramOf t b = dramOf s b) ∧
    plantUntouched { s with memory := t.memory, pointer := t.pointer, inkstone := t.inkstone } t) ∧
  (∀ (s : State) (a : Fin 2) (r : TrainingResult), s.mode.current ≠ .boot → (dramOf s a).state = .online → (dramOf s a).retraining = true →
    (dramOf s a).cause = 0 → (dramOf s a).deferredRate = none → r.trained = true →
    (sweeps s a = true → ∀ l : Fin 4, paramNat s Pid.memMinEyeSteps 0 ≤ r.delays.eye.get l) → ∃ t,
      exec (.dramTrainingDone a r) s = .next t ∧ (dramOf t a).state = .online ∧ (dramOf t a).retraining = false ∧
      (sweeps s a = true → (dramOf t a).delays = { r.delays with rate := (dramOf s a).passRate }) ∧
      (sweeps s a = false → (dramOf t a).delays.rate = (dramOf s a).passRate ∧
        (∀ l : Fin 4, (dramOf t a).delays.rd.get l = paramNat s (dramId a Pid.memPortDlyRd) l ∧
          (dramOf t a).delays.wr.get l = paramNat s (dramId a Pid.memPortDlyWr) l) ∧
        (dramOf t a).delays.ca = #v[paramNat s (dramId a Pid.memPortDlyCaA) 0, paramNat s (dramId a Pid.memPortDlyCaB) 0]) ∧
      (dramOf t a).flash = some (dramOf t a).delays ∧ (dramOf t a).refTemp = s.calib.temp ∧
      (dramOf t a).refMr4 = (dramOf s a).mr4 ∧
      (∀ b : Fin 2, b ≠ a → dramOf t b = dramOf s b) ∧ plantUntouched { s with memory := t.memory } t) ∧
  (∀ (s : State) (a : Fin 2) (r : TrainingResult), s.mode.current ≠ .boot → (dramOf s a).state = .training → (dramOf s a).retraining = true →
    (dramOf s a).deferredRate = none → trainingOutcome s a r = 2 → ∃ t, exec (.dramTrainingDone a r) s = .next t ∧
      (dramOf t a).state = .offline ∧ (dramOf t a).cause = 2 ∧ (dramOf t a).lossTick = s.ticks ∧ (dramOf t a).retraining = false ∧
      ((dramOf s a).cause ≠ 0 → plantUntouched { s with memory := t.memory } t)) ∧
  (∀ (s : State) (a : Fin 2) (mr4 : Nat), (dramOf s a).state = .online → (dramOf s a).pasr = false → (dramOf s a).retraining = false →
    (dramOf s a).checkDue = true →
    (∃ t, exec (.dramRetrainCheck a mr4 true) s = .next t ∧ dramOf t a = { dramOf s a with
        mr4 := some mr4, refTemp := s.calib.temp, refMr4 := some mr4, checkDue := false } ∧
      (∀ b : Fin 2, b ≠ a → dramOf t b = dramOf s b) ∧ t = { s with memory := t.memory }) ∧
    (∃ t, exec (.dramRetrainCheck a mr4 false) s = .next t ∧ dramOf t a = { dramOf s a with
        mr4 := some mr4, refMr4 := some ((dramOf s a).refMr4.getD mr4), state := if s.mode.current = .config then .training else .online,
        retraining := true, passRate := (dramOf s a).delays.rate, checkDue := false } ∧
      (∀ b : Fin 2, b ≠ a → dramOf t b = dramOf s b) ∧ t = { s with memory := t.memory, params := t.params })) ∧
  (∀ (s : State) (a : Fin 2) (l : DramRow), ∃ t, exec (.rowHammer a l) s = .next t ∧
    (vecRead t.memory.requesters l.requester.val {}).throttled = true ∧ (dramOf t a).hammerSeen = true ∧
    (dramOf t a).state = (dramOf s a).state ∧ (∀ b : Fin 2, b ≠ a → dramOf t b = dramOf s b) ∧ plantUntouched { s with memory := t.memory } t) ∧
  (∀ s : State, ∃ t, exec .hammerWindow s = .next t ∧ (∀ a : Fin 2, dramOf t a = { dramOf s a with rows := [] }) ∧ t = { s with memory := t.memory }) ∧
  (∀ (s : State) (i : Fin 8), ∃ t, exec (.hammerThrottleEnd i) s = .next t ∧ (t.memory.requesters.get i).throttled = false ∧
    (∀ j : Fin 8, j ≠ i → t.memory.requesters.get j = s.memory.requesters.get j) ∧
    t = { s with memory := { s.memory with requesters := t.memory.requesters } }) ∧
  (∀ (s : State) (a : Fin 2) (waiting : Bool), (dramOf s a).postponed ≤ 8 → ∃ t, exec (.dramRefresh a waiting) s = .next t ∧
    dramOf t a = { dramOf s a with postponed := (dramOf t a).postponed } ∧ (dramOf t a).postponed ≤ 8 ∧
    (waiting = false → (dramOf t a).postponed = 0) ∧ (∀ b : Fin 2, b ≠ a → dramOf t b = dramOf s b) ∧ t = { s with memory := t.memory }) ∧
  (∀ (s : State) (i : Fin 8) (n : Nat), 0 < n → ∃ t, exec (.memLate i n) s = .next t ∧ t.memory.ports = s.memory.ports ∧
    plantUntouched { s with memory := t.memory } t) ∧
  (∀ (s : State) (a : Fin 2) (rate : Nat), s.mode.current = .config → rate ∈ [1600, 2133, 3200, 3733, 4266] → (dramOf s a).state = .online →
    (dramOf s a).retraining = false → ∃ t, exec (.rateMtsWrite a rate) s = .next t ∧
      dramOf t a = { dramOf s a with state := .training, retraining := true, passRate := rate } ∧
      (∀ b : Fin 2, b ≠ a → dramOf t b = dramOf s b) ∧ t = { s with memory := t.memory, params := t.params })

/-- Network time (R397, R399 to R402, R404, R406): PTP messages move only the domains that listen, a written increment waits for the next
tick, a lost Sync or servo unlocks its domain, and the axis takes the selected domain's time.
Rests on choices of the model: log entries 15, 78 and 81. -/
def Obligations.TimeFollowsDomains : Prop :=
  (∀ (s : State) (d port : Fin 2) (domain sdo master rank : Nat), timeRuns s = true → s.scribe.restarting = false →
    ptpMatches s d port domain sdo = true → master ≠ (domainOf s d).masterId → rank < (domainOf s d).masterRank → ∃ t,
      exec (.ptpMessageRx (.announce port domain sdo master rank)) s = .next t ∧ (domainOf t d).masterId = master ∧
      (domainOf t d).masterRank = rank ∧ (domainOf t d).masterChanged = true ∧ (domainOf t d).count = (domainOf s d).count ∧
      t = { s with time := { s.time with domains := t.time.domains } }) ∧
  (∀ (s : State) (d port : Fin 2) (domain sdo seq master : Nat) (origin correction : Int), timeRuns s = true → s.scribe.restarting = false →
    ptpMatches s d port domain sdo = true → master = (domainOf s d).masterId → ∃ t,
      exec (.ptpMessageRx (.sync port domain sdo seq master false origin correction)) s = .next t ∧ (domainOf t d).measSeq = seq ∧
      (domainOf t d).offsetNs = ptpNs (rxStamp s d port - (origin + correction) * stampNs - (domainOf s d).pathDelayNs * stampNs) ∧
      (domainOf t d).syncTimeout = false ∧ (domainOf t d).count = (domainOf s d).count ∧
      plantUntouched { s with time := t.time, ports := t.ports } t) ∧
  (∀ (s : State) (d : Fin 2), timeRuns s = true → s.scribe.restarting = false → paramNat s Pid.timeDomEthPort d < 2 →
    (ethOf s (paramNat s Pid.timeDomEthPort d)).linkUp = true → ∃ t, exec (.ptpMessageTx d) s = .next t ∧
      (domainOf t d).reqSeq = ((domainOf s d).reqSeq + 1) % 65536 ∧ (domainOf t d).t3 = txStamp s d (paramNat s Pid.timeDomEthPort d) ∧
      (ethOf t (paramNat s Pid.timeDomEthPort d)).sent.2.length = (if usesP2p s d then 54 else 44) ∧
      (domainOf t (otherDomain d)) = domainOf s (otherDomain d) ∧
      t = { s with time := { s.time with domains := t.time.domains }, links := { s.links with eth := t.links.eth } }) ∧
  (∀ (s : State) (d : Fin 2), ∃ t, exec (.syncTimeout d) s = .next t ∧ (domainOf t d).syncTimeout = true ∧ (domainOf t d).locked = false ∧
    plantUntouched { s with time := t.time, ports := t.ports } t) ∧
  (∀ (s : State) (d : Fin 2), s.ticks < (domainOf s d).servoTick + msTicks (paramNat s Pid.timeDomServoTimeoutMs d) →
    exec (.servoTimeout d) s = .next s) ∧
  (∀ (s : State) (d : Fin 2), (domainOf s d).servoTick + msTicks (paramNat s Pid.timeDomServoTimeoutMs d) ≤ s.ticks → ∃ t,
    exec (.servoTimeout d) s = .next t ∧ (domainOf t d).servoTimeout = true ∧ (domainOf t d).locked = false ∧
    plantUntouched { s with time := t.time, ports := t.ports } t) ∧
  (∀ (s : State) (d : Fin 2) (v : Nat), s.mode.current ≠ .mirror → timeRuns s = true → incrementOk v = true → ∃ t,
    exec (.timeDomainWrite d (some v) none) s = .next t ∧ (domainOf t d).nextIncrement = some v ∧ (domainOf t d).servoTimeout = false ∧
    (domainOf t d).increment = (domainOf s d).increment ∧ (domainOf t d).count = (domainOf s d).count ∧
    plantUntouched { s with time := t.time, ports := t.ports } t) ∧
  (∀ (s : State) (d : Fin 2) (v : Int), s.mode.current ≠ .mirror → timeRuns s = true → ∃ t,
    exec (.timeDomainWrite d none (some v)) s = .next t ∧ (domainOf t d).adjust = (domainOf s d).adjust + v ∧
    (domainOf t d).servoTimeout = false ∧ (domainOf t d).count = (domainOf s d).count ∧
    plantUntouched { s with time := t.time, ports := t.ports } t) ∧
  (∀ (s : State) (d : Fin 2) (inc : Option Nat) (adj : Option Int), s.mode.current = .mirror →
    exec (.timeDomainWrite d inc adj) s = .next s) ∧
  (∀ (s : State) (d : Fin 2) (on : Bool), timeRuns s = true → s.paramsWf = true → ∃ t, exec (.servoStateWrite d on) s = .next t ∧
    paramBool t Pid.timeDomServoState d = on ∧ (domainOf t d).servoTimeout = false ∧
    (domainOf t d).locked = (on && !(domainOf s d).syncTimeout) ∧ plantUntouched { s with time := t.time, ports := t.ports } t) ∧
  (∀ (s : State) (d : Fin 2) (force : Bool), timeRuns s = true → timeSelectStatus s d force = 0 → ∃ t,
    exec (.timeSelectWrite d force) s = .next t ∧ t.time.select = d ∧ t.time.hostSelect = d ∧
    plantUntouched { s with time := t.time, ports := t.ports } t) ∧
  (∀ (s : State) (d : Fin 2), d ≠ s.time.select → (domainOf s d).locked = false → exec (.timeSelectWrite d false) s = .next s) ∧
  (∀ s : State, s.time.slewing = true → exec .axisSlewDone s =
    .next { s with time := { s.time with axis := (selectedDomain s).count, slewing := false } }) ∧
  (∀ s : State, s.time.stepPending = true → portsFire s = true → exec .axisStep s = .next s) ∧
  (∀ s : State, s.time.stepPending = true → portsFire s = false → ∃ t, exec .axisStep s = .next t ∧
    (s.time.syncEngaged = false → t.time = { s.time with axis := (selectedDomain s).count, stepPending := false, stepped := true }) ∧
    (s.time.syncEngaged = true → t.time.axis = ((s.time.axis : Int) - s.time.syncDiff * 2 ^ 32).toNat ∧ t.time.syncDiff = 0 ∧
      t.time.stepPending = false ∧ t.time.stepped = true) ∧
    (∀ p : Fin 4, (portOf t p).nextSlot = 0 ∧ (portOf t p).shotSeq = (portOf s p).shotSeq) ∧
    plantUntouched { s with time := t.time, ports := t.ports } t)

/-- SYNC_IN, the pulse outputs and the time-interval unit (R408 to R410, R415, R416, R419, R420, R422): an edge is used, counted as stray or as chatter,
a loss disengages, a due pulse is driven for its width, a write of an idle output takes effect at once, two edges give their
difference, and an end on a port that does not fire sees no edge.
Rests on choices of the model: log entries 79 and 80. -/
def Obligations.PulsesAreTimed : Prop :=
  (∀ s : State, paramBool s Pid.syncEnable 0 = true → timeRuns s = true → s.time.syncEngaged = true → s.time.syncLast = none →
    s.time.syncGood < 7 → portsFire s = true → ∃ t, exec .syncInEdge s = .next t ∧ t.time.syncLast = some (axisLsb s + edgePlace s) ∧
      t.time.syncEngaged = true ∧ t.time.axis = s.time.axis ∧
      t.time.syncDiff = nearest ((axisLsb s + edgePlace s : Nat) - 256 * paramNat s Pid.syncPhaseNs 0 : Int) (256 * paramNat s Pid.syncPeriodNs 0) ∧
      t = { s with time := t.time, ports := t.ports, free := t.free }) ∧
  (∀ s : State, paramBool s Pid.syncEnable 0 = true → timeRuns s = true → s.time.syncEngaged = true → s.time.syncLast = none →
    s.time.syncGood < 7 → portsFire s = false → s.time.stepPending = false → ∃ t, exec .syncInEdge s = .next t ∧ t.time.syncDiff = 0 ∧
      t.time.axis = ((s.time.axis : Int) - nearest ((axisLsb s + edgePlace s : Nat) - 256 * paramNat s Pid.syncPhaseNs 0 : Int)
        (256 * paramNat s Pid.syncPeriodNs 0) * 2 ^ 32).toNat ∧ t = { s with time := t.time, free := t.free }) ∧
  (∀ (s : State) (u : Nat), paramBool s Pid.syncEnable 0 = true → timeRuns s = true → s.time.syncLast = some u →
    axisLsb s + edgePlace s - u < 256 * paramNat s Pid.tdcCmpHoldoffNs 2 → ∃ t, exec .syncInEdge s = .next t ∧
    t = { s with params := t.params, free := t.free }) ∧
  (∀ (s : State) (stuck : Bool), paramBool s Pid.syncEnable 0 = true → s.time.syncEngaged = true → ∃ t, exec (.syncLoss stuck) s = .next t ∧
    t.time.syncEngaged = false ∧ t.time.syncLocked = false ∧ (stuck = true → t.time.syncStuck = true) ∧
    plantUntouched { s with time := t.time, ports := t.ports } t) ∧
  (∀ (s : State) (u : Fin 4) (k : Nat), timeRuns s = true → (toutOf s u).next = some k → toutNow s u = k →
    paramNat s Pid.toutMode u = 2 → 0 < paramNat s Pid.toutPeriodNs u → ∃ t, exec (.toutPulse u) s = .next t ∧
      toutOf t u = { toutOf s u with active := true, endsAt := k + paramNat s Pid.toutWidthNs u, next := some (k + paramNat s Pid.toutPeriodNs u) } ∧
      (∀ v : Fin 4, v ≠ u → toutOf t v = toutOf s v) ∧ t = { s with time := { s.time with touts := t.time.touts } }) ∧
  (∀ (s : State) (u : Fin 4) (k : Nat), timeRuns s = true → (toutOf s u).next = some k → k + 2 ≤ toutNow s u → ∃ t,
    exec (.toutPulse u) s = .next t ∧ (toutOf t u).active = true ∧ (toutOf t u).endsAt = toutNow s u + paramNat s Pid.toutWidthNs u ∧
    t.evq.seq = s.evq.seq + 1 ∧ plantUntouched { s with time := t.time } t) ∧
  (∀ (s : State) (u : Fin 4) (f : Fin 8) (v : Int), timeRuns s = true → inRange (Pid.toutMode + f) u v = true → toutStatus s u f v = 0 →
    (toutOf s u).active = false → ∃ t, exec (.toutConfigWrite u f v) s = .next t ∧
      t.params = Store.write paramDefault s.params (paramKey (Pid.toutMode + f) u) v ∧ (toutOf t u).next = toutFirst t u ∧
      (∀ w : Fin 4, w ≠ u → toutOf t w = toutOf s w) ∧ t = { s with params := t.params, time := { s.time with touts := t.time.touts } }) ∧
  (∀ (s : State) (u : Fin 4) (f : Fin 8) (v : Int), timeRuns s = true → inRange (Pid.toutMode + f) u v = true → toutStatus s u f v = 0 →
    (toutOf s u).active = true → ∃ t, exec (.toutConfigWrite u f v) s = .next t ∧ t.params = s.params ∧
      (toutOf t u).next = (toutOf s u).next ∧ toutField t u f = v.toNat ∧ t = { s with time := { s.time with touts := t.time.touts } }) ∧
  (∀ s : State, s.mode.current ≠ .survey → timeRuns s = true →
    exec (.tdcArmWrite true) s = .next { s with time := { s.time with tdc := {
      running := true, resultLsb := s.time.tdc.resultLsb, stampS := s.time.tdc.stampS, stampLsb := s.time.tdc.stampLsb } } }) ∧
  (∀ s : State, s.mode.current ≠ .survey → timeRuns s = true → s.time.tdc.running = true → ∃ t, exec (.tdcArmWrite false) s = .next t ∧
    t.time.tdc.running = false ∧ t.time.tdc.done = true ∧ t.evq.seq = s.evq.seq + 1 ∧ plantUntouched { s with time := t.time } t) ∧
  (∀ (s : State) (on : Bool), s.mode.current = .survey → exec (.tdcArmWrite on) s = .next s) ∧
  (∀ (s : State) (stop : Bool) (lsb : Nat), s.time.tdc.running = false → exec (.tdcEdge stop lsb) s = .next s) ∧
  (∀ (s : State) (stop : Bool) (lsb : Nat), (∀ e : Bool, edgeLive s e = false) → exec (.tdcEdge stop lsb) s = .next s) ∧
  (∀ (s : State) (lsb : Nat), s.time.tdc.running = true → paramNat s Pid.tdcMode 0 = 0 → s.time.tdc.start = none →
    edgeLive s false = true → heldOff s false lsb = false → ∃ t,
    exec (.tdcEdge false lsb) s = .next t ∧ t.time.tdc.start = some lsb ∧ t.time.tdc.made = s.time.tdc.made ∧
    t = { s with time := { s.time with tdc := t.time.tdc, cmpLast := t.time.cmpLast } }) ∧
  (∀ (s : State) (a lsb : Nat), s.time.tdc.running = true → paramNat s Pid.tdcMode 0 = 0 → s.time.tdc.start = some a → edgeLive s true = true → heldOff s true lsb = false → lsb ≠ a →
    ((lsb : Int) - a).natAbs ≤ 2 ^ 24 * 320 → ∃ t, exec (.tdcEdge true lsb) s = .next t ∧ t.time.tdc.resultLsb = (lsb : Int) - a ∧
      t.time.tdc.valid = true ∧ t.time.tdc.made = s.time.tdc.made + 1 ∧ t.time.tdc.start = none ∧
      t.time.tdc.running = decide (s.time.tdc.made + 1 < paramNat s Pid.tdcCount 0) ∧ plantUntouched { s with time := t.time } t) ∧
  (∀ (s : State) (a : Nat), s.time.tdc.running = true → s.time.tdc.start = some a → ∃ t, exec .tdcTimeout s = .next t ∧
    t.time.tdc.ovf = true ∧ t.time.tdc.start = none ∧ t.time.tdc.made = s.time.tdc.made + 1 ∧ t.time.tdc.resultLsb = s.time.tdc.resultLsb ∧
    plantUntouched { s with time := t.time } t)

/-- The output queues (R436 to R442, R444, R449): an item leaves whole through the ring's buffers or as datagrams, a descriptor that cannot be
read and a tail beyond the ring stop its queue alone, an interrupt goes out at the item count set, and enabling and disabling start and empty it.
Rests on choices of the model: log entries 20 and 36. -/
def Obligations.QueuesDeliver : Prop :=
  (∀ (s : State) (q : Fin 8) (n k : Nat) (seq type : Nat) (bytes : List Byte) (rest : List (Nat × Nat × List Byte)) (buffers : List Nat),
    (queueOf s q).staged = (seq, type, bytes) :: rest → (queueOf s q).running = true → queueLink s q = 1 → s.links.pcieUp = true →
    s.links.pcieL1 = false → n = ringEntries s q →
    (∀ b ∈ buffers.take (((queueOf s q).tail.toNat % 65536 + n - (queueOf s q).head.toNat) % n), bufferOk b = true) →
    buffersFor bytes.length (buffers.take (((queueOf s q).tail.toNat % 65536 + n - (queueOf s q).head.toNat) % n)) = some k → ∃ t,
      exec (.queueItemDeliver q buffers) s = .next t ∧ (queueOf t q).staged = rest ∧ (queueOf t q).delivered = (seq, type, bytes) ∧
      (queueOf t q).head = BitVec.ofNat 16 (((queueOf s q).head.toNat + k) % n) ∧ (queueOf t q).irqItems = (queueOf s q).irqItems + 1 ∧
      (∀ r : Fin 8, r ≠ q → queueOf t r = queueOf s r) ∧
      t = { s with params := t.params, links := { s.links with queues := t.links.queues } }) ∧
  (∀ (s : State) (q : Fin 8) (seq type : Nat) (bytes : List Byte) (rest : List (Nat × Nat × List Byte)) (buffers : List Nat),
    (queueOf s q).staged = (seq, type, bytes) :: rest → (queueOf s q).running = true → queueLink s q = 2 → (ethOf s 0).linkUp = true → ∃ t,
      exec (.queueItemDeliver q buffers) s = .next t ∧ (queueOf t q).staged = rest ∧ (queueOf t q).delivered = (seq, type, bytes) ∧
      (ethOf t 0).txQueue = (ethOf s 0).txQueue ++ ((segments q seq type bytes.length (segmentBytes s q 0) 0 (bytes.length + 1) bytes).map
        fun d => (q.val, d)) ∧ (∀ r : Fin 8, r ≠ q → queueOf t r = queueOf s r) ∧ plantUntouched s t) ∧
  (∀ (s : State) (q : Fin 8), 0 < (queueOf s q).irqItems → paramNat s Pid.hostQueueIrqItems q ≤ (queueOf s q).irqItems → ∃ t,
    exec (.queueIrq q) s = .next t ∧ (queueOf t q).irqItems = 0 ∧ t.links.msix.getLsbD (8 + q.val) = true ∧
    (∀ r : Fin 8, r ≠ q → queueOf t r = queueOf s r) ∧ t = { s with links := t.links }) ∧
  (∀ (s : State) (q : Fin 8) (address length : Nat), (queueOf s q).running = true → address % 64 = 0 → bufferOk length = true →
    exec (.descriptorReadDone q (.ok address length)) s = .next s) ∧
  (∀ (s : State) (q : Fin 8) (r : DescriptorRead), (queueOf s q).running = true → (r = .urOrCa ∨ r = .poisoned ∨ r = .timeout) → ∃ t,
    exec (.descriptorReadDone q r) s = .next t ∧ (queueOf t q).running = false ∧ (queueOf t q).error = true ∧
    (queueOf t q).staged = (queueOf s q).staged ∧ (∀ k : Fin 8, k ≠ q → queueOf t k = queueOf s k) ∧ plantUntouched s t) ∧
  (∀ (s : State) (q : Fin 8) (v : BitVec 32), v.toNat % 65536 < ringEntries s q → ∃ t, exec (.queueTailWrite q v) s = .next t ∧
    queueOf t q = { queueOf s q with tail := v } ∧ (∀ r : Fin 8, r ≠ q → queueOf t r = queueOf s r) ∧
    t = { s with links := { s.links with queues := t.links.queues } }) ∧
  (∀ (s : State) (q : Fin 8) (v : BitVec 32), ringEntries s q ≤ v.toNat % 65536 → (queueOf s q).running = true → ∃ t,
    exec (.queueTailWrite q v) s = .next t ∧ (queueOf t q).running = false ∧ (queueOf t q).error = true ∧ plantUntouched s t) ∧
  (∀ (s : State) (q : Fin 8), ∃ t, exec (.dmaQueueEnable q) s = .next t ∧ queueOf t q = { queueOf s q with
    enabled := true, running := true, error := false, starved := false, head := 0, tail := 0 } ∧
    (∀ r : Fin 8, r ≠ q → queueOf t r = queueOf s r) ∧ t = { s with links := { s.links with queues := t.links.queues } }) ∧
  (∀ (s : State) (q : Fin 8), ∃ t, exec (.dmaQueueDisable q) s = .next t ∧ (queueOf t q).enabled = false ∧ (queueOf t q).running = false ∧
    (queueOf t q).staged = [] ∧ (∀ r : Fin 8, r ≠ q → queueOf t r = queueOf s r) ∧ plantUntouched s t)

/-- Posting an event (R138, R139, R542, R543): the entry takes the next sequence; a queue with room holds it at its head, a full one drops and
counts it; severity 3 is programmed into the log at once while Scribe is not restarting, others wait.
Rests on choices of the model: log entry 104. -/
def Obligations.EventsArePosted : Prop :=
  (∀ (s : State) (code : Nat) (a b c : Int), (s.evq.head + 1) % 128 ≠ s.evq.tail → ∃ e : EventEntry,
    ((post code a b c s).evq.slots.find? fun x => x.1 == s.evq.head).map (·.2) = some e ∧ e.code = code ∧
    e.seq = (s.evq.seq + 1).toNat ∧ e.severity = severity code ∧ e.time = nowNet s ∧ e.arg0 = BitVec.ofInt 32 a ∧
    e.arg1 = BitVec.ofInt 32 b ∧ e.arg2 = BitVec.ofInt 32 c ∧ (post code a b c s).evq.head = (s.evq.head + 1) % 128 ∧
    (post code a b c s).evq.dropped = s.evq.dropped ∧ (post code a b c s).evq.seq = s.evq.seq + 1 ∧
    (pageOf (post code a b c s) 1).irqStatus.getLsbD 1 = true) ∧
  (∀ (s : State) (code : Nat) (a b c : Int), (s.evq.head + 1) % 128 = s.evq.tail → (post code a b c s).evq.slots = s.evq.slots ∧
    (post code a b c s).evq.head = s.evq.head ∧ (post code a b c s).evq.dropped = s.evq.dropped + 1 ∧
    (post code a b c s).evq.seq = s.evq.seq + 1) ∧
  (∀ (s : State) (code : Nat) (a b c : Int), (severity code ≠ 3 ∨ s.scribe.restarting = true) → ∃ e : LogEntry,
    (post code a b c s).log = { s.log with waiting := s.log.waiting ++ [e] } ∧ e.entry.code = code ∧ e.entry.seq = (s.evq.seq + 1).toNat) ∧
  (∀ (s : State) (code : Nat) (a b c : Int), severity code = 3 → s.scribe.restarting = false → (post code a b c s).log.waiting = [] ∧
    ((post code a b c s).log.entries.head?.map (·.entry.code)) = some code) ∧
  (∀ (s : State) (code : Nat) (a b c : Int), plantUntouched s (post code a b c s))

/-- What reset leaves (R39, R41, R139, R182, R213, R246, R474): BOOT after a power-on, nothing listed or waiting, no emission, the leash released.
Rests on choices of the model: log entries 10, 11 and 12. -/
def Obligations.ResetState : Prop :=
  State.reset.mode.current = .boot ∧ State.reset.pending = [] ∧ State.reset.evq.seq = 0 ∧ State.reset.evq.head = 0 ∧
  State.reset.banks.pending = none ∧ State.reset.scribe.queue = [] ∧ State.reset.pair.own = false ∧ State.reset.pair.driving = false ∧
  State.reset.safety.fire = 0 ∧ emissionOff State.reset ∧ State.reset.paramsWf = true ∧
  (∀ p : Fin 4, (portOf State.reset p).shotSeq = 0 ∧ (portOf State.reset p).gridRunning = false) ∧
  (∀ q : Fin 8, (seqOf State.reset q).arm = .idle) ∧ (∀ l : Fin 128, laneOf State.reset l = {}) ∧ State.reset.pointer.newest = 0 ∧ State.reset.fireConfined

/-- No step gives a port its FIRE term outside RUN, SENTINEL, SURVEY and HANDOVER (R77, R498): whatever the state and whatever command stands
in front, the confinement of FIRE is kept. -/
def Obligations.FireStaysConfined : Prop := ∀ s t : State, s.fireConfined → step s = .next t → t.fireConfined
end

