-- ==== Sys2Proof/Laws/Keep1.lean ====
section
/-! SUPPORT. What the shared operations leave alone. `f_keep` says it for every observer `ob` of the state at once: an observer that
does not see the fields that `f` may write (its hypothesis lists them, `v_…` being any new value) reads after `f` what it read
before. Cite it with a field or a field of a field as `ob`. -/

set_option linter.unusedSimpArgs false
set_option linter.unreachableTactic false
set_option linter.unusedTactic false

namespace Sys2Proof.Machine

theorem foldl_keep {α β : Type} (ob : State → β) (f : State → α → State) (h : ∀ x s, ob (f s x) = ob s) (xs : List α) (s : State) :
    ob (xs.foldl f s) = ob s := by
  induction xs generalizing s with
  | nil => rfl
  | cons x xs ih => simp only [List.foldl]; rw [ih]; exact h x s

theorem forEach_keep {α β : Type} (ob : State → β) (f : α → State → State) (h : ∀ x s, ob (f x s) = ob s) (xs : List α) (s : State) :
    ob (forEach xs f s) = ob s := by
  unfold forEach
  induction xs generalizing s with
  | nil => rfl
  | cons x xs ih => simp only [List.foldl]; rw [ih]; exact h x s

theorem paramPut_keep {β : Type} (ob : State → β)
    (hob : ∀ (s : State) v_params, ob { s with params := v_params } = ob s) (id : ℕ) (idx : ℕ) (v : ℤ) (s : State) :
    ob (paramPut id idx v s) = ob s := by
  unfold paramPut
  simp only [hob, ite_self]

theorem bumpBy_keep {β : Type} (ob : State → β)
    (hob : ∀ (s : State) v_params, ob { s with params := v_params } = ob s) (n : ℕ) (id : ℕ) (idx : ℕ) (s : State) :
    ob (bumpBy n id idx s) = ob s := by
  unfold bumpBy
  simp only [hob, ite_self, paramPut_keep ob (fun s v_params => hob s v_params)]

theorem bump_keep {β : Type} (ob : State → β)
    (hob : ∀ (s : State) v_params, ob { s with params := v_params } = ob s) (id : ℕ) (idx : ℕ) (s : State) :
    ob (bump id idx s) = ob s := by
  unfold bump
  simp only [hob, ite_self, bumpBy_keep ob (fun s v_params => hob s v_params)]

theorem onPage_keep {β : Type} (ob : State → β)
    (hob : ∀ (s : State) v_scPg, ob { s with scribe := { s.scribe with page := v_scPg } } = ob s) (t : ℕ) (f : PageSide → PageSide) (s : State) :
    ob (onPage t f s) = ob s := by
  unfold onPage
  simp only [hob, ite_self]

theorem raiseVector_keep {β : Type} (ob : State → β)
    (hob : ∀ (s : State) v_lkMsix v_lkWake, ob { s with links := { s.links with msix := v_lkMsix, peWake := v_lkWake } } = ob s) (v : ℕ) (s : State) :
    ob (raiseVector v s) = ob s := by
  unfold raiseVector
  simp only [hob, ite_self]

theorem irqSet_keep {β : Type} (ob : State → β)
    (hob : ∀ (s : State) v_scPg v_lkMsix v_lkWake, ob { s with scribe := { s.scribe with page := v_scPg }, links := { s.links with msix := v_lkMsix, peWake := v_lkWake } } = ob s) (t : ℕ) (i : ℕ) (s : State) :
    ob (irqSet t i s) = ob s := by
  unfold irqSet
  repeat' first | simp only [hob, ite_self, onPage_keep ob (fun s v_scPg => hob s v_scPg s.links.msix s.links.peWake), raiseVector_keep ob (fun s v_lkMsix v_lkWake => hob s s.scribe.page v_lkMsix v_lkWake)] | split

theorem irqBoth_keep {β : Type} (ob : State → β)
    (hob : ∀ (s : State) v_scPg v_lkMsix v_lkWake, ob { s with scribe := { s.scribe with page := v_scPg }, links := { s.links with msix := v_lkMsix, peWake := v_lkWake } } = ob s) (i : ℕ) (s : State) :
    ob (irqBoth i s) = ob s := by
  unfold irqBoth
  simp only [hob, ite_self, irqSet_keep ob (fun s v_scPg v_lkMsix v_lkWake => hob s v_scPg v_lkMsix v_lkWake)]

theorem evqWrite_keep {β : Type} (ob : State → β)
    (hob : ∀ (s : State) v_params v_scPg v_evq v_lkMsix v_lkWake, ob { s with params := v_params, evq := v_evq, scribe := { s.scribe with page := v_scPg }, links := { s.links with msix := v_lkMsix, peWake := v_lkWake } } = ob s) (e : EventEntry) (s : State) :
    ob (evqWrite e s) = ob s := by
  unfold evqWrite
  repeat' first | simp only [hob, ite_self, bump_keep ob (fun s v_params => hob s v_params s.scribe.page s.evq s.links.msix s.links.peWake), irqBoth_keep ob (fun s v_scPg v_lkMsix v_lkWake => hob s s.params v_scPg s.evq v_lkMsix v_lkWake)] | split

theorem segorSend_keep {β : Type} (ob : State → β)
    (hob : ∀ (s : State) v_pairTx, ob { s with pair := { s.pair with tx := v_pairTx } } = ob s) (kind : ℕ) (m : List Byte) (s : State) :
    ob (segorSend kind m s) = ob s := by
  unfold segorSend
  repeat' first | simp only [hob, ite_self] | split

theorem onTransport_keep {β : Type} (ob : State → β)
    (hob : ∀ (s : State) v_scTr, ob { s with scribe := { s.scribe with transports := v_scTr } } = ob s) (t : ℕ) (f : TransportState → TransportState) (s : State) :
    ob (onTransport t f s) = ob s := by
  unfold onTransport
  simp only [hob, ite_self]

theorem dropAnswers_keep {β : Type} (ob : State → β)
    (hob : ∀ (s : State) v_lkEth, ob { s with links := { s.links with eth := v_lkEth } } = ob s) (s : State) :
    ob (dropAnswers s) = ob s := by
  unfold dropAnswers
  repeat' first | with_reducible rfl | simp only [hob, ite_self] | split | with_reducible refine (forEach_keep ob _ (fun _ _ => ?_) _ _).trans ?_ | with_reducible apply forEach_keep ob | with_reducible refine (foldl_keep ob _ (fun _ _ => ?_) _ _).trans ?_ | rw [apply_ite ob]

theorem endSession_keep {β : Type} (ob : State → β)
    (hob : ∀ (s : State) v_scTr v_lkEth, ob { s with scribe := { s.scribe with transports := v_scTr }, links := { s.links with eth := v_lkEth } } = ob s) (t : ℕ) (s : State) :
    ob (endSession t s) = ob s := by
  unfold endSession
  repeat' first | with_reducible rfl | simp only [hob, ite_self, onTransport_keep ob (fun s v_scTr => hob s v_scTr s.links.eth), dropAnswers_keep ob (fun s v_lkEth => hob s s.scribe.transports v_lkEth)] | split | with_reducible refine (forEach_keep ob _ (fun _ _ => ?_) _ _).trans ?_ | with_reducible apply forEach_keep ob | with_reducible refine (foldl_keep ob _ (fun _ _ => ?_) _ _).trans ?_ | rw [apply_ite ob]

theorem onZone_keep {β : Type} (ob : State → β)
    (hob : ∀ (s : State) v_herder, ob { s with herder := v_herder } = ob s) (z : ℕ) (f : ZoneState → ZoneState) (s : State) :
    ob (onZone z f s) = ob s := by
  unfold onZone
  simp only [hob, ite_self]

theorem noteGap_keep {β : Type} (ob : State → β)
    (hob : ∀ (s : State) v_herder, ob { s with herder := v_herder } = ob s) (z : ℕ) (lost : ℕ) (cause : ℕ) (s : State) :
    ob (noteGap z lost cause s) = ob s := by
  unfold noteGap
  simp only [hob, ite_self, onZone_keep ob (fun s v_herder => hob s v_herder)]

theorem forgetWhere_keep {β : Type} (ob : State → β)
    (hob : ∀ (s : State) v_serif, ob { s with serif := v_serif } = ob s) (which : Piece → Bool) (s : State) :
    ob (forgetWhere which s) = ob s := by
  unfold forgetWhere
  repeat' first | with_reducible rfl | simp only [hob, ite_self] | split | with_reducible refine (forEach_keep ob _ (fun _ _ => ?_) _ _).trans ?_ | with_reducible apply forEach_keep ob | with_reducible refine (foldl_keep ob _ (fun _ _ => ?_) _ _).trans ?_ | rw [apply_ite ob]

theorem forgetPieces_keep {β : Type} (ob : State → β)
    (hob : ∀ (s : State) v_serif, ob { s with serif := v_serif } = ob s) (z : ℕ) (s : State) :
    ob (forgetPieces z s) = ob s := by
  unfold forgetPieces
  repeat' first | with_reducible rfl | simp only [hob, ite_self, forgetWhere_keep ob (fun s v_serif => hob s v_serif)] | split | with_reducible refine (forEach_keep ob _ (fun _ _ => ?_) _ _).trans ?_ | with_reducible apply forEach_keep ob | with_reducible refine (foldl_keep ob _ (fun _ _ => ?_) _ _).trans ?_ | rw [apply_ite ob]

theorem onPtr_keep {β : Type} (ob : State → β)
    (hob : ∀ (s : State) v_pointer, ob { s with pointer := v_pointer } = ob s) (f : Pointer → Pointer) (s : State) :
    ob (onPtr f s) = ob s := by
  unfold onPtr
  simp only [hob, ite_self]

theorem logAccrue_keep {β : Type} (ob : State → β)
    (hob : ∀ (s : State) v_log, ob { s with log := v_log } = ob s) (s : State) :
    ob (logAccrue  s) = ob s := by
  unfold logAccrue
  simp only [hob, ite_self]

theorem logWrite_keep {β : Type} (ob : State → β)
    (hob : ∀ (s : State) v_log v_links, ob { s with log := v_log, links := v_links } = ob s) (e : LogEntry) (s : State) :
    ob (logWrite e s) = ob s := by
  unfold logWrite
  repeat' first | simp only [hob, ite_self] | split

theorem logBudgeted_keep {β : Type} (ob : State → β)
    (hob : ∀ (s : State) v_params v_log v_links, ob { s with params := v_params, log := v_log, links := v_links } = ob s) (e : LogEntry) (s : State) :
    ob (logBudgeted e s) = ob s := by
  unfold logBudgeted
  repeat' first | simp only [hob, ite_self, logWrite_keep ob (fun s v_log v_links => hob s s.params v_log v_links), bump_keep ob (fun s v_params => hob s v_params s.log s.links)] | split

theorem logFlush_keep {β : Type} (ob : State → β)
    (hob : ∀ (s : State) v_params v_log v_links, ob { s with params := v_params, log := v_log, links := v_links } = ob s) (s : State) :
    ob (logFlush  s) = ob s := by
  unfold logFlush
  repeat' first | with_reducible rfl | simp only [hob, ite_self, logAccrue_keep ob (fun s v_log => hob s s.params v_log s.links), logBudgeted_keep ob (fun s v_params v_log v_links => hob s v_params v_log v_links)] | split | with_reducible refine (forEach_keep ob _ (fun _ _ => ?_) _ _).trans ?_ | with_reducible apply forEach_keep ob | with_reducible refine (foldl_keep ob _ (fun _ _ => ?_) _ _).trans ?_ | rw [apply_ite ob]

theorem logPost_keep {β : Type} (ob : State → β)
    (hob : ∀ (s : State) v_params v_log v_links, ob { s with params := v_params, log := v_log, links := v_links } = ob s) (e : LogEntry) (s : State) :
    ob (logPost e s) = ob s := by
  unfold logPost
  repeat' first | simp only [hob, ite_self, logFlush_keep ob (fun s v_params v_log v_links => hob s v_params v_log v_links)] | split

theorem onEth_keep {β : Type} (ob : State → β)
    (hob : ∀ (s : State) v_lkEth, ob { s with links := { s.links with eth := v_lkEth } } = ob s) (n : ℕ) (f : EthPort → EthPort) (s : State) :
    ob (onEth n f s) = ob s := by
  unfold onEth
  simp only [hob, ite_self]

theorem sendCarrier_keep {β : Type} (ob : State → β)
    (hob : ∀ (s : State) v_lkEth v_pairTx, ob { s with links := { s.links with eth := v_lkEth }, pair := { s.pair with tx := v_pairTx } } = ob s) (t : ℕ) (dest : ℕ) (ethPort : ℕ) (m : List Byte) (s : State) :
    ob (sendCarrier t dest ethPort m s) = ob s := by
  unfold sendCarrier
  repeat' first | simp only [hob, ite_self, onEth_keep ob (fun s v_lkEth => hob s v_lkEth s.pair.tx), segorSend_keep ob (fun s v_pairTx => hob s s.links.eth v_pairTx)] | split

theorem eventSend_keep {β : Type} (ob : State → β)
    (hob : ∀ (s : State) v_scTr v_lkEth v_pairTx, ob { s with scribe := { s.scribe with transports := v_scTr }, links := { s.links with eth := v_lkEth }, pair := { s.pair with tx := v_pairTx } } = ob s) (e : EventEntry) (t : ℕ) (s : State) :
    ob (eventSend e t s) = ob s := by
  unfold eventSend
  repeat' first | simp only [hob, ite_self, sendCarrier_keep ob (fun s v_lkEth v_pairTx => hob s s.scribe.transports v_lkEth v_pairTx), onTransport_keep ob (fun s v_scTr => hob s v_scTr s.links.eth s.pair.tx)] | split

theorem post_keep {β : Type} (ob : State → β)
    (hob : ∀ (s : State) v_params v_scPg v_scTr v_evq v_log v_links v_pairTx, ob { s with params := v_params, evq := v_evq, log := v_log, links := v_links, scribe := { s.scribe with page := v_scPg, transports := v_scTr }, pair := { s.pair with tx := v_pairTx } } = ob s) (code : ℕ) (a0 : ℤ) (a1 : ℤ) (a2 : ℤ) (s : State) :
    ob (post code a0 a1 a2 s) = ob s := by
  unfold post
  repeat' first | with_reducible rfl | simp only [hob, ite_self, evqWrite_keep ob (fun s v_params v_scPg v_evq v_lkMsix v_lkWake => hob s v_params v_scPg s.scribe.transports v_evq s.log { s.links with msix := v_lkMsix, peWake := v_lkWake } s.pair.tx), logPost_keep ob (fun s v_params v_log v_links => hob s v_params s.scribe.page s.scribe.transports s.evq v_log v_links s.pair.tx), eventSend_keep ob (fun s v_scTr v_lkEth v_pairTx => hob s s.params s.scribe.page v_scTr s.evq s.log { s.links with eth := v_lkEth } v_pairTx)] | split | with_reducible refine (forEach_keep ob _ (fun _ _ => ?_) _ _).trans ?_ | with_reducible apply forEach_keep ob | with_reducible refine (foldl_keep ob _ (fun _ _ => ?_) _ _).trans ?_ | rw [apply_ite ob]

theorem setRecord_keep {β : Type} (ob : State → β)
    (hob : ∀ (s : State) v_pointer, ob { s with pointer := v_pointer } = ob s) (r : EventRecord) (s : State) :
    ob (setRecord r s) = ob s := by
  unfold setRecord
  simp only [hob, ite_self, onPtr_keep ob (fun s v_pointer => hob s v_pointer)]

theorem endCollection_keep {β : Type} (ob : State → β)
    (hob : ∀ (s : State) v_params v_scPg v_scTr v_evq v_log v_pointer v_links v_pairTx, ob { s with params := v_params, evq := v_evq, log := v_log, pointer := v_pointer, links := v_links, scribe := { s.scribe with page := v_scPg, transports := v_scTr }, pair := { s.pair with tx := v_pairTx } } = ob s) (r : EventRecord) (s : State) :
    ob (endCollection r s) = ob s := by
  unfold endCollection
  repeat' first | simp only [hob, ite_self, post_keep ob (fun s v_params v_scPg v_scTr v_evq v_log v_links v_pairTx => hob s v_params v_scPg v_scTr v_evq v_log s.pointer v_links v_pairTx), setRecord_keep ob (fun s v_pointer => hob s s.params s.scribe.page s.scribe.transports s.evq s.log v_pointer s.links s.pair.tx)] | split

theorem updateMasterArm_keep {β : Type} (ob : State → β)
    (hob : ∀ (s : State) v_params v_scPg v_scTr v_evq v_log v_pointer v_links v_pairTx, ob { s with params := v_params, evq := v_evq, log := v_log, pointer := v_pointer, links := v_links, scribe := { s.scribe with page := v_scPg, transports := v_scTr }, pair := { s.pair with tx := v_pairTx } } = ob s) (cause : ℕ) (s : State) :
    ob (updateMasterArm cause s) = ob s := by
  unfold updateMasterArm
  repeat' first | simp only [hob, ite_self, post_keep ob (fun s v_params v_scPg v_scTr v_evq v_log v_links v_pairTx => hob s v_params v_scPg v_scTr v_evq v_log s.pointer v_links v_pairTx), onPtr_keep ob (fun s v_pointer => hob s s.params s.scribe.page s.scribe.transports s.evq s.log v_pointer s.links s.pair.tx)] | split

theorem onDomain_keep {β : Type} (ob : State → β)
    (hob : ∀ (s : State) v_time, ob { s with time := v_time } = ob s) (d : ℕ) (f : Domain → Domain) (s : State) :
    ob (onDomain d f s) = ob s := by
  unfold onDomain
  simp only [hob, ite_self]

theorem onTime_keep {β : Type} (ob : State → β)
    (hob : ∀ (s : State) v_time, ob { s with time := v_time } = ob s) (f : TimeUnit → TimeUnit) (s : State) :
    ob (onTime f s) = ob s := by
  unfold onTime
  simp only [hob, ite_self]

theorem onRaman_keep {β : Type} (ob : State → β)
    (hob : ∀ (s : State) v_raman, ob { s with raman := v_raman } = ob s) (p : ℕ) (f : Raman → Raman) (s : State) :
    ob (onRaman p f s) = ob s := by
  unfold onRaman
  simp only [hob, ite_self]

theorem answerSeq_keep {β : Type} (ob : State → β)
    (hob : ∀ (s : State) v_scTr, ob { s with scribe := { s.scribe with transports := v_scTr } } = ob s) (r : Request) (s : State) :
    ob (answerSeq r s).2.2 = ob s := by
  unfold answerSeq
  repeat' first | simp only [hob, ite_self, onTransport_keep ob (fun s v_scTr => hob s v_scTr)] | split

theorem sendAnswer_keep {β : Type} (ob : State → β)
    (hob : ∀ (s : State) v_scTr v_lkEth v_pairTx, ob { s with scribe := { s.scribe with transports := v_scTr }, links := { s.links with eth := v_lkEth }, pair := { s.pair with tx := v_pairTx } } = ob s) (r : Request) (holdsTag : Bool) (m : List Byte) (s : State) :
    ob (sendAnswer r holdsTag m s) = ob s := by
  unfold sendAnswer
  repeat' first | simp only [hob, ite_self, onTransport_keep ob (fun s v_scTr => hob s v_scTr s.links.eth s.pair.tx), sendCarrier_keep ob (fun s v_lkEth v_pairTx => hob s s.scribe.transports v_lkEth v_pairTx)] | split

theorem answerWith_keep {β : Type} (ob : State → β)
    (hob : ∀ (s : State) v_scTr v_lkEth v_pairTx, ob { s with scribe := { s.scribe with transports := v_scTr }, links := { s.links with eth := v_lkEth }, pair := { s.pair with tx := v_pairTx } } = ob s) (flags : ℕ) (holdsTag : Bool) (r : Request) (status : ℕ) (detail : ℕ) (body : List Byte) (s : State) :
    ob (answerWith flags holdsTag r status detail body s) = ob s := by
  unfold answerWith
  repeat' first | simp only [hob, ite_self, answerSeq_keep ob (fun s v_scTr => hob s v_scTr s.links.eth s.pair.tx), sendAnswer_keep ob (fun s v_scTr v_lkEth v_pairTx => hob s v_scTr v_lkEth v_pairTx), onTransport_keep ob (fun s v_scTr => hob s v_scTr s.links.eth s.pair.tx)] | split

theorem answer_keep {β : Type} (ob : State → β)
    (hob : ∀ (s : State) v_scTr v_lkEth v_pairTx, ob { s with scribe := { s.scribe with transports := v_scTr }, links := { s.links with eth := v_lkEth }, pair := { s.pair with tx := v_pairTx } } = ob s) (r : Request) (status : ℕ) (detail : ℕ) (body : List Byte) (s : State) :
    ob (answer r status detail body s) = ob s := by
  unfold answer
  repeat' first | simp only [hob, ite_self, answerWith_keep ob (fun s v_scTr v_lkEth v_pairTx => hob s v_scTr v_lkEth v_pairTx), onTransport_keep ob (fun s v_scTr => hob s v_scTr s.links.eth s.pair.tx)] | split

theorem refuse_keep {β : Type} (ob : State → β)
    (hob : ∀ (s : State) v_scTr v_lkEth v_pairTx, ob { s with scribe := { s.scribe with transports := v_scTr }, links := { s.links with eth := v_lkEth }, pair := { s.pair with tx := v_pairTx } } = ob s) (r : Request) (status : ℕ) (detail : ℕ) (s : State) :
    ob (refuse r status detail s) = ob s := by
  unfold refuse
  simp only [hob, ite_self, answer_keep ob (fun s v_scTr v_lkEth v_pairTx => hob s v_scTr v_lkEth v_pairTx)]

theorem journalOpen_keep {β : Type} (ob : State → β)
    (hob : ∀ (s : State) v_journal, ob { s with journal := v_journal } = ob s) (r : Request) (total : ℕ) (s : State) :
    ob (journalOpen r total s) = ob s := by
  unfold journalOpen
  simp only [hob, ite_self]

theorem withJournal_keep {β : Type} (ob : State → β)
    (hob : ∀ (s : State) v_journal, ob { s with journal := v_journal } = ob s) (r : Request) (total : ℕ) (f : ℕ → State → State) (hf : ∀ n s, ob (f n s) = ob s) (s : State) :
    ob (withJournal r total f s) = ob s := by
  unfold withJournal
  rw [hf]; simp only [hob, ite_self, journalOpen_keep ob (fun s v_journal => hob s v_journal)]

theorem onJournal_keep {β : Type} (ob : State → β)
    (hob : ∀ (s : State) v_journal, ob { s with journal := v_journal } = ob s) (n : ℕ) (f : JournalEntry → JournalEntry) (s : State) :
    ob (onJournal n f s) = ob s := by
  unfold onJournal
  simp only [hob, ite_self]

theorem journalStep_keep {β : Type} (ob : State → β)
    (hob : ∀ (s : State) v_journal, ob { s with journal := v_journal } = ob s) (n : ℕ) (s : State) :
    ob (journalStep n s) = ob s := by
  unfold journalStep
  simp only [hob, ite_self, onJournal_keep ob (fun s v_journal => hob s v_journal)]

theorem onSerif_keep {β : Type} (ob : State → β)
    (hob : ∀ (s : State) v_serif, ob { s with serif := v_serif } = ob s) (f : Serif → Serif) (s : State) :
    ob (onSerif f s) = ob s := by
  unfold onSerif
  simp only [hob, ite_self]

theorem journalEnd_keep {β : Type} (ob : State → β)
    (hob : ∀ (s : State) v_params v_scPg v_scTr v_evq v_journal v_log v_links v_pairTx, ob { s with params := v_params, evq := v_evq, journal := v_journal, log := v_log, links := v_links, scribe := { s.scribe with page := v_scPg, transports := v_scTr }, pair := { s.pair with tx := v_pairTx } } = ob s) (n : ℕ) (j : JState) (status : ℕ) (detail : ℕ) (s : State) :
    ob (journalEnd n j status detail s) = ob s := by
  unfold journalEnd
  repeat' first | simp only [hob, ite_self, post_keep ob (fun s v_params v_scPg v_scTr v_evq v_log v_links v_pairTx => hob s v_params v_scPg v_scTr v_evq s.journal v_log v_links v_pairTx), onJournal_keep ob (fun s v_journal => hob s s.params s.scribe.page s.scribe.transports s.evq v_journal s.log s.links s.pair.tx)] | split

theorem answerOk_keep {β : Type} (ob : State → β)
    (hob : ∀ (s : State) v_scTr v_lkEth v_pairTx, ob { s with scribe := { s.scribe with transports := v_scTr }, links := { s.links with eth := v_lkEth }, pair := { s.pair with tx := v_pairTx } } = ob s) (r : Request) (s : State) :
    ob (answerOk r s) = ob s := by
  unfold answerOk
  simp only [hob, ite_self, answer_keep ob (fun s v_scTr v_lkEth v_pairTx => hob s v_scTr v_lkEth v_pairTx)]

theorem onPair_keep {β : Type} (ob : State → β)
    (hob : ∀ (s : State) v_pair, ob { s with pair := v_pair } = ob s) (f : Pair → Pair) (s : State) :
    ob (onPair f s) = ob s := by
  unfold onPair
  simp only [hob, ite_self]

theorem tell_keep {β : Type} (ob : State → β)
    (hob : ∀ (s : State) v_params v_scPg v_scTr v_evq v_log v_links v_pairTx, ob { s with params := v_params, evq := v_evq, log := v_log, links := v_links, scribe := { s.scribe with page := v_scPg, transports := v_scTr }, pair := { s.pair with tx := v_pairTx } } = ob s) (code : ℕ) (a0 : ℤ) (a1 : ℤ) (a2 : ℤ) (s : State) :
    ob (tell code a0 a1 a2 s) = ob s := by
  unfold tell
  repeat' first | simp only [hob, ite_self, post_keep ob (fun s v_params v_scPg v_scTr v_evq v_log v_links v_pairTx => hob s v_params v_scPg v_scTr v_evq v_log v_links v_pairTx)] | split

theorem cutHandover_keep {β : Type} (ob : State → β)
    (hob : ∀ (s : State) v_params v_scPg v_scTr v_evq v_journal v_log v_links v_pair, ob { s with params := v_params, evq := v_evq, journal := v_journal, log := v_log, links := v_links, pair := v_pair, scribe := { s.scribe with page := v_scPg, transports := v_scTr } } = ob s) (status : ℕ) (s : State) :
    ob (cutHandover status s) = ob s := by
  unfold cutHandover
  repeat' first | simp only [hob, ite_self, journalEnd_keep ob (fun s v_params v_scPg v_scTr v_evq v_journal v_log v_links v_pairTx => hob s v_params v_scPg v_scTr v_evq v_journal v_log v_links { s.pair with tx := v_pairTx }), refuse_keep ob (fun s v_scTr v_lkEth v_pairTx => hob s s.params s.scribe.page v_scTr s.evq s.journal s.log { s.links with eth := v_lkEth } { s.pair with tx := v_pairTx }), onPair_keep ob (fun s v_pair => hob s s.params s.scribe.page s.scribe.transports s.evq s.journal s.log s.links v_pair)] | split

theorem onMode_keep {β : Type} (ob : State → β)
    (hob : ∀ (s : State) v_mode, ob { s with mode := v_mode } = ob s) (f : ModeState → ModeState) (s : State) :
    ob (onMode f s) = ob s := by
  unfold onMode
  simp only [hob, ite_self]

theorem stopDriving_keep {β : Type} (ob : State → β)
    (hob : ∀ (s : State) v_pair, ob { s with pair := v_pair } = ob s) (s : State) :
    ob (stopDriving  s) = ob s := by
  unfold stopDriving
  simp only [hob, ite_self, onPair_keep ob (fun s v_pair => hob s v_pair)]

theorem startDriving_keep {β : Type} (ob : State → β)
    (hob : ∀ (s : State) v_pair, ob { s with pair := v_pair } = ob s) (s : State) :
    ob (startDriving  s) = ob s := by
  unfold startDriving
  repeat' first | simp only [hob, ite_self, onPair_keep ob (fun s v_pair => hob s v_pair)] | split

theorem modeLeash_keep {β : Type} (ob : State → β)
    (hob : ∀ (s : State) v_pair, ob { s with pair := v_pair } = ob s) (s : State) :
    ob (modeLeash  s) = ob s := by
  unfold modeLeash
  repeat' first | simp only [hob, ite_self, stopDriving_keep ob (fun s v_pair => hob s v_pair), startDriving_keep ob (fun s v_pair => hob s v_pair)] | split

theorem onSafety_keep {β : Type} (ob : State → β)
    (hob : ∀ (s : State) v_safety, ob { s with safety := v_safety } = ob s) (f : Safety → Safety) (s : State) :
    ob (onSafety f s) = ob s := by
  unfold onSafety
  simp only [hob, ite_self]

theorem relight_keep {β : Type} (ob : State → β)
    (hob : ∀ (s : State) v_safety, ob { s with safety := v_safety } = ob s) (s : State) :
    ob (relight  s) = ob s := by
  unfold relight
  simp only [hob, ite_self, onSafety_keep ob (fun s v_safety => hob s v_safety)]

theorem onPort_keep {β : Type} (ob : State → β)
    (hob : ∀ (s : State) v_ports, ob { s with ports := v_ports } = ob s) (p : ℕ) (f : PortState → PortState) (s : State) :
    ob (onPort p f s) = ob s := by
  unfold onPort
  simp only [hob, ite_self]

theorem markLost_keep {β : Type} (ob : State → β)
    (hob : ∀ (s : State) v_params v_ports, ob { s with params := v_params, ports := v_ports } = ob s) (p : ℕ) (round : ℕ) (s : State) :
    ob (markLost p round s) = ob s := by
  unfold markLost
  simp only [hob, ite_self, bump_keep ob (fun s v_params => hob s v_params s.ports), onPort_keep ob (fun s v_ports => hob s s.params v_ports)]

theorem ramanUnlaunch_keep {β : Type} (ob : State → β)
    (hob : ∀ (s : State) v_raman, ob { s with raman := v_raman } = ob s) (p : Nat) (s : State) :
    ob (ramanUnlaunch p s) = ob s := by
  unfold ramanUnlaunch
  repeat' first | with_reducible rfl | simp only [hob, ite_self, onRaman_keep ob (fun s v_raman => hob s v_raman)] | split | with_reducible refine (forEach_keep ob _ (fun _ _ => ?_) _ _).trans ?_ | with_reducible apply forEach_keep ob | with_reducible refine (foldl_keep ob _ (fun _ _ => ?_) _ _).trans ?_ | rw [apply_ite ob]

theorem cutPulse_keep {β : Type} (ob : State → β)
    (hob : ∀ (s : State) v_ports v_raman, ob { s with ports := v_ports, raman := v_raman } = ob s) (p : Nat) (s : State) :
    ob (cutPulse p s) = ob s := by
  unfold cutPulse
  repeat' first | with_reducible rfl | simp only [hob, ite_self, onPort_keep ob (fun s v_ports => hob s v_ports s.raman), ramanUnlaunch_keep ob (fun s v_raman => hob s s.ports v_raman)] | split | with_reducible refine (forEach_keep ob _ (fun _ _ => ?_) _ _).trans ?_ | with_reducible apply forEach_keep ob | with_reducible refine (foldl_keep ob _ (fun _ _ => ?_) _ _).trans ?_ | rw [apply_ite ob]

theorem cutPort_keep {β : Type} (ob : State → β)
    (hob : ∀ (s : State) v_params v_ports v_raman, ob { s with params := v_params, ports := v_ports, raman := v_raman } = ob s) (lead : Nat → Bool) (p : Nat) (s : State) :
    ob (cutPort lead p s) = ob s := by
  unfold cutPort
  repeat' first | with_reducible rfl | simp only [hob, ite_self, markLost_keep ob (fun s v_params v_ports => hob s v_params v_ports s.raman), onPort_keep ob (fun s v_ports => hob s s.params v_ports s.raman), cutPulse_keep ob (fun s v_ports v_raman => hob s s.params v_ports v_raman)] | split | with_reducible refine (forEach_keep ob _ (fun _ _ => ?_) _ _).trans ?_ | with_reducible apply forEach_keep ob | with_reducible refine (foldl_keep ob _ (fun _ _ => ?_) _ _).trans ?_ | rw [apply_ite ob]

theorem settle_keep {β : Type} (ob : State → β)
    (hob : ∀ (s : State) v_params v_ports v_raman v_safety, ob { s with params := v_params, ports := v_ports, raman := v_raman, safety := v_safety } = ob s) (old : State) (s : State) :
    ob (settle old s) = ob s := by
  unfold settle
  repeat' first | with_reducible rfl | simp only [hob, ite_self, relight_keep ob (fun s v_safety => hob s s.params s.ports s.raman v_safety), cutPort_keep ob (fun s v_params v_ports v_raman => hob s v_params v_ports v_raman s.safety)] | split | with_reducible refine (forEach_keep ob _ (fun _ _ => ?_) _ _).trans ?_ | with_reducible apply forEach_keep ob | with_reducible refine (foldl_keep ob _ (fun _ _ => ?_) _ _).trans ?_ | rw [apply_ite ob]

theorem onInk_keep {β : Type} (ob : State → β)
    (hob : ∀ (s : State) v_inkstone, ob { s with inkstone := v_inkstone } = ob s) (f : Inkstone → Inkstone) (s : State) :
    ob (onInk f s) = ob s := by
  unfold onInk
  simp only [hob, ite_self]

theorem scheduleJobs_keep {β : Type} (ob : State → β)
    (hob : ∀ (s : State) v_inkstone, ob { s with inkstone := v_inkstone } = ob s) (s : State) :
    ob (scheduleJobs  s) = ob s := by
  unfold scheduleJobs
  simp only [hob, ite_self, onInk_keep ob (fun s v_inkstone => hob s v_inkstone)]

theorem endJob_keep {β : Type} (ob : State → β)
    (hob : ∀ (s : State) v_params v_scPg v_scTr v_evq v_journal v_log v_inkstone v_links v_pairTx, ob { s with params := v_params, evq := v_evq, journal := v_journal, log := v_log, inkstone := v_inkstone, links := v_links, scribe := { s.scribe with page := v_scPg, transports := v_scTr }, pair := { s.pair with tx := v_pairTx } } = ob s) (i : ℕ) (reason : ℕ) (s : State) :
    ob (endJob i reason s) = ob s := by
  unfold endJob
  repeat' first | simp only [hob, ite_self, scheduleJobs_keep ob (fun s v_inkstone => hob s s.params s.scribe.page s.scribe.transports s.evq s.journal s.log v_inkstone s.links s.pair.tx), onInk_keep ob (fun s v_inkstone => hob s s.params s.scribe.page s.scribe.transports s.evq s.journal s.log v_inkstone s.links s.pair.tx), bump_keep ob (fun s v_params => hob s v_params s.scribe.page s.scribe.transports s.evq s.journal s.log s.inkstone s.links s.pair.tx), onJournal_keep ob (fun s v_journal => hob s s.params s.scribe.page s.scribe.transports s.evq v_journal s.log s.inkstone s.links s.pair.tx), journalEnd_keep ob (fun s v_params v_scPg v_scTr v_evq v_journal v_log v_links v_pairTx => hob s v_params v_scPg v_scTr v_evq v_journal v_log s.inkstone v_links v_pairTx)] | split

theorem endJobs_keep {β : Type} (ob : State → β)
    (hob : ∀ (s : State) v_params v_scPg v_scTr v_evq v_journal v_log v_inkstone v_links v_pairTx, ob { s with params := v_params, evq := v_evq, journal := v_journal, log := v_log, inkstone := v_inkstone, links := v_links, scribe := { s.scribe with page := v_scPg, transports := v_scTr }, pair := { s.pair with tx := v_pairTx } } = ob s) (f : ReplayJob → Bool) (reason : ℕ) (s : State) :
    ob (endJobs f reason s) = ob s := by
  unfold endJobs
  repeat' first | with_reducible rfl | simp only [hob, ite_self, endJob_keep ob (fun s v_params v_scPg v_scTr v_evq v_journal v_log v_inkstone v_links v_pairTx => hob s v_params v_scPg v_scTr v_evq v_journal v_log v_inkstone v_links v_pairTx)] | split | with_reducible refine (forEach_keep ob _ (fun _ _ => ?_) _ _).trans ?_ | with_reducible apply forEach_keep ob | with_reducible refine (foldl_keep ob _ (fun _ _ => ?_) _ _).trans ?_ | rw [apply_ite ob]

theorem setMode_keep {β : Type} (ob : State → β)
    (hob : ∀ (s : State) v_mode v_params v_scPg v_scTr v_evq v_journal v_log v_ports v_raman v_pointer v_inkstone v_links v_pair v_safety, ob { s with mode := v_mode, params := v_params, evq := v_evq, journal := v_journal, log := v_log, ports := v_ports, raman := v_raman, pointer := v_pointer, inkstone := v_inkstone, links := v_links, pair := v_pair, safety := v_safety, scribe := { s.scribe with page := v_scPg, transports := v_scTr } } = ob s) (m : Mode) (n : ℕ) (s : State) :
    ob (setMode m n s) = ob s := by
  unfold setMode
  repeat' first | simp only [hob, ite_self, onMode_keep ob (fun s v_mode => hob s v_mode s.params s.scribe.page s.scribe.transports s.evq s.journal s.log s.ports s.raman s.pointer s.inkstone s.links s.pair s.safety), modeLeash_keep ob (fun s v_pair => hob s s.mode s.params s.scribe.page s.scribe.transports s.evq s.journal s.log s.ports s.raman s.pointer s.inkstone s.links v_pair s.safety), onSafety_keep ob (fun s v_safety => hob s s.mode s.params s.scribe.page s.scribe.transports s.evq s.journal s.log s.ports s.raman s.pointer s.inkstone s.links s.pair v_safety), settle_keep ob (fun s v_params v_ports v_raman v_safety => hob s s.mode v_params s.scribe.page s.scribe.transports s.evq s.journal s.log v_ports v_raman s.pointer s.inkstone s.links s.pair v_safety), bump_keep ob (fun s v_params => hob s s.mode v_params s.scribe.page s.scribe.transports s.evq s.journal s.log s.ports s.raman s.pointer s.inkstone s.links s.pair s.safety), endJobs_keep ob (fun s v_params v_scPg v_scTr v_evq v_journal v_log v_inkstone v_links v_pairTx => hob s s.mode v_params v_scPg v_scTr v_evq v_journal v_log s.ports s.raman s.pointer v_inkstone v_links { s.pair with tx := v_pairTx } s.safety), onPtr_keep ob (fun s v_pointer => hob s s.mode s.params s.scribe.page s.scribe.transports s.evq s.journal s.log s.ports s.raman v_pointer s.inkstone s.links s.pair s.safety), updateMasterArm_keep ob (fun s v_params v_scPg v_scTr v_evq v_log v_pointer v_links v_pairTx => hob s s.mode v_params v_scPg v_scTr v_evq s.journal v_log s.ports s.raman v_pointer s.inkstone v_links { s.pair with tx := v_pairTx } s.safety), post_keep ob (fun s v_params v_scPg v_scTr v_evq v_log v_links v_pairTx => hob s s.mode v_params v_scPg v_scTr v_evq s.journal v_log s.ports s.raman s.pointer s.inkstone v_links { s.pair with tx := v_pairTx } s.safety)] | split

theorem endOrigin_keep {β : Type} (ob : State → β)
    (hob : ∀ (s : State) v_params v_scPg v_scTr v_evq v_journal v_log v_links v_pairTx, ob { s with params := v_params, evq := v_evq, journal := v_journal, log := v_log, links := v_links, scribe := { s.scribe with page := v_scPg, transports := v_scTr }, pair := { s.pair with tx := v_pairTx } } = ob s) (t : Transition) (j : JState) (status : ℕ) (detail : ℕ) (s : State) :
    ob (endOrigin t j status detail s) = ob s := by
  unfold endOrigin
  repeat' first | simp only [hob, ite_self, journalEnd_keep ob (fun s v_params v_scPg v_scTr v_evq v_journal v_log v_links v_pairTx => hob s v_params v_scPg v_scTr v_evq v_journal v_log v_links v_pairTx), journalStep_keep ob (fun s v_journal => hob s s.params s.scribe.page s.scribe.transports s.evq v_journal s.log s.links s.pair.tx)] | split

theorem interruptTransition_keep {β : Type} (ob : State → β)
    (hob : ∀ (s : State) v_mode v_params v_scPg v_scTr v_evq v_journal v_log v_ports v_links v_pairTx, ob { s with mode := v_mode, params := v_params, evq := v_evq, journal := v_journal, log := v_log, ports := v_ports, links := v_links, scribe := { s.scribe with page := v_scPg, transports := v_scTr }, pair := { s.pair with tx := v_pairTx } } = ob s) (status : ℕ) (s : State) :
    ob (interruptTransition status s) = ob s := by
  unfold interruptTransition
  repeat' first | simp only [hob, ite_self, endOrigin_keep ob (fun s v_params v_scPg v_scTr v_evq v_journal v_log v_links v_pairTx => hob s s.mode v_params v_scPg v_scTr v_evq v_journal v_log s.ports v_links v_pairTx), onMode_keep ob (fun s v_mode => hob s v_mode s.params s.scribe.page s.scribe.transports s.evq s.journal s.log s.ports s.links s.pair.tx)] | split

theorem wakePorts_keep {β : Type} (ob : State → β)
    (hob : ∀ (s : State) v_ports, ob { s with ports := v_ports } = ob s) (s : State) :
    ob (wakePorts  s) = ob s := by
  unfold wakePorts
  simp only [hob, ite_self]

theorem enterMirror_keep {β : Type} (ob : State → β)
    (hob : ∀ (s : State) v_mode v_params v_scPg v_scTr v_evq v_journal v_log v_ports v_raman v_pointer v_inkstone v_links v_pair v_safety, ob { s with mode := v_mode, params := v_params, evq := v_evq, journal := v_journal, log := v_log, ports := v_ports, raman := v_raman, pointer := v_pointer, inkstone := v_inkstone, links := v_links, pair := v_pair, safety := v_safety, scribe := { s.scribe with page := v_scPg, transports := v_scTr } } = ob s) (n : ℕ) (s : State) :
    ob (enterMirror n s) = ob s := by
  unfold enterMirror
  simp only [hob, ite_self, onPair_keep ob (fun s v_pair => hob s s.mode s.params s.scribe.page s.scribe.transports s.evq s.journal s.log s.ports s.raman s.pointer s.inkstone s.links v_pair s.safety), wakePorts_keep ob (fun s v_ports => hob s s.mode s.params s.scribe.page s.scribe.transports s.evq s.journal s.log v_ports s.raman s.pointer s.inkstone s.links s.pair s.safety), setMode_keep ob (fun s v_mode v_params v_scPg v_scTr v_evq v_journal v_log v_ports v_raman v_pointer v_inkstone v_links v_pair v_safety => hob s v_mode v_params v_scPg v_scTr v_evq v_journal v_log v_ports v_raman v_pointer v_inkstone v_links v_pair v_safety)]

theorem returnMirror_keep {β : Type} (ob : State → β)
    (hob : ∀ (s : State) v_mode v_params v_scPg v_scTr v_evq v_journal v_log v_ports v_raman v_pointer v_inkstone v_links v_pair v_safety, ob { s with mode := v_mode, params := v_params, evq := v_evq, journal := v_journal, log := v_log, ports := v_ports, raman := v_raman, pointer := v_pointer, inkstone := v_inkstone, links := v_links, pair := v_pair, safety := v_safety, scribe := { s.scribe with page := v_scPg, transports := v_scTr } } = ob s) (s : State) :
    ob (returnMirror  s) = ob s := by
  unfold returnMirror
  simp only [hob, ite_self, enterMirror_keep ob (fun s v_mode v_params v_scPg v_scTr v_evq v_journal v_log v_ports v_raman v_pointer v_inkstone v_links v_pair v_safety => hob s v_mode v_params v_scPg v_scTr v_evq v_journal v_log v_ports v_raman v_pointer v_inkstone v_links v_pair v_safety), cutHandover_keep ob (fun s v_params v_scPg v_scTr v_evq v_journal v_log v_links v_pair => hob s s.mode v_params v_scPg v_scTr v_evq v_journal v_log s.ports s.raman s.pointer s.inkstone v_links v_pair s.safety), stopDriving_keep ob (fun s v_pair => hob s s.mode s.params s.scribe.page s.scribe.transports s.evq s.journal s.log s.ports s.raman s.pointer s.inkstone s.links v_pair s.safety)]

end Sys2Proof.Machine
end

