-- ==== Sys2Proof/Laws/Keep2.lean ====
section
/-! SUPPORT. What the shared operations leave alone, continued: one `f_keep` for each, as in Laws/Keep1.lean. -/

set_option linter.unusedSimpArgs false
set_option linter.unreachableTactic false
set_option linter.unusedTactic false

namespace Sys2Proof.Machine

theorem takeDrive_keep {β : Type} (ob : State → β)
    (hob : ∀ (s : State) v_pair, ob { s with pair := v_pair } = ob s) (s : State) :
    ob (takeDrive  s) = ob s := by
  unfold takeDrive
  simp only [hob, ite_self, startDriving_keep ob (fun s v_pair => hob s v_pair), onPair_keep ob (fun s v_pair => hob s v_pair)]

theorem beginTake_keep {β : Type} (ob : State → β)
    (hob : ∀ (s : State) v_mode v_params v_scPg v_scTr v_evq v_journal v_log v_ports v_raman v_pointer v_inkstone v_links v_pair v_safety, ob { s with mode := v_mode, params := v_params, evq := v_evq, journal := v_journal, log := v_log, ports := v_ports, raman := v_raman, pointer := v_pointer, inkstone := v_inkstone, links := v_links, pair := v_pair, safety := v_safety, scribe := { s.scribe with page := v_scPg, transports := v_scTr } } = ob s) (cause : ℕ) (planned : Bool) (host : Bool) (s : State) :
    ob (beginTake cause planned host s) = ob s := by
  unfold beginTake
  repeat' first | simp only [hob, ite_self, interruptTransition_keep ob (fun s v_mode v_params v_scPg v_scTr v_evq v_journal v_log v_ports v_links v_pairTx => hob s v_mode v_params v_scPg v_scTr v_evq v_journal v_log v_ports s.raman s.pointer s.inkstone v_links { s.pair with tx := v_pairTx } s.safety), onPair_keep ob (fun s v_pair => hob s s.mode s.params s.scribe.page s.scribe.transports s.evq s.journal s.log s.ports s.raman s.pointer s.inkstone s.links v_pair s.safety), tell_keep ob (fun s v_params v_scPg v_scTr v_evq v_log v_links v_pairTx => hob s s.mode v_params v_scPg v_scTr v_evq s.journal v_log s.ports s.raman s.pointer s.inkstone v_links { s.pair with tx := v_pairTx } s.safety), setMode_keep ob (fun s v_mode v_params v_scPg v_scTr v_evq v_journal v_log v_ports v_raman v_pointer v_inkstone v_links v_pair v_safety => hob s v_mode v_params v_scPg v_scTr v_evq v_journal v_log v_ports v_raman v_pointer v_inkstone v_links v_pair v_safety), returnMirror_keep ob (fun s v_mode v_params v_scPg v_scTr v_evq v_journal v_log v_ports v_raman v_pointer v_inkstone v_links v_pair v_safety => hob s v_mode v_params v_scPg v_scTr v_evq v_journal v_log v_ports v_raman v_pointer v_inkstone v_links v_pair v_safety), takeDrive_keep ob (fun s v_pair => hob s s.mode s.params s.scribe.page s.scribe.transports s.evq s.journal s.log s.ports s.raman s.pointer s.inkstone s.links v_pair s.safety)] | split

theorem autoTake_keep {β : Type} (ob : State → β)
    (hob : ∀ (s : State) v_mode v_params v_scPg v_scTr v_evq v_journal v_log v_ports v_raman v_pointer v_inkstone v_links v_pair v_safety, ob { s with mode := v_mode, params := v_params, evq := v_evq, journal := v_journal, log := v_log, ports := v_ports, raman := v_raman, pointer := v_pointer, inkstone := v_inkstone, links := v_links, pair := v_pair, safety := v_safety, scribe := { s.scribe with page := v_scPg, transports := v_scTr } } = ob s) (cause : ℕ) (s : State) :
    ob (autoTake cause s) = ob s := by
  unfold autoTake
  repeat' first | simp only [hob, ite_self, beginTake_keep ob (fun s v_mode v_params v_scPg v_scTr v_evq v_journal v_log v_ports v_raman v_pointer v_inkstone v_links v_pair v_safety => hob s v_mode v_params v_scPg v_scTr v_evq v_journal v_log v_ports v_raman v_pointer v_inkstone v_links v_pair v_safety)] | split

theorem onDram_keep {β : Type} (ob : State → β)
    (hob : ∀ (s : State) v_memory, ob { s with memory := v_memory } = ob s) (a : ℕ) (f : DramPort → DramPort) (s : State) :
    ob (onDram a f s) = ob s := by
  unfold onDram
  simp only [hob, ite_self]

theorem dramTrain_keep {β : Type} (ob : State → β)
    (hob : ∀ (s : State) v_memory, ob { s with memory := v_memory } = ob s) (a : ℕ) (held : Bool) (rate : ℕ) (s : State) :
    ob (dramTrain a held rate s) = ob s := by
  unfold dramTrain
  simp only [hob, ite_self, onDram_keep ob (fun s v_memory => hob s v_memory)]

theorem writeRate_keep {β : Type} (ob : State → β)
    (hob : ∀ (s : State) v_params v_memory, ob { s with params := v_params, memory := v_memory } = ob s) (a : ℕ) (rate : ℕ) (s : State) :
    ob (writeRate a rate s) = ob s := by
  unfold writeRate
  repeat' first | simp only [hob, ite_self, paramPut_keep ob (fun s v_params => hob s v_params s.memory), onDram_keep ob (fun s v_memory => hob s s.params v_memory), dramTrain_keep ob (fun s v_memory => hob s s.params v_memory)] | split

theorem onCal_keep {β : Type} (ob : State → β)
    (hob : ∀ (s : State) v_calib, ob { s with calib := v_calib } = ob s) (f : Calib → Calib) (s : State) :
    ob (onCal f s) = ob s := by
  unfold onCal
  simp only [hob, ite_self]

theorem onItem_keep {β : Type} (ob : State → β)
    (hob : ∀ (s : State) v_calib, ob { s with calib := v_calib } = ob s) (item : ℕ) (index : ℕ) (f : CalItem → CalItem) (s : State) :
    ob (onItem item index f s) = ob s := by
  unfold onItem
  simp only [hob, ite_self, onCal_keep ob (fun s v_calib => hob s v_calib)]

theorem calAccept_keep {β : Type} (ob : State → β)
    (hob : ∀ (s : State) v_calib, ob { s with calib := v_calib } = ob s) (item : ℕ) (index : ℕ) (fields : List ℤ) (s : State) :
    ob (calAccept item index fields s) = ob s := by
  unfold calAccept
  simp only [hob, ite_self, onItem_keep ob (fun s v_calib => hob s v_calib)]

theorem calReject_keep {β : Type} (ob : State → β)
    (hob : ∀ (s : State) v_params v_scPg v_scTr v_evq v_log v_links v_pairTx v_calib, ob { s with params := v_params, evq := v_evq, log := v_log, links := v_links, calib := v_calib, scribe := { s.scribe with page := v_scPg, transports := v_scTr }, pair := { s.pair with tx := v_pairTx } } = ob s) (item : ℕ) (index : ℕ) (field : ℕ) (value : ℤ) (s : State) :
    ob (calReject item index field value s) = ob s := by
  unfold calReject
  simp only [hob, ite_self, onItem_keep ob (fun s v_calib => hob s s.params s.scribe.page s.scribe.transports s.evq s.log s.links s.pair.tx v_calib), post_keep ob (fun s v_params v_scPg v_scTr v_evq v_log v_links v_pairTx => hob s v_params v_scPg v_scTr v_evq v_log v_links v_pairTx s.calib), bump_keep ob (fun s v_params => hob s v_params s.scribe.page s.scribe.transports s.evq s.log s.links s.pair.tx s.calib), onCal_keep ob (fun s v_calib => hob s s.params s.scribe.page s.scribe.transports s.evq s.log s.links s.pair.tx v_calib)]

theorem drawFree_keep {β : Type} (ob : State → β)
    (hob : ∀ (s : State) v_free, ob { s with free := v_free } = ob s) (s : State) :
    ob (drawFree  s).2 = ob s := by
  unfold drawFree
  simp only [hob, ite_self]

theorem onQueue_keep {β : Type} (ob : State → β)
    (hob : ∀ (s : State) v_links, ob { s with links := v_links } = ob s) (q : ℕ) (f : OutQueue → OutQueue) (s : State) :
    ob (onQueue q f s) = ob s := by
  unfold onQueue
  simp only [hob, ite_self]

theorem dropItems_keep {β : Type} (ob : State → β)
    (hob : ∀ (s : State) v_params v_scPg v_scTr v_evq v_log v_links v_pairTx, ob { s with params := v_params, evq := v_evq, log := v_log, links := v_links, scribe := { s.scribe with page := v_scPg, transports := v_scTr }, pair := { s.pair with tx := v_pairTx } } = ob s) (q : ℕ) (n : ℕ) (cause : ℕ) (s : State) :
    ob (dropItems q n cause s) = ob s := by
  unfold dropItems
  repeat' first | simp only [hob, ite_self, raiseVector_keep ob (fun s v_lkMsix v_lkWake => hob s s.params s.scribe.page s.scribe.transports s.evq s.log { s.links with msix := v_lkMsix, peWake := v_lkWake } s.pair.tx), bumpBy_keep ob (fun s v_params => hob s v_params s.scribe.page s.scribe.transports s.evq s.log s.links s.pair.tx), onQueue_keep ob (fun s v_links => hob s s.params s.scribe.page s.scribe.transports s.evq s.log v_links s.pair.tx), post_keep ob (fun s v_params v_scPg v_scTr v_evq v_log v_links v_pairTx => hob s v_params v_scPg v_scTr v_evq v_log v_links v_pairTx)] | split

theorem stageItem_keep {β : Type} (ob : State → β)
    (hob : ∀ (s : State) v_params v_scPg v_scTr v_evq v_log v_links v_pairTx, ob { s with params := v_params, evq := v_evq, log := v_log, links := v_links, scribe := { s.scribe with page := v_scPg, transports := v_scTr }, pair := { s.pair with tx := v_pairTx } } = ob s) (q : ℕ) (type : ℕ) (bytes : List Byte) (s : State) :
    ob (stageItem q type bytes s) = ob s := by
  unfold stageItem
  repeat' first | simp only [hob, ite_self, onQueue_keep ob (fun s v_links => hob s s.params s.scribe.page s.scribe.transports s.evq s.log v_links s.pair.tx), dropItems_keep ob (fun s v_params v_scPg v_scTr v_evq v_log v_links v_pairTx => hob s v_params v_scPg v_scTr v_evq v_log v_links v_pairTx)] | split

theorem sendFrame_keep {β : Type} (ob : State → β)
    (hob : ∀ (s : State) v_params v_scPg v_scTr v_evq v_log v_herder v_links v_pairTx, ob { s with params := v_params, evq := v_evq, log := v_log, herder := v_herder, links := v_links, scribe := { s.scribe with page := v_scPg, transports := v_scTr }, pair := { s.pair with tx := v_pairTx } } = ob s) (b : Bank) (z : ℕ) (flags : ℕ) (time : NetTime) (round : ℕ) (cell : ℕ) (count : ℕ) (epoch : ℕ) (payload : List Byte) (s : State) :
    ob (sendFrame b z flags time round cell count epoch payload s) = ob s := by
  unfold sendFrame
  repeat' first | simp only [hob, ite_self, onZone_keep ob (fun s v_herder => hob s s.params s.scribe.page s.scribe.transports s.evq s.log v_herder s.links s.pair.tx), stageItem_keep ob (fun s v_params v_scPg v_scTr v_evq v_log v_links v_pairTx => hob s v_params v_scPg v_scTr v_evq v_log s.herder v_links v_pairTx), bump_keep ob (fun s v_params => hob s v_params s.scribe.page s.scribe.transports s.evq s.log s.herder s.links s.pair.tx)] | split

theorem gapToPointer_keep {β : Type} (ob : State → β)
    (hob : ∀ (s : State) v_pointer, ob { s with pointer := v_pointer } = ob s) (z : ℕ) (round : ℕ) (ns : ℕ) (s : State) :
    ob (gapToPointer z round ns s) = ob s := by
  unfold gapToPointer
  simp only [hob, ite_self]

theorem sendGap_keep {β : Type} (ob : State → β)
    (hob : ∀ (s : State) v_params v_scPg v_scTr v_evq v_log v_herder v_pointer v_links v_pairTx, ob { s with params := v_params, evq := v_evq, log := v_log, herder := v_herder, pointer := v_pointer, links := v_links, scribe := { s.scribe with page := v_scPg, transports := v_scTr }, pair := { s.pair with tx := v_pairTx } } = ob s) (b : Bank) (z : ℕ) (t : Shot) (s : State) :
    ob (sendGap b z t s) = ob s := by
  unfold sendGap
  repeat' first | simp only [hob, ite_self, onZone_keep ob (fun s v_herder => hob s s.params s.scribe.page s.scribe.transports s.evq s.log v_herder s.pointer s.links s.pair.tx), sendFrame_keep ob (fun s v_params v_scPg v_scTr v_evq v_log v_herder v_links v_pairTx => hob s v_params v_scPg v_scTr v_evq v_log v_herder s.pointer v_links v_pairTx), gapToPointer_keep ob (fun s v_pointer => hob s s.params s.scribe.page s.scribe.transports s.evq s.log s.herder v_pointer s.links s.pair.tx)] | split

theorem countBlock_keep {β : Type} (ob : State → β)
    (hob : ∀ (s : State) v_params v_scPg v_scTr v_evq v_log v_inkstone v_links v_pairTx, ob { s with params := v_params, evq := v_evq, log := v_log, inkstone := v_inkstone, links := v_links, scribe := { s.scribe with page := v_scPg, transports := v_scTr }, pair := { s.pair with tx := v_pairTx } } = ob s) (stream : ℕ) (seq : ℕ) (e : Encoded) (selfCheck : Bool) (s : State) :
    ob (countBlock stream seq e selfCheck s) = ob s := by
  unfold countBlock
  repeat' first | simp only [hob, ite_self, bump_keep ob (fun s v_params => hob s v_params s.scribe.page s.scribe.transports s.evq s.log s.inkstone s.links s.pair.tx), onInk_keep ob (fun s v_inkstone => hob s s.params s.scribe.page s.scribe.transports s.evq s.log v_inkstone s.links s.pair.tx), post_keep ob (fun s v_params v_scPg v_scTr v_evq v_log v_links v_pairTx => hob s v_params v_scPg v_scTr v_evq v_log s.inkstone v_links v_pairTx)] | split

theorem countStream_keep {β : Type} (ob : State → β)
    (hob : ∀ (s : State) v_params v_scPg v_scTr v_evq v_log v_inkstone v_links v_pairTx, ob { s with params := v_params, evq := v_evq, log := v_log, inkstone := v_inkstone, links := v_links, scribe := { s.scribe with page := v_scPg, transports := v_scTr }, pair := { s.pair with tx := v_pairTx } } = ob s) (stream : ℕ) (es : List Encoded) (selfCheck : Bool) (s : State) :
    ob (countStream stream es selfCheck s) = ob s := by
  unfold countStream
  repeat' first | with_reducible rfl | simp only [hob, ite_self, countBlock_keep ob (fun s v_params v_scPg v_scTr v_evq v_log v_inkstone v_links v_pairTx => hob s v_params v_scPg v_scTr v_evq v_log v_inkstone v_links v_pairTx)] | split | with_reducible refine (forEach_keep ob _ (fun _ _ => ?_) _ _).trans ?_ | with_reducible apply forEach_keep ob | with_reducible refine (foldl_keep ob _ (fun _ _ => ?_) _ _).trans ?_ | rw [apply_ite ob]

theorem sendPart_keep {β : Type} (ob : State → β)
    (hob : ∀ (s : State) v_params v_scPg v_scTr v_evq v_log v_herder v_inkstone v_links v_pairTx, ob { s with params := v_params, evq := v_evq, log := v_log, herder := v_herder, inkstone := v_inkstone, links := v_links, scribe := { s.scribe with page := v_scPg, transports := v_scTr }, pair := { s.pair with tx := v_pairTx } } = ob s) (b : Bank) (z : ℕ) (flags : ℕ) (t : Shot) (selfCheck : Bool) (first : ℕ) (part : List Byte) (s : State) :
    ob (sendPart b z flags t selfCheck first part s) = ob s := by
  unfold sendPart
  repeat' first | simp only [hob, ite_self, sendFrame_keep ob (fun s v_params v_scPg v_scTr v_evq v_log v_herder v_links v_pairTx => hob s v_params v_scPg v_scTr v_evq v_log v_herder s.inkstone v_links v_pairTx), countStream_keep ob (fun s v_params v_scPg v_scTr v_evq v_log v_inkstone v_links v_pairTx => hob s v_params v_scPg v_scTr v_evq v_log s.herder v_inkstone v_links v_pairTx)] | split

theorem featureToPointer_keep {β : Type} (ob : State → β)
    (hob : ∀ (s : State) v_pointer, ob { s with pointer := v_pointer } = ob s) (f : Feature) (s : State) :
    ob (featureToPointer f s) = ob s := by
  unfold featureToPointer
  simp only [hob, ite_self]

theorem sendFeatures_keep {β : Type} (ob : State → β)
    (hob : ∀ (s : State) v_pointer, ob { s with pointer := v_pointer } = ob s) (b : Bank) (z : ℕ) (flags : ℕ) (t : Shot) (fs : List FeatAcc) (s : State) :
    ob (sendFeatures b z flags t fs s) = ob s := by
  unfold sendFeatures
  repeat' first | with_reducible rfl | simp only [hob, ite_self, featureToPointer_keep ob (fun s v_pointer => hob s v_pointer)] | split | with_reducible refine (forEach_keep ob _ (fun _ _ => ?_) _ _).trans ?_ | with_reducible apply forEach_keep ob | with_reducible refine (foldl_keep ob _ (fun _ _ => ?_) _ _).trans ?_ | rw [apply_ite ob]

theorem emitOutput_keep {β : Type} (ob : State → β)
    (hob : ∀ (s : State) v_params v_scPg v_scTr v_evq v_log v_herder v_pointer v_inkstone v_links v_pairTx, ob { s with params := v_params, evq := v_evq, log := v_log, herder := v_herder, pointer := v_pointer, inkstone := v_inkstone, links := v_links, scribe := { s.scribe with page := v_scPg, transports := v_scTr }, pair := { s.pair with tx := v_pairTx } } = ob s) (b : Bank) (z : ℕ) (t : Shot) (cut : Bool) (selfCheck : Bool) (s : State) :
    ob (emitOutput b z t cut selfCheck s) = ob s := by
  unfold emitOutput
  repeat' first | with_reducible rfl | simp only [hob, ite_self, sendGap_keep ob (fun s v_params v_scPg v_scTr v_evq v_log v_herder v_pointer v_links v_pairTx => hob s v_params v_scPg v_scTr v_evq v_log v_herder v_pointer s.inkstone v_links v_pairTx), sendPart_keep ob (fun s v_params v_scPg v_scTr v_evq v_log v_herder v_inkstone v_links v_pairTx => hob s v_params v_scPg v_scTr v_evq v_log v_herder s.pointer v_inkstone v_links v_pairTx), sendFeatures_keep ob (fun s v_pointer => hob s s.params s.scribe.page s.scribe.transports s.evq s.log s.herder v_pointer s.inkstone s.links s.pair.tx), onZone_keep ob (fun s v_herder => hob s s.params s.scribe.page s.scribe.transports s.evq s.log v_herder s.pointer s.inkstone s.links s.pair.tx)] | split | with_reducible refine (forEach_keep ob _ (fun _ _ => ?_) _ _).trans ?_ | with_reducible apply forEach_keep ob | with_reducible refine (foldl_keep ob _ (fun _ _ => ?_) _ _).trans ?_ | rw [apply_ite ob]

theorem closeWindow_keep {β : Type} (ob : State → β)
    (hob : ∀ (s : State) v_params v_scPg v_scTr v_evq v_log v_herder v_pointer v_inkstone v_links v_pairTx v_free, ob { s with params := v_params, evq := v_evq, log := v_log, herder := v_herder, pointer := v_pointer, inkstone := v_inkstone, links := v_links, free := v_free, scribe := { s.scribe with page := v_scPg, transports := v_scTr }, pair := { s.pair with tx := v_pairTx } } = ob s) (b : Bank) (z : ℕ) (t : Shot) (s : State) :
    ob (closeWindow b z t s) = ob s := by
  unfold closeWindow
  repeat' first | simp only [hob, ite_self, emitOutput_keep ob (fun s v_params v_scPg v_scTr v_evq v_log v_herder v_pointer v_inkstone v_links v_pairTx => hob s v_params v_scPg v_scTr v_evq v_log v_herder v_pointer v_inkstone v_links v_pairTx s.free), onZone_keep ob (fun s v_herder => hob s s.params s.scribe.page s.scribe.transports s.evq s.log v_herder s.pointer s.inkstone s.links s.pair.tx s.free), drawFree_keep ob (fun s v_free => hob s s.params s.scribe.page s.scribe.transports s.evq s.log s.herder s.pointer s.inkstone s.links s.pair.tx v_free)] | split

theorem applyGrant_keep {β : Type} (ob : State → β)
    (hob : ∀ (s : State) v_params v_scPg v_scTr v_evq v_log v_herder v_pointer v_inkstone v_links v_pairTx v_free, ob { s with params := v_params, evq := v_evq, log := v_log, herder := v_herder, pointer := v_pointer, inkstone := v_inkstone, links := v_links, free := v_free, scribe := { s.scribe with page := v_scPg, transports := v_scTr }, pair := { s.pair with tx := v_pairTx } } = ob s) (cause : ℕ) (z : ℕ) (s : State) :
    ob (applyGrant cause z s) = ob s := by
  unfold applyGrant
  repeat' first | simp only [hob, ite_self, onZone_keep ob (fun s v_herder => hob s s.params s.scribe.page s.scribe.transports s.evq s.log v_herder s.pointer s.inkstone s.links s.pair.tx s.free), closeWindow_keep ob (fun s v_params v_scPg v_scTr v_evq v_log v_herder v_pointer v_inkstone v_links v_pairTx v_free => hob s v_params v_scPg v_scTr v_evq v_log v_herder v_pointer v_inkstone v_links v_pairTx v_free), post_keep ob (fun s v_params v_scPg v_scTr v_evq v_log v_links v_pairTx => hob s v_params v_scPg v_scTr v_evq v_log s.herder s.pointer s.inkstone v_links v_pairTx s.free), noteGap_keep ob (fun s v_herder => hob s s.params s.scribe.page s.scribe.transports s.evq s.log v_herder s.pointer s.inkstone s.links s.pair.tx s.free)] | split

theorem applyGrants_keep {β : Type} (ob : State → β)
    (hob : ∀ (s : State) v_params v_scPg v_scTr v_evq v_log v_herder v_pointer v_inkstone v_links v_pairTx v_free, ob { s with params := v_params, evq := v_evq, log := v_log, herder := v_herder, pointer := v_pointer, inkstone := v_inkstone, links := v_links, free := v_free, scribe := { s.scribe with page := v_scPg, transports := v_scTr }, pair := { s.pair with tx := v_pairTx } } = ob s) (cause : ℕ) (p : ℕ) (s : State) :
    ob (applyGrants cause p s) = ob s := by
  unfold applyGrants
  repeat' first | with_reducible rfl | simp only [hob, ite_self, applyGrant_keep ob (fun s v_params v_scPg v_scTr v_evq v_log v_herder v_pointer v_inkstone v_links v_pairTx v_free => hob s v_params v_scPg v_scTr v_evq v_log v_herder v_pointer v_inkstone v_links v_pairTx v_free)] | split | with_reducible refine (forEach_keep ob _ (fun _ _ => ?_) _ _).trans ?_ | with_reducible apply forEach_keep ob | with_reducible refine (foldl_keep ob _ (fun _ _ => ?_) _ _).trans ?_ | rw [apply_ite ob]

theorem readmitAll_keep {β : Type} (ob : State → β)
    (hob : ∀ (s : State) v_params v_scPg v_scTr v_evq v_log v_ports v_herder v_pointer v_inkstone v_links v_pairTx v_free, ob { s with params := v_params, evq := v_evq, log := v_log, ports := v_ports, herder := v_herder, pointer := v_pointer, inkstone := v_inkstone, links := v_links, free := v_free, scribe := { s.scribe with page := v_scPg, transports := v_scTr }, pair := { s.pair with tx := v_pairTx } } = ob s) (cause : ℕ) (keep : List ℕ) (s : State) :
    ob (readmitAll cause keep s) = ob s := by
  unfold readmitAll
  repeat' first | with_reducible rfl | simp only [hob, ite_self, onPort_keep ob (fun s v_ports => hob s s.params s.scribe.page s.scribe.transports s.evq s.log v_ports s.herder s.pointer s.inkstone s.links s.pair.tx s.free), applyGrants_keep ob (fun s v_params v_scPg v_scTr v_evq v_log v_herder v_pointer v_inkstone v_links v_pairTx v_free => hob s v_params v_scPg v_scTr v_evq v_log s.ports v_herder v_pointer v_inkstone v_links v_pairTx v_free)] | split | with_reducible refine (forEach_keep ob _ (fun _ _ => ?_) _ _).trans ?_ | with_reducible apply forEach_keep ob | with_reducible refine (foldl_keep ob _ (fun _ _ => ?_) _ _).trans ?_ | rw [apply_ite ob]

theorem calAccepted_keep {β : Type} (ob : State → β)
    (hob : ∀ (s : State) v_scTr v_lkEth v_pairTx, ob { s with scribe := { s.scribe with transports := v_scTr }, links := { s.links with eth := v_lkEth }, pair := { s.pair with tx := v_pairTx } } = ob s) (r : Request) (n : ℕ) (s : State) :
    ob (calAccepted r n s) = ob s := by
  unfold calAccepted
  simp only [hob, ite_self, answer_keep ob (fun s v_scTr v_lkEth v_pairTx => hob s v_scTr v_lkEth v_pairTx)]

theorem journalStart_keep {β : Type} (ob : State → β)
    (hob : ∀ (s : State) v_journal, ob { s with journal := v_journal } = ob s) (n : ℕ) (s : State) :
    ob (journalStart n s) = ob s := by
  unfold journalStart
  simp only [hob, ite_self, onJournal_keep ob (fun s v_journal => hob s v_journal)]

theorem onMem_keep {β : Type} (ob : State → β)
    (hob : ∀ (s : State) v_memory, ob { s with memory := v_memory } = ob s) (f : Memory → Memory) (s : State) :
    ob (onMem f s) = ob s := by
  unfold onMem
  simp only [hob, ite_self]

theorem moveRecords_keep {β : Type} (ob : State → β)
    (hob : ∀ (s : State) v_pointer, ob { s with pointer := v_pointer } = ob s) (sram : Bool) (s : State) :
    ob (moveRecords sram s) = ob s := by
  unfold moveRecords
  repeat' first | simp only [hob, ite_self, onPtr_keep ob (fun s v_pointer => hob s v_pointer)] | split

theorem kennelResize_keep {β : Type} (ob : State → β)
    (hob : ∀ (s : State) v_params v_scPg v_scTr v_evq v_journal v_log v_pointer v_inkstone v_memory v_links v_pairTx, ob { s with params := v_params, evq := v_evq, journal := v_journal, log := v_log, pointer := v_pointer, inkstone := v_inkstone, memory := v_memory, links := v_links, scribe := { s.scribe with page := v_scPg, transports := v_scTr }, pair := { s.pair with tx := v_pairTx } } = ob s) (s : State) :
    ob (kennelResize  s) = ob s := by
  unfold kennelResize
  repeat' first | with_reducible rfl | simp only [hob, ite_self, onMem_keep ob (fun s v_memory => hob s s.params s.scribe.page s.scribe.transports s.evq s.journal s.log s.pointer s.inkstone v_memory s.links s.pair.tx), moveRecords_keep ob (fun s v_pointer => hob s s.params s.scribe.page s.scribe.transports s.evq s.journal s.log v_pointer s.inkstone s.memory s.links s.pair.tx), endJob_keep ob (fun s v_params v_scPg v_scTr v_evq v_journal v_log v_inkstone v_links v_pairTx => hob s v_params v_scPg v_scTr v_evq v_journal v_log s.pointer v_inkstone s.memory v_links v_pairTx)] | split | with_reducible refine (forEach_keep ob _ (fun _ _ => ?_) _ _).trans ?_ | with_reducible apply forEach_keep ob | with_reducible refine (foldl_keep ob _ (fun _ _ => ?_) _ _).trans ?_ | rw [apply_ite ob]

theorem onLinks_keep {β : Type} (ob : State → β)
    (hob : ∀ (s : State) v_links, ob { s with links := v_links } = ob s) (f : Links → Links) (s : State) :
    ob (onLinks f s) = ob s := by
  unfold onLinks
  simp only [hob, ite_self]

theorem stopPorts_keep {β : Type} (ob : State → β)
    (hob : ∀ (s : State) v_ports, ob { s with ports := v_ports } = ob s) (s : State) :
    ob (stopPorts  s) = ob s := by
  unfold stopPorts
  simp only [hob, ite_self]

theorem endSurvey_keep {β : Type} (ob : State → β)
    (hob : ∀ (s : State) v_mode v_params v_scPg v_scTr v_evq v_journal v_log v_ports v_links v_pairTx, ob { s with mode := v_mode, params := v_params, evq := v_evq, journal := v_journal, log := v_log, ports := v_ports, links := v_links, scribe := { s.scribe with page := v_scPg, transports := v_scTr }, pair := { s.pair with tx := v_pairTx } } = ob s) (status : ℕ) (s : State) :
    ob (endSurvey status s) = ob s := by
  unfold endSurvey
  repeat' first | with_reducible rfl | simp only [hob, ite_self, post_keep ob (fun s v_params v_scPg v_scTr v_evq v_log v_links v_pairTx => hob s s.mode v_params v_scPg v_scTr v_evq s.journal v_log s.ports v_links v_pairTx), onPort_keep ob (fun s v_ports => hob s s.mode s.params s.scribe.page s.scribe.transports s.evq s.journal s.log v_ports s.links s.pair.tx), journalEnd_keep ob (fun s v_params v_scPg v_scTr v_evq v_journal v_log v_links v_pairTx => hob s s.mode v_params v_scPg v_scTr v_evq v_journal v_log s.ports v_links v_pairTx), onMode_keep ob (fun s v_mode => hob s v_mode s.params s.scribe.page s.scribe.transports s.evq s.journal s.log s.ports s.links s.pair.tx)] | split | with_reducible refine (forEach_keep ob _ (fun _ _ => ?_) _ _).trans ?_ | with_reducible apply forEach_keep ob | with_reducible refine (foldl_keep ob _ (fun _ _ => ?_) _ _).trans ?_ | rw [apply_ite ob]

theorem recordReset_keep {β : Type} (ob : State → β)
    (hob : ∀ (s : State) v_mode, ob { s with mode := v_mode } = ob s) (bits : BitVec 8) (s : State) :
    ob (recordReset bits s) = ob s := by
  unfold recordReset
  simp only [hob, ite_self, onMode_keep ob (fun s v_mode => hob s v_mode)]

theorem emissionStopped_keep {β : Type} (ob : State → β)
    (hob : ∀ (s : State) v_params v_scPg v_scTr v_evq v_log v_links v_pairTx, ob { s with params := v_params, evq := v_evq, log := v_log, links := v_links, scribe := { s.scribe with page := v_scPg, transports := v_scTr }, pair := { s.pair with tx := v_pairTx } } = ob s) (terms : ℕ) (ports : ℕ) (s : State) :
    ob (emissionStopped terms ports s) = ob s := by
  unfold emissionStopped
  simp only [hob, ite_self, post_keep ob (fun s v_params v_scPg v_scTr v_evq v_log v_links v_pairTx => hob s v_params v_scPg v_scTr v_evq v_log v_links v_pairTx), bump_keep ob (fun s v_params => hob s v_params s.scribe.page s.scribe.transports s.evq s.log s.links s.pair.tx)]

theorem decodeError_keep {β : Type} (ob : State → β)
    (hob : ∀ (s : State) v_params v_scPg v_scTr v_evq v_log v_inkstone v_links v_pairTx, ob { s with params := v_params, evq := v_evq, log := v_log, inkstone := v_inkstone, links := v_links, scribe := { s.scribe with page := v_scPg, transports := v_scTr }, pair := { s.pair with tx := v_pairTx } } = ob s) (reader : ℕ) (code : ℕ) (seq : ℕ) (s : State) :
    ob (decodeError reader code seq s) = ob s := by
  unfold decodeError
  simp only [hob, ite_self, post_keep ob (fun s v_params v_scPg v_scTr v_evq v_log v_links v_pairTx => hob s v_params v_scPg v_scTr v_evq v_log s.inkstone v_links v_pairTx), paramPut_keep ob (fun s v_params => hob s v_params s.scribe.page s.scribe.transports s.evq s.log s.inkstone s.links s.pair.tx), bump_keep ob (fun s v_params => hob s v_params s.scribe.page s.scribe.transports s.evq s.log s.inkstone s.links s.pair.tx), onInk_keep ob (fun s v_inkstone => hob s s.params s.scribe.page s.scribe.transports s.evq s.log v_inkstone s.links s.pair.tx)]

theorem freeData_keep {β : Type} (ob : State → β)
    (hob : ∀ (s : State) v_params v_scPg v_scTr v_evq v_journal v_log v_pointer v_inkstone v_links v_pairTx, ob { s with params := v_params, evq := v_evq, journal := v_journal, log := v_log, pointer := v_pointer, inkstone := v_inkstone, links := v_links, scribe := { s.scribe with page := v_scPg, transports := v_scTr }, pair := { s.pair with tx := v_pairTx } } = ob s) (n : ℕ) (s : State) :
    ob (freeData n s) = ob s := by
  unfold freeData
  repeat' first | simp only [hob, ite_self, endJobs_keep ob (fun s v_params v_scPg v_scTr v_evq v_journal v_log v_inkstone v_links v_pairTx => hob s v_params v_scPg v_scTr v_evq v_journal v_log s.pointer v_inkstone v_links v_pairTx), bump_keep ob (fun s v_params => hob s v_params s.scribe.page s.scribe.transports s.evq s.journal s.log s.pointer s.inkstone s.links s.pair.tx), setRecord_keep ob (fun s v_pointer => hob s s.params s.scribe.page s.scribe.transports s.evq s.journal s.log v_pointer s.inkstone s.links s.pair.tx)] | split

theorem fitData_keep {β : Type} (ob : State → β)
    (hob : ∀ (s : State) v_params v_scPg v_scTr v_evq v_journal v_log v_pointer v_inkstone v_links v_pairTx, ob { s with params := v_params, evq := v_evq, journal := v_journal, log := v_log, pointer := v_pointer, inkstone := v_inkstone, links := v_links, scribe := { s.scribe with page := v_scPg, transports := v_scTr }, pair := { s.pair with tx := v_pairTx } } = ob s) (fuel : ℕ) (n : ℕ) (s : State) :
    ob (fitData fuel n s) = ob s := by
  induction fuel generalizing s with
  | zero => rfl
  | succ fuel ih =>
    unfold fitData
    repeat' first | with_reducible rfl | simp only [ih, hob, ite_self, freeData_keep ob (fun s v_params v_scPg v_scTr v_evq v_journal v_log v_pointer v_inkstone v_links v_pairTx => hob s v_params v_scPg v_scTr v_evq v_journal v_log v_pointer v_inkstone v_links v_pairTx)] | split

theorem closeRecord_keep {β : Type} (ob : State → β)
    (hob : ∀ (s : State) v_params v_scPg v_scTr v_evq v_journal v_log v_pointer v_inkstone v_links v_pairTx, ob { s with params := v_params, evq := v_evq, journal := v_journal, log := v_log, pointer := v_pointer, inkstone := v_inkstone, links := v_links, scribe := { s.scribe with page := v_scPg, transports := v_scTr }, pair := { s.pair with tx := v_pairTx } } = ob s) (incomplete : Bool) (n : ℕ) (s : State) :
    ob (closeRecord incomplete n s) = ob s := by
  unfold closeRecord
  repeat' first | with_reducible rfl | simp only [hob, ite_self, endCollection_keep ob (fun s v_params v_scPg v_scTr v_evq v_log v_pointer v_links v_pairTx => hob s v_params v_scPg v_scTr v_evq s.journal v_log v_pointer s.inkstone v_links v_pairTx), onPtr_keep ob (fun s v_pointer => hob s s.params s.scribe.page s.scribe.transports s.evq s.journal s.log v_pointer s.inkstone s.links s.pair.tx), setRecord_keep ob (fun s v_pointer => hob s s.params s.scribe.page s.scribe.transports s.evq s.journal s.log v_pointer s.inkstone s.links s.pair.tx), countStream_keep ob (fun s v_params v_scPg v_scTr v_evq v_log v_inkstone v_links v_pairTx => hob s v_params v_scPg v_scTr v_evq s.journal v_log s.pointer v_inkstone v_links v_pairTx), decodeError_keep ob (fun s v_params v_scPg v_scTr v_evq v_log v_inkstone v_links v_pairTx => hob s v_params v_scPg v_scTr v_evq s.journal v_log s.pointer v_inkstone v_links v_pairTx), fitData_keep ob (fun s v_params v_scPg v_scTr v_evq v_journal v_log v_pointer v_inkstone v_links v_pairTx => hob s v_params v_scPg v_scTr v_evq v_journal v_log v_pointer v_inkstone v_links v_pairTx), post_keep ob (fun s v_params v_scPg v_scTr v_evq v_log v_links v_pairTx => hob s v_params v_scPg v_scTr v_evq s.journal v_log s.pointer s.inkstone v_links v_pairTx)] | split | with_reducible refine (forEach_keep ob _ (fun _ _ => ?_) _ _).trans ?_ | with_reducible apply forEach_keep ob | with_reducible refine (foldl_keep ob _ (fun _ _ => ?_) _ _).trans ?_ | rw [apply_ite ob]

theorem closeDisabled_keep {β : Type} (ob : State → β)
    (hob : ∀ (s : State) v_params v_scPg v_scTr v_evq v_journal v_log v_pointer v_inkstone v_links v_pairTx, ob { s with params := v_params, evq := v_evq, journal := v_journal, log := v_log, pointer := v_pointer, inkstone := v_inkstone, links := v_links, scribe := { s.scribe with page := v_scPg, transports := v_scTr }, pair := { s.pair with tx := v_pairTx } } = ob s) (old : Bank) (new : Bank) (p : ℕ) (s : State) :
    ob (closeDisabled old new p s) = ob s := by
  unfold closeDisabled
  repeat' first | with_reducible rfl | simp only [hob, ite_self, closeRecord_keep ob (fun s v_params v_scPg v_scTr v_evq v_journal v_log v_pointer v_inkstone v_links v_pairTx => hob s v_params v_scPg v_scTr v_evq v_journal v_log v_pointer v_inkstone v_links v_pairTx)] | split | with_reducible refine (forEach_keep ob _ (fun _ _ => ?_) _ _).trans ?_ | with_reducible apply forEach_keep ob | with_reducible refine (foldl_keep ob _ (fun _ _ => ?_) _ _).trans ?_ | rw [apply_ite ob]

theorem onBanks_keep {β : Type} (ob : State → β)
    (hob : ∀ (s : State) v_banks, ob { s with banks := v_banks } = ob s) (f : Banks → Banks) (s : State) :
    ob (onBanks f s) = ob s := by
  unfold onBanks
  simp only [hob, ite_self]

theorem switchZone_keep {β : Type} (ob : State → β)
    (hob : ∀ (s : State) v_herder, ob { s with herder := v_herder } = ob s) (old : Bank) (new : Bank) (z : ℕ) (s : State) :
    ob (switchZone old new z s) = ob s := by
  unfold switchZone
  repeat' first | simp only [hob, ite_self, onZone_keep ob (fun s v_herder => hob s v_herder)] | split

theorem ramanDiscard_keep {β : Type} (ob : State → β)
    (hob : ∀ (s : State) v_params v_scPg v_scTr v_evq v_log v_raman v_links v_pairTx, ob { s with params := v_params, evq := v_evq, log := v_log, raman := v_raman, links := v_links, scribe := { s.scribe with page := v_scPg, transports := v_scTr }, pair := { s.pair with tx := v_pairTx } } = ob s) (p : ℕ) (cause : ℕ) (s : State) :
    ob (ramanDiscard p cause s) = ob s := by
  unfold ramanDiscard
  repeat' first | simp only [hob, ite_self, post_keep ob (fun s v_params v_scPg v_scTr v_evq v_log v_links v_pairTx => hob s v_params v_scPg v_scTr v_evq v_log s.raman v_links v_pairTx), onRaman_keep ob (fun s v_raman => hob s s.params s.scribe.page s.scribe.transports s.evq s.log v_raman s.links s.pair.tx)] | split

theorem rebaseline_keep {β : Type} (ob : State → β)
    (hob : ∀ (s : State) v_params v_scPg v_scTr v_evq v_log v_ports v_links v_pairTx, ob { s with params := v_params, evq := v_evq, log := v_log, ports := v_ports, links := v_links, scribe := { s.scribe with page := v_scPg, transports := v_scTr }, pair := { s.pair with tx := v_pairTx } } = ob s) (p : ℕ) (kind : ℕ) (cause : ℕ) (s : State) :
    ob (rebaseline p kind cause s) = ob s := by
  unfold rebaseline
  simp only [hob, ite_self, post_keep ob (fun s v_params v_scPg v_scTr v_evq v_log v_links v_pairTx => hob s v_params v_scPg v_scTr v_evq v_log s.ports v_links v_pairTx), bump_keep ob (fun s v_params => hob s v_params s.scribe.page s.scribe.transports s.evq s.log s.ports s.links s.pair.tx), onPort_keep ob (fun s v_ports => hob s s.params s.scribe.page s.scribe.transports s.evq s.log v_ports s.links s.pair.tx)]

theorem onSeq_keep {β : Type} (ob : State → β)
    (hob : ∀ (s : State) v_pointer, ob { s with pointer := v_pointer } = ob s) (q : ℕ) (f : Sequencer → Sequencer) (s : State) :
    ob (onSeq q f s) = ob s := by
  unfold onSeq
  simp only [hob, ite_self]

theorem disarm_keep {β : Type} (ob : State → β)
    (hob : ∀ (s : State) v_params v_scPg v_scTr v_evq v_log v_pointer v_links v_pairTx, ob { s with params := v_params, evq := v_evq, log := v_log, pointer := v_pointer, links := v_links, scribe := { s.scribe with page := v_scPg, transports := v_scTr }, pair := { s.pair with tx := v_pairTx } } = ob s) (cause : ℕ) (q : ℕ) (s : State) :
    ob (disarm cause q s) = ob s := by
  unfold disarm
  repeat' first | simp only [hob, ite_self, post_keep ob (fun s v_params v_scPg v_scTr v_evq v_log v_links v_pairTx => hob s v_params v_scPg v_scTr v_evq v_log s.pointer v_links v_pairTx), onSeq_keep ob (fun s v_pointer => hob s s.params s.scribe.page s.scribe.transports s.evq s.log v_pointer s.links s.pair.tx)] | split

theorem sealPages_keep {β : Type} (ob : State → β)
    (hob : ∀ (s : State) v_inkstone, ob { s with inkstone := v_inkstone } = ob s) (p : ℕ) (s : State) :
    ob (sealPages p s) = ob s := by
  unfold sealPages
  simp only [hob, ite_self, onInk_keep ob (fun s v_inkstone => hob s v_inkstone)]

theorem checkpoint_keep {β : Type} (ob : State → β)
    (hob : ∀ (s : State) v_inkstone, ob { s with inkstone := v_inkstone } = ob s) (p : ℕ) (s : State) :
    ob (checkpoint p s) = ob s := by
  unfold checkpoint
  simp only [hob, ite_self, onInk_keep ob (fun s v_inkstone => hob s v_inkstone), sealPages_keep ob (fun s v_inkstone => hob s v_inkstone)]

theorem ringRestart_keep {β : Type} (ob : State → β)
    (hob : ∀ (s : State) v_params v_scPg v_scTr v_evq v_journal v_log v_inkstone v_links v_pairTx, ob { s with params := v_params, evq := v_evq, journal := v_journal, log := v_log, inkstone := v_inkstone, links := v_links, scribe := { s.scribe with page := v_scPg, transports := v_scTr }, pair := { s.pair with tx := v_pairTx } } = ob s) (cause : ℕ) (s : State) :
    ob (ringRestart cause s) = ob s := by
  unfold ringRestart
  repeat' first | with_reducible rfl | simp only [hob, ite_self, onInk_keep ob (fun s v_inkstone => hob s s.params s.scribe.page s.scribe.transports s.evq s.journal s.log v_inkstone s.links s.pair.tx), endJobs_keep ob (fun s v_params v_scPg v_scTr v_evq v_journal v_log v_inkstone v_links v_pairTx => hob s v_params v_scPg v_scTr v_evq v_journal v_log v_inkstone v_links v_pairTx), checkpoint_keep ob (fun s v_inkstone => hob s s.params s.scribe.page s.scribe.transports s.evq s.journal s.log v_inkstone s.links s.pair.tx), post_keep ob (fun s v_params v_scPg v_scTr v_evq v_log v_links v_pairTx => hob s v_params v_scPg v_scTr v_evq s.journal v_log s.inkstone v_links v_pairTx)] | split | with_reducible refine (forEach_keep ob _ (fun _ _ => ?_) _ _).trans ?_ | with_reducible apply forEach_keep ob | with_reducible refine (foldl_keep ob _ (fun _ _ => ?_) _ _).trans ?_ | rw [apply_ite ob]

theorem ringDrop_keep {β : Type} (ob : State → β)
    (hob : ∀ (s : State) v_params v_scPg v_scTr v_evq v_journal v_log v_inkstone v_links v_pairTx, ob { s with params := v_params, evq := v_evq, journal := v_journal, log := v_log, inkstone := v_inkstone, links := v_links, scribe := { s.scribe with page := v_scPg, transports := v_scTr }, pair := { s.pair with tx := v_pairTx } } = ob s) (s : State) :
    ob (ringDrop  s) = ob s := by
  unfold ringDrop
  simp only [hob, ite_self, endJobs_keep ob (fun s v_params v_scPg v_scTr v_evq v_journal v_log v_inkstone v_links v_pairTx => hob s v_params v_scPg v_scTr v_evq v_journal v_log v_inkstone v_links v_pairTx), onInk_keep ob (fun s v_inkstone => hob s s.params s.scribe.page s.scribe.transports s.evq s.journal s.log v_inkstone s.links s.pair.tx)]

theorem inService_keep {β : Type} (ob : State → β)
    (hob : ∀ (s : State) v_herder, ob { s with herder := v_herder } = ob s) (z e : ℕ) (f : State → State) (hf : ∀ s, ob (f s) = ob s) (s : State) :
    ob (inService z e f s) = ob s := by
  unfold inService
  split
  · exact hf s
  · simp only [hob, ite_self, onZone_keep ob (fun s v_herder => hob s v_herder), hf]

theorem endService_keep {β : Type} (ob : State → β)
    (hob : ∀ (s : State) v_params v_scPg v_scTr v_evq v_log v_herder v_serif v_pointer v_inkstone v_links v_pairTx v_free, ob { s with params := v_params, evq := v_evq, log := v_log, herder := v_herder, serif := v_serif, pointer := v_pointer, inkstone := v_inkstone, links := v_links, free := v_free, scribe := { s.scribe with page := v_scPg, transports := v_scTr }, pair := { s.pair with tx := v_pairTx } } = ob s) (z : Nat) (l : Leaving) (s : State) :
    ob (endService z l s) = ob s := by
  unfold endService
  repeat' first | with_reducible rfl | simp only [hob, ite_self, closeWindow_keep ob (fun s v_params v_scPg v_scTr v_evq v_log v_herder v_pointer v_inkstone v_links v_pairTx v_free => hob s v_params v_scPg v_scTr v_evq v_log v_herder s.serif v_pointer v_inkstone v_links v_pairTx v_free), forgetWhere_keep ob (fun s v_serif => hob s s.params s.scribe.page s.scribe.transports s.evq s.log s.herder v_serif s.pointer s.inkstone s.links s.pair.tx s.free), noteGap_keep ob (fun s v_herder => hob s s.params s.scribe.page s.scribe.transports s.evq s.log v_herder s.serif s.pointer s.inkstone s.links s.pair.tx s.free)] | split | with_reducible refine (forEach_keep ob _ (fun _ _ => ?_) _ _).trans ?_ | with_reducible apply forEach_keep ob | with_reducible refine (foldl_keep ob _ (fun _ _ => ?_) _ _).trans ?_ | rw [apply_ite ob] | with_reducible refine (inService_keep ob (fun s v_herder => hob s s.params s.scribe.page s.scribe.transports s.evq s.log v_herder s.serif s.pointer s.inkstone s.links s.pair.tx s.free) _ _ _ (fun _ => ?_) _).trans ?_

theorem leaveService_keep {β : Type} (ob : State → β)
    (hob : ∀ (s : State) v_params v_scPg v_scTr v_evq v_log v_herder v_serif v_pointer v_inkstone v_links v_pairTx v_free, ob { s with params := v_params, evq := v_evq, log := v_log, herder := v_herder, serif := v_serif, pointer := v_pointer, inkstone := v_inkstone, links := v_links, free := v_free, scribe := { s.scribe with page := v_scPg, transports := v_scTr }, pair := { s.pair with tx := v_pairTx } } = ob s) (old : Bank) (z : Nat) (last : Nat) (own : Bool) (s : State) :
    ob (leaveService old z last own s) = ob s := by
  unfold leaveService
  repeat' first | with_reducible rfl | simp only [hob, ite_self, endService_keep ob (fun s v_params v_scPg v_scTr v_evq v_log v_herder v_serif v_pointer v_inkstone v_links v_pairTx v_free => hob s v_params v_scPg v_scTr v_evq v_log v_herder v_serif v_pointer v_inkstone v_links v_pairTx v_free)] | split | with_reducible refine (forEach_keep ob _ (fun _ _ => ?_) _ _).trans ?_ | with_reducible apply forEach_keep ob | with_reducible refine (foldl_keep ob _ (fun _ _ => ?_) _ _).trans ?_ | rw [apply_ite ob]

theorem switchServices_keep {β : Type} (ob : State → β)
    (hob : ∀ (s : State) v_params v_scPg v_scTr v_evq v_log v_herder v_serif v_pointer v_inkstone v_links v_pairTx v_free, ob { s with params := v_params, evq := v_evq, log := v_log, herder := v_herder, serif := v_serif, pointer := v_pointer, inkstone := v_inkstone, links := v_links, free := v_free, scribe := { s.scribe with page := v_scPg, transports := v_scTr }, pair := { s.pair with tx := v_pairTx } } = ob s) (old : Bank) (new : Bank) (p : Nat) (s : State) :
    ob (switchServices old new p s) = ob s := by
  unfold switchServices
  repeat' first | with_reducible rfl | simp only [hob, ite_self, leaveService_keep ob (fun s v_params v_scPg v_scTr v_evq v_log v_herder v_serif v_pointer v_inkstone v_links v_pairTx v_free => hob s v_params v_scPg v_scTr v_evq v_log v_herder v_serif v_pointer v_inkstone v_links v_pairTx v_free)] | split | with_reducible refine (forEach_keep ob _ (fun _ _ => ?_) _ _).trans ?_ | with_reducible apply forEach_keep ob | with_reducible refine (foldl_keep ob _ (fun _ _ => ?_) _ _).trans ?_ | rw [apply_ite ob]

theorem switchRaman_keep {β : Type} (ob : State → β)
    (hob : ∀ (s : State) v_params v_scPg v_scTr v_evq v_log v_raman v_links v_pairTx, ob { s with params := v_params, evq := v_evq, log := v_log, raman := v_raman, links := v_links, scribe := { s.scribe with page := v_scPg, transports := v_scTr }, pair := { s.pair with tx := v_pairTx } } = ob s) (old : Bank) (new : Bank) (p : Nat) (s : State) :
    ob (switchRaman old new p s) = ob s := by
  unfold switchRaman
  repeat' first | with_reducible rfl | simp only [hob, ite_self, onRaman_keep ob (fun s v_raman => hob s s.params s.scribe.page s.scribe.transports s.evq s.log v_raman s.links s.pair.tx), ramanDiscard_keep ob (fun s v_params v_scPg v_scTr v_evq v_log v_raman v_links v_pairTx => hob s v_params v_scPg v_scTr v_evq v_log v_raman v_links v_pairTx)] | split | with_reducible refine (forEach_keep ob _ (fun _ _ => ?_) _ _).trans ?_ | with_reducible apply forEach_keep ob | with_reducible refine (foldl_keep ob _ (fun _ _ => ?_) _ _).trans ?_ | rw [apply_ite ob]

theorem endServices_keep {β : Type} (ob : State → β)
    (hob : ∀ (s : State) v_params v_scPg v_scTr v_evq v_log v_herder v_serif v_pointer v_inkstone v_links v_pairTx v_free, ob { s with params := v_params, evq := v_evq, log := v_log, herder := v_herder, serif := v_serif, pointer := v_pointer, inkstone := v_inkstone, links := v_links, free := v_free, scribe := { s.scribe with page := v_scPg, transports := v_scTr }, pair := { s.pair with tx := v_pairTx } } = ob s) (p : Nat) (s : State) :
    ob (endServices p s) = ob s := by
  unfold endServices
  repeat' first | with_reducible rfl | simp only [hob, ite_self, endService_keep ob (fun s v_params v_scPg v_scTr v_evq v_log v_herder v_serif v_pointer v_inkstone v_links v_pairTx v_free => hob s v_params v_scPg v_scTr v_evq v_log v_herder v_serif v_pointer v_inkstone v_links v_pairTx v_free)] | split | with_reducible refine (forEach_keep ob _ (fun _ _ => ?_) _ _).trans ?_ | with_reducible apply forEach_keep ob | with_reducible refine (foldl_keep ob _ (fun _ _ => ?_) _ _).trans ?_ | rw [apply_ite ob]

theorem switchGrid_keep {β : Type} (ob : State → β)
    (hob : ∀ (s : State) v_params v_scPg v_scTr v_evq v_log v_ports v_herder v_serif v_raman v_pointer v_inkstone v_links v_pairTx v_free, ob { s with params := v_params, evq := v_evq, log := v_log, ports := v_ports, herder := v_herder, serif := v_serif, raman := v_raman, pointer := v_pointer, inkstone := v_inkstone, links := v_links, free := v_free, scribe := { s.scribe with page := v_scPg, transports := v_scTr }, pair := { s.pair with tx := v_pairTx } } = ob s) (old : Bank) (new : Bank) (p : Nat) (s : State) :
    ob (switchGrid old new p s) = ob s := by
  unfold switchGrid
  repeat' first | with_reducible rfl | simp only [hob, ite_self, onPort_keep ob (fun s v_ports => hob s s.params s.scribe.page s.scribe.transports s.evq s.log v_ports s.herder s.serif s.raman s.pointer s.inkstone s.links s.pair.tx s.free), endServices_keep ob (fun s v_params v_scPg v_scTr v_evq v_log v_herder v_serif v_pointer v_inkstone v_links v_pairTx v_free => hob s v_params v_scPg v_scTr v_evq v_log s.ports v_herder v_serif s.raman v_pointer v_inkstone v_links v_pairTx v_free), onRaman_keep ob (fun s v_raman => hob s s.params s.scribe.page s.scribe.transports s.evq s.log s.ports s.herder s.serif v_raman s.pointer s.inkstone s.links s.pair.tx s.free), ramanDiscard_keep ob (fun s v_params v_scPg v_scTr v_evq v_log v_raman v_links v_pairTx => hob s v_params v_scPg v_scTr v_evq v_log s.ports s.herder s.serif v_raman s.pointer s.inkstone v_links v_pairTx s.free), rebaseline_keep ob (fun s v_params v_scPg v_scTr v_evq v_log v_ports v_links v_pairTx => hob s v_params v_scPg v_scTr v_evq v_log v_ports s.herder s.serif s.raman s.pointer s.inkstone v_links v_pairTx s.free)] | split | with_reducible refine (forEach_keep ob _ (fun _ _ => ?_) _ _).trans ?_ | with_reducible apply forEach_keep ob | with_reducible refine (foldl_keep ob _ (fun _ _ => ?_) _ _).trans ?_ | rw [apply_ite ob]

theorem idleFollows_keep {β : Type} (ob : State → β)
    (hob : ∀ (s : State) v_herder, ob { s with herder := v_herder } = ob s) (new : Bank) (z : Nat) (s : State) :
    ob (idleFollows new z s) = ob s := by
  unfold idleFollows
  repeat' first | with_reducible rfl | simp only [hob, ite_self, onZone_keep ob (fun s v_herder => hob s v_herder)] | split | with_reducible refine (forEach_keep ob _ (fun _ _ => ?_) _ _).trans ?_ | with_reducible apply forEach_keep ob | with_reducible refine (foldl_keep ob _ (fun _ _ => ?_) _ _).trans ?_ | rw [apply_ite ob]

theorem switchZones_keep {β : Type} (ob : State → β)
    (hob : ∀ (s : State) v_herder v_pointer, ob { s with herder := v_herder, pointer := v_pointer } = ob s) (old : Bank) (new : Bank) (p : Nat) (s : State) :
    ob (switchZones old new p s) = ob s := by
  unfold switchZones
  repeat' first | with_reducible rfl | simp only [hob, ite_self, idleFollows_keep ob (fun s v_herder => hob s v_herder s.pointer), switchZone_keep ob (fun s v_herder => hob s v_herder s.pointer), onPtr_keep ob (fun s v_pointer => hob s s.herder v_pointer)] | split | with_reducible refine (forEach_keep ob _ (fun _ _ => ?_) _ _).trans ?_ | with_reducible apply forEach_keep ob | with_reducible refine (foldl_keep ob _ (fun _ _ => ?_) _ _).trans ?_ | rw [apply_ite ob]

theorem switchSlots_keep {β : Type} (ob : State → β)
    (hob : ∀ (s : State) v_ports, ob { s with ports := v_ports } = ob s) (old : Bank) (new : Bank) (p : Nat) (s : State) :
    ob (switchSlots old new p s) = ob s := by
  unfold switchSlots
  repeat' first | with_reducible rfl | simp only [hob, ite_self, onPort_keep ob (fun s v_ports => hob s v_ports)] | split | with_reducible refine (forEach_keep ob _ (fun _ _ => ?_) _ _).trans ?_ | with_reducible apply forEach_keep ob | with_reducible refine (foldl_keep ob _ (fun _ _ => ?_) _ _).trans ?_ | rw [apply_ite ob]

theorem switchLast_keep {β : Type} (ob : State → β)
    (hob : ∀ (s : State) v_params v_scPg v_scTr v_evq v_journal v_log v_inkstone v_links v_pairTx v_safety, ob { s with params := v_params, evq := v_evq, journal := v_journal, log := v_log, inkstone := v_inkstone, links := v_links, safety := v_safety, scribe := { s.scribe with page := v_scPg, transports := v_scTr }, pair := { s.pair with tx := v_pairTx } } = ob s) (old : Bank) (new : Bank) (s : State) :
    ob (switchLast old new s) = ob s := by
  unfold switchLast
  repeat' first | with_reducible rfl | simp only [hob, ite_self, ringRestart_keep ob (fun s v_params v_scPg v_scTr v_evq v_journal v_log v_inkstone v_links v_pairTx => hob s v_params v_scPg v_scTr v_evq v_journal v_log v_inkstone v_links v_pairTx s.safety), ringDrop_keep ob (fun s v_params v_scPg v_scTr v_evq v_journal v_log v_inkstone v_links v_pairTx => hob s v_params v_scPg v_scTr v_evq v_journal v_log v_inkstone v_links v_pairTx s.safety), onSafety_keep ob (fun s v_safety => hob s s.params s.scribe.page s.scribe.transports s.evq s.journal s.log s.inkstone s.links s.pair.tx v_safety)] | split | with_reducible refine (forEach_keep ob _ (fun _ _ => ?_) _ _).trans ?_ | with_reducible apply forEach_keep ob | with_reducible refine (foldl_keep ob _ (fun _ _ => ?_) _ _).trans ?_ | rw [apply_ite ob]

theorem switchPort_keep {β : Type} (ob : State → β)
    (hob : ∀ (s : State) v_banks v_params v_scPg v_scTr v_evq v_journal v_log v_ports v_herder v_serif v_raman v_pointer v_inkstone v_links v_pairTx v_safety v_free, ob { s with banks := v_banks, params := v_params, evq := v_evq, journal := v_journal, log := v_log, ports := v_ports, herder := v_herder, serif := v_serif, raman := v_raman, pointer := v_pointer, inkstone := v_inkstone, links := v_links, safety := v_safety, free := v_free, scribe := { s.scribe with page := v_scPg, transports := v_scTr }, pair := { s.pair with tx := v_pairTx } } = ob s) (p : ℕ) (s : State) :
    ob (switchPort p s) = ob s := by
  unfold switchPort
  repeat' first | with_reducible rfl | simp only [hob, ite_self, onRaman_keep ob (fun s v_raman => hob s s.banks s.params s.scribe.page s.scribe.transports s.evq s.journal s.log s.ports s.herder s.serif v_raman s.pointer s.inkstone s.links s.pair.tx s.safety s.free), closeDisabled_keep ob (fun s v_params v_scPg v_scTr v_evq v_journal v_log v_pointer v_inkstone v_links v_pairTx => hob s s.banks v_params v_scPg v_scTr v_evq v_journal v_log s.ports s.herder s.serif s.raman v_pointer v_inkstone v_links v_pairTx s.safety s.free), switchServices_keep ob (fun s v_params v_scPg v_scTr v_evq v_log v_herder v_serif v_pointer v_inkstone v_links v_pairTx v_free => hob s s.banks v_params v_scPg v_scTr v_evq s.journal v_log s.ports v_herder v_serif s.raman v_pointer v_inkstone v_links v_pairTx s.safety v_free), onBanks_keep ob (fun s v_banks => hob s v_banks s.params s.scribe.page s.scribe.transports s.evq s.journal s.log s.ports s.herder s.serif s.raman s.pointer s.inkstone s.links s.pair.tx s.safety s.free), switchRaman_keep ob (fun s v_params v_scPg v_scTr v_evq v_log v_raman v_links v_pairTx => hob s s.banks v_params v_scPg v_scTr v_evq s.journal v_log s.ports s.herder s.serif v_raman s.pointer s.inkstone v_links v_pairTx s.safety s.free), switchGrid_keep ob (fun s v_params v_scPg v_scTr v_evq v_log v_ports v_herder v_serif v_raman v_pointer v_inkstone v_links v_pairTx v_free => hob s s.banks v_params v_scPg v_scTr v_evq s.journal v_log v_ports v_herder v_serif v_raman v_pointer v_inkstone v_links v_pairTx s.safety v_free), switchZones_keep ob (fun s v_herder v_pointer => hob s s.banks s.params s.scribe.page s.scribe.transports s.evq s.journal s.log s.ports v_herder s.serif s.raman v_pointer s.inkstone s.links s.pair.tx s.safety s.free), disarm_keep ob (fun s v_params v_scPg v_scTr v_evq v_log v_pointer v_links v_pairTx => hob s s.banks v_params v_scPg v_scTr v_evq s.journal v_log s.ports s.herder s.serif s.raman v_pointer s.inkstone v_links v_pairTx s.safety s.free), applyGrants_keep ob (fun s v_params v_scPg v_scTr v_evq v_log v_herder v_pointer v_inkstone v_links v_pairTx v_free => hob s s.banks v_params v_scPg v_scTr v_evq s.journal v_log s.ports v_herder s.serif s.raman v_pointer v_inkstone v_links v_pairTx s.safety v_free), checkpoint_keep ob (fun s v_inkstone => hob s s.banks s.params s.scribe.page s.scribe.transports s.evq s.journal s.log s.ports s.herder s.serif s.raman s.pointer v_inkstone s.links s.pair.tx s.safety s.free), switchSlots_keep ob (fun s v_ports => hob s s.banks s.params s.scribe.page s.scribe.transports s.evq s.journal s.log v_ports s.herder s.serif s.raman s.pointer s.inkstone s.links s.pair.tx s.safety s.free), switchLast_keep ob (fun s v_params v_scPg v_scTr v_evq v_journal v_log v_inkstone v_links v_pairTx v_safety => hob s s.banks v_params v_scPg v_scTr v_evq v_journal v_log s.ports s.herder s.serif s.raman s.pointer v_inkstone v_links v_pairTx v_safety s.free)] | split | with_reducible refine (forEach_keep ob _ (fun _ _ => ?_) _ _).trans ?_ | with_reducible apply forEach_keep ob | with_reducible refine (foldl_keep ob _ (fun _ _ => ?_) _ _).trans ?_ | rw [apply_ite ob]

theorem finishSwitch_keep {β : Type} (ob : State → β)
    (hob : ∀ (s : State) v_banks v_params v_scPg v_scTr v_evq v_journal v_log v_ports v_herder v_serif v_raman v_pointer v_inkstone v_links v_pairTx v_safety v_free, ob { s with banks := v_banks, params := v_params, evq := v_evq, journal := v_journal, log := v_log, ports := v_ports, herder := v_herder, serif := v_serif, raman := v_raman, pointer := v_pointer, inkstone := v_inkstone, links := v_links, safety := v_safety, free := v_free, scribe := { s.scribe with page := v_scPg, transports := v_scTr }, pair := { s.pair with tx := v_pairTx } } = ob s) (s : State) :
    ob (finishSwitch  s) = ob s := by
  unfold finishSwitch
  repeat' first | with_reducible rfl | simp only [hob, ite_self, settle_keep ob (fun s v_params v_ports v_raman v_safety => hob s s.banks v_params s.scribe.page s.scribe.transports s.evq s.journal s.log v_ports s.herder s.serif v_raman s.pointer s.inkstone s.links s.pair.tx v_safety s.free), endServices_keep ob (fun s v_params v_scPg v_scTr v_evq v_log v_herder v_serif v_pointer v_inkstone v_links v_pairTx v_free => hob s s.banks v_params v_scPg v_scTr v_evq s.journal v_log s.ports v_herder v_serif s.raman v_pointer v_inkstone v_links v_pairTx s.safety v_free), switchPort_keep ob (fun s v_banks v_params v_scPg v_scTr v_evq v_journal v_log v_ports v_herder v_serif v_raman v_pointer v_inkstone v_links v_pairTx v_safety v_free => hob s v_banks v_params v_scPg v_scTr v_evq v_journal v_log v_ports v_herder v_serif v_raman v_pointer v_inkstone v_links v_pairTx v_safety v_free)] | split | with_reducible refine (forEach_keep ob _ (fun _ _ => ?_) _ _).trans ?_ | with_reducible apply forEach_keep ob | with_reducible refine (foldl_keep ob _ (fun _ _ => ?_) _ _).trans ?_ | rw [apply_ite ob]

theorem closeAllRecords_keep {β : Type} (ob : State → β)
    (hob : ∀ (s : State) v_params v_scPg v_scTr v_evq v_journal v_log v_pointer v_inkstone v_links v_pairTx, ob { s with params := v_params, evq := v_evq, journal := v_journal, log := v_log, pointer := v_pointer, inkstone := v_inkstone, links := v_links, scribe := { s.scribe with page := v_scPg, transports := v_scTr }, pair := { s.pair with tx := v_pairTx } } = ob s) (s : State) :
    ob (closeAllRecords  s) = ob s := by
  unfold closeAllRecords
  repeat' first | with_reducible rfl | simp only [hob, ite_self, closeRecord_keep ob (fun s v_params v_scPg v_scTr v_evq v_journal v_log v_pointer v_inkstone v_links v_pairTx => hob s v_params v_scPg v_scTr v_evq v_journal v_log v_pointer v_inkstone v_links v_pairTx)] | split | with_reducible refine (forEach_keep ob _ (fun _ _ => ?_) _ _).trans ?_ | with_reducible apply forEach_keep ob | with_reducible refine (foldl_keep ob _ (fun _ _ => ?_) _ _).trans ?_ | rw [apply_ite ob]

theorem dropWork_keep {β : Type} (ob : State → β)
    (hob : ∀ (s : State) v_herder v_serif, ob { s with herder := v_herder, serif := v_serif } = ob s) (s : State) :
    ob (dropWork s) = ob s := by
  unfold dropWork
  repeat' first | with_reducible rfl | simp only [hob, ite_self, noteGap_keep ob (fun s v_herder => hob s v_herder s.serif), onZone_keep ob (fun s v_herder => hob s v_herder s.serif)] | split | with_reducible refine (forEach_keep ob _ (fun _ _ => ?_) _ _).trans ?_ | with_reducible apply forEach_keep ob | with_reducible refine (foldl_keep ob _ (fun _ _ => ?_) _ _).trans ?_ | rw [apply_ite ob]

theorem enterInhibit_keep {β : Type} (ob : State → β)
    (hob : ∀ (s : State) v_mode v_banks v_params v_scPg v_scTr v_evq v_journal v_log v_ports v_herder v_serif v_raman v_pointer v_inkstone v_links v_pair v_safety v_free, ob { s with mode := v_mode, banks := v_banks, params := v_params, evq := v_evq, journal := v_journal, log := v_log, ports := v_ports, herder := v_herder, serif := v_serif, raman := v_raman, pointer := v_pointer, inkstone := v_inkstone, links := v_links, pair := v_pair, safety := v_safety, free := v_free, scribe := { s.scribe with page := v_scPg, transports := v_scTr } } = ob s) (s : State) :
    ob (enterInhibit  s) = ob s := by
  unfold enterInhibit
  simp only [hob, ite_self, finishSwitch_keep ob (fun s v_banks v_params v_scPg v_scTr v_evq v_journal v_log v_ports v_herder v_serif v_raman v_pointer v_inkstone v_links v_pairTx v_safety v_free => hob s s.mode v_banks v_params v_scPg v_scTr v_evq v_journal v_log v_ports v_herder v_serif v_raman v_pointer v_inkstone v_links { s.pair with tx := v_pairTx } v_safety v_free), endSurvey_keep ob (fun s v_mode v_params v_scPg v_scTr v_evq v_journal v_log v_ports v_links v_pairTx => hob s v_mode s.banks v_params v_scPg v_scTr v_evq v_journal v_log v_ports s.herder s.serif s.raman s.pointer s.inkstone v_links { s.pair with tx := v_pairTx } s.safety s.free), interruptTransition_keep ob (fun s v_mode v_params v_scPg v_scTr v_evq v_journal v_log v_ports v_links v_pairTx => hob s v_mode s.banks v_params v_scPg v_scTr v_evq v_journal v_log v_ports s.herder s.serif s.raman s.pointer s.inkstone v_links { s.pair with tx := v_pairTx } s.safety s.free), onMode_keep ob (fun s v_mode => hob s v_mode s.banks s.params s.scribe.page s.scribe.transports s.evq s.journal s.log s.ports s.herder s.serif s.raman s.pointer s.inkstone s.links s.pair s.safety s.free), closeAllRecords_keep ob (fun s v_params v_scPg v_scTr v_evq v_journal v_log v_pointer v_inkstone v_links v_pairTx => hob s s.mode s.banks v_params v_scPg v_scTr v_evq v_journal v_log s.ports s.herder s.serif s.raman v_pointer v_inkstone v_links { s.pair with tx := v_pairTx } s.safety s.free), setMode_keep ob (fun s v_mode v_params v_scPg v_scTr v_evq v_journal v_log v_ports v_raman v_pointer v_inkstone v_links v_pair v_safety => hob s v_mode s.banks v_params v_scPg v_scTr v_evq v_journal v_log v_ports s.herder s.serif v_raman v_pointer v_inkstone v_links v_pair v_safety s.free), dropWork_keep ob (fun s v_herder v_serif => hob s s.mode s.banks s.params s.scribe.page s.scribe.transports s.evq s.journal s.log s.ports v_herder v_serif s.raman s.pointer s.inkstone s.links s.pair s.safety s.free)]

theorem withdrawDevice_keep {β : Type} (ob : State → β)
    (hob : ∀ (s : State) v_mode v_banks v_params v_scPg v_scTr v_evq v_journal v_log v_ports v_herder v_serif v_raman v_pointer v_inkstone v_links v_pair v_safety v_free, ob { s with mode := v_mode, banks := v_banks, params := v_params, evq := v_evq, journal := v_journal, log := v_log, ports := v_ports, herder := v_herder, serif := v_serif, raman := v_raman, pointer := v_pointer, inkstone := v_inkstone, links := v_links, pair := v_pair, safety := v_safety, free := v_free, scribe := { s.scribe with page := v_scPg, transports := v_scTr } } = ob s) (old : State) (terms : ℕ) (s : State) :
    ob (withdrawDevice old terms s) = ob s := by
  unfold withdrawDevice
  repeat' first | simp only [hob, ite_self, settle_keep ob (fun s v_params v_ports v_raman v_safety => hob s s.mode s.banks v_params s.scribe.page s.scribe.transports s.evq s.journal s.log v_ports s.herder s.serif v_raman s.pointer s.inkstone s.links s.pair v_safety s.free), onSafety_keep ob (fun s v_safety => hob s s.mode s.banks s.params s.scribe.page s.scribe.transports s.evq s.journal s.log s.ports s.herder s.serif s.raman s.pointer s.inkstone s.links s.pair v_safety s.free), emissionStopped_keep ob (fun s v_params v_scPg v_scTr v_evq v_log v_links v_pairTx => hob s s.mode s.banks v_params v_scPg v_scTr v_evq s.journal v_log s.ports s.herder s.serif s.raman s.pointer s.inkstone v_links { s.pair with tx := v_pairTx } s.safety s.free), enterInhibit_keep ob (fun s v_mode v_banks v_params v_scPg v_scTr v_evq v_journal v_log v_ports v_herder v_serif v_raman v_pointer v_inkstone v_links v_pair v_safety v_free => hob s v_mode v_banks v_params v_scPg v_scTr v_evq v_journal v_log v_ports v_herder v_serif v_raman v_pointer v_inkstone v_links v_pair v_safety v_free), interruptTransition_keep ob (fun s v_mode v_params v_scPg v_scTr v_evq v_journal v_log v_ports v_links v_pairTx => hob s v_mode s.banks v_params v_scPg v_scTr v_evq v_journal v_log v_ports s.herder s.serif s.raman s.pointer s.inkstone v_links { s.pair with tx := v_pairTx } s.safety s.free)] | split

end Sys2Proof.Machine
end

