-- ==== Sys2Proof/Laws/Keep3.lean ====
section
/-! SUPPORT. What the shared operations leave alone, continued: one `f_keep` for each, as in Laws/Keep1.lean. -/

set_option linter.unusedSimpArgs false
set_option linter.unreachableTactic false
set_option linter.unusedTactic false

namespace Sys2Proof.Machine

theorem deviceTermFalls_keep {β : Type} (ob : State → β)
    (hob : ∀ (s : State) v_mode v_banks v_params v_scPg v_scTr v_evq v_journal v_log v_ports v_herder v_serif v_raman v_pointer v_inkstone v_links v_pair v_safety v_free, ob { s with mode := v_mode, banks := v_banks, params := v_params, evq := v_evq, journal := v_journal, log := v_log, ports := v_ports, herder := v_herder, serif := v_serif, raman := v_raman, pointer := v_pointer, inkstone := v_inkstone, links := v_links, pair := v_pair, safety := v_safety, free := v_free, scribe := { s.scribe with page := v_scPg, transports := v_scTr } } = ob s) (old : State) (term : ℕ) (s : State) :
    ob (deviceTermFalls old term s) = ob s := by
  unfold deviceTermFalls
  repeat' first | simp only [hob, ite_self, withdrawDevice_keep ob (fun s v_mode v_banks v_params v_scPg v_scTr v_evq v_journal v_log v_ports v_herder v_serif v_raman v_pointer v_inkstone v_links v_pair v_safety v_free => hob s v_mode v_banks v_params v_scPg v_scTr v_evq v_journal v_log v_ports v_herder v_serif v_raman v_pointer v_inkstone v_links v_pair v_safety v_free), settle_keep ob (fun s v_params v_ports v_raman v_safety => hob s s.mode s.banks v_params s.scribe.page s.scribe.transports s.evq s.journal s.log v_ports s.herder s.serif v_raman s.pointer s.inkstone s.links s.pair v_safety s.free)] | split

theorem railReturn_keep {β : Type} (ob : State → β)
    (hob : ∀ (s : State) v_calib, ob { s with calib := v_calib } = ob s) (p : ℕ) (s : State) :
    ob (railReturn p s) = ob s := by
  unfold railReturn
  repeat' first | simp only [hob, ite_self, onCal_keep ob (fun s v_calib => hob s v_calib)] | split

theorem retarget_keep {β : Type} (ob : State → β)
    (hob : ∀ (s : State) v_ports v_time, ob { s with ports := v_ports, time := v_time } = ob s) (s : State) :
    ob (retarget  s) = ob s := by
  unfold retarget
  repeat' first | simp only [hob, ite_self, onTime_keep ob (fun s v_time => hob s s.ports v_time)] | split

theorem leaveHoldover_keep {β : Type} (ob : State → β)
    (hob : ∀ (s : State) v_params v_scPg v_scTr v_evq v_log v_ports v_time v_links v_pairTx, ob { s with params := v_params, evq := v_evq, log := v_log, ports := v_ports, time := v_time, links := v_links, scribe := { s.scribe with page := v_scPg, transports := v_scTr }, pair := { s.pair with tx := v_pairTx } } = ob s) (s : State) :
    ob (leaveHoldover  s) = ob s := by
  unfold leaveHoldover
  repeat' first | simp only [hob, ite_self, post_keep ob (fun s v_params v_scPg v_scTr v_evq v_log v_links v_pairTx => hob s v_params v_scPg v_scTr v_evq v_log s.ports s.time v_links v_pairTx), retarget_keep ob (fun s v_ports v_time => hob s s.params s.scribe.page s.scribe.transports s.evq s.log v_ports v_time s.links s.pair.tx), onTime_keep ob (fun s v_time => hob s s.params s.scribe.page s.scribe.transports s.evq s.log s.ports v_time s.links s.pair.tx)] | split

theorem switchDomain_keep {β : Type} (ob : State → β)
    (hob : ∀ (s : State) v_params v_scPg v_scTr v_evq v_log v_ports v_time v_links v_pairTx, ob { s with params := v_params, evq := v_evq, log := v_log, ports := v_ports, time := v_time, links := v_links, scribe := { s.scribe with page := v_scPg, transports := v_scTr }, pair := { s.pair with tx := v_pairTx } } = ob s) (d : Fin 2) (auto : Bool) (s : State) :
    ob (switchDomain d auto s) = ob s := by
  unfold switchDomain
  repeat' first | simp only [hob, ite_self, post_keep ob (fun s v_params v_scPg v_scTr v_evq v_log v_links v_pairTx => hob s v_params v_scPg v_scTr v_evq v_log s.ports s.time v_links v_pairTx), onTime_keep ob (fun s v_time => hob s s.params s.scribe.page s.scribe.transports s.evq s.log s.ports v_time s.links s.pair.tx), leaveHoldover_keep ob (fun s v_params v_scPg v_scTr v_evq v_log v_ports v_time v_links v_pairTx => hob s v_params v_scPg v_scTr v_evq v_log v_ports v_time v_links v_pairTx), retarget_keep ob (fun s v_ports v_time => hob s s.params s.scribe.page s.scribe.transports s.evq s.log v_ports v_time s.links s.pair.tx)] | split

theorem enterHoldover_keep {β : Type} (ob : State → β)
    (hob : ∀ (s : State) v_params v_scPg v_scTr v_evq v_log v_time v_links v_pairTx, ob { s with params := v_params, evq := v_evq, log := v_log, time := v_time, links := v_links, scribe := { s.scribe with page := v_scPg, transports := v_scTr }, pair := { s.pair with tx := v_pairTx } } = ob s) (cause : ℕ) (s : State) :
    ob (enterHoldover cause s) = ob s := by
  unfold enterHoldover
  repeat' first | simp only [hob, ite_self, onTime_keep ob (fun s v_time => hob s s.params s.scribe.page s.scribe.transports s.evq s.log v_time s.links s.pair.tx), post_keep ob (fun s v_params v_scPg v_scTr v_evq v_log v_links v_pairTx => hob s v_params v_scPg v_scTr v_evq v_log s.time v_links v_pairTx), bump_keep ob (fun s v_params => hob s v_params s.scribe.page s.scribe.transports s.evq s.log s.time s.links s.pair.tx)] | split

theorem domainUnlocked_keep {β : Type} (ob : State → β)
    (hob : ∀ (s : State) v_params v_scPg v_scTr v_evq v_log v_ports v_time v_links v_pairTx, ob { s with params := v_params, evq := v_evq, log := v_log, ports := v_ports, time := v_time, links := v_links, scribe := { s.scribe with page := v_scPg, transports := v_scTr }, pair := { s.pair with tx := v_pairTx } } = ob s) (d : Fin 2) (s : State) :
    ob (domainUnlocked d s) = ob s := by
  unfold domainUnlocked
  repeat' first | simp only [hob, ite_self, switchDomain_keep ob (fun s v_params v_scPg v_scTr v_evq v_log v_ports v_time v_links v_pairTx => hob s v_params v_scPg v_scTr v_evq v_log v_ports v_time v_links v_pairTx), enterHoldover_keep ob (fun s v_params v_scPg v_scTr v_evq v_log v_time v_links v_pairTx => hob s v_params v_scPg v_scTr v_evq v_log s.ports v_time v_links v_pairTx)] | split

theorem onLane_keep {β : Type} (ob : State → β)
    (hob : ∀ (s : State) v_serif, ob { s with serif := v_serif } = ob s) (l : ℕ) (f : Lane → Lane) (s : State) :
    ob (onLane l f s) = ob s := by
  unfold onLane
  simp only [hob, ite_self]

theorem enterFault_keep {β : Type} (ob : State → β)
    (hob : ∀ (s : State) v_mode v_banks v_params v_scPg v_scTr v_evq v_journal v_log v_ports v_herder v_serif v_raman v_pointer v_inkstone v_links v_pair v_safety v_free, ob { s with mode := v_mode, banks := v_banks, params := v_params, evq := v_evq, journal := v_journal, log := v_log, ports := v_ports, herder := v_herder, serif := v_serif, raman := v_raman, pointer := v_pointer, inkstone := v_inkstone, links := v_links, pair := v_pair, safety := v_safety, free := v_free, scribe := { s.scribe with page := v_scPg, transports := v_scTr } } = ob s) (code : ℕ) (present : Bool) (s : State) :
    ob (enterFault code present s) = ob s := by
  unfold enterFault
  repeat' first | with_reducible rfl | simp only [hob, ite_self, onMode_keep ob (fun s v_mode => hob s v_mode s.banks s.params s.scribe.page s.scribe.transports s.evq s.journal s.log s.ports s.herder s.serif s.raman s.pointer s.inkstone s.links s.pair s.safety s.free), cutHandover_keep ob (fun s v_params v_scPg v_scTr v_evq v_journal v_log v_links v_pair => hob s s.mode s.banks v_params v_scPg v_scTr v_evq v_journal v_log s.ports s.herder s.serif s.raman s.pointer s.inkstone v_links v_pair s.safety s.free), finishSwitch_keep ob (fun s v_banks v_params v_scPg v_scTr v_evq v_journal v_log v_ports v_herder v_serif v_raman v_pointer v_inkstone v_links v_pairTx v_safety v_free => hob s s.mode v_banks v_params v_scPg v_scTr v_evq v_journal v_log v_ports v_herder v_serif v_raman v_pointer v_inkstone v_links { s.pair with tx := v_pairTx } v_safety v_free), endSurvey_keep ob (fun s v_mode v_params v_scPg v_scTr v_evq v_journal v_log v_ports v_links v_pairTx => hob s v_mode s.banks v_params v_scPg v_scTr v_evq v_journal v_log v_ports s.herder s.serif s.raman s.pointer s.inkstone v_links { s.pair with tx := v_pairTx } s.safety s.free), interruptTransition_keep ob (fun s v_mode v_params v_scPg v_scTr v_evq v_journal v_log v_ports v_links v_pairTx => hob s v_mode s.banks v_params v_scPg v_scTr v_evq v_journal v_log v_ports s.herder s.serif s.raman s.pointer s.inkstone v_links { s.pair with tx := v_pairTx } s.safety s.free), ramanDiscard_keep ob (fun s v_params v_scPg v_scTr v_evq v_log v_raman v_links v_pairTx => hob s s.mode s.banks v_params v_scPg v_scTr v_evq s.journal v_log s.ports s.herder s.serif v_raman s.pointer s.inkstone v_links { s.pair with tx := v_pairTx } s.safety s.free), closeAllRecords_keep ob (fun s v_params v_scPg v_scTr v_evq v_journal v_log v_pointer v_inkstone v_links v_pairTx => hob s s.mode s.banks v_params v_scPg v_scTr v_evq v_journal v_log s.ports s.herder s.serif s.raman v_pointer v_inkstone v_links { s.pair with tx := v_pairTx } s.safety s.free), onPair_keep ob (fun s v_pair => hob s s.mode s.banks s.params s.scribe.page s.scribe.transports s.evq s.journal s.log s.ports s.herder s.serif s.raman s.pointer s.inkstone s.links v_pair s.safety s.free), post_keep ob (fun s v_params v_scPg v_scTr v_evq v_log v_links v_pairTx => hob s s.mode s.banks v_params v_scPg v_scTr v_evq s.journal v_log s.ports s.herder s.serif s.raman s.pointer s.inkstone v_links { s.pair with tx := v_pairTx } s.safety s.free), irqBoth_keep ob (fun s v_scPg v_lkMsix v_lkWake => hob s s.mode s.banks s.params v_scPg s.scribe.transports s.evq s.journal s.log s.ports s.herder s.serif s.raman s.pointer s.inkstone { s.links with msix := v_lkMsix, peWake := v_lkWake } s.pair s.safety s.free), setMode_keep ob (fun s v_mode v_params v_scPg v_scTr v_evq v_journal v_log v_ports v_raman v_pointer v_inkstone v_links v_pair v_safety => hob s v_mode s.banks v_params v_scPg v_scTr v_evq v_journal v_log v_ports s.herder s.serif v_raman v_pointer v_inkstone v_links v_pair v_safety s.free)] | split | with_reducible refine (forEach_keep ob _ (fun _ _ => ?_) _ _).trans ?_ | with_reducible apply forEach_keep ob | with_reducible refine (foldl_keep ob _ (fun _ _ => ?_) _ _).trans ?_ | rw [apply_ite ob]

theorem flashState_keep {β : Type} (ob : State → β)
    (hob : ∀ (s : State) v_power v_clocks v_straps v_pins v_mode v_banks v_params v_booted v_modeEntry v_scribe v_evq v_log v_firmware v_ports v_herder v_serif v_raman v_rtd v_hk v_pointer v_inkstone v_memory v_time v_links v_pair v_safety v_calib, ob { s with power := v_power, clocks := v_clocks, straps := v_straps, pins := v_pins, mode := v_mode, banks := v_banks, params := v_params, booted := v_booted, modeEntry := v_modeEntry, scribe := v_scribe, evq := v_evq, log := v_log, firmware := v_firmware, ports := v_ports, herder := v_herder, serif := v_serif, raman := v_raman, rtd := v_rtd, hk := v_hk, pointer := v_pointer, inkstone := v_inkstone, memory := v_memory, time := v_time, links := v_links, pair := v_pair, safety := v_safety, calib := v_calib } = ob s) (s : State) :
    ob (flashState  s) = ob s := by
  exact hob s _ _ _ _ _ _ _ _ _ _ _ _ _ _ _ _ _ _ _ _ _ _ _ _ _ _ _

theorem deviceReset_keep {β : Type} (ob : State → β)
    (hob : ∀ (s : State) v_power v_clocks v_straps v_pins v_mode v_banks v_params v_booted v_modeEntry v_scribe v_evq v_log v_firmware v_ports v_herder v_serif v_raman v_rtd v_hk v_pointer v_inkstone v_memory v_time v_links v_pair v_safety v_calib, ob { s with power := v_power, clocks := v_clocks, straps := v_straps, pins := v_pins, mode := v_mode, banks := v_banks, params := v_params, booted := v_booted, modeEntry := v_modeEntry, scribe := v_scribe, evq := v_evq, log := v_log, firmware := v_firmware, ports := v_ports, herder := v_herder, serif := v_serif, raman := v_raman, rtd := v_rtd, hk := v_hk, pointer := v_pointer, inkstone := v_inkstone, memory := v_memory, time := v_time, links := v_links, pair := v_pair, safety := v_safety, calib := v_calib } = ob s) (held : Bool) (s : State) :
    ob (deviceReset held s) = ob s := by
  unfold deviceReset
  simp only [hob, ite_self, flashState_keep ob (fun s v_power v_clocks v_straps v_pins v_mode v_banks v_params v_booted v_modeEntry v_scribe v_evq v_log v_firmware v_ports v_herder v_serif v_raman v_rtd v_hk v_pointer v_inkstone v_memory v_time v_links v_pair v_safety v_calib => hob s v_power v_clocks v_straps v_pins v_mode v_banks v_params v_booted v_modeEntry v_scribe v_evq v_log v_firmware v_ports v_herder v_serif v_raman v_rtd v_hk v_pointer v_inkstone v_memory v_time v_links v_pair v_safety v_calib)]

theorem onFw_keep {β : Type} (ob : State → β)
    (hob : ∀ (s : State) v_firmware, ob { s with firmware := v_firmware } = ob s) (f : Firmware → Firmware) (s : State) :
    ob (onFw f s) = ob s := by
  unfold onFw
  simp only [hob, ite_self]

theorem lwgRelease_keep {β : Type} (ob : State → β)
    (hob : ∀ (s : State) v_safety, ob { s with safety := v_safety } = ob s) (p : ℕ) (s : State) :
    ob (lwgRelease p s) = ob s := by
  unfold lwgRelease
  repeat' first | simp only [hob, ite_self, onSafety_keep ob (fun s v_safety => hob s v_safety)] | split

theorem wakeDram_keep {β : Type} (ob : State → β)
    (hob : ∀ (s : State) v_memory v_calib, ob { s with memory := v_memory, calib := v_calib } = ob s) (s : State) :
    ob (wakeDram  s) = ob s := by
  unfold wakeDram
  repeat' first | with_reducible rfl | simp only [hob, ite_self, onCal_keep ob (fun s v_calib => hob s s.memory v_calib), dramTrain_keep ob (fun s v_memory => hob s v_memory s.calib), onDram_keep ob (fun s v_memory => hob s v_memory s.calib)] | split | with_reducible refine (forEach_keep ob _ (fun _ _ => ?_) _ _).trans ?_ | with_reducible apply forEach_keep ob | with_reducible refine (foldl_keep ob _ (fun _ _ => ?_) _ _).trans ?_ | rw [apply_ite ob]

theorem onPower_keep {β : Type} (ob : State → β)
    (hob : ∀ (s : State) v_power, ob { s with power := v_power } = ob s) (f : Power → Power) (s : State) :
    ob (onPower f s) = ob s := by
  unfold onPower
  simp only [hob, ite_self]

theorem onClk_keep {β : Type} (ob : State → β)
    (hob : ∀ (s : State) v_clocks, ob { s with clocks := v_clocks } = ob s) (f : Clocks → Clocks) (s : State) :
    ob (onClk f s) = ob s := by
  unfold onClk
  simp only [hob, ite_self]

theorem onRtd_keep {β : Type} (ob : State → β)
    (hob : ∀ (s : State) v_rtd, ob { s with rtd := v_rtd } = ob s) (k : ℕ) (f : Rtd → Rtd) (s : State) :
    ob (onRtd k f s) = ob s := by
  unfold onRtd
  simp only [hob, ite_self]

theorem journalSteps_keep {β : Type} (ob : State → β)
    (hob : ∀ (s : State) v_params v_scPg v_scTr v_evq v_journal v_log v_links v_pairTx, ob { s with params := v_params, evq := v_evq, journal := v_journal, log := v_log, links := v_links, scribe := { s.scribe with page := v_scPg, transports := v_scTr }, pair := { s.pair with tx := v_pairTx } } = ob s) (n : ℕ) (k : ℕ) (s : State) :
    ob (journalSteps n k s) = ob s := by
  unfold journalSteps
  repeat' first | with_reducible rfl | simp only [hob, ite_self, journalEnd_keep ob (fun s v_params v_scPg v_scTr v_evq v_journal v_log v_links v_pairTx => hob s v_params v_scPg v_scTr v_evq v_journal v_log v_links v_pairTx), journalStep_keep ob (fun s v_journal => hob s s.params s.scribe.page s.scribe.transports s.evq v_journal s.log s.links s.pair.tx)] | split | with_reducible refine (forEach_keep ob _ (fun _ _ => ?_) _ _).trans ?_ | with_reducible apply forEach_keep ob | with_reducible refine (foldl_keep ob _ (fun _ _ => ?_) _ _).trans ?_ | rw [apply_ite ob]

theorem calDone_keep {β : Type} (ob : State → β)
    (hob : ∀ (s : State) v_params v_scPg v_scTr v_evq v_log v_links v_pairTx, ob { s with params := v_params, evq := v_evq, log := v_log, links := v_links, scribe := { s.scribe with page := v_scPg, transports := v_scTr }, pair := { s.pair with tx := v_pairTx } } = ob s) (item : ℕ) (index : ℕ) (journal : ℕ) (s : State) :
    ob (calDone item index journal s) = ob s := by
  unfold calDone
  simp only [hob, ite_self, post_keep ob (fun s v_params v_scPg v_scTr v_evq v_log v_links v_pairTx => hob s v_params v_scPg v_scTr v_evq v_log v_links v_pairTx)]

theorem plugRelease_keep {β : Type} (ob : State → β)
    (hob : ∀ (s : State) v_params v_scPg v_scTr v_evq v_log v_links v_pairTx v_safety, ob { s with params := v_params, evq := v_evq, log := v_log, links := v_links, safety := v_safety, scribe := { s.scribe with page := v_scPg, transports := v_scTr }, pair := { s.pair with tx := v_pairTx } } = ob s) (p : ℕ) (s : State) :
    ob (plugRelease p s) = ob s := by
  unfold plugRelease
  repeat' first | simp only [hob, ite_self, post_keep ob (fun s v_params v_scPg v_scTr v_evq v_log v_links v_pairTx => hob s v_params v_scPg v_scTr v_evq v_log v_links v_pairTx s.safety), onSafety_keep ob (fun s v_safety => hob s s.params s.scribe.page s.scribe.transports s.evq s.log s.links s.pair.tx v_safety)] | split

theorem countViolation_keep {β : Type} (ob : State → β)
    (hob : ∀ (s : State) v_params v_scPg v_scTr v_evq v_log v_links v_pairTx, ob { s with params := v_params, evq := v_evq, log := v_log, links := v_links, scribe := { s.scribe with page := v_scPg, transports := v_scTr }, pair := { s.pair with tx := v_pairTx } } = ob s) (t : ℕ) (s : State) :
    ob (countViolation t s) = ob s := by
  unfold countViolation
  repeat' first | simp only [hob, ite_self, bump_keep ob (fun s v_params => hob s v_params s.scribe.page s.scribe.transports s.evq s.log s.links s.pair.tx), post_keep ob (fun s v_params v_scPg v_scTr v_evq v_log v_links v_pairTx => hob s v_params v_scPg v_scTr v_evq v_log v_links v_pairTx), onTransport_keep ob (fun s v_scTr => hob s s.params s.scribe.page v_scTr s.evq s.log s.links s.pair.tx)] | split

theorem onTdc_keep {β : Type} (ob : State → β)
    (hob : ∀ (s : State) v_time, ob { s with time := v_time } = ob s) (f : Tdc → Tdc) (s : State) :
    ob (onTdc f s) = ob s := by
  unfold onTdc
  simp only [hob, ite_self, onTime_keep ob (fun s v_time => hob s v_time)]

theorem tdcGrade_keep {β : Type} (ob : State → β)
    (hob : ∀ (s : State) v_time, ob { s with time := v_time } = ob s) (s : State) :
    ob (tdcGrade  s) = ob s := by
  unfold tdcGrade
  repeat' first | simp only [hob, ite_self, onTdc_keep ob (fun s v_time => hob s v_time)] | split

theorem refReact_keep {β : Type} (ob : State → β)
    (hob : ∀ (s : State) v_clocks v_time, ob { s with clocks := v_clocks, time := v_time } = ob s) (s : State) :
    ob (refReact  s) = ob s := by
  unfold refReact
  repeat' first | simp only [hob, ite_self, onClk_keep ob (fun s v_clocks => hob s v_clocks s.time), tdcGrade_keep ob (fun s v_time => hob s s.clocks v_time)] | split

theorem stageValue_keep {β : Type} (ob : State → β)
    (hob : ∀ (s : State) v_banks, ob { s with banks := v_banks } = ob s) (id : ℕ) (idx : ℕ) (v : ℤ) (s : State) :
    ob (stageValue id idx v s) = ob s := by
  unfold stageValue
  simp only [hob, ite_self, onBanks_keep ob (fun s v_banks => hob s v_banks)]

theorem beginTransition_keep {β : Type} (ob : State → β)
    (hob : ∀ (s : State) v_mode v_ports v_memory v_calib, ob { s with mode := v_mode, ports := v_ports, memory := v_memory, calib := v_calib } = ob s) (t : Transition) (s : State) :
    ob (beginTransition t s) = ob s := by
  unfold beginTransition
  repeat' first | simp only [hob, ite_self, onMode_keep ob (fun s v_mode => hob s v_mode s.ports s.memory s.calib), wakeDram_keep ob (fun s v_memory v_calib => hob s s.mode s.ports v_memory v_calib), stopPorts_keep ob (fun s v_ports => hob s s.mode v_ports s.memory s.calib)] | split

theorem discardStaged_keep {β : Type} (ob : State → β)
    (hob : ∀ (s : State) v_params v_scPg v_scTr v_evq v_log v_links v_pairTx, ob { s with params := v_params, evq := v_evq, log := v_log, links := v_links, scribe := { s.scribe with page := v_scPg, transports := v_scTr }, pair := { s.pair with tx := v_pairTx } } = ob s) (q : ℕ) (cause : ℕ) (s : State) :
    ob (discardStaged q cause s) = ob s := by
  unfold discardStaged
  simp only [hob, ite_self, dropItems_keep ob (fun s v_params v_scPg v_scTr v_evq v_log v_links v_pairTx => hob s v_params v_scPg v_scTr v_evq v_log v_links v_pairTx), onQueue_keep ob (fun s v_links => hob s s.params s.scribe.page s.scribe.transports s.evq s.log v_links s.pair.tx)]

theorem ethDown_keep {β : Type} (ob : State → β)
    (hob : ∀ (s : State) v_params v_scPg v_scTr v_evq v_log v_links v_pairTx, ob { s with params := v_params, evq := v_evq, log := v_log, links := v_links, scribe := { s.scribe with page := v_scPg, transports := v_scTr }, pair := { s.pair with tx := v_pairTx } } = ob s) (n : ℕ) (s : State) :
    ob (ethDown n s) = ob s := by
  unfold ethDown
  repeat' first | with_reducible rfl | simp only [hob, ite_self, onEth_keep ob (fun s v_lkEth => hob s s.params s.scribe.page s.scribe.transports s.evq s.log { s.links with eth := v_lkEth } s.pair.tx), dropItems_keep ob (fun s v_params v_scPg v_scTr v_evq v_log v_links v_pairTx => hob s v_params v_scPg v_scTr v_evq v_log v_links v_pairTx), discardStaged_keep ob (fun s v_params v_scPg v_scTr v_evq v_log v_links v_pairTx => hob s v_params v_scPg v_scTr v_evq v_log v_links v_pairTx), tell_keep ob (fun s v_params v_scPg v_scTr v_evq v_log v_links v_pairTx => hob s v_params v_scPg v_scTr v_evq v_log v_links v_pairTx), bump_keep ob (fun s v_params => hob s v_params s.scribe.page s.scribe.transports s.evq s.log s.links s.pair.tx)] | split | with_reducible refine (forEach_keep ob _ (fun _ _ => ?_) _ _).trans ?_ | with_reducible apply forEach_keep ob | with_reducible refine (foldl_keep ob _ (fun _ _ => ?_) _ _).trans ?_ | rw [apply_ite ob]

theorem linksFollow_keep {β : Type} (ob : State → β)
    (hob : ∀ (s : State) v_params v_scPg v_scTr v_evq v_log v_links v_pairTx, ob { s with params := v_params, evq := v_evq, log := v_log, links := v_links, scribe := { s.scribe with page := v_scPg, transports := v_scTr }, pair := { s.pair with tx := v_pairTx } } = ob s) (s : State) :
    ob (linksFollow  s) = ob s := by
  unfold linksFollow
  repeat' first | with_reducible rfl | simp only [hob, ite_self, ethDown_keep ob (fun s v_params v_scPg v_scTr v_evq v_log v_links v_pairTx => hob s v_params v_scPg v_scTr v_evq v_log v_links v_pairTx)] | split | with_reducible refine (forEach_keep ob _ (fun _ _ => ?_) _ _).trans ?_ | with_reducible apply forEach_keep ob | with_reducible refine (foldl_keep ob _ (fun _ _ => ?_) _ _).trans ?_ | rw [apply_ite ob]

theorem activate_keep {β : Type} (ob : State → β)
    (hob : ∀ (s : State) v_mode v_banks v_params v_scPg v_scTr v_evq v_journal v_log v_ports v_herder v_serif v_raman v_pointer v_inkstone v_links v_pairTx v_safety v_calib v_free, ob { s with mode := v_mode, banks := v_banks, params := v_params, evq := v_evq, journal := v_journal, log := v_log, ports := v_ports, herder := v_herder, serif := v_serif, raman := v_raman, pointer := v_pointer, inkstone := v_inkstone, links := v_links, safety := v_safety, calib := v_calib, free := v_free, scribe := { s.scribe with page := v_scPg, transports := v_scTr }, pair := { s.pair with tx := v_pairTx } } = ob s) (new : Bank) (run : Plan) (sentinel : Plan) (s : State) :
    ob (activate new run sentinel s) = ob s := by
  unfold activate
  repeat' first | with_reducible rfl | simp only [hob, ite_self, onBanks_keep ob (fun s v_banks => hob s s.mode v_banks s.params s.scribe.page s.scribe.transports s.evq s.journal s.log s.ports s.herder s.serif s.raman s.pointer s.inkstone s.links s.pair.tx s.safety s.calib s.free), onMode_keep ob (fun s v_mode => hob s v_mode s.banks s.params s.scribe.page s.scribe.transports s.evq s.journal s.log s.ports s.herder s.serif s.raman s.pointer s.inkstone s.links s.pair.tx s.safety s.calib s.free), onItem_keep ob (fun s v_calib => hob s s.mode s.banks s.params s.scribe.page s.scribe.transports s.evq s.journal s.log s.ports s.herder s.serif s.raman s.pointer s.inkstone s.links s.pair.tx s.safety v_calib s.free), linksFollow_keep ob (fun s v_params v_scPg v_scTr v_evq v_log v_links v_pairTx => hob s s.mode s.banks v_params v_scPg v_scTr v_evq s.journal v_log s.ports s.herder s.serif s.raman s.pointer s.inkstone v_links v_pairTx s.safety s.calib s.free), finishSwitch_keep ob (fun s v_banks v_params v_scPg v_scTr v_evq v_journal v_log v_ports v_herder v_serif v_raman v_pointer v_inkstone v_links v_pairTx v_safety v_free => hob s s.mode v_banks v_params v_scPg v_scTr v_evq v_journal v_log v_ports v_herder v_serif v_raman v_pointer v_inkstone v_links v_pairTx v_safety s.calib v_free)] | split | with_reducible refine (forEach_keep ob _ (fun _ _ => ?_) _ _).trans ?_ | with_reducible apply forEach_keep ob | with_reducible refine (foldl_keep ob _ (fun _ _ => ?_) _ _).trans ?_ | rw [apply_ite ob]

theorem enqueue_keep {β : Type} (ob : State → β)
    (hob : ∀ (s : State) v_scribe, ob { s with scribe := v_scribe } = ob s) (r : Request) (s : State) :
    ob (enqueue r s) = ob s := by
  unfold enqueue
  simp only [hob, ite_self]

theorem logOnly_keep {β : Type} (ob : State → β)
    (hob : ∀ (s : State) v_params v_log v_links, ob { s with params := v_params, log := v_log, links := v_links } = ob s) (code : ℕ) (a0 : ℤ) (a1 : ℤ) (a2 : ℤ) (data : List Byte) (s : State) :
    ob (logOnly code a0 a1 a2 data s) = ob s := by
  unfold logOnly
  simp only [hob, ite_self, logPost_keep ob (fun s v_params v_log v_links => hob s v_params v_log v_links)]

theorem violate_keep {β : Type} (ob : State → β)
    (hob : ∀ (s : State) v_params v_scPg v_scTr v_evq v_log v_links v_pairTx, ob { s with params := v_params, evq := v_evq, log := v_log, links := v_links, scribe := { s.scribe with page := v_scPg, transports := v_scTr }, pair := { s.pair with tx := v_pairTx } } = ob s) (t : ℕ) (status : ℕ) (opcode : ℕ) (first : List Byte) (s : State) :
    ob (violate t status opcode first s) = ob s := by
  unfold violate
  simp only [hob, ite_self, countViolation_keep ob (fun s v_params v_scPg v_scTr v_evq v_log v_links v_pairTx => hob s v_params v_scPg v_scTr v_evq v_log v_links v_pairTx), logOnly_keep ob (fun s v_params v_log v_links => hob s v_params s.scribe.page s.scribe.transports s.evq v_log v_links s.pair.tx)]

theorem admitRequest_keep {β : Type} (ob : State → β)
    (hob : ∀ (s : State) v_params v_scribe v_evq v_log v_links v_pairTx, ob { s with params := v_params, scribe := v_scribe, evq := v_evq, log := v_log, links := v_links, pair := { s.pair with tx := v_pairTx } } = ob s) (r : Request) (s : State) :
    ob (admitRequest r s) = ob s := by
  unfold admitRequest
  repeat' first | simp only [hob, ite_self, answerWith_keep ob (fun s v_scTr v_lkEth v_pairTx => hob s s.params { s.scribe with transports := v_scTr } s.evq s.log { s.links with eth := v_lkEth } v_pairTx), onTransport_keep ob (fun s v_scTr => hob s s.params { s.scribe with transports := v_scTr } s.evq s.log s.links s.pair.tx), enqueue_keep ob (fun s v_scribe => hob s s.params v_scribe s.evq s.log s.links s.pair.tx), refuse_keep ob (fun s v_scTr v_lkEth v_pairTx => hob s s.params { s.scribe with transports := v_scTr } s.evq s.log { s.links with eth := v_lkEth } v_pairTx), violate_keep ob (fun s v_params v_scPg v_scTr v_evq v_log v_links v_pairTx => hob s v_params { s.scribe with page := v_scPg, transports := v_scTr } v_evq v_log v_links v_pairTx)] | split

theorem beginRelease_keep {β : Type} (ob : State → β)
    (hob : ∀ (s : State) v_mode v_params v_scPg v_scTr v_evq v_journal v_log v_ports v_raman v_pointer v_inkstone v_links v_pair v_safety, ob { s with mode := v_mode, params := v_params, evq := v_evq, journal := v_journal, log := v_log, ports := v_ports, raman := v_raman, pointer := v_pointer, inkstone := v_inkstone, links := v_links, pair := v_pair, safety := v_safety, scribe := { s.scribe with page := v_scPg, transports := v_scTr } } = ob s) (cause : ℕ) (s : State) :
    ob (beginRelease cause s) = ob s := by
  unfold beginRelease
  simp only [hob, ite_self, interruptTransition_keep ob (fun s v_mode v_params v_scPg v_scTr v_evq v_journal v_log v_ports v_links v_pairTx => hob s v_mode v_params v_scPg v_scTr v_evq v_journal v_log v_ports s.raman s.pointer s.inkstone v_links { s.pair with tx := v_pairTx } s.safety), onPair_keep ob (fun s v_pair => hob s s.mode s.params s.scribe.page s.scribe.transports s.evq s.journal s.log s.ports s.raman s.pointer s.inkstone s.links v_pair s.safety), post_keep ob (fun s v_params v_scPg v_scTr v_evq v_log v_links v_pairTx => hob s s.mode v_params v_scPg v_scTr v_evq s.journal v_log s.ports s.raman s.pointer s.inkstone v_links { s.pair with tx := v_pairTx } s.safety), setMode_keep ob (fun s v_mode v_params v_scPg v_scTr v_evq v_journal v_log v_ports v_raman v_pointer v_inkstone v_links v_pair v_safety => hob s v_mode v_params v_scPg v_scTr v_evq v_journal v_log v_ports v_raman v_pointer v_inkstone v_links v_pair v_safety)]

theorem enqueueInternal_keep {β : Type} (ob : State → β)
    (hob : ∀ (s : State) v_scribe, ob { s with scribe := v_scribe } = ob s) (opcode : ℕ) (payload : List Byte) (s : State) :
    ob (enqueueInternal opcode payload s) = ob s := by
  unfold enqueueInternal
  simp only [hob, ite_self, enqueue_keep ob (fun s v_scribe => hob s v_scribe)]

theorem dramReturns_keep {β : Type} (ob : State → β)
    (hob : ∀ (s : State) v_clocks v_memory, ob { s with clocks := v_clocks, memory := v_memory } = ob s) (s : State) :
    ob (dramReturns  s) = ob s := by
  unfold dramReturns
  repeat' first | with_reducible rfl | simp only [hob, ite_self, dramTrain_keep ob (fun s v_memory => hob s s.clocks v_memory)] | split | with_reducible refine (forEach_keep ob _ (fun _ _ => ?_) _ _).trans ?_ | with_reducible apply forEach_keep ob | with_reducible refine (foldl_keep ob _ (fun _ _ => ?_) _ _).trans ?_ | rw [apply_ite ob]

theorem loseHistory_keep {β : Type} (ob : State → β)
    (hob : ∀ (s : State) v_params v_scPg v_scTr v_evq v_log v_herder v_serif v_links v_pairTx, ob { s with params := v_params, evq := v_evq, log := v_log, herder := v_herder, serif := v_serif, links := v_links, scribe := { s.scribe with page := v_scPg, transports := v_scTr }, pair := { s.pair with tx := v_pairTx } } = ob s) (z : ℕ) (arg : ℕ) (lost : ℕ) (s : State) :
    ob (loseHistory z arg lost s) = ob s := by
  unfold loseHistory
  simp only [hob, ite_self, post_keep ob (fun s v_params v_scPg v_scTr v_evq v_log v_links v_pairTx => hob s v_params v_scPg v_scTr v_evq v_log s.herder s.serif v_links v_pairTx), noteGap_keep ob (fun s v_herder => hob s s.params s.scribe.page s.scribe.transports s.evq s.log v_herder s.serif s.links s.pair.tx), forgetPieces_keep ob (fun s v_serif => hob s s.params s.scribe.page s.scribe.transports s.evq s.log s.herder v_serif s.links s.pair.tx), onZone_keep ob (fun s v_herder => hob s s.params s.scribe.page s.scribe.transports s.evq s.log v_herder s.serif s.links s.pair.tx)]

theorem dramOffline_keep {β : Type} (ob : State → β)
    (hob : ∀ (s : State) v_params v_scPg v_scTr v_evq v_journal v_log v_ports v_herder v_serif v_pointer v_inkstone v_memory v_links v_pairTx v_free, ob { s with params := v_params, evq := v_evq, journal := v_journal, log := v_log, ports := v_ports, herder := v_herder, serif := v_serif, pointer := v_pointer, inkstone := v_inkstone, memory := v_memory, links := v_links, free := v_free, scribe := { s.scribe with page := v_scPg, transports := v_scTr }, pair := { s.pair with tx := v_pairTx } } = ob s) (a : ℕ) (cause : ℕ) (s : State) :
    ob (dramOffline a cause s) = ob s := by
  unfold dramOffline
  repeat' first | with_reducible rfl | simp only [hob, ite_self, onDram_keep ob (fun s v_memory => hob s s.params s.scribe.page s.scribe.transports s.evq s.journal s.log s.ports s.herder s.serif s.pointer s.inkstone v_memory s.links s.pair.tx s.free), post_keep ob (fun s v_params v_scPg v_scTr v_evq v_log v_links v_pairTx => hob s v_params v_scPg v_scTr v_evq s.journal v_log s.ports s.herder s.serif s.pointer s.inkstone s.memory v_links v_pairTx s.free), closeAllRecords_keep ob (fun s v_params v_scPg v_scTr v_evq v_journal v_log v_pointer v_inkstone v_links v_pairTx => hob s v_params v_scPg v_scTr v_evq v_journal v_log s.ports s.herder s.serif v_pointer v_inkstone s.memory v_links v_pairTx s.free), freeData_keep ob (fun s v_params v_scPg v_scTr v_evq v_journal v_log v_pointer v_inkstone v_links v_pairTx => hob s v_params v_scPg v_scTr v_evq v_journal v_log s.ports s.herder s.serif v_pointer v_inkstone s.memory v_links v_pairTx s.free), kennelResize_keep ob (fun s v_params v_scPg v_scTr v_evq v_journal v_log v_pointer v_inkstone v_memory v_links v_pairTx => hob s v_params v_scPg v_scTr v_evq v_journal v_log s.ports s.herder s.serif v_pointer v_inkstone v_memory v_links v_pairTx s.free), onPort_keep ob (fun s v_ports => hob s s.params s.scribe.page s.scribe.transports s.evq s.journal s.log v_ports s.herder s.serif s.pointer s.inkstone s.memory s.links s.pair.tx s.free), loseHistory_keep ob (fun s v_params v_scPg v_scTr v_evq v_log v_herder v_serif v_links v_pairTx => hob s v_params v_scPg v_scTr v_evq s.journal v_log s.ports v_herder v_serif s.pointer s.inkstone s.memory v_links v_pairTx s.free), readmitAll_keep ob (fun s v_params v_scPg v_scTr v_evq v_log v_ports v_herder v_pointer v_inkstone v_links v_pairTx v_free => hob s v_params v_scPg v_scTr v_evq s.journal v_log v_ports v_herder s.serif v_pointer v_inkstone s.memory v_links v_pairTx v_free), ringRestart_keep ob (fun s v_params v_scPg v_scTr v_evq v_journal v_log v_inkstone v_links v_pairTx => hob s v_params v_scPg v_scTr v_evq v_journal v_log s.ports s.herder s.serif s.pointer v_inkstone s.memory v_links v_pairTx s.free), ringDrop_keep ob (fun s v_params v_scPg v_scTr v_evq v_journal v_log v_inkstone v_links v_pairTx => hob s v_params v_scPg v_scTr v_evq v_journal v_log s.ports s.herder s.serif s.pointer v_inkstone s.memory v_links v_pairTx s.free)] | split | with_reducible refine (forEach_keep ob _ (fun _ _ => ?_) _ _).trans ?_ | with_reducible apply forEach_keep ob | with_reducible refine (foldl_keep ob _ (fun _ _ => ?_) _ _).trans ?_ | rw [apply_ite ob]

theorem passSequence_keep {β : Type} (ob : State → β)
    (hob : ∀ (s : State) v_scTr, ob { s with scribe := { s.scribe with transports := v_scTr } } = ob s) (r : Request) (s : State) :
    ob (passSequence r s) = ob s := by
  unfold passSequence
  simp only [hob, ite_self, onTransport_keep ob (fun s v_scTr => hob s v_scTr)]

theorem tdcEnd_keep {β : Type} (ob : State → β)
    (hob : ∀ (s : State) v_params v_scPg v_scTr v_evq v_log v_time v_links v_pairTx, ob { s with params := v_params, evq := v_evq, log := v_log, time := v_time, links := v_links, scribe := { s.scribe with page := v_scPg, transports := v_scTr }, pair := { s.pair with tx := v_pairTx } } = ob s) (aborted : Bool) (s : State) :
    ob (tdcEnd aborted s) = ob s := by
  unfold tdcEnd
  repeat' first | simp only [hob, ite_self, onTdc_keep ob (fun s v_time => hob s s.params s.scribe.page s.scribe.transports s.evq s.log v_time s.links s.pair.tx), post_keep ob (fun s v_params v_scPg v_scTr v_evq v_log v_links v_pairTx => hob s v_params v_scPg v_scTr v_evq v_log s.time v_links v_pairTx)] | split

theorem tdcMeasured_keep {β : Type} (ob : State → β)
    (hob : ∀ (s : State) v_params v_scPg v_scTr v_evq v_log v_time v_links v_pairTx, ob { s with params := v_params, evq := v_evq, log := v_log, time := v_time, links := v_links, scribe := { s.scribe with page := v_scPg, transports := v_scTr }, pair := { s.pair with tx := v_pairTx } } = ob s) (result : Option ℤ) (s : State) :
    ob (tdcMeasured result s) = ob s := by
  unfold tdcMeasured
  repeat' first | simp only [hob, ite_self, onTdc_keep ob (fun s v_time => hob s s.params s.scribe.page s.scribe.transports s.evq s.log v_time s.links s.pair.tx), tdcEnd_keep ob (fun s v_params v_scPg v_scTr v_evq v_log v_time v_links v_pairTx => hob s v_params v_scPg v_scTr v_evq v_log v_time v_links v_pairTx)] | split

theorem estopRelease_keep {β : Type} (ob : State → β)
    (hob : ∀ (s : State) v_params v_scPg v_scTr v_evq v_log v_ports v_raman v_links v_pairTx v_safety, ob { s with params := v_params, evq := v_evq, log := v_log, ports := v_ports, raman := v_raman, links := v_links, safety := v_safety, scribe := { s.scribe with page := v_scPg, transports := v_scTr }, pair := { s.pair with tx := v_pairTx } } = ob s) (how : ℕ) (s : State) :
    ob (estopRelease how s) = ob s := by
  unfold estopRelease
  repeat' first | simp only [hob, ite_self, settle_keep ob (fun s v_params v_ports v_raman v_safety => hob s v_params s.scribe.page s.scribe.transports s.evq s.log v_ports v_raman s.links s.pair.tx v_safety), onSafety_keep ob (fun s v_safety => hob s s.params s.scribe.page s.scribe.transports s.evq s.log s.ports s.raman s.links s.pair.tx v_safety), post_keep ob (fun s v_params v_scPg v_scTr v_evq v_log v_links v_pairTx => hob s v_params v_scPg v_scTr v_evq v_log s.ports s.raman v_links v_pairTx s.safety)] | split

theorem withdrawPort_keep {β : Type} (ob : State → β)
    (hob : ∀ (s : State) v_params v_scPg v_scTr v_evq v_log v_ports v_raman v_links v_pairTx v_safety, ob { s with params := v_params, evq := v_evq, log := v_log, ports := v_ports, raman := v_raman, links := v_links, safety := v_safety, scribe := { s.scribe with page := v_scPg, transports := v_scTr }, pair := { s.pair with tx := v_pairTx } } = ob s) (old : State) (terms : ℕ) (p : ℕ) (s : State) :
    ob (withdrawPort old terms p s) = ob s := by
  unfold withdrawPort
  simp only [hob, ite_self, emissionStopped_keep ob (fun s v_params v_scPg v_scTr v_evq v_log v_links v_pairTx => hob s v_params v_scPg v_scTr v_evq v_log s.ports s.raman v_links v_pairTx s.safety), settle_keep ob (fun s v_params v_ports v_raman v_safety => hob s v_params s.scribe.page s.scribe.transports s.evq s.log v_ports v_raman s.links s.pair.tx v_safety)]

theorem portTermFalls_keep {β : Type} (ob : State → β)
    (hob : ∀ (s : State) v_params v_scPg v_scTr v_evq v_log v_ports v_raman v_links v_pairTx v_safety, ob { s with params := v_params, evq := v_evq, log := v_log, ports := v_ports, raman := v_raman, links := v_links, safety := v_safety, scribe := { s.scribe with page := v_scPg, transports := v_scTr }, pair := { s.pair with tx := v_pairTx } } = ob s) (old : State) (term : ℕ) (p : ℕ) (s : State) :
    ob (portTermFalls old term p s) = ob s := by
  unfold portTermFalls
  repeat' first | simp only [hob, ite_self, withdrawPort_keep ob (fun s v_params v_scPg v_scTr v_evq v_log v_ports v_raman v_links v_pairTx v_safety => hob s v_params v_scPg v_scTr v_evq v_log v_ports v_raman v_links v_pairTx v_safety), settle_keep ob (fun s v_params v_ports v_raman v_safety => hob s v_params s.scribe.page s.scribe.transports s.evq s.log v_ports v_raman s.links s.pair.tx v_safety)] | split

theorem onTout_keep {β : Type} (ob : State → β)
    (hob : ∀ (s : State) v_time, ob { s with time := v_time } = ob s) (u : ℕ) (f : Tout → Tout) (s : State) :
    ob (onTout u f s) = ob s := by
  unfold onTout
  simp only [hob, ite_self, onTime_keep ob (fun s v_time => hob s v_time)]

theorem revertDomain_keep {β : Type} (ob : State → β)
    (hob : ∀ (s : State) v_params v_scPg v_scTr v_evq v_log v_ports v_time v_links v_pairTx, ob { s with params := v_params, evq := v_evq, log := v_log, ports := v_ports, time := v_time, links := v_links, scribe := { s.scribe with page := v_scPg, transports := v_scTr }, pair := { s.pair with tx := v_pairTx } } = ob s) (s : State) :
    ob (revertDomain  s) = ob s := by
  unfold revertDomain
  repeat' first | simp only [hob, ite_self, switchDomain_keep ob (fun s v_params v_scPg v_scTr v_evq v_log v_ports v_time v_links v_pairTx => hob s v_params v_scPg v_scTr v_evq v_log v_ports v_time v_links v_pairTx)] | split

theorem domainLocked_keep {β : Type} (ob : State → β)
    (hob : ∀ (s : State) v_params v_scPg v_scTr v_evq v_log v_ports v_time v_links v_pairTx, ob { s with params := v_params, evq := v_evq, log := v_log, ports := v_ports, time := v_time, links := v_links, scribe := { s.scribe with page := v_scPg, transports := v_scTr }, pair := { s.pair with tx := v_pairTx } } = ob s) (d : Fin 2) (s : State) :
    ob (domainLocked d s) = ob s := by
  unfold domainLocked
  repeat' first | simp only [hob, ite_self, onTime_keep ob (fun s v_time => hob s s.params s.scribe.page s.scribe.transports s.evq s.log s.ports v_time s.links s.pair.tx), leaveHoldover_keep ob (fun s v_params v_scPg v_scTr v_evq v_log v_ports v_time v_links v_pairTx => hob s v_params v_scPg v_scTr v_evq v_log v_ports v_time v_links v_pairTx), switchDomain_keep ob (fun s v_params v_scPg v_scTr v_evq v_log v_ports v_time v_links v_pairTx => hob s v_params v_scPg v_scTr v_evq v_log v_ports v_time v_links v_pairTx), revertDomain_keep ob (fun s v_params v_scPg v_scTr v_evq v_log v_ports v_time v_links v_pairTx => hob s v_params v_scPg v_scTr v_evq v_log v_ports v_time v_links v_pairTx)] | split

theorem lockUpdate_keep {β : Type} (ob : State → β)
    (hob : ∀ (s : State) v_params v_scPg v_scTr v_evq v_log v_ports v_time v_links v_pairTx, ob { s with params := v_params, evq := v_evq, log := v_log, ports := v_ports, time := v_time, links := v_links, scribe := { s.scribe with page := v_scPg, transports := v_scTr }, pair := { s.pair with tx := v_pairTx } } = ob s) (d : Fin 2) (cause : ℕ) (s : State) :
    ob (lockUpdate d cause s) = ob s := by
  unfold lockUpdate
  repeat' first | simp only [hob, ite_self, post_keep ob (fun s v_params v_scPg v_scTr v_evq v_log v_links v_pairTx => hob s v_params v_scPg v_scTr v_evq v_log s.ports s.time v_links v_pairTx), onDomain_keep ob (fun s v_time => hob s s.params s.scribe.page s.scribe.transports s.evq s.log s.ports v_time s.links s.pair.tx), domainLocked_keep ob (fun s v_params v_scPg v_scTr v_evq v_log v_ports v_time v_links v_pairTx => hob s v_params v_scPg v_scTr v_evq v_log v_ports v_time v_links v_pairTx), domainUnlocked_keep ob (fun s v_params v_scPg v_scTr v_evq v_log v_ports v_time v_links v_pairTx => hob s v_params v_scPg v_scTr v_evq v_log v_ports v_time v_links v_pairTx)] | split

theorem servoWritten_keep {β : Type} (ob : State → β)
    (hob : ∀ (s : State) v_params v_scPg v_scTr v_evq v_log v_ports v_time v_links v_pairTx, ob { s with params := v_params, evq := v_evq, log := v_log, ports := v_ports, time := v_time, links := v_links, scribe := { s.scribe with page := v_scPg, transports := v_scTr }, pair := { s.pair with tx := v_pairTx } } = ob s) (d : Fin 2) (s : State) :
    ob (servoWritten d s) = ob s := by
  unfold servoWritten
  simp only [hob, ite_self, lockUpdate_keep ob (fun s v_params v_scPg v_scTr v_evq v_log v_ports v_time v_links v_pairTx => hob s v_params v_scPg v_scTr v_evq v_log v_ports v_time v_links v_pairTx), onDomain_keep ob (fun s v_time => hob s s.params s.scribe.page s.scribe.transports s.evq s.log s.ports v_time s.links s.pair.tx)]

theorem writeAdjust_keep {β : Type} (ob : State → β)
    (hob : ∀ (s : State) v_params v_scPg v_scTr v_evq v_log v_ports v_time v_links v_pairTx, ob { s with params := v_params, evq := v_evq, log := v_log, ports := v_ports, time := v_time, links := v_links, scribe := { s.scribe with page := v_scPg, transports := v_scTr }, pair := { s.pair with tx := v_pairTx } } = ob s) (d : Fin 2) (v : ℤ) (s : State) :
    ob (writeAdjust d v s) = ob s := by
  unfold writeAdjust
  simp only [hob, ite_self, servoWritten_keep ob (fun s v_params v_scPg v_scTr v_evq v_log v_ports v_time v_links v_pairTx => hob s v_params v_scPg v_scTr v_evq v_log v_ports v_time v_links v_pairTx), onDomain_keep ob (fun s v_time => hob s s.params s.scribe.page s.scribe.transports s.evq s.log s.ports v_time s.links s.pair.tx)]

theorem locatorRelease_keep {β : Type} (ob : State → β)
    (hob : ∀ (s : State) v_safety, ob { s with safety := v_safety } = ob s) (p : ℕ) (s : State) :
    ob (locatorRelease p s) = ob s := by
  unfold locatorRelease
  repeat' first | simp only [hob, ite_self, onSafety_keep ob (fun s v_safety => hob s v_safety)] | split

theorem restorePorts_keep {β : Type} (ob : State → β)
    (hob : ∀ (s : State) v_clocks v_params v_scPg v_scTr v_evq v_log v_ports v_raman v_memory v_links v_pair v_safety v_calib, ob { s with clocks := v_clocks, params := v_params, evq := v_evq, log := v_log, ports := v_ports, raman := v_raman, memory := v_memory, links := v_links, pair := v_pair, safety := v_safety, calib := v_calib, scribe := { s.scribe with page := v_scPg, transports := v_scTr } } = ob s) (s : State) :
    ob (restorePorts  s) = ob s := by
  unfold restorePorts
  repeat' first | with_reducible rfl | simp only [hob, ite_self, railReturn_keep ob (fun s v_calib => hob s s.clocks s.params s.scribe.page s.scribe.transports s.evq s.log s.ports s.raman s.memory s.links s.pair s.safety v_calib), lwgRelease_keep ob (fun s v_safety => hob s s.clocks s.params s.scribe.page s.scribe.transports s.evq s.log s.ports s.raman s.memory s.links s.pair v_safety s.calib), locatorRelease_keep ob (fun s v_safety => hob s s.clocks s.params s.scribe.page s.scribe.transports s.evq s.log s.ports s.raman s.memory s.links s.pair v_safety s.calib), plugRelease_keep ob (fun s v_params v_scPg v_scTr v_evq v_log v_links v_pairTx v_safety => hob s s.clocks v_params v_scPg v_scTr v_evq v_log s.ports s.raman s.memory v_links { s.pair with tx := v_pairTx } v_safety s.calib), dramReturns_keep ob (fun s v_clocks v_memory => hob s v_clocks s.params s.scribe.page s.scribe.transports s.evq s.log s.ports s.raman v_memory s.links s.pair s.safety s.calib), settle_keep ob (fun s v_params v_ports v_raman v_safety => hob s s.clocks v_params s.scribe.page s.scribe.transports s.evq s.log v_ports v_raman s.memory s.links s.pair v_safety s.calib), modeLeash_keep ob (fun s v_pair => hob s s.clocks s.params s.scribe.page s.scribe.transports s.evq s.log s.ports s.raman s.memory s.links v_pair s.safety s.calib)] | split | with_reducible refine (forEach_keep ob _ (fun _ _ => ?_) _ _).trans ?_ | with_reducible apply forEach_keep ob | with_reducible refine (foldl_keep ob _ (fun _ _ => ?_) _ _).trans ?_ | rw [apply_ite ob]

theorem answerDup_keep {β : Type} (ob : State → β)
    (hob : ∀ (s : State) v_scTr v_lkEth v_pairTx, ob { s with scribe := { s.scribe with transports := v_scTr }, links := { s.links with eth := v_lkEth }, pair := { s.pair with tx := v_pairTx } } = ob s) (r : Request) (m : List Byte) (s : State) :
    ob (answerDup r m s) = ob s := by
  unfold answerDup
  simp only [hob, ite_self, answerSeq_keep ob (fun s v_scTr => hob s v_scTr s.links.eth s.pair.tx), sendAnswer_keep ob (fun s v_scTr v_lkEth v_pairTx => hob s v_scTr v_lkEth v_pairTx)]

theorem locateMask_keep {β : Type} (ob : State → β)
    (hob : ∀ (s : State) v_params v_ports v_raman v_safety, ob { s with params := v_params, ports := v_ports, raman := v_raman, safety := v_safety } = ob s) (mask : ℕ) (s : State) :
    ob (locateMask mask s) = ob s := by
  unfold locateMask
  simp only [hob, ite_self, settle_keep ob (fun s v_params v_ports v_raman v_safety => hob s v_params v_ports v_raman v_safety), onSafety_keep ob (fun s v_safety => hob s s.params s.ports s.raman v_safety)]

theorem stopQueue_keep {β : Type} (ob : State → β)
    (hob : ∀ (s : State) v_params v_scPg v_scTr v_evq v_log v_links v_pairTx, ob { s with params := v_params, evq := v_evq, log := v_log, links := v_links, scribe := { s.scribe with page := v_scPg, transports := v_scTr }, pair := { s.pair with tx := v_pairTx } } = ob s) (q : ℕ) (cause : ℕ) (index : ℕ) (s : State) :
    ob (stopQueue q cause index s) = ob s := by
  unfold stopQueue
  simp only [hob, ite_self, post_keep ob (fun s v_params v_scPg v_scTr v_evq v_log v_links v_pairTx => hob s v_params v_scPg v_scTr v_evq v_log v_links v_pairTx), raiseVector_keep ob (fun s v_lkMsix v_lkWake => hob s s.params s.scribe.page s.scribe.transports s.evq s.log { s.links with msix := v_lkMsix, peWake := v_lkWake } s.pair.tx), onQueue_keep ob (fun s v_links => hob s s.params s.scribe.page s.scribe.transports s.evq s.log v_links s.pair.tx)]

theorem portRestart_keep {β : Type} (ob : State → β)
    (hob : ∀ (s : State) v_params v_scPg v_scTr v_evq v_log v_ports v_raman v_links v_pairTx v_safety, ob { s with params := v_params, evq := v_evq, log := v_log, ports := v_ports, raman := v_raman, links := v_links, safety := v_safety, scribe := { s.scribe with page := v_scPg, transports := v_scTr }, pair := { s.pair with tx := v_pairTx } } = ob s) (mask : ℕ) (s : State) :
    ob (portRestart mask s) = ob s := by
  unfold portRestart
  repeat' first | with_reducible rfl | simp only [hob, ite_self, settle_keep ob (fun s v_params v_ports v_raman v_safety => hob s v_params s.scribe.page s.scribe.transports s.evq s.log v_ports v_raman s.links s.pair.tx v_safety), locatorRelease_keep ob (fun s v_safety => hob s s.params s.scribe.page s.scribe.transports s.evq s.log s.ports s.raman s.links s.pair.tx v_safety), plugRelease_keep ob (fun s v_params v_scPg v_scTr v_evq v_log v_links v_pairTx v_safety => hob s v_params v_scPg v_scTr v_evq v_log s.ports s.raman v_links v_pairTx v_safety)] | split | with_reducible refine (forEach_keep ob _ (fun _ _ => ?_) _ _).trans ?_ | with_reducible apply forEach_keep ob | with_reducible refine (foldl_keep ob _ (fun _ _ => ?_) _ _).trans ?_ | rw [apply_ite ob]

theorem replicateBanks_keep {β : Type} (ob : State → β)
    (hob : ∀ (s : State) v_pairTx, ob { s with pair := { s.pair with tx := v_pairTx } } = ob s) (s : State) :
    ob (replicateBanks  s) = ob s := by
  unfold replicateBanks
  repeat' first | simp only [hob, ite_self, segorSend_keep ob (fun s v_pairTx => hob s v_pairTx)] | split

theorem swapRefused_keep {β : Type} (ob : State → β)
    (hob : ∀ (s : State) v_params v_scPg v_scTr v_evq v_log v_links v_pairTx, ob { s with params := v_params, evq := v_evq, log := v_log, links := v_links, scribe := { s.scribe with page := v_scPg, transports := v_scTr }, pair := { s.pair with tx := v_pairTx } } = ob s) (cond : ℕ) (cause : ℕ) (s : State) :
    ob (swapRefused cond cause s) = ob s := by
  unfold swapRefused
  simp only [hob, ite_self, post_keep ob (fun s v_params v_scPg v_scTr v_evq v_log v_links v_pairTx => hob s v_params v_scPg v_scTr v_evq v_log v_links v_pairTx)]

theorem writeTdcArm_keep {β : Type} (ob : State → β)
    (hob : ∀ (s : State) v_params v_scPg v_scTr v_evq v_log v_time v_links v_pairTx, ob { s with params := v_params, evq := v_evq, log := v_log, time := v_time, links := v_links, scribe := { s.scribe with page := v_scPg, transports := v_scTr }, pair := { s.pair with tx := v_pairTx } } = ob s) (on : Bool) (s : State) :
    ob (writeTdcArm on s) = ob s := by
  unfold writeTdcArm
  repeat' first | simp only [hob, ite_self, onTdc_keep ob (fun s v_time => hob s s.params s.scribe.page s.scribe.transports s.evq s.log v_time s.links s.pair.tx), tdcEnd_keep ob (fun s v_params v_scPg v_scTr v_evq v_log v_time v_links v_pairTx => hob s v_params v_scPg v_scTr v_evq v_log v_time v_links v_pairTx)] | split

theorem checkRequest_keep {β : Type} (ob : State → β)
    (hob : ∀ (s : State) v_params v_scribe v_evq v_log v_links v_pairTx, ob { s with params := v_params, scribe := v_scribe, evq := v_evq, log := v_log, links := v_links, pair := { s.pair with tx := v_pairTx } } = ob s) (r : Request) (first : List Byte) (s : State) :
    ob (checkRequest r first s) = ob s := by
  unfold checkRequest
  repeat' first | simp only [hob, ite_self, answerWith_keep ob (fun s v_scTr v_lkEth v_pairTx => hob s s.params { s.scribe with transports := v_scTr } s.evq s.log { s.links with eth := v_lkEth } v_pairTx), violate_keep ob (fun s v_params v_scPg v_scTr v_evq v_log v_links v_pairTx => hob s v_params { s.scribe with page := v_scPg, transports := v_scTr } v_evq v_log v_links v_pairTx), enqueue_keep ob (fun s v_scribe => hob s s.params v_scribe s.evq s.log s.links s.pair.tx), answerDup_keep ob (fun s v_scTr v_lkEth v_pairTx => hob s s.params { s.scribe with transports := v_scTr } s.evq s.log { s.links with eth := v_lkEth } v_pairTx), admitRequest_keep ob (fun s v_params v_scribe v_evq v_log v_links v_pairTx => hob s v_params v_scribe v_evq v_log v_links v_pairTx), passSequence_keep ob (fun s v_scTr => hob s s.params { s.scribe with transports := v_scTr } s.evq s.log s.links s.pair.tx)] | split

theorem receive_keep {β : Type} (ob : State → β)
    (hob : ∀ (s : State) v_params v_scribe v_evq v_log v_links v_pairTx, ob { s with params := v_params, scribe := v_scribe, evq := v_evq, log := v_log, links := v_links, pair := { s.pair with tx := v_pairTx } } = ob s) (t : ℕ) (source : ℕ) (ethPort : ℕ) (carrier : ℕ) (bytes : List Byte) (s : State) :
    ob (receive t source ethPort carrier bytes s) = ob s := by
  unfold receive
  repeat' first | simp only [hob, ite_self, onTransport_keep ob (fun s v_scTr => hob s s.params { s.scribe with transports := v_scTr } s.evq s.log s.links s.pair.tx), violate_keep ob (fun s v_params v_scPg v_scTr v_evq v_log v_links v_pairTx => hob s v_params { s.scribe with page := v_scPg, transports := v_scTr } v_evq v_log v_links v_pairTx), answerWith_keep ob (fun s v_scTr v_lkEth v_pairTx => hob s s.params { s.scribe with transports := v_scTr } s.evq s.log { s.links with eth := v_lkEth } v_pairTx), checkRequest_keep ob (fun s v_params v_scribe v_evq v_log v_links v_pairTx => hob s v_params v_scribe v_evq v_log v_links v_pairTx)] | split

theorem dasGainWrite_keep {β : Type} (ob : State → β)
    (hob : ∀ (s : State) v_ports, ob { s with ports := v_ports } = ob s) (p : ℕ) (gain : ℕ) (s : State) :
    ob (dasGainWrite p gain s) = ob s := by
  unfold dasGainWrite
  repeat' first | simp only [hob, ite_self, onPort_keep ob (fun s v_ports => hob s v_ports)] | split

theorem writeTout_keep {β : Type} (ob : State → β)
    (hob : ∀ (s : State) v_params v_time, ob { s with params := v_params, time := v_time } = ob s) (u : ℕ) (f : ℕ) (v : ℤ) (s : State) :
    ob (writeTout u f v s) = ob s := by
  unfold writeTout
  repeat' first | simp only [hob, ite_self, onTout_keep ob (fun s v_time => hob s s.params v_time), paramPut_keep ob (fun s v_params => hob s v_params s.time)] | split

theorem writeRefSelect_keep {β : Type} (ob : State → β)
    (hob : ∀ (s : State) v_clocks v_params v_scPg v_scTr v_evq v_log v_time v_links v_pairTx, ob { s with clocks := v_clocks, params := v_params, evq := v_evq, log := v_log, time := v_time, links := v_links, scribe := { s.scribe with page := v_scPg, transports := v_scTr }, pair := { s.pair with tx := v_pairTx } } = ob s) (v : ℕ) (s : State) :
    ob (writeRefSelect v s) = ob s := by
  unfold writeRefSelect
  repeat' first | simp only [hob, ite_self, paramPut_keep ob (fun s v_params => hob s s.clocks v_params s.scribe.page s.scribe.transports s.evq s.log s.time s.links s.pair.tx), refReact_keep ob (fun s v_clocks v_time => hob s v_clocks s.params s.scribe.page s.scribe.transports s.evq s.log v_time s.links s.pair.tx), tell_keep ob (fun s v_params v_scPg v_scTr v_evq v_log v_links v_pairTx => hob s s.clocks v_params v_scPg v_scTr v_evq v_log s.time v_links v_pairTx)] | split

theorem writeTimeSelect_keep {β : Type} (ob : State → β)
    (hob : ∀ (s : State) v_params v_scPg v_scTr v_evq v_log v_ports v_time v_links v_pairTx, ob { s with params := v_params, evq := v_evq, log := v_log, ports := v_ports, time := v_time, links := v_links, scribe := { s.scribe with page := v_scPg, transports := v_scTr }, pair := { s.pair with tx := v_pairTx } } = ob s) (d : Fin 2) (s : State) :
    ob (writeTimeSelect d s) = ob s := by
  unfold writeTimeSelect
  repeat' first | simp only [hob, ite_self, onTime_keep ob (fun s v_time => hob s s.params s.scribe.page s.scribe.transports s.evq s.log s.ports v_time s.links s.pair.tx), paramPut_keep ob (fun s v_params => hob s v_params s.scribe.page s.scribe.transports s.evq s.log s.ports s.time s.links s.pair.tx), switchDomain_keep ob (fun s v_params v_scPg v_scTr v_evq v_log v_ports v_time v_links v_pairTx => hob s v_params v_scPg v_scTr v_evq v_log v_ports v_time v_links v_pairTx)] | split

theorem writeIncrement_keep {β : Type} (ob : State → β)
    (hob : ∀ (s : State) v_params v_scPg v_scTr v_evq v_log v_ports v_time v_links v_pairTx, ob { s with params := v_params, evq := v_evq, log := v_log, ports := v_ports, time := v_time, links := v_links, scribe := { s.scribe with page := v_scPg, transports := v_scTr }, pair := { s.pair with tx := v_pairTx } } = ob s) (d : Fin 2) (v : ℕ) (s : State) :
    ob (writeIncrement d v s) = ob s := by
  unfold writeIncrement
  simp only [hob, ite_self, servoWritten_keep ob (fun s v_params v_scPg v_scTr v_evq v_log v_ports v_time v_links v_pairTx => hob s v_params v_scPg v_scTr v_evq v_log v_ports v_time v_links v_pairTx), paramPut_keep ob (fun s v_params => hob s v_params s.scribe.page s.scribe.transports s.evq s.log s.ports s.time s.links s.pair.tx), onDomain_keep ob (fun s v_time => hob s s.params s.scribe.page s.scribe.transports s.evq s.log s.ports v_time s.links s.pair.tx)]

theorem writeServoState_keep {β : Type} (ob : State → β)
    (hob : ∀ (s : State) v_params v_scPg v_scTr v_evq v_log v_ports v_time v_links v_pairTx, ob { s with params := v_params, evq := v_evq, log := v_log, ports := v_ports, time := v_time, links := v_links, scribe := { s.scribe with page := v_scPg, transports := v_scTr }, pair := { s.pair with tx := v_pairTx } } = ob s) (d : Fin 2) (locked : Bool) (s : State) :
    ob (writeServoState d locked s) = ob s := by
  unfold writeServoState
  simp only [hob, ite_self, servoWritten_keep ob (fun s v_params v_scPg v_scTr v_evq v_log v_ports v_time v_links v_pairTx => hob s v_params v_scPg v_scTr v_evq v_log v_ports v_time v_links v_pairTx), paramPut_keep ob (fun s v_params => hob s v_params s.scribe.page s.scribe.transports s.evq s.log s.ports s.time s.links s.pair.tx)]

theorem writeSyncEnable_keep {β : Type} (ob : State → β)
    (hob : ∀ (s : State) v_params v_ports v_time, ob { s with params := v_params, ports := v_ports, time := v_time } = ob s) (on : Bool) (s : State) :
    ob (writeSyncEnable on s) = ob s := by
  unfold writeSyncEnable
  repeat' first | simp only [hob, ite_self, paramPut_keep ob (fun s v_params => hob s v_params s.ports s.time), onTime_keep ob (fun s v_time => hob s s.params s.ports v_time), retarget_keep ob (fun s v_ports v_time => hob s s.params v_ports v_time)] | split

theorem rtdWritten_keep {β : Type} (ob : State → β)
    (hob : ∀ (s : State) v_rtd v_calib, ob { s with rtd := v_rtd, calib := v_calib } = ob s) (k : ℕ) (s : State) :
    ob (rtdWritten k s) = ob s := by
  unfold rtdWritten
  simp only [hob, ite_self, onItem_keep ob (fun s v_calib => hob s s.rtd v_calib), onRtd_keep ob (fun s v_rtd => hob s v_rtd s.calib)]

end Sys2Proof.Machine
end

