-- ==== Sys2Proof/Laws/Store.lean ====
section
/-! SUPPORT. Laws of sparse stores: what a read gives after a put, an erase, a write, a map or a restriction, and that each keeps the
canonical form. -/

namespace Sys2Proof.Machine

variable {α : Type}

/-- A put value is read back. -/
@[simp] theorem Store.read_put_self (d : Nat → α) (s : Store α) (k : Nat) (v : α) : Store.read d (Store.put s k v) k = v := by
  induction s with
  | nil => simp [Store.put, Store.read]
  | cons e t ih =>
    obtain ⟨i, w⟩ := e
    unfold Store.put
    split
    · simp [Store.read]
    · split
      · simp [Store.read]
      · rename_i h; simp [Store.read, h, ih]

/-- A put leaves every other key. -/
theorem Store.read_put_other (d : Nat → α) (s : Store α) {k j : Nat} (v : α) (h : j ≠ k) :
    Store.read d (Store.put s k v) j = Store.read d s j := by
  induction s with
  | nil => simp [Store.put, Store.read, h.symm]
  | cons e t ih =>
    obtain ⟨i, w⟩ := e
    unfold Store.put
    split
    · simp [Store.read, h.symm]
    · split
      · rename_i hi; subst hi; simp [Store.read, h.symm]
      · simp [Store.read, ih]

/-- An erasure leaves every other key. -/
theorem Store.read_erase_other (d : Nat → α) (s : Store α) {k j : Nat} (h : j ≠ k) :
    Store.read d (Store.erase s k) j = Store.read d s j := by
  induction s with
  | nil => simp [Store.erase]
  | cons e t ih =>
    obtain ⟨i, w⟩ := e
    unfold Store.erase
    split
    · rename_i hi; subst hi; simp [Store.read, h.symm]
    · simp [Store.read, ih]

/-- Rising keys above `lo` also rise above less. -/
theorem Store.rising_mono {lo lo' : Nat} (s : Store α) (h : Store.rising lo s = true) (hl : lo' ≤ lo) : Store.rising lo' s = true := by
  cases s with
  | nil => rfl
  | cons e t => simp [Store.rising] at h ⊢; exact ⟨by omega, h.2⟩

/-- A key below all keys of a rising store is unlisted. -/
theorem Store.read_of_lt (d : Nat → α) (s : Store α) {lo k : Nat} (h : Store.rising lo s = true) (hk : k < lo) : Store.read d s k = d k := by
  induction s generalizing lo with
  | nil => rfl
  | cons e t ih =>
    obtain ⟨i, w⟩ := e
    simp [Store.rising] at h
    have : i ≠ k := by omega
    simp [Store.read, this, ih h.2 (by omega : k < i + 1)]

/-- An erased key of a rising store is unlisted. -/
theorem Store.read_erase_self (d : Nat → α) (s : Store α) {lo : Nat} (k : Nat) (h : Store.rising lo s = true) :
    Store.read d (Store.erase s k) k = d k := by
  induction s generalizing lo with
  | nil => rfl
  | cons e t ih =>
    obtain ⟨i, w⟩ := e
    simp [Store.rising] at h
    unfold Store.erase
    split
    · rename_i hi; subst hi; exact Store.read_of_lt d t h.2 (by omega)
    · rename_i hi; simp [Store.read, hi, ih h.2]

/-- An erasure keeps the keys rising. -/
theorem Store.rising_erase {lo : Nat} (s : Store α) (k : Nat) (h : Store.rising lo s = true) : Store.rising lo (Store.erase s k) = true := by
  induction s generalizing lo with
  | nil => rfl
  | cons e t ih =>
    obtain ⟨i, w⟩ := e
    simp [Store.rising] at h
    unfold Store.erase
    split
    · exact Store.rising_mono t h.2 (by omega)
    · simp [Store.rising, h.1, ih h.2]

/-- A put keeps the keys rising. -/
theorem Store.rising_put {lo : Nat} (s : Store α) {k : Nat} (v : α) (h : Store.rising lo s = true) (hk : lo ≤ k) :
    Store.rising lo (Store.put s k v) = true := by
  induction s generalizing lo with
  | nil => simp [Store.put, Store.rising, hk]
  | cons e t ih =>
    obtain ⟨i, w⟩ := e
    simp [Store.rising] at h
    unfold Store.put
    split
    · rename_i hl; simp [Store.rising, hk, h.2]; omega
    · split
      · rename_i hi; subst hi; simp [Store.rising, h.1, h.2]
      · simp [Store.rising, h.1]; exact ih h.2 (by omega)

/-- Filtering keeps the keys rising. -/
theorem Store.rising_filter {lo : Nat} (f : Nat × α → Bool) (s : Store α) (h : Store.rising lo s = true) :
    Store.rising lo (s.filter f) = true := by
  induction s generalizing lo with
  | nil => rfl
  | cons e t ih =>
    obtain ⟨i, w⟩ := e
    simp [Store.rising] at h
    by_cases hf : f (i, w) = true
    · rw [List.filter_cons_of_pos hf]; simp [Store.rising, h.1]; exact ih h.2
    · rw [List.filter_cons_of_neg (by simpa using hf)]; exact Store.rising_mono _ (ih h.2) (by omega)

/-- Mapping values keeps the keys rising. -/
theorem Store.rising_map {lo : Nat} {β : Type} (f : α → β) (s : Store α) (h : Store.rising lo s = true) :
    Store.rising lo (s.map fun e => (e.1, f e.2) : Store β) = true := by
  induction s generalizing lo with
  | nil => rfl
  | cons e t ih => obtain ⟨i, w⟩ := e; simp [Store.rising] at h ⊢; exact ⟨h.1, ih h.2⟩

variable [DecidableEq α]

/-- A write of what an unlisted key does not read as is a put. -/
theorem Store.write_eq_put (d : Nat → α) (s : Store α) {k : Nat} {v : α} (h : v ≠ d k) : Store.write d s k v = Store.put s k v := if_neg h

/-- A write of what an unlisted key reads as is an erasure. -/
theorem Store.write_eq_erase (d : Nat → α) (s : Store α) {k : Nat} {v : α} (h : v = d k) : Store.write d s k v = Store.erase s k := if_pos h

/-- A write leaves every other key. -/
theorem Store.read_write_other (d : Nat → α) (s : Store α) {k j : Nat} (v : α) (h : j ≠ k) :
    Store.read d (Store.write d s k v) j = Store.read d s j := by
  by_cases hv : v = d k
  · rw [Store.write_eq_erase d s hv, Store.read_erase_other d s h]
  · rw [Store.write_eq_put d s hv, Store.read_put_other d s v h]

/-- A written value other than the default is read back from any store. -/
theorem Store.read_write_ne (d : Nat → α) (s : Store α) {k : Nat} {v : α} (h : v ≠ d k) : Store.read d (Store.write d s k v) k = v := by
  rw [Store.write_eq_put d s h, Store.read_put_self]

/-- A value written to a store in canonical form is read back. -/
theorem Store.read_write_self (d : Nat → α) (s : Store α) (k : Nat) (v : α) (h : Store.wf d s = true) :
    Store.read d (Store.write d s k v) k = v := by
  by_cases hv : v = d k
  · simp only [Store.wf, Bool.and_eq_true] at h
    rw [Store.write_eq_erase d s hv, Store.read_erase_self d s k h.1, hv]
  · exact Store.read_write_ne d s hv

/-- The empty store is in canonical form. -/
@[simp] theorem Store.wf_nil (d : Nat → α) : Store.wf d [] = true := rfl

/-- An erasure lists no default. -/
theorem Store.noDefaults_erase (d : Nat → α) (s : Store α) (k : Nat) (h : Store.noDefaults d s = true) :
    Store.noDefaults d (Store.erase s k) = true := by
  induction s with
  | nil => rfl
  | cons e t ih =>
    obtain ⟨i, w⟩ := e
    simp only [Store.noDefaults, List.all_cons, Bool.and_eq_true] at h ih ⊢
    unfold Store.erase
    split
    · exact h.2
    · simp only [List.all_cons, Bool.and_eq_true]; exact ⟨h.1, ih h.2⟩

/-- A put of no default lists no default. -/
theorem Store.noDefaults_put (d : Nat → α) (s : Store α) {k : Nat} {v : α} (h : Store.noDefaults d s = true) (hv : v ≠ d k) :
    Store.noDefaults d (Store.put s k v) = true := by
  induction s with
  | nil => simp [Store.put, Store.noDefaults, hv]
  | cons e t ih =>
    obtain ⟨i, w⟩ := e
    simp only [Store.noDefaults, List.all_cons, Bool.and_eq_true] at h ih ⊢
    unfold Store.put
    split
    · simp only [List.all_cons, Bool.and_eq_true]; exact ⟨by simpa using hv, h.1, h.2⟩
    · split
      · simp only [List.all_cons, Bool.and_eq_true]; exact ⟨by simpa using hv, h.2⟩
      · simp only [List.all_cons, Bool.and_eq_true]; exact ⟨h.1, ih h.2⟩

/-- A write keeps the canonical form. -/
theorem Store.wf_write (d : Nat → α) (s : Store α) (k : Nat) (v : α) (h : Store.wf d s = true) : Store.wf d (Store.write d s k v) = true := by
  simp only [Store.wf, Bool.and_eq_true] at h ⊢
  by_cases hv : v = d k
  · rw [Store.write_eq_erase d s hv]
    exact ⟨Store.rising_erase s k h.1, Store.noDefaults_erase d s k h.2⟩
  · rw [Store.write_eq_put d s hv]
    exact ⟨Store.rising_put s v h.1 (by omega), Store.noDefaults_put d s h.2 hv⟩

/-- An erasure keeps the canonical form. -/
theorem Store.wf_erase (d : Nat → α) (s : Store α) (k : Nat) (h : Store.wf d s = true) : Store.wf d (Store.erase s k) = true := by
  simp only [Store.wf, Bool.and_eq_true] at h ⊢
  exact ⟨Store.rising_erase s k h.1, Store.noDefaults_erase d s k h.2⟩

/-- Keeping some keys keeps the canonical form. -/
theorem Store.wf_restrict (d : Nat → α) (f : Nat → Bool) (s : Store α) (h : Store.wf d s = true) : Store.wf d (Store.restrict f s) = true := by
  simp only [Store.wf, Bool.and_eq_true, Store.noDefaults, List.all_eq_true] at h ⊢
  exact ⟨Store.rising_filter _ s h.1, fun e he => h.2 e (List.mem_of_mem_filter he)⟩

/-- Updating every value keeps the canonical form. -/
theorem Store.wf_update (d : Nat → α) (f : α → α) (s : Store α) (h : Store.wf d s = true) : Store.wf d (Store.update d f s) = true := by
  simp only [Store.wf, Bool.and_eq_true, Store.noDefaults, List.all_eq_true] at h ⊢
  refine ⟨Store.rising_filter _ _ (Store.rising_map f s h.1), fun e he => ?_⟩
  exact (List.mem_filter.mp he).2

end Sys2Proof.Machine
end

