-- ==== Sys2Proof/Laws/Lane.lean ====
section
/-! SUPPORT. Laws of the Serif lanes: what a lane holds after an update, and how a Serif instruction's run is shown. -/

namespace Sys2Proof.Machine

/-- A lane's update is read back unless it leaves the lane as after power-up. -/
theorem laneOf_onLane {l : Nat} {f : Lane → Lane} {s : State} (h : f (laneOf s l) ≠ {}) : laneOf (onLane l f s) l = f (laneOf s l) :=
  Store.read_write_ne (fun _ => ({} : Lane)) s.serif.lanes h

/-- A lane's update leaves the other lanes. -/
theorem laneOf_onLane_other {l k : Nat} {f : Lane → Lane} {s : State} (hk : k ≠ l) : laneOf (onLane l f s) k = laneOf s k :=
  Store.read_write_other (fun _ => ({} : Lane)) s.serif.lanes _ hk

/-- A lane that has retired an instruction is not as after power-up. -/
theorem laneRetire_ne (f : Lane → Lane) (x : Lane) : laneRetire f x ≠ {} := fun h => by
  have := congrArg Lane.pc h
  simp [laneRetire] at this

/-- An instruction that retires with effect `f`, no REP waiting, leaves the lane that `f` gives. -/
theorem laneRuns_of_retire {i : Instr} {l : Nat} {s : State} {f : Lane → Lane} {x : Lane} (hr : (laneOf s l).rep = none)
    (he : exec i s = .next (onLane l (laneRetire f) s))
    (hx : { f (laneOf s l) with rep := none, pc := 0, cycles := 0 } = { x with rep := none, pc := 0, cycles := 0 }) : laneRuns i l s x := by
  refine ⟨_, he, ?_, fun k hk => laneOf_onLane_other hk, rfl⟩
  rw [laneOf_onLane (laneRetire_ne f _)]
  simp only [laneRetire, hr, Option.getD_none, Nat.repeat]
  cases hf : f (laneOf s l)
  cases x
  simp_all

end Sys2Proof.Machine
end

