-- ==== Sys2Proof/Laws/PerInstr.lean ====
section
/-! SUPPORT. The encoding of every command: a Serif instruction's word decodes to it (R257, R263). -/

namespace Sys2Proof.Laws

/-- A word without fields holds its opcode. -/
theorem packWord_nil (op : Nat) : packWord op [] = op * 2 ^ 26 := by simp [packWord]

/-- A word's first field, and the word of the others. -/
theorem packWord_cons (op v p : Nat) (fields : List (Nat × Nat)) :
    packWord op ((v, p) :: fields) = v * 2 ^ p + packWord op fields := by
  simp [packWord]; omega

/-- A word whose opcode and fields name a well-formed instruction that spells it decodes to that instruction. -/
theorem decodeSerif_of_shape (l : Fin 128) (w : Nat) (i : Instr) (h : serifShape l w = some i) (hw : i.wellFormed = true)
    (hs : serifWord i = some w) : decodeSerif l w = some i := by
  simp [decodeSerif, h, hw, hs]

namespace Serif

/-- The word of a well-formed Serif instruction decodes, on its lane, to the instruction itself. -/
def Statement (i : Instr) : Prop :=
  ∀ (l : Fin 128) (w : Nat), serifLane i = some l → serifWord i = some w → i.wellFormed = true → decodeSerif l w = some i

/-- What is left to show of a Serif instruction: its shape. -/
theorem of_shape (i : Instr) (l : Fin 128) (w : Nat) (hl : serifLane i = some l) (hw : serifWord i = some w)
    (h : serifShape l w = some i) : Statement i := by
  intro l' w' hl' hw' hf
  obtain rfl : l = l' := by simpa [hl] using hl'
  obtain rfl : w = w' := by simpa [hw] using hw'
  exact decodeSerif_of_shape l w i h hf hw

/-- A command without a lane has no word. -/
theorem of_noLane (i : Instr) (h : serifLane i = none) : Statement i := by
  intro l w hl
  simp [h] at hl

/-- `powerOn`. -/
theorem powerOn (feed : Fin 2) (seqViolation : Bool) : Statement (.powerOn feed seqViolation) := of_noLane _ rfl

/-- `powerOff`. -/
theorem powerOff : Statement .powerOff := of_noLane _ rfl

/-- `resetNFall`. -/
theorem resetNFall : Statement .resetNFall := of_noLane _ rfl

/-- `pwrgdFall`. -/
theorem pwrgdFall : Statement .pwrgdFall := of_noLane _ rfl

/-- `resetRelease`. -/
theorem resetRelease : Statement .resetRelease := of_noLane _ rfl

/-- `strapSample`. -/
theorem strapSample (levels : Machine.Straps) : Statement (.strapSample levels) := of_noLane _ rfl

/-- `railUndervoltage`. -/
theorem railUndervoltage (r : Machine.Rail) : Statement (.railUndervoltage r) := of_noLane _ rfl

/-- `railRestored`. -/
theorem railRestored (r : Machine.Rail) : Statement (.railRestored r) := of_noLane _ rfl

/-- `feedLost`. -/
theorem feedLost (x : Fin 2) (volt : Bool) (pin : Bool) : Statement (.feedLost x volt pin) := of_noLane _ rfl

/-- `feedRestored`. -/
theorem feedRestored (x : Fin 2) : Statement (.feedRestored x) := of_noLane _ rfl

/-- `feedLossAction`. -/
theorem feedLossAction : Statement .feedLossAction := of_noLane _ rfl

/-- `refPresent`. -/
theorem refPresent (src : Fin 2) (hz25 : Bool) : Statement (.refPresent src hz25) := of_noLane _ rfl

/-- `refAbsent`. -/
theorem refAbsent (src : Fin 2) : Statement (.refAbsent src) := of_noLane _ rfl

/-- `ocxoWarmChange`. -/
theorem ocxoWarmChange (warm : Bool) : Statement (.ocxoWarmChange warm) := of_noLane _ rfl

/-- `refSwitch`. -/
theorem refSwitch : Statement .refSwitch := of_noLane _ rfl

/-- `xtalFail`. -/
theorem xtalFail : Statement .xtalFail := of_noLane _ rfl

/-- `corePllUnlock`. -/
theorem corePllUnlock : Statement .corePllUnlock := of_noLane _ rfl

/-- `corePllRelock`. -/
theorem corePllRelock : Statement .corePllRelock := of_noLane _ rfl

/-- `corePllTimeout`. -/
theorem corePllTimeout : Statement .corePllTimeout := of_noLane _ rfl

/-- `ctrlPllUnlock`. -/
theorem ctrlPllUnlock : Statement .ctrlPllUnlock := of_noLane _ rfl

/-- `dramPllUnlock`. -/
theorem dramPllUnlock (a : Fin 2) : Statement (.dramPllUnlock a) := of_noLane _ rfl

/-- `pciePllUnlock`. -/
theorem pciePllUnlock : Statement .pciePllUnlock := of_noLane _ rfl

/-- `thermalLimit`. -/
theorem thermalLimit (temp : Int) : Statement (.thermalLimit temp) := of_noLane _ rfl

/-- `bootRomStart`. -/
theorem bootRomStart : Statement .bootRomStart := of_noLane _ rfl

/-- `bootSramClearDone`. -/
theorem bootSramClearDone (ok : Bool) : Statement (.bootSramClearDone ok) := of_noLane _ rfl

/-- `bootComplete`. -/
theorem bootComplete : Statement .bootComplete := of_noLane _ rfl

/-- `autoRun`. -/
theorem autoRun : Statement .autoRun := of_noLane _ rfl

/-- `recoveryImage`. -/
theorem recoveryImage (image : List Byte) : Statement (.recoveryImage image) := of_noLane _ rfl

/-- `scribeWatchdog`. -/
theorem scribeWatchdog : Statement .scribeWatchdog := of_noLane _ rfl

/-- `scribeRestartDone`. -/
theorem scribeRestartDone (mismatch : Bool) : Statement (.scribeRestartDone mismatch) := of_noLane _ rfl

/-- `fwConfirmTimeout`. -/
theorem fwConfirmTimeout : Statement .fwConfirmTimeout := of_noLane _ rfl

/-- `cfgConfirmTimeout`. -/
theorem cfgConfirmTimeout : Statement .cfgConfirmTimeout := of_noLane _ rfl

/-- `autoRevert`. -/
theorem autoRevert : Statement .autoRevert := of_noLane _ rfl

/-- `commitRecordProgrammed`. -/
theorem commitRecordProgrammed : Statement .commitRecordProgrammed := of_noLane _ rfl

/-- `commitSwitch`. -/
theorem commitSwitch (p : Fin 4) : Statement (.commitSwitch p) := of_noLane _ rfl

/-- `modeTransitionDone`. -/
theorem modeTransitionDone : Statement .modeTransitionDone := of_noLane _ rfl

/-- `surveyPortDone`. -/
theorem surveyPortDone (p : Fin 4) (trace : Machine.SurveyTrace) : Statement (.surveyPortDone p trace) := of_noLane _ rfl

/-- `slotFireTime`. -/
theorem slotFireTime (p : Fin 4) (peakPct : Nat) (raman : Machine.RamanCodes) : Statement (.slotFireTime p peakPct raman) := of_noLane _ rfl

/-- `launchWindowEnd`. -/
theorem launchWindowEnd (p : Fin 4) : Statement (.launchWindowEnd p) := of_noLane _ rfl

/-- `lightWithoutGate`. -/
theorem lightWithoutGate (p : Fin 4) : Statement (.lightWithoutGate p) := of_noLane _ rfl

/-- `inputOverRange`. -/
theorem inputOverRange (p : Fin 4) (group : Fin 2) : Statement (.inputOverRange p group) := of_noLane _ rfl

/-- `ovrGuardEnd`. -/
theorem ovrGuardEnd (p : Fin 4) (group : Fin 2) : Statement (.ovrGuardEnd p group) := of_noLane _ rfl

/-- `adcCorrEstimate`. -/
theorem adcCorrEstimate (p : Fin 4) (input : Fin 6) (c : Machine.Correction) : Statement (.adcCorrEstimate p input c) := of_noLane _ rfl

/-- `pointUnwrap`. -/
theorem pointUnwrap (pt : Machine.RawPoint) : Statement (.pointUnwrap pt) := of_noLane _ rfl

/-- `sliceComplete`. -/
theorem sliceComplete (r : Machine.SliceResult) : Statement (.sliceComplete r) := of_noLane _ rfl

/-- `sliceDeadline`. -/
theorem sliceDeadline (z : Fin 1024) : Statement (.sliceDeadline z) := of_noLane _ rfl

/-- `laneBudgetEnd`. -/
theorem laneBudgetEnd (l : Fin 128) : Statement (.laneBudgetEnd l) := of_noLane _ rfl

/-- `dtsTraceComplete`. -/
theorem dtsTraceComplete (p : Fin 4) (codes : Machine.RamanCodes) : Statement (.dtsTraceComplete p codes) := of_noLane _ rfl

/-- `rtdDue`. -/
theorem rtdDue (k : Fin 8) : Statement (.rtdDue k) := of_noLane _ rfl

/-- `rtdMeasurementEnd`. -/
theorem rtdMeasurementEnd (k : Fin 8) (m : RtdSums) : Statement (.rtdMeasurementEnd k m) := of_noLane _ rfl

/-- `rtdPulseTimeout`. -/
theorem rtdPulseTimeout (k : Fin 8) : Statement (.rtdPulseTimeout k) := of_noLane _ rfl

/-- `hkScan`. -/
theorem hkScan (codes : List Int) : Statement (.hkScan codes) := of_noLane _ rfl

/-- `hkPulseEvent`. -/
theorem hkPulseEvent (e : Fin 8) (code : Int) (late : Bool) : Statement (.hkPulseEvent e code late) := of_noLane _ rfl

/-- `trgArmNChange`. -/
theorem trgArmNChange (low : Bool) : Statement (.trgArmNChange low) := of_noLane _ rfl

/-- `remoteFireEdge`. -/
theorem remoteFireEdge : Statement .remoteFireEdge := of_noLane _ rfl

/-- `firePulseEnd`. -/
theorem firePulseEnd : Statement .firePulseEnd := of_noLane _ rfl

/-- `recordClose`. -/
theorem recordClose (number : Nat) : Statement (.recordClose number) := of_noLane _ rfl

/-- `replayRoundDone`. -/
theorem replayRoundDone (job : Fin 16) (r : ReplayResult) : Statement (.replayRoundDone job r) := of_noLane _ rfl

/-- `sramEccError`. -/
theorem sramEccError (e : SramError) : Statement (.sramEccError e) := of_noLane _ rfl

/-- `sramScrubRewrite`. -/
theorem sramScrubRewrite (store : Fin 5) (word : Nat) : Statement (.sramScrubRewrite store word) := of_noLane _ rfl

/-- `dramEccError`. -/
theorem dramEccError (e : DramError) : Statement (.dramEccError e) := of_noLane _ rfl

/-- `pageRetire`. -/
theorem pageRetire (a : Fin 2) (page : Nat) : Statement (.pageRetire a page) := of_noLane _ rfl

/-- `dramTrainingDone`. -/
theorem dramTrainingDone (a : Fin 2) (r : TrainingResult) : Statement (.dramTrainingDone a r) := of_noLane _ rfl

/-- `dramRetrainCheck`. -/
theorem dramRetrainCheck (a : Fin 2) (mr4 : Nat) (pass : Bool) : Statement (.dramRetrainCheck a mr4 pass) := of_noLane _ rfl

/-- `rowHammer`. -/
theorem rowHammer (a : Fin 2) (loc : DramRow) : Statement (.rowHammer a loc) := of_noLane _ rfl

/-- `hammerWindow`. -/
theorem hammerWindow : Statement .hammerWindow := of_noLane _ rfl

/-- `hammerThrottleEnd`. -/
theorem hammerThrottleEnd (i : Fin 8) : Statement (.hammerThrottleEnd i) := of_noLane _ rfl

/-- `dramRefresh`. -/
theorem dramRefresh (a : Fin 2) (waiting : Bool) : Statement (.dramRefresh a waiting) := of_noLane _ rfl

/-- `memLate`. -/
theorem memLate (i : Fin 8) (n : Nat) : Statement (.memLate i n) := of_noLane _ rfl

/-- `analogueTrimDone`. -/
theorem analogueTrimDone (p : Fin 4) (fields : List Int) : Statement (.analogueTrimDone p fields) := of_noLane _ rfl

/-- `tdcDelayRun`. -/
theorem tdcDelayRun (temp : Int) : Statement (.tdcDelayRun temp) := of_noLane _ rfl

/-- `tdcDelayDone`. -/
theorem tdcDelayDone (fields : List Int) : Statement (.tdcDelayDone fields) := of_noLane _ rfl

/-- `plausibilityWatch`. -/
theorem plausibilityWatch (offset : Int) (reference : Int) (rext : Int) : Statement (.plausibilityWatch offset reference rext) := of_noLane _ rfl

/-- `telemetryRecord`. -/
theorem telemetryRecord : Statement .telemetryRecord := of_noLane _ rfl

/-- `counterExtend`. -/
theorem counterExtend : Statement .counterExtend := of_noLane _ rfl

/-- `logProgram`. -/
theorem logProgram : Statement .logProgram := of_noLane _ rfl

/-- `heartbeatToggle`. -/
theorem heartbeatToggle : Statement .heartbeatToggle := of_noLane _ rfl

/-- `unitIdSample`. -/
theorem unitIdSample (level : Bool) : Statement (.unitIdSample level) := of_noLane _ rfl

/-- `xovf`. -/
theorem xovf (crossing : Fin 10) : Statement (.xovf crossing) := of_noLane _ rfl

/-- `serifSelftest`. -/
theorem serifSelftest (failed : BitVec 128) : Statement (.serifSelftest failed) := of_noLane _ rfl

/-- `lkeyOff`. -/
theorem lkeyOff : Statement .lkeyOff := of_noLane _ rfl

/-- `lkeyOn`. -/
theorem lkeyOn : Statement .lkeyOn := of_noLane _ rfl

/-- `loopOkLow`. -/
theorem loopOkLow : Statement .loopOkLow := of_noLane _ rfl

/-- `loopOkHigh`. -/
theorem loopOkHigh : Statement .loopOkHigh := of_noLane _ rfl

/-- `plugOpenLatch`. -/
theorem plugOpenLatch (p : Fin 4) : Statement (.plugOpenLatch p) := of_noLane _ rfl

/-- `plugDebouncedOpen`. -/
theorem plugDebouncedOpen (p : Fin 4) : Statement (.plugDebouncedOpen p) := of_noLane _ rfl

/-- `plugDebouncedClose`. -/
theorem plugDebouncedClose (p : Fin 4) : Statement (.plugDebouncedClose p) := of_noLane _ rfl

/-- `aprRestartExpiry`. -/
theorem aprRestartExpiry (p : Fin 4) : Statement (.aprRestartExpiry p) := of_noLane _ rfl

/-- `panelInputChatter`. -/
theorem panelInputChatter (i : Fin 8) : Statement (.panelInputChatter i) := of_noLane _ rfl

/-- `inputStuck`. -/
theorem inputStuck (button : Fin 2) : Statement (.inputStuck button) := of_noLane _ rfl

/-- `servicePress`. -/
theorem servicePress : Statement .servicePress := of_noLane _ rfl

/-- `locatePress`. -/
theorem locatePress : Statement .locatePress := of_noLane _ rfl

/-- `locateEnd`. -/
theorem locateEnd : Statement .locateEnd := of_noLane _ rfl

/-- `ledDiagnosis`. -/
theorem ledDiagnosis (j : Fin 16) (result : Fin 3) : Statement (.ledDiagnosis j result) := of_noLane _ rfl

/-- `colourFeedback`. -/
theorem colourFeedback (dark : Vector Int 3) (lit : Vector Int 3) : Statement (.colourFeedback dark lit) := of_noLane _ rfl

/-- `barkSend`. -/
theorem barkSend : Statement .barkSend := of_noLane _ rfl

/-- `barkReceived`. -/
theorem barkReceived (b : Machine.Bark) : Statement (.barkReceived b) := of_noLane _ rfl

/-- `hbPathSilent`. -/
theorem hbPathSilent : Statement .hbPathSilent := of_noLane _ rfl

/-- `barkPathSilent`. -/
theorem barkPathSilent : Statement .barkPathSilent := of_noLane _ rfl

/-- `pairPathRestored`. -/
theorem pairPathRestored (path : Fin 2) : Statement (.pairPathRestored path) := of_noLane _ rfl

/-- `peerFailed`. -/
theorem peerFailed : Statement .peerFailed := of_noLane _ rfl

/-- `peerPresentChange`. -/
theorem peerPresentChange (present : Bool) : Statement (.peerPresentChange present) := of_noLane _ rfl

/-- `segorLinkUp`. -/
theorem segorLinkUp (peerLow : Nat) (peerHigh : Nat) : Statement (.segorLinkUp peerLow peerHigh) := of_noLane _ rfl

/-- `segorLinkDown`. -/
theorem segorLinkDown : Statement .segorLinkDown := of_noLane _ rfl

/-- `segorFrameReceived`. -/
theorem segorFrameReceived (kind : Fin 5) (bytes : List Byte) : Statement (.segorFrameReceived kind bytes) := of_noLane _ rfl

/-- `leashOwnTest`. -/
theorem leashOwnTest (held : Bool) (current : Bool) : Statement (.leashOwnTest held current) := of_noLane _ rfl

/-- `ownClear`. -/
theorem ownClear (held : Bool) : Statement (.ownClear held) := of_noLane _ rfl

/-- `ilkNReleased`. -/
theorem ilkNReleased : Statement .ilkNReleased := of_noLane _ rfl

/-- `vacantTimeout`. -/
theorem vacantTimeout : Statement .vacantTimeout := of_noLane _ rfl

/-- `takeWaitEnd`. -/
theorem takeWaitEnd : Statement .takeWaitEnd := of_noLane _ rfl

/-- `handoverTimeout`. -/
theorem handoverTimeout : Statement .handoverTimeout := of_noLane _ rfl

/-- `copyEpochEnd`. -/
theorem copyEpochEnd : Statement .copyEpochEnd := of_noLane _ rfl

/-- `copyReceived`. -/
theorem copyReceived (c : Machine.CopyState) : Statement (.copyReceived c) := of_noLane _ rfl

/-- `finalCopySend`. -/
theorem finalCopySend : Statement .finalCopySend := of_noLane _ rfl

/-- `copyAckReceived`. -/
theorem copyAckReceived (epoch : Nat) : Statement (.copyAckReceived epoch) := of_noLane _ rfl

/-- `copyAckTimeout`. -/
theorem copyAckTimeout : Statement .copyAckTimeout := of_noLane _ rfl

/-- `healthFrameSend`. -/
theorem healthFrameSend : Statement .healthFrameSend := of_noLane _ rfl

/-- `bankReplica`. -/
theorem bankReplica (r : Replica) : Statement (.bankReplica r) := of_noLane _ rfl

/-- `ptpMessageRx`. -/
theorem ptpMessageRx (m : PtpMessage) : Statement (.ptpMessageRx m) := of_noLane _ rfl

/-- `ptpMessageTx`. -/
theorem ptpMessageTx (d : Fin 2) : Statement (.ptpMessageTx d) := of_noLane _ rfl

/-- `syncTimeout`. -/
theorem syncTimeout (d : Fin 2) : Statement (.syncTimeout d) := of_noLane _ rfl

/-- `servoTimeout`. -/
theorem servoTimeout (d : Fin 2) : Statement (.servoTimeout d) := of_noLane _ rfl

/-- `axisSlewDone`. -/
theorem axisSlewDone : Statement .axisSlewDone := of_noLane _ rfl

/-- `axisStep`. -/
theorem axisStep : Statement .axisStep := of_noLane _ rfl

/-- `syncInEdge`. -/
theorem syncInEdge : Statement .syncInEdge := of_noLane _ rfl

/-- `syncLoss`. -/
theorem syncLoss (stuck : Bool) : Statement (.syncLoss stuck) := of_noLane _ rfl

/-- `toutPulse`. -/
theorem toutPulse (u : Fin 4) : Statement (.toutPulse u) := of_noLane _ rfl

/-- `tdcEdge`. -/
theorem tdcEdge (isStop : Bool) (lsb : Nat) : Statement (.tdcEdge isStop lsb) := of_noLane _ rfl

/-- `tdcTimeout`. -/
theorem tdcTimeout : Statement .tdcTimeout := of_noLane _ rfl

/-- `pePerstNAssert`. -/
theorem pePerstNAssert : Statement .pePerstNAssert := of_noLane _ rfl

/-- `pcieHotReset`. -/
theorem pcieHotReset : Statement .pcieHotReset := of_noLane _ rfl

/-- `pcieFlr`. -/
theorem pcieFlr : Statement .pcieFlr := of_noLane _ rfl

/-- `pcieLinkChange`. -/
theorem pcieLinkChange (up : Bool) (gen : BitVec 4) (width : BitVec 3) : Statement (.pcieLinkChange up gen width) := of_noLane _ rfl

/-- `pcieL1Wake`. -/
theorem pcieL1Wake : Statement .pcieL1Wake := of_noLane _ rfl

/-- `ethLink`. -/
theorem ethLink (n : Fin 2) (up : Bool) : Statement (.ethLink n up) := of_noLane _ rfl

/-- `ethFrameRx`. -/
theorem ethFrameRx (n : Fin 2) (f : EthFrame) : Statement (.ethFrameRx n f) := of_noLane _ rfl

/-- `queueItemDeliver`. -/
theorem queueItemDeliver (q : Fin 8) (buffers : List Nat) : Statement (.queueItemDeliver q buffers) := of_noLane _ rfl

/-- `queueIrq`. -/
theorem queueIrq (q : Fin 8) : Statement (.queueIrq q) := of_noLane _ rfl

/-- `descriptorReadDone`. -/
theorem descriptorReadDone (q : Fin 8) (r : DescriptorRead) : Statement (.descriptorReadDone q r) := of_noLane _ rfl

/-- `doorbellWrite`. -/
theorem doorbellWrite (t : Fin 2) (v : BitVec 32) : Statement (.doorbellWrite t v) := of_noLane _ rfl

/-- `messageTaken`. -/
theorem messageTaken (t : Fin 2) : Statement (.messageTaken t) := of_noLane _ rfl

/-- `throttleEnd`. -/
theorem throttleEnd (t : Fin 4) : Statement (.throttleEnd t) := of_noLane _ rfl

/-- `sessionTimeout`. -/
theorem sessionTimeout : Statement .sessionTimeout := of_noLane _ rfl

/-- `rspAckWrite`. -/
theorem rspAckWrite (t : Fin 2) : Statement (.rspAckWrite t) := of_noLane _ rfl

/-- `responsePlaced`. -/
theorem responsePlaced (t : Fin 2) : Statement (.responsePlaced t) := of_noLane _ rfl

/-- `evqTailWrite`. -/
theorem evqTailWrite (t : Fin 2) (v : BitVec 32) : Statement (.evqTailWrite t v) := of_noLane _ rfl

/-- `estopStop`. -/
theorem estopStop (t : Fin 2) : Statement (.estopStop t) := of_noLane _ rfl

/-- `snapshotLowRead`. -/
theorem snapshotLowRead (t : Fin 2) (off : Nat) : Statement (.snapshotLowRead t off) := of_noLane _ rfl

/-- `snapshotHighRead`. -/
theorem snapshotHighRead (t : Fin 2) (off : Nat) : Statement (.snapshotHighRead t off) := of_noLane _ rfl

/-- `queueTailWrite`. -/
theorem queueTailWrite (q : Fin 8) (v : BitVec 32) : Statement (.queueTailWrite q v) := of_noLane _ rfl

/-- `dmaQueueEnable`. -/
theorem dmaQueueEnable (q : Fin 8) : Statement (.dmaQueueEnable q) := of_noLane _ rfl

/-- `dmaQueueDisable`. -/
theorem dmaQueueDisable (q : Fin 8) : Statement (.dmaQueueDisable q) := of_noLane _ rfl

/-- `registerWrite`. -/
theorem registerWrite (t : Fin 2) (off : Nat) (v : RegData) : Statement (.registerWrite t off v) := of_noLane _ rfl

/-- `spiTransaction`. -/
theorem spiTransaction (mosi : List Byte) : Statement (.spiTransaction mosi) := of_noLane _ rfl

/-- `smbReadId`. -/
theorem smbReadId (addr : BitVec 7) : Statement (.smbReadId addr) := of_noLane _ rfl

/-- `smbReadSerial`. -/
theorem smbReadSerial (addr : BitVec 7) : Statement (.smbReadSerial addr) := of_noLane _ rfl

/-- `smbReadFwVersion`. -/
theorem smbReadFwVersion (addr : BitVec 7) : Statement (.smbReadFwVersion addr) := of_noLane _ rfl

/-- `smbReadHostStatus`. -/
theorem smbReadHostStatus (addr : BitVec 7) : Statement (.smbReadHostStatus addr) := of_noLane _ rfl

/-- `smbReadHealth`. -/
theorem smbReadHealth (addr : BitVec 7) : Statement (.smbReadHealth addr) := of_noLane _ rfl

/-- `smbReadTemp`. -/
theorem smbReadTemp (addr : BitVec 7) : Statement (.smbReadTemp addr) := of_noLane _ rfl

/-- `smbReadFeedStatus`. -/
theorem smbReadFeedStatus (addr : BitVec 7) : Statement (.smbReadFeedStatus addr) := of_noLane _ rfl

/-- `smbReadSafetyStatus`. -/
theorem smbReadSafetyStatus (addr : BitVec 7) : Statement (.smbReadSafetyStatus addr) := of_noLane _ rfl

/-- `smbReadTimeSnap`. -/
theorem smbReadTimeSnap (addr : BitVec 7) : Statement (.smbReadTimeSnap addr) := of_noLane _ rfl

/-- `smbReadEstop`. -/
theorem smbReadEstop (addr : BitVec 7) : Statement (.smbReadEstop addr) := of_noLane _ rfl

/-- `smbWriteEstop`. -/
theorem smbWriteEstop (data : SmbData) (pecOk : Bool) : Statement (.smbWriteEstop data pecOk) := of_noLane _ rfl

/-- `jtagBypass`. -/
theorem jtagBypass : Statement .jtagBypass := of_noLane _ rfl

/-- `jtagIdcode`. -/
theorem jtagIdcode : Statement .jtagIdcode := of_noLane _ rfl

/-- `jtagSamplePreload`. -/
theorem jtagSamplePreload (levels : List Bool) : Statement (.jtagSamplePreload levels) := of_noLane _ rfl

/-- `jtagExtest`. -/
theorem jtagExtest : Statement .jtagExtest := of_noLane _ rfl

/-- `jtagTrst`. -/
theorem jtagTrst : Statement .jtagTrst := of_noLane _ rfl

/-- `hello`. -/
theorem hello : Statement .hello := of_noLane _ rfl

/-- `ping`. -/
theorem ping : Statement .ping := of_noLane _ rfl

/-- `bye`. -/
theorem bye : Statement .bye := of_noLane _ rfl

/-- `eventSubscribe`. -/
theorem eventSubscribe : Statement .eventSubscribe := of_noLane _ rfl

/-- `paramGet`. -/
theorem paramGet : Statement .paramGet := of_noLane _ rfl

/-- `paramSet`. -/
theorem paramSet : Statement .paramSet := of_noLane _ rfl

/-- `paramGetBlock`. -/
theorem paramGetBlock : Statement .paramGetBlock := of_noLane _ rfl

/-- `stage`. -/
theorem stage : Statement .stage := of_noLane _ rfl

/-- `commit`. -/
theorem commit : Statement .commit := of_noLane _ rfl

/-- `confirm`. -/
theorem confirm : Statement .confirm := of_noLane _ rfl

/-- `revert`. -/
theorem revert : Statement .revert := of_noLane _ rfl

/-- `bankDiff`. -/
theorem bankDiff : Statement .bankDiff := of_noLane _ rfl

/-- `pendingDiscard`. -/
theorem pendingDiscard : Statement .pendingDiscard := of_noLane _ rfl

/-- `modeRequest`. -/
theorem modeRequest : Statement .modeRequest := of_noLane _ rfl

/-- `deviceReset`. -/
theorem deviceReset : Statement .deviceReset := of_noLane _ rfl

/-- `zoneDefine`. -/
theorem zoneDefine : Statement .zoneDefine := of_noLane _ rfl

/-- `zoneDelete`. -/
theorem zoneDelete : Statement .zoneDelete := of_noLane _ rfl

/-- `zoneQuery`. -/
theorem zoneQuery : Statement .zoneQuery := of_noLane _ rfl

/-- `seqLoad`. -/
theorem seqLoad : Statement .seqLoad := of_noLane _ rfl

/-- `arm`. -/
theorem arm : Statement .arm := of_noLane _ rfl

/-- `disarm`. -/
theorem disarm : Statement .disarm := of_noLane _ rfl

/-- `eventRead`. -/
theorem eventRead : Statement .eventRead := of_noLane _ rfl

/-- `replayStart`. -/
theorem replayStart : Statement .replayStart := of_noLane _ rfl

/-- `replayCancel`. -/
theorem replayCancel : Statement .replayCancel := of_noLane _ rfl

/-- `replayStatus`. -/
theorem replayStatus : Statement .replayStatus := of_noLane _ rfl

/-- `surveyRead`. -/
theorem surveyRead : Statement .surveyRead := of_noLane _ rfl

/-- `calRun`. -/
theorem calRun : Statement .calRun := of_noLane _ rfl

/-- `calPoint`. -/
theorem calPoint : Statement .calPoint := of_noLane _ rfl

/-- `calRead`. -/
theorem calRead : Statement .calRead := of_noLane _ rfl

/-- `pairHandover`. -/
theorem pairHandover : Statement .pairHandover := of_noLane _ rfl

/-- `pairQuery`. -/
theorem pairQuery : Statement .pairQuery := of_noLane _ rfl

/-- `peerRelay`. -/
theorem peerRelay : Statement .peerRelay := of_noLane _ rfl

/-- `journalRead`. -/
theorem journalRead : Statement .journalRead := of_noLane _ rfl

/-- `logRead`. -/
theorem logRead : Statement .logRead := of_noLane _ rfl

/-- `fwBegin`. -/
theorem fwBegin : Statement .fwBegin := of_noLane _ rfl

/-- `fwData`. -/
theorem fwData : Statement .fwData := of_noLane _ rfl

/-- `fwEnd`. -/
theorem fwEnd : Statement .fwEnd := of_noLane _ rfl

/-- `fwActivate`. -/
theorem fwActivate : Statement .fwActivate := of_noLane _ rfl

/-- `fwConfirm`. -/
theorem fwConfirm : Statement .fwConfirm := of_noLane _ rfl

/-- `progLoad`. -/
theorem progLoad : Statement .progLoad := of_noLane _ rfl

/-- `progDelete`. -/
theorem progDelete : Statement .progDelete := of_noLane _ rfl

/-- `progList`. -/
theorem progList : Statement .progList := of_noLane _ rfl

/-- `timeDomainWrite`. -/
theorem timeDomainWrite (d : Fin 2) (increment : Option Nat) (adjust : Option Int) : Statement (.timeDomainWrite d increment adjust) := of_noLane _ rfl

/-- `servoStateWrite`. -/
theorem servoStateWrite (d : Fin 2) (locked : Bool) : Statement (.servoStateWrite d locked) := of_noLane _ rfl

/-- `timeSelectWrite`. -/
theorem timeSelectWrite (d : Fin 2) (force : Bool) : Statement (.timeSelectWrite d force) := of_noLane _ rfl

/-- `tdcArmWrite`. -/
theorem tdcArmWrite (on : Bool) : Statement (.tdcArmWrite on) := of_noLane _ rfl

/-- `toutConfigWrite`. -/
theorem toutConfigWrite (u : Fin 4) (field : Fin 8) (v : Int) : Statement (.toutConfigWrite u field v) := of_noLane _ rfl

/-- `dasGainWrite`. -/
theorem dasGainWrite (p : Fin 4) (gain : Nat) : Statement (.dasGainWrite p gain) := of_noLane _ rfl

/-- `rateMtsWrite`. -/
theorem rateMtsWrite (a : Fin 2) (rate : Nat) : Statement (.rateMtsWrite a rate) := of_noLane _ rfl

/-- `estopReleaseWrite`. -/
theorem estopReleaseWrite (on : Bool) : Statement (.estopReleaseWrite on) := of_noLane _ rfl

/-- `portRestartWrite`. -/
theorem portRestartWrite (mask : Nat) : Statement (.portRestartWrite mask) := of_noLane _ rfl

/-- `hostEnableWrite`. -/
theorem hostEnableWrite (mask : Nat) : Statement (.hostEnableWrite mask) := of_noLane _ rfl

/-- `locateMaskWrite`. -/
theorem locateMaskWrite (mask : Nat) : Statement (.locateMaskWrite mask) := of_noLane _ rfl

/-- `masterArmWrite`. -/
theorem masterArmWrite (on : Bool) : Statement (.masterArmWrite on) := of_noLane _ rfl

/-- `ptrFlagsWrite`. -/
theorem ptrFlagsWrite (v : Nat) : Statement (.ptrFlagsWrite v) := of_noLane _ rfl

/-- `udpTransportWrite`. -/
theorem udpTransportWrite (enable : Bool) (port : Nat) : Statement (.udpTransportWrite enable port) := of_noLane _ rfl

/-- `nop`. -/
theorem nop (l : Fin 128) : Statement (.nop l) := by
  refine of_shape _ l _ rfl rfl ?_
  generalize h : packWord 0x00 [] = w
  rw [packWord_nil, Nat.zero_mul] at h
  have h0 : w / 2 ^ 26 = 0 := by rw [← h, Nat.zero_div]
  simp only [serifShape, h0]

/-- `endInsn`. -/
theorem endInsn (l : Fin 128) : Statement (.endInsn l) := by
  refine of_shape _ l _ rfl rfl ?_
  generalize h : packWord 0x01 [] = w
  rw [packWord_nil] at h
  have h0 : w / 2 ^ 26 = 0x01 := by omega
  simp only [serifShape, h0]

/-- `rep`. -/
theorem rep (l : Fin 128) (nMinus1 : BitVec 12) : Statement (.rep l nMinus1) := by
  refine of_shape _ l _ rfl rfl ?_
  generalize h : packWord 0x02 [(nMinus1.toNat, 0)] = w
  simp only [packWord_cons, packWord_nil] at h
  have h0 : w / 2 ^ 26 = 0x02 := by omega
  have hnMinus1 : BitVec.ofNat 12 (w / 2 ^ 0) = nMinus1 := by
    apply BitVec.eq_of_toNat_eq; rw [BitVec.toNat_ofNat]; omega
  simp only [serifShape, h0, hnMinus1]

/-- `loopi`. -/
theorem loopi (l : Fin 128) (c : Fin 4) (n : BitVec 16) : Statement (.loopi l c n) := by
  refine of_shape _ l _ rfl rfl ?_
  generalize h : packWord 0x03 [(c.val, 24), (n.toNat, 0)] = w
  simp only [packWord_cons, packWord_nil] at h
  have h0 : w / 2 ^ 26 = 0x03 := by omega
  have hc : w / 2 ^ 24 % 4 = c.val := by omega
  have hn : BitVec.ofNat 16 (w / 2 ^ 0) = n := by
    apply BitVec.eq_of_toNat_eq; rw [BitVec.toNat_ofNat]; omega
  simp only [serifShape, h0, fin4, hc, hn]

/-- `loopp`. -/
theorem loopp (l : Fin 128) (c : Fin 4) : Statement (.loopp l c) := by
  refine of_shape _ l _ rfl rfl ?_
  generalize h : packWord 0x04 [(c.val, 24)] = w
  simp only [packWord_cons, packWord_nil] at h
  have h0 : w / 2 ^ 26 = 0x04 := by omega
  have hc : w / 2 ^ 24 % 4 = c.val := by omega
  simp only [serifShape, h0, fin4, hc]

/-- `dbnz`. -/
theorem dbnz (l : Fin 128) (c : Fin 4) (off : BitVec 16) : Statement (.dbnz l c off) := by
  refine of_shape _ l _ rfl rfl ?_
  generalize h : packWord 0x05 [(c.val, 24), (off.toNat, 0)] = w
  simp only [packWord_cons, packWord_nil] at h
  have h0 : w / 2 ^ 26 = 0x05 := by omega
  have hc : w / 2 ^ 24 % 4 = c.val := by omega
  have hoff : BitVec.ofNat 16 (w / 2 ^ 0) = off := by
    apply BitVec.eq_of_toNat_eq; rw [BitVec.toNat_ofNat]; omega
  simp only [serifShape, h0, fin4, hc, hoff]

/-- `ldi`. -/
theorem ldi (l : Fin 128) (d : Fin 16) (v : BitVec 16) : Statement (.ldi l d v) := by
  refine of_shape _ l _ rfl rfl ?_
  generalize h : packWord 0x08 [(d.val, 22), (v.toNat, 0)] = w
  simp only [packWord_cons, packWord_nil] at h
  have h0 : w / 2 ^ 26 = 0x08 := by omega
  have hd : w / 2 ^ 22 % 16 = d.val := by omega
  have hv : BitVec.ofNat 16 (w / 2 ^ 0) = v := by
    apply BitVec.eq_of_toNat_eq; rw [BitVec.toNat_ofNat]; omega
  simp only [serifShape, h0, fin16, hd, hv]

/-- `ldih`. -/
theorem ldih (l : Fin 128) (d : Fin 16) (v : BitVec 8) : Statement (.ldih l d v) := by
  refine of_shape _ l _ rfl rfl ?_
  generalize h : packWord 0x09 [(d.val, 22), (v.toNat, 0)] = w
  simp only [packWord_cons, packWord_nil] at h
  have h0 : w / 2 ^ 26 = 0x09 := by omega
  have hd : w / 2 ^ 22 % 16 = d.val := by omega
  have hv : BitVec.ofNat 8 (w / 2 ^ 0) = v := by
    apply BitVec.eq_of_toNat_eq; rw [BitVec.toNat_ofNat]; omega
  simp only [serifShape, h0, fin16, hd, hv]

/-- `mov`. -/
theorem mov (l : Fin 128) (d : Fin 16) (a : Fin 16) : Statement (.mov l d a) := by
  refine of_shape _ l _ rfl rfl ?_
  generalize h : packWord 0x0A [(d.val, 22), (a.val, 18)] = w
  simp only [packWord_cons, packWord_nil] at h
  have h0 : w / 2 ^ 26 = 0x0A := by omega
  have hd : w / 2 ^ 22 % 16 = d.val := by omega
  have ha : w / 2 ^ 18 % 16 = a.val := by omega
  simp only [serifShape, h0, fin16, hd, ha]

/-- `movs`. -/
theorem movs (l : Fin 128) (d : Fin 16) (n : Fin 16) : Statement (.movs l d n) := by
  refine of_shape _ l _ rfl rfl ?_
  generalize h : packWord 0x0B [(d.val, 22), (n.val, 0)] = w
  simp only [packWord_cons, packWord_nil] at h
  have h0 : w / 2 ^ 26 = 0x0B := by omega
  have hd : w / 2 ^ 22 % 16 = d.val := by omega
  have hn : w / 2 ^ 0 % 16 = n.val := by omega
  simp only [serifShape, h0, fin16, hd, hn]

/-- `seta`. -/
theorem seta (l : Fin 128) (t : Fin 16) (a : Fin 16) : Statement (.seta l t a) := by
  refine of_shape _ l _ rfl rfl ?_
  generalize h : packWord 0x0C [(t.val, 22), (a.val, 18)] = w
  simp only [packWord_cons, packWord_nil] at h
  have h0 : w / 2 ^ 26 = 0x0C := by omega
  have ht : w / 2 ^ 22 % 16 = t.val := by omega
  have ha : w / 2 ^ 18 % 16 = a.val := by omega
  simp only [serifShape, h0, fin16, ht, ha]

/-- `setai`. -/
theorem setai (l : Fin 128) (t : Fin 16) (v : BitVec 14) : Statement (.setai l t v) := by
  refine of_shape _ l _ rfl rfl ?_
  generalize h : packWord 0x0D [(t.val, 22), (v.toNat, 0)] = w
  simp only [packWord_cons, packWord_nil] at h
  have h0 : w / 2 ^ 26 = 0x0D := by omega
  have ht : w / 2 ^ 22 % 16 = t.val := by omega
  have hv : BitVec.ofNat 14 (w / 2 ^ 0) = v := by
    apply BitVec.eq_of_toNat_eq; rw [BitVec.toNat_ofNat]; omega
  simp only [serifShape, h0, fin16, ht, hv]

/-- `geta`. -/
theorem geta (l : Fin 128) (d : Fin 16) (t : Fin 16) : Statement (.geta l d t) := by
  refine of_shape _ l _ rfl rfl ?_
  generalize h : packWord 0x0E [(d.val, 22), (t.val, 18)] = w
  simp only [packWord_cons, packWord_nil] at h
  have h0 : w / 2 ^ 26 = 0x0E := by omega
  have hd : w / 2 ^ 22 % 16 = d.val := by omega
  have ht : w / 2 ^ 18 % 16 = t.val := by omega
  simp only [serifShape, h0, fin16, hd, ht]

/-- `getf`. -/
theorem getf (l : Fin 128) (d : Fin 16) : Statement (.getf l d) := by
  refine of_shape _ l _ rfl rfl ?_
  generalize h : packWord 0x0F [(d.val, 22)] = w
  simp only [packWord_cons, packWord_nil] at h
  have h0 : w / 2 ^ 26 = 0x0F := by omega
  have hd : w / 2 ^ 22 % 16 = d.val := by omega
  simp only [serifShape, h0, fin16, hd]

/-- `add`. -/
theorem add (l : Fin 128) (d : Fin 16) (a : Fin 16) (b : Fin 16) : Statement (.add l d a b) := by
  refine of_shape _ l _ rfl rfl ?_
  generalize h : packWord 0x10 [(d.val, 22), (a.val, 18), (b.val, 14)] = w
  simp only [packWord_cons, packWord_nil] at h
  have h0 : w / 2 ^ 26 = 0x10 := by omega
  have hd : w / 2 ^ 22 % 16 = d.val := by omega
  have ha : w / 2 ^ 18 % 16 = a.val := by omega
  have hb : w / 2 ^ 14 % 16 = b.val := by omega
  simp only [serifShape, h0, fin16, hd, ha, hb]

/-- `sub`. -/
theorem sub (l : Fin 128) (d : Fin 16) (a : Fin 16) (b : Fin 16) : Statement (.sub l d a b) := by
  refine of_shape _ l _ rfl rfl ?_
  generalize h : packWord 0x11 [(d.val, 22), (a.val, 18), (b.val, 14)] = w
  simp only [packWord_cons, packWord_nil] at h
  have h0 : w / 2 ^ 26 = 0x11 := by omega
  have hd : w / 2 ^ 22 % 16 = d.val := by omega
  have ha : w / 2 ^ 18 % 16 = a.val := by omega
  have hb : w / 2 ^ 14 % 16 = b.val := by omega
  simp only [serifShape, h0, fin16, hd, ha, hb]

/-- `addw`. -/
theorem addw (l : Fin 128) (d : Fin 16) (a : Fin 16) (b : Fin 16) : Statement (.addw l d a b) := by
  refine of_shape _ l _ rfl rfl ?_
  generalize h : packWord 0x12 [(d.val, 22), (a.val, 18), (b.val, 14)] = w
  simp only [packWord_cons, packWord_nil] at h
  have h0 : w / 2 ^ 26 = 0x12 := by omega
  have hd : w / 2 ^ 22 % 16 = d.val := by omega
  have ha : w / 2 ^ 18 % 16 = a.val := by omega
  have hb : w / 2 ^ 14 % 16 = b.val := by omega
  simp only [serifShape, h0, fin16, hd, ha, hb]

/-- `subw`. -/
theorem subw (l : Fin 128) (d : Fin 16) (a : Fin 16) (b : Fin 16) : Statement (.subw l d a b) := by
  refine of_shape _ l _ rfl rfl ?_
  generalize h : packWord 0x13 [(d.val, 22), (a.val, 18), (b.val, 14)] = w
  simp only [packWord_cons, packWord_nil] at h
  have h0 : w / 2 ^ 26 = 0x13 := by omega
  have hd : w / 2 ^ 22 % 16 = d.val := by omega
  have ha : w / 2 ^ 18 % 16 = a.val := by omega
  have hb : w / 2 ^ 14 % 16 = b.val := by omega
  simp only [serifShape, h0, fin16, hd, ha, hb]

/-- `and`. -/
theorem and (l : Fin 128) (d : Fin 16) (a : Fin 16) (b : Fin 16) : Statement (.and l d a b) := by
  refine of_shape _ l _ rfl rfl ?_
  generalize h : packWord 0x14 [(d.val, 22), (a.val, 18), (b.val, 14)] = w
  simp only [packWord_cons, packWord_nil] at h
  have h0 : w / 2 ^ 26 = 0x14 := by omega
  have hd : w / 2 ^ 22 % 16 = d.val := by omega
  have ha : w / 2 ^ 18 % 16 = a.val := by omega
  have hb : w / 2 ^ 14 % 16 = b.val := by omega
  simp only [serifShape, h0, fin16, hd, ha, hb]

/-- `or`. -/
theorem or (l : Fin 128) (d : Fin 16) (a : Fin 16) (b : Fin 16) : Statement (.or l d a b) := by
  refine of_shape _ l _ rfl rfl ?_
  generalize h : packWord 0x15 [(d.val, 22), (a.val, 18), (b.val, 14)] = w
  simp only [packWord_cons, packWord_nil] at h
  have h0 : w / 2 ^ 26 = 0x15 := by omega
  have hd : w / 2 ^ 22 % 16 = d.val := by omega
  have ha : w / 2 ^ 18 % 16 = a.val := by omega
  have hb : w / 2 ^ 14 % 16 = b.val := by omega
  simp only [serifShape, h0, fin16, hd, ha, hb]

/-- `xor`. -/
theorem xor (l : Fin 128) (d : Fin 16) (a : Fin 16) (b : Fin 16) : Statement (.xor l d a b) := by
  refine of_shape _ l _ rfl rfl ?_
  generalize h : packWord 0x16 [(d.val, 22), (a.val, 18), (b.val, 14)] = w
  simp only [packWord_cons, packWord_nil] at h
  have h0 : w / 2 ^ 26 = 0x16 := by omega
  have hd : w / 2 ^ 22 % 16 = d.val := by omega
  have ha : w / 2 ^ 18 % 16 = a.val := by omega
  have hb : w / 2 ^ 14 % 16 = b.val := by omega
  simp only [serifShape, h0, fin16, hd, ha, hb]

/-- `min`. -/
theorem min (l : Fin 128) (d : Fin 16) (a : Fin 16) (b : Fin 16) : Statement (.min l d a b) := by
  refine of_shape _ l _ rfl rfl ?_
  generalize h : packWord 0x17 [(d.val, 22), (a.val, 18), (b.val, 14)] = w
  simp only [packWord_cons, packWord_nil] at h
  have h0 : w / 2 ^ 26 = 0x17 := by omega
  have hd : w / 2 ^ 22 % 16 = d.val := by omega
  have ha : w / 2 ^ 18 % 16 = a.val := by omega
  have hb : w / 2 ^ 14 % 16 = b.val := by omega
  simp only [serifShape, h0, fin16, hd, ha, hb]

/-- `max`. -/
theorem max (l : Fin 128) (d : Fin 16) (a : Fin 16) (b : Fin 16) : Statement (.max l d a b) := by
  refine of_shape _ l _ rfl rfl ?_
  generalize h : packWord 0x18 [(d.val, 22), (a.val, 18), (b.val, 14)] = w
  simp only [packWord_cons, packWord_nil] at h
  have h0 : w / 2 ^ 26 = 0x18 := by omega
  have hd : w / 2 ^ 22 % 16 = d.val := by omega
  have ha : w / 2 ^ 18 % 16 = a.val := by omega
  have hb : w / 2 ^ 14 % 16 = b.val := by omega
  simp only [serifShape, h0, fin16, hd, ha, hb]

/-- `abs`. -/
theorem abs (l : Fin 128) (d : Fin 16) (a : Fin 16) : Statement (.abs l d a) := by
  refine of_shape _ l _ rfl rfl ?_
  generalize h : packWord 0x19 [(d.val, 22), (a.val, 18)] = w
  simp only [packWord_cons, packWord_nil] at h
  have h0 : w / 2 ^ 26 = 0x19 := by omega
  have hd : w / 2 ^ 22 % 16 = d.val := by omega
  have ha : w / 2 ^ 18 % 16 = a.val := by omega
  simp only [serifShape, h0, fin16, hd, ha]

/-- `neg`. -/
theorem neg (l : Fin 128) (d : Fin 16) (a : Fin 16) : Statement (.neg l d a) := by
  refine of_shape _ l _ rfl rfl ?_
  generalize h : packWord 0x1A [(d.val, 22), (a.val, 18)] = w
  simp only [packWord_cons, packWord_nil] at h
  have h0 : w / 2 ^ 26 = 0x1A := by omega
  have hd : w / 2 ^ 22 % 16 = d.val := by omega
  have ha : w / 2 ^ 18 % 16 = a.val := by omega
  simp only [serifShape, h0, fin16, hd, ha]

/-- `shli`. -/
theorem shli (l : Fin 128) (d : Fin 16) (a : Fin 16) (n : BitVec 5) : Statement (.shli l d a n) := by
  refine of_shape _ l _ rfl rfl ?_
  generalize h : packWord 0x1B [(d.val, 22), (a.val, 18), (n.toNat, 9)] = w
  simp only [packWord_cons, packWord_nil] at h
  have h0 : w / 2 ^ 26 = 0x1B := by omega
  have hd : w / 2 ^ 22 % 16 = d.val := by omega
  have ha : w / 2 ^ 18 % 16 = a.val := by omega
  have hn : BitVec.ofNat 5 (w / 2 ^ 9) = n := by
    apply BitVec.eq_of_toNat_eq; rw [BitVec.toNat_ofNat]; omega
  simp only [serifShape, h0, fin16, hd, ha, hn]

/-- `shrai`. -/
theorem shrai (l : Fin 128) (d : Fin 16) (a : Fin 16) (n : BitVec 5) : Statement (.shrai l d a n) := by
  refine of_shape _ l _ rfl rfl ?_
  generalize h : packWord 0x1C [(d.val, 22), (a.val, 18), (n.toNat, 9)] = w
  simp only [packWord_cons, packWord_nil] at h
  have h0 : w / 2 ^ 26 = 0x1C := by omega
  have hd : w / 2 ^ 22 % 16 = d.val := by omega
  have ha : w / 2 ^ 18 % 16 = a.val := by omega
  have hn : BitVec.ofNat 5 (w / 2 ^ 9) = n := by
    apply BitVec.eq_of_toNat_eq; rw [BitVec.toNat_ofNat]; omega
  simp only [serifShape, h0, fin16, hd, ha, hn]

/-- `shrli`. -/
theorem shrli (l : Fin 128) (d : Fin 16) (a : Fin 16) (n : BitVec 5) : Statement (.shrli l d a n) := by
  refine of_shape _ l _ rfl rfl ?_
  generalize h : packWord 0x1D [(d.val, 22), (a.val, 18), (n.toNat, 9)] = w
  simp only [packWord_cons, packWord_nil] at h
  have h0 : w / 2 ^ 26 = 0x1D := by omega
  have hd : w / 2 ^ 22 % 16 = d.val := by omega
  have ha : w / 2 ^ 18 % 16 = a.val := by omega
  have hn : BitVec.ofNat 5 (w / 2 ^ 9) = n := by
    apply BitVec.eq_of_toNat_eq; rw [BitVec.toNat_ofNat]; omega
  simp only [serifShape, h0, fin16, hd, ha, hn]

/-- `shrri`. -/
theorem shrri (l : Fin 128) (d : Fin 16) (a : Fin 16) (n : BitVec 5) : Statement (.shrri l d a n) := by
  refine of_shape _ l _ rfl rfl ?_
  generalize h : packWord 0x1E [(d.val, 22), (a.val, 18), (n.toNat, 9)] = w
  simp only [packWord_cons, packWord_nil] at h
  have h0 : w / 2 ^ 26 = 0x1E := by omega
  have hd : w / 2 ^ 22 % 16 = d.val := by omega
  have ha : w / 2 ^ 18 % 16 = a.val := by omega
  have hn : BitVec.ofNat 5 (w / 2 ^ 9) = n := by
    apply BitVec.eq_of_toNat_eq; rw [BitVec.toNat_ofNat]; omega
  simp only [serifShape, h0, fin16, hd, ha, hn]

/-- `shv`. -/
theorem shv (l : Fin 128) (d : Fin 16) (a : Fin 16) (b : Fin 16) : Statement (.shv l d a b) := by
  refine of_shape _ l _ rfl rfl ?_
  generalize h : packWord 0x1F [(d.val, 22), (a.val, 18), (b.val, 14)] = w
  simp only [packWord_cons, packWord_nil] at h
  have h0 : w / 2 ^ 26 = 0x1F := by omega
  have hd : w / 2 ^ 22 % 16 = d.val := by omega
  have ha : w / 2 ^ 18 % 16 = a.val := by omega
  have hb : w / 2 ^ 14 % 16 = b.val := by omega
  simp only [serifShape, h0, fin16, hd, ha, hb]

/-- `cmp`. -/
theorem cmp (l : Fin 128) (a : Fin 16) (b : Fin 16) : Statement (.cmp l a b) := by
  refine of_shape _ l _ rfl rfl ?_
  generalize h : packWord 0x20 [(a.val, 18), (b.val, 14)] = w
  simp only [packWord_cons, packWord_nil] at h
  have h0 : w / 2 ^ 26 = 0x20 := by omega
  have ha : w / 2 ^ 18 % 16 = a.val := by omega
  have hb : w / 2 ^ 14 % 16 = b.val := by omega
  simp only [serifShape, h0, fin16, ha, hb]

/-- `sel`. -/
theorem sel (l : Fin 128) (d : Fin 16) (a : Fin 16) (b : Fin 16) (cond : Fin 4) : Statement (.sel l d a b cond) := by
  refine of_shape _ l _ rfl rfl ?_
  generalize h : packWord 0x21 [(d.val, 22), (a.val, 18), (b.val, 14), (cond.val, 12)] = w
  simp only [packWord_cons, packWord_nil] at h
  have h0 : w / 2 ^ 26 = 0x21 := by omega
  have hd : w / 2 ^ 22 % 16 = d.val := by omega
  have ha : w / 2 ^ 18 % 16 = a.val := by omega
  have hb : w / 2 ^ 14 % 16 = b.val := by omega
  have hcond : w / 2 ^ 12 % 4 = cond.val := by omega
  simp only [serifShape, h0, fin16, fin4, hd, ha, hb, hcond]

/-- `qor`. -/
theorem qor (l : Fin 128) (a : Fin 16) : Statement (.qor l a) := by
  refine of_shape _ l _ rfl rfl ?_
  generalize h : packWord 0x22 [(a.val, 18)] = w
  simp only [packWord_cons, packWord_nil] at h
  have h0 : w / 2 ^ 26 = 0x22 := by omega
  have ha : w / 2 ^ 18 % 16 = a.val := by omega
  simp only [serifShape, h0, fin16, ha]

/-- `qget`. -/
theorem qget (l : Fin 128) (d : Fin 16) : Statement (.qget l d) := by
  refine of_shape _ l _ rfl rfl ?_
  generalize h : packWord 0x23 [(d.val, 22)] = w
  simp only [packWord_cons, packWord_nil] at h
  have h0 : w / 2 ^ 26 = 0x23 := by omega
  have hd : w / 2 ^ 22 % 16 = d.val := by omega
  simp only [serifShape, h0, fin16, hd]

/-- `exp`. -/
theorem exp (l : Fin 128) (d : Fin 16) (a : Fin 16) : Statement (.exp l d a) := by
  refine of_shape _ l _ rfl rfl ?_
  generalize h : packWord 0x24 [(d.val, 22), (a.val, 18)] = w
  simp only [packWord_cons, packWord_nil] at h
  have h0 : w / 2 ^ 26 = 0x24 := by omega
  have hd : w / 2 ^ 22 % 16 = d.val := by omega
  have ha : w / 2 ^ 18 % 16 = a.val := by omega
  simp only [serifShape, h0, fin16, hd, ha]

/-- `bxp`. -/
theorem bxp (l : Fin 128) (a : Fin 16) : Statement (.bxp l a) := by
  refine of_shape _ l _ rfl rfl ?_
  generalize h : packWord 0x25 [(a.val, 18)] = w
  simp only [packWord_cons, packWord_nil] at h
  have h0 : w / 2 ^ 26 = 0x25 := by omega
  have ha : w / 2 ^ 18 % 16 = a.val := by omega
  simp only [serifShape, h0, fin16, ha]

/-- `bxg`. -/
theorem bxg (l : Fin 128) (d : Fin 16) : Statement (.bxg l d) := by
  refine of_shape _ l _ rfl rfl ?_
  generalize h : packWord 0x26 [(d.val, 22)] = w
  simp only [packWord_cons, packWord_nil] at h
  have h0 : w / 2 ^ 26 = 0x26 := by omega
  have hd : w / 2 ^ 22 % 16 = d.val := by omega
  simp only [serifShape, h0, fin16, hd]

/-- `ld`. -/
theorem ld (l : Fin 128) (d : Fin 16) (p : Fin 8) (o : Fin 8) (size : BitVec 2) (sign : Bool) : Statement (.ld l d p o size sign) := by
  refine of_shape _ l _ rfl rfl ?_
  generalize h : packWord 0x28 [(d.val, 22), (p.val, 19), (o.val, 16), (size.toNat, 14), (sign.toNat, 13)] = w
  simp only [packWord_cons, packWord_nil] at h
  have hs : sign.toNat ≤ 1 := Bool.toNat_le sign
  have h0 : w / 2 ^ 26 = 0x28 := by omega
  have hd : w / 2 ^ 22 % 16 = d.val := by omega
  have hp : w / 2 ^ 19 % 8 = p.val := by omega
  have ho : w / 2 ^ 16 % 8 = o.val := by omega
  have hsize : BitVec.ofNat 2 (w / 2 ^ 14) = size := by
    apply BitVec.eq_of_toNat_eq; rw [BitVec.toNat_ofNat]; omega
  have hsign : (w / 2 ^ 13 % 2 == 1) = sign := by
    have e : w / 2 ^ 13 % 2 = sign.toNat := by omega
    rw [e]; cases sign <;> rfl
  simp only [serifShape, h0, fin16, fin8, hd, hp, ho, hsize, hsign]

/-- `st`. -/
theorem st (l : Fin 128) (a : Fin 16) (p : Fin 8) (o : Fin 8) (size : BitVec 2) : Statement (.st l a p o size) := by
  refine of_shape _ l _ rfl rfl ?_
  generalize h : packWord 0x29 [(a.val, 22), (p.val, 19), (o.val, 16), (size.toNat, 14)] = w
  simp only [packWord_cons, packWord_nil] at h
  have h0 : w / 2 ^ 26 = 0x29 := by omega
  have ha : w / 2 ^ 22 % 16 = a.val := by omega
  have hp : w / 2 ^ 19 % 8 = p.val := by omega
  have ho : w / 2 ^ 16 % 8 = o.val := by omega
  have hsize : BitVec.ofNat 2 (w / 2 ^ 14) = size := by
    apply BitVec.eq_of_toNat_eq; rw [BitVec.toNat_ofNat]; omega
  simp only [serifShape, h0, fin16, fin8, ha, hp, ho, hsize]

/-- `ldpt`. -/
theorem ldpt (l : Fin 128) (d : Fin 16) (p : Fin 8) (o : Fin 8) : Statement (.ldpt l d p o) := by
  refine of_shape _ l _ rfl rfl ?_
  generalize h : packWord 0x2A [(d.val, 22), (p.val, 19), (o.val, 16)] = w
  simp only [packWord_cons, packWord_nil] at h
  have h0 : w / 2 ^ 26 = 0x2A := by omega
  have hd : w / 2 ^ 22 % 16 = d.val := by omega
  have hp : w / 2 ^ 19 % 8 = p.val := by omega
  have ho : w / 2 ^ 16 % 8 = o.val := by omega
  simp only [serifShape, h0, fin16, fin8, hd, hp, ho]

/-- `inInsn`. -/
theorem inInsn (l : Fin 128) (d : Fin 16) : Statement (.inInsn l d) := by
  refine of_shape _ l _ rfl rfl ?_
  generalize h : packWord 0x2B [(d.val, 22)] = w
  simp only [packWord_cons, packWord_nil] at h
  have h0 : w / 2 ^ 26 = 0x2B := by omega
  have hd : w / 2 ^ 22 % 16 = d.val := by omega
  simp only [serifShape, h0, fin16, hd]

/-- `out`. -/
theorem out (l : Fin 128) (a : Fin 16) (size : BitVec 2) : Statement (.out l a size) := by
  refine of_shape _ l _ rfl rfl ?_
  generalize h : packWord 0x2C [(a.val, 22), (size.toNat, 14)] = w
  simp only [packWord_cons, packWord_nil] at h
  have h0 : w / 2 ^ 26 = 0x2C := by omega
  have ha : w / 2 ^ 22 % 16 = a.val := by omega
  have hsize : BitVec.ofNat 2 (w / 2 ^ 14) = size := by
    apply BitVec.eq_of_toNat_eq; rw [BitVec.toNat_ofNat]; omega
  simp only [serifShape, h0, fin16, ha, hsize]

/-- `feat`. -/
theorem feat (l : Fin 128) (k : Fin 8) (a : Fin 16) (b : Fin 16) (mode : BitVec 2) : Statement (.feat l k a b mode) := by
  refine of_shape _ l _ rfl rfl ?_
  generalize h : packWord 0x2D [(k.val, 11), (a.val, 22), (b.val, 18), (mode.toNat, 9)] = w
  simp only [packWord_cons, packWord_nil] at h
  have h0 : w / 2 ^ 26 = 0x2D := by omega
  have hk : w / 2 ^ 11 % 8 = k.val := by omega
  have ha : w / 2 ^ 22 % 16 = a.val := by omega
  have hb : w / 2 ^ 18 % 16 = b.val := by omega
  have hmode : BitVec.ofNat 2 (w / 2 ^ 9) = mode := by
    apply BitVec.eq_of_toNat_eq; rw [BitVec.toNat_ofNat]; omega
  simp only [serifShape, h0, fin8, fin16, hk, ha, hb, hmode]

/-- `clr`. -/
theorem clr (l : Fin 128) (j : Fin 4) : Statement (.clr l j) := by
  refine of_shape _ l _ rfl rfl ?_
  generalize h : packWord 0x30 [(j.val, 24)] = w
  simp only [packWord_cons, packWord_nil] at h
  have h0 : w / 2 ^ 26 = 0x30 := by omega
  have hj : w / 2 ^ 24 % 4 = j.val := by omega
  simp only [serifShape, h0, fin4, hj]

/-- `mac`. -/
theorem mac (l : Fin 128) (j : Fin 4) (a : Fin 16) (b : Fin 16) : Statement (.mac l j a b) := by
  refine of_shape _ l _ rfl rfl ?_
  generalize h : packWord 0x31 [(j.val, 24), (a.val, 18), (b.val, 14)] = w
  simp only [packWord_cons, packWord_nil] at h
  have h0 : w / 2 ^ 26 = 0x31 := by omega
  have hj : w / 2 ^ 24 % 4 = j.val := by omega
  have ha : w / 2 ^ 18 % 16 = a.val := by omega
  have hb : w / 2 ^ 14 % 16 = b.val := by omega
  simp only [serifShape, h0, fin4, fin16, hj, ha, hb]

/-- `msu`. -/
theorem msu (l : Fin 128) (j : Fin 4) (a : Fin 16) (b : Fin 16) : Statement (.msu l j a b) := by
  refine of_shape _ l _ rfl rfl ?_
  generalize h : packWord 0x32 [(j.val, 24), (a.val, 18), (b.val, 14)] = w
  simp only [packWord_cons, packWord_nil] at h
  have h0 : w / 2 ^ 26 = 0x32 := by omega
  have hj : w / 2 ^ 24 % 4 = j.val := by omega
  have ha : w / 2 ^ 18 % 16 = a.val := by omega
  have hb : w / 2 ^ 14 % 16 = b.val := by omega
  simp only [serifShape, h0, fin4, fin16, hj, ha, hb]

/-- `mac2`. -/
theorem mac2 (l : Fin 128) (pr : Fin 2) (a : Fin 16) (b : Fin 16) (a2 : Fin 16) (b2 : Fin 16) : Statement (.mac2 l pr a b a2 b2) := by
  refine of_shape _ l _ rfl rfl ?_
  generalize h : packWord 0x33 [(pr.val, 25), (a.val, 18), (b.val, 14), (a2.val, 10), (b2.val, 6)] = w
  simp only [packWord_cons, packWord_nil] at h
  have h0 : w / 2 ^ 26 = 0x33 := by omega
  have hpr : w / 2 ^ 25 % 2 = pr.val := by omega
  have ha : w / 2 ^ 18 % 16 = a.val := by omega
  have hb : w / 2 ^ 14 % 16 = b.val := by omega
  have ha2 : w / 2 ^ 10 % 16 = a2.val := by omega
  have hb2 : w / 2 ^ 6 % 16 = b2.val := by omega
  simp only [serifShape, h0, fin2, fin16, hpr, ha, hb, ha2, hb2]

/-- `macld`. -/
theorem macld (l : Fin 128) (j : Fin 4) (a : Fin 16) (b : Fin 16) (p : Fin 8) (o : Fin 8) (p2 : Fin 8) (o2 : Fin 8) : Statement (.macld l j a b p o p2 o2) := by
  refine of_shape _ l _ rfl rfl ?_
  generalize h : packWord 0x34 [(j.val, 24), (a.val, 20), (b.val, 16), (p.val, 13), (o.val, 10), (p2.val, 7), (o2.val, 4)] = w
  simp only [packWord_cons, packWord_nil] at h
  have h0 : w / 2 ^ 26 = 0x34 := by omega
  have hj : w / 2 ^ 24 % 4 = j.val := by omega
  have ha : w / 2 ^ 20 % 16 = a.val := by omega
  have hb : w / 2 ^ 16 % 16 = b.val := by omega
  have hp : w / 2 ^ 13 % 8 = p.val := by omega
  have ho : w / 2 ^ 10 % 8 = o.val := by omega
  have hp2 : w / 2 ^ 7 % 8 = p2.val := by omega
  have ho2 : w / 2 ^ 4 % 8 = o2.val := by omega
  simp only [serifShape, h0, fin4, fin16, fin8, hj, ha, hb, hp, ho, hp2, ho2]

/-- `ext`. -/
theorem ext (l : Fin 128) (d : Fin 16) (j : Fin 4) (sh : BitVec 6) : Statement (.ext l d j sh) := by
  refine of_shape _ l _ rfl rfl ?_
  generalize h : packWord 0x35 [(d.val, 22), (j.val, 20), (sh.toNat, 14)] = w
  simp only [packWord_cons, packWord_nil] at h
  have h0 : w / 2 ^ 26 = 0x35 := by omega
  have hd : w / 2 ^ 22 % 16 = d.val := by omega
  have hj : w / 2 ^ 20 % 4 = j.val := by omega
  have hsh : BitVec.ofNat 6 (w / 2 ^ 14) = sh := by
    apply BitVec.eq_of_toNat_eq; rw [BitVec.toNat_ofNat]; omega
  simp only [serifShape, h0, fin16, fin4, hd, hj, hsh]

/-- `lda`. -/
theorem lda (l : Fin 128) (j : Fin 4) (a : Fin 16) (sh : BitVec 5) : Statement (.lda l j a sh) := by
  refine of_shape _ l _ rfl rfl ?_
  generalize h : packWord 0x36 [(j.val, 24), (a.val, 18), (sh.toNat, 13)] = w
  simp only [packWord_cons, packWord_nil] at h
  have h0 : w / 2 ^ 26 = 0x36 := by omega
  have hj : w / 2 ^ 24 % 4 = j.val := by omega
  have ha : w / 2 ^ 18 % 16 = a.val := by omega
  have hsh : BitVec.ofNat 5 (w / 2 ^ 13) = sh := by
    apply BitVec.eq_of_toNat_eq; rw [BitVec.toNat_ofNat]; omega
  simp only [serifShape, h0, fin4, fin16, hj, ha, hsh]

/-- `adda`. -/
theorem adda (l : Fin 128) (j : Fin 4) (j2 : Fin 4) : Statement (.adda l j j2) := by
  refine of_shape _ l _ rfl rfl ?_
  generalize h : packWord 0x37 [(j.val, 24), (j2.val, 22)] = w
  simp only [packWord_cons, packWord_nil] at h
  have h0 : w / 2 ^ 26 = 0x37 := by omega
  have hj : w / 2 ^ 24 % 4 = j.val := by omega
  have hj2 : w / 2 ^ 22 % 4 = j2.val := by omega
  simp only [serifShape, h0, fin4, hj, hj2]

/-- `log2`. -/
theorem log2 (l : Fin 128) (d : Fin 16) (j : Fin 4) : Statement (.log2 l d j) := by
  refine of_shape _ l _ rfl rfl ?_
  generalize h : packWord 0x38 [(d.val, 22), (j.val, 20)] = w
  simp only [packWord_cons, packWord_nil] at h
  have h0 : w / 2 ^ 26 = 0x38 := by omega
  have hd : w / 2 ^ 22 % 16 = d.val := by omega
  have hj : w / 2 ^ 20 % 4 = j.val := by omega
  simp only [serifShape, h0, fin16, fin4, hd, hj]

/-- `launchSeen`. -/
theorem launchSeen (p : Fin 4) : Statement (.launchSeen p) := of_noLane _ rfl

/-- `blankInputChange`. -/
theorem blankInputChange (p : Fin 4) (level : Bool) : Statement (.blankInputChange p level) := of_noLane _ rfl

/-- `pairWatchdogExpiry`. -/
theorem pairWatchdogExpiry : Statement .pairWatchdogExpiry := of_noLane _ rfl

/-- `ilkNHeld`. -/
theorem ilkNHeld : Statement .ilkNHeld := of_noLane _ rfl

/-- `delayedReset`. -/
theorem delayedReset : Statement .delayedReset := of_noLane _ rfl

/-- `buttonStableRelease`. -/
theorem buttonStableRelease (button : Fin 2) : Statement (.buttonStableRelease button) := of_noLane _ rfl

end Serif

end Sys2Proof.Laws
end

