-- ==== Sys2Proof/Laws/State.lean ====
section
/-! SUPPORT. What each update of one part of State does to every field: the part it names changes as said, all other fields stay. Each
lemma holds by rfl and is a simp lemma, so that no proof unfolds a record update. -/

namespace Sys2Proof.Machine

/-! `onPower` changes `power` alone. -/
@[simp] theorem onPower_power (f s) : (onPower f s).power = f s.power := rfl
@[simp] theorem onPower_clocks (f s) : (onPower f s).clocks = s.clocks := rfl
@[simp] theorem onPower_straps (f s) : (onPower f s).straps = s.straps := rfl
@[simp] theorem onPower_pins (f s) : (onPower f s).pins = s.pins := rfl
@[simp] theorem onPower_mode (f s) : (onPower f s).mode = s.mode := rfl
@[simp] theorem onPower_banks (f s) : (onPower f s).banks = s.banks := rfl
@[simp] theorem onPower_params (f s) : (onPower f s).params = s.params := rfl
@[simp] theorem onPower_booted (f s) : (onPower f s).booted = s.booted := rfl
@[simp] theorem onPower_modeEntry (f s) : (onPower f s).modeEntry = s.modeEntry := rfl
@[simp] theorem onPower_scribe (f s) : (onPower f s).scribe = s.scribe := rfl
@[simp] theorem onPower_evq (f s) : (onPower f s).evq = s.evq := rfl
@[simp] theorem onPower_journal (f s) : (onPower f s).journal = s.journal := rfl
@[simp] theorem onPower_log (f s) : (onPower f s).log = s.log := rfl
@[simp] theorem onPower_firmware (f s) : (onPower f s).firmware = s.firmware := rfl
@[simp] theorem onPower_ports (f s) : (onPower f s).ports = s.ports := rfl
@[simp] theorem onPower_herder (f s) : (onPower f s).herder = s.herder := rfl
@[simp] theorem onPower_serif (f s) : (onPower f s).serif = s.serif := rfl
@[simp] theorem onPower_raman (f s) : (onPower f s).raman = s.raman := rfl
@[simp] theorem onPower_rtd (f s) : (onPower f s).rtd = s.rtd := rfl
@[simp] theorem onPower_hk (f s) : (onPower f s).hk = s.hk := rfl
@[simp] theorem onPower_pointer (f s) : (onPower f s).pointer = s.pointer := rfl
@[simp] theorem onPower_inkstone (f s) : (onPower f s).inkstone = s.inkstone := rfl
@[simp] theorem onPower_memory (f s) : (onPower f s).memory = s.memory := rfl
@[simp] theorem onPower_time (f s) : (onPower f s).time = s.time := rfl
@[simp] theorem onPower_links (f s) : (onPower f s).links = s.links := rfl
@[simp] theorem onPower_pair (f s) : (onPower f s).pair = s.pair := rfl
@[simp] theorem onPower_safety (f s) : (onPower f s).safety = s.safety := rfl
@[simp] theorem onPower_calib (f s) : (onPower f s).calib = s.calib := rfl
@[simp] theorem onPower_ticks (f s) : (onPower f s).ticks = s.ticks := rfl
@[simp] theorem onPower_free (f s) : (onPower f s).free = s.free := rfl
@[simp] theorem onPower_pending (f s) : (onPower f s).pending = s.pending := rfl

/-! `onClk` changes `clocks` alone. -/
@[simp] theorem onClk_power (f s) : (onClk f s).power = s.power := rfl
@[simp] theorem onClk_clocks (f s) : (onClk f s).clocks = f s.clocks := rfl
@[simp] theorem onClk_straps (f s) : (onClk f s).straps = s.straps := rfl
@[simp] theorem onClk_pins (f s) : (onClk f s).pins = s.pins := rfl
@[simp] theorem onClk_mode (f s) : (onClk f s).mode = s.mode := rfl
@[simp] theorem onClk_banks (f s) : (onClk f s).banks = s.banks := rfl
@[simp] theorem onClk_params (f s) : (onClk f s).params = s.params := rfl
@[simp] theorem onClk_booted (f s) : (onClk f s).booted = s.booted := rfl
@[simp] theorem onClk_modeEntry (f s) : (onClk f s).modeEntry = s.modeEntry := rfl
@[simp] theorem onClk_scribe (f s) : (onClk f s).scribe = s.scribe := rfl
@[simp] theorem onClk_evq (f s) : (onClk f s).evq = s.evq := rfl
@[simp] theorem onClk_journal (f s) : (onClk f s).journal = s.journal := rfl
@[simp] theorem onClk_log (f s) : (onClk f s).log = s.log := rfl
@[simp] theorem onClk_firmware (f s) : (onClk f s).firmware = s.firmware := rfl
@[simp] theorem onClk_ports (f s) : (onClk f s).ports = s.ports := rfl
@[simp] theorem onClk_herder (f s) : (onClk f s).herder = s.herder := rfl
@[simp] theorem onClk_serif (f s) : (onClk f s).serif = s.serif := rfl
@[simp] theorem onClk_raman (f s) : (onClk f s).raman = s.raman := rfl
@[simp] theorem onClk_rtd (f s) : (onClk f s).rtd = s.rtd := rfl
@[simp] theorem onClk_hk (f s) : (onClk f s).hk = s.hk := rfl
@[simp] theorem onClk_pointer (f s) : (onClk f s).pointer = s.pointer := rfl
@[simp] theorem onClk_inkstone (f s) : (onClk f s).inkstone = s.inkstone := rfl
@[simp] theorem onClk_memory (f s) : (onClk f s).memory = s.memory := rfl
@[simp] theorem onClk_time (f s) : (onClk f s).time = s.time := rfl
@[simp] theorem onClk_links (f s) : (onClk f s).links = s.links := rfl
@[simp] theorem onClk_pair (f s) : (onClk f s).pair = s.pair := rfl
@[simp] theorem onClk_safety (f s) : (onClk f s).safety = s.safety := rfl
@[simp] theorem onClk_calib (f s) : (onClk f s).calib = s.calib := rfl
@[simp] theorem onClk_ticks (f s) : (onClk f s).ticks = s.ticks := rfl
@[simp] theorem onClk_free (f s) : (onClk f s).free = s.free := rfl
@[simp] theorem onClk_pending (f s) : (onClk f s).pending = s.pending := rfl

/-! `onPins` changes `pins` alone. -/
@[simp] theorem onPins_power (f s) : (onPins f s).power = s.power := rfl
@[simp] theorem onPins_clocks (f s) : (onPins f s).clocks = s.clocks := rfl
@[simp] theorem onPins_straps (f s) : (onPins f s).straps = s.straps := rfl
@[simp] theorem onPins_pins (f s) : (onPins f s).pins = f s.pins := rfl
@[simp] theorem onPins_mode (f s) : (onPins f s).mode = s.mode := rfl
@[simp] theorem onPins_banks (f s) : (onPins f s).banks = s.banks := rfl
@[simp] theorem onPins_params (f s) : (onPins f s).params = s.params := rfl
@[simp] theorem onPins_booted (f s) : (onPins f s).booted = s.booted := rfl
@[simp] theorem onPins_modeEntry (f s) : (onPins f s).modeEntry = s.modeEntry := rfl
@[simp] theorem onPins_scribe (f s) : (onPins f s).scribe = s.scribe := rfl
@[simp] theorem onPins_evq (f s) : (onPins f s).evq = s.evq := rfl
@[simp] theorem onPins_journal (f s) : (onPins f s).journal = s.journal := rfl
@[simp] theorem onPins_log (f s) : (onPins f s).log = s.log := rfl
@[simp] theorem onPins_firmware (f s) : (onPins f s).firmware = s.firmware := rfl
@[simp] theorem onPins_ports (f s) : (onPins f s).ports = s.ports := rfl
@[simp] theorem onPins_herder (f s) : (onPins f s).herder = s.herder := rfl
@[simp] theorem onPins_serif (f s) : (onPins f s).serif = s.serif := rfl
@[simp] theorem onPins_raman (f s) : (onPins f s).raman = s.raman := rfl
@[simp] theorem onPins_rtd (f s) : (onPins f s).rtd = s.rtd := rfl
@[simp] theorem onPins_hk (f s) : (onPins f s).hk = s.hk := rfl
@[simp] theorem onPins_pointer (f s) : (onPins f s).pointer = s.pointer := rfl
@[simp] theorem onPins_inkstone (f s) : (onPins f s).inkstone = s.inkstone := rfl
@[simp] theorem onPins_memory (f s) : (onPins f s).memory = s.memory := rfl
@[simp] theorem onPins_time (f s) : (onPins f s).time = s.time := rfl
@[simp] theorem onPins_links (f s) : (onPins f s).links = s.links := rfl
@[simp] theorem onPins_pair (f s) : (onPins f s).pair = s.pair := rfl
@[simp] theorem onPins_safety (f s) : (onPins f s).safety = s.safety := rfl
@[simp] theorem onPins_calib (f s) : (onPins f s).calib = s.calib := rfl
@[simp] theorem onPins_ticks (f s) : (onPins f s).ticks = s.ticks := rfl
@[simp] theorem onPins_free (f s) : (onPins f s).free = s.free := rfl
@[simp] theorem onPins_pending (f s) : (onPins f s).pending = s.pending := rfl

/-! `onMode` changes `mode` alone. -/
@[simp] theorem onMode_power (f s) : (onMode f s).power = s.power := rfl
@[simp] theorem onMode_clocks (f s) : (onMode f s).clocks = s.clocks := rfl
@[simp] theorem onMode_straps (f s) : (onMode f s).straps = s.straps := rfl
@[simp] theorem onMode_pins (f s) : (onMode f s).pins = s.pins := rfl
@[simp] theorem onMode_mode (f s) : (onMode f s).mode = f s.mode := rfl
@[simp] theorem onMode_banks (f s) : (onMode f s).banks = s.banks := rfl
@[simp] theorem onMode_params (f s) : (onMode f s).params = s.params := rfl
@[simp] theorem onMode_booted (f s) : (onMode f s).booted = s.booted := rfl
@[simp] theorem onMode_modeEntry (f s) : (onMode f s).modeEntry = s.modeEntry := rfl
@[simp] theorem onMode_scribe (f s) : (onMode f s).scribe = s.scribe := rfl
@[simp] theorem onMode_evq (f s) : (onMode f s).evq = s.evq := rfl
@[simp] theorem onMode_journal (f s) : (onMode f s).journal = s.journal := rfl
@[simp] theorem onMode_log (f s) : (onMode f s).log = s.log := rfl
@[simp] theorem onMode_firmware (f s) : (onMode f s).firmware = s.firmware := rfl
@[simp] theorem onMode_ports (f s) : (onMode f s).ports = s.ports := rfl
@[simp] theorem onMode_herder (f s) : (onMode f s).herder = s.herder := rfl
@[simp] theorem onMode_serif (f s) : (onMode f s).serif = s.serif := rfl
@[simp] theorem onMode_raman (f s) : (onMode f s).raman = s.raman := rfl
@[simp] theorem onMode_rtd (f s) : (onMode f s).rtd = s.rtd := rfl
@[simp] theorem onMode_hk (f s) : (onMode f s).hk = s.hk := rfl
@[simp] theorem onMode_pointer (f s) : (onMode f s).pointer = s.pointer := rfl
@[simp] theorem onMode_inkstone (f s) : (onMode f s).inkstone = s.inkstone := rfl
@[simp] theorem onMode_memory (f s) : (onMode f s).memory = s.memory := rfl
@[simp] theorem onMode_time (f s) : (onMode f s).time = s.time := rfl
@[simp] theorem onMode_links (f s) : (onMode f s).links = s.links := rfl
@[simp] theorem onMode_pair (f s) : (onMode f s).pair = s.pair := rfl
@[simp] theorem onMode_safety (f s) : (onMode f s).safety = s.safety := rfl
@[simp] theorem onMode_calib (f s) : (onMode f s).calib = s.calib := rfl
@[simp] theorem onMode_ticks (f s) : (onMode f s).ticks = s.ticks := rfl
@[simp] theorem onMode_free (f s) : (onMode f s).free = s.free := rfl
@[simp] theorem onMode_pending (f s) : (onMode f s).pending = s.pending := rfl

/-! `onBanks` changes `banks` alone. -/
@[simp] theorem onBanks_power (f s) : (onBanks f s).power = s.power := rfl
@[simp] theorem onBanks_clocks (f s) : (onBanks f s).clocks = s.clocks := rfl
@[simp] theorem onBanks_straps (f s) : (onBanks f s).straps = s.straps := rfl
@[simp] theorem onBanks_pins (f s) : (onBanks f s).pins = s.pins := rfl
@[simp] theorem onBanks_mode (f s) : (onBanks f s).mode = s.mode := rfl
@[simp] theorem onBanks_banks (f s) : (onBanks f s).banks = f s.banks := rfl
@[simp] theorem onBanks_params (f s) : (onBanks f s).params = s.params := rfl
@[simp] theorem onBanks_booted (f s) : (onBanks f s).booted = s.booted := rfl
@[simp] theorem onBanks_modeEntry (f s) : (onBanks f s).modeEntry = s.modeEntry := rfl
@[simp] theorem onBanks_scribe (f s) : (onBanks f s).scribe = s.scribe := rfl
@[simp] theorem onBanks_evq (f s) : (onBanks f s).evq = s.evq := rfl
@[simp] theorem onBanks_journal (f s) : (onBanks f s).journal = s.journal := rfl
@[simp] theorem onBanks_log (f s) : (onBanks f s).log = s.log := rfl
@[simp] theorem onBanks_firmware (f s) : (onBanks f s).firmware = s.firmware := rfl
@[simp] theorem onBanks_ports (f s) : (onBanks f s).ports = s.ports := rfl
@[simp] theorem onBanks_herder (f s) : (onBanks f s).herder = s.herder := rfl
@[simp] theorem onBanks_serif (f s) : (onBanks f s).serif = s.serif := rfl
@[simp] theorem onBanks_raman (f s) : (onBanks f s).raman = s.raman := rfl
@[simp] theorem onBanks_rtd (f s) : (onBanks f s).rtd = s.rtd := rfl
@[simp] theorem onBanks_hk (f s) : (onBanks f s).hk = s.hk := rfl
@[simp] theorem onBanks_pointer (f s) : (onBanks f s).pointer = s.pointer := rfl
@[simp] theorem onBanks_inkstone (f s) : (onBanks f s).inkstone = s.inkstone := rfl
@[simp] theorem onBanks_memory (f s) : (onBanks f s).memory = s.memory := rfl
@[simp] theorem onBanks_time (f s) : (onBanks f s).time = s.time := rfl
@[simp] theorem onBanks_links (f s) : (onBanks f s).links = s.links := rfl
@[simp] theorem onBanks_pair (f s) : (onBanks f s).pair = s.pair := rfl
@[simp] theorem onBanks_safety (f s) : (onBanks f s).safety = s.safety := rfl
@[simp] theorem onBanks_calib (f s) : (onBanks f s).calib = s.calib := rfl
@[simp] theorem onBanks_ticks (f s) : (onBanks f s).ticks = s.ticks := rfl
@[simp] theorem onBanks_free (f s) : (onBanks f s).free = s.free := rfl
@[simp] theorem onBanks_pending (f s) : (onBanks f s).pending = s.pending := rfl

/-! `onFw` changes `firmware` alone. -/
@[simp] theorem onFw_power (f s) : (onFw f s).power = s.power := rfl
@[simp] theorem onFw_clocks (f s) : (onFw f s).clocks = s.clocks := rfl
@[simp] theorem onFw_straps (f s) : (onFw f s).straps = s.straps := rfl
@[simp] theorem onFw_pins (f s) : (onFw f s).pins = s.pins := rfl
@[simp] theorem onFw_mode (f s) : (onFw f s).mode = s.mode := rfl
@[simp] theorem onFw_banks (f s) : (onFw f s).banks = s.banks := rfl
@[simp] theorem onFw_params (f s) : (onFw f s).params = s.params := rfl
@[simp] theorem onFw_booted (f s) : (onFw f s).booted = s.booted := rfl
@[simp] theorem onFw_modeEntry (f s) : (onFw f s).modeEntry = s.modeEntry := rfl
@[simp] theorem onFw_scribe (f s) : (onFw f s).scribe = s.scribe := rfl
@[simp] theorem onFw_evq (f s) : (onFw f s).evq = s.evq := rfl
@[simp] theorem onFw_journal (f s) : (onFw f s).journal = s.journal := rfl
@[simp] theorem onFw_log (f s) : (onFw f s).log = s.log := rfl
@[simp] theorem onFw_firmware (f s) : (onFw f s).firmware = f s.firmware := rfl
@[simp] theorem onFw_ports (f s) : (onFw f s).ports = s.ports := rfl
@[simp] theorem onFw_herder (f s) : (onFw f s).herder = s.herder := rfl
@[simp] theorem onFw_serif (f s) : (onFw f s).serif = s.serif := rfl
@[simp] theorem onFw_raman (f s) : (onFw f s).raman = s.raman := rfl
@[simp] theorem onFw_rtd (f s) : (onFw f s).rtd = s.rtd := rfl
@[simp] theorem onFw_hk (f s) : (onFw f s).hk = s.hk := rfl
@[simp] theorem onFw_pointer (f s) : (onFw f s).pointer = s.pointer := rfl
@[simp] theorem onFw_inkstone (f s) : (onFw f s).inkstone = s.inkstone := rfl
@[simp] theorem onFw_memory (f s) : (onFw f s).memory = s.memory := rfl
@[simp] theorem onFw_time (f s) : (onFw f s).time = s.time := rfl
@[simp] theorem onFw_links (f s) : (onFw f s).links = s.links := rfl
@[simp] theorem onFw_pair (f s) : (onFw f s).pair = s.pair := rfl
@[simp] theorem onFw_safety (f s) : (onFw f s).safety = s.safety := rfl
@[simp] theorem onFw_calib (f s) : (onFw f s).calib = s.calib := rfl
@[simp] theorem onFw_ticks (f s) : (onFw f s).ticks = s.ticks := rfl
@[simp] theorem onFw_free (f s) : (onFw f s).free = s.free := rfl
@[simp] theorem onFw_pending (f s) : (onFw f s).pending = s.pending := rfl

/-! `onSerif` changes `serif` alone. -/
@[simp] theorem onSerif_power (f s) : (onSerif f s).power = s.power := rfl
@[simp] theorem onSerif_clocks (f s) : (onSerif f s).clocks = s.clocks := rfl
@[simp] theorem onSerif_straps (f s) : (onSerif f s).straps = s.straps := rfl
@[simp] theorem onSerif_pins (f s) : (onSerif f s).pins = s.pins := rfl
@[simp] theorem onSerif_mode (f s) : (onSerif f s).mode = s.mode := rfl
@[simp] theorem onSerif_banks (f s) : (onSerif f s).banks = s.banks := rfl
@[simp] theorem onSerif_params (f s) : (onSerif f s).params = s.params := rfl
@[simp] theorem onSerif_booted (f s) : (onSerif f s).booted = s.booted := rfl
@[simp] theorem onSerif_modeEntry (f s) : (onSerif f s).modeEntry = s.modeEntry := rfl
@[simp] theorem onSerif_scribe (f s) : (onSerif f s).scribe = s.scribe := rfl
@[simp] theorem onSerif_evq (f s) : (onSerif f s).evq = s.evq := rfl
@[simp] theorem onSerif_journal (f s) : (onSerif f s).journal = s.journal := rfl
@[simp] theorem onSerif_log (f s) : (onSerif f s).log = s.log := rfl
@[simp] theorem onSerif_firmware (f s) : (onSerif f s).firmware = s.firmware := rfl
@[simp] theorem onSerif_ports (f s) : (onSerif f s).ports = s.ports := rfl
@[simp] theorem onSerif_herder (f s) : (onSerif f s).herder = s.herder := rfl
@[simp] theorem onSerif_serif (f s) : (onSerif f s).serif = f s.serif := rfl
@[simp] theorem onSerif_raman (f s) : (onSerif f s).raman = s.raman := rfl
@[simp] theorem onSerif_rtd (f s) : (onSerif f s).rtd = s.rtd := rfl
@[simp] theorem onSerif_hk (f s) : (onSerif f s).hk = s.hk := rfl
@[simp] theorem onSerif_pointer (f s) : (onSerif f s).pointer = s.pointer := rfl
@[simp] theorem onSerif_inkstone (f s) : (onSerif f s).inkstone = s.inkstone := rfl
@[simp] theorem onSerif_memory (f s) : (onSerif f s).memory = s.memory := rfl
@[simp] theorem onSerif_time (f s) : (onSerif f s).time = s.time := rfl
@[simp] theorem onSerif_links (f s) : (onSerif f s).links = s.links := rfl
@[simp] theorem onSerif_pair (f s) : (onSerif f s).pair = s.pair := rfl
@[simp] theorem onSerif_safety (f s) : (onSerif f s).safety = s.safety := rfl
@[simp] theorem onSerif_calib (f s) : (onSerif f s).calib = s.calib := rfl
@[simp] theorem onSerif_ticks (f s) : (onSerif f s).ticks = s.ticks := rfl
@[simp] theorem onSerif_free (f s) : (onSerif f s).free = s.free := rfl
@[simp] theorem onSerif_pending (f s) : (onSerif f s).pending = s.pending := rfl

/-! `onPtr` changes `pointer` alone. -/
@[simp] theorem onPtr_power (f s) : (onPtr f s).power = s.power := rfl
@[simp] theorem onPtr_clocks (f s) : (onPtr f s).clocks = s.clocks := rfl
@[simp] theorem onPtr_straps (f s) : (onPtr f s).straps = s.straps := rfl
@[simp] theorem onPtr_pins (f s) : (onPtr f s).pins = s.pins := rfl
@[simp] theorem onPtr_mode (f s) : (onPtr f s).mode = s.mode := rfl
@[simp] theorem onPtr_banks (f s) : (onPtr f s).banks = s.banks := rfl
@[simp] theorem onPtr_params (f s) : (onPtr f s).params = s.params := rfl
@[simp] theorem onPtr_booted (f s) : (onPtr f s).booted = s.booted := rfl
@[simp] theorem onPtr_modeEntry (f s) : (onPtr f s).modeEntry = s.modeEntry := rfl
@[simp] theorem onPtr_scribe (f s) : (onPtr f s).scribe = s.scribe := rfl
@[simp] theorem onPtr_evq (f s) : (onPtr f s).evq = s.evq := rfl
@[simp] theorem onPtr_journal (f s) : (onPtr f s).journal = s.journal := rfl
@[simp] theorem onPtr_log (f s) : (onPtr f s).log = s.log := rfl
@[simp] theorem onPtr_firmware (f s) : (onPtr f s).firmware = s.firmware := rfl
@[simp] theorem onPtr_ports (f s) : (onPtr f s).ports = s.ports := rfl
@[simp] theorem onPtr_herder (f s) : (onPtr f s).herder = s.herder := rfl
@[simp] theorem onPtr_serif (f s) : (onPtr f s).serif = s.serif := rfl
@[simp] theorem onPtr_raman (f s) : (onPtr f s).raman = s.raman := rfl
@[simp] theorem onPtr_rtd (f s) : (onPtr f s).rtd = s.rtd := rfl
@[simp] theorem onPtr_hk (f s) : (onPtr f s).hk = s.hk := rfl
@[simp] theorem onPtr_pointer (f s) : (onPtr f s).pointer = f s.pointer := rfl
@[simp] theorem onPtr_inkstone (f s) : (onPtr f s).inkstone = s.inkstone := rfl
@[simp] theorem onPtr_memory (f s) : (onPtr f s).memory = s.memory := rfl
@[simp] theorem onPtr_time (f s) : (onPtr f s).time = s.time := rfl
@[simp] theorem onPtr_links (f s) : (onPtr f s).links = s.links := rfl
@[simp] theorem onPtr_pair (f s) : (onPtr f s).pair = s.pair := rfl
@[simp] theorem onPtr_safety (f s) : (onPtr f s).safety = s.safety := rfl
@[simp] theorem onPtr_calib (f s) : (onPtr f s).calib = s.calib := rfl
@[simp] theorem onPtr_ticks (f s) : (onPtr f s).ticks = s.ticks := rfl
@[simp] theorem onPtr_free (f s) : (onPtr f s).free = s.free := rfl
@[simp] theorem onPtr_pending (f s) : (onPtr f s).pending = s.pending := rfl

/-! `onInk` changes `inkstone` alone. -/
@[simp] theorem onInk_power (f s) : (onInk f s).power = s.power := rfl
@[simp] theorem onInk_clocks (f s) : (onInk f s).clocks = s.clocks := rfl
@[simp] theorem onInk_straps (f s) : (onInk f s).straps = s.straps := rfl
@[simp] theorem onInk_pins (f s) : (onInk f s).pins = s.pins := rfl
@[simp] theorem onInk_mode (f s) : (onInk f s).mode = s.mode := rfl
@[simp] theorem onInk_banks (f s) : (onInk f s).banks = s.banks := rfl
@[simp] theorem onInk_params (f s) : (onInk f s).params = s.params := rfl
@[simp] theorem onInk_booted (f s) : (onInk f s).booted = s.booted := rfl
@[simp] theorem onInk_modeEntry (f s) : (onInk f s).modeEntry = s.modeEntry := rfl
@[simp] theorem onInk_scribe (f s) : (onInk f s).scribe = s.scribe := rfl
@[simp] theorem onInk_evq (f s) : (onInk f s).evq = s.evq := rfl
@[simp] theorem onInk_journal (f s) : (onInk f s).journal = s.journal := rfl
@[simp] theorem onInk_log (f s) : (onInk f s).log = s.log := rfl
@[simp] theorem onInk_firmware (f s) : (onInk f s).firmware = s.firmware := rfl
@[simp] theorem onInk_ports (f s) : (onInk f s).ports = s.ports := rfl
@[simp] theorem onInk_herder (f s) : (onInk f s).herder = s.herder := rfl
@[simp] theorem onInk_serif (f s) : (onInk f s).serif = s.serif := rfl
@[simp] theorem onInk_raman (f s) : (onInk f s).raman = s.raman := rfl
@[simp] theorem onInk_rtd (f s) : (onInk f s).rtd = s.rtd := rfl
@[simp] theorem onInk_hk (f s) : (onInk f s).hk = s.hk := rfl
@[simp] theorem onInk_pointer (f s) : (onInk f s).pointer = s.pointer := rfl
@[simp] theorem onInk_inkstone (f s) : (onInk f s).inkstone = f s.inkstone := rfl
@[simp] theorem onInk_memory (f s) : (onInk f s).memory = s.memory := rfl
@[simp] theorem onInk_time (f s) : (onInk f s).time = s.time := rfl
@[simp] theorem onInk_links (f s) : (onInk f s).links = s.links := rfl
@[simp] theorem onInk_pair (f s) : (onInk f s).pair = s.pair := rfl
@[simp] theorem onInk_safety (f s) : (onInk f s).safety = s.safety := rfl
@[simp] theorem onInk_calib (f s) : (onInk f s).calib = s.calib := rfl
@[simp] theorem onInk_ticks (f s) : (onInk f s).ticks = s.ticks := rfl
@[simp] theorem onInk_free (f s) : (onInk f s).free = s.free := rfl
@[simp] theorem onInk_pending (f s) : (onInk f s).pending = s.pending := rfl

/-! `onMem` changes `memory` alone. -/
@[simp] theorem onMem_power (f s) : (onMem f s).power = s.power := rfl
@[simp] theorem onMem_clocks (f s) : (onMem f s).clocks = s.clocks := rfl
@[simp] theorem onMem_straps (f s) : (onMem f s).straps = s.straps := rfl
@[simp] theorem onMem_pins (f s) : (onMem f s).pins = s.pins := rfl
@[simp] theorem onMem_mode (f s) : (onMem f s).mode = s.mode := rfl
@[simp] theorem onMem_banks (f s) : (onMem f s).banks = s.banks := rfl
@[simp] theorem onMem_params (f s) : (onMem f s).params = s.params := rfl
@[simp] theorem onMem_booted (f s) : (onMem f s).booted = s.booted := rfl
@[simp] theorem onMem_modeEntry (f s) : (onMem f s).modeEntry = s.modeEntry := rfl
@[simp] theorem onMem_scribe (f s) : (onMem f s).scribe = s.scribe := rfl
@[simp] theorem onMem_evq (f s) : (onMem f s).evq = s.evq := rfl
@[simp] theorem onMem_journal (f s) : (onMem f s).journal = s.journal := rfl
@[simp] theorem onMem_log (f s) : (onMem f s).log = s.log := rfl
@[simp] theorem onMem_firmware (f s) : (onMem f s).firmware = s.firmware := rfl
@[simp] theorem onMem_ports (f s) : (onMem f s).ports = s.ports := rfl
@[simp] theorem onMem_herder (f s) : (onMem f s).herder = s.herder := rfl
@[simp] theorem onMem_serif (f s) : (onMem f s).serif = s.serif := rfl
@[simp] theorem onMem_raman (f s) : (onMem f s).raman = s.raman := rfl
@[simp] theorem onMem_rtd (f s) : (onMem f s).rtd = s.rtd := rfl
@[simp] theorem onMem_hk (f s) : (onMem f s).hk = s.hk := rfl
@[simp] theorem onMem_pointer (f s) : (onMem f s).pointer = s.pointer := rfl
@[simp] theorem onMem_inkstone (f s) : (onMem f s).inkstone = s.inkstone := rfl
@[simp] theorem onMem_memory (f s) : (onMem f s).memory = f s.memory := rfl
@[simp] theorem onMem_time (f s) : (onMem f s).time = s.time := rfl
@[simp] theorem onMem_links (f s) : (onMem f s).links = s.links := rfl
@[simp] theorem onMem_pair (f s) : (onMem f s).pair = s.pair := rfl
@[simp] theorem onMem_safety (f s) : (onMem f s).safety = s.safety := rfl
@[simp] theorem onMem_calib (f s) : (onMem f s).calib = s.calib := rfl
@[simp] theorem onMem_ticks (f s) : (onMem f s).ticks = s.ticks := rfl
@[simp] theorem onMem_free (f s) : (onMem f s).free = s.free := rfl
@[simp] theorem onMem_pending (f s) : (onMem f s).pending = s.pending := rfl

/-! `onTime` changes `time` alone. -/
@[simp] theorem onTime_power (f s) : (onTime f s).power = s.power := rfl
@[simp] theorem onTime_clocks (f s) : (onTime f s).clocks = s.clocks := rfl
@[simp] theorem onTime_straps (f s) : (onTime f s).straps = s.straps := rfl
@[simp] theorem onTime_pins (f s) : (onTime f s).pins = s.pins := rfl
@[simp] theorem onTime_mode (f s) : (onTime f s).mode = s.mode := rfl
@[simp] theorem onTime_banks (f s) : (onTime f s).banks = s.banks := rfl
@[simp] theorem onTime_params (f s) : (onTime f s).params = s.params := rfl
@[simp] theorem onTime_booted (f s) : (onTime f s).booted = s.booted := rfl
@[simp] theorem onTime_modeEntry (f s) : (onTime f s).modeEntry = s.modeEntry := rfl
@[simp] theorem onTime_scribe (f s) : (onTime f s).scribe = s.scribe := rfl
@[simp] theorem onTime_evq (f s) : (onTime f s).evq = s.evq := rfl
@[simp] theorem onTime_journal (f s) : (onTime f s).journal = s.journal := rfl
@[simp] theorem onTime_log (f s) : (onTime f s).log = s.log := rfl
@[simp] theorem onTime_firmware (f s) : (onTime f s).firmware = s.firmware := rfl
@[simp] theorem onTime_ports (f s) : (onTime f s).ports = s.ports := rfl
@[simp] theorem onTime_herder (f s) : (onTime f s).herder = s.herder := rfl
@[simp] theorem onTime_serif (f s) : (onTime f s).serif = s.serif := rfl
@[simp] theorem onTime_raman (f s) : (onTime f s).raman = s.raman := rfl
@[simp] theorem onTime_rtd (f s) : (onTime f s).rtd = s.rtd := rfl
@[simp] theorem onTime_hk (f s) : (onTime f s).hk = s.hk := rfl
@[simp] theorem onTime_pointer (f s) : (onTime f s).pointer = s.pointer := rfl
@[simp] theorem onTime_inkstone (f s) : (onTime f s).inkstone = s.inkstone := rfl
@[simp] theorem onTime_memory (f s) : (onTime f s).memory = s.memory := rfl
@[simp] theorem onTime_time (f s) : (onTime f s).time = f s.time := rfl
@[simp] theorem onTime_links (f s) : (onTime f s).links = s.links := rfl
@[simp] theorem onTime_pair (f s) : (onTime f s).pair = s.pair := rfl
@[simp] theorem onTime_safety (f s) : (onTime f s).safety = s.safety := rfl
@[simp] theorem onTime_calib (f s) : (onTime f s).calib = s.calib := rfl
@[simp] theorem onTime_ticks (f s) : (onTime f s).ticks = s.ticks := rfl
@[simp] theorem onTime_free (f s) : (onTime f s).free = s.free := rfl
@[simp] theorem onTime_pending (f s) : (onTime f s).pending = s.pending := rfl

/-! `onLinks` changes `links` alone. -/
@[simp] theorem onLinks_power (f s) : (onLinks f s).power = s.power := rfl
@[simp] theorem onLinks_clocks (f s) : (onLinks f s).clocks = s.clocks := rfl
@[simp] theorem onLinks_straps (f s) : (onLinks f s).straps = s.straps := rfl
@[simp] theorem onLinks_pins (f s) : (onLinks f s).pins = s.pins := rfl
@[simp] theorem onLinks_mode (f s) : (onLinks f s).mode = s.mode := rfl
@[simp] theorem onLinks_banks (f s) : (onLinks f s).banks = s.banks := rfl
@[simp] theorem onLinks_params (f s) : (onLinks f s).params = s.params := rfl
@[simp] theorem onLinks_booted (f s) : (onLinks f s).booted = s.booted := rfl
@[simp] theorem onLinks_modeEntry (f s) : (onLinks f s).modeEntry = s.modeEntry := rfl
@[simp] theorem onLinks_scribe (f s) : (onLinks f s).scribe = s.scribe := rfl
@[simp] theorem onLinks_evq (f s) : (onLinks f s).evq = s.evq := rfl
@[simp] theorem onLinks_journal (f s) : (onLinks f s).journal = s.journal := rfl
@[simp] theorem onLinks_log (f s) : (onLinks f s).log = s.log := rfl
@[simp] theorem onLinks_firmware (f s) : (onLinks f s).firmware = s.firmware := rfl
@[simp] theorem onLinks_ports (f s) : (onLinks f s).ports = s.ports := rfl
@[simp] theorem onLinks_herder (f s) : (onLinks f s).herder = s.herder := rfl
@[simp] theorem onLinks_serif (f s) : (onLinks f s).serif = s.serif := rfl
@[simp] theorem onLinks_raman (f s) : (onLinks f s).raman = s.raman := rfl
@[simp] theorem onLinks_rtd (f s) : (onLinks f s).rtd = s.rtd := rfl
@[simp] theorem onLinks_hk (f s) : (onLinks f s).hk = s.hk := rfl
@[simp] theorem onLinks_pointer (f s) : (onLinks f s).pointer = s.pointer := rfl
@[simp] theorem onLinks_inkstone (f s) : (onLinks f s).inkstone = s.inkstone := rfl
@[simp] theorem onLinks_memory (f s) : (onLinks f s).memory = s.memory := rfl
@[simp] theorem onLinks_time (f s) : (onLinks f s).time = s.time := rfl
@[simp] theorem onLinks_links (f s) : (onLinks f s).links = f s.links := rfl
@[simp] theorem onLinks_pair (f s) : (onLinks f s).pair = s.pair := rfl
@[simp] theorem onLinks_safety (f s) : (onLinks f s).safety = s.safety := rfl
@[simp] theorem onLinks_calib (f s) : (onLinks f s).calib = s.calib := rfl
@[simp] theorem onLinks_ticks (f s) : (onLinks f s).ticks = s.ticks := rfl
@[simp] theorem onLinks_free (f s) : (onLinks f s).free = s.free := rfl
@[simp] theorem onLinks_pending (f s) : (onLinks f s).pending = s.pending := rfl

/-! `onPair` changes `pair` alone. -/
@[simp] theorem onPair_power (f s) : (onPair f s).power = s.power := rfl
@[simp] theorem onPair_clocks (f s) : (onPair f s).clocks = s.clocks := rfl
@[simp] theorem onPair_straps (f s) : (onPair f s).straps = s.straps := rfl
@[simp] theorem onPair_pins (f s) : (onPair f s).pins = s.pins := rfl
@[simp] theorem onPair_mode (f s) : (onPair f s).mode = s.mode := rfl
@[simp] theorem onPair_banks (f s) : (onPair f s).banks = s.banks := rfl
@[simp] theorem onPair_params (f s) : (onPair f s).params = s.params := rfl
@[simp] theorem onPair_booted (f s) : (onPair f s).booted = s.booted := rfl
@[simp] theorem onPair_modeEntry (f s) : (onPair f s).modeEntry = s.modeEntry := rfl
@[simp] theorem onPair_scribe (f s) : (onPair f s).scribe = s.scribe := rfl
@[simp] theorem onPair_evq (f s) : (onPair f s).evq = s.evq := rfl
@[simp] theorem onPair_journal (f s) : (onPair f s).journal = s.journal := rfl
@[simp] theorem onPair_log (f s) : (onPair f s).log = s.log := rfl
@[simp] theorem onPair_firmware (f s) : (onPair f s).firmware = s.firmware := rfl
@[simp] theorem onPair_ports (f s) : (onPair f s).ports = s.ports := rfl
@[simp] theorem onPair_herder (f s) : (onPair f s).herder = s.herder := rfl
@[simp] theorem onPair_serif (f s) : (onPair f s).serif = s.serif := rfl
@[simp] theorem onPair_raman (f s) : (onPair f s).raman = s.raman := rfl
@[simp] theorem onPair_rtd (f s) : (onPair f s).rtd = s.rtd := rfl
@[simp] theorem onPair_hk (f s) : (onPair f s).hk = s.hk := rfl
@[simp] theorem onPair_pointer (f s) : (onPair f s).pointer = s.pointer := rfl
@[simp] theorem onPair_inkstone (f s) : (onPair f s).inkstone = s.inkstone := rfl
@[simp] theorem onPair_memory (f s) : (onPair f s).memory = s.memory := rfl
@[simp] theorem onPair_time (f s) : (onPair f s).time = s.time := rfl
@[simp] theorem onPair_links (f s) : (onPair f s).links = s.links := rfl
@[simp] theorem onPair_pair (f s) : (onPair f s).pair = f s.pair := rfl
@[simp] theorem onPair_safety (f s) : (onPair f s).safety = s.safety := rfl
@[simp] theorem onPair_calib (f s) : (onPair f s).calib = s.calib := rfl
@[simp] theorem onPair_ticks (f s) : (onPair f s).ticks = s.ticks := rfl
@[simp] theorem onPair_free (f s) : (onPair f s).free = s.free := rfl
@[simp] theorem onPair_pending (f s) : (onPair f s).pending = s.pending := rfl

/-! `onSafety` changes `safety` alone. -/
@[simp] theorem onSafety_power (f s) : (onSafety f s).power = s.power := rfl
@[simp] theorem onSafety_clocks (f s) : (onSafety f s).clocks = s.clocks := rfl
@[simp] theorem onSafety_straps (f s) : (onSafety f s).straps = s.straps := rfl
@[simp] theorem onSafety_pins (f s) : (onSafety f s).pins = s.pins := rfl
@[simp] theorem onSafety_mode (f s) : (onSafety f s).mode = s.mode := rfl
@[simp] theorem onSafety_banks (f s) : (onSafety f s).banks = s.banks := rfl
@[simp] theorem onSafety_params (f s) : (onSafety f s).params = s.params := rfl
@[simp] theorem onSafety_booted (f s) : (onSafety f s).booted = s.booted := rfl
@[simp] theorem onSafety_modeEntry (f s) : (onSafety f s).modeEntry = s.modeEntry := rfl
@[simp] theorem onSafety_scribe (f s) : (onSafety f s).scribe = s.scribe := rfl
@[simp] theorem onSafety_evq (f s) : (onSafety f s).evq = s.evq := rfl
@[simp] theorem onSafety_journal (f s) : (onSafety f s).journal = s.journal := rfl
@[simp] theorem onSafety_log (f s) : (onSafety f s).log = s.log := rfl
@[simp] theorem onSafety_firmware (f s) : (onSafety f s).firmware = s.firmware := rfl
@[simp] theorem onSafety_ports (f s) : (onSafety f s).ports = s.ports := rfl
@[simp] theorem onSafety_herder (f s) : (onSafety f s).herder = s.herder := rfl
@[simp] theorem onSafety_serif (f s) : (onSafety f s).serif = s.serif := rfl
@[simp] theorem onSafety_raman (f s) : (onSafety f s).raman = s.raman := rfl
@[simp] theorem onSafety_rtd (f s) : (onSafety f s).rtd = s.rtd := rfl
@[simp] theorem onSafety_hk (f s) : (onSafety f s).hk = s.hk := rfl
@[simp] theorem onSafety_pointer (f s) : (onSafety f s).pointer = s.pointer := rfl
@[simp] theorem onSafety_inkstone (f s) : (onSafety f s).inkstone = s.inkstone := rfl
@[simp] theorem onSafety_memory (f s) : (onSafety f s).memory = s.memory := rfl
@[simp] theorem onSafety_time (f s) : (onSafety f s).time = s.time := rfl
@[simp] theorem onSafety_links (f s) : (onSafety f s).links = s.links := rfl
@[simp] theorem onSafety_pair (f s) : (onSafety f s).pair = s.pair := rfl
@[simp] theorem onSafety_safety (f s) : (onSafety f s).safety = f s.safety := rfl
@[simp] theorem onSafety_calib (f s) : (onSafety f s).calib = s.calib := rfl
@[simp] theorem onSafety_ticks (f s) : (onSafety f s).ticks = s.ticks := rfl
@[simp] theorem onSafety_free (f s) : (onSafety f s).free = s.free := rfl
@[simp] theorem onSafety_pending (f s) : (onSafety f s).pending = s.pending := rfl

/-! `onCal` changes `calib` alone. -/
@[simp] theorem onCal_power (f s) : (onCal f s).power = s.power := rfl
@[simp] theorem onCal_clocks (f s) : (onCal f s).clocks = s.clocks := rfl
@[simp] theorem onCal_straps (f s) : (onCal f s).straps = s.straps := rfl
@[simp] theorem onCal_pins (f s) : (onCal f s).pins = s.pins := rfl
@[simp] theorem onCal_mode (f s) : (onCal f s).mode = s.mode := rfl
@[simp] theorem onCal_banks (f s) : (onCal f s).banks = s.banks := rfl
@[simp] theorem onCal_params (f s) : (onCal f s).params = s.params := rfl
@[simp] theorem onCal_booted (f s) : (onCal f s).booted = s.booted := rfl
@[simp] theorem onCal_modeEntry (f s) : (onCal f s).modeEntry = s.modeEntry := rfl
@[simp] theorem onCal_scribe (f s) : (onCal f s).scribe = s.scribe := rfl
@[simp] theorem onCal_evq (f s) : (onCal f s).evq = s.evq := rfl
@[simp] theorem onCal_journal (f s) : (onCal f s).journal = s.journal := rfl
@[simp] theorem onCal_log (f s) : (onCal f s).log = s.log := rfl
@[simp] theorem onCal_firmware (f s) : (onCal f s).firmware = s.firmware := rfl
@[simp] theorem onCal_ports (f s) : (onCal f s).ports = s.ports := rfl
@[simp] theorem onCal_herder (f s) : (onCal f s).herder = s.herder := rfl
@[simp] theorem onCal_serif (f s) : (onCal f s).serif = s.serif := rfl
@[simp] theorem onCal_raman (f s) : (onCal f s).raman = s.raman := rfl
@[simp] theorem onCal_rtd (f s) : (onCal f s).rtd = s.rtd := rfl
@[simp] theorem onCal_hk (f s) : (onCal f s).hk = s.hk := rfl
@[simp] theorem onCal_pointer (f s) : (onCal f s).pointer = s.pointer := rfl
@[simp] theorem onCal_inkstone (f s) : (onCal f s).inkstone = s.inkstone := rfl
@[simp] theorem onCal_memory (f s) : (onCal f s).memory = s.memory := rfl
@[simp] theorem onCal_time (f s) : (onCal f s).time = s.time := rfl
@[simp] theorem onCal_links (f s) : (onCal f s).links = s.links := rfl
@[simp] theorem onCal_pair (f s) : (onCal f s).pair = s.pair := rfl
@[simp] theorem onCal_safety (f s) : (onCal f s).safety = s.safety := rfl
@[simp] theorem onCal_calib (f s) : (onCal f s).calib = f s.calib := rfl
@[simp] theorem onCal_ticks (f s) : (onCal f s).ticks = s.ticks := rfl
@[simp] theorem onCal_free (f s) : (onCal f s).free = s.free := rfl
@[simp] theorem onCal_pending (f s) : (onCal f s).pending = s.pending := rfl

/-! `onPort` changes one entry of `ports` alone. -/
@[simp] theorem onPort_power (p f s) : (onPort p f s).power = s.power := rfl
@[simp] theorem onPort_clocks (p f s) : (onPort p f s).clocks = s.clocks := rfl
@[simp] theorem onPort_straps (p f s) : (onPort p f s).straps = s.straps := rfl
@[simp] theorem onPort_pins (p f s) : (onPort p f s).pins = s.pins := rfl
@[simp] theorem onPort_mode (p f s) : (onPort p f s).mode = s.mode := rfl
@[simp] theorem onPort_banks (p f s) : (onPort p f s).banks = s.banks := rfl
@[simp] theorem onPort_params (p f s) : (onPort p f s).params = s.params := rfl
@[simp] theorem onPort_booted (p f s) : (onPort p f s).booted = s.booted := rfl
@[simp] theorem onPort_modeEntry (p f s) : (onPort p f s).modeEntry = s.modeEntry := rfl
@[simp] theorem onPort_scribe (p f s) : (onPort p f s).scribe = s.scribe := rfl
@[simp] theorem onPort_evq (p f s) : (onPort p f s).evq = s.evq := rfl
@[simp] theorem onPort_journal (p f s) : (onPort p f s).journal = s.journal := rfl
@[simp] theorem onPort_log (p f s) : (onPort p f s).log = s.log := rfl
@[simp] theorem onPort_firmware (p f s) : (onPort p f s).firmware = s.firmware := rfl
@[simp] theorem onPort_herder (p f s) : (onPort p f s).herder = s.herder := rfl
@[simp] theorem onPort_serif (p f s) : (onPort p f s).serif = s.serif := rfl
@[simp] theorem onPort_raman (p f s) : (onPort p f s).raman = s.raman := rfl
@[simp] theorem onPort_rtd (p f s) : (onPort p f s).rtd = s.rtd := rfl
@[simp] theorem onPort_hk (p f s) : (onPort p f s).hk = s.hk := rfl
@[simp] theorem onPort_pointer (p f s) : (onPort p f s).pointer = s.pointer := rfl
@[simp] theorem onPort_inkstone (p f s) : (onPort p f s).inkstone = s.inkstone := rfl
@[simp] theorem onPort_memory (p f s) : (onPort p f s).memory = s.memory := rfl
@[simp] theorem onPort_time (p f s) : (onPort p f s).time = s.time := rfl
@[simp] theorem onPort_links (p f s) : (onPort p f s).links = s.links := rfl
@[simp] theorem onPort_pair (p f s) : (onPort p f s).pair = s.pair := rfl
@[simp] theorem onPort_safety (p f s) : (onPort p f s).safety = s.safety := rfl
@[simp] theorem onPort_calib (p f s) : (onPort p f s).calib = s.calib := rfl
@[simp] theorem onPort_ticks (p f s) : (onPort p f s).ticks = s.ticks := rfl
@[simp] theorem onPort_free (p f s) : (onPort p f s).free = s.free := rfl
@[simp] theorem onPort_pending (p f s) : (onPort p f s).pending = s.pending := rfl

/-! `onRaman` changes one entry of `raman` alone. -/
@[simp] theorem onRaman_power (p f s) : (onRaman p f s).power = s.power := rfl
@[simp] theorem onRaman_clocks (p f s) : (onRaman p f s).clocks = s.clocks := rfl
@[simp] theorem onRaman_straps (p f s) : (onRaman p f s).straps = s.straps := rfl
@[simp] theorem onRaman_pins (p f s) : (onRaman p f s).pins = s.pins := rfl
@[simp] theorem onRaman_mode (p f s) : (onRaman p f s).mode = s.mode := rfl
@[simp] theorem onRaman_banks (p f s) : (onRaman p f s).banks = s.banks := rfl
@[simp] theorem onRaman_params (p f s) : (onRaman p f s).params = s.params := rfl
@[simp] theorem onRaman_booted (p f s) : (onRaman p f s).booted = s.booted := rfl
@[simp] theorem onRaman_modeEntry (p f s) : (onRaman p f s).modeEntry = s.modeEntry := rfl
@[simp] theorem onRaman_scribe (p f s) : (onRaman p f s).scribe = s.scribe := rfl
@[simp] theorem onRaman_evq (p f s) : (onRaman p f s).evq = s.evq := rfl
@[simp] theorem onRaman_journal (p f s) : (onRaman p f s).journal = s.journal := rfl
@[simp] theorem onRaman_log (p f s) : (onRaman p f s).log = s.log := rfl
@[simp] theorem onRaman_firmware (p f s) : (onRaman p f s).firmware = s.firmware := rfl
@[simp] theorem onRaman_ports (p f s) : (onRaman p f s).ports = s.ports := rfl
@[simp] theorem onRaman_herder (p f s) : (onRaman p f s).herder = s.herder := rfl
@[simp] theorem onRaman_serif (p f s) : (onRaman p f s).serif = s.serif := rfl
@[simp] theorem onRaman_rtd (p f s) : (onRaman p f s).rtd = s.rtd := rfl
@[simp] theorem onRaman_hk (p f s) : (onRaman p f s).hk = s.hk := rfl
@[simp] theorem onRaman_pointer (p f s) : (onRaman p f s).pointer = s.pointer := rfl
@[simp] theorem onRaman_inkstone (p f s) : (onRaman p f s).inkstone = s.inkstone := rfl
@[simp] theorem onRaman_memory (p f s) : (onRaman p f s).memory = s.memory := rfl
@[simp] theorem onRaman_time (p f s) : (onRaman p f s).time = s.time := rfl
@[simp] theorem onRaman_links (p f s) : (onRaman p f s).links = s.links := rfl
@[simp] theorem onRaman_pair (p f s) : (onRaman p f s).pair = s.pair := rfl
@[simp] theorem onRaman_safety (p f s) : (onRaman p f s).safety = s.safety := rfl
@[simp] theorem onRaman_calib (p f s) : (onRaman p f s).calib = s.calib := rfl
@[simp] theorem onRaman_ticks (p f s) : (onRaman p f s).ticks = s.ticks := rfl
@[simp] theorem onRaman_free (p f s) : (onRaman p f s).free = s.free := rfl
@[simp] theorem onRaman_pending (p f s) : (onRaman p f s).pending = s.pending := rfl

/-! `onRtd` changes one entry of `rtd` alone. -/
@[simp] theorem onRtd_power (k f s) : (onRtd k f s).power = s.power := rfl
@[simp] theorem onRtd_clocks (k f s) : (onRtd k f s).clocks = s.clocks := rfl
@[simp] theorem onRtd_straps (k f s) : (onRtd k f s).straps = s.straps := rfl
@[simp] theorem onRtd_pins (k f s) : (onRtd k f s).pins = s.pins := rfl
@[simp] theorem onRtd_mode (k f s) : (onRtd k f s).mode = s.mode := rfl
@[simp] theorem onRtd_banks (k f s) : (onRtd k f s).banks = s.banks := rfl
@[simp] theorem onRtd_params (k f s) : (onRtd k f s).params = s.params := rfl
@[simp] theorem onRtd_booted (k f s) : (onRtd k f s).booted = s.booted := rfl
@[simp] theorem onRtd_modeEntry (k f s) : (onRtd k f s).modeEntry = s.modeEntry := rfl
@[simp] theorem onRtd_scribe (k f s) : (onRtd k f s).scribe = s.scribe := rfl
@[simp] theorem onRtd_evq (k f s) : (onRtd k f s).evq = s.evq := rfl
@[simp] theorem onRtd_journal (k f s) : (onRtd k f s).journal = s.journal := rfl
@[simp] theorem onRtd_log (k f s) : (onRtd k f s).log = s.log := rfl
@[simp] theorem onRtd_firmware (k f s) : (onRtd k f s).firmware = s.firmware := rfl
@[simp] theorem onRtd_ports (k f s) : (onRtd k f s).ports = s.ports := rfl
@[simp] theorem onRtd_herder (k f s) : (onRtd k f s).herder = s.herder := rfl
@[simp] theorem onRtd_serif (k f s) : (onRtd k f s).serif = s.serif := rfl
@[simp] theorem onRtd_raman (k f s) : (onRtd k f s).raman = s.raman := rfl
@[simp] theorem onRtd_hk (k f s) : (onRtd k f s).hk = s.hk := rfl
@[simp] theorem onRtd_pointer (k f s) : (onRtd k f s).pointer = s.pointer := rfl
@[simp] theorem onRtd_inkstone (k f s) : (onRtd k f s).inkstone = s.inkstone := rfl
@[simp] theorem onRtd_memory (k f s) : (onRtd k f s).memory = s.memory := rfl
@[simp] theorem onRtd_time (k f s) : (onRtd k f s).time = s.time := rfl
@[simp] theorem onRtd_links (k f s) : (onRtd k f s).links = s.links := rfl
@[simp] theorem onRtd_pair (k f s) : (onRtd k f s).pair = s.pair := rfl
@[simp] theorem onRtd_safety (k f s) : (onRtd k f s).safety = s.safety := rfl
@[simp] theorem onRtd_calib (k f s) : (onRtd k f s).calib = s.calib := rfl
@[simp] theorem onRtd_ticks (k f s) : (onRtd k f s).ticks = s.ticks := rfl
@[simp] theorem onRtd_free (k f s) : (onRtd k f s).free = s.free := rfl
@[simp] theorem onRtd_pending (k f s) : (onRtd k f s).pending = s.pending := rfl

/-! `onPage` changes one entry of `scribe` alone. -/
@[simp] theorem onPage_power (t f s) : (onPage t f s).power = s.power := rfl
@[simp] theorem onPage_clocks (t f s) : (onPage t f s).clocks = s.clocks := rfl
@[simp] theorem onPage_straps (t f s) : (onPage t f s).straps = s.straps := rfl
@[simp] theorem onPage_pins (t f s) : (onPage t f s).pins = s.pins := rfl
@[simp] theorem onPage_mode (t f s) : (onPage t f s).mode = s.mode := rfl
@[simp] theorem onPage_banks (t f s) : (onPage t f s).banks = s.banks := rfl
@[simp] theorem onPage_params (t f s) : (onPage t f s).params = s.params := rfl
@[simp] theorem onPage_booted (t f s) : (onPage t f s).booted = s.booted := rfl
@[simp] theorem onPage_modeEntry (t f s) : (onPage t f s).modeEntry = s.modeEntry := rfl
@[simp] theorem onPage_evq (t f s) : (onPage t f s).evq = s.evq := rfl
@[simp] theorem onPage_journal (t f s) : (onPage t f s).journal = s.journal := rfl
@[simp] theorem onPage_log (t f s) : (onPage t f s).log = s.log := rfl
@[simp] theorem onPage_firmware (t f s) : (onPage t f s).firmware = s.firmware := rfl
@[simp] theorem onPage_ports (t f s) : (onPage t f s).ports = s.ports := rfl
@[simp] theorem onPage_herder (t f s) : (onPage t f s).herder = s.herder := rfl
@[simp] theorem onPage_serif (t f s) : (onPage t f s).serif = s.serif := rfl
@[simp] theorem onPage_raman (t f s) : (onPage t f s).raman = s.raman := rfl
@[simp] theorem onPage_rtd (t f s) : (onPage t f s).rtd = s.rtd := rfl
@[simp] theorem onPage_hk (t f s) : (onPage t f s).hk = s.hk := rfl
@[simp] theorem onPage_pointer (t f s) : (onPage t f s).pointer = s.pointer := rfl
@[simp] theorem onPage_inkstone (t f s) : (onPage t f s).inkstone = s.inkstone := rfl
@[simp] theorem onPage_memory (t f s) : (onPage t f s).memory = s.memory := rfl
@[simp] theorem onPage_time (t f s) : (onPage t f s).time = s.time := rfl
@[simp] theorem onPage_links (t f s) : (onPage t f s).links = s.links := rfl
@[simp] theorem onPage_pair (t f s) : (onPage t f s).pair = s.pair := rfl
@[simp] theorem onPage_safety (t f s) : (onPage t f s).safety = s.safety := rfl
@[simp] theorem onPage_calib (t f s) : (onPage t f s).calib = s.calib := rfl
@[simp] theorem onPage_ticks (t f s) : (onPage t f s).ticks = s.ticks := rfl
@[simp] theorem onPage_free (t f s) : (onPage t f s).free = s.free := rfl
@[simp] theorem onPage_pending (t f s) : (onPage t f s).pending = s.pending := rfl

/-! `onTransport` changes one entry of `scribe` alone. -/
@[simp] theorem onTransport_power (t f s) : (onTransport t f s).power = s.power := rfl
@[simp] theorem onTransport_clocks (t f s) : (onTransport t f s).clocks = s.clocks := rfl
@[simp] theorem onTransport_straps (t f s) : (onTransport t f s).straps = s.straps := rfl
@[simp] theorem onTransport_pins (t f s) : (onTransport t f s).pins = s.pins := rfl
@[simp] theorem onTransport_mode (t f s) : (onTransport t f s).mode = s.mode := rfl
@[simp] theorem onTransport_banks (t f s) : (onTransport t f s).banks = s.banks := rfl
@[simp] theorem onTransport_params (t f s) : (onTransport t f s).params = s.params := rfl
@[simp] theorem onTransport_booted (t f s) : (onTransport t f s).booted = s.booted := rfl
@[simp] theorem onTransport_modeEntry (t f s) : (onTransport t f s).modeEntry = s.modeEntry := rfl
@[simp] theorem onTransport_evq (t f s) : (onTransport t f s).evq = s.evq := rfl
@[simp] theorem onTransport_journal (t f s) : (onTransport t f s).journal = s.journal := rfl
@[simp] theorem onTransport_log (t f s) : (onTransport t f s).log = s.log := rfl
@[simp] theorem onTransport_firmware (t f s) : (onTransport t f s).firmware = s.firmware := rfl
@[simp] theorem onTransport_ports (t f s) : (onTransport t f s).ports = s.ports := rfl
@[simp] theorem onTransport_herder (t f s) : (onTransport t f s).herder = s.herder := rfl
@[simp] theorem onTransport_serif (t f s) : (onTransport t f s).serif = s.serif := rfl
@[simp] theorem onTransport_raman (t f s) : (onTransport t f s).raman = s.raman := rfl
@[simp] theorem onTransport_rtd (t f s) : (onTransport t f s).rtd = s.rtd := rfl
@[simp] theorem onTransport_hk (t f s) : (onTransport t f s).hk = s.hk := rfl
@[simp] theorem onTransport_pointer (t f s) : (onTransport t f s).pointer = s.pointer := rfl
@[simp] theorem onTransport_inkstone (t f s) : (onTransport t f s).inkstone = s.inkstone := rfl
@[simp] theorem onTransport_memory (t f s) : (onTransport t f s).memory = s.memory := rfl
@[simp] theorem onTransport_time (t f s) : (onTransport t f s).time = s.time := rfl
@[simp] theorem onTransport_links (t f s) : (onTransport t f s).links = s.links := rfl
@[simp] theorem onTransport_pair (t f s) : (onTransport t f s).pair = s.pair := rfl
@[simp] theorem onTransport_safety (t f s) : (onTransport t f s).safety = s.safety := rfl
@[simp] theorem onTransport_calib (t f s) : (onTransport t f s).calib = s.calib := rfl
@[simp] theorem onTransport_ticks (t f s) : (onTransport t f s).ticks = s.ticks := rfl
@[simp] theorem onTransport_free (t f s) : (onTransport t f s).free = s.free := rfl
@[simp] theorem onTransport_pending (t f s) : (onTransport t f s).pending = s.pending := rfl

/-! `onEth` changes one entry of `links` alone. -/
@[simp] theorem onEth_power (n f s) : (onEth n f s).power = s.power := rfl
@[simp] theorem onEth_clocks (n f s) : (onEth n f s).clocks = s.clocks := rfl
@[simp] theorem onEth_straps (n f s) : (onEth n f s).straps = s.straps := rfl
@[simp] theorem onEth_pins (n f s) : (onEth n f s).pins = s.pins := rfl
@[simp] theorem onEth_mode (n f s) : (onEth n f s).mode = s.mode := rfl
@[simp] theorem onEth_banks (n f s) : (onEth n f s).banks = s.banks := rfl
@[simp] theorem onEth_params (n f s) : (onEth n f s).params = s.params := rfl
@[simp] theorem onEth_booted (n f s) : (onEth n f s).booted = s.booted := rfl
@[simp] theorem onEth_modeEntry (n f s) : (onEth n f s).modeEntry = s.modeEntry := rfl
@[simp] theorem onEth_scribe (n f s) : (onEth n f s).scribe = s.scribe := rfl
@[simp] theorem onEth_evq (n f s) : (onEth n f s).evq = s.evq := rfl
@[simp] theorem onEth_journal (n f s) : (onEth n f s).journal = s.journal := rfl
@[simp] theorem onEth_log (n f s) : (onEth n f s).log = s.log := rfl
@[simp] theorem onEth_firmware (n f s) : (onEth n f s).firmware = s.firmware := rfl
@[simp] theorem onEth_ports (n f s) : (onEth n f s).ports = s.ports := rfl
@[simp] theorem onEth_herder (n f s) : (onEth n f s).herder = s.herder := rfl
@[simp] theorem onEth_serif (n f s) : (onEth n f s).serif = s.serif := rfl
@[simp] theorem onEth_raman (n f s) : (onEth n f s).raman = s.raman := rfl
@[simp] theorem onEth_rtd (n f s) : (onEth n f s).rtd = s.rtd := rfl
@[simp] theorem onEth_hk (n f s) : (onEth n f s).hk = s.hk := rfl
@[simp] theorem onEth_pointer (n f s) : (onEth n f s).pointer = s.pointer := rfl
@[simp] theorem onEth_inkstone (n f s) : (onEth n f s).inkstone = s.inkstone := rfl
@[simp] theorem onEth_memory (n f s) : (onEth n f s).memory = s.memory := rfl
@[simp] theorem onEth_time (n f s) : (onEth n f s).time = s.time := rfl
@[simp] theorem onEth_pair (n f s) : (onEth n f s).pair = s.pair := rfl
@[simp] theorem onEth_safety (n f s) : (onEth n f s).safety = s.safety := rfl
@[simp] theorem onEth_calib (n f s) : (onEth n f s).calib = s.calib := rfl
@[simp] theorem onEth_ticks (n f s) : (onEth n f s).ticks = s.ticks := rfl
@[simp] theorem onEth_free (n f s) : (onEth n f s).free = s.free := rfl
@[simp] theorem onEth_pending (n f s) : (onEth n f s).pending = s.pending := rfl

/-! `onQueue` changes one entry of `links` alone. -/
@[simp] theorem onQueue_power (q f s) : (onQueue q f s).power = s.power := rfl
@[simp] theorem onQueue_clocks (q f s) : (onQueue q f s).clocks = s.clocks := rfl
@[simp] theorem onQueue_straps (q f s) : (onQueue q f s).straps = s.straps := rfl
@[simp] theorem onQueue_pins (q f s) : (onQueue q f s).pins = s.pins := rfl
@[simp] theorem onQueue_mode (q f s) : (onQueue q f s).mode = s.mode := rfl
@[simp] theorem onQueue_banks (q f s) : (onQueue q f s).banks = s.banks := rfl
@[simp] theorem onQueue_params (q f s) : (onQueue q f s).params = s.params := rfl
@[simp] theorem onQueue_booted (q f s) : (onQueue q f s).booted = s.booted := rfl
@[simp] theorem onQueue_modeEntry (q f s) : (onQueue q f s).modeEntry = s.modeEntry := rfl
@[simp] theorem onQueue_scribe (q f s) : (onQueue q f s).scribe = s.scribe := rfl
@[simp] theorem onQueue_evq (q f s) : (onQueue q f s).evq = s.evq := rfl
@[simp] theorem onQueue_journal (q f s) : (onQueue q f s).journal = s.journal := rfl
@[simp] theorem onQueue_log (q f s) : (onQueue q f s).log = s.log := rfl
@[simp] theorem onQueue_firmware (q f s) : (onQueue q f s).firmware = s.firmware := rfl
@[simp] theorem onQueue_ports (q f s) : (onQueue q f s).ports = s.ports := rfl
@[simp] theorem onQueue_herder (q f s) : (onQueue q f s).herder = s.herder := rfl
@[simp] theorem onQueue_serif (q f s) : (onQueue q f s).serif = s.serif := rfl
@[simp] theorem onQueue_raman (q f s) : (onQueue q f s).raman = s.raman := rfl
@[simp] theorem onQueue_rtd (q f s) : (onQueue q f s).rtd = s.rtd := rfl
@[simp] theorem onQueue_hk (q f s) : (onQueue q f s).hk = s.hk := rfl
@[simp] theorem onQueue_pointer (q f s) : (onQueue q f s).pointer = s.pointer := rfl
@[simp] theorem onQueue_inkstone (q f s) : (onQueue q f s).inkstone = s.inkstone := rfl
@[simp] theorem onQueue_memory (q f s) : (onQueue q f s).memory = s.memory := rfl
@[simp] theorem onQueue_time (q f s) : (onQueue q f s).time = s.time := rfl
@[simp] theorem onQueue_pair (q f s) : (onQueue q f s).pair = s.pair := rfl
@[simp] theorem onQueue_safety (q f s) : (onQueue q f s).safety = s.safety := rfl
@[simp] theorem onQueue_calib (q f s) : (onQueue q f s).calib = s.calib := rfl
@[simp] theorem onQueue_ticks (q f s) : (onQueue q f s).ticks = s.ticks := rfl
@[simp] theorem onQueue_free (q f s) : (onQueue q f s).free = s.free := rfl
@[simp] theorem onQueue_pending (q f s) : (onQueue q f s).pending = s.pending := rfl

/-! `onDram` changes one entry of `memory` alone. -/
@[simp] theorem onDram_power (a f s) : (onDram a f s).power = s.power := rfl
@[simp] theorem onDram_clocks (a f s) : (onDram a f s).clocks = s.clocks := rfl
@[simp] theorem onDram_straps (a f s) : (onDram a f s).straps = s.straps := rfl
@[simp] theorem onDram_pins (a f s) : (onDram a f s).pins = s.pins := rfl
@[simp] theorem onDram_mode (a f s) : (onDram a f s).mode = s.mode := rfl
@[simp] theorem onDram_banks (a f s) : (onDram a f s).banks = s.banks := rfl
@[simp] theorem onDram_params (a f s) : (onDram a f s).params = s.params := rfl
@[simp] theorem onDram_booted (a f s) : (onDram a f s).booted = s.booted := rfl
@[simp] theorem onDram_modeEntry (a f s) : (onDram a f s).modeEntry = s.modeEntry := rfl
@[simp] theorem onDram_scribe (a f s) : (onDram a f s).scribe = s.scribe := rfl
@[simp] theorem onDram_evq (a f s) : (onDram a f s).evq = s.evq := rfl
@[simp] theorem onDram_journal (a f s) : (onDram a f s).journal = s.journal := rfl
@[simp] theorem onDram_log (a f s) : (onDram a f s).log = s.log := rfl
@[simp] theorem onDram_firmware (a f s) : (onDram a f s).firmware = s.firmware := rfl
@[simp] theorem onDram_ports (a f s) : (onDram a f s).ports = s.ports := rfl
@[simp] theorem onDram_herder (a f s) : (onDram a f s).herder = s.herder := rfl
@[simp] theorem onDram_serif (a f s) : (onDram a f s).serif = s.serif := rfl
@[simp] theorem onDram_raman (a f s) : (onDram a f s).raman = s.raman := rfl
@[simp] theorem onDram_rtd (a f s) : (onDram a f s).rtd = s.rtd := rfl
@[simp] theorem onDram_hk (a f s) : (onDram a f s).hk = s.hk := rfl
@[simp] theorem onDram_pointer (a f s) : (onDram a f s).pointer = s.pointer := rfl
@[simp] theorem onDram_inkstone (a f s) : (onDram a f s).inkstone = s.inkstone := rfl
@[simp] theorem onDram_time (a f s) : (onDram a f s).time = s.time := rfl
@[simp] theorem onDram_links (a f s) : (onDram a f s).links = s.links := rfl
@[simp] theorem onDram_pair (a f s) : (onDram a f s).pair = s.pair := rfl
@[simp] theorem onDram_safety (a f s) : (onDram a f s).safety = s.safety := rfl
@[simp] theorem onDram_calib (a f s) : (onDram a f s).calib = s.calib := rfl
@[simp] theorem onDram_ticks (a f s) : (onDram a f s).ticks = s.ticks := rfl
@[simp] theorem onDram_free (a f s) : (onDram a f s).free = s.free := rfl
@[simp] theorem onDram_pending (a f s) : (onDram a f s).pending = s.pending := rfl

/-! `onDomain` changes one entry of `time` alone. -/
@[simp] theorem onDomain_power (d f s) : (onDomain d f s).power = s.power := rfl
@[simp] theorem onDomain_clocks (d f s) : (onDomain d f s).clocks = s.clocks := rfl
@[simp] theorem onDomain_straps (d f s) : (onDomain d f s).straps = s.straps := rfl
@[simp] theorem onDomain_pins (d f s) : (onDomain d f s).pins = s.pins := rfl
@[simp] theorem onDomain_mode (d f s) : (onDomain d f s).mode = s.mode := rfl
@[simp] theorem onDomain_banks (d f s) : (onDomain d f s).banks = s.banks := rfl
@[simp] theorem onDomain_params (d f s) : (onDomain d f s).params = s.params := rfl
@[simp] theorem onDomain_booted (d f s) : (onDomain d f s).booted = s.booted := rfl
@[simp] theorem onDomain_modeEntry (d f s) : (onDomain d f s).modeEntry = s.modeEntry := rfl
@[simp] theorem onDomain_scribe (d f s) : (onDomain d f s).scribe = s.scribe := rfl
@[simp] theorem onDomain_evq (d f s) : (onDomain d f s).evq = s.evq := rfl
@[simp] theorem onDomain_journal (d f s) : (onDomain d f s).journal = s.journal := rfl
@[simp] theorem onDomain_log (d f s) : (onDomain d f s).log = s.log := rfl
@[simp] theorem onDomain_firmware (d f s) : (onDomain d f s).firmware = s.firmware := rfl
@[simp] theorem onDomain_ports (d f s) : (onDomain d f s).ports = s.ports := rfl
@[simp] theorem onDomain_herder (d f s) : (onDomain d f s).herder = s.herder := rfl
@[simp] theorem onDomain_serif (d f s) : (onDomain d f s).serif = s.serif := rfl
@[simp] theorem onDomain_raman (d f s) : (onDomain d f s).raman = s.raman := rfl
@[simp] theorem onDomain_rtd (d f s) : (onDomain d f s).rtd = s.rtd := rfl
@[simp] theorem onDomain_hk (d f s) : (onDomain d f s).hk = s.hk := rfl
@[simp] theorem onDomain_pointer (d f s) : (onDomain d f s).pointer = s.pointer := rfl
@[simp] theorem onDomain_inkstone (d f s) : (onDomain d f s).inkstone = s.inkstone := rfl
@[simp] theorem onDomain_memory (d f s) : (onDomain d f s).memory = s.memory := rfl
@[simp] theorem onDomain_links (d f s) : (onDomain d f s).links = s.links := rfl
@[simp] theorem onDomain_pair (d f s) : (onDomain d f s).pair = s.pair := rfl
@[simp] theorem onDomain_safety (d f s) : (onDomain d f s).safety = s.safety := rfl
@[simp] theorem onDomain_calib (d f s) : (onDomain d f s).calib = s.calib := rfl
@[simp] theorem onDomain_ticks (d f s) : (onDomain d f s).ticks = s.ticks := rfl
@[simp] theorem onDomain_free (d f s) : (onDomain d f s).free = s.free := rfl
@[simp] theorem onDomain_pending (d f s) : (onDomain d f s).pending = s.pending := rfl

/-! `onTout` changes one entry of `time` alone. -/
@[simp] theorem onTout_power (u f s) : (onTout u f s).power = s.power := rfl
@[simp] theorem onTout_clocks (u f s) : (onTout u f s).clocks = s.clocks := rfl
@[simp] theorem onTout_straps (u f s) : (onTout u f s).straps = s.straps := rfl
@[simp] theorem onTout_pins (u f s) : (onTout u f s).pins = s.pins := rfl
@[simp] theorem onTout_mode (u f s) : (onTout u f s).mode = s.mode := rfl
@[simp] theorem onTout_banks (u f s) : (onTout u f s).banks = s.banks := rfl
@[simp] theorem onTout_params (u f s) : (onTout u f s).params = s.params := rfl
@[simp] theorem onTout_booted (u f s) : (onTout u f s).booted = s.booted := rfl
@[simp] theorem onTout_modeEntry (u f s) : (onTout u f s).modeEntry = s.modeEntry := rfl
@[simp] theorem onTout_scribe (u f s) : (onTout u f s).scribe = s.scribe := rfl
@[simp] theorem onTout_evq (u f s) : (onTout u f s).evq = s.evq := rfl
@[simp] theorem onTout_journal (u f s) : (onTout u f s).journal = s.journal := rfl
@[simp] theorem onTout_log (u f s) : (onTout u f s).log = s.log := rfl
@[simp] theorem onTout_firmware (u f s) : (onTout u f s).firmware = s.firmware := rfl
@[simp] theorem onTout_ports (u f s) : (onTout u f s).ports = s.ports := rfl
@[simp] theorem onTout_herder (u f s) : (onTout u f s).herder = s.herder := rfl
@[simp] theorem onTout_serif (u f s) : (onTout u f s).serif = s.serif := rfl
@[simp] theorem onTout_raman (u f s) : (onTout u f s).raman = s.raman := rfl
@[simp] theorem onTout_rtd (u f s) : (onTout u f s).rtd = s.rtd := rfl
@[simp] theorem onTout_hk (u f s) : (onTout u f s).hk = s.hk := rfl
@[simp] theorem onTout_pointer (u f s) : (onTout u f s).pointer = s.pointer := rfl
@[simp] theorem onTout_inkstone (u f s) : (onTout u f s).inkstone = s.inkstone := rfl
@[simp] theorem onTout_memory (u f s) : (onTout u f s).memory = s.memory := rfl
@[simp] theorem onTout_links (u f s) : (onTout u f s).links = s.links := rfl
@[simp] theorem onTout_pair (u f s) : (onTout u f s).pair = s.pair := rfl
@[simp] theorem onTout_safety (u f s) : (onTout u f s).safety = s.safety := rfl
@[simp] theorem onTout_calib (u f s) : (onTout u f s).calib = s.calib := rfl
@[simp] theorem onTout_ticks (u f s) : (onTout u f s).ticks = s.ticks := rfl
@[simp] theorem onTout_free (u f s) : (onTout u f s).free = s.free := rfl
@[simp] theorem onTout_pending (u f s) : (onTout u f s).pending = s.pending := rfl

/-! `onSeq` changes one entry of `pointer` alone. -/
@[simp] theorem onSeq_power (q f s) : (onSeq q f s).power = s.power := rfl
@[simp] theorem onSeq_clocks (q f s) : (onSeq q f s).clocks = s.clocks := rfl
@[simp] theorem onSeq_straps (q f s) : (onSeq q f s).straps = s.straps := rfl
@[simp] theorem onSeq_pins (q f s) : (onSeq q f s).pins = s.pins := rfl
@[simp] theorem onSeq_mode (q f s) : (onSeq q f s).mode = s.mode := rfl
@[simp] theorem onSeq_banks (q f s) : (onSeq q f s).banks = s.banks := rfl
@[simp] theorem onSeq_params (q f s) : (onSeq q f s).params = s.params := rfl
@[simp] theorem onSeq_booted (q f s) : (onSeq q f s).booted = s.booted := rfl
@[simp] theorem onSeq_modeEntry (q f s) : (onSeq q f s).modeEntry = s.modeEntry := rfl
@[simp] theorem onSeq_scribe (q f s) : (onSeq q f s).scribe = s.scribe := rfl
@[simp] theorem onSeq_evq (q f s) : (onSeq q f s).evq = s.evq := rfl
@[simp] theorem onSeq_journal (q f s) : (onSeq q f s).journal = s.journal := rfl
@[simp] theorem onSeq_log (q f s) : (onSeq q f s).log = s.log := rfl
@[simp] theorem onSeq_firmware (q f s) : (onSeq q f s).firmware = s.firmware := rfl
@[simp] theorem onSeq_ports (q f s) : (onSeq q f s).ports = s.ports := rfl
@[simp] theorem onSeq_herder (q f s) : (onSeq q f s).herder = s.herder := rfl
@[simp] theorem onSeq_serif (q f s) : (onSeq q f s).serif = s.serif := rfl
@[simp] theorem onSeq_raman (q f s) : (onSeq q f s).raman = s.raman := rfl
@[simp] theorem onSeq_rtd (q f s) : (onSeq q f s).rtd = s.rtd := rfl
@[simp] theorem onSeq_hk (q f s) : (onSeq q f s).hk = s.hk := rfl
@[simp] theorem onSeq_inkstone (q f s) : (onSeq q f s).inkstone = s.inkstone := rfl
@[simp] theorem onSeq_memory (q f s) : (onSeq q f s).memory = s.memory := rfl
@[simp] theorem onSeq_time (q f s) : (onSeq q f s).time = s.time := rfl
@[simp] theorem onSeq_links (q f s) : (onSeq q f s).links = s.links := rfl
@[simp] theorem onSeq_pair (q f s) : (onSeq q f s).pair = s.pair := rfl
@[simp] theorem onSeq_safety (q f s) : (onSeq q f s).safety = s.safety := rfl
@[simp] theorem onSeq_calib (q f s) : (onSeq q f s).calib = s.calib := rfl
@[simp] theorem onSeq_ticks (q f s) : (onSeq q f s).ticks = s.ticks := rfl
@[simp] theorem onSeq_free (q f s) : (onSeq q f s).free = s.free := rfl
@[simp] theorem onSeq_pending (q f s) : (onSeq q f s).pending = s.pending := rfl

/-! `onZone` changes one entry of `herder` alone. -/
@[simp] theorem onZone_power (z f s) : (onZone z f s).power = s.power := rfl
@[simp] theorem onZone_clocks (z f s) : (onZone z f s).clocks = s.clocks := rfl
@[simp] theorem onZone_straps (z f s) : (onZone z f s).straps = s.straps := rfl
@[simp] theorem onZone_pins (z f s) : (onZone z f s).pins = s.pins := rfl
@[simp] theorem onZone_mode (z f s) : (onZone z f s).mode = s.mode := rfl
@[simp] theorem onZone_banks (z f s) : (onZone z f s).banks = s.banks := rfl
@[simp] theorem onZone_params (z f s) : (onZone z f s).params = s.params := rfl
@[simp] theorem onZone_booted (z f s) : (onZone z f s).booted = s.booted := rfl
@[simp] theorem onZone_modeEntry (z f s) : (onZone z f s).modeEntry = s.modeEntry := rfl
@[simp] theorem onZone_scribe (z f s) : (onZone z f s).scribe = s.scribe := rfl
@[simp] theorem onZone_evq (z f s) : (onZone z f s).evq = s.evq := rfl
@[simp] theorem onZone_journal (z f s) : (onZone z f s).journal = s.journal := rfl
@[simp] theorem onZone_log (z f s) : (onZone z f s).log = s.log := rfl
@[simp] theorem onZone_firmware (z f s) : (onZone z f s).firmware = s.firmware := rfl
@[simp] theorem onZone_ports (z f s) : (onZone z f s).ports = s.ports := rfl
@[simp] theorem onZone_serif (z f s) : (onZone z f s).serif = s.serif := rfl
@[simp] theorem onZone_raman (z f s) : (onZone z f s).raman = s.raman := rfl
@[simp] theorem onZone_rtd (z f s) : (onZone z f s).rtd = s.rtd := rfl
@[simp] theorem onZone_hk (z f s) : (onZone z f s).hk = s.hk := rfl
@[simp] theorem onZone_pointer (z f s) : (onZone z f s).pointer = s.pointer := rfl
@[simp] theorem onZone_inkstone (z f s) : (onZone z f s).inkstone = s.inkstone := rfl
@[simp] theorem onZone_memory (z f s) : (onZone z f s).memory = s.memory := rfl
@[simp] theorem onZone_time (z f s) : (onZone z f s).time = s.time := rfl
@[simp] theorem onZone_links (z f s) : (onZone z f s).links = s.links := rfl
@[simp] theorem onZone_pair (z f s) : (onZone z f s).pair = s.pair := rfl
@[simp] theorem onZone_safety (z f s) : (onZone z f s).safety = s.safety := rfl
@[simp] theorem onZone_calib (z f s) : (onZone z f s).calib = s.calib := rfl
@[simp] theorem onZone_ticks (z f s) : (onZone z f s).ticks = s.ticks := rfl
@[simp] theorem onZone_free (z f s) : (onZone z f s).free = s.free := rfl
@[simp] theorem onZone_pending (z f s) : (onZone z f s).pending = s.pending := rfl

/-! `onLane` changes one entry of `serif` alone. -/
@[simp] theorem onLane_power (l f s) : (onLane l f s).power = s.power := rfl
@[simp] theorem onLane_clocks (l f s) : (onLane l f s).clocks = s.clocks := rfl
@[simp] theorem onLane_straps (l f s) : (onLane l f s).straps = s.straps := rfl
@[simp] theorem onLane_pins (l f s) : (onLane l f s).pins = s.pins := rfl
@[simp] theorem onLane_mode (l f s) : (onLane l f s).mode = s.mode := rfl
@[simp] theorem onLane_banks (l f s) : (onLane l f s).banks = s.banks := rfl
@[simp] theorem onLane_params (l f s) : (onLane l f s).params = s.params := rfl
@[simp] theorem onLane_booted (l f s) : (onLane l f s).booted = s.booted := rfl
@[simp] theorem onLane_modeEntry (l f s) : (onLane l f s).modeEntry = s.modeEntry := rfl
@[simp] theorem onLane_scribe (l f s) : (onLane l f s).scribe = s.scribe := rfl
@[simp] theorem onLane_evq (l f s) : (onLane l f s).evq = s.evq := rfl
@[simp] theorem onLane_journal (l f s) : (onLane l f s).journal = s.journal := rfl
@[simp] theorem onLane_log (l f s) : (onLane l f s).log = s.log := rfl
@[simp] theorem onLane_firmware (l f s) : (onLane l f s).firmware = s.firmware := rfl
@[simp] theorem onLane_ports (l f s) : (onLane l f s).ports = s.ports := rfl
@[simp] theorem onLane_herder (l f s) : (onLane l f s).herder = s.herder := rfl
@[simp] theorem onLane_raman (l f s) : (onLane l f s).raman = s.raman := rfl
@[simp] theorem onLane_rtd (l f s) : (onLane l f s).rtd = s.rtd := rfl
@[simp] theorem onLane_hk (l f s) : (onLane l f s).hk = s.hk := rfl
@[simp] theorem onLane_pointer (l f s) : (onLane l f s).pointer = s.pointer := rfl
@[simp] theorem onLane_inkstone (l f s) : (onLane l f s).inkstone = s.inkstone := rfl
@[simp] theorem onLane_memory (l f s) : (onLane l f s).memory = s.memory := rfl
@[simp] theorem onLane_time (l f s) : (onLane l f s).time = s.time := rfl
@[simp] theorem onLane_links (l f s) : (onLane l f s).links = s.links := rfl
@[simp] theorem onLane_pair (l f s) : (onLane l f s).pair = s.pair := rfl
@[simp] theorem onLane_safety (l f s) : (onLane l f s).safety = s.safety := rfl
@[simp] theorem onLane_calib (l f s) : (onLane l f s).calib = s.calib := rfl
@[simp] theorem onLane_ticks (l f s) : (onLane l f s).ticks = s.ticks := rfl
@[simp] theorem onLane_free (l f s) : (onLane l f s).free = s.free := rfl
@[simp] theorem onLane_pending (l f s) : (onLane l f s).pending = s.pending := rfl

/-! `onJournal` changes one entry of `journal` alone. -/
@[simp] theorem onJournal_power (n f s) : (onJournal n f s).power = s.power := rfl
@[simp] theorem onJournal_clocks (n f s) : (onJournal n f s).clocks = s.clocks := rfl
@[simp] theorem onJournal_straps (n f s) : (onJournal n f s).straps = s.straps := rfl
@[simp] theorem onJournal_pins (n f s) : (onJournal n f s).pins = s.pins := rfl
@[simp] theorem onJournal_mode (n f s) : (onJournal n f s).mode = s.mode := rfl
@[simp] theorem onJournal_banks (n f s) : (onJournal n f s).banks = s.banks := rfl
@[simp] theorem onJournal_params (n f s) : (onJournal n f s).params = s.params := rfl
@[simp] theorem onJournal_booted (n f s) : (onJournal n f s).booted = s.booted := rfl
@[simp] theorem onJournal_modeEntry (n f s) : (onJournal n f s).modeEntry = s.modeEntry := rfl
@[simp] theorem onJournal_scribe (n f s) : (onJournal n f s).scribe = s.scribe := rfl
@[simp] theorem onJournal_evq (n f s) : (onJournal n f s).evq = s.evq := rfl
@[simp] theorem onJournal_log (n f s) : (onJournal n f s).log = s.log := rfl
@[simp] theorem onJournal_firmware (n f s) : (onJournal n f s).firmware = s.firmware := rfl
@[simp] theorem onJournal_ports (n f s) : (onJournal n f s).ports = s.ports := rfl
@[simp] theorem onJournal_herder (n f s) : (onJournal n f s).herder = s.herder := rfl
@[simp] theorem onJournal_serif (n f s) : (onJournal n f s).serif = s.serif := rfl
@[simp] theorem onJournal_raman (n f s) : (onJournal n f s).raman = s.raman := rfl
@[simp] theorem onJournal_rtd (n f s) : (onJournal n f s).rtd = s.rtd := rfl
@[simp] theorem onJournal_hk (n f s) : (onJournal n f s).hk = s.hk := rfl
@[simp] theorem onJournal_pointer (n f s) : (onJournal n f s).pointer = s.pointer := rfl
@[simp] theorem onJournal_inkstone (n f s) : (onJournal n f s).inkstone = s.inkstone := rfl
@[simp] theorem onJournal_memory (n f s) : (onJournal n f s).memory = s.memory := rfl
@[simp] theorem onJournal_time (n f s) : (onJournal n f s).time = s.time := rfl
@[simp] theorem onJournal_links (n f s) : (onJournal n f s).links = s.links := rfl
@[simp] theorem onJournal_pair (n f s) : (onJournal n f s).pair = s.pair := rfl
@[simp] theorem onJournal_safety (n f s) : (onJournal n f s).safety = s.safety := rfl
@[simp] theorem onJournal_calib (n f s) : (onJournal n f s).calib = s.calib := rfl
@[simp] theorem onJournal_ticks (n f s) : (onJournal n f s).ticks = s.ticks := rfl
@[simp] theorem onJournal_free (n f s) : (onJournal n f s).free = s.free := rfl
@[simp] theorem onJournal_pending (n f s) : (onJournal n f s).pending = s.pending := rfl

end Sys2Proof.Machine
end

