-- ==== Sys2Proof/Laws/Shared.lean ====
section
/-! SUPPORT. One law for each shared operation, saying what it can do: entries of vectors, requests, answers, events, parameters, the
change of mode, the leash and the emission chain. -/

namespace Sys2Proof.Machine

/-! ## Entries of vectors -/

/-- An updated entry reads as the update. -/
@[simp] theorem vecRead_vecUpdate {α : Type} {n : Nat} (v : Vector α n) {i : Nat} (f : α → α) (d : α) (h : i < n) :
    vecRead (vecUpdate v i f) i d = f (vecRead v i d) := by simp [vecRead, vecUpdate, h]

/-- Other entries stay. -/
theorem vecRead_vecUpdate_other {α : Type} {n : Nat} (v : Vector α n) {i k : Nat} (f : α → α) (d : α) (h : k ≠ i) :
    vecRead (vecUpdate v i f) k d = vecRead v k d := by
  unfold vecRead vecUpdate
  by_cases hk : k < n <;> by_cases hi : i < n <;> simp [hk, hi, Ne.symm h]

/-- A `Fin` index reads the entry itself. -/
theorem vecRead_fin {α : Type} {n : Nat} (v : Vector α n) (i : Fin n) (d : α) : vecRead v i d = v.get i := by
  simp [vecRead, Vector.get_eq_getElem]

@[simp] theorem portOf_onPort (p : Fin 4) (f s) : portOf (onPort p f s) p = f (portOf s p) := vecRead_vecUpdate _ _ _ p.isLt
theorem portOf_onPort_other {p q : Nat} (f s) (h : q ≠ p) : portOf (onPort p f s) q = portOf s q := vecRead_vecUpdate_other _ _ _ h
@[simp] theorem ramanOf_onRaman (p : Fin 4) (f s) : ramanOf (onRaman p f s) p = f (ramanOf s p) := vecRead_vecUpdate _ _ _ p.isLt
theorem ramanOf_onRaman_other {p q : Nat} (f s) (h : q ≠ p) : ramanOf (onRaman p f s) q = ramanOf s q :=
  vecRead_vecUpdate_other _ _ _ h
@[simp] theorem rtdOf_onRtd (k : Fin 8) (f s) : rtdOf (onRtd k f s) k = f (rtdOf s k) := vecRead_vecUpdate _ _ _ k.isLt
theorem rtdOf_onRtd_other {k j : Nat} (f s) (h : j ≠ k) : rtdOf (onRtd k f s) j = rtdOf s j := vecRead_vecUpdate_other _ _ _ h
@[simp] theorem pageOf_onPage (t : Fin 2) (f s) : pageOf (onPage t f s) t = f (pageOf s t) := vecRead_vecUpdate _ _ _ t.isLt
theorem pageOf_onPage_other {t u : Nat} (f s) (h : u ≠ t) : pageOf (onPage t f s) u = pageOf s u := vecRead_vecUpdate_other _ _ _ h
@[simp] theorem transportOf_onTransport (t : Fin 4) (f s) : transportOf (onTransport t f s) t = f (transportOf s t) :=
  vecRead_vecUpdate _ _ _ t.isLt
theorem transportOf_onTransport_other {t u : Nat} (f s) (h : u ≠ t) : transportOf (onTransport t f s) u = transportOf s u :=
  vecRead_vecUpdate_other _ _ _ h
@[simp] theorem ethOf_onEth (n : Fin 2) (f s) : ethOf (onEth n f s) n = f (ethOf s n) := vecRead_vecUpdate _ _ _ n.isLt
theorem ethOf_onEth_other {n m : Nat} (f s) (h : m ≠ n) : ethOf (onEth n f s) m = ethOf s m := vecRead_vecUpdate_other _ _ _ h
@[simp] theorem queueOf_onQueue (q : Fin 8) (f s) : queueOf (onQueue q f s) q = f (queueOf s q) := vecRead_vecUpdate _ _ _ q.isLt
theorem queueOf_onQueue_other {q r : Nat} (f s) (h : r ≠ q) : queueOf (onQueue q f s) r = queueOf s r :=
  vecRead_vecUpdate_other _ _ _ h
@[simp] theorem dramOf_onDram (a : Fin 2) (f s) : dramOf (onDram a f s) a = f (dramOf s a) := vecRead_vecUpdate _ _ _ a.isLt
theorem dramOf_onDram_other {a b : Nat} (f s) (h : b ≠ a) : dramOf (onDram a f s) b = dramOf s b := vecRead_vecUpdate_other _ _ _ h
@[simp] theorem domainOf_onDomain (d : Fin 2) (f s) : domainOf (onDomain d f s) d = f (domainOf s d) := vecRead_vecUpdate _ _ _ d.isLt
theorem domainOf_onDomain_other {d e : Nat} (f s) (h : e ≠ d) : domainOf (onDomain d f s) e = domainOf s e :=
  vecRead_vecUpdate_other _ _ _ h
@[simp] theorem seqOf_onSeq (q : Fin 8) (f s) : seqOf (onSeq q f s) q = f (seqOf s q) := vecRead_vecUpdate _ _ _ q.isLt
theorem seqOf_onSeq_other {q r : Nat} (f s) (h : r ≠ q) : seqOf (onSeq q f s) r = seqOf s r := vecRead_vecUpdate_other _ _ _ h
@[simp] theorem toutOf_onTout (u : Fin 4) (f s) : toutOf (onTout u f s) u = f (toutOf s u) := vecRead_vecUpdate _ _ _ u.isLt
theorem toutOf_onTout_other {u v : Nat} (f s) (h : v ≠ u) : toutOf (onTout u f s) v = toutOf s v := vecRead_vecUpdate_other _ _ _ h

/-! ## Requests -/

/-- The command that may execute runs its handler on the state with the request taken from the queue. -/
theorem runCommand_of_mayExecute {code : Nat} {r : Request} {s : State} (h : mayExecute s code r) (f : Request → State → State) :
    runCommand code f s = f r (dequeue r s) := by
  obtain ⟨hn, o, ho, h9⟩ := h
  simp [runCommand, hn, ho, h9]

/-- Whether a request may execute, as a computation. -/
def canExecute (s : State) (code : Nat) (r : Request) : Bool := nextRequest code s == some r && (opRow code).map (step9 · r) == some none

theorem mayExecute_iff {s : State} {code : Nat} {r : Request} : mayExecute s code r ↔ canExecute s code r = true := by
  simp [mayExecute, canExecute]

/-- With no request of its opcode to execute a command does nothing. -/
theorem runCommand_none {code : Nat} {s : State} (h : nextRequest code s = none) (f : Request → State → State) : runCommand code f s = s := by
  simp [runCommand, h]

/-- An internal command at the head of the queue runs its handler. -/
theorem runInternal_of_head {r : Request} {s : State} {code : Nat} (h : internalAtHead s r code) {sel : Request → Bool} (hs : sel r = true)
    (f : Request → State → State) : runInternal sel f s = f r (dequeue r s) := by
  obtain ⟨hh, ht, -, hr, hj⟩ := h
  unfold runInternal
  cases hq : readyQueue s with
  | nil => simp [hq] at hh
  | cons x xs =>
    simp only [hq, List.head?_cons, Option.some.injEq] at hh
    subst hh
    simp [ht, hs, hr, hj]

@[simp] theorem dequeue_banks (r s) : (dequeue r s).banks = s.banks := rfl
@[simp] theorem dequeue_mode (r s) : (dequeue r s).mode = s.mode := rfl
@[simp] theorem dequeue_journal (r s) : (dequeue r s).journal = s.journal := rfl
@[simp] theorem dequeue_params (r s) : (dequeue r s).params = s.params := rfl

/-- Taking a request from the queue touches nothing but the queue. -/
theorem dequeue_untouched (r s) : plantUntouched s (dequeue r s) := by simp [plantUntouched, dequeue]

/-- A new journal entry takes the next identifier, is NOT_STARTED and stands first (R143). -/
theorem journalOpen_newest (r n s) : (journalOpen r n s).journal.newest = nextJournal s := rfl
theorem journalOpen_untouched (r n s) : plantUntouched s (journalOpen r n s) := by simp [plantUntouched, journalOpen]

/-- Updating an entry keeps the newest identifier. -/
@[simp] theorem onJournal_newest (n f s) : (onJournal n f s).journal.newest = s.journal.newest := rfl
@[simp] theorem journalStart_newest (n s) : (journalStart n s).journal.newest = s.journal.newest := rfl
@[simp] theorem journalStep_newest (n s) : (journalStep n s).journal.newest = s.journal.newest := rfl

/-! ## Events and answers: what they leave alone -/

/-- What `plantUntouched` compares, as one observer. -/
def plant (s : State) :=
  (s.power, s.clocks, s.straps, s.pins, s.mode, s.banks, s.booted, s.modeEntry, s.firmware, s.ports, s.herder, s.serif, s.raman,
    s.rtd, s.hk, s.pointer, s.inkstone, s.memory, s.time, s.safety, s.calib, s.ticks, s.free, s.pending)

theorem plantUntouched_iff {s t : State} : plantUntouched s t ↔ plant t = plant s := by
  simp [plantUntouched, plant]

theorem plantUntouched_trans {s t u : State} (h : plantUntouched s t) (k : plantUntouched t u) : plantUntouched s u :=
  plantUntouched_iff.2 ((plantUntouched_iff.1 k).trans (plantUntouched_iff.1 h))

/-- A parameter in force changes alone. -/
theorem paramPut_untouched (id : Nat) (idx : Nat) (v : Int) (s : State) : plantUntouched s (paramPut id idx v s) :=
  plantUntouched_iff.2 (paramPut_keep plant (by intros; rfl) id idx v s)

/-- A counter is a parameter; nothing of the plant moves. -/
theorem bump_untouched (id : Nat) (idx : Nat) (s : State) : plantUntouched s (bump id idx s) :=
  plantUntouched_iff.2 (bump_keep plant (by intros; rfl) id idx s)

/-- A frame for the peer waits in the link alone. -/
theorem segorSend_untouched (kind : Nat) (m : List Byte) (s : State) : plantUntouched s (segorSend kind m s) :=
  plantUntouched_iff.2 (segorSend_keep plant (by intros; rfl) kind m s)

/-- An event is a report: it reaches the queue, the log, the subscribers and nothing else (R138). -/
theorem post_untouched (code : Nat) (a0 : Int) (a1 : Int) (a2 : Int) (s : State) : plantUntouched s (post code a0 a1 a2 s) :=
  plantUntouched_iff.2 (post_keep plant (by intros; rfl) code a0 a1 a2 s)

/-- So is an event that Scribe alone posts. -/
theorem tell_untouched (code : Nat) (a0 : Int) (a1 : Int) (a2 : Int) (s : State) : plantUntouched s (tell code a0 a1 a2 s) :=
  plantUntouched_iff.2 (tell_keep plant (by intros; rfl) code a0 a1 a2 s)

/-- So does its start. -/
theorem journalStart_untouched (n : Nat) (s : State) : plantUntouched s (journalStart n s) :=
  plantUntouched_iff.2 (journalStart_keep plant (by intros; rfl) n s)

/-- And each of its steps. -/
theorem journalStep_untouched (n : Nat) (s : State) : plantUntouched s (journalStep n s) :=
  plantUntouched_iff.2 (journalStep_keep plant (by intros; rfl) n s)

/-- The end of a journal entry and its report leave the plant alone (R144). -/
theorem journalEnd_untouched (n : Nat) (j : JState) (status : Nat) (detail : Nat) (s : State) : plantUntouched s (journalEnd n j status detail s) :=
  plantUntouched_iff.2 (journalEnd_keep plant (by intros; rfl) n j status detail s)

/-- An answer waits for its transport; nothing of the plant moves. -/
theorem answerWith_untouched (flags : Nat) (holdsTag : Bool) (r : Request) (status : Nat) (detail : Nat) (body : List Byte) (s : State) : plantUntouched s (answerWith flags holdsTag r status detail body s) :=
  plantUntouched_iff.2 (answerWith_keep plant (by intros; rfl) flags holdsTag r status detail body s)

/-- An answer leaves the plant alone. -/
theorem answer_untouched (r : Request) (status : Nat) (detail : Nat) (body : List Byte) (s : State) : plantUntouched s (answer r status detail body s) :=
  plantUntouched_iff.2 (answer_keep plant (by intros; rfl) r status detail body s)

/-- A refusal leaves the plant alone. -/
theorem refuse_untouched (r : Request) (status : Nat) (detail : Nat) (s : State) : plantUntouched s (refuse r status detail s) :=
  plantUntouched_iff.2 (refuse_keep plant (by intros; rfl) r status detail s)

/-- So does an OK. -/
theorem answerOk_untouched (r : Request) (s : State) : plantUntouched s (answerOk r s) :=
  plantUntouched_iff.2 (answerOk_keep plant (by intros; rfl) r s)

/-- A violation is counted and reported (R122). -/
theorem violate_untouched (t : Nat) (status : Nat) (opcode : Nat) (first : List Byte) (s : State) : plantUntouched s (violate t status opcode first s) :=
  plantUntouched_iff.2 (violate_keep plant (by intros; rfl) t status opcode first s)

/-- The end of a session leaves the plant alone (R128). -/
theorem endSession_untouched (t : Nat) (s : State) : plantUntouched s (endSession t s) :=
  plantUntouched_iff.2 (endSession_keep plant (by intros; rfl) t s)

/-! ## Events -/

/-- Scribe's own events are posted while events can be. -/
theorem tell_eq (c a b d s) : Machine.tell c a b d s = if canPost s then post c a b d s else s := rfl

/-- An event takes the next sequence (R138). -/
@[simp] theorem post_seq (c a b d s) : (post c a b d s).evq.seq = s.evq.seq + 1 := by
  have hsend : ∀ x k s, (eventSend x k s).evq.seq = s.evq.seq := fun x k s => eventSend_keep (·.evq.seq) (by intros; rfl) _ _ _
  unfold post
  refine (forEach_keep (·.evq.seq) (eventSend _) (hsend _) _ _).trans ?_
  rw [logPost_keep (·.evq.seq) (by intros; rfl)]
  have hirq : ∀ k s, (irqBoth k s).evq.seq = s.evq.seq := fun k s => irqBoth_keep (·.evq.seq) (by intros; rfl) _ _
  unfold evqWrite
  dsimp only
  split <;> simp [hirq, fun s => bump_keep (·.evq.seq) (by intros; rfl) Pid.hostEvqLost 0 s]

/-! ## The mode, the leash and emission -/

/-- Without OWN nothing emits (R475, R498). -/
theorem emissionOff_of_own {s : State} (h : s.pair.own = false) : emissionOff s := by
  intro p
  simp [emitEn, swsel, h]

/-- Settling the emission chain changes no FIRE term. -/
@[simp] theorem settle_fire (o s : State) : (settle o s).safety.fire = s.safety.fire := by
  unfold settle
  refine (forEach_keep (·.safety.fire) _ (fun _ _ => cutPort_keep (·.safety.fire) (by intros; rfl) _ _ _) _ _).trans ?_
  simp [relight]

/-- Settling the emission chain changes neither the pair nor the mode. -/
@[simp] theorem settle_pair (o s : State) : (settle o s).pair = s.pair := settle_keep (·.pair) (by intros; rfl) _ _
@[simp] theorem settle_mode (o s : State) : (settle o s).mode = s.mode := settle_keep (·.mode) (by intros; rfl) _ _

/-- The state of a mode change once the leash has followed it. -/
def leashed (m : Mode) (s : State) : State := modeLeash (onMode (fun x => { x with previous := x.current, current := m }) s)

/-- What a mode change leaves for an observer that sees neither reports, records and lines, lamps and cut shots nor the grids: what
the leash left, with the FIRE terms of the mode (R78, R475, R498). -/
theorem setMode_obs {β : Type} (ob : State → β) (m : Mode) (n : Nat) (s : State)
    (hports : ∀ (s : State) v, ob { s with ports := v } = ob s)
    (hs : ∀ o s, ob (settle o s) = ob s) (hb : ∀ i j s, ob (bump i j s) = ob s) (hj : ∀ f c s, ob (endJobs f c s) = ob s)
    (hp : ∀ f s, ob (onPtr f s) = ob s) (hu : ∀ c s, ob (updateMasterArm c s) = ob s) (hpost : ∀ c a b d s, ob (post c a b d s) = ob s) :
    ob (setMode m n s) = ob (onSafety (fun x => { x with fire := modeFire (leashed m s) }) (leashed m s)) := by
  unfold setMode leashed
  dsimp only
  (repeat' split) <;> simp only [hpost, hu, hp, hj, hb, hs, hports]

/-- A mode change records the mode it leaves and shows the new one (R78). -/
@[simp] theorem setMode_mode (m : Mode) (n : Nat) (s : State) :
    (setMode m n s).mode = { s.mode with previous := s.mode.current, current := m } := by
  rw [setMode_obs (·.mode) m n s (by intros; rfl) (by simp) (fun i j s => bump_keep (·.mode) (by intros; rfl) _ _ _)
    (fun _ _ _ => endJobs_keep (·.mode) (by intros; rfl) _ _ _) (by simp) (fun _ _ => updateMasterArm_keep (·.mode) (by intros; rfl) _ _)
    (fun _ _ _ _ _ => post_keep (·.mode) (by intros; rfl) _ _ _ _ _)]
  exact modeLeash_keep (·.mode) (by intros; rfl) _

/-- The FIRE terms after a mode change are the mode's. -/
theorem setMode_fire (m : Mode) (n : Nat) (s : State) : (setMode m n s).safety.fire = modeFire (leashed m s) := by
  rw [setMode_obs (·.safety.fire) m n s (by intros; rfl) (by simp) (fun i j s => bump_keep (·.safety.fire) (by intros; rfl) _ _ _)
    (fun _ _ _ => endJobs_keep (·.safety.fire) (by intros; rfl) _ _ _) (by simp)
    (fun _ _ => updateMasterArm_keep (·.safety.fire) (by intros; rfl) _ _) (fun _ _ _ _ _ => post_keep (·.safety.fire) (by intros; rfl) _ _ _ _ _)]
  rfl

/-- The leash after a mode change is the one that the mode takes. -/
theorem setMode_own (m : Mode) (n : Nat) (s : State) : (setMode m n s).pair.own = (leashed m s).pair.own := by
  rw [setMode_obs (·.pair.own) m n s (by intros; rfl) (by simp) (fun i j s => bump_keep (·.pair.own) (by intros; rfl) _ _ _)
    (fun _ _ _ => endJobs_keep (·.pair.own) (by intros; rfl) _ _ _) (by simp)
    (fun _ _ => updateMasterArm_keep (·.pair.own) (by intros; rfl) _ _) (fun _ _ _ _ _ => post_keep (·.pair.own) (by intros; rfl) _ _ _ _ _)]
  rfl

@[simp] theorem leashed_mode (m : Mode) (s : State) : (leashed m s).mode.current = m := by
  have := modeLeash_keep (·.mode.current) (by intros; rfl) (onMode (fun x => { x with previous := x.current, current := m }) s)
  exact this

/-- A mode that does not fire gives no FIRE term (R77, R498). -/
theorem setMode_dark (m : Mode) (n : Nat) (s : State) (h : m ∉ [Mode.run, .sentinel, .survey, .handover]) : (setMode m n s).safety.fire = 0 := by
  rw [setMode_fire]
  unfold modeFire
  rw [leashed_mode]
  cases m <;> simp_all

/-- A mode change keeps the confinement of FIRE. -/
theorem setMode_fireConfined (m : Mode) (n : Nat) (s : State) : (setMode m n s).fireConfined := by
  by_cases h : m ∈ [Mode.run, .sentinel, .survey, .handover]
  · exact .inl (by simpa using h)
  · exact .inr (setMode_dark m n s h)

/-- RESET, BOOT, CONFIG, MIRROR, TEST and FAULT release the leash (R475). -/
theorem setMode_releases (m : Mode) (n : Nat) (s : State) (h : m ∈ [Mode.reset, .boot, .config, .mirror, .test, .fault]) :
    (setMode m n s).pair.own = false := by
  rw [setMode_own]
  unfold leashed modeLeash
  dsimp only
  split <;> cases m <;> simp_all [stopDriving]

/-- So nothing emits there. -/
theorem setMode_emissionOff (m : Mode) (n : Nat) (s : State) (h : m ∈ [Mode.reset, .boot, .config, .mirror, .test, .fault]) :
    emissionOff (setMode m n s) := emissionOff_of_own (setMode_releases m n s h)

end Sys2Proof.Machine
end

