-- ==== Sys2Proof/Machine/Balls.lean ====
section
/-! DEFINITION. The levels of the output balls (chapter 02), each computed from the state: the port balls (R30 to R32), the lamps and
sensor drives (R33 to R35), the right edge (R37, R39), the host region (R41) and the DRAM (R44). -/

namespace Sys2Proof.Machine

/-- What an output ball does (R29): a logic level, undriven (Z, or an open-drain line released), idle, or driven with a signal. -/
inductive Level where
  | low | high | z | idle | active
  deriving DecidableEq, Repr

/-- Level of a logic output. [DESIGN CHOICE, notes/assumptions/126] -/
def levelOf (high : Bool) : Level := if high then .high else .low

/-- Level of an open-drain output: low while it is driven, else released. [DESIGN CHOICE, notes/assumptions/126] -/
def drainOf (driven : Bool) : Level := if driven then .low else .z

/-- The device is in RESET, or unpowered. -/
def ballsReset (s : State) : Bool := s.mode.current == .reset || !s.power.aon

/-- The island of port `p` is powered (R18, R30). [DESIGN CHOICE, notes/assumptions/126] -/
def islandOn (s : State) (p : Nat) : Bool := (portOf s p).awake || s.calib.trimming.getLsbD p

/-- GATEp (R30, R32, R155); 0 throughout a test instruction (R459). [DESIGN CHOICE, notes/assumptions/126] -/
def gateBall (s : State) (p : Nat) : Level :=
  if ballsReset s || s.links.jtagTest then .low else if islandOn s p then levelOf (gateOpen s p) else .z

/-- RAMTRGp (R30, R32, R156); 0 throughout a test instruction (R459). [DESIGN CHOICE, notes/assumptions/126] -/
def ramTrgBall (s : State) (p : Nat) : Level :=
  if ballsReset s || s.links.jtagTest then .low else if islandOn s p then levelOf (ramTrgHigh s p) else .z

/-- Codes of PRBp_I and PRBp_Q (R30, R151, R154): zero at common mode in Reset and Off. [DESIGN CHOICE, notes/assumptions/126] -/
def prbBalls (s : State) (p : Nat) : Int × Int := if ballsReset s || !islandOn s p then (0, 0) else prbCode s p

/-- EMITp_EN (R31, R499). -/
def emitBall (s : State) (p : Nat) : Level := levelOf (emitEn s p)

/-- SWSELp (R31, R499). -/
def swselBall (s : State) (p : Nat) : Level := levelOf (swsel s p)

/-- LEDj (R34, R510): a sink while the channel is driven, else Z. [DESIGN CHOICE, notes/assumptions/126] -/
def ledBall (s : State) (j : Nat) : Level := if ledNow s j then .active else .z

/-- RTDk_IEX (R33, R284): the excitation current, else Z. [DESIGN CHOICE, notes/assumptions/126] -/
def rtdBall (s : State) (k : Nat) : Level := if (rtdOf s k).running && !ballsReset s then .active else .z

/-- REXT_F (R35, R284): driven while a measurement runs. [DESIGN CHOICE, notes/assumptions/126] -/
def rextBall (s : State) : Level := if s.rtd.any (·.running) && !ballsReset s then .active else .z

/-- TOUTu (R37, R415). -/
def toutBall (s : State) (u : Nat) : Level :=
  if ballsReset s then .low else levelOf ((toutOf s u).active == paramBool s Pid.toutPolarity u)

/-- TRG_ARM_N (R37, R316). -/
def armBall (s : State) : Level := drainOf (trgArmDriven s && !ballsReset s)

/-- TRG_FIRE_N (R37, R318). -/
def fireBall (s : State) : Level := drainOf (s.pointer.fireOut && !ballsReset s)

/-- ILK_N (R37, R474, R499): released in RESET (R39). -/
def ilkBall (s : State) : Level := drainOf (s.pair.driving && !ballsReset s && !s.links.jtagTest)

/-- HB_OUT (R39, R471): the heartbeat toggles while barks are sent and the pair watchdog is serviced; held at 0 in RESET. [DESIGN CHOICE, notes/assumptions/126] -/
def hbBall (s : State) : Level := if barksSent s && s.pair.watchdogOk && !ballsReset s then .active else .low

/-- SGR_TX (R37): idle in Reset, Z while the pair link is powered down (R18). [DESIGN CHOICE, notes/assumptions/126] -/
def segorBall (s : State) : Level :=
  if ballsReset s then .idle else if pairEnabled s then .active else .z

/-- PE_WAKE_N (R41, R431). -/
def wakeBall (s : State) : Level := drainOf (s.links.peWake && !ballsReset s)

/-- SPIT_IRQ_N (R110): low while an enabled bit of the SPI pair is set. [DESIGN CHOICE, notes/assumptions/126] -/
def spiIrqBall (s : State) : Level := drainOf (!ballsReset s && (pageOf s 1).irqStatus &&& (pageOf s 1).irqEnable != 0)

/-- SPIT_MISO and JTAG_TDO between transactions (R41). [DESIGN CHOICE, notes/assumptions/126] -/
def shiftOutBall : Level := .z

/-- QSPI_CLK between flash accesses (R41). [DESIGN CHOICE, notes/assumptions/126] -/
def qspiClkBall : Level := .low

/-- QSPI_CS_N (R41): pulled up in Reset, 1 between flash accesses. [DESIGN CHOICE, notes/assumptions/126] -/
def qspiCsBall : Level := .high

/-- CON_TX between characters (R41). [DESIGN CHOICE, notes/assumptions/126] -/
def consoleBall : Level := .high

/-- DRAM port `a` is out of reset (R44): online or training, or in partial-array self-refresh. -/
def dramUp (s : State) (a : Nat) : Bool :=
  !ballsReset s && ((dramOf s a).state == .online || (dramOf s a).state == .training || (dramOf s a).pasr)

/-- DDRa_RESET_N (R44). [DESIGN CHOICE, notes/assumptions/126] -/
def dramResetBall (s : State) (a : Nat) : Level := levelOf (dramUp s a)

/-- The CKE balls of DRAM port `a` (R44): low in partial-array self-refresh. [DESIGN CHOICE, notes/assumptions/126] -/
def dramCkeBall (s : State) (a : Nat) : Level := levelOf (dramUp s a && !(dramOf s a).pasr)

/-- CK of DRAM port `a` (R44): stopped low in Reset; it runs while CKE is high. [DESIGN CHOICE, notes/assumptions/126] -/
def dramCkBall (s : State) (a : Nat) : Level := if dramUp s a && !(dramOf s a).pasr then .active else .low

end Sys2Proof.Machine
end

