-- ==== Sys2Proof/Tests/Slice0.lean ====
section
/-! SUPPORT. Small tests of the model, and for each statement of the obligations one theorem (`hyps_` and its name) that shows states and
operands meeting the hypotheses of its clauses. -/

open Sys2Proof Sys2Proof.Machine

namespace Sys2Proof.Tests

set_option Elab.async false

/-! ## Well-formedness: an ill-formed term for each check, which the check refuses -/

theorem test_wf_loopi : (Instr.loopi 0 0 0).wellFormed = false ∧ (Instr.loopi 0 0 1).wellFormed = true := by decide
theorem test_wf_dbnz : (Instr.dbnz 0 0 0).wellFormed = false ∧ (Instr.dbnz 0 0 0xFFFF).wellFormed = true := by decide
theorem test_wf_shifts : (Instr.shli 0 0 0 24).wellFormed = false ∧ (Instr.shrai 0 0 0 24).wellFormed = false ∧
    (Instr.shrli 0 0 0 24).wellFormed = false ∧ (Instr.shrri 0 0 0 24).wellFormed = false ∧ (Instr.shrri 0 0 0 23).wellFormed = true := by decide
theorem test_wf_sizes : (Instr.ld 0 0 0 0 0 false).wellFormed = false ∧ (Instr.st 0 0 0 0 0).wellFormed = false ∧
    (Instr.out 0 0 0).wellFormed = false ∧ (Instr.ld 0 0 0 0 3 true).wellFormed = true := by decide
theorem test_wf_pairs : (Instr.ldpt 0 1 0 0).wellFormed = false ∧ (Instr.inInsn 0 15).wellFormed = false ∧ (Instr.inInsn 0 14).wellFormed = true := by
  decide
theorem test_wf_feat : (Instr.feat 0 0 0 0 3).wellFormed = false ∧ (Instr.feat 0 0 0 0 2).wellFormed = true := by decide
theorem test_wf_ext : (Instr.ext 0 0 0 49).wellFormed = false ∧ (Instr.ext 0 0 0 48).wellFormed = true := by decide
/-- A shift above 23 runs with a free value. -/
theorem test_shift_beyond_runs : ∃ t, exec (.shli 0 0 0 24) State.reset = .next t ∧ (laneOf t 0).pc = 1 := by
  refine ⟨_, rfl, ?_⟩
  simp only [onLaneFree]
  exact (congrArg Lane.pc (laneOf_onLane (laneRetire_ne _ _))).trans rfl

/-! ## Serif words, written out from R257: the opcode in bits 31 to 26, then the fields at their places -/

/-- 0x10 ADD, d 3 in 25–22, a 2 in 21–18, b 2 in 17–14. -/
theorem test_word_add : decodeSerif 0 0x40C88000 = some (.add 0 3 2 2) := by decide
theorem test_word_nop : decodeSerif 5 0x00000000 = some (.nop 5) := by decide
/-- 0x05 DBNZ, c 1 in 25–24, offset −8 in 15–0. -/
theorem test_word_dbnz : decodeSerif 0 0x1500FFF8 = some (.dbnz 0 1 0xFFF8) := by decide
/-- 0x08 LDI, d 3 in 25–22, −1 in 15–0. -/
theorem test_word_ldi : decodeSerif 0 0x20C0FFFF = some (.ldi 0 3 0xFFFF) := by decide
theorem test_word_ld : decodeSerif 0 0xA14AE000 = some (.ld 0 5 1 2 3 true) := by decide
theorem test_word_mac : decodeSerif 0 0xC6050000 = some (.mac 0 2 1 4) := by decide
theorem test_word_sel : decodeSerif 0 0x84108000 = some (.sel 0 0 4 2 0) := by decide
/-- 0x0F GETF, d 1 in 25–22. -/
theorem test_word_getf : decodeSerif 0 0x3C400000 = some (.getf 0 1) := by decide
/-- A reserved opcode, a reserved bit and a size of 0 spell nothing. -/
theorem test_word_refused : decodeSerif 0 0x1C000000 = none ∧ decodeSerif 0 0x00000001 = none ∧ decodeSerif 0 0xA1480000 = none := by decide

/-! ## Worked examples of spec/ -/

/-- R263's worked example: the strain-rate program costs k = 15 and S = 7. -/
theorem test_program_cost : programCost [.movs 0 0 13, .seta 0 0 0, .setai 0 8 3, .setai 0 9 0, .movs 0 1 5, .movs 0 2 6, .loopp 0 0, .inInsn 0 4,
    .inInsn 0 6, .subw 0 8 6 4, .ld 0 9 0 1 3 true, .st 0 8 0 0 3, .subw 0 10 8 9, .or 0 11 5 7, .shrli 0 11 11 16, .out 0 10 3, .out 0 11 1, .abs 0 12 10,
    .feat 0 0 12 1 0, .add 0 1 1 2, .dbnz 0 0 0xFFF3, .endInsn 0] = (15, 7) := by decide +kernel

/-- The same example: 0x80_1200 − 0x7F_F000 across the wrap is 0x2200. -/
theorem test_subw_wraps : (match exec (.subw 9 8 6 4) (onLane 9 (fun x => { x with x := (x.x.set 4 0x7FF000#24).set 6 0x801200#24 }) State.reset) with
    | .next t => (laneOf t 9).x.get 8 | _ => 0) = 0x2200#24 := by decide +kernel

/-- The block of R342's worked example: six elements, mode 1, s = 1, k0 = 3, payload 39 20 35. -/
def exampleHeader : BlockHeader :=
  { size := 28, stored := false, mode := 1, component := 0, k0 := 3, n := 6, stride := 1, dref := 0, zone := 0, first := 0, length := 3, round := 0, seq := 0,
    holdover := false, checkpoint := true }
theorem test_block_decodes : (match decodePayload exampleHeader [] [0x39, 0x20, 0x35] with | .ok xs => xs | .error _ => []) =
    [5, 9, 8, 8, 8, 8] := by decide +kernel

/-- R530's worked example on RTD channel 2: gain 16,773,861 and offset −20 mΩ from 100.040 Ω and 300.080 Ω. -/
theorem test_rtd_syscal : (sysCal (100000, 100040 * 2 ^ 24, 0) (300000, 300080 * 2 ^ 24, 0) State.reset).1 = (16773861, -20) := by decide +kernel

/-- R254: an accumulator frozen at its limit gives the limit of 24 bits by EXT, at any shift. -/
theorem test_ext_frozen : (match exec (.ext 9 1 0 48) (onLane 9 (fun x => { x with m := x.m.set 0 (BitVec.ofInt 56 (2 ^ 55 - 1)), flags := 0x008#9 }) State.reset) with
    | .next t => (laneOf t 9).x.get 1 | _ => 0) = 0x7FFFFF#24 := by decide +kernel

/-- R258: after REP 3 an ADDW runs three times in three cycles. -/
theorem test_rep_runs : (match exec (.addw 9 1 1 2) (onLane 9 (fun x => { x with x := x.x.set 2 5#24, rep := some 3 }) State.reset) with
    | .next t => ((laneOf t 9).x.get 1, (laneOf t 9).cycles, (laneOf t 9).rep) | _ => (0, 0, none)) = (15#24, 3, none) := by decide +kernel

/-! ## Witnesses: states and operands that meet the hypotheses of each statement, clause by clause -/

/-- The device right after reset, with Scribe serving, in mode `m`. -/
def inMode (m : Mode) : State :=
  { State.reset with mode := { State.reset.mode with current := m }, scribe := { State.reset.scribe with ready := true } }

/-- A request of a PCIe session. -/
def rq (code : Nat) (payload : List Byte) : Request := { transport := 0, opcode := code, tag := 1, session := 1, payload := payload }

/-- `s` with that request alone in the queue. -/
def ask (code : Nat) (payload : List Byte) (s : State) : State := { s with scribe := { s.scribe with queue := [rq code payload] } }

/-- `s` with an internal command alone in the queue. -/
def self (code : Nat) (payload : List Byte) (s : State) : State :=
  { s with scribe := { s.scribe with queue := [{ transport := 4, opcode := code, payload := payload }] } }

/-- `s` with parameter `id` of index 0 set to `v`. -/
def setP (id : Nat) (v : Int) (s : State) : State := paramPut id 0 v s

/-- The default bank enables no zone, so that its checks and plans have none to look at. -/
theorem default_zone (z : Nat) (h : z < 1024) : bankRead {} Pid.zoneEnable z = 0 := by
  have e : paramKey Pid.zoneEnable z / 65536 = Pid.zoneEnable := by unfold paramKey; omega
  have r : ∃ d, paramRow Pid.zoneEnable = some d ∧ d.dflt = .const 0 := by
    have k : (paramRow Pid.zoneEnable).any (fun d => decide (d.dflt = .const 0)) = true := by decide +kernel
    cases q : paramRow Pid.zoneEnable <;> simp_all
  obtain ⟨d, hd, hi⟩ := r
  show paramDefault (paramKey Pid.zoneEnable z) = 0
  unfold paramDefault
  rw [e, hd]
  simp [rowDefault, hi]

/-- So its plan is empty. -/
theorem admit_default (lim : PlanLimits) (k : Bool) : admitPlan {} [] lim k = planOf (portRun {} k) lim [] := by
  have z : enabledZones {} = [] := by
    unfold enabledZones
    simp only [List.filter_eq_nil_iff, List.mem_range]
    intro z hz
    simp [default_zone z hz]
  have l : planLoads {} [] k = [] := by
    unfold planLoads
    simp only [z]
    rfl
  have e : degrade (portRun {} k) lim (planSteps []) [] = [] := rfl
  have r : restorePass (portRun {} k) lim [] [] = [] := rfl
  unfold admitPlan
  simp only [l, e, List.map_nil, r, ite_self]

/-- And its checks pass. -/
theorem validate_default : validate {} [] = none := by
  have z : zonesOn {} = [] := by
    unfold zonesOn
    simp only [List.filter_eq_nil_iff, List.mem_range]
    intro z hz
    simp [default_zone z hz]
  unfold validate ramanChecks
  simp only [z]
  decide +kernel

def item (id idx v : Nat) : List Byte := leBytes 2 id ++ leBytes 2 idx ++ leBytes 8 v
def list1 (id idx v : Nat) : List Byte := leBytes 2 1 ++ leBytes 2 0 ++ item id idx v

theorem error_of {ε α : Type} [DecidableEq ε] {x : Except ε α} {e : ε}
    (h : (match x with | .error f => decide (f = e) | .ok _ => false) = true) : x = .error e := by
  cases x <;> simp_all

/-- `s` with parameter `id` of index `i` of the ACTIVE bank set to `v`. -/
def setA (id i : Nat) (v : Int) (s : State) : State :=
  { s with banks := { s.banks with active := bankWrite s.banks.active id i v } }

/-- Meets the hypotheses of IdleTickPasses. -/
theorem hyps_IdleTickPasses : State.reset.pending = [] := by decide

/-- Meets the hypotheses of ResetCausesEnterReset. -/
theorem hyps_ResetCausesEnterReset : State.reset.power.aon = true ∧ State.reset.mode.current ≠ .reset := by decide

/-- The device in RESET with every rail good. -/
def held : State := { inMode .reset with power := { State.reset.power with resetHeld := true } }

/-- Meets the hypotheses of PowerUpAndRelease. -/
theorem hyps_PowerUpAndRelease : { State.reset with power := { State.reset.power with aon := false } }.power.aon = false ∧
    (held.mode.current = .reset ∧ held.power.aon = true ∧ held.power.coreOk = true ∧ held.power.railStatus = 0x1FFF) ∧
    (State.reset.mode.current = .boot ∧ State.reset.pins.strapsSampled = false) ∧ (inMode .run).mode.current ≠ .boot := by decide +kernel

/-- Meets the hypotheses of RailsAndStrapWatch. -/
theorem hyps_RailsAndStrapWatch : (railBit .io33 = some 9 ∧ (inMode .run).mode.current ≠ .reset ∧ (inMode .run).power.aon = true) ∧
    vecRead State.reset.power.portOos 3 true = false ∧
    (railBit .hk = some 8 ∧ ¬(Rail.hk = .io33 ∧ State.reset.mode.faultCode = 3)) ∧
    (held.mode.current = .reset ∧ held.mode.faultCode = 0) ∧
    { inMode .fault with mode := { (inMode .fault).mode with faultCode := 3 } }.mode.faultCode = 3 ∧
    (scribeRuns (inMode .run) = true ∧ true ≠ (inMode .run).straps.unitId ∧ (inMode .run).pins.strapLogged = false) ∧
    (scribeRuns { inMode .run with pins := { State.reset.pins with strapLogged := true } } = true) := by decide +kernel

/-- RUN with SENTINEL configured for a loss of feed A. -/
def feedRun : State := setP Pid.powerFeedALossAction 1 (inMode .run)
/-- RUN with feed A lost. -/
def lostA : State := { inMode .run with power := { State.reset.power with feedGood := #v[false, true] } }

/-- Meets the hypotheses of FeedsLostAndRestored. -/
theorem hyps_FeedsLostAndRestored :
    ((inMode .run).power.feedGood.get (0 : Fin 2) = true ∧ scribeRuns (inMode .run) = true ∧
      feedAction (setP Pid.powerFeedALossAction 0 (inMode .run)) 0 = 0 ∧ feedHandover (inMode .run) = false ∧ (inMode .run).power.feedGood.get (1 - 0 : Fin 2) = true) ∧
    (feedRun.power.feedGood.get (1 : Fin 2) = true ∧ canPost feedRun = true) ∧
    (feedRun.power.feedGood.get (0 : Fin 2) = true ∧ scribeRuns feedRun = true ∧ feedAction feedRun 0 ≠ 0 ∧ feedHandover feedRun = false ∧
      feedActionFits feedRun (feedAction feedRun 0) = true) ∧
    (lostA.power.aon = true ∧ lostA.power.feedGood.get (0 : Fin 2) = false) := by decide +kernel

/-- CONFIG with REFIN present, and with it forced. -/
def withRef : State := { inMode .config with clocks := { State.reset.clocks with refinPresent := true, refinHz := 10000000, locked := 0x1F } }
def switching : State := { withRef with clocks := { withRef.clocks with switchTo := some .refin } }

/-- Meets the hypotheses of ReferencesSwitch. -/
theorem hyps_ReferencesSwitch : withRef.mode.current ≠ .reset ∧ (withRef.clocks.refinPresent = true ∧ refForced withRef 0 = false) ∧
    (withRef.clocks.refinPresent = true ∧ refForced (setP Pid.clkRefSelect 1 withRef) 0 = true ∧ scribeRuns withRef = true) ∧
    ({ withRef with clocks := { withRef.clocks with ocxoPresent := true } }.clocks.ocxoPresent = true ∧ refForced withRef 1 = false) ∧
    (scribeRuns withRef = true ∧ withRef.clocks.corePllLost = false ∧ withRef.clocks.switchTo = none ∧ wantedRef withRef ≠ withRef.clocks.inUse) ∧
    (switching.clocks.switchTo = some .refin ∧ scribeRuns switching = true) ∧ withRef.mode.current ≠ .fault := by decide +kernel

/-- Meets the hypotheses of PllsLoseLock. -/
theorem hyps_PllsLoseLock : (withRef.clocks.switchTo = none ∧ pllLocked withRef 0 = true) ∧
    ((inMode .config).mode.current ≠ .reset ∧ (inMode .config).mode.current ≠ .boot ∧ pllLocked (inMode .config) 0 = false) ∧
    ({ withRef with clocks := { withRef.clocks with corePllLost := true } }.clocks.corePllLost = true ∧ withRef.mode.current ≠ .reset ∧ withRef.mode.current ≠ .fault) ∧
    pllLocked withRef 3 = true ∧ pllLocked withRef 4 = true := by decide +kernel

/-- A junction temperature that every grade counts as too hot. -/
theorem hyps_PllsLoseLock_thermal : gradeMax + 80 ≤ 1840 := by unfold gradeMax; split <;> decide

/-- Meets the hypotheses of FaultIsLatched. -/
theorem hyps_FaultIsLatched : ((inMode .run).mode.current ≠ .reset ∧ (inMode .run).mode.current ≠ .fault) ∧ (inMode .fault).mode.current = .fault := by decide

/-- BOOT of a unit whose images both fail, and BOOT with the store clear done. -/
def noImage : State := { State.reset with firmware := { State.reset.firmware with slots := #v[{}, {}] } }
def booting : State := { State.reset with mode := { State.reset.mode with imageRunning := true, sramCleared := true } }
def waiting : State := { inMode .run with firmware := { State.reset.firmware with confirmFrom := some 0 }, ticks := secTicks 100000 }
def doomed (k : Nat) : State := { inMode .run with scribe := { State.reset.scribe with ready := true, delayedReset := some k } }

/-- Meets the hypotheses of BootAndRestarts, but that a recovery image verifies, which Config.imageVerifies leaves free (R99). -/
theorem hyps_BootAndRestarts : (State.reset.mode.current = .boot ∧ State.reset.mode.imageRunning = false ∧ State.reset.mode.bootNoImage = false ∧
      State.reset.straps.bootRecover = false ∧ preferredBoots State.reset = true) ∧
    (noImage.mode.current = .boot ∧ (slotOf noImage 0).verifies = false ∧ (slotOf noImage 1).verifies = false) ∧
    (booting.mode.current = .boot ∧ booting.mode.imageRunning = true ∧ booting.mode.sramCleared = true) ∧
    ({ State.reset with mode := { State.reset.mode with bootNoImage := true } }.mode.bootNoImage = true) ∧
    (scribeRuns (inMode .run) = true ∧ (inMode .run).scribe.restarting = false) ∧
    ({ inMode .run with scribe := { State.reset.scribe with restarting := true } }.scribe.restarting = true ∧ ((inMode .run).journal.entries.map (·.ident)).Nodup) ∧
    (waiting.firmware.confirmFrom = some 0 ∧ 0 + secTicks (paramNat waiting Pid.fwConfirmTimeoutS 0) ≤ waiting.ticks) ∧
    (doomed 0).scribe.delayedReset = some 0 ∧ (doomed 1).scribe.delayedReset = some (0 + 1) := by decide +kernel

/-- The request of a mode, and of an internal command's mode. -/
def cfg : State := ask 0x0300 [6, 0, 0, 0] (inMode .config)
def wrong : State := ask 0x0300 [8, 0, 0, 0] (inMode .config)
def busy : State := { cfg with mode := { cfg.mode with inProgress := some { number := 10, target := .dormant, origin := .none } } }
def switchingBank : State := { inMode .run with banks := { State.reset.banks with switch := some ⟨0, 0xF, {}⟩ } }

/-- Meets the hypotheses of ModeRequestsStart. -/
theorem hyps_ModeRequestsStart : (mayExecute cfg 0x0300 (rq 0x0300 [6, 0, 0, 0]) ∧ cfg.banks.switch = none ∧ modeOfCode (field [6, 0, 0, 0] 0 1) = some .dormant ∧
      (restorePorts (dequeue (rq 0x0300 [6, 0, 0, 0]) cfg)).mode.inProgress = none ∧
      askedFor (restorePorts (dequeue (rq 0x0300 [6, 0, 0, 0]) cfg)) .dormant = some { number := 10, target := .dormant } ∧
      askedStatus (restorePorts (dequeue (rq 0x0300 [6, 0, 0, 0]) cfg)) { number := 10, target := .dormant } = 0) ∧
    (mayExecute wrong 0x0300 (rq 0x0300 [8, 0, 0, 0]) ∧ modeOfCode (field [8, 0, 0, 0] 0 1) = some .handover ∧
      (restorePorts (dequeue (rq 0x0300 [8, 0, 0, 0]) wrong)).mode.inProgress = none ∧
      askedFor (restorePorts (dequeue (rq 0x0300 [8, 0, 0, 0]) wrong)) .handover = none) ∧
    (mayExecute busy 0x0300 (rq 0x0300 [6, 0, 0, 0]) ∧ (restorePorts (dequeue (rq 0x0300 [6, 0, 0, 0]) busy)).mode.inProgress.isSome = true) ∧
    switchingBank.banks.switch.isSome = true := by
  simp only [mayExecute_iff]; decide +kernel

/-- SENTINEL on its way to CONFIG, and a survey of port 3. -/
def leaving : State := { inMode .sentinel with mode := { (inMode .sentinel).mode with inProgress := some { number := 14, target := .config, origin := .none } } }
def surveying : State := { inMode .survey with ports := State.reset.ports.set 3 { (portOf State.reset 3) with surveying := true } }

/-- Meets the hypotheses of TransitionsComplete. -/
theorem hyps_TransitionsComplete : (leaving.mode.inProgress = some { number := 14, target := .config, origin := .none } ∧
      Mode.config ∈ [Mode.config, .survey, .run, .sentinel, .dormant, .mirror, .test]) ∧
    (surveying.mode.current = .survey ∧ (portOf surveying 3).surveying = true) := by decide +kernel

/-- The emission chain permits, port 0 is enabled and the bank is admitted; scribe's own request for RUN waits. -/
def chainOk (s : State) : State :=
  { s with
    mode := { s.mode with admitted := true }
    banks := { s.banks with active := { s.banks.active with params := Store.write paramDefault s.banks.active.params (paramKey Pid.portEnable 0) 1 } }
    safety := { s.safety with key := true, loop := true, leds := Vector.replicate 16 { proven := true, litGood := true, lit := true } } }
def wantsRun : State := self 0x0300 [4, 0, 0, 0] (chainOk (inMode .config))
def lostFeed : State := self 0x0300 [5, 0, 0, 0] (inMode .run)
def expired : State := { inMode .run with banks := { State.reset.banks with trial := true, previous := some {} } }
def reverting : State := self 0x0203 (leBytes 4 0) expired
def confirmed : State := self 0x0203 (leBytes 4 0) (inMode .run)
def own (code : Nat) (payload : List Byte) : Request := { transport := 4, opcode := code, payload := payload }

/-- Meets the hypotheses of InternalCommandsRun. -/
theorem hyps_InternalCommandsRun :
    (internalAtHead wantsRun (own 0x0300 [4, 0, 0, 0]) 0x0300 ∧ field (own 0x0300 [4, 0, 0, 0]).payload 0 1 = 4 ∧ wantsRun.banks.switch = none ∧
      (restorePorts (journalOpen (own 0x0300 [4, 0, 0, 0]) 1 (dequeue (own 0x0300 [4, 0, 0, 0]) wantsRun))).mode.inProgress = none ∧
      wantsRun.mode.current = .config ∧ mayRun (restorePorts (journalOpen (own 0x0300 [4, 0, 0, 0]) 1 (dequeue (own 0x0300 [4, 0, 0, 0]) wantsRun))) = true ∧
      askedStatus (restorePorts (journalOpen (own 0x0300 [4, 0, 0, 0]) 1 (dequeue (own 0x0300 [4, 0, 0, 0]) wantsRun)))
        { number := 5, target := .run, fires := true, admits := true } = 0) ∧
    (internalAtHead lostFeed (own 0x0300 [5, 0, 0, 0]) 0x0300 ∧ field (own 0x0300 [5, 0, 0, 0]).payload 0 1 = 5 ∧ lostFeed.banks.switch = none ∧
      lostFeed.mode.inProgress = none ∧ lostFeed.mode.current = .run) ∧
    (confirmExpired expired expired.ticks = true ∧ expired.banks.revertRaised = false ∧ scribeRuns expired = true ∧ expired.scribe.restarting = false ∧
      expired.mode.current ≠ .mirror) ∧
    (internalAtHead reverting (own 0x0203 (leBytes 4 0)) 0x0203 ∧ reverting.banks.previous = some {} ∧ reverting.banks.trial = true ∧
      field (own 0x0203 (leBytes 4 0)).payload 0 4 = reverting.banks.active.epoch) ∧
    (internalAtHead confirmed (own 0x0203 (leBytes 4 0)) 0x0203 ∧ confirmed.banks.trial = false) := by
  simp only [internalAtHead]; decide +kernel

/-- STAGE of port.enable, and of a value outside its range. -/
def staging : State := ask 0x0200 (list1 Pid.portEnable 0 1) (inMode .config)
def badItem : State := ask 0x0200 (list1 Pid.portEnable 0 9) (inMode .config)
def committing : State := ask 0x0201 (leBytes 4 0xFFFFFFFF ++ leBytes 4 0) { inMode .config with banks := { State.reset.banks with pending := some {} } }
def job0 : CommitJob := { kind := 0, bank := {}, journal := 1, request := rq 0x0201 [], report := [], degraded := false }
def programming : State := { inMode .run with banks := { State.reset.banks with job := some job0 } }
def lastPort : State := { inMode .run with banks := { State.reset.banks with switch := some ⟨0, 0x8, {}⟩ } }
def onTrial : State := ask 0x0202 (leBytes 4 0) { inMode .run with banks := { State.reset.banks with trial := true, confirmTimeout := 9, previous := some {} } }
def back : State := ask 0x0203 (leBytes 4 0) { inMode .run with banks := { State.reset.banks with previous := some {} } }

def commitReq : Request := rq 0x0201 (leBytes 4 0xFFFFFFFF ++ leBytes 4 0)

/-- Meets the hypotheses of BanksChange. -/
theorem hyps_BanksChange : (mayExecute staging 0x0200 (rq 0x0200 (list1 Pid.portEnable 0 1)) ∧ field (list1 Pid.portEnable 0 1) 2 1 = 0 ∧
      ∃ u, applyItems true false 0 (requestItems (list1 Pid.portEnable 0 1)) (dequeue (rq 0x0200 (list1 Pid.portEnable 0 1)) staging) = .ok u) ∧
    (mayExecute badItem 0x0200 (rq 0x0200 (list1 Pid.portEnable 0 9)) ∧
      applyItems true false 0 (requestItems (list1 Pid.portEnable 0 9)) (dequeue (rq 0x0200 (list1 Pid.portEnable 0 9)) badItem) = .error (0, 0x22)) ∧
    (mayExecute committing 0x0201 commitReq ∧ commitMode committing = true ∧ committing.banks.trial = false ∧
      committing.banks.pending = some {}) ∧ validate {} committing.serif.library = none ∧
    (∀ k : Bool, (admitPlan {} committing.serif.library (planLimits (restorePorts (dequeue commitReq committing)) {}) k).fits = true) ∧
    (programming.banks.job = some job0 ∧ job0.kind = 0 ∧ programming.banks.switch = none ∧ programming.mode.current = .run) ∧
    (lastPort.banks.switch = some ⟨0, 0x8, {}⟩ ∧ 0 ≤ lastPort.ticks ∧ (0x8#4 : BitVec 4) = 1#4 <<< (3 : Nat) ∧ (portOf lastPort 3).gridRunning = false) ∧
    (mayExecute onTrial 0x0202 (rq 0x0202 (leBytes 4 0)) ∧ field (leBytes 4 0) 0 4 = onTrial.banks.active.epoch ∧ onTrial.banks.trial = true ∧
      confirmExpired onTrial (rq 0x0202 (leBytes 4 0)).arrived = false) ∧
    (mayExecute back 0x0203 (rq 0x0203 (leBytes 4 0)) ∧ commitMode back = true ∧ back.banks.previous = some {}) ∧
    (∀ k : Bool, (admitPlan {} back.serif.library (planLimits (journalOpen (rq 0x0203 (leBytes 4 0)) 3 (dequeue (rq 0x0203 (leBytes 4 0)) back)) {}) k).fits = true) ∧
    mayExecute (ask 0x0204 [0, 1, 0, 0] (inMode .config)) 0x0204 (rq 0x0204 [0, 1, 0, 0]) ∧
    mayExecute (ask 0x0205 [] (inMode .config)) 0x0205 (rq 0x0205 []) := by
  simp only [mayExecute_iff]
  refine ⟨⟨?_, ?_, _, rfl⟩, ⟨?_, rfl⟩, ?_, validate_default, fun k => ?_, ?_, ?_, ?_, ?_, fun k => ?_, ?_, ?_⟩
  case refine_5 => rw [show committing.serif.library = [] from rfl, admit_default]; revert k; decide +kernel
  case refine_10 => rw [show back.serif.library = [] from rfl, admit_default]; revert k; decide +kernel
  all_goals decide +kernel

/-- A PCIe session, and an answer waiting on it. -/
def ss0 : Session := { version := 0x0302, ident := 1 }
def sess : State := { inMode .config with scribe := { (inMode .config).scribe with transports := State.reset.scribe.transports.set 0 { session := some ss0 } } }

/-- Meets the hypotheses of AnswersWait. -/
theorem hyps_AnswersWait : (rq 0x0002 []).transport < 2 ∧ (0 : Nat) ≠ 0x01 ∧ (0 : Nat) ≠ 0x13 ∧ (rq 0x0300 []).opcode ≠ 0x0002 ∧
    (transportOf sess (rq 0x0300 []).transport).session = some ss0 ∧ (rq 0x0300 []).session = ss0.ident ∧
    (List.replicate 4076 (0 : Byte)).length ≤ 4076 := by decide +kernel

def tooLong : State := ask 0x0300 [6, 0, 0, 0, 0] (inMode .config)
def reserved : State := ask 0x0300 [6, 0, 1, 0] (inMode .config)
def modeRow : OpRow := ⟨0x0300, 0x0200, .j, .fixed 4, [(2, 2)]⟩

/-- Meets the hypotheses of StepNineRefuses. -/
theorem hyps_StepNineRefuses : nextRequest 0x0300 tooLong = some (rq 0x0300 [6, 0, 0, 0, 0]) ∧ (opRow 0x0300).isSome = true ∧
    lenOk (.fixed 4) (rq 0x0300 [6, 0, 0, 0, 0]).payload = false ∧ nextRequest 0x0300 reserved = some (rq 0x0300 [6, 0, 1, 0]) ∧
    lenOk (.fixed 4) (rq 0x0300 [6, 0, 1, 0]).payload = true ∧ reservedOk [(2, 2)] (rq 0x0300 [6, 0, 1, 0]).payload = false := by decide +kernel

/-- The page with a message submitted, and with an answer waiting. -/
def free : State := onPage 1 (fun g => { g with reqFree := true }) (inMode .config)
def submitted : State := onPage 1 (fun g => { g with doorbell := some 4096 }) (inMode .config)
def answered : State := onTransport 1 (fun x => { x with waiting := [⟨7, [0], true⟩], tags := [7] }) (inMode .config)

/-- The page with a high word latched. -/
def latched : State := onPage 0 (fun g => { g with latched := [(0x154, 7)] }) (inMode .run)

/-- Meets the hypotheses of PageRegistersWork. -/
theorem hyps_PageRegistersWork : (pageOf free 1).reqFree = true ∧ ((pageOf submitted 1).doorbell = some 4096 ∧ submitted.scribe.ready = true) ∧
    ((pageOf answered 1).rspValid = false ∧ (transportOf answered 1).waiting = [⟨7, [0], true⟩] ∧ byeAnswer [0] = false) ∧
    ((127#32).toNat < 128 ∧ paramNat free Pid.hostEvqOwner 0 = 0 ∧ free.evq.dropped = 0) ∧ 0x144 ∈ snapshotLows ∧ 0x150 ∈ snapshotLows ∧
    ((liveHigh latched 0 0x154).isSome = true ∧ ((pageOf latched 0).latched.find? fun e => e.1 == 0x154) = some (0x154, 7)) ∧
    (liveHigh free 1 0x154).isSome = true ∧ (pageOf free 1).latched = [] := by decide +kernel

def hello : List Byte := [3, 2, 2, 0] ++ List.replicate 20 0
def throttled : State := { onTransport 2 (fun x => { x with throttled := true, throttleFrom := 0 }) (inMode .config) with ticks := msTicks 1000 }
def idleSession : State := { onTransport 2 (fun x => { x with session := some ss0 }) (inMode .config) with ticks := secTicks 100000 }
def peerBye : State := { inMode .config with scribe := { (inMode .config).scribe with queue := [{ transport := 3, opcode := 3 }] } }

/-- Meets the hypotheses of SessionsLive. -/
theorem hyps_SessionsLive : (mayExecute (ask 1 hello (inMode .config)) 0x0001 (rq 1 hello) ∧ negotiate (rq 1 hello).payload = some 0x0302) ∧
    mayExecute (ask 2 [5] (inMode .config)) 0x0002 (rq 2 [5]) ∧ mayExecute (ask 3 [] (inMode .config)) 0x0003 (rq 3 []) ∧
    mayExecute peerBye 0x0003 { transport := 3, opcode := 3 } ∧
    (mayExecute (ask 9 [1, 0, 0, 0] (inMode .config)) 0x0009 (rq 9 [1, 0, 0, 0]) ∧ field [1, 0, 0, 0] 0 1 = 1) ∧
    ((transportOf throttled 2).throttled = true ∧ (transportOf throttled 2).throttleFrom + msTicks 1000 ≤ throttled.ticks) ∧
    ((transportOf idleSession 2).session = some ss0 ∧
      ss0.lastValid + secTicks (paramNat idleSession Pid.hostOxrasSessionTimeoutS 0) ≤ idleSession.ticks) := by
  simp only [mayExecute_iff]; decide +kernel

def getOne : List Byte := leBytes 2 1 ++ leBytes 2 0 ++ leBytes 2 Pid.powerFeedDebounceMs ++ leBytes 2 0
def getBlock : List Byte := leBytes 2 0x0200 ++ leBytes 2 0 ++ leBytes 2 339 ++ leBytes 2 0
def setOne (v : Nat) : List Byte := list1 Pid.powerFeedDebounceMs 0 v

/-- Meets the hypotheses of ParametersReadAndSet. -/
theorem hyps_ParametersReadAndSet : (mayExecute (ask 0x0100 getOne (inMode .config)) 0x0100 (rq 0x0100 getOne) ∧ field getOne 2 1 = 0 ∧
      ∀ i < field getOne 0 2, (paramItem (field getOne (4 + 4 * i) 2) (field getOne (6 + 4 * i) 2)).isSome = true) ∧
    (mayExecute (ask 0x0102 getBlock (inMode .config)) 0x0102 (rq 0x0102 getBlock) ∧ field getBlock 6 1 = 0 ∧ 1 ≤ field getBlock 4 2 ∧
      field getBlock 4 2 ≤ 339) ∧
    (mayExecute (ask 0x0101 (setOne 255) (inMode .config)) 0x0101 (rq 0x0101 (setOne 255)) ∧ field (setOne 255) 0 2 = 1 ∧
      field (setOne 255) 4 2 = Pid.powerFeedDebounceMs ∧ field (setOne 255) 6 2 = 0 ∧ 1 ≤ field (setOne 255) 8 8 ∧ field (setOne 255) 8 8 ≤ 255 ∧
      (ask 0x0101 (setOne 255) (inMode .config)).paramsWf = true) ∧
    (mayExecute (ask 0x0101 (setOne 0) (inMode .config)) 0x0101 (rq 0x0101 (setOne 0)) ∧
      applyItems false (hasBit (rq 0x0101 (setOne 0)).flags 4) 0 (requestItems (setOne 0)) (dequeue (rq 0x0101 (setOne 0))
        (ask 0x0101 (setOne 0) (inMode .config))) = .error (0, 0x22)) ∧
    (1024 ≤ 1024 ∧ 1024 ≤ 65535 ∧ (inMode .config).paramsWf = true) := by
  simp only [mayExecute_iff]
  refine ⟨?_, ?_, ?_, ⟨?_, error_of ?_⟩, ?_⟩ <;> decide +kernel

def readReq (n : Nat) : List Byte := leBytes 8 0 ++ leBytes 4 n

/-- Meets the hypotheses of RecordsAreRead. -/
theorem hyps_RecordsAreRead : (mayExecute (ask 0x0A00 (readReq 32) (inMode .config)) 0x0A00 (rq 0x0A00 (readReq 32)) ∧ field (readReq 32) 0 1 ≤ 1 ∧
      1 ≤ field (readReq 32) 8 1 ∧ field (readReq 32) 8 1 ≤ 32) ∧
    (mayExecute (ask 0x0A01 (readReq 113) (inMode .config)) 0x0A01 (rq 0x0A01 (readReq 113)) ∧ field (readReq 113) 8 1 ≤ 113 ∧
      ∀ e ∈ (inMode .config).log.entries, e.bad = false) ∧
    (mayExecute (ask 0x0700 (leBytes 8 3) (inMode .config)) 0x0700 (rq 0x0700 (leBytes 8 3)) ∧ field (leBytes 8 3) 0 1 ≤ 3) := by
  simp only [mayExecute_iff]; decide +kernel

/-- The payload of a firmware command that carries no image. -/
def fw4 : List Byte := [0, 0, 0, 0]

/-- CONFIG with DRAM, and with an upload open. -/
def fwState (code : Nat) (p : List Byte) (up : Option FwUpload) : State :=
  ask code p { inMode .config with
    memory := { State.reset.memory with usablePages := 6144 }
    firmware := { State.reset.firmware with upload := up, slots := #v[{ verifies := true }, { verifies := true }] } }

/-- Meets the hypotheses of FirmwareUpdates, but that the uploaded image verifies: Config.imageVerifies is a free value (R99), so that
one hypothesis is left open, and either value of it is met by some value of Config. -/
theorem hyps_FirmwareUpdates : (mayExecute (fwState 0x0B00 fw4 none) 0x0B00 (rq 0x0B00 fw4) ∧ fwMode (fwState 0x0B00 fw4 none) = true ∧
      6144 ≤ (fwState 0x0B00 fw4 none).memory.usablePages ∧ (fwState 0x0B00 fw4 none).firmware.upload = none) ∧
    (mayExecute (fwState 0x0B01 [1] (some ⟨1, []⟩)) 0x0B01 (rq 0x0B01 [1]) ∧ (fwState 0x0B01 [1] (some ⟨1, []⟩)).firmware.upload = some ⟨1, []⟩ ∧
      ([] : List Byte).length + [(1 : Byte)].length ≤ 4194304) ∧
    (mayExecute (fwState 0x0B02 fw4 (some ⟨1, [1]⟩)) 0x0B02 (rq 0x0B02 fw4) ∧ (fwState 0x0B02 fw4 (some ⟨1, [1]⟩)).firmware.upload = some ⟨1, [1]⟩) ∧
    (mayExecute (fwState 0x0B03 fw4 none) 0x0B03 (rq 0x0B03 fw4) ∧ (slotOf (fwState 0x0B03 fw4 none) (otherSlot 0)).verifies = true) ∧
    mayExecute (fwState 0x0B04 fw4 none) 0x0B04 (rq 0x0B04 fw4) ∧
    (mayExecute (ask 0x0301 [1, 0, 0, 0] (inMode .run)) 0x0301 (rq 0x0301 [1, 0, 0, 0]) ∧ field [1, 0, 0, 0] 0 1 ≤ 1) := by
  simp only [mayExecute_iff]; decide +kernel

def pcieUp : State := { inMode .config with links := { State.reset.links with pcieUp := true } }
def sleeping : State := onPage 0 (fun g => { g with irqStatus := 1, irqEnable := 1 }) { inMode .config with links := { State.reset.links with pcieL1 := true } }

/-- Meets the hypotheses of PcieEndpoint. -/
theorem hyps_PcieEndpoint : (pcieHeld (inMode .config) = false ∧ (4#4).toNat ≤ paramNat (inMode .config) Pid.hostPcieMaxGen 0 ∧
      (4#3).toNat ≤ paramNat (inMode .config) Pid.hostPcieMaxWidth 0) ∧ (pcieUp.links.pcieUp = true ∧ scribeRuns pcieUp = true) ∧
    (sleeping.links.pcieL1 = true ∧ pcieWanted sleeping = true) := by decide +kernel

def ethUp : State := setP Pid.hostOxrasUdpEnable 1 (onEth 1 (fun e => { e with linkUp := true }) (inMode .config))
def ethAllowed : State := setA Pid.hostEthEnable 1 1 (inMode .config)

/-- Meets the hypotheses of EthernetPorts. -/
theorem hyps_EthernetPorts : (ethHeld ethAllowed 1 = false ∧ (ethOf ethAllowed 1).linkUp = false) ∧ (ethOf ethUp 1).linkUp = true ∧
    paramBool ethUp Pid.hostOxrasUdpEnable 0 = true ∧ ethUp.scribe.ready = true ∧
    { ethUp with scribe := { ethUp.scribe with ready := false } }.scribe.ready = false := by decide +kernel

/-- Meets the hypotheses of SpiAndSmbusTargets. -/
theorem hyps_SpiAndSmbusTargets : targetsServe State.reset = true ∧ paramBool (setP Pid.hostSpiEnable 1 (inMode .config)) Pid.hostSpiEnable 0 = true ∧
    targetsServe (setP Pid.hostSpiEnable 1 (inMode .config)) = true ∧ (0x58 : BitVec 7) = smbAddress State.reset ∧ (0x59 : BitVec 7) ≠ smbAddress State.reset ∧
    ([1, 0, 0, 0] : List Byte).length = 4 ∧ hasBit (leNat [1, 0, 0, 0]) 0 = true ∧
    ([1, 0, 0] : List Byte).length ≠ 4 := by decide +kernel

/-- Meets the hypotheses of JtagTests. -/
theorem hyps_JtagTests : State.reset.links.jtagTest = false ∧ { State.reset with links := { State.reset.links with jtagTest := true } }.links.jtagTest = true := by
  decide +kernel

/-- A paired unit in mode `m` with its link up. -/
def paired (m : Mode) (f : Pair → Pair := id) : State :=
  let s := setA Pid.pairEnable 0 1 (inMode m)
  { s with pair := f { s.pair with linkUp := true, linkVersion := 2, copyAge := 0 } }

/-- Meets the hypotheses of PeerIsWatched. -/
theorem hyps_PeerIsWatched :
    (barksSent (paired .run) = true ∧ (paired .run).pair.linkUp = true) ∧ (pairEnabled (paired .run) = true ∧ (paired .run).pair.hbSilent = false ∧
      (paired .run).pair.linkLost = false) ∧
    (paired .mirror fun p => { p with hbSilent := true, linkLost := true }).pair.hbSilent = true ∧
    (paired .mirror fun p => { p with hbSilent := true, linkLost := true }).pair.linkLost = true ∧
    (paired .mirror fun p => { p with hbSilent := true, linkLost := true }).pair.peerFailed = false ∧
    (paired .mirror fun p => { p with hbSilent := true, linkLost := true }).mode.inProgress = none ∧
    (paired .mirror fun p => { p with hbSilent := true, linkLost := true }).pair.idConflict = false ∧
    (paired .mirror fun p => { p with hbSilent := true, linkLost := true }).pair.ilkHeld = false ∧
    (paired .run fun p => { p with hbSilent := true, linkLost := true }).mode.current ≠ .mirror ∧
    (scribeRuns (paired .run) = true ∧ (paired .run).pair.step ≠ .stopping) ∧
    ((paired .mirror).mode.current = .mirror ∧ (paired .mirror).pair.step = .idle ∧ ({} : Bark).flags.getLsbD 4 = false) := by decide +kernel

/-- A unit that drives ILK_N and holds nothing yet, one that owns, and the takes of a handover. -/
def driving (m : Mode) : State := paired m fun p => { p with driving := true }
def owner (m : Mode) : State := paired m fun p => { p with driving := true, own := true, ilkHeld := true }
def standingUnit1 : State := { driving .run with straps := { State.reset.straps with unitId := true } }

/-- Meets the hypotheses of LeashIsTaken. -/
theorem hyps_LeashIsTaken : ((driving .run).pair.driving = true ∧ (driving .run).pair.own = false ∧ (driving .run).mode.current ≠ .handover) ∧
    (driving .handover).mode.current = .handover ∧ standingUnit1.straps.unitId = true ∧ standingUnit1.mode.current ≠ .handover ∧
    ((driving .run).straps.unitId = false ∧ (driving .run).pair.idConflict = false) ∧ (owner .run).pair.own = true ∧
    ((paired .handover fun p => { p with step := .waiting, waitZero := true }).pair.driving = false ∧
      (paired .handover fun p => { p with step := .waiting, waitZero := true }).links.jtagTest = false) ∧
    ((paired .run).pair.driving = false ∧ (paired .run).pair.step ≠ .released) ∧
    ((paired .handover fun p => { p with step := .released }).pair.toConfig = false) ∧
    (paramBool (setP Pid.pairAutoTake 1 (paired .mirror)) Pid.pairAutoTake 0 = true ∧ (setP Pid.pairAutoTake 1 (paired .mirror)).pair.ilkHeld = false ∧
      (setP Pid.pairAutoTake 1 (paired .mirror)).pair.peer = none ∧ pairEnabled (setP Pid.pairAutoTake 1 (paired .mirror)) = true ∧
      (setP Pid.pairAutoTake 1 (paired .mirror)).mode.inProgress = none) ∧
    ((paired .handover fun p => { p with step := .waiting }).pair.waitZero = false ∧
      (paired .handover fun p => { p with step := .waiting }).pair.ilkHeld = false) := by decide +kernel

/-- The owner with a peer that is READY, asked to release; and a standby asked to take. -/
def releasing : State :=
  ask 0x0900 [0, 0, 0, 0] { owner .run with pair := { (owner .run).pair with peer := some { flags := 4, mode := 7 } } }
def asksTake : State := ask 0x0900 [1, 0, 0, 0] (paired .mirror)
def lastCopyDue : State := { inMode .handover with pair := { State.reset.pair with step := .stopping, own := true, linkVersion := 2 } }
def awaiting : State := paired .handover fun p => { p with step := .finalSent, own := true, driving := true, unacked := true }

def ownerFires : State := onPort 0 (fun x => { x with gridRunning := true }) (owner .run)

/-- Meets the hypotheses of HandoversRun. -/
theorem hyps_HandoversRun : (mayExecute releasing 0x0900 (rq 0x0900 [0, 0, 0, 0]) ∧ field [0, 0, 0, 0] 0 1 = 0 ∧ pairEnabled releasing = true ∧
      releasing.mode.current = .run ∧ releasing.mode.inProgress = none ∧ releasing.pair.own = true ∧
      mayRelease (hasBit (rq 0x0900 [0, 0, 0, 0]).flags 4) (dequeue (rq 0x0900 [0, 0, 0, 0]) releasing) = true) ∧
    (mayExecute asksTake 0x0900 (rq 0x0900 [1, 0, 0, 0]) ∧ field [1, 0, 0, 0] 0 1 = 1 ∧ pairEnabled asksTake = true ∧
      asksTake.mode.current = .mirror ∧ asksTake.mode.inProgress = none ∧ asksTake.pair.ilkHeld = false) ∧
    (releasing.safety.service = false ∧ mayRelease false releasing = true) ∧
    ((inMode .config).safety.service = false ∧ pairEnabled (inMode .config) = false ∧ scribeRuns (inMode .config) = true) ∧
    (activeRole (owner .run) = true ∧ (owner .run).pair.linkUp = true ∧ (owner .run).pair.peerFailed = false ∧ (owner .run).pair.step = .idle ∧
      (owner .run).mode.current ≠ .handover ∧ ∀ p : Fin 4, (portOf (owner .run) p).gridRunning = false) ∧
    (activeRole ownerFires = true ∧ ownerFires.pair.linkUp = true ∧ ownerFires.pair.peerFailed = false ∧ scribeRuns ownerFires = true ∧
      ownerFires.pair.step = .idle ∧ ownerFires.mode.current ≠ .handover ∧ (portOf ownerFires 0).gridRunning = true) ∧
    ((paired .mirror).mode.current = .mirror ∧ ({} : CopyState).final = false ∧ ({ final := true } : CopyState).final = true ∧
      (paired .mirror).mode.inProgress = none) ∧
    (lastCopyDue.pair.step = .stopping ∧ lastCopyDue.pair.portsLeft = 0 ∧ lastCopyDue.herder.work = [] ∧ lastCopyDue.pair.journal = none ∧
      lastCopyDue.pair.linkVersion = 2) ∧
    (({ owner .run with pair := { (owner .run).pair with unacked := true } } : State).pair.unacked = true ∧ (owner .run).pair.step ≠ .finalSent) ∧
    (awaiting.pair.unacked = true ∧ awaiting.pair.step = .finalSent ∧ awaiting.pair.fromMode ∈ [Mode.run, .sentinel]) := by
  simp only [mayExecute_iff]; decide +kernel

/-- No zone of the default bank waits for a round. -/
theorem hyps_HandoversRun_rounds : (enabledZones lastCopyDue.banks.active).any (roundsPending lastCopyDue) = false := by
  have z : enabledZones ({} : Bank) = [] := by
    unfold enabledZones
    simp only [List.filter_eq_nil_iff, List.mem_range]
    intro z hz
    simp [default_zone z hz]
  rw [show lastCopyDue.banks.active = {} from rfl, z]
  rfl

def relays (up : Bool) : State := ask 0x0902 (List.replicate 16 0) (paired .mirror fun p => { p with linkUp := up })

/-- Meets the hypotheses of SegorCarries. -/
theorem hyps_SegorCarries : (({ paired .mirror with power := { State.reset.power with railStatus := 0x1FFF } }).power.railStatus.getLsbD 10 = true ∧
      (1 : Nat) ≤ 2 ∧ (paired .mirror).mode.current ≠ .reset ∧ (2 : Nat) < 3) ∧ (paired .mirror).pair.step = .idle ∧
    (5 ≤ ([1, 0, 0, 0, 0] : List Byte).length ∧ field ([1, 0, 0, 0, 0] : List Byte) 1 4 ≠ (crc32c ([1] : List Byte)).toNat) ∧
    ([1] : List Byte) ≠ [] ∧ pairEnabled (paired .mirror) = true ∧ (paired .mirror).scribe.restarting = false ∧
    mayExecute (ask 0x0901 [] (paired .mirror)) 0x0901 (rq 0x0901 []) ∧
    (mayExecute (relays true) 0x0902 (rq 0x0902 (List.replicate 16 0)) ∧ (relays true).links.relay = none ∧ (relays true).pair.linkUp = true) ∧
    (mayExecute (relays false) 0x0902 (rq 0x0902 (List.replicate 16 0)) ∧ (relays false).links.relay = none ∧ (relays false).pair.linkUp = false) := by
  simp only [mayExecute_iff]; decide +kernel

/-- Trim fields at their nominal values: the ratios 2, 4 and 8, no offset, gains of 1. -/
def trimFields : List Int :=
  (List.range 18).map (fun k => ([2, 4, 8].getD (k % 3) 2 : Int) * 2 ^ 24) ++ List.replicate 8 0 ++ [2 ^ 24, 2 ^ 24]
def trimmed : State := onCal (fun c => { c with trimming := 1 }) (inMode .config)
def delayFields : List Int := (List.range 6).map (Config.factoryField 5 0) ++ [320000, 0]
def delayed : State := onItem 5 0 (fun i => { i with running := true }) (inMode .config)
def zeroPoint : Int × Int × Int := (0, 0, 0)
def fullPoint : Int × Int × Int := (1000000, 1000000 * 2 ^ 24, 0)
def calRequest (item slot : Nat) : List Byte := [BitVec.ofNat 8 item, 0, BitVec.ofNat 8 slot, 0]
def measured : State := ask 0x0800 (calRequest 3 0) (onItem 3 0 (fun i => { i with points := [(0, zeroPoint), (1, fullPoint)] }) (inMode .config))
def trims (m : Mode) : State := ask 0x0800 [1, 0xFF, 0, 0] (inMode m)
def pointBody : List Byte := calRequest 3 1 ++ leBytes 4 1000000 ++ leBytes 8 0

/-- Meets the hypotheses of CalibrationRuns. -/
theorem hyps_CalibrationRuns : (trimmed.mode.current ≠ .boot ∧ trimmed.calib.trimming.getLsbD 0 = true ∧ calFailing trimmed 1 0 trimFields = none ∧
      trimmed.calib.returning.getLsbD 0 = false ∧ (calItem trimmed 1 0).journal = none) ∧
    (calFailing trimmed 1 0 [] = some (0, 0) ∧ Store.wf (fun _ => {}) trimmed.calib.items = true) ∧
    ((0 - (inMode .config).calib.tdcTemp).natAbs < 160 ∧ 160 ≤ (160 - (inMode .config).calib.tdcTemp).natAbs ∧
      scribeRuns (inMode .config) = true ∧ tdcHeld (inMode .config) = false ∧ (calItem (inMode .config) 5 0).running = false) ∧
    (delayed.mode.current ≠ .boot ∧ (calItem delayed 5 0).running = true ∧ (calItem delayed 5 0).journal = none) ∧
    (mayExecute (trims .config) 0x0800 (rq 0x0800 [1, 0xFF, 0, 0]) ∧ (trims .config).calib.trimming = 0 ∧
      mayExecute (trims .run) 0x0800 (rq 0x0800 [1, 0xFF, 0, 0]) ∧ (trims .run).mode.current ≠ .config) ∧
    (mayExecute measured 0x0800 (rq 0x0800 (calRequest 3 0)) ∧ field (calRequest 3 0) 0 1 = 3 ∧ field (calRequest 3 0) 1 1 = 0 ∧ field (calRequest 3 0) 2 1 = 0 ∧
      measured.calib.jobs = [] ∧ (calItem measured 3 0).points.find? (·.1 == 0) = some (0, zeroPoint) ∧
      (calItem measured 3 0).points.find? (·.1 == 1) = some (1, fullPoint) ∧ 500000 ≤ fullPoint.1 - zeroPoint.1 ∧ fullPoint.2.1 ≠ zeroPoint.2.1 ∧
      calFailing measured 3 0 [(sysCal zeroPoint fullPoint measured).1.1, (sysCal zeroPoint fullPoint measured).1.2] = none) ∧
    (mayExecute (ask 0x0801 pointBody (inMode .config)) 0x0801 (rq 0x0801 pointBody) ∧ field pointBody 0 1 = 3 ∧ field pointBody 1 1 < 8 ∧
      field pointBody 2 1 < 2 ∧ field pointBody 8 4 = 0 ∧ field pointBody 12 4 = 0) ∧
    (mayExecute (ask 0x0802 [1, 3, 0, 0] (inMode .config)) 0x0802 (rq 0x0802 [1, 3, 0, 0]) ∧ field [1, 3, 0, 0] 1 1 < calIndexes (field [1, 3, 0, 0] 0 1)) := by
  simp only [mayExecute_iff]
  decide +kernel

/-- The factory's own delay fields are inside their limits. -/
theorem hyps_CalibrationRuns_delay : calFailing delayed 5 0 delayFields = none := by
  simp [calFailing, calFieldCount, delayFields, calFieldOk, within, calFactory, List.range, List.range.loop]

/-- Meets the hypotheses of WatchFollowsReadings. -/
theorem hyps_WatchFollowsReadings : scribeRuns (inMode .run) = true ∧ (inMode .run).scribe.restarting = false := by decide +kernel

def oneWaiting : State := { inMode .run with log := { State.reset.log with waiting := [{ number := 0, entry := { code := 0x0201, severity := 3, seq := 0, time := {}, arg0 := 0, arg1 := 0, arg2 := 0 } }] } }
def coded : State := bump Pid.inkBlocksCoded 0 (inMode .run)

/-- Meets the hypotheses of IntegrityKept. -/
theorem hyps_IntegrityKept : (9 : Fin 10) ≠ 0 ∧ (inMode .mirror).mode.current = .mirror ∧ (inMode .run).scribe.ready = true ∧
    (inMode .run).scribe.restarting = false ∧ (oneWaiting.log.waiting.map (·.entry.severity)) = [3] ∧ oneWaiting.scribe.restarting = false ∧
    { oneWaiting with scribe := { oneWaiting.scribe with restarting := true } }.scribe.restarting = true ∧
    (scribeRuns coded = true ∧ coded.paramsWf = true ∧ Store.wf (fun _ => 0) coded.calib.extHi = true ∧
      Store.wf (fun _ => 0) coded.calib.extLast = true ∧ (paramKey Pid.inkBlocksCoded 0, 1) ∈ coded.params) ∧
    paramNat (inMode .run) Pid.teleQueue 0 < 8 := by decide +kernel

def termsOff : State := { inMode .config with safety := { State.reset.safety with key := false, keyOffTick := some 0 }, ticks := secTicks 1 }
def termsBrief : State := { termsOff with ticks := 1 }

/-- Meets the hypotheses of DeviceTermsFall. -/
theorem hyps_DeviceTermsFall : ({ inMode .run with safety := { State.reset.safety with key := true } }).safety.key = true ∧
    ({ inMode .run with safety := { State.reset.safety with loop := true } }).safety.loop = true ∧ (inMode .run).safety.estop = false ∧
    (termsOff.safety.key = false ∧ (termsOff.safety.keyOffTick.map fun k => decide (k + secTicks 1 ≤ termsOff.ticks)) = some true) ∧
    (termsBrief.safety.key = false ∧ (termsBrief.safety.keyOffTick.map fun k => decide (k + secTicks 1 ≤ termsBrief.ticks)) ≠ some true) := by
  decide +kernel

/-- Meets the hypotheses of PortTermsFall. -/
theorem hyps_PortTermsFall : ({ inMode .run with safety := { State.reset.safety with aprRestart := 4 } }).safety.aprRestart.getLsbD 2 = true ∧
    (inMode .run).paramsWf = true ∧ gateOpen (inMode .run) 0 = false := by decide +kernel

/-- RUN with lamp `j` as given. -/
def lamp (j : Nat) (f : Led) : State :=
  { inMode .run with safety := { State.reset.safety with leds := vecUpdate State.reset.safety.leds j fun _ => f } }
def feedback : State := setP Pid.ledCfbEnable 1 (lamp (statusLed State.reset 0) { lit := true })

/-- Meets the hypotheses of LampsDiagnosed. -/
theorem hyps_LampsDiagnosed : ((ledOf (lamp 15 { lit := true }) 15).lit = true ∧ ledPhase (lamp 15 { lit := true }) 15 = true ∧ (ledOf (lamp 15 { lit := true }) 15).fault = 0) ∧
    ((ledOf (lamp 0 { lit := true, fault := 1, run := 15 }) 0).lit = true ∧ ledPhase (lamp 0 { lit := true, fault := 1, run := 15 }) 0 = true ∧ (ledOf (lamp 0 { lit := true, fault := 1, run := 15 }) 0).fault ≠ 0 ∧
      (ledOf (lamp 0 { lit := true, fault := 1, run := 15 }) 0).kind = 0 ∧ 15 ≤ (ledOf (lamp 0 { lit := true, fault := 1, run := 15 }) 0).run) ∧
    (ledPhase (lamp 0 { lit := true, proven := true, kind := 1, run := 2 }) 0 = true ∧ (ledOf (lamp 0 { lit := true, proven := true, kind := 1, run := 2 }) 0).fault = 0 ∧
      (ledOf (lamp 0 { lit := true, proven := true, kind := 1, run := 2 }) 0).proven = true ∧
      (ledOf (lamp 0 { lit := true, proven := true, kind := 1, run := 2 }) 0).kind = 1 ∧
      2 ≤ (ledOf (lamp 0 { lit := true, proven := true, kind := 1, run := 2 }) 0).run) ∧
    ((ledOf (lamp 3 {}) 3).lit = false ∧ (ledOf (lamp 3 {}) 3).stretch = false) ∧ paramBool (setP Pid.ledCfbEnable 0 (inMode .run)) Pid.ledCfbEnable 0 = false ∧
    (paramBool feedback Pid.ledCfbEnable 0 = true ∧ ([0, 1, 2].any fun c => (ledOf feedback (statusLed feedback c)).lit) = true ∧
      ([0, 1, 2].any fun c => (ledOf feedback (statusLed feedback c)).cfbLimit) = false) := by decide +kernel

/-- Meets the hypotheses of PanelAnswers. -/
theorem hyps_PanelAnswers : paramNat (inMode .run) Pid.panelChatter 7 < 0xFFFFFFFF ∧
    (({ State.reset.safety with service := true }).service = true ∧ ({ State.reset.safety with service := true }).serviceStuck = false) ∧
    (({ State.reset.safety with locate := true }).locate = true ∧ ({ State.reset.safety with locate := true }).locateStuck = false) ∧
    (inMode .run).safety.locate = false := by decide +kernel

/-- RUN with every term of the chain and every lamp good. -/
def emitting : State :=
  { owner .run with
    power := { State.reset.power with aon := true, coreOk := true, portOos := Vector.replicate 4 false }
    safety := { State.reset.safety with
      key := true, loop := true, estop := false, apr := 0, lwg := 0, fire := 0xF, plugClosed := 0xF, locatorHold := 0
      leds := Vector.replicate 16 { lit := true, proven := true, litGood := true } } }

/-- Meets the hypotheses of EmissionNeedsTheChain. -/
theorem hyps_EmissionNeedsTheChain : emitEn emitting 3 = true := by decide +kernel

/-- Port 0 enabled with its grid running, between two slots of a period. -/
def firing : State := onPort 0 (fun x => { x with gridRunning := true, nextSlot := 1, dark := false }) (setP Pid.portDasAutorange 0 (setA Pid.portEnable 0 1 emitting))
def aShot : Shot := { round := 7, slot := 0, period := 1, seq := 7, fireTick := 0, time := {}, fired := true, window := true, windowEnd := 100 }
def launched : State := onPort 0 (fun x => { x with shots := [aShot] }) firing

/-- Meets the hypothesis of PortTermsFall on an open gate. -/
theorem hyps_PortTermsFall_open : gateOpen launched 0 = true := by decide +kernel
/-- The same at the end of the shot's window. -/
def closing : State := { launched with ticks := 100 }

/-- Meets the hypotheses of ShotsFire. -/
theorem hyps_ShotsFire : (firing.mode.current = .run ∧ firing.banks.switch = none ∧ portEnabled firing 0 = true ∧ (portOf firing 0).gridRunning = true ∧
      (portOf firing 0).nextSlot ≠ 0 ∧ (portOf firing 0).nextRound = []) ∧
    ((portOf firing 0).awaitSlot0 = false ∧ (portOf firing 0).gainWrite = none ∧ portBool firing 0 Pid.portDasAutorange 0 = false ∧
      mayFire firing 0 = true ∧ (portOf firing 0).dark = false ∧ (portOf firing 0).rebaseNext = none) ∧
    ((portOf launched 0).shots.any fun u => u.window && decide (launched.ticks ≤ u.windowEnd)) = true ∧
    ((portOf firing 0).shots.any fun u => u.window && decide (firing.ticks ≤ u.windowEnd)) = false ∧
    ((portOf closing 0).shots.find? fun u => u.window && decide (u.windowEnd ≤ closing.ticks)) = some aShot ∧
    ((portOf launched 0).shots.any fun u => u.window && decide (u.windowEnd ≤ launched.ticks)) = false ∧
    ((portOf closing 0).shots.any fun u => u.window && decide (u.windowEnd ≤ closing.ticks)) = true ∧ (portOf closing 0).launchMissing = false ∧
    (portOf closing 0).misses + 1 < portNat closing 0 Pid.portLmonMissLimit 0 ∧ (portOf firing 0).riseTick = none ∧ (portOf firing 0).leadCut = false ∧
    (portOf (onPort 0 (fun x => { x with leadCut := true }) firing) 0).leadCut = true := by decide +kernel

/-- A guard of port 3's Raman group open since tick 0, at tick `n`. -/
def guarded (n : Nat) : State := { onPort 3 (fun x => { x with guard := vecUpdate x.guard 1 fun _ => true }) firing with ticks := n }

/-- Meets the hypotheses of ReceiveGuards. -/
theorem hyps_ReceiveGuards : (vecRead (portOf (guarded 100000) 3).guard 1 false = true ∧
      vecRead (portOf (guarded 100000) 3).guardLast 1 0 + guardTicks (guarded 100000) 3 1 ≤ (guarded 100000).ticks) ∧
    (vecRead (portOf (guarded 0) 3).guard 1 false = true ∧ (guarded 0).ticks < vecRead (portOf (guarded 0) 3).guardLast 1 0 + guardTicks (guarded 0) 3 1) ∧
    18 ∈ [0, 6, 12, 18] ∧ 5 ∉ [0, 6, 12, 18] ∧ (portOf firing 2).blankLevel ≠ !(portOf firing 2).blankLevel ∧
    (∀ f ∈ corrFields 5 { offset := 4096, gainPpm := -30000 }, f.2.1.natAbs ≤ f.2.2) ∧
    (∃ f ∈ corrFields 0 { offset := 4097 }, f.2.2 < f.2.1.natAbs) := by decide +kernel

def rawPoint : RawPoint := { port := 0, round := 7, index := 0, first := 0, codes := List.replicate 64 { xi := 100, xq := 0, yi := 100, yq := 0 } }

/-- Meets the hypotheses of PointsAreUnwrapped. -/
theorem hyps_PointsAreUnwrapped : shotOf (portOf launched 0) 7 = some aShot ∧ aShot.fired = true ∧
    0 * aShot.run.slots < bankPort (shotBank launched 0 aShot) 0 Pid.portTraceCells 0 ∧ Store.wf (fun _ => {}) (portOf launched 0).trace = true ∧
    ({ aShot with lost := true } : Shot).lost = true ∧ shotOf (portOf launched 1) 7 = none := by decide +kernel

def toUnwrap (hold : Bool) : UnwrapIn := { hold := hold, phase := 0x8000, amp := 1, slots := 2, gap := false, lost := false, blot := false, ovr := false, gainStep := false, fade := false, trackShift := 16 }

/-- Meets the hypotheses of UnwrapTracksPhase. -/
theorem hyps_UnwrapTracksPhase : ((toUnwrap false).hold = false ∧ ({ refValid := true } : TraceEntry).refValid = true) ∧ (toUnwrap true).hold = true ∧
    ({} : TraceEntry).refValid = false := by decide +kernel

/-- A slice of zone `z` in work, and a round of its port. -/
def work (z : Nat) : WorkItem := { zone := z, round := 7, slice := 0, slices := 1, dueRound := 8, epoch := 0 }
def working (z : Nat) : State := { launched with herder := { State.reset.herder with work := [work z] } }
def classB (z : Nat) : State := setA Pid.zoneClass z 1 (working z)
def sliceOf (z : Fin 1024) : SliceResult := { zone := z, round := 7, slice := 0 }
def onLane9 (s : State) (f : Lane) : State := onLane 9 (fun _ => f) s

/-- Meets the hypotheses of SlicesWork. -/
theorem hyps_SlicesWork : ((working 0).herder.work.find? fun w => w.zone == (sliceOf 0).zone.val && w.round == (sliceOf 0).round && w.slice == (sliceOf 0).slice) = some (work 0) ∧
    Store.get? (working 0).herder.leaving 0 = none ∧ (zoneOf (onZone 0 (fun x => { x with missed := some 7 }) (working 0)) 0).missed = some (work 0).round ∧ (zoneOf (working 0) 0).missed ≠ some (work 0).round ∧
    Store.wf (fun _ => {}) (working 0).herder.zones = true ∧ workShot (working 0) 0 7 0 = some aShot ∧ (work 0).slices ≤ (work 0).slice + 1 ∧
    outputDue (bankOfEpoch (working 0) (zonePort 0) 0) (working 0).serif.library 0 (work 0).div 7 = true ∧
    zoneNat (bankOfEpoch (classB 5) (zonePort 5) 0) Pid.zoneClass 5 ≠ 0 ∧ ((classB 5).herder.work.find? fun w => w.zone == 5) = some (work 5) ∧
    ((working 0).herder.work.find? fun w => w.zone == 9) = none ∧
    (zoneNat (bankOfEpoch (setA Pid.zoneClass 0 0 (working 0)) (zonePort 0) 0) Pid.zoneClass 0 = 0 ∧ (working 0).mode.current = .run ∧
      (working 0).mode.inProgress = none ∧ (working 0).banks.switch = none) ∧
    ((laneOf (onLane9 (classB 5) { piece := some { zone := 5, round := 7 } }) 9).piece.map fun d => d.zone) = some 5 := by decide +kernel

/-- The zone record of zone `z` with the bank's own values, and a small USER image: NOP and END. -/
def recordBytes64 (z : Nat) : List Byte := zoneRecord false {} z
def defining : State := ask 0x0400 (leBytes 2 1 ++ leBytes 2 0 ++ recordBytes64 255) (inMode .config)
def imageHead : List Byte :=
  leBytes 4 0x53455246 ++ [1, 0, 1, 0] ++ leBytes 4 1 ++ leBytes 2 2 ++ leBytes 2 0 ++ leBytes 2 0 ++ leBytes 2 64 ++ [4, 3] ++ leBytes 2 1 ++ [0, 0] ++
    leBytes 2 0 ++ List.replicate 32 0
def imageCodeBytes : List Byte := leBytes 4 0 ++ leBytes 4 0x04000000
def image : List Byte := imageHead ++ leBytes 4 (crc32c (imageHead ++ leBytes 4 0 ++ imageCodeBytes)).toNat ++ imageCodeBytes
def firstHalf : List Byte := [3, 0, 2, 0] ++ leBytes 4 72 ++ image.take 36
def secondHalf : List Byte := [3, 1, 2, 0] ++ leBytes 4 72 ++ image.drop 36
def upload3 : ProgUpload := ⟨3, 2, 72, 1, image.take 36, 1⟩
def loading : State := ask 0x0C00 secondHalf { inMode .config with serif := { State.reset.serif with upload := some upload3 } }

/-- Meets the hypotheses of ZonesAndPrograms. -/
theorem hyps_ZonesAndPrograms : mayExecute defining 0x0400 (rq 0x0400 (leBytes 2 1 ++ leBytes 2 0 ++ recordBytes64 255)) ∧
    (field (leBytes 2 1 ++ leBytes 2 0 ++ recordBytes64 255) 0 2 = 1 ∧ field (leBytes 2 1 ++ leBytes 2 0 ++ recordBytes64 255) 4 2 = 255 ∧
      recordStatus (session2 (dequeue (rq 0x0400 (leBytes 2 1 ++ leBytes 2 0 ++ recordBytes64 255)) defining) (rq 0x0400 (leBytes 2 1 ++ leBytes 2 0 ++ recordBytes64 255)))
        (slice (leBytes 2 1 ++ leBytes 2 0 ++ recordBytes64 255) 4 64) = 0 ∧
      Store.wf paramDefault (defining.banks.pending.getD defining.banks.active).params = true) ∧
    (mayExecute (ask 0x0401 (leBytes 2 1 ++ leBytes 2 0 ++ leBytes 2 1023) (inMode .config)) 0x0401 (rq 0x0401 (leBytes 2 1 ++ leBytes 2 0 ++ leBytes 2 1023)) ∧
      field (leBytes 2 1 ++ leBytes 2 0 ++ leBytes 2 1023) 4 2 < 1024) ∧
    (mayExecute (ask 0x0402 (leBytes 2 974 ++ leBytes 2 50 ++ leBytes 4 0) (inMode .config)) 0x0402 (rq 0x0402 (leBytes 2 974 ++ leBytes 2 50 ++ leBytes 4 0)) ∧
      (bankOfCode (inMode .config) 0).isSome = true) ∧
    (mayExecute (ask 0x0C00 firstHalf (inMode .config)) 0x0C00 (rq 0x0C00 firstHalf) ∧ field firstHalf 0 1 = 3 ∧ field firstHalf 2 1 = 2 ∧ field firstHalf 1 1 = 0 ∧
      programUsed (dequeue (rq 0x0C00 firstHalf) (ask 0x0C00 firstHalf (inMode .config))) 3 = false ∧ (inMode .config).serif.upload = none) ∧
    (mayExecute loading 0x0C00 (rq 0x0C00 secondHalf) ∧ loading.serif.upload = some upload3 ∧ upload3.index = field secondHalf 0 1 ∧
      upload3.segments = field secondHalf 2 1 ∧ upload3.length = field secondHalf 4 4 ∧ upload3.next = field secondHalf 1 1 ∧
      (match checkImage (8192 - ((loading.serif.library.filter fun e => e.1 != upload3.index).map fun e => e.2.code.length).sum) upload3.length
        (upload3.bytes ++ secondHalf.drop 8) with | .ok _ => true | .error _ => false) = true) ∧
    mayExecute (ask 0x0C01 [3, 0, 0, 0] (inMode .config)) 0x0C01 (rq 0x0C01 [3, 0, 0, 0]) ∧
    mayExecute (ask 0x0C02 [63, 1, 0, 0] (inMode .config)) 0x0C02 (rq 0x0C02 [63, 1, 0, 0]) := by
  simp only [mayExecute_iff]
  decide +kernel

/-- A lane ready for one instruction, with a piece whose windows are open. -/
def onePiece : Piece := { zone := 3, port := 1, slots := 4, points := 16, histBase := 0, histLen := 256, emit := true, expected := 3 }
def ready : Lane := { piece := some onePiece, output := [1, 2, 3], input := [0x123456789ABC#48], p := Vector.replicate 8 0x0010#14 }
def laneState (f : Lane) : State := onLane9 (inMode .run) f

/-- Meets the hypotheses of SerifRepeats. -/
theorem hyps_SerifRepeats : serifLane (.add 9 3 2 2) = some 9 ∧ serifWord (.add 9 3 2 2) = some 0x40C88000 ∧ 6 ≤ 0x40C88000 / 2 ^ 26 ∧
    (Instr.add 9 3 2 2).wellFormed = true ∧ (laneOf (laneState ready) 9).rep = none ∧
    (laneOf (laneState { rep := some 4096 }) 9).rep.isSome = true ∧ 23 < (24#5).toNat ∧ 48 < (49#6).toNat := by decide +kernel

/-- Meets the hypotheses of SerifAlu. -/
theorem hyps_SerifAlu : (laneOf (laneState ready) 9).rep = none ∧ (0 ≤ ((ready.x.get 3).toInt) ∧ ((ready.x.set 3 0xFFFFFF#24).get 3).toInt < 0) ∧
    (23#5).toNat ≤ 23 := by decide +kernel

/-- Meets the hypotheses of SerifMoves. -/
theorem hyps_SerifMoves : (laneOf (laneState ready) 9).rep = none ∧ (laneOf (laneState ready) 9).piece = some onePiece ∧ (1 : BitVec 24) ≠ 0 ∧
    (0#56).toInt ≤ 0 ∧ 0 < (1#56).toInt := by decide +kernel

/-- Meets the hypotheses of SerifMemory. -/
theorem hyps_SerifMemory : (laneOf (laneState ready) 9).rep = none ∧ (1#2) ≠ 0 ∧ (3#2) ≠ 0 ∧
    ((List.range 3).map fun i => ((ready.p.get 0).toNat + i) % 16384).all (laneReadable ready) = true ∧
    ((List.range 3).map fun i => ((0x0FFE#14).toNat + i) % 16384).all (laneReadable ready) = false ∧
    ((List.range 3).map fun i => ((ready.p.get 0).toNat + i) % 16384).all (laneWritable ready) = true ∧
    ((List.range 3).map fun i => ((0x3000#14).toNat + i) % 16384).all (laneWritable ready) = false ∧
    Store.wf (fun _ => 0#8) ready.mem = true ∧
    ((List.range 6).map fun i => ((ready.p.get 0).toNat + i) % 16384).all (laneReadable ready) = true ∧
    ((List.range 6).map fun i => ((0x38FB#14).toNat + i) % 16384).all (laneReadable ready) = false ∧
    (laneOf (laneState ready) 9).input = [0x123456789ABC#48] ∧ (laneOf (laneState {}) 9).input = [] ∧ (14 : Fin 16).val % 2 = 0 ∧
    (15 : Fin 16).val % 2 = 1 ∧ (2#2) ≠ 3 := by decide +kernel

/-- Meets the hypotheses of SerifAccumulators. -/
theorem hyps_SerifAccumulators : (laneOf (laneState ready) 9).rep = none ∧ (ready.flags.getLsbD 3 = false ∧ ready.flags.getLsbD 4 = false ∧
      -2 ^ 55 ≤ (ready.m.get 0).toInt + (ready.x.get 1).toInt * (ready.x.get 2).toInt ∧
      (ready.m.get 0).toInt + (ready.x.get 1).toInt * (ready.x.get 2).toInt < 2 ^ 55) ∧
    (0x008#9).getLsbD 3 = true ∧ ((0 : Fin 8) ≠ 1 ∧ (1 : Fin 16) ≠ 2 ∧
      (List.range 3).all (fun i => laneReadable ready (((ready.p.get 0).toNat + i) % 16384)) = true ∧
      (List.range 3).all (fun i => laneReadable ready (((ready.p.get 1).toNat + i) % 16384)) = true) ∧
    (48#6).toNat ≤ 48 := by decide +kernel

/-- Meets the hypotheses of SerifControl. -/
theorem hyps_SerifControl : ((laneOf (laneState ready) 9).rep = none ∧ (laneOf (laneState ready) 9).piece = some onePiece ∧ onePiece.emit = true ∧
      (laneOf (laneState ready) 9).output.length = onePiece.expected ∧ (laneOf (laneState ready) 9).next = []) ∧
    (laneOf (laneState { ready with next := [onePiece] }) 9).next = [onePiece] ∧ (0xFFFF#16) ≠ 0 ∧ (0x8000#16).toInt < 0 ∧
    (({} : Lane).c.set 0 1).get 0 = 1 ∧ ({} : Lane).c.get 0 ≠ 1 := by
  decide +kernel

/-- Meets the hypotheses of SerifRoundTrip. -/
theorem hyps_SerifRoundTrip : serifLane (.ext 127 15 3 48) = some 127 ∧ (serifWord (.ext 127 15 3 48)).isSome = true ∧
    (Instr.ext 127 15 3 48).wellFormed = true := by decide +kernel

def dtsRun : State := { inMode .run with raman := vecUpdate State.reset.raman 0 fun _ => { running := true, cfg := { shotsLog2 := 2 }, shots := 4, launchOpen := true } }
def rtdState (k : Nat) (f : Rtd) : State :=
  { setA Pid.rtdEnable k 1 (onRtd k (fun _ => f) (inMode .config)) with power := { State.reset.power with railStatus := 0x1FFF } }
def goodSums : RtdSums := { sensor := 50, rext := 1000, currentPermille := 1000, moved := false, sensorUv := 100000 }

/-- Meets the hypotheses of ThermometersMeasure. -/
theorem hyps_ThermometersMeasure : ((ramanOf dtsRun 0).running = true ∧ 2 ^ (ramanOf dtsRun 0).cfg.shotsLog2 ≤ (ramanOf dtsRun 0).shots ∧
      (ramanOf dtsRun 0).launchOpen = true) ∧ (rtdState 7 {}).mode.current ≠ .reset ∧ (inMode .reset).mode.current = .reset ∧
    (rtdOf (rtdState 7 { running := true }) 7).running = true ∧
    (ramanOf { dtsRun with raman := vecUpdate dtsRun.raman 0 fun x => { x with shots := 3 } } 0).shots < 2 ^ (ramanOf dtsRun 0).cfg.shotsLog2 ∧
    (paramBool (rtdState 7 {}) Pid.rtdEnable 7 = true ∧ ∀ j : Fin 8, (rtdOf (rtdState 7 {}) j).running = false ∧ (rtdOf (rtdState 7 {}) j).due = false) ∧
    ((rtdOf (rtdState 2 { running := true }) 2).running = true ∧ rtdCode (rtdState 2 { running := true }) 2 goodSums = 0 ∧
      watchFailing (rtdState 2 { running := true }) 2 = false) ∧
    2 ≤ rtdCode (rtdState 2 { running := true }) 2 { goodSums with currentPermille := 899 } ∧
    (rtdCode (rtdState 2 { running := true }) 2 { goodSums with moved := true } = 1 ∧ (rtdOf (rtdState 2 { running := true }) 2).attempts < 2) ∧
    ((scanInputs (setP Pid.hkScanInput 5 (inMode .run))) = (scanInputs (setP Pid.hkScanInput 5 (inMode .run))) ∧
      (scanInputs (inMode .run)).Nodup ∧ ∀ i ∈ scanInputs (inMode .run), i < 32) ∧
    (paramNat (setA Pid.hkEventSource 0 1 (inMode .run)) Pid.hkEventSource 0 ≠ 0 ∧
      paramNat (setA Pid.hkEventSource 0 1 (inMode .run)) Pid.hkEventDivider 0 ≤ vecRead (setA Pid.hkEventSource 0 1 (inMode .run)).hk.eventCount 0 0 + 1) ∧
    vecRead (setA Pid.hkEventDivider 0 2 (setA Pid.hkEventSource 0 1 (inMode .run))).hk.eventCount 0 0 + 1 <
      paramNat (setA Pid.hkEventDivider 0 2 (setA Pid.hkEventSource 0 1 (inMode .run))) Pid.hkEventDivider 0 := by decide +kernel

/-- A state record whose conditions are all invalid, and one whose first is valid. -/
def emptyRecord : List Byte := List.replicate 128 0
def loadBody : List Byte := [7, 15, 1, 0] ++ emptyRecord
def validRecord : List Byte := [0x80] ++ List.replicate 127 0
def defined : State := { inMode .config with banks := { State.reset.banks with active := { State.reset.banks.active with seqs := [(0, validRecord)] } } }

/-- Meets the hypotheses of SequencersArm. -/
theorem hyps_SequencersArm : (mayExecute (ask 0x0500 loadBody (inMode .config)) 0x0500 (rq 0x0500 loadBody) ∧ field loadBody 0 1 ≤ 7 ∧
      field loadBody 1 1 + field loadBody 2 1 ≤ 16 ∧ field loadBody 3 1 ≤ 1 ∧
      ∀ i < field loadBody 2 1, ∀ j < 4, condFields (condOf (slice loadBody (4 + 128 * i) 128) j) = true) ∧
    (mayExecute (ask 0x0501 [1, 1, 0, 0] defined) 0x0501 (rq 0x0501 [1, 1, 0, 0]) ∧ armMode defined.mode.current = true ∧ field [1, 1, 0, 0] 1 1 ≤ 1 ∧
      ∀ q : Fin 8, hasBit (field [1, 1, 0, 0] 0 1) q = true → seqDefined (globalBank (ask 0x0501 [1, 1, 0, 0] defined)) q = true) ∧
    mayExecute (ask 0x0502 [255, 0, 0, 0] (inMode .run)) 0x0502 (rq 0x0502 [255, 0, 0, 0]) ∧
    (mayExecute (ask 0x0501 [1, 1, 0, 0] (inMode .survey)) 0x0501 (rq 0x0501 [1, 1, 0, 0]) ∧ armMode (inMode .survey).mode.current = false) ∧
    (inMode .run).paramsWf = true ∧ paramNat (setP Pid.ptrArmBus 2 (inMode .run)) Pid.ptrArmBus 0 = 2 ∧
    ((inMode .run).pointer.fireOut = false ∧ linesLive (inMode .run).mode.current = true ∧ paramBool (setP Pid.ptrMasterArm 1 (inMode .run)) Pid.ptrMasterArm 0 = true) := by
  simp only [mayExecute_iff]
  decide +kernel

def anEvent : EventRecord := { number := 1, port := 0, round := 7, time := {}, collecting := false }
def heldRecord : State := { inMode .run with pointer := { State.reset.pointer with newest := 1, records := [(1, anEvent)] } }

/-- Zone 0 of port 0 serves one cell; the ring holds its points of two rounds, coded by the model's encoder. -/
def ringZone : State := setA Pid.zoneRecipe 0 0 (setA Pid.portEnable 0 1 { inMode .run with memory := { State.reset.memory with regions := Vector.replicate 5 64 } })
def roundShot (r : Nat) (t : NetTime) : Shot := { round := r, slot := 0, period := 1, seq := r, fireTick := 0, time := t, fired := true, epoch := ringZone.banks.active.epoch }
def ringed : State :=
  ringFeed 2 0 0 0 0 (roundShot 8 { ns := 100000 }) [0x000002000300#48] false
    (ringFeed 2 0 0 0 0 (roundShot 7 { ns := 0 }) [0x000001000200#48] false (forEach allPorts checkpoint ringZone))

/-- R348, R349: the page of two rounds is sealed by nothing, so its header's flags show CHECKPOINT alone, it holds four blocks, and a
0x00 follows them. -/
theorem test_page_bytes : (ringed.inkstone.pages.map fun g => ((pageHeader g).length, field (pageHeader g) 4 4, (pageBytes g).length == g.used + 1)) =
    [(64, 0x00040100, true)] := by decide +kernel

def replayBody : List Byte :=
  [0, 0, 0, 0] ++ leBytes 4 0 ++ leBytes 6 0 ++ leBytes 4 0 ++ leBytes 6 0 ++ leBytes 4 200000 ++ leBytes 4 0 ++ zoneRecord false ringZone.banks.active 0
def replaying : State := ask 0x0600 replayBody ringed
def aJob : ReplayJob :=
  { state := 1, priority := 0, source := 0, sourceId := 0, event := 0, entry := 0, zoneRecord := zoneRecord false ringZone.banks.active 0, startNs := 0,
    endNs := 200000, journal := 1, total := 2, nextRound := 7 }
def withJob (i : Nat) (s : State) : State := { s with inkstone := { s.inkstone with jobs := [(i, aJob)] } }
/-- Every lane holds a piece that leaves no spare cycle. -/
def crowded : State :=
  let s := withJob 3 ringed
  let piece (l : Nat) : Placement := { zone := 0, lane := l, first := 0, take := 1, used := 1000000000 }
  { s with mode := { s.mode with current := .run }, herder := { s.herder with run := { s.herder.run with pieces := (List.range 128).map piece } } }
def newestEvents : List Byte := [0, 0, 0, 0, 0, 0, 0, 0, 7] ++ List.replicate 7 0

/-- Meets the hypotheses of RecordsAndReplays. -/
theorem hyps_RecordsAndReplays : (recordOf heldRecord 1 = some anEvent ∧ anEvent.completeness = 0 ∧ recordReady heldRecord anEvent = true) ∧
    (mayExecute (ask 0x0503 newestEvents heldRecord) 0x0503 (rq 0x0503 newestEvents) ∧ field newestEvents 0 1 = 0 ∧ 1 ≤ field newestEvents 8 1 ∧ field newestEvents 8 1 ≤ 7) ∧
    (mayExecute replaying 0x0600 (rq 0x0600 replayBody) ∧ field replayBody 0 1 = 0 ∧ field replayBody 1 1 ≤ 2 ∧ field replayBody 4 4 = 0 ∧
      field replayBody 2 2 < 1024 ∧ field (slice replayBody 32 64) 2 1 = zonePort (field replayBody 2 2) ∧ field (slice replayBody 32 64) 5 1 < 16 ∧
      field (slice replayBody 32 64) 60 4 = 0 ∧ replayMode replaying.mode.current = true ∧ replaying.pointer.areaSram = false ∧
      replayInRange replaying (replayAsk replaying replayBody) (sourceRuns replaying 0 (field replayBody 2 2) 0 (field replayBody 2 1)) = true ∧
      replayProgramBad replaying (replayAsk replaying replayBody) = false ∧ replaying.inkstone.jobs = [] ∧ 16 ≤ vecRead replaying.memory.regions 4 0) ∧
    (mayExecute (withJob 15 (ask 0x0601 [15, 0, 0, 0] ringed)) 0x0601 (rq 0x0601 [15, 0, 0, 0]) ∧
      (withJob 15 (ask 0x0601 [15, 0, 0, 0] ringed)).inkstone.jobs = [(field [15, 0, 0, 0] 0 1, aJob)] ∧ aJob.state ≤ 1) ∧
    (mayExecute (ask 0x0602 [0xFF, 0, 0, 0] ringed) 0x0602 (rq 0x0602 [0xFF, 0, 0, 0]) ∧ field [0xFF, 0, 0, 0] 0 1 = 0xFF) ∧
    ((withJob 3 ringed).inkstone.jobs = [((3 : Fin 16).val, aJob)] ∧ aJob.state = 1 ∧ aJob.waiting = [] ∧ aJob.done + 1 < aJob.total ∧ aJob.source = 0 ∧
      ((zoneRuns (readPort (withJob 3 ringed) (zonePort aJob.sourceId)) aJob.sourceId).head?.map fun u =>
        decide (u.round = aJob.nextRound ∧ u.round % max 1 (field aJob.zoneRecord 20 2) = 0 ∧ u.time < aJob.endNs)) = some true) ∧ (jobLane (withJob 3 ringed) aJob).isSome = true ∧ aJob.done < aJob.total ∧
    (crowded.inkstone.jobs = [((3 : Fin 16).val, aJob)] ∧ aJob.stepped = aJob.done ∧ jobLane crowded aJob = none) := by
  simp only [mayExecute_iff]
  decide +kernel

def badWord (store : Fin 5) (corrected : Bool) : SramError := { store := store, word := 5, port := 0, index := 0, kind := 0, corrected := corrected }
def aRow : DramRow := { channel := 0, rank := 0, bank := 7, row := 0, requester := 7 }
def badSector (uncorrectable : Bool) : DramError := { port := 1, loc := aRow, uncorrectable := uncorrectable, sector := 0, owner := 0 }
def dramState (m : Mode) (f : DramPort) : State := onDram 1 (fun _ => f) (inMode m)
def trained (ok : Bool) : TrainingResult :=
  { fitted := true, matching := true, capacityMib := 4096, rank1 := false, byteMode := false, trained := ok, delays := { eye := Vector.replicate 4 20 }, previousVerify := false }

/-- Meets the hypotheses of MemoryIsKept. -/
theorem hyps_MemoryIsKept : ((badWord 0 true).corrected = true ∧ (badWord 0 false).corrected = false ∧ (badWord 0 false).store.val = 0 ∧
      (badWord 4 false).store.val = 4) ∧ ((inMode .run).mode.inProgress = none ∧ (inMode .run).banks.switch = none) ∧
    ((badSector false).uncorrectable = false ∧ (badSector true).uncorrectable = true ∧
      (dramOf (dramState .run { marked := List.replicate 1023 3 }) 1).retired.length + (dramOf (dramState .run { marked := List.replicate 1023 3 }) 1).marked.length < 1024 ∧
      sectorPage (dramState .run { marked := List.replicate 1023 3 }) 1 (badSector true).loc (badSector true).sector ∉
        (dramOf (dramState .run { marked := List.replicate 1023 3 }) 1).retired) ∧
    12 ∈ (dramOf (dramState .run { marked := [12] }) 1).marked ∧
    ((dramState .run { state := .online, retraining := true }).mode.current ≠ .boot ∧ (dramOf (dramState .run { state := .online, retraining := true }) 1).state = .online ∧
      (dramOf (dramState .run { state := .online, retraining := true }) 1).deferredRate = none ∧
      (dramOf (dramState .run { state := .online, retraining := true }) 1).cause = 0 ∧ (trained true).trained = true ∧
      sweeps (dramState .run { state := .online, retraining := true }) 1 = true ∧ sweeps { dramState .run {} with booted := [(paramKey (dramId 1 Pid.memPortTrainMode) 0, 0)] } 1 = false ∧
      ∀ l : Fin 4, paramNat (dramState .run { state := .online, retraining := true }) Pid.memMinEyeSteps 0 ≤ (trained true).delays.eye.get l) ∧
    ((dramOf (dramState .run { state := .training, retraining := true }) 1).state = .training ∧
      trainingOutcome (dramState .run { state := .training, retraining := true }) 1 (trained false) = 2) ∧
    ((dramOf (dramState .run { state := .online, checkDue := true }) 1).state = .online ∧ (dramOf (dramState .run { state := .online, checkDue := true }) 1).pasr = false ∧
      (dramOf (dramState .run { state := .online, checkDue := true }) 1).checkDue = true ∧ (dramOf (dramState .run { state := .online, checkDue := true }) 1).retraining = false) ∧
    (dramOf (dramState .run { postponed := 8 }) 1).postponed ≤ 8 ∧ (0 < 1) ∧
    ((dramState .config { state := .online }).mode.current = .config ∧ 4266 ∈ [1600, 2133, 3200, 3733, 4266] ∧ (dramOf (dramState .config { state := .online }) 1).state = .online ∧
      (dramOf (dramState .config { state := .online }) 1).retraining = false) := by decide +kernel

def inDomain (d : Fin 2) (f : Domain) (s : State) : State := onDomain d (fun _ => f) s
def linked0 : State := onEth 0 (fun e => { e with linkUp := true }) (inMode .run)
def stepping : State := { inMode .config with time := { State.reset.time with stepPending := true } }

/-- Meets the hypotheses of TimeFollowsDomains. -/
theorem hyps_TimeFollowsDomains : (timeRuns (inMode .run) = true ∧ (inMode .run).scribe.restarting = false ∧ ptpMatches (inMode .run) 1 0 1 0 = true ∧
      5 ≠ (domainOf (inDomain 1 { masterId := 9, masterRank := 2 } (inMode .run)) 1).masterId ∧
      1 < (domainOf (inDomain 1 { masterId := 9, masterRank := 2 } (inMode .run)) 1).masterRank) ∧
    9 = (domainOf (inDomain 1 { masterId := 9, masterRank := 2 } (inMode .run)) 1).masterId ∧
    (paramNat linked0 Pid.timeDomEthPort 0 < 2 ∧ (ethOf linked0 (paramNat linked0 Pid.timeDomEthPort 0)).linkUp = true ∧ timeRuns linked0 = true) ∧
    ((inMode .run).mode.current ≠ .mirror ∧ incrementOk 1373015145185 = true ∧ incrementOk 1375763924255 = true) ∧ (inMode .mirror).mode.current = .mirror ∧
    (inMode .run).paramsWf = true ∧ (timeSelectStatus (inMode .run) 1 true = 0 ∧ timeSelectStatus (inMode .run) 0 false = 0) ∧
    ((1 : Fin 2) ≠ (inMode .run).time.select ∧ (domainOf (inMode .run) 1).locked = false) ∧ ({ State.reset.time with slewing := true }).slewing = true ∧
    (stepping.time.stepPending = true ∧ portsFire stepping = false) ∧
    (portsFire (onPort 1 (fun x => { x with gridRunning := true }) { inMode .run with time := stepping.time }) = true) ∧
    ((inMode .run).ticks < (domainOf (inMode .run) 1).servoTick + msTicks (paramNat (inMode .run) Pid.timeDomServoTimeoutMs 1)) ∧
    ((domainOf { inMode .run with ticks := msTicks 4000000 } 1).servoTick +
      msTicks (paramNat { inMode .run with ticks := msTicks 4000000 } Pid.timeDomServoTimeoutMs 1) ≤ { inMode .run with ticks := msTicks 4000000 }.ticks) := by
  decide +kernel

def syncing (f : TimeUnit → TimeUnit) : State := setP Pid.syncEnable 1 { inMode .run with time := f State.reset.time }
def pulsing (f : Tout) : State := { setP Pid.toutMode 2 (inMode .run) with time := { State.reset.time with touts := vecUpdate State.reset.time.touts 0 fun _ => f } }
def timing (f : Tdc) : State := { inMode .run with time := { State.reset.time with tdc := f } }
def withAxis (n : Nat) (s : State) : State := { s with time := { s.time with axis := n } }

/-- SYNC_IN running with a hold-off of 2 ns after an edge at axis time 0. -/
def chattering : State := paramPut Pid.tdcCmpHoldoffNs 2 2 (syncing fun t => { t with syncLast := some 0, axis := 0 })

/-- Meets the hypotheses of PulsesAreTimed on an edge within the hold-off, wherever in its tick it falls. -/
theorem hyps_PulsesAreTimed_chatter : paramBool chattering Pid.syncEnable 0 = true ∧ timeRuns chattering = true ∧
    chattering.time.syncLast = some 0 ∧ axisLsb chattering + edgePlace chattering - 0 < 256 * paramNat chattering Pid.tdcCmpHoldoffNs 2 :=
  have hold : axisLsb chattering + 320 ≤ 256 * paramNat chattering Pid.tdcCmpHoldoffNs 2 := by decide +kernel
  have place : edgePlace chattering < 320 := Nat.mod_lt _ (by decide)
  ⟨by decide +kernel, by decide +kernel, rfl, by omega⟩

/-- SYNC_IN engaged while port 0 fires. -/
def syncFiring : State := setP Pid.syncEnable 1 { firing with time := { firing.time with syncEngaged := true } }

/-- Meets the hypotheses of PulsesAreTimed on an edge that waits for ports that fire, and on one that does not. -/
theorem hyps_PulsesAreTimed_ports : (paramBool syncFiring Pid.syncEnable 0 = true ∧ timeRuns syncFiring = true ∧
      syncFiring.time.syncLast = none ∧ syncFiring.time.syncGood < 7 ∧ portsFire syncFiring = true) ∧
    portsFire (syncing fun t => { t with syncEngaged := true }) = false ∧
    (syncing fun t => { t with syncEngaged := true }).time.stepPending = false := by decide +kernel

/-- Meets the hypotheses of PulsesAreTimed. -/
theorem hyps_PulsesAreTimed : (paramBool (syncing fun t => { t with syncEngaged := true }) Pid.syncEnable 0 = true ∧ timeRuns (syncing fun t => { t with syncEngaged := true }) = true ∧
      (syncing fun t => { t with syncEngaged := true }).time.syncLast = none ∧ (syncing fun t => { t with syncEngaged := true }).time.syncGood < 7) ∧
    (timeRuns (pulsing { next := some 0 }) = true ∧ (toutOf (pulsing { next := some 0 }) 0).next = some 0 ∧ toutNow (pulsing { next := some 0 }) 0 = 0 ∧
      paramNat (pulsing { next := some 0 }) Pid.toutMode 0 = 2 ∧ 0 < paramNat (pulsing { next := some 0 }) Pid.toutPeriodNs 0) ∧
    0 + 2 ≤ toutNow (withAxis (2 * nsUnits) (pulsing { next := some 0 })) 0 ∧
    (inRange (Pid.toutMode + 5) 0 10 = true ∧ toutStatus (pulsing {}) 0 5 10 = 0 ∧ (toutOf (pulsing {}) 0).active = false ∧
      (toutOf (pulsing { active := true }) 0).active = true ∧ toutStatus (pulsing { active := true }) 0 5 10 = 0) ∧
    ((timing {}).mode.current ≠ .survey ∧ timeRuns (timing {}) = true ∧ (timing { running := true }).time.tdc.running = true ∧ (inMode .survey).mode.current = .survey) ∧
    (edgeLive (timing { running := true }) false = true ∧ edgeLive (timing { running := true, start := some 4 }) true = true ∧
      ∀ e : Bool, edgeLive (setP Pid.tdcStartSource 3 (setP Pid.tdcStopSource 2 (timing { running := true }))) e = false) ∧
    (heldOff (timing { running := true }) false 4 = false ∧ heldOff (timing { running := true, start := some 4 }) true (4 + 2 ^ 24 * 320) = false) ∧
    (paramNat (timing { running := true }) Pid.tdcMode 0 = 0 ∧ (timing { running := true }).time.tdc.start = none ∧
      (timing { running := true, start := some 4 }).time.tdc.start = some 4 ∧ 4 + 2 ^ 24 * 320 ≠ 4 ∧ (((4 + 2 ^ 24 * 320 : Nat) : Int) - (4 : Nat)).natAbs ≤ 2 ^ 24 * 320) := by
  decide +kernel

def queued (link : Nat) (f : OutQueue → OutQueue) : State :=
  let s := setA Pid.hostQueueLink 7 link linked0
  { onQueue 7 (fun x => f { x with staged := [(0, 0, [1, 2, 3])], running := true, enabled := true, tail := 2 }) s with
    links := { (onQueue 7 (fun x => f { x with staged := [(0, 0, [1, 2, 3])], running := true, enabled := true, tail := 2 }) s).links with pcieUp := true } }

/-- Meets the hypotheses of QueuesDeliver. -/
theorem hyps_QueuesDeliver : ((queueOf (queued 1 id) 7).staged = [(0, 0, [1, 2, 3])] ∧ (queueOf (queued 1 id) 7).running = true ∧ queueLink (queued 1 id) 7 = 1 ∧
      (queued 1 id).links.pcieUp = true ∧ (queued 1 id).links.pcieL1 = false ∧
      (∀ b ∈ [256, 1048576].take (((queueOf (queued 1 id) 7).tail.toNat % 65536 + ringEntries (queued 1 id) 7 - (queueOf (queued 1 id) 7).head.toNat) % ringEntries (queued 1 id) 7), bufferOk b = true) ∧
      buffersFor ([1, 2, 3] : List Byte).length ([256, 1048576].take (((queueOf (queued 1 id) 7).tail.toNat % 65536 + ringEntries (queued 1 id) 7 - (queueOf (queued 1 id) 7).head.toNat) % ringEntries (queued 1 id) 7)) = some 1) ∧
    (queueLink (queued 2 id) 7 = 2 ∧ (ethOf (queued 2 id) 0).linkUp = true) ∧
    (0 < (queueOf (queued 1 fun x => { x with irqItems := 16 }) 7).irqItems ∧
      paramNat (queued 1 fun x => { x with irqItems := 16 }) Pid.hostQueueIrqItems 7 ≤ (queueOf (queued 1 fun x => { x with irqItems := 16 }) 7).irqItems) ∧
    (64 % 64 = 0 ∧ bufferOk 256 = true ∧ DescriptorRead.poisoned = .poisoned) ∧
    ((1023#32).toNat % 65536 < ringEntries (queued 1 id) 7 ∧ ringEntries (queued 1 id) 7 ≤ (1024#32).toNat % 65536) := by decide +kernel

/-- Meets the hypotheses of EventsArePosted. -/
theorem hyps_EventsArePosted : (State.reset.evq.head + 1) % 128 ≠ State.reset.evq.tail ∧
    (({ State.reset.evq with head := 127, tail := 0 } : EventQueue).head + 1) % 128 = ({ State.reset.evq with head := 127, tail := 0 } : EventQueue).tail ∧
    severity 0x0101 ≠ 3 ∧ severity 0x2C01 = 3 ∧ State.reset.scribe.restarting = false ∧
    ({ State.reset.scribe with restarting := true } : Scribe).restarting = true := by
  decide +kernel

/-- Meets the hypotheses of FireStaysConfined. -/
theorem hyps_FireStaysConfined : State.reset.fireConfined ∧ ({ emitting with pending := [] }).fireConfined ∧ (portOf emitting 0).shots = [] := by
  unfold State.fireConfined; decide +kernel
/-- Meets the hypotheses of FireStaysConfined_step. -/
theorem hyps_FireStaysConfined_step : ∃ t, step State.reset = .next t := ⟨_, rfl⟩

/-- Meets the hypotheses of FrontCommandRuns. -/
theorem hyps_FrontCommandRuns : ({ State.reset with pending := [.pwrgdFall] } : State).pending = [Instr.pwrgdFall] := rfl


end Sys2Proof.Tests
end

/-! PROOF. Serif moves, comparisons, exponents and LOG2 (R247, R249, R255, R256). A move's effect on its lane is read off the
model; what needs an argument is the flags of CMP, the table of LOG2 and the number of redundant sign bits. -/

namespace Sys2Proof.Machine

/-- An instruction that retires with effect `f`, no REP waiting, leaves the lane as `f` makes it. -/
theorem laneRuns_of_effect {i : Instr} {l : Nat} {s : State} {f : Lane → Lane} {x : Lane} (hr : (laneOf s l).rep = none)
    (he : exec i s = .next (onLane l (laneRetire f) s)) (hx : f (laneOf s l) = x) : laneRuns i l s x :=
  laneRuns_of_retire hr he (by rw [hx])

/-! ## Bit fields, addresses and the piece descriptor -/

/-- LDIH's mask and shift put the immediate in front of the low 16 bits. -/
theorem insertHigh_eq_append (b : BitVec 8) (v : BitVec 24) :
    (b.setWidth 24 <<< 16) ||| (v &&& 0xFFFF#24) = b ++ v.setWidth 16 := by
  ext i hi
  have hmask : (0xFFFF#24)[i] = decide (i < 16) := by
    rw [show 0xFFFF#24 = (BitVec.allOnes 16).setWidth 24 from rfl, BitVec.getElem_setWidth, BitVec.getLsbD_allOnes]
  rw [BitVec.getElem_or, BitVec.getElem_and, hmask]
  by_cases h : i < 16
  · grind
  · grind

/-- Bits [23:16] of a data value, as QOR takes them. -/
theorem extractHigh_eq_shift (v : BitVec 24) : v.extractLsb' 16 8 = (v >>> 16).setWidth 8 := by
  ext i hi
  simp

/-- Address register 0–7 is a pointer. -/
theorem laneSetAddr_pointer (x : Lane) (k : Fin 8) (v : BitVec 14) :
    laneSetAddr x ⟨k.val, by omega⟩ v = { x with p := x.p.set k v } := by
  simp [laneSetAddr]

/-- Address register 8–15 is an offset register. -/
theorem laneSetAddr_offset (x : Lane) (k : Fin 8) (v : BitVec 14) :
    laneSetAddr x ⟨k.val + 8, by omega⟩ v = { x with o := x.o.set k v } := by
  simp [laneSetAddr]

/-- A pointer is read zero-extended. -/
theorem laneGetAddr_pointer (x : Lane) (k : Fin 8) : laneGetAddr x ⟨k.val, by omega⟩ = (x.p.get k).setWidth 24 := by
  simp [laneGetAddr, Vector.get_eq_getElem]

/-- An offset register is read sign-extended. -/
theorem laneGetAddr_offset (x : Lane) (k : Fin 8) : laneGetAddr x ⟨k.val + 8, by omega⟩ = (x.o.get k).signExtend 24 := by
  simp [laneGetAddr, Vector.get_eq_getElem]

/-- MOVS leaves the piece descriptor's word in its register (R249). -/
theorem laneRuns_movs (s : State) (l : Fin 128) (d n : Fin 16) (pc : Piece) (hr : (laneOf s l).rep = none)
    (hp : (laneOf s l).piece = some pc) :
    laneRuns (.movs l d n) l s { (laneOf s l) with x := (laneOf s l).x.set d (BitVec.ofNat 24 (
      [pc.zone, pc.port, pc.slots, pc.points, pc.firstPoint, pc.firstCell, pc.pitch, pc.gauge, pc.rateDiv, pc.slice, pc.slices,
        pc.round % 2 ^ 24, pc.round / 2 ^ 24 % 256, pc.histBase, pc.histLen, if pc.emit then 1 else 0].getD n 0)) } :=
  laneRuns_of_effect hr rfl (congrArg (lanePut _ d) (by simp only [laneDescriptor, hp]))

/-! ## CMP and SEL -/

/-- Setting one lane flag leaves the others. -/
theorem laneFlag_getLsbD (x : Lane) {i : Nat} (j : Nat) (b : Bool) (hi : i < 9) :
    (laneFlag x i b).flags.getLsbD j = if j = i then b else x.flags.getLsbD j := by
  have hbit : (1#9 <<< i).getLsbD j = decide (j = i) := by
    rw [← BitVec.twoPow_eq, BitVec.getLsbD_twoPow]
    grind
  cases b
  · rw [laneFlag, if_neg (by decide), BitVec.getLsbD_and, BitVec.getLsbD_not, hbit]
    grind
  · rw [laneFlag, if_pos rfl, BitVec.getLsbD_or, hbit]
    grind

/-- The flags after CMP: LT, EQ and the ones it leaves. -/
theorem laneCmp_getLsbD (x : Lane) (a b : Fin 16) (j : Nat) : (laneCmp x a b).flags.getLsbD j =
    if j = 1 then x.x.get a == x.x.get b else if j = 0 then decide (laneInt x a < laneInt x b) else x.flags.getLsbD j := by
  rw [laneCmp, laneFlag_getLsbD _ _ _ (by decide), laneFlag_getLsbD _ _ _ (by decide)]
  rfl

/-- CMP leaves the flags above LT and EQ. -/
theorem laneCmp_flags_shift (x : Lane) (a b : Fin 16) : (laneCmp x a b).flags >>> 2 = x.flags >>> 2 := by
  refine BitVec.eq_of_getLsbD_eq fun i _ => ?_
  rw [BitVec.getLsbD_ushiftRight, BitVec.getLsbD_ushiftRight, laneCmp_getLsbD, if_neg (by omega), if_neg (by omega)]

/-- SEL's condition, read off LT and EQ. -/
theorem laneCond_eq (x : Lane) (c : Fin 4) : laneCond x c =
    if c.val = 0 then x.flags.getLsbD 0 else if c.val = 1 then x.flags.getLsbD 1
      else if c.val = 2 then x.flags.getLsbD 0 || x.flags.getLsbD 1 else !x.flags.getLsbD 1 := by
  fin_cases c <;> rfl

/-! ## LOG2 (R255) -/

/-- The 8 bits below the highest set bit of `v`, zeros taken below bit 0. -/
def log2Fraction (v : Nat) : Nat := (if 8 ≤ Nat.log2 v then v / 2 ^ (Nat.log2 v - 8) else v * 2 ^ (8 - Nat.log2 v)) % 256

/-- Of zero or a negative accumulator LOG2 gives 0x800000. -/
theorem laneLog2_of_nonpos {m : BitVec 56} (h : m.toInt ≤ 0) : laneLog2 m = 0x800000#24 := by
  have hm : m.msb = true ∨ m = 0 := by
    rw [BitVec.toInt_eq_msb_cond] at h
    cases hs : m.msb
    · exact .inr (BitVec.eq_of_toNat_eq (by simpa [hs] using h))
    · exact .inl rfl
  exact if_pos (by simpa using hm)

/-- A positive accumulator reads as a natural number below 2^55. -/
theorem toNat_of_toInt_pos {m : BitVec 56} (h : 0 < m.toInt) : m.toNat ≠ 0 ∧ m.toNat < 2 ^ 55 ∧ m.msb = false := by
  have hs : m.msb = false := by
    by_contra hs
    have := BitVec.toInt_neg_of_msb_true (by simpa using hs)
    omega
  have := BitVec.toInt_eq_toNat_of_msb hs
  have := BitVec.msb_eq_false_iff_two_mul_lt.mp hs
  exact ⟨by omega, by omega, hs⟩

/-- Of a positive accumulator LOG2 gives 256 times the place of its highest bit plus the table's entry. -/
theorem laneLog2_of_pos {m : BitVec 56} (h : 0 < m.toInt) :
    laneLog2 m = BitVec.ofNat 24 (256 * Nat.log2 m.toNat + log2Table (log2Fraction m.toNat)) := by
  obtain ⟨h0, -, hs⟩ := toNat_of_toInt_pos h
  have hz : m ≠ 0#56 := fun e => h0 (by simp [e])
  exact if_neg (by simp [hs, hz])

/-- The leading nine bits of `v` are 256 plus the fraction. -/
theorem log2Fraction_eq {v : Nat} (hv : v ≠ 0) : 256 + log2Fraction v = v * 256 / 2 ^ Nat.log2 v := by
  have hlo : 256 ≤ v * 256 / 2 ^ Nat.log2 v := by
    rw [Nat.le_div_iff_mul_le (by positivity), mul_comm]
    exact Nat.mul_le_mul_right _ (Nat.log2_self_le hv)
  have hhi : v * 256 / 2 ^ Nat.log2 v < 512 := by
    rw [Nat.div_lt_iff_lt_mul (by positivity)]
    have := @Nat.lt_log2_self v
    rw [pow_succ] at this
    omega
  have hlead : (if 8 ≤ Nat.log2 v then v / 2 ^ (Nat.log2 v - 8) else v * 2 ^ (8 - Nat.log2 v)) = v * 256 / 2 ^ Nat.log2 v := by
    split
    next hb =>
      rw [← Nat.mul_div_mul_right v (2 ^ (Nat.log2 v - 8)) (by norm_num : 0 < 256), show 256 = 2 ^ 8 from rfl, ← pow_add,
        Nat.sub_add_cancel hb]
    next hb =>
      refine (Nat.div_eq_of_eq_mul_left (by positivity) ?_).symm
      rw [mul_assoc, ← pow_add, Nat.sub_add_cancel (by omega)]
      rfl
  rw [log2Fraction, hlead]
  omega

/-- The power whose logarithm the table rounds is positive. -/
theorem mantissa_ne_zero (i : Nat) : (256 + i) ^ 512 ≠ 0 := pow_ne_zero 512 (by omega)

/-- The power whose logarithm the table rounds rises with its base. -/
theorem mantissa_mono {x y : Nat} (h : x ≤ y) : x ^ 512 ≤ y ^ 512 := by gcongr

/-- A power's highest bit is at least the exponent times that of its base. -/
theorem le_log2_pow {k x : Nat} (n : Nat) (h : 2 ^ k ≤ x) : k * n ≤ Nat.log2 (x ^ n) := by
  have hx : x ≠ 0 := (Nat.two_pow_pos k).trans_le h |>.ne'
  rw [Nat.le_log2 (pow_ne_zero n hx), pow_mul]
  exact Nat.pow_le_pow_left h n

/-- The power whose logarithm the table rounds has its highest bit at 4096 or above. -/
theorem le_log2_mantissa (i : Nat) : 4096 ≤ Nat.log2 ((256 + i) ^ 512) :=
  le_log2_pow (k := 8) 512 (Nat.le_add_right 256 i)

/-- The table's entry rounds 256 × log2(1 + i/256) half up: 2T − 1 ≤ 512 × log2(1 + i/256) < 2T + 1. -/
theorem log2Table_rounds (i : Nat) :
    2 ^ (2 * log2Table i + 4096) ≤ 2 * (256 + i) ^ 512 ∧ 2 * (256 + i) ^ 512 < 2 ^ (2 * log2Table i + 4098) := by
  have hge := le_log2_mantissa i
  have hdef : log2Table i = (Nat.log2 ((256 + i) ^ 512) - 4096 + 1) / 2 := rfl
  have hx := mantissa_ne_zero i
  generalize (256 + i) ^ 512 = x at *
  constructor
  · calc 2 ^ (2 * log2Table i + 4096) ≤ 2 ^ (Nat.log2 x + 1) := Nat.pow_le_pow_right two_pos (by omega)
      _ = 2 * 2 ^ Nat.log2 x := pow_succ' 2 _
      _ ≤ 2 * x := Nat.mul_le_mul_left 2 (Nat.log2_self_le hx)
  · calc 2 * x < 2 * 2 ^ (Nat.log2 x + 1) := Nat.mul_lt_mul_of_pos_left Nat.lt_log2_self two_pos
      _ = 2 ^ (Nat.log2 x + 2) := (pow_succ' 2 _).symm
      _ ≤ 2 ^ (2 * log2Table i + 4098) := Nat.pow_le_pow_right two_pos (by omega)

/-- The table's first entry. -/
theorem log2Table_zero : log2Table 0 = 0 := by decide +kernel

/-- The table's last entry. -/
theorem log2Table_last : log2Table 255 = 255 := by decide +kernel

/-- The table rises. -/
theorem log2Table_mono {i j : Nat} (h : i ≤ j) : log2Table i ≤ log2Table j := by
  have hlog : Nat.log2 ((256 + i) ^ 512) ≤ Nat.log2 ((256 + j) ^ 512) :=
    (Nat.le_log2 (mantissa_ne_zero j)).mpr ((Nat.log2_self_le (mantissa_ne_zero i)).trans (mantissa_mono (Nat.add_le_add_left h 256)))
  rw [log2Table, log2Table]
  omega

/-- LOG2 of a positive accumulator, with its highest bit, the bits below it and the rounded table value named (R255). -/
theorem laneLog2_spec {m : BitVec 56} (h : 0 < m.toInt) : ∃ b i n : Nat, b ≤ 54 ∧ 2 ^ b ≤ m.toNat ∧ m.toNat < 2 ^ (b + 1) ∧
    256 + i = m.toNat * 256 / 2 ^ b ∧ i < 256 ∧ 2 ^ (2 * n + 4096) ≤ 2 * (256 + i) ^ 512 ∧
    2 * (256 + i) ^ 512 < 2 ^ (2 * n + 4098) ∧ laneLog2 m = BitVec.ofNat 24 (256 * b + n) ∧ (i = 0 → n = 0) ∧
    (i = 255 → n = 255) ∧ 256 * b + n ≤ 14079 := by
  obtain ⟨h0, hlt, -⟩ := toNat_of_toInt_pos h
  have hb : Nat.log2 m.toNat < 55 := (Nat.log2_lt h0).mpr hlt
  have hi : log2Fraction m.toNat < 256 := Nat.mod_lt _ (by norm_num)
  obtain ⟨hround, hround'⟩ := log2Table_rounds (log2Fraction m.toNat)
  have hn : log2Table (log2Fraction m.toNat) ≤ 255 := (log2Table_mono (by omega)).trans_eq log2Table_last
  exact ⟨Nat.log2 m.toNat, log2Fraction m.toNat, log2Table (log2Fraction m.toNat), by omega, Nat.log2_self_le h0, Nat.lt_log2_self,
    log2Fraction_eq h0, hi, hround, hround', laneLog2_of_pos h, fun e => by rw [e, log2Table_zero],
    fun e => by rw [e, log2Table_last], by omega⟩

/-! ## Redundant sign bits (R256) -/

/-- The value whose highest bit `redundantSigns` looks for: `v`, or its complement when `v` is negative. -/
def signMagnitude (v : BitVec 24) : Nat := if v.msb then (~~~ v).toNat else v.toNat

/-- The number of redundant sign bits, from the highest bit of the magnitude. -/
theorem redundantSigns_eq (v : BitVec 24) :
    redundantSigns v = if signMagnitude v = 0 then 23 else 22 - Nat.log2 (signMagnitude v) := rfl

/-- The magnitude is below 2^23, and it is `v` or −1 − `v`. -/
theorem signMagnitude_spec (v : BitVec 24) :
    signMagnitude v < 2 ^ 23 ∧ (v.toInt = signMagnitude v ∨ v.toInt = -1 - (signMagnitude v : Int)) := by
  rw [signMagnitude, BitVec.toInt_eq_msb_cond]
  have hv := v.isLt
  cases hs : v.msb
  · have := BitVec.msb_eq_false_iff_two_mul_lt.mp hs
    exact ⟨by simp; omega, .inl (by simp)⟩
  · have := BitVec.msb_eq_true_iff_two_mul_ge.mp hs
    exact ⟨by simp; omega, .inr (by simp; omega)⟩

/-- At most 23 bits are redundant. -/
theorem redundantSigns_le (v : BitVec 24) : redundantSigns v ≤ 23 := by
  rw [redundantSigns_eq]
  split <;> omega

/-- Shifted left by its redundant sign bits, the magnitude fills 23 bits and no more. -/
theorem signMagnitude_scaled {v : BitVec 24} (h : signMagnitude v ≠ 0) :
    (signMagnitude v + 1) * 2 ^ redundantSigns v ≤ 2 ^ 23 ∧ 2 ^ 23 ≤ signMagnitude v * (2 ^ redundantSigns v * 2) := by
  have hlog : Nat.log2 (signMagnitude v) < 23 := (Nat.log2_lt h).mpr (signMagnitude_spec v).1
  rw [redundantSigns_eq, if_neg h]
  constructor
  · calc (signMagnitude v + 1) * 2 ^ (22 - Nat.log2 (signMagnitude v))
        ≤ 2 ^ (Nat.log2 (signMagnitude v) + 1) * 2 ^ (22 - Nat.log2 (signMagnitude v)) :=
          Nat.mul_le_mul_right _ (Nat.succ_le_of_lt Nat.lt_log2_self)
      _ = 2 ^ 23 := by rw [← pow_add]; congr 1; omega
  · calc 2 ^ 23 = 2 ^ Nat.log2 (signMagnitude v) * 2 ^ (22 - Nat.log2 (signMagnitude v) + 1) := by
          rw [← pow_add]; congr 1; omega
      _ ≤ signMagnitude v * 2 ^ (22 - Nat.log2 (signMagnitude v) + 1) := Nat.mul_le_mul_right _ (Nat.log2_self_le h)

/-- A value fits 24 bits when shifted left by its redundant sign bits, and unless it is 0 by one bit more it does not (R256). -/
theorem redundantSigns_spec (v : BitVec 24) :
    redundantSigns v ≤ 23 ∧ -8388608 ≤ v.toInt * 2 ^ redundantSigns v ∧ v.toInt * 2 ^ redundantSigns v ≤ 8388607 ∧
    (v ≠ 0 → v.toInt * 2 ^ (redundantSigns v + 1) < -8388608 ∨ 8388607 < v.toInt * 2 ^ (redundantSigns v + 1)) := by
  refine ⟨redundantSigns_le v, ?_⟩
  obtain ⟨-, hv⟩ := signMagnitude_spec v
  by_cases h : signMagnitude v = 0
  · rw [redundantSigns_eq, if_pos h]
    rw [h] at hv
    obtain hv | hv := hv
    · simp [BitVec.eq_of_toInt_eq (show v.toInt = (0#24).toInt by simpa using hv)]
    · simp [hv]
  · obtain ⟨hfit, hfull⟩ := signMagnitude_scaled h
    have hpow : 0 < 2 ^ redundantSigns v := by positivity
    zify at hfit hfull hpow
    rw [pow_succ _ (redundantSigns v)]
    obtain hv | hv := hv
    · rw [hv]
      refine ⟨?_, ?_, fun _ => .inr ?_⟩ <;> linarith
    · rw [hv]
      refine ⟨?_, ?_, fun _ => .inl ?_⟩ <;> linarith

/-! ## The obligation -/

/-- CMP sets LT and EQ and leaves the rest of the lane but for its progress. -/
theorem exec_cmp (s : State) (l : Fin 128) (a b : Fin 16) (hr : (laneOf s l).rep = none) :
    ∃ t, exec (.cmp l a b) s = .next t ∧
      (laneOf t l).flags.getLsbD 0 = decide (((laneOf s l).x.get a).toInt < ((laneOf s l).x.get b).toInt) ∧
      (laneOf t l).flags.getLsbD 1 = ((laneOf s l).x.get a == (laneOf s l).x.get b) ∧
      (laneOf t l).flags >>> 2 = (laneOf s l).flags >>> 2 ∧
      laneOf t l = { (laneOf s l) with flags := (laneOf t l).flags, pc := (laneOf s l).pc + 1, cycles := (laneOf s l).cycles + 1, rep := none } ∧
      (∀ k, k ≠ l.val → laneOf t k = laneOf s k) ∧ t = { s with serif := { s.serif with lanes := t.serif.lanes } } := by
  obtain ⟨t, ht, hlane, hother, hframe⟩ : laneRuns (.cmp l a b) l s (laneCmp (laneOf s l) a b) := laneRuns_of_effect hr rfl rfl
  have hflags : (laneOf t l).flags = (laneCmp (laneOf s l) a b).flags := by rw [hlane]
  refine ⟨t, ht, ?_, ?_, ?_, ?_, hother, hframe⟩
  · rw [hflags, laneCmp_getLsbD]; rfl
  · rw [hflags, laneCmp_getLsbD]; rfl
  · rw [hflags, laneCmp_flags_shift]
  · rw [hflags]; exact hlane

/-- Settles O46: the moves by their effects on the lane, CMP by its flags, LOG2 by its table and EXP by the magnitude's highest bit. -/
theorem serifMoves : Obligations.SerifMoves := by
  unfold Obligations.SerifMoves
  refine ⟨fun s l d a v b hr => ?_, fun s l d a k v hr => ?_, fun s l d n pc hr hp => ?_, exec_cmp,
    fun s l d a b c hr => ?_, fun s l d j hr => laneRuns_of_effect hr rfl rfl, fun m => laneLog2_of_nonpos, fun m => laneLog2_spec,
    rfl, redundantSigns_spec⟩
  · have run {i f x} := @laneRuns_of_effect i l s f x hr
    exact ⟨run rfl rfl, run rfl (congrArg (lanePut _ d) (insertHigh_eq_append b _)), run rfl rfl, run rfl rfl,
      run rfl (by rw [extractHigh_eq_shift]), run rfl rfl, run rfl rfl, run rfl rfl, run rfl rfl⟩
  · exact ⟨laneRuns_of_effect hr rfl (laneSetAddr_pointer _ k _), laneRuns_of_effect hr rfl (laneSetAddr_offset _ k _),
      laneRuns_of_effect hr rfl (laneSetAddr_pointer _ k v), laneRuns_of_effect hr rfl (laneSetAddr_offset _ k v),
      laneRuns_of_effect hr rfl (congrArg (lanePut _ d) (laneGetAddr_pointer _ k)),
      laneRuns_of_effect hr rfl (congrArg (lanePut _ d) (laneGetAddr_offset _ k))⟩
  · fin_cases n <;> exact laneRuns_movs s l d _ pc hr hp
  · exact laneRuns_of_effect hr rfl (congrArg (fun c => lanePut _ d (if c = true then _ else _)) (laneCond_eq _ c))

end Sys2Proof.Machine

/-! PROOF. O50: every Serif instruction is read back from its word, by each instruction's own law (`Laws/PerInstr`). -/

namespace Sys2Proof.Laws.Serif

/-- Every well-formed Serif instruction's word decodes to it; the other commands have no lane and no word. -/
theorem statement (i : Instr) : Statement i := by
  cases i with
  | nop l => exact nop l
  | endInsn l => exact endInsn l
  | rep l a => exact rep l a
  | loopi l a b => exact loopi l a b
  | loopp l a => exact loopp l a
  | dbnz l a b => exact dbnz l a b
  | ldi l a b => exact ldi l a b
  | ldih l a b => exact ldih l a b
  | mov l a b => exact mov l a b
  | movs l a b => exact movs l a b
  | seta l a b => exact seta l a b
  | setai l a b => exact setai l a b
  | geta l a b => exact geta l a b
  | getf l a => exact getf l a
  | add l a b c => exact add l a b c
  | sub l a b c => exact sub l a b c
  | addw l a b c => exact addw l a b c
  | subw l a b c => exact subw l a b c
  | and l a b c => exact and l a b c
  | or l a b c => exact or l a b c
  | xor l a b c => exact xor l a b c
  | min l a b c => exact min l a b c
  | max l a b c => exact max l a b c
  | abs l a b => exact abs l a b
  | neg l a b => exact neg l a b
  | shli l a b c => exact shli l a b c
  | shrai l a b c => exact shrai l a b c
  | shrli l a b c => exact shrli l a b c
  | shrri l a b c => exact shrri l a b c
  | shv l a b c => exact shv l a b c
  | cmp l a b => exact cmp l a b
  | sel l a b c d => exact sel l a b c d
  | qor l a => exact qor l a
  | qget l a => exact qget l a
  | exp l a b => exact exp l a b
  | bxp l a => exact bxp l a
  | bxg l a => exact bxg l a
  | ld l a b c d e => exact ld l a b c d e
  | st l a b c d => exact st l a b c d
  | ldpt l a b c => exact ldpt l a b c
  | inInsn l a => exact inInsn l a
  | out l a b => exact out l a b
  | feat l a b c d => exact feat l a b c d
  | clr l a => exact clr l a
  | mac l a b c => exact mac l a b c
  | msu l a b c => exact msu l a b c
  | mac2 l a b c d e => exact mac2 l a b c d e
  | macld l a b c d e f g => exact macld l a b c d e f g
  | ext l a b c => exact ext l a b c
  | lda l a b c => exact lda l a b c
  | adda l a b => exact adda l a b
  | log2 l a b => exact log2 l a b
  | _ => exact of_noLane _ rfl

/-- A word that names an instruction has an opcode of 6 bits. -/
theorem lt_of_shape {l : Fin 128} {w : Nat} {i : Instr} (h : serifShape l w = some i) : w < 2 ^ 32 := by
  by_contra hw
  have hop : 64 ≤ w / 2 ^ 26 := by omega
  unfold serifShape at h
  split at h
  any_goals omega
  cases h

end Sys2Proof.Laws.Serif

namespace Sys2Proof.Laws

/-- Settles O50: the word decodes by its instruction's own law, and a word that decodes has no bit above its opcode. -/
theorem serifRoundTrip : Obligations.SerifRoundTrip := by
  unfold Obligations.SerifRoundTrip
  intro i l w hl hw hf
  have hd : decodeSerif l w = some i := Serif.statement i l w hl hw hf
  exact ⟨Serif.lt_of_shape (Option.filter_eq_some_iff.mp hd).1, hd⟩

end Sys2Proof.Laws

/-! PROOF. O60: no step gives FIRE outside the modes that fire. An operation that changes neither the mode nor the FIRE terms shows the
confinement unchanged (an equation); one that enters a mode keeps it (an implication); every command is then one of the two. -/

namespace Sys2Proof.Machine

/-- The confinement of FIRE looks at the mode and the safety unit alone. -/
@[simp] theorem fireConfined_mk (s : State) {power clocks straps pins banks params booted modeEntry scribe evq journal log firmware ports
    herder serif raman rtd hk pointer inkstone memory time links pair calib ticks free pending} : State.fireConfined {
      power, clocks, straps, pins, mode := s.mode, banks, params, booted, modeEntry, scribe, evq, journal, log, firmware, ports, herder,
      serif, raman, rtd, hk, pointer, inkstone, memory, time, links, pair, safety := s.safety, calib, ticks, free, pending } =
    s.fireConfined := rfl

/-- An update of the mode machine that shows the same mode keeps the confinement of FIRE. -/
@[simp] theorem onMode_fireConfined {f : ModeState → ModeState} {s : State} (hf : ∀ x, (f x).current = x.current) :
    (onMode f s).fireConfined = s.fireConfined := by
  simp only [State.fireConfined, onMode_mode, onMode_safety, hf]

/-- So does an update of the safety unit that keeps the FIRE terms. -/
@[simp] theorem onSafety_fireConfined {f : Safety → Safety} {s : State} (hf : ∀ x, (f x).fire = x.fire) :
    (onSafety f s).fireConfined = s.fireConfined := by
  simp only [State.fireConfined, onSafety_mode, onSafety_safety, hf]

/-- The FIRE terms of the mode are confined. -/
theorem onSafety_modeFire_confined {s u : State} {f : Safety → Safety} (hm : u.mode.current = s.mode.current)
    (h : (f s.safety).fire = modeFire u) : (onSafety f s).fireConfined := by
  unfold State.fireConfined
  simp only [onSafety_mode, onSafety_safety, h, modeFire, hm]
  cases s.mode.current <;> simp

@[simp] theorem settle_fireConfined (o s : State) : (settle o s).fireConfined = s.fireConfined := by
  simp only [State.fireConfined, settle_mode, settle_fire]

/-- A state that differs from a confined one by steps that keep the confinement is confined. -/
@[simp] theorem forEach_fireConfined {α : Type} {f : α → State → State} (h : ∀ x s, s.fireConfined → (f x s).fireConfined) (xs : List α) (s : State)
    (hs : s.fireConfined) : (forEach xs f s).fireConfined := by
  unfold forEach
  induction xs generalizing s with
  | nil => exact hs
  | cons x xs ih => exact ih (f x s) (h x s hs)
@[simp] theorem ite_fireConfined (c : Prop) [Decidable c] (s t : State) :
    (if c then s else t).fireConfined = if c then s.fireConfined else t.fireConfined := apply_ite State.fireConfined c s t

/-- Every entry of a mode sets FIRE for the mode entered. -/
@[simp] theorem fireConfined_setMode (m : Mode) (n : Nat) (s : State) : (setMode m n s).fireConfined := setMode_fireConfined m n s

@[simp] theorem relight_fireConfined (s : State) : (relight s).fireConfined = s.fireConfined := onSafety_fireConfined fun _ => rfl

@[simp] theorem onPort_fireConfined (p : Nat) (f : PortState → PortState) (s : State) : (onPort p f s).fireConfined = s.fireConfined :=
  onPort_keep State.fireConfined (by intros; rfl) _ _ _
@[simp] theorem paramPut_fireConfined (id idx : Nat) (v : Int) (s : State) : (paramPut id idx v s).fireConfined = s.fireConfined :=
  paramPut_keep State.fireConfined (by intros; rfl) _ _ _ _
@[simp] theorem bumpBy_fireConfined (n id idx : Nat) (s : State) : (bumpBy n id idx s).fireConfined = s.fireConfined :=
  bumpBy_keep State.fireConfined (by intros; rfl) _ _ _ _
@[simp] theorem bump_fireConfined (id idx : Nat) (s : State) : (bump id idx s).fireConfined = s.fireConfined :=
  bump_keep State.fireConfined (by intros; rfl) _ _ _
@[simp] theorem onPage_fireConfined (t : Nat) (f : PageSide → PageSide) (s : State) : (onPage t f s).fireConfined = s.fireConfined :=
  onPage_keep State.fireConfined (by intros; rfl) _ _ _
@[simp] theorem onTransport_fireConfined (t : Nat) (f : TransportState → TransportState) (s : State) :
    (onTransport t f s).fireConfined = s.fireConfined :=
  onTransport_keep State.fireConfined (by intros; rfl) _ _ _
@[simp] theorem onEth_fireConfined (n : Nat) (f : EthPort → EthPort) (s : State) : (onEth n f s).fireConfined = s.fireConfined :=
  onEth_keep State.fireConfined (by intros; rfl) _ _ _
@[simp] theorem onQueue_fireConfined (q : Nat) (f : OutQueue → OutQueue) (s : State) : (onQueue q f s).fireConfined = s.fireConfined :=
  onQueue_keep State.fireConfined (by intros; rfl) _ _ _
@[simp] theorem raiseVector_fireConfined (v : Nat) (s : State) : (raiseVector v s).fireConfined = s.fireConfined :=
  raiseVector_keep State.fireConfined (by intros; rfl) _ _
@[simp] theorem irqSet_fireConfined (t i : Nat) (s : State) : (irqSet t i s).fireConfined = s.fireConfined :=
  irqSet_keep State.fireConfined (by intros; rfl) _ _ _
@[simp] theorem irqBoth_fireConfined (i : Nat) (s : State) : (irqBoth i s).fireConfined = s.fireConfined :=
  irqBoth_keep State.fireConfined (by intros; rfl) _ _
@[simp] theorem onDram_fireConfined (a : Nat) (f : DramPort → DramPort) (s : State) : (onDram a f s).fireConfined = s.fireConfined :=
  onDram_keep State.fireConfined (by intros; rfl) _ _ _
@[simp] theorem onRaman_fireConfined (p : Nat) (f : Raman → Raman) (s : State) : (onRaman p f s).fireConfined = s.fireConfined :=
  onRaman_keep State.fireConfined (by intros; rfl) _ _ _
@[simp] theorem onDomain_fireConfined (d : Nat) (f : Domain → Domain) (s : State) : (onDomain d f s).fireConfined = s.fireConfined :=
  onDomain_keep State.fireConfined (by intros; rfl) _ _ _
@[simp] theorem onSeq_fireConfined (q : Nat) (f : Sequencer → Sequencer) (s : State) : (onSeq q f s).fireConfined = s.fireConfined :=
  onSeq_keep State.fireConfined (by intros; rfl) _ _ _
@[simp] theorem onZone_fireConfined (z : Nat) (f : ZoneState → ZoneState) (s : State) : (onZone z f s).fireConfined = s.fireConfined :=
  onZone_keep State.fireConfined (by intros; rfl) _ _ _
@[simp] theorem onLane_fireConfined (l : Nat) (f : Lane → Lane) (s : State) : (onLane l f s).fireConfined = s.fireConfined :=
  onLane_keep State.fireConfined (by intros; rfl) _ _ _
@[simp] theorem forgetPieces_fireConfined (z : Nat) (s : State) : (forgetPieces z s).fireConfined = s.fireConfined :=
  forgetPieces_keep State.fireConfined (by intros; rfl) _ _
@[simp] theorem logAccrue_fireConfined (s : State) : (logAccrue s).fireConfined = s.fireConfined :=
  logAccrue_keep State.fireConfined (by intros; rfl) _
@[simp] theorem logFlush_fireConfined (s : State) : (logFlush s).fireConfined = s.fireConfined :=
  logFlush_keep State.fireConfined (by intros; rfl) _
@[simp] theorem segorSend_fireConfined (kind : Nat) (m : List Byte) (s : State) : (segorSend kind m s).fireConfined = s.fireConfined :=
  segorSend_keep State.fireConfined (by intros; rfl) _ _ _
@[simp] theorem post_fireConfined (code : Nat) (a0 a1 a2 : Int) (s : State) : (post code a0 a1 a2 s).fireConfined = s.fireConfined :=
  post_keep State.fireConfined (by intros; rfl) _ _ _ _ _
@[simp] theorem onJournal_fireConfined (n : Nat) (f : JournalEntry → JournalEntry) (s : State) : (onJournal n f s).fireConfined = s.fireConfined :=
  onJournal_keep State.fireConfined (by intros; rfl) _ _ _
@[simp] theorem journalStart_fireConfined (n : Nat) (s : State) : (journalStart n s).fireConfined = s.fireConfined :=
  journalStart_keep State.fireConfined (by intros; rfl) _ _
@[simp] theorem journalStep_fireConfined (n : Nat) (s : State) : (journalStep n s).fireConfined = s.fireConfined :=
  journalStep_keep State.fireConfined (by intros; rfl) _ _
@[simp] theorem journalEnd_fireConfined (n : Nat) (j : JState) (status detail : Nat) (s : State) :
    (journalEnd n j status detail s).fireConfined = s.fireConfined :=
  journalEnd_keep State.fireConfined (by intros; rfl) _ _ _ _ _
@[simp] theorem onCal_fireConfined (f : Calib → Calib) (s : State) : (onCal f s).fireConfined = s.fireConfined :=
  onCal_keep State.fireConfined (by intros; rfl) _ _
@[simp] theorem onItem_fireConfined (item index : Nat) (f : CalItem → CalItem) (s : State) : (onItem item index f s).fireConfined = s.fireConfined :=
  onItem_keep State.fireConfined (by intros; rfl) _ _ _ _
@[simp] theorem calReject_fireConfined (item index field : Nat) (value : Int) (s : State) :
    (calReject item index field value s).fireConfined = s.fireConfined :=
  calReject_keep State.fireConfined (by intros; rfl) _ _ _ _ _
@[simp] theorem calAccept_fireConfined (item index : Nat) (fields : List Int) (s : State) :
    (calAccept item index fields s).fireConfined = s.fireConfined :=
  calAccept_keep State.fireConfined (by intros; rfl) _ _ _ _
@[simp] theorem calDone_fireConfined (item index journal : Nat) (s : State) : (calDone item index journal s).fireConfined = s.fireConfined :=
  calDone_keep State.fireConfined (by intros; rfl) _ _ _ _
@[simp] theorem dropItems_fireConfined (q n cause : Nat) (s : State) : (dropItems q n cause s).fireConfined = s.fireConfined :=
  dropItems_keep State.fireConfined (by intros; rfl) _ _ _ _
@[simp] theorem stageItem_fireConfined (q type : Nat) (bytes : List Byte) (s : State) : (stageItem q type bytes s).fireConfined = s.fireConfined :=
  stageItem_keep State.fireConfined (by intros; rfl) _ _ _ _
@[simp] theorem discardStaged_fireConfined (q cause : Nat) (s : State) : (discardStaged q cause s).fireConfined = s.fireConfined :=
  discardStaged_keep State.fireConfined (by intros; rfl) _ _ _
@[simp] theorem stopQueue_fireConfined (q cause index : Nat) (s : State) : (stopQueue q cause index s).fireConfined = s.fireConfined :=
  stopQueue_keep State.fireConfined (by intros; rfl) _ _ _ _
@[simp] theorem onInk_fireConfined (f : Inkstone → Inkstone) (s : State) : (onInk f s).fireConfined = s.fireConfined :=
  onInk_keep State.fireConfined (by intros; rfl) _ _
@[simp] theorem countBlock_fireConfined (stream seq : Nat) (e : Encoded) (selfCheck : Bool) (s : State) :
    (countBlock stream seq e selfCheck s).fireConfined = s.fireConfined :=
  countBlock_keep State.fireConfined (by intros; rfl) _ _ _ _ _
@[simp] theorem sealPages_fireConfined (p : Nat) (s : State) : (sealPages p s).fireConfined = s.fireConfined :=
  sealPages_keep State.fireConfined (by intros; rfl) _ _
@[simp] theorem checkpoint_fireConfined (p : Nat) (s : State) : (checkpoint p s).fireConfined = s.fireConfined :=
  checkpoint_keep State.fireConfined (by intros; rfl) _ _
@[simp] theorem scheduleJobs_fireConfined (s : State) : (scheduleJobs s).fireConfined = s.fireConfined :=
  scheduleJobs_keep State.fireConfined (by intros; rfl) _
@[simp] theorem endJob_fireConfined (i reason : Nat) (s : State) : (endJob i reason s).fireConfined = s.fireConfined :=
  endJob_keep State.fireConfined (by intros; rfl) _ _ _
@[simp] theorem endJobs_fireConfined (f : ReplayJob → Bool) (reason : Nat) (s : State) : (endJobs f reason s).fireConfined = s.fireConfined :=
  endJobs_keep State.fireConfined (by intros; rfl) _ _ _
@[simp] theorem ringRestart_fireConfined (cause : Nat) (s : State) : (ringRestart cause s).fireConfined = s.fireConfined :=
  ringRestart_keep State.fireConfined (by intros; rfl) _ _
@[simp] theorem ringDrop_fireConfined (s : State) : (ringDrop s).fireConfined = s.fireConfined :=
  ringDrop_keep State.fireConfined (by intros; rfl) _
@[simp] theorem decodeError_fireConfined (reader code seq : Nat) (s : State) : (decodeError reader code seq s).fireConfined = s.fireConfined :=
  decodeError_keep State.fireConfined (by intros; rfl) _ _ _ _
@[simp] theorem rebaseline_fireConfined (p kind cause : Nat) (s : State) : (rebaseline p kind cause s).fireConfined = s.fireConfined :=
  rebaseline_keep State.fireConfined (by intros; rfl) _ _ _ _
@[simp] theorem markLost_fireConfined (p round : Nat) (s : State) : (markLost p round s).fireConfined = s.fireConfined :=
  markLost_keep State.fireConfined (by intros; rfl) _ _ _
@[simp] theorem countStream_fireConfined (stream : Nat) (es : List Encoded) (selfCheck : Bool) (s : State) :
    (countStream stream es selfCheck s).fireConfined = s.fireConfined :=
  countStream_keep State.fireConfined (by intros; rfl) _ _ _ _
@[simp] theorem noteGap_fireConfined (z lost cause : Nat) (s : State) : (noteGap z lost cause s).fireConfined = s.fireConfined :=
  noteGap_keep State.fireConfined (by intros; rfl) _ _ _ _
@[simp] theorem emitOutput_fireConfined (b : Bank) (z : Nat) (t : Shot) (cut selfCheck : Bool) (s : State) :
    (emitOutput b z t cut selfCheck s).fireConfined = s.fireConfined :=
  emitOutput_keep State.fireConfined (by intros; rfl) _ _ _ _ _ _
@[simp] theorem endService_fireConfined (z : Nat) (l : Leaving) (s : State) : (endService z l s).fireConfined = s.fireConfined :=
  endService_keep State.fireConfined (by intros; rfl) _ _ _
@[simp] theorem ramanDiscard_fireConfined (p cause : Nat) (s : State) : (ramanDiscard p cause s).fireConfined = s.fireConfined :=
  ramanDiscard_keep State.fireConfined (by intros; rfl) _ _ _
@[simp] theorem onRtd_fireConfined (k : Nat) (f : Rtd → Rtd) (s : State) : (onRtd k f s).fireConfined = s.fireConfined :=
  onRtd_keep State.fireConfined (by intros; rfl) _ _ _
@[simp] theorem rtdWritten_fireConfined (k : Nat) (s : State) : (rtdWritten k s).fireConfined = s.fireConfined :=
  rtdWritten_keep State.fireConfined (by intros; rfl) _ _
@[simp] theorem dasGainWrite_fireConfined (p gain : Nat) (s : State) : (dasGainWrite p gain s).fireConfined = s.fireConfined :=
  dasGainWrite_keep State.fireConfined (by intros; rfl) _ _ _
@[simp] theorem countViolation_fireConfined (t : Nat) (s : State) : (countViolation t s).fireConfined = s.fireConfined :=
  countViolation_keep State.fireConfined (by intros; rfl) _ _
@[simp] theorem violate_fireConfined (t status opcode : Nat) (first : List Byte) (s : State) :
    (violate t status opcode first s).fireConfined = s.fireConfined :=
  violate_keep State.fireConfined (by intros; rfl) _ _ _ _ _
@[simp] theorem answer_fireConfined (r : Request) (status detail : Nat) (body : List Byte) (s : State) :
    (answer r status detail body s).fireConfined = s.fireConfined :=
  answer_keep State.fireConfined (by intros; rfl) _ _ _ _ _
@[simp] theorem refuse_fireConfined (r : Request) (status detail : Nat) (s : State) : (refuse r status detail s).fireConfined = s.fireConfined :=
  refuse_keep State.fireConfined (by intros; rfl) _ _ _ _
@[simp] theorem answerOk_fireConfined (r : Request) (s : State) : (answerOk r s).fireConfined = s.fireConfined :=
  answerOk_keep State.fireConfined (by intros; rfl) _ _
@[simp] theorem dropAnswers_fireConfined (s : State) : (dropAnswers s).fireConfined = s.fireConfined :=
  dropAnswers_keep State.fireConfined (by intros; rfl) _
@[simp] theorem endSession_fireConfined (t : Nat) (s : State) : (endSession t s).fireConfined = s.fireConfined :=
  endSession_keep State.fireConfined (by intros; rfl) _ _
@[simp] theorem enqueueInternal_fireConfined (opcode : Nat) (payload : List Byte) (s : State) :
    (enqueueInternal opcode payload s).fireConfined = s.fireConfined :=
  enqueueInternal_keep State.fireConfined (by intros; rfl) _ _ _
@[simp] theorem receive_fireConfined (t source ethPort carrier : Nat) (bytes : List Byte) (s : State) :
    (receive t source ethPort carrier bytes s).fireConfined = s.fireConfined :=
  receive_keep State.fireConfined (by intros; rfl) _ _ _ _ _ _
@[simp] theorem onPtr_fireConfined (f : Pointer → Pointer) (s : State) : (onPtr f s).fireConfined = s.fireConfined :=
  onPtr_keep State.fireConfined (by intros; rfl) _ _
@[simp] theorem setRecord_fireConfined (r : EventRecord) (s : State) : (setRecord r s).fireConfined = s.fireConfined :=
  setRecord_keep State.fireConfined (by intros; rfl) _ _
@[simp] theorem endCollection_fireConfined (r : EventRecord) (s : State) : (endCollection r s).fireConfined = s.fireConfined :=
  endCollection_keep State.fireConfined (by intros; rfl) _ _
@[simp] theorem closeRecord_fireConfined (incomplete : Bool) (n : Nat) (s : State) : (closeRecord incomplete n s).fireConfined = s.fireConfined :=
  closeRecord_keep State.fireConfined (by intros; rfl) _ _ _
@[simp] theorem closeAllRecords_fireConfined (s : State) : (closeAllRecords s).fireConfined = s.fireConfined :=
  closeAllRecords_keep State.fireConfined (by intros; rfl) _
@[simp] theorem updateMasterArm_fireConfined (cause : Nat) (s : State) : (updateMasterArm cause s).fireConfined = s.fireConfined :=
  updateMasterArm_keep State.fireConfined (by intros; rfl) _ _
@[simp] theorem disarm_fireConfined (cause q : Nat) (s : State) : (disarm cause q s).fireConfined = s.fireConfined :=
  disarm_keep State.fireConfined (by intros; rfl) _ _ _
@[simp] theorem onPair_fireConfined (f : Pair → Pair) (s : State) : (onPair f s).fireConfined = s.fireConfined :=
  onPair_keep State.fireConfined (by intros; rfl) _ _
@[simp] theorem onBanks_fireConfined (f : Banks → Banks) (s : State) : (onBanks f s).fireConfined = s.fireConfined :=
  onBanks_keep State.fireConfined (by intros; rfl) _ _
@[simp] theorem cutPort_fireConfined (lead : Nat → Bool) (p : Nat) (s : State) : (cutPort lead p s).fireConfined = s.fireConfined :=
  cutPort_keep State.fireConfined (by intros; rfl) _ _ _
@[simp] theorem emissionStopped_fireConfined (terms ports : Nat) (s : State) : (emissionStopped terms ports s).fireConfined = s.fireConfined :=
  emissionStopped_keep State.fireConfined (by intros; rfl) _ _ _
@[simp] theorem stopDriving_fireConfined (s : State) : (stopDriving s).fireConfined = s.fireConfined :=
  stopDriving_keep State.fireConfined (by intros; rfl) _
@[simp] theorem modeLeash_fireConfined (s : State) : (modeLeash s).fireConfined = s.fireConfined :=
  modeLeash_keep State.fireConfined (by intros; rfl) _
@[simp] theorem endOrigin_fireConfined (t : Transition) (j : JState) (status detail : Nat) (s : State) :
    (endOrigin t j status detail s).fireConfined = s.fireConfined :=
  endOrigin_keep State.fireConfined (by intros; rfl) _ _ _ _ _
@[simp] theorem applyGrants_fireConfined (cause p : Nat) (s : State) : (applyGrants cause p s).fireConfined = s.fireConfined :=
  applyGrants_keep State.fireConfined (by intros; rfl) _ _ _
@[simp] theorem closeDisabled_fireConfined (old new : Bank) (p : Nat) (s : State) : (closeDisabled old new p s).fireConfined = s.fireConfined :=
  closeDisabled_keep State.fireConfined (by intros; rfl) _ _ _ _
@[simp] theorem endServices_fireConfined (p : Nat) (s : State) : (endServices p s).fireConfined = s.fireConfined :=
  endServices_keep State.fireConfined (by intros; rfl) _ _
@[simp] theorem switchServices_fireConfined (old new : Bank) (p : Nat) (s : State) : (switchServices old new p s).fireConfined = s.fireConfined :=
  switchServices_keep State.fireConfined (by intros; rfl) _ _ _ _
@[simp] theorem switchZones_fireConfined (old new : Bank) (p : Nat) (s : State) : (switchZones old new p s).fireConfined = s.fireConfined :=
  switchZones_keep State.fireConfined (by intros; rfl) _ _ _ _
@[simp] theorem switchGrid_fireConfined (old new : Bank) (p : Nat) (s : State) : (switchGrid old new p s).fireConfined = s.fireConfined :=
  switchGrid_keep State.fireConfined (by intros; rfl) _ _ _ _
@[simp] theorem switchRaman_fireConfined (old new : Bank) (p : Nat) (s : State) : (switchRaman old new p s).fireConfined = s.fireConfined :=
  switchRaman_keep State.fireConfined (by intros; rfl) _ _ _ _
@[simp] theorem switchSlots_fireConfined (old new : Bank) (p : Nat) (s : State) : (switchSlots old new p s).fireConfined = s.fireConfined :=
  switchSlots_keep State.fireConfined (by intros; rfl) _ _ _ _
@[simp] theorem dropWork_fireConfined (s : State) : (dropWork s).fireConfined = s.fireConfined :=
  dropWork_keep State.fireConfined (by intros; rfl) _
@[simp] theorem cutHandover_fireConfined (status : Nat) (s : State) : (cutHandover status s).fireConfined = s.fireConfined :=
  cutHandover_keep State.fireConfined (by intros; rfl) _ _
@[simp] theorem onMem_fireConfined (f : Memory → Memory) (s : State) : (onMem f s).fireConfined = s.fireConfined :=
  onMem_keep State.fireConfined (by intros; rfl) _ _
@[simp] theorem kennelResize_fireConfined (s : State) : (kennelResize s).fireConfined = s.fireConfined :=
  kennelResize_keep State.fireConfined (by intros; rfl) _
@[simp] theorem readmitAll_fireConfined (cause : Nat) (keep : List Nat) (s : State) : (readmitAll cause keep s).fireConfined = s.fireConfined :=
  readmitAll_keep State.fireConfined (by intros; rfl) _ _ _
@[simp] theorem loseHistory_fireConfined (z arg lost : Nat) (s : State) : (loseHistory z arg lost s).fireConfined = s.fireConfined :=
  loseHistory_keep State.fireConfined (by intros; rfl) _ _ _ _
@[simp] theorem dramOffline_fireConfined (a cause : Nat) (s : State) : (dramOffline a cause s).fireConfined = s.fireConfined :=
  dramOffline_keep State.fireConfined (by intros; rfl) _ _ _
@[simp] theorem dramTrain_fireConfined (a : Nat) (held : Bool) (rate : Nat) (s : State) : (dramTrain a held rate s).fireConfined = s.fireConfined :=
  dramTrain_keep State.fireConfined (by intros; rfl) _ _ _ _
@[simp] theorem dramReturns_fireConfined (s : State) : (dramReturns s).fireConfined = s.fireConfined :=
  dramReturns_keep State.fireConfined (by intros; rfl) _
@[simp] theorem writeRate_fireConfined (a rate : Nat) (s : State) : (writeRate a rate s).fireConfined = s.fireConfined :=
  writeRate_keep State.fireConfined (by intros; rfl) _ _ _
@[simp] theorem tell_fireConfined (code : Nat) (a0 a1 a2 : Int) (s : State) : (tell code a0 a1 a2 s).fireConfined = s.fireConfined :=
  tell_keep State.fireConfined (by intros; rfl) _ _ _ _ _
@[simp] theorem ethDown_fireConfined (n : Nat) (s : State) : (ethDown n s).fireConfined = s.fireConfined :=
  ethDown_keep State.fireConfined (by intros; rfl) _ _
@[simp] theorem railReturn_fireConfined (p : Nat) (s : State) : (railReturn p s).fireConfined = s.fireConfined :=
  railReturn_keep State.fireConfined (by intros; rfl) _ _
@[simp] theorem swapRefused_fireConfined (cond cause : Nat) (s : State) : (swapRefused cond cause s).fireConfined = s.fireConfined :=
  swapRefused_keep State.fireConfined (by intros; rfl) _ _ _
@[simp] theorem wakePorts_fireConfined (s : State) : (wakePorts s).fireConfined = s.fireConfined :=
  wakePorts_keep State.fireConfined (by intros; rfl) _
@[simp] theorem stopPorts_fireConfined (s : State) : (stopPorts s).fireConfined = s.fireConfined :=
  stopPorts_keep State.fireConfined (by intros; rfl) _
@[simp] theorem wakeDram_fireConfined (s : State) : (wakeDram s).fireConfined = s.fireConfined :=
  wakeDram_keep State.fireConfined (by intros; rfl) _
@[simp] theorem onTime_fireConfined (f : TimeUnit → TimeUnit) (s : State) : (onTime f s).fireConfined = s.fireConfined :=
  onTime_keep State.fireConfined (by intros; rfl) _ _
@[simp] theorem retarget_fireConfined (s : State) : (retarget s).fireConfined = s.fireConfined :=
  retarget_keep State.fireConfined (by intros; rfl) _
@[simp] theorem enterHoldover_fireConfined (cause : Nat) (s : State) : (enterHoldover cause s).fireConfined = s.fireConfined :=
  enterHoldover_keep State.fireConfined (by intros; rfl) _ _
@[simp] theorem leaveHoldover_fireConfined (s : State) : (leaveHoldover s).fireConfined = s.fireConfined :=
  leaveHoldover_keep State.fireConfined (by intros; rfl) _
@[simp] theorem switchDomain_fireConfined (d : Fin 2) (auto : Bool) (s : State) : (switchDomain d auto s).fireConfined = s.fireConfined :=
  switchDomain_keep State.fireConfined (by intros; rfl) _ _ _
@[simp] theorem revertDomain_fireConfined (s : State) : (revertDomain s).fireConfined = s.fireConfined :=
  revertDomain_keep State.fireConfined (by intros; rfl) _
@[simp] theorem lockUpdate_fireConfined (d : Fin 2) (cause : Nat) (s : State) : (lockUpdate d cause s).fireConfined = s.fireConfined :=
  lockUpdate_keep State.fireConfined (by intros; rfl) _ _ _
@[simp] theorem onTout_fireConfined (u : Nat) (f : Tout → Tout) (s : State) : (onTout u f s).fireConfined = s.fireConfined :=
  onTout_keep State.fireConfined (by intros; rfl) _ _ _
@[simp] theorem onTdc_fireConfined (f : Tdc → Tdc) (s : State) : (onTdc f s).fireConfined = s.fireConfined :=
  onTdc_keep State.fireConfined (by intros; rfl) _ _
@[simp] theorem tdcGrade_fireConfined (s : State) : (tdcGrade s).fireConfined = s.fireConfined :=
  tdcGrade_keep State.fireConfined (by intros; rfl) _
@[simp] theorem tdcEnd_fireConfined (aborted : Bool) (s : State) : (tdcEnd aborted s).fireConfined = s.fireConfined :=
  tdcEnd_keep State.fireConfined (by intros; rfl) _ _
@[simp] theorem tdcMeasured_fireConfined (result : Option Int) (s : State) : (tdcMeasured result s).fireConfined = s.fireConfined :=
  tdcMeasured_keep State.fireConfined (by intros; rfl) _ _
@[simp] theorem stageValue_fireConfined (id idx : Nat) (v : Int) (s : State) : (stageValue id idx v s).fireConfined = s.fireConfined :=
  stageValue_keep State.fireConfined (by intros; rfl) _ _ _ _
@[simp] theorem onFw_fireConfined (f : Firmware → Firmware) (s : State) : (onFw f s).fireConfined = s.fireConfined :=
  onFw_keep State.fireConfined (by intros; rfl) _ _
@[simp] theorem linksFollow_fireConfined (s : State) : (linksFollow s).fireConfined = s.fireConfined :=
  linksFollow_keep State.fireConfined (by intros; rfl) _
@[simp] theorem replicateBanks_fireConfined (s : State) : (replicateBanks s).fireConfined = s.fireConfined :=
  replicateBanks_keep State.fireConfined (by intros; rfl) _
@[simp] theorem onPower_fireConfined (f : Power → Power) (s : State) : (onPower f s).fireConfined = s.fireConfined :=
  onPower_keep State.fireConfined (by intros; rfl) _ _
@[simp] theorem onClk_fireConfined (f : Clocks → Clocks) (s : State) : (onClk f s).fireConfined = s.fireConfined :=
  onClk_keep State.fireConfined (by intros; rfl) _ _
@[simp] theorem refReact_fireConfined (s : State) : (refReact s).fireConfined = s.fireConfined :=
  refReact_keep State.fireConfined (by intros; rfl) _
@[simp] theorem writeRefSelect_fireConfined (v : Nat) (s : State) : (writeRefSelect v s).fireConfined = s.fireConfined :=
  writeRefSelect_keep State.fireConfined (by intros; rfl) _ _
@[simp] theorem writeIncrement_fireConfined (d : Fin 2) (v : Nat) (s : State) : (writeIncrement d v s).fireConfined = s.fireConfined :=
  writeIncrement_keep State.fireConfined (by intros; rfl) _ _ _
@[simp] theorem writeAdjust_fireConfined (d : Fin 2) (v : Int) (s : State) : (writeAdjust d v s).fireConfined = s.fireConfined :=
  writeAdjust_keep State.fireConfined (by intros; rfl) _ _ _
@[simp] theorem writeServoState_fireConfined (d : Fin 2) (locked : Bool) (s : State) : (writeServoState d locked s).fireConfined = s.fireConfined :=
  writeServoState_keep State.fireConfined (by intros; rfl) _ _ _
@[simp] theorem writeTimeSelect_fireConfined (d : Fin 2) (s : State) : (writeTimeSelect d s).fireConfined = s.fireConfined :=
  writeTimeSelect_keep State.fireConfined (by intros; rfl) _ _
@[simp] theorem writeSyncEnable_fireConfined (on : Bool) (s : State) : (writeSyncEnable on s).fireConfined = s.fireConfined :=
  writeSyncEnable_keep State.fireConfined (by intros; rfl) _ _
@[simp] theorem writeTout_fireConfined (u f : Nat) (v : Int) (s : State) : (writeTout u f v s).fireConfined = s.fireConfined :=
  writeTout_keep State.fireConfined (by intros; rfl) _ _ _ _
@[simp] theorem writeTdcArm_fireConfined (on : Bool) (s : State) : (writeTdcArm on s).fireConfined = s.fireConfined :=
  writeTdcArm_keep State.fireConfined (by intros; rfl) _ _
@[simp] theorem journalSteps_fireConfined (n k : Nat) (s : State) : (journalSteps n k s).fireConfined = s.fireConfined :=
  journalSteps_keep State.fireConfined (by intros; rfl) _ _ _
@[simp] theorem onSerif_fireConfined (f : Serif → Serif) (s : State) : (onSerif f s).fireConfined = s.fireConfined :=
  onSerif_keep State.fireConfined (by intros; rfl) _ _
@[simp] theorem calAccepted_fireConfined (r : Request) (n : Nat) (s : State) : (calAccepted r n s).fireConfined = s.fireConfined :=
  calAccepted_keep State.fireConfined (by intros; rfl) _ _ _
@[simp] theorem onLinks_fireConfined (f : Links → Links) (s : State) : (onLinks f s).fireConfined = s.fireConfined :=
  onLinks_keep State.fireConfined (by intros; rfl) _ _
@[simp] theorem takeDrive_fireConfined (s : State) : (takeDrive s).fireConfined = s.fireConfined :=
  takeDrive_keep State.fireConfined (by intros; rfl) _

@[simp] theorem forEach_fireConfined_eq {α : Type} {f : α → State → State} (h : ∀ x s, (f x s).fireConfined = s.fireConfined) (xs : List α)
    (s : State) : (forEach xs f s).fireConfined = s.fireConfined := forEach_keep State.fireConfined f h xs s

theorem withJournal_fireConfined {r : Request} {total : Nat} {f : Nat → State → State} {s : State}
    (h : ∀ n s, s.fireConfined → (f n s).fireConfined) (hs : s.fireConfined) : (withJournal r total f s).fireConfined := h _ _ hs

@[simp] theorem withJournal_fireConfined_eq {r : Request} {total : Nat} {f : Nat → State → State} {s : State}
    (h : ∀ n s, (f n s).fireConfined = s.fireConfined) : (withJournal r total f s).fireConfined = s.fireConfined := h _ _

@[simp] theorem drawFree_fireConfined (s : State) : (drawFree s).2.fireConfined = s.fireConfined := rfl
@[simp] theorem dequeue_fireConfined (r : Request) (s : State) : (dequeue r s).fireConfined = s.fireConfined := rfl

theorem runCommand_fireConfined {code : Nat} {f : Request → State → State} {s : State} (h : ∀ r s, s.fireConfined → (f r s).fireConfined)
    (hs : s.fireConfined) : (runCommand code f s).fireConfined := by
  unfold runCommand
  split
  · dsimp only
    split
    · split <;> simp [hs]
    · exact h _ _ hs
  · exact hs

@[simp] theorem runCommand_fireConfined_eq {code : Nat} {f : Request → State → State} {s : State}
    (h : ∀ r s, (f r s).fireConfined = s.fireConfined) : (runCommand code f s).fireConfined = s.fireConfined := by
  unfold runCommand
  split
  · dsimp only
    split
    · split <;> simp
    · simp [h]
  · rfl

theorem runInternal_fireConfined {sel : Request → Bool} {f : Request → State → State} {s : State} (h : ∀ r s, s.fireConfined → (f r s).fireConfined)
    (hs : s.fireConfined) : (runInternal sel f s).fireConfined := by
  unfold runInternal
  split
  · exact hs
  · split
    · exact h _ _ hs
    · exact hs

@[simp] theorem inService_fireConfined (z e : Nat) {f : State → State} {s : State} (h : ∀ s, (f s).fireConfined = s.fireConfined) :
    (inService z e f s).fireConfined = s.fireConfined := by
  unfold inService
  split
  · exact h _
  · simp [h]

theorem inService_fireConfined_of (z e : Nat) {f : State → State} {s : State} (h : ∀ s, s.fireConfined → (f s).fireConfined)
    (hs : s.fireConfined) : (inService z e f s).fireConfined := by
  unfold inService
  split
  · exact h _ hs
  · simp only [fireConfined_mk, onZone_fireConfined]
    exact h _ (by simpa using hs)

@[simp] theorem calNext_fireConfined (item index : Nat) (fields : List Int) (s : State) :
    (calNext item index fields s).fireConfined = s.fireConfined := by
  simp [calNext]

@[simp] theorem writeTail_fireConfined (q : Nat) (v : BitVec 32) (s : State) : (writeTail q v s).fireConfined = s.fireConfined := by
  simp [writeTail]

@[simp] theorem queueEnable_fireConfined (q : Nat) (s : State) : (queueEnable q s).fireConfined = s.fireConfined := by
  simp [queueEnable]

@[simp] theorem queueDisable_fireConfined (q : Nat) (s : State) : (queueDisable q s).fireConfined = s.fireConfined := by
  simp [queueDisable]

@[simp] theorem resetQueues_fireConfined (s : State) : (resetQueues s).fireConfined = s.fireConfined := by
  simp [resetQueues]

@[simp] theorem openPage_fireConfined (p : Nat) (t : Shot) (s : State) : (openPage p t s).fireConfined = s.fireConfined := by
  simp [openPage]

@[simp] theorem placeBlock_fireConfined (p zone : Nat) (t : Shot) (bytes : List Byte) (s : State) :
    (placeBlock p zone t bytes s).fireConfined = s.fireConfined := by
  simp [placeBlock]

@[simp] theorem noteCoded_fireConfined (points bits : Nat) (s : State) : (noteCoded points bits s).fireConfined = s.fireConfined := by
  simp [noteCoded]

@[simp] theorem ringBlock_fireConfined (p comp zone nth first : Nat) (t : Shot) (elems : List Elem) (selfCheck : Bool) (s : State) :
    (ringBlock p comp zone nth first t elems selfCheck s).fireConfined = s.fireConfined := by
  simp [ringBlock]

@[simp] theorem ringFeed_fireConfined (fuel p zone nth first : Nat) (t : Shot) (words : List (BitVec 48)) (selfCheck : Bool) (s : State) :
    (ringFeed fuel p zone nth first t words selfCheck s).fireConfined = s.fireConfined := by
  induction fuel generalizing nth first words s with
  | zero => rfl
  | succ fuel ih =>
    unfold ringFeed
    split <;> simp [ih]

@[simp] theorem feedZone_fireConfined (b : Bank) (z : Nat) (t : Shot) (selfCheck : Bool) (s : State) :
    (feedZone b z t selfCheck s).fireConfined = s.fireConfined := by
  simp [feedZone]

@[simp] theorem settleService_fireConfined (now z : Nat) (s : State) : (settleService now z s).fireConfined = s.fireConfined := by
  unfold settleService
  (repeat' split) <;> simp

@[simp] theorem ramanAccumulate_fireConfined (p : Nat) (codes : RamanCodes) (s : State) :
    (ramanAccumulate p codes s).fireConfined = s.fireConfined := by
  unfold ramanAccumulate
  dsimp only
  split
  · split
    · rfl
    · split <;> simp
  · simp

@[simp] theorem fitPoint_fireConfined (p : Nat) (j : PointJob) (s : State) : (fitPoint p j s).fireConfined = s.fireConfined := by
  simp [fitPoint]

@[simp] theorem traceCal_fireConfined (p : Nat) (f : TraceFacts) (s : State) : (traceCal p f s).fireConfined = s.fireConfined := by
  unfold traceCal
  (repeat' split) <;> simp

@[simp] theorem thermalDue_fireConfined (p : Nat) (h : TraceHeader) (s : State) : (thermalDue p h s).fireConfined = s.fireConfined := by
  simp [thermalDue]

@[simp] theorem traceDone_fireConfined (p : Nat) (f : TraceFacts) (s : State) : (traceDone p f s).fireConfined = s.fireConfined := by
  simp [traceDone]

@[simp] theorem ramanClose_fireConfined (p : Nat) (codes : RamanCodes) (s : State) : (ramanClose p codes s).fireConfined = s.fireConfined := by
  simp [ramanClose]

@[simp] theorem rtdBegin_fireConfined (k : Nat) (s : State) : (rtdBegin k s).fireConfined = s.fireConfined := by
  simp [rtdBegin]

@[simp] theorem rtdNext_fireConfined (s : State) : (rtdNext s).fireConfined = s.fireConfined := by
  unfold rtdNext
  (repeat' split) <;> simp

@[simp] theorem rtdFault_fireConfined (k code : Nat) (ohms : Int) (s : State) : (rtdFault k code ohms s).fireConfined = s.fireConfined := by
  simp [rtdFault]

@[simp] theorem rtdPoint_fireConfined (k : Nat) (ok : Bool) (v : Int) (s : State) : (rtdPoint k ok v s).fireConfined = s.fireConfined := by
  unfold rtdPoint
  (repeat' split) <;> simp

@[simp] theorem rtdFinish_fireConfined (k code : Nat) (m : Option RtdSums) (s : State) : (rtdFinish k code m s).fireConfined = s.fireConfined := by
  unfold rtdFinish
  (repeat' split) <;> simp

@[simp] theorem hkToPointer_fireConfined (i : Nat) (w : BitVec 32) (s : State) : (hkToPointer i w s).fireConfined = s.fireConfined := by
  simp [hkToPointer]

@[simp] theorem overdrive_fireConfined (p group gain : Nat) (s : State) : (overdrive p group gain s).fireConfined = s.fireConfined := by
  unfold overdrive
  (repeat' split) <;> simp

@[simp] theorem closeGuard_fireConfined (p group : Nat) (s : State) : (closeGuard p group s).fireConfined = s.fireConfined := by
  simp [closeGuard]

@[simp] theorem answerWork_fireConfined (r : Request) (n k detail : Nat) (s : State) : (answerWork r n k detail s).fireConfined = s.fireConfined := by
  simp [answerWork]

@[simp] theorem recordOpen_fireConfined (port round ns : Nat) (e : RecordSeq) (flags : BitVec 8) (s : State) :
    (recordOpen port round ns e flags s).fireConfined = s.fireConfined := by
  unfold recordOpen
  dsimp only
  split <;> simp

@[simp] theorem missFire_fireConfined (q : Nat) (limit : Bool) (s : State) : (missFire q limit s).fireConfined = s.fireConfined := by
  simp [missFire]

@[simp] theorem fire_fireConfined (c : Condition) (j k also : Nat) (v : StepView) (t : OwnTime) (s : State) :
    (fire c j k also v t s).fireConfined = s.fireConfined := by
  unfold fire
  dsimp only
  split
  · simp
  · split
    · simp
    · split <;> simp

@[simp] theorem armSeq_fireConfined (q : Nat) (s : State) : (armSeq q s).fireConfined = s.fireConfined := by
  simp [armSeq]

@[simp] theorem onLaneFree_fireConfined (l : Fin 128) (f : Nat → Lane → Lane) (s : State) : (onLaneFree l f s).fireConfined = s.fireConfined := by
  simp [onLaneFree]

@[simp] theorem pieceKeep_fireConfined (l : Nat) (s : State) : (pieceKeep l s).fireConfined = s.fireConfined := by
  unfold pieceKeep
  dsimp only
  split
  · split <;> simp
  · rfl

@[simp] theorem interruptTransition_fireConfined (status : Nat) (s : State) : (interruptTransition status s).fireConfined = s.fireConfined := by
  unfold interruptTransition
  (repeat' split) <;> simp

@[simp] theorem endSurvey_fireConfined (status : Nat) (s : State) : (endSurvey status s).fireConfined = s.fireConfined := by
  simp [endSurvey]

@[simp] theorem switchLast_fireConfined (old new : Bank) (s : State) : (switchLast old new s).fireConfined :=
  onSafety_modeFire_confined rfl rfl

@[simp] theorem switchPort_fireConfined (p : Nat) (s : State) (hs : s.fireConfined) : (switchPort p s).fireConfined := by
  unfold switchPort
  split
  · exact hs
  · dsimp only
    split
    · exact hs
    · split <;> simp [hs]

@[simp] theorem finishSwitch_fireConfined (s : State) (hs : s.fireConfined) : (finishSwitch s).fireConfined := by
  simp [finishSwitch, forEach_fireConfined (fun p s => switchPort_fireConfined p s), hs]

@[simp] theorem enterInhibit_fireConfined (s : State) : (enterInhibit s).fireConfined := by
  unfold enterInhibit
  exact setMode_fireConfined _ _ _

@[simp] theorem withdrawDevice_fireConfined (old : State) (terms : Nat) (s : State) (hs : s.fireConfined) :
    (withdrawDevice old terms s).fireConfined := by 
  unfold withdrawDevice
  dsimp only
  split
  · simp
  · split <;> simp [hs]

@[simp] theorem withdrawPort_fireConfined (old : State) (terms p : Nat) (s : State) : (withdrawPort old terms p s).fireConfined = s.fireConfined := by
  simp [withdrawPort]

@[simp] theorem enterFault_fireConfined (code : Nat) (present : Bool) (s : State) (hs : s.fireConfined) :
    (enterFault code present s).fireConfined := by
  unfold enterFault
  split
  · exact hs
  · split
    · split <;> simp [hs]
    · simp

@[simp] theorem flashState_fireConfined (s : State) : (flashState s).fireConfined := .inr rfl

@[simp] theorem deviceReset_fireConfined (held : Bool) (s : State) : (deviceReset held s).fireConfined := .inr rfl

@[simp] theorem zoneMiss_fireConfined (z round epoch d : Nat) (s : State) (hs : s.fireConfined) : (zoneMiss z round epoch d s).fireConfined := by
  unfold zoneMiss
  dsimp only
  split <;> simp [hs]

@[simp] theorem sliceMiss_fireConfined (w : WorkItem) (s : State) (hs : s.fireConfined) : (sliceMiss w s).fireConfined := by
  refine inService_fireConfined_of _ _ (fun s hs => ?_) (by simpa using hs)
  split <;> simp [hs]

@[simp] theorem overrunOf_fireConfined (l : Nat) (w : WorkItem) (s : State) (hs : s.fireConfined) : (overrunOf l w s).fireConfined := by
  simp [overrunOf, hs]

@[simp] theorem laneOverrun_fireConfined (l : Nat) (s : State) (hs : s.fireConfined) : (laneOverrun l s).fireConfined := by
  unfold laneOverrun
  dsimp only
  split
  · split <;> simp [hs]
  · simp [hs]

@[simp] theorem dropRound_fireConfined (z : Nat) (s : State) : (dropRound z s).fireConfined = s.fireConfined := by
  unfold dropRound
  (repeat' split) <;> simp

@[simp] theorem historyError_fireConfined (z : Nat) (points : List Nat) (s : State) : (historyError z points s).fireConfined = s.fireConfined := by
  simp [historyError]

@[simp] theorem pcieDown_fireConfined (s : State) : (pcieDown s).fireConfined = s.fireConfined := by
  simp [pcieDown]

@[simp] theorem segorDown_fireConfined (s : State) : (segorDown s).fireConfined = s.fireConfined := by
  unfold segorDown
  dsimp only
  split <;> simp

@[simp] theorem plugRelease_fireConfined (p : Nat) (s : State) : (plugRelease p s).fireConfined = s.fireConfined := by
  simp [plugRelease]

@[simp] theorem locatorRelease_fireConfined (p : Nat) (s : State) : (locatorRelease p s).fireConfined = s.fireConfined := by
  simp [locatorRelease]

@[simp] theorem lwgRelease_fireConfined (p : Nat) (s : State) : (lwgRelease p s).fireConfined = s.fireConfined := by
  simp [lwgRelease]

@[simp] theorem restorePorts_fireConfined (s : State) : (restorePorts s).fireConfined = s.fireConfined := by
  simp [restorePorts]

@[simp] theorem beginRelease_fireConfined (cause : Nat) (s : State) : (beginRelease cause s).fireConfined := by
  simp [beginRelease]

@[simp] theorem planFollows_fireConfined (s : State) : (planFollows s).fireConfined = s.fireConfined := by
  simp [planFollows]

@[simp] theorem sentinelRebase_fireConfined (s : State) : (sentinelRebase s).fireConfined = s.fireConfined := by
  simp [sentinelRebase]

@[simp] theorem wakeZones_fireConfined (s : State) : (wakeZones s).fireConfined = s.fireConfined := by
  simp [wakeZones]

@[simp] theorem enterRun_fireConfined (n : Nat) (s : State) : (enterRun n s).fireConfined := by
  simp [enterRun]

@[simp] theorem enterSentinel_fireConfined (n : Nat) (s : State) : (enterSentinel n s).fireConfined := by
  simp [enterSentinel, -setMode_mode]

@[simp] theorem noteRelease_fireConfined (s : State) : (noteRelease s).fireConfined = s.fireConfined := by
  simp [noteRelease]

@[simp] theorem enterConfig_fireConfined (n : Nat) (s : State) : (enterConfig n s).fireConfined := by
  simp [enterConfig]

@[simp] theorem enterMirror_fireConfined (n : Nat) (s : State) : (enterMirror n s).fireConfined := by
  simp [enterMirror]

@[simp] theorem beginTransition_fireConfined (t : Transition) (s : State) : (beginTransition t s).fireConfined = s.fireConfined := by
  simp [beginTransition]

@[simp] theorem internalRefused_fireConfined (n status : Nat) (s : State) : (internalRefused n status s).fireConfined = s.fireConfined := by
  simp [internalRefused]

@[simp] theorem recordReset_fireConfined (bits : BitVec 8) (s : State) : (recordReset bits s).fireConfined = s.fireConfined := by
  simp [recordReset]

@[simp] theorem scribeReset_fireConfined (s : State) (hs : s.fireConfined) : (scribeReset s).fireConfined := by
  simp [scribeReset, hs]

@[simp] theorem delayedReset_fireConfined (s : State) (hs : s.fireConfined) : (delayedReset s).fireConfined := by
  unfold delayedReset
  split <;> simp [hs]

@[simp] theorem journalCutOff_fireConfined (s : State) : (journalCutOff s).fireConfined = s.fireConfined := by
  simp [journalCutOff]

@[simp] theorem scribeReady_fireConfined (s : State) : (scribeReady s).fireConfined = s.fireConfined := by
  simp [scribeReady]

@[simp] theorem fwDrop_fireConfined (j : JState) (status : Nat) (s : State) : (fwDrop j status s).fireConfined = s.fireConfined := by
  unfold fwDrop
  (repeat' split) <;> simp

@[simp] theorem activate_fireConfined (new : Bank) (run sentinel : Plan) (s : State) (hs : s.fireConfined) :
    (activate new run sentinel s).fireConfined := by
  unfold activate
  dsimp only
  split <;> simp [hs]

@[simp] theorem commitSwitch_fireConfined (p : Nat) (s : State) (hs : s.fireConfined) : (commitSwitch p s).fireConfined := by
  unfold commitSwitch
  split
  · split <;> simp [hs]
  · exact hs

@[simp] theorem discardPending_fireConfined (cause : Nat) (s : State) : (discardPending cause s).fireConfined = s.fireConfined := by
  simp [discardPending]

@[simp] theorem revertSteps_fireConfined (kind : Nat) (r : Request) (b : Bank) (n : Nat) (s : State) :
    (revertSteps kind r b n s).fireConfined = s.fireConfined := by
  simp [revertSteps]

@[simp] theorem deviceTermFalls_fireConfined (old : State) (term : Nat) (s : State) (hs : s.fireConfined) :
    (deviceTermFalls old term s).fireConfined := by
  simp [deviceTermFalls, hs]

@[simp] theorem portTermFalls_fireConfined (old : State) (term p : Nat) (s : State) : (portTermFalls old term p s).fireConfined = s.fireConfined := by
  simp [portTermFalls]

@[simp] theorem estopRelease_fireConfined (how : Nat) (s : State) : (estopRelease how s).fireConfined = s.fireConfined := by
  unfold estopRelease
  split
  · rfl
  · dsimp only; split <;> simp

@[simp] theorem estopStop_fireConfined (source : Nat) (s : State) (hs : s.fireConfined) : (estopStop source s).fireConfined := by
  simp [estopStop, hs]

@[simp] theorem aprTell_fireConfined (p : Nat) (s : State) : (aprTell p s).fireConfined = s.fireConfined := by
  simp [aprTell]

@[simp] theorem portRestart_fireConfined (mask : Nat) (s : State) : (portRestart mask s).fireConfined = s.fireConfined := by
  simp [portRestart]

@[simp] theorem hostEnable_fireConfined (mask : Nat) (s : State) : (hostEnable mask s).fireConfined = s.fireConfined := by
  simp [hostEnable]

@[simp] theorem locateMask_fireConfined (mask : Nat) (s : State) : (locateMask mask s).fireConfined = s.fireConfined := by
  simp [locateMask]

@[simp] theorem onPins_fireConfined (f : Pins → Pins) (s : State) : (onPins f s).fireConfined = s.fireConfined := by
  simp [onPins]

@[simp] theorem coldState_fireConfined (s : State) : (coldState s).fireConfined := .inr rfl

@[simp] theorem resetFor_fireConfined (cause : BitVec 6) (held : Bool) (s : State) (hs : s.fireConfined) : (resetFor cause held s).fireConfined := by
  simp [resetFor, hs]

@[simp] theorem pllLost_fireConfined (i : Nat) (s : State) : (pllLost i s).fireConfined = s.fireConfined := by
  simp [pllLost]

@[simp] theorem ptpAnnounce_fireConfined (d master rank : Nat) (s : State) : (ptpAnnounce d master rank s).fireConfined = s.fireConfined := by
  simp [ptpAnnounce]

@[simp] theorem ptpOffset_fireConfined (d seq : Nat) (t1 t2 : Int) (s : State) : (ptpOffset d seq t1 t2 s).fireConfined = s.fireConfined := by
  simp [ptpOffset]

@[simp] theorem ptpSync_fireConfined (d : Fin 2) (n seq : Nat) (master : Nat) (twoStep : Bool) (origin correction : Int) (s : State) :
    (ptpSync d n seq master twoStep origin correction s).fireConfined = s.fireConfined := by
  simp [ptpSync]

@[simp] theorem ptpFollowUp_fireConfined (d seq : Nat) (origin correction : Int) (s : State) :
    (ptpFollowUp d seq origin correction s).fireConfined = s.fireConfined := by
  unfold ptpFollowUp
  (repeat' split) <;> simp

@[simp] theorem ptpDelayResp_fireConfined (d seq : Nat) (receive correction : Int) (s : State) :
    (ptpDelayResp d seq receive correction s).fireConfined = s.fireConfined := by
  simp [ptpDelayResp]

@[simp] theorem ptpPdelayResp_fireConfined (d n seq : Nat) (turnaround : Int) (s : State) :
    (ptpPdelayResp d n seq turnaround s).fireConfined = s.fireConfined := by
  simp [ptpPdelayResp]

@[simp] theorem ptpPdelayReq_fireConfined (d n seq : Nat) (s : State) : (ptpPdelayReq d n seq s).fireConfined = s.fireConfined := by
  simp [ptpPdelayReq]

@[simp] theorem eachDomain_fireConfined (port : Fin 2) (domain sdo : Nat) {f : Fin 2 → State → State}
    (h : ∀ d s, (f d s).fireConfined = s.fireConfined) (s : State) : (eachDomain port domain sdo f s).fireConfined = s.fireConfined := by
  simp [eachDomain, h]

@[simp] theorem ptpMessageRx_fireConfined (m : PtpMessage) (s : State) : (ptpMessageRx m s).fireConfined = s.fireConfined := by
  unfold ptpMessageRx
  (repeat' split) <;> simp

@[simp] theorem udpTransport_fireConfined (enable : Bool) (port : Nat) (s : State) : (udpTransport enable port s).fireConfined = s.fireConfined := by
  simp [udpTransport]

@[simp] theorem writeParam_fireConfined (id idx : Nat) (v : Int) (s : State) : (writeParam id idx v s).fireConfined = s.fireConfined := by
  have hclear : ∀ e ∈ clearTable, ∀ u i v s, (e.2 u i v s).fireConfined = s.fireConfined := by
    simp [clearTable]
  have haction : ∀ e ∈ actionTable, ∀ u i v s, (e.2 u i v s).fireConfined = s.fireConfined := by
    simp [actionTable]
  unfold writeParam
  dsimp only
  split
  next e he => exact hclear e (List.mem_of_find?_eq_some he) _ _ _ _
  · split
    · simp
    · split
      next e he => exact haction e (List.mem_of_find?_eq_some he) _ _ _ _
      · split <;> simp

theorem applyItems_fireConfined {staging force : Bool} {n : Nat} {items : List (Nat × Nat × Nat)} {s t : State}
    (h : applyItems staging force n items s = .ok t) : t.fireConfined = s.fireConfined := by
  induction items generalizing n s with
  | nil => cases h; rfl
  | cons e items ih =>
    unfold applyItems at h
    dsimp only at h
    split at h
    · cases h
    · rw [ih h, writeParam_fireConfined]

@[simp] theorem answerItems_fireConfined (r : Request) (items : List (List Byte)) (s : State) :
    (answerItems r items s).fireConfined = s.fireConfined := by
  simp [answerItems]

@[simp] theorem replicateProgram_fireConfined (i : Nat) (crc : Option Nat) (s : State) :
    (replicateProgram i crc s).fireConfined = s.fireConfined := by
  simp [replicateProgram]

@[simp] theorem jobDrain_fireConfined (fuel i : Nat) (s : State) : (jobDrain fuel i s).fireConfined = s.fireConfined := by
  induction fuel generalizing s with
  | zero => rfl
  | succ fuel ih =>
    unfold jobDrain
    split
    · dsimp only
      split
      · split <;> simp [ih]
      · split <;> simp
    · rfl

@[simp] theorem calStepEnd_fireConfined (n : Nat) (left : Bool) (bad : Option Nat) (s : State) :
    (calStepEnd n left bad s).fireConfined = s.fireConfined := by
  cases bad <;> simp only [calStepEnd]
  all_goals
    split
    · simp
    · split <;> simp

@[simp] theorem calTakeJournal_fireConfined (item index : Nat) (s : State) : (calTakeJournal item index s).2.fireConfined = s.fireConfined := by
  unfold calTakeJournal
  split <;> simp

@[simp] theorem calFinish_fireConfined (item index : Nat) (fields : List Int) (s : State) :
    (calFinish item index fields s).fireConfined = s.fireConfined := by
  have htaken := calTakeJournal_fireConfined item index s
  unfold calFinish
  generalize calTakeJournal item index s = taken at htaken ⊢
  obtain ⟨job, taken⟩ := taken
  dsimp only at htaken ⊢
  cases job <;> cases calFailing taken item index fields <;> simp [htaken]

@[simp] theorem tdcDelayBegin_fireConfined (s : State) : (tdcDelayBegin s).fireConfined = s.fireConfined := by
  simp [tdcDelayBegin]

@[simp] theorem tdcDelayStart_fireConfined (s : State) : (tdcDelayStart s).fireConfined = s.fireConfined := by
  simp [tdcDelayStart]

@[simp] theorem doorbellWrite_fireConfined (t : Nat) (v : BitVec 32) (s : State) : (doorbellWrite t v s).fireConfined = s.fireConfined := by
  simp [doorbellWrite]

@[simp] theorem eventsLost_fireConfined (s : State) : (eventsLost s).fireConfined = s.fireConfined := by
  simp [eventsLost]

@[simp] theorem evqTailWrite_fireConfined (t : Nat) (v : BitVec 32) (s : State) : (evqTailWrite t v s).fireConfined = s.fireConfined := by
  simp [evqTailWrite]

@[simp] theorem pcieReset_fireConfined (s : State) : (pcieReset s).fireConfined = s.fireConfined := by
  simp [pcieReset]

@[simp] theorem readHigh_fireConfined (t off live : Nat) (s : State) : (readHigh t off live s).fireConfined = s.fireConfined := by
  unfold readHigh
  (repeat' split) <;> simp

@[simp] theorem readLow_fireConfined (t off : Nat) (s : State) : (readLow t off s).fireConfined = s.fireConfined := by
  simp [readLow]

@[simp] theorem writeIrqEnable_fireConfined (t : Nat) (v : BitVec 5) (s : State) : (writeIrqEnable t v s).fireConfined = s.fireConfined := by
  simp [writeIrqEnable]

@[simp] theorem writeDmaEnable_fireConfined (v : BitVec 32) (s : State) : (writeDmaEnable v s).fireConfined = s.fireConfined := by
  simp [writeDmaEnable]

@[simp] theorem writeAreaByte_fireConfined (t off : Nat) (b : Byte) (s : State) : (writeAreaByte t off b s).fireConfined = s.fireConfined := by
  simp [writeAreaByte]

@[simp] theorem writeWord_fireConfined (t off : Nat) (v : BitVec 32) (s : State) (hs : s.fireConfined) : (writeWord t off v s).fireConfined := by
  unfold writeWord
  (repeat' split) <;> simp [hs]

@[simp] theorem smbRead_fireConfined (addr : BitVec 7) (words : List Nat) (s : State) : (smbRead addr words s).fireConfined = s.fireConfined := by
  simp [smbRead]

@[simp] theorem jtagFunctional_fireConfined (s : State) : (jtagFunctional s).fireConfined = s.fireConfined := by
  simp [jtagFunctional]

@[simp] theorem pairRefresh_fireConfined (s : State) : (pairRefresh s).fireConfined = s.fireConfined := by
  simp [pairRefresh]

@[simp] theorem returnMirror_fireConfined (s : State) : (returnMirror s).fireConfined := by
  simp [returnMirror]

@[simp] theorem beginTake_fireConfined (cause : Nat) (planned host : Bool) (s : State) : (beginTake cause planned host s).fireConfined := by
  simp [beginTake]

@[simp] theorem autoTake_fireConfined (cause : Nat) (s : State) (hs : s.fireConfined) : (autoTake cause s).fireConfined := by
  unfold autoTake
  split <;> simp [hs]

@[simp] theorem leashCollision_fireConfined (s : State) (hs : s.fireConfined) : (leashCollision s).fireConfined := by
  simp [leashCollision, hs]

@[simp] theorem idConflict_fireConfined (unitId : Bool) (s : State) (hs : s.fireConfined) : (idConflict unitId s).fireConfined := by
  simp [idConflict, hs]

@[simp] theorem abortHandover_fireConfined (reason : Nat) (s : State) : (abortHandover reason s).fireConfined := by
  unfold abortHandover
  exact setMode_fireConfined _ _ _

@[simp] theorem peerFailed_fireConfined (s : State) (hs : s.fireConfined) : (peerFailed s).fireConfined := by
  simp [peerFailed, hs]

@[simp] theorem issueCopy_fireConfined (c : CopyState) (s : State) : (issueCopy c s).fireConfined = s.fireConfined := by
  simp [issueCopy]

@[simp] theorem sendCopy_fireConfined (final : Bool) (mode : Mode) (s : State) : (sendCopy final mode s).fireConfined = s.fireConfined := by
  simp [sendCopy]

@[simp] theorem extendOne_fireConfined (key : Nat) (s : State) : (extendOne key s).fireConfined = s.fireConfined := by
  simp [extendOne]

@[simp] theorem counterExtend_fireConfined (s : State) : (counterExtend s).fireConfined = s.fireConfined := by
  simp [counterExtend]

/-- What a command answers keeps FIRE confined. -/
def answersConfined (o : Host.Outcome State Fault Refusal) : Prop := ∀ t, o = .next t → t.fireConfined

@[simp] theorem answersConfined_next (t : State) : answersConfined (.next t) ↔ t.fireConfined := by
  simp [answersConfined]

@[simp] theorem itemDone_fireConfined (q seq type : Nat) (bytes : List Byte) (s : State) :
    (itemDone q seq type bytes s).fireConfined = s.fireConfined := by
  simp [itemDone]

@[simp] theorem deliverRing_fireConfined (q seq type : Nat) (bytes : List Byte) (buffers : List Nat) (s : State) :
    (deliverRing q seq type bytes buffers s).fireConfined = s.fireConfined := by
  unfold deliverRing
  dsimp only
  (repeat' split) <;> simp

@[simp] theorem deliverEth_fireConfined (q n seq type : Nat) (bytes : List Byte) (s : State) :
    (deliverEth q n seq type bytes s).fireConfined = s.fireConfined := by
  simp [deliverEth]

@[simp] theorem queueItemDeliver_fireConfined (q : Nat) (buffers : List Nat) (s : State) :
    (queueItemDeliver q buffers s).fireConfined = s.fireConfined := by
  unfold queueItemDeliver
  dsimp only
  (repeat' split) <;> simp

theorem execQueueItemDeliver_confined (q : Fin 8) (buffers : List Nat) {s : State} (hs : s.fireConfined) :
    answersConfined (execQueueItemDeliver q buffers s) := by
  simp [execQueueItemDeliver, hs]

theorem execQueueIrq_confined (q : Fin 8) {s : State} (hs : s.fireConfined) : answersConfined (execQueueIrq q s) := by
  simp [execQueueIrq, queueIrq, hs]

theorem execDescriptorReadDone_confined (q : Fin 8) (r : DescriptorRead) {s : State} (hs : s.fireConfined) :
    answersConfined (execDescriptorReadDone q r s) := by
  simp only [execDescriptorReadDone, answersConfined_next]
  unfold descriptorReadDone
  (repeat' split) <;> simp [hs]

theorem execQueueTailWrite_confined (q : Fin 8) (v : BitVec 32) {s : State} (hs : s.fireConfined) : answersConfined (execQueueTailWrite q v s) := by
  simp [execQueueTailWrite, hs]

theorem execDmaQueueEnable_confined (q : Fin 8) {s : State} (hs : s.fireConfined) : answersConfined (execDmaQueueEnable q s) := by
  simp [execDmaQueueEnable, hs]

theorem execDmaQueueDisable_confined (q : Fin 8) {s : State} (hs : s.fireConfined) : answersConfined (execDmaQueueDisable q s) := by
  simp [execDmaQueueDisable, hs]

@[simp] theorem strokeSat_fireConfined (p n : Nat) (s : State) : (strokeSat p n s).fireConfined = s.fireConfined := by
  unfold strokeSat
  dsimp only
  (repeat' split) <;> simp

@[simp] theorem strokeEmit_fireConfined (pt : RawPoint) (t : Shot) (o : UnwrapOut) (s : State) :
    (strokeEmit pt t o s).fireConfined = s.fireConfined := by
  simp [strokeEmit]

@[simp] theorem pointUnwrap_fireConfined (pt : RawPoint) (s : State) : (pointUnwrap pt s).fireConfined = s.fireConfined := by
  unfold pointUnwrap
  (repeat' split) <;> simp

theorem execPointUnwrap_confined (pt : RawPoint) {s : State} (hs : s.fireConfined) : answersConfined (execPointUnwrap pt s) := by
  simp [execPointUnwrap, hs]

@[simp] theorem sliceWork_fireConfined (b : Bank) (d : Nat) (r : SliceResult) (slices : Nat) (due : Bool) (s : State) :
    (sliceWork b d r slices due s).fireConfined = s.fireConfined := by
  simp [sliceWork]

@[simp] theorem missedSlice_fireConfined (w : WorkItem) (r : SliceResult) (s : State) : (missedSlice w r s).fireConfined = s.fireConfined := by
  simp [missedSlice]

@[simp] theorem sliceDone_fireConfined (w : WorkItem) (r : SliceResult) (s : State) : (sliceDone w r s).fireConfined = s.fireConfined := by
  unfold sliceDone
  dsimp only
  (repeat' split) <;> simp

@[simp] theorem sliceComplete_fireConfined (r : SliceResult) (s : State) : (sliceComplete r s).fireConfined = s.fireConfined := by
  unfold sliceComplete
  (repeat' split) <;> simp

theorem execSliceComplete_confined (r : SliceResult) {s : State} (hs : s.fireConfined) : answersConfined (execSliceComplete r s) := by
  simp [execSliceComplete, hs]

theorem execDtsTraceComplete_confined (p : Fin 4) (codes : RamanCodes) {s : State} (hs : s.fireConfined) :
    answersConfined (execDtsTraceComplete p codes s) := by
  simp [execDtsTraceComplete, dtsTraceComplete, hs]

theorem execRtdDue_confined (k : Fin 8) {s : State} (hs : s.fireConfined) : answersConfined (execRtdDue k s) := by
  simp [execRtdDue, rtdDue, hs]

theorem execRtdMeasurementEnd_confined (k : Fin 8) (m : RtdSums) {s : State} (hs : s.fireConfined) :
    answersConfined (execRtdMeasurementEnd k m s) := by
  simp [execRtdMeasurementEnd, rtdMeasurementEnd, hs]

theorem execRtdPulseTimeout_confined (k : Fin 8) {s : State} (hs : s.fireConfined) : answersConfined (execRtdPulseTimeout k s) := by
  simp [execRtdPulseTimeout, hs]

theorem execHkScan_confined (codes : List Int) {s : State} (hs : s.fireConfined) : answersConfined (execHkScan codes s) := by
  simp [execHkScan, hkScan, hkResult, hs]

theorem execHkPulseEvent_confined (e : Fin 8) (code : Int) (late : Bool) {s : State} (hs : s.fireConfined) :
    answersConfined (execHkPulseEvent e code late s) := by
  simp [execHkPulseEvent, hkPulseEvent, hs]

theorem execLaunchSeen_confined (p : Fin 4) {s : State} (hs : s.fireConfined) : answersConfined (execLaunchSeen p s) := by
  simp [execLaunchSeen, launchSeen, hs]

theorem execLaunchWindowEnd_confined (p : Fin 4) {s : State} (hs : s.fireConfined) : answersConfined (execLaunchWindowEnd p s) := by
  simp only [execLaunchWindowEnd, answersConfined_next]
  unfold launchWindowEnd
  (repeat' split) <;> simp [hs]

theorem execInputOverRange_confined (p : Fin 4) (group : Fin 2) {s : State} (hs : s.fireConfined) :
    answersConfined (execInputOverRange p group s) := by
  simp [execInputOverRange, inputOverRange, openGuard, hs]

theorem execOvrGuardEnd_confined (p : Fin 4) (group : Fin 2) {s : State} (hs : s.fireConfined) : answersConfined (execOvrGuardEnd p group s) := by
  simp [execOvrGuardEnd, ovrGuardEnd, hs]

theorem execBlankInputChange_confined (p : Fin 4) (level : Bool) {s : State} (hs : s.fireConfined) :
    answersConfined (execBlankInputChange p level s) := by
  simp [execBlankInputChange, blankInputChange, hs]

theorem execAdcCorrEstimate_confined (p : Fin 4) (input : Fin 6) (c : Correction) {s : State} (hs : s.fireConfined) :
    answersConfined (execAdcCorrEstimate p input c s) := by
  simp only [execAdcCorrEstimate, answersConfined_next]
  unfold adcCorrEstimate
  (repeat' split) <;> simp [hs]

theorem execDasGainWrite_confined (p : Fin 4) (gain : Nat) {s : State} (hs : s.fireConfined) : answersConfined (execDasGainWrite p gain s) := by
  simp [execDasGainWrite, hs]

theorem execRecordClose_confined (n : Nat) {s : State} (hs : s.fireConfined) : answersConfined (execRecordClose n s) := by
  simp only [execRecordClose, answersConfined_next]
  unfold recordClose
  (repeat' split) <;> simp [hs]

theorem execTrgArmNChange_confined (low : Bool) {s : State} (hs : s.fireConfined) : answersConfined (execTrgArmNChange low s) := by
  simp [execTrgArmNChange, hs]

theorem execRemoteFireEdge_confined {s : State} (hs : s.fireConfined) : answersConfined (execRemoteFireEdge s) := by
  simp [execRemoteFireEdge, remoteFireEdge, hs]

theorem execFirePulseEnd_confined {s : State} (hs : s.fireConfined) : answersConfined (execFirePulseEnd s) := by
  simp [execFirePulseEnd, hs]

theorem execMasterArmWrite_confined (on : Bool) {s : State} (hs : s.fireConfined) : answersConfined (execMasterArmWrite on s) := by
  simp [execMasterArmWrite, hs]

theorem execPtrFlagsWrite_confined (v : Nat) {s : State} (hs : s.fireConfined) : answersConfined (execPtrFlagsWrite v s) := by
  simp [execPtrFlagsWrite, hs]

theorem execRep_confined (l : Fin 128) (nMinus1 : BitVec 12) {s : State} (hs : s.fireConfined) : answersConfined (execRep l nMinus1 s) := by
  unfold execRep
  (repeat' split) <;> simp [hs]

theorem execDbnz_confined (l : Fin 128) (c : Fin 4) (off : BitVec 16) {s : State} (hs : s.fireConfined) : answersConfined (execDbnz l c off s) := by
  unfold execDbnz
  (repeat' split) <;> simp [hs]

@[simp] theorem pieceResult_fireConfined (l : Nat) (s : State) : (pieceResult l s).fireConfined = s.fireConfined := by
  unfold pieceResult
  dsimp only
  (repeat' split) <;> simp

@[simp] theorem pieceOutput_fireConfined (l : Nat) (s : State) : (pieceOutput l s).fireConfined = s.fireConfined := by
  unfold pieceOutput
  dsimp only
  (repeat' split) <;> simp

@[simp] theorem pieceFlags_fireConfined (l : Nat) (s : State) : (pieceFlags l s).fireConfined = s.fireConfined := by
  unfold pieceFlags
  dsimp only
  (repeat' split) <;> simp

theorem execEndInsn_confined (l : Fin 128) {s : State} (hs : s.fireConfined) : answersConfined (execEndInsn l s) := by
  simp [execEndInsn, hs]

@[simp] theorem dramOnlineNow_fireConfined (a : Nat) (s : State) : (dramOnlineNow a s).fireConfined = s.fireConfined := by
  simp [dramOnlineNow]

@[simp] theorem trainingEnds_fireConfined (a : Nat) (r : TrainingResult) (s : State) : (trainingEnds a r s).fireConfined = s.fireConfined := by
  unfold trainingEnds
  dsimp only
  (repeat' split) <;> simp

@[simp] theorem dramTrainingDone_fireConfined (a : Nat) (r : TrainingResult) (s : State) :
    (dramTrainingDone a r s).fireConfined = s.fireConfined := by
  simp [dramTrainingDone]

theorem execDramTrainingDone_confined (a : Fin 2) (r : TrainingResult) {s : State} (hs : s.fireConfined) :
    answersConfined (execDramTrainingDone a r s) := by
  simp [execDramTrainingDone, hs]

theorem execDramRetrainCheck_confined (a : Fin 2) (mr4 : Nat) (pass : Bool) {s : State} (hs : s.fireConfined) :
    answersConfined (execDramRetrainCheck a mr4 pass s) := by
  simp [execDramRetrainCheck, dramRetrainCheck, hs]

theorem execRateMtsWrite_confined (a : Fin 2) (rate : Nat) {s : State} (hs : s.fireConfined) : answersConfined (execRateMtsWrite a rate s) := by
  simp [execRateMtsWrite, hs]

@[simp] theorem rowHammer_fireConfined (a : Nat) (l : DramRow) (s : State) : (rowHammer a l s).fireConfined = s.fireConfined := by
  unfold rowHammer
  dsimp only
  (repeat' split) <;> simp

theorem execRowHammer_confined (a : Fin 2) (l : DramRow) {s : State} (hs : s.fireConfined) : answersConfined (execRowHammer a l s) := by
  simp [execRowHammer, hs]

theorem execHammerWindow_confined {s : State} (hs : s.fireConfined) : answersConfined (execHammerWindow s) := by
  simp [execHammerWindow, hs]

theorem execHammerThrottleEnd_confined (i : Fin 8) {s : State} (hs : s.fireConfined) : answersConfined (execHammerThrottleEnd i s) := by
  simp [execHammerThrottleEnd, hs]

theorem execDramRefresh_confined (a : Fin 2) (waiting : Bool) {s : State} (hs : s.fireConfined) : answersConfined (execDramRefresh a waiting s) := by
  simp [execDramRefresh, hs]

@[simp] theorem memLate_fireConfined (i n : Nat) (s : State) : (memLate i n s).fireConfined = s.fireConfined := by
  unfold memLate
  dsimp only
  (repeat' split) <;> simp

theorem execMemLate_confined (i : Fin 8) (n : Nat) {s : State} (hs : s.fireConfined) : answersConfined (execMemLate i n s) := by
  simp [execMemLate, hs]

theorem execSliceDeadline_confined (z : Fin 1024) {s : State} (hs : s.fireConfined) : answersConfined (execSliceDeadline z s) := by
  simp only [execSliceDeadline, answersConfined_next]
  unfold sliceDeadline
  (repeat' split) <;> simp [hs]

theorem execLaneBudgetEnd_confined (l : Fin 128) {s : State} (hs : s.fireConfined) : answersConfined (execLaneBudgetEnd l s) := by
  simp [execLaneBudgetEnd, hs]

@[simp] theorem laneError_fireConfined (l kind : Nat) (s : State) (hs : s.fireConfined) : (laneError l kind s).fireConfined := by
  unfold laneError
  dsimp only
  (repeat' split) <;> simp [hs]

@[simp] theorem sramEffect_fireConfined (e : SramError) (s : State) (hs : s.fireConfined) : (sramEffect e s).fireConfined := by
  unfold sramEffect
  dsimp only
  (repeat' split) <;> simp [hs]

@[simp] theorem sramEccError_fireConfined (e : SramError) (s : State) (hs : s.fireConfined) : (sramEccError e s).fireConfined := by
  unfold sramEccError
  split
  · dsimp only
    split <;> simp [hs]
  · exact sramEffect_fireConfined _ _ (by simpa using hs)

theorem execSramEccError_confined (e : SramError) {s : State} (hs : s.fireConfined) : answersConfined (execSramEccError e s) := by
  simp [execSramEccError, hs]

theorem execSramScrubRewrite_confined (store : Fin 5) (word : Nat) {s : State} (hs : s.fireConfined) :
    answersConfined (execSramScrubRewrite store word s) := by
  simp [execSramScrubRewrite, hs]

@[simp] theorem poisonHeader_fireConfined (a slot : Nat) (s : State) : (poisonHeader a slot s).fireConfined = s.fireConfined := by
  simp [poisonHeader]

@[simp] theorem poisonRing_fireConfined (a f o : Nat) (s : State) : (poisonRing a f o s).fireConfined = s.fireConfined := by
  unfold poisonRing
  (repeat' split) <;> simp

@[simp] theorem poisonJob_fireConfined (i : Nat) (s : State) : (poisonJob i s).fireConfined = s.fireConfined := by
  unfold poisonJob
  (repeat' split) <;> simp

@[simp] theorem poisonEffect_fireConfined (e : DramError) (s : State) : (poisonEffect e s).fireConfined = s.fireConfined := by
  unfold poisonEffect
  dsimp only
  (repeat' split) <;> simp

@[simp] theorem dramEccError_fireConfined (e : DramError) (s : State) : (dramEccError e s).fireConfined = s.fireConfined := by
  simp [dramEccError]

theorem execDramEccError_confined (e : DramError) {s : State} (hs : s.fireConfined) : answersConfined (execDramEccError e s) := by
  simp [execDramEccError, hs]

theorem execPageRetire_confined (a : Fin 2) (page : Nat) {s : State} (hs : s.fireConfined) : answersConfined (execPageRetire a page s) := by
  simp [execPageRetire, pageRetire, hs]

@[simp] theorem pairedConfig_fireConfined (r : Request) (s : State) (hs : s.fireConfined) : (pairedConfig r s).fireConfined := by
  unfold pairedConfig
  split
  · simp [hs]
  · simp [withJournal]

@[simp] theorem startAsked_fireConfined (r : Request) (a : Asked) (mask : BitVec 4) (s : State) :
    (startAsked r a mask s).fireConfined = s.fireConfined := by
  simp [startAsked]

@[simp] theorem modeRequest_fireConfined (r : Request) (s : State) (hs : s.fireConfined) : (modeRequest r s).fireConfined := by
  unfold modeRequest
  dsimp only
  split
  · simp [hs]
  · (repeat' split) <;> simp [hs]

theorem execModeRequest_confined  {s : State} (hs : s.fireConfined) : answersConfined (execModeRequest s) := by
  have := runCommand_fireConfined (code := 0x0300) modeRequest_fireConfined hs
  simp only [execModeRequest, answersConfined_next]
  split <;> assumption

@[simp] theorem autoRun_fireConfined (r : Request) (s : State) : (autoRun r s).fireConfined = s.fireConfined := by
  refine withJournal_fireConfined_eq fun n s => ?_
  dsimp only
  split <;> simp

theorem execAutoRun_confined  {s : State} (hs : s.fireConfined) : answersConfined (execAutoRun s) := by
  have := runInternal_fireConfined (sel := fun r => r.opcode == 0x0300 && field r.payload 0 1 == 4) (f := autoRun) (fun r s hs => by simpa using hs) hs
  simp only [execAutoRun, answersConfined_next]
  split <;> assumption

@[simp] theorem feedLossAction_fireConfined (r : Request) (s : State) : (feedLossAction r s).fireConfined = s.fireConfined := by
  simp [feedLossAction]

theorem execFeedLossAction_confined  {s : State} (hs : s.fireConfined) : answersConfined (execFeedLossAction s) := by
  have := fun sel => runInternal_fireConfined (sel := sel) (f := fun r s => feedLossAction r (interruptTransition 0x31 s)) (fun r s hs => by simpa using hs) hs
  simp only [execFeedLossAction, answersConfined_next]
  split
  · exact hs
  · exact this _

@[simp] theorem ethForceLow_fireConfined (on : Bool) (s : State) : (ethForceLow on s).fireConfined = s.fireConfined := by
  simp [ethForceLow]

@[simp] theorem leaveDormant_fireConfined (s : State) : (leaveDormant s).fireConfined = s.fireConfined := by
  simp [leaveDormant]

@[simp] theorem enterDormant_fireConfined (n : Nat) (s : State) : (enterDormant n s).fireConfined := by
  simp [enterDormant, -setMode_mode]

@[simp] theorem enterSurvey_fireConfined (mask : BitVec 4) (journal : Nat) (s : State) : (enterSurvey mask journal s).fireConfined := by
  unfold enterSurvey
  exact setMode_fireConfined _ _ _

@[simp] theorem enterTarget_fireConfined (t : Transition) (s : State) : (enterTarget t s).fireConfined := by
  unfold enterTarget
  split <;> simp

@[simp] theorem continueRun_fireConfined (t : Transition) (s : State) : (continueRun t s).fireConfined = s.fireConfined := by
  unfold continueRun
  dsimp only
  split <;> simp

@[simp] theorem modeTransitionDone_fireConfined (s : State) (hs : s.fireConfined) : (modeTransitionDone s).fireConfined := by
  unfold modeTransitionDone
  split
  · exact hs
  · dsimp only
    (repeat' split) <;> simp

theorem execModeTransitionDone_confined {s : State} (hs : s.fireConfined) : answersConfined (execModeTransitionDone s) := by
  simp [execModeTransitionDone, hs]

@[simp] theorem surveyStage_fireConfined (p : Nat) (r : SurveyResult) (s : State) : (surveyStage p r s).fireConfined = s.fireConfined := by
  simp [surveyStage]

@[simp] theorem surveyPortDone_fireConfined (p : Nat) (trace : SurveyTrace) (s : State) (hs : s.fireConfined) :
    (surveyPortDone p trace s).fireConfined := by
  unfold surveyPortDone
  split
  · exact hs
  · dsimp only
    have hfire (s u : State) (hm : u.mode.current = s.mode.current) : (onSafety (fun x => { x with fire := modeFire u }) s).fireConfined :=
      onSafety_modeFire_confined hm rfl
    split <;> simp [hfire]

theorem execSurveyPortDone_confined (p : Fin 4) (trace : SurveyTrace) {s : State} (hs : s.fireConfined) :
    answersConfined (execSurveyPortDone p trace s) := by
  simp [execSurveyPortDone, hs]

theorem execDeviceReset_confined {s : State} (hs : s.fireConfined) : answersConfined (execDeviceReset s) := by
  simp [execDeviceReset, deviceResetCmd, hs]

theorem execDelayedReset_confined {s : State} (hs : s.fireConfined) : answersConfined (execDelayedReset s) := by
  simp [execDelayedReset, hs]

@[simp] theorem bootRomStart_fireConfined (s : State) : (bootRomStart s).fireConfined = s.fireConfined := by
  unfold bootRomStart
  dsimp only
  (repeat' split) <;> simp

theorem execBootRomStart_confined {s : State} (hs : s.fireConfined) : answersConfined (execBootRomStart s) := by
  simp [execBootRomStart, hs]

theorem execBootSramClearDone_confined (ok : Bool) {s : State} (hs : s.fireConfined) : answersConfined (execBootSramClearDone ok s) := by
  simp [execBootSramClearDone, hs]

theorem execBootComplete_confined {s : State} (hs : s.fireConfined) : answersConfined (execBootComplete s) := by
  simp [execBootComplete, bootComplete, bootBank, latchBoot, hs]

theorem execScribeWatchdog_confined {s : State} (hs : s.fireConfined) : answersConfined (execScribeWatchdog s) := by
  simp [execScribeWatchdog, hs]

@[simp] theorem xresync_fireConfined (x : Nat) (s : State) : (xresync x s).fireConfined = s.fireConfined := by
  simp [xresync]

@[simp] theorem scribeRestartDone_fireConfined (mismatch : Bool) (s : State) (hs : s.fireConfined) : (scribeRestartDone mismatch s).fireConfined := by
  unfold scribeRestartDone
  split
  · exact hs
  · dsimp only
    split
    · exact enterFault_fireConfined _ _ _ (by simpa using hs)
    · simpa using hs

theorem execScribeRestartDone_confined (mismatch : Bool) {s : State} (hs : s.fireConfined) : answersConfined (execScribeRestartDone mismatch s) := by
  simp [execScribeRestartDone, hs]

theorem execRecoveryImage_confined (image : List Byte) {s : State} (hs : s.fireConfined) : answersConfined (execRecoveryImage image s) := by
  simp [execRecoveryImage, recoveryImage, hs]

theorem execFwBegin_confined {s : State} (hs : s.fireConfined) : answersConfined (execFwBegin s) := by
  simp [execFwBegin, fwBegin, hs]

@[simp] theorem fwData_fireConfined (r : Request) (s : State) : (fwData r s).fireConfined = s.fireConfined := by
  unfold fwData
  (repeat' split) <;> simp

theorem execFwData_confined {s : State} (hs : s.fireConfined) : answersConfined (execFwData s) := by
  simp [execFwData, hs]

@[simp] theorem fwEnd_fireConfined (r : Request) (s : State) : (fwEnd r s).fireConfined = s.fireConfined := by
  unfold fwEnd
  (repeat' split) <;> simp

theorem execFwEnd_confined {s : State} (hs : s.fireConfined) : answersConfined (execFwEnd s) := by
  simp [execFwEnd, hs]

theorem execFwActivate_confined {s : State} (hs : s.fireConfined) : answersConfined (execFwActivate s) := by
  simp [execFwActivate, fwActivate, hs]

theorem execFwConfirm_confined {s : State} (hs : s.fireConfined) : answersConfined (execFwConfirm s) := by
  simp [execFwConfirm, fwConfirm, hs]

theorem execFwConfirmTimeout_confined {s : State} (hs : s.fireConfined) : answersConfined (execFwConfirmTimeout s) := by
  simp only [execFwConfirmTimeout, answersConfined_next]
  unfold fwConfirmTimeout
  (repeat' split) <;> simp [hs]

theorem execCommitSwitch_confined (p : Fin 4) {s : State} (hs : s.fireConfined) : answersConfined (execCommitSwitch p s) := by
  simp [execCommitSwitch, hs]

@[simp] theorem commitRefused_fireConfined (r : Request) (n status : Nat) (failing : Option (Nat × Nat)) (report : List Byte) (s : State) :
    (commitRefused r n status failing report s).fireConfined = s.fireConfined := by
  simp [commitRefused]

@[simp] theorem commitSteps_fireConfined (r : Request) (b : Bank) (n : Nat) (s : State) : (commitSteps r b n s).fireConfined = s.fireConfined := by
  unfold commitSteps
  dsimp only
  (repeat' split) <;> simp

@[simp] theorem commit_fireConfined (r : Request) (s : State) : (commit r s).fireConfined = s.fireConfined := by
  unfold commit
  (repeat' split) <;> simp

theorem execCommit_confined {s : State} (hs : s.fireConfined) : answersConfined (execCommit s) := by
  simp [execCommit, hs]

theorem execCommitRecordProgrammed_confined {s : State} (hs : s.fireConfined) : answersConfined (execCommitRecordProgrammed s) := by
  simp only [execCommitRecordProgrammed, answersConfined_next]
  unfold commitRecordProgrammed
  (repeat' split) <;> simp [revertDone, commitDone, hs]

@[simp] theorem revert_fireConfined (r : Request) (s : State) : (revert r s).fireConfined = s.fireConfined := by
  unfold revert
  (repeat' split) <;> simp

theorem execRevert_confined {s : State} (hs : s.fireConfined) : answersConfined (execRevert s) := by
  simp [execRevert, hs]

theorem execCfgConfirmTimeout_confined {s : State} (hs : s.fireConfined) : answersConfined (execCfgConfirmTimeout s) := by
  simp [execCfgConfirmTimeout, cfgConfirmTimeout, hs]

@[simp] theorem autoRevert_fireConfined (r : Request) (s : State) : (autoRevert r s).fireConfined = s.fireConfined := by
  unfold autoRevert
  (repeat' split) <;> simp

theorem execAutoRevert_confined  {s : State} (hs : s.fireConfined) : answersConfined (execAutoRevert s) := by
  have : ∀ r s, (autoRevert r s).fireConfined = s.fireConfined := by
    intro r s
    unfold autoRevert
    split
    · split <;> simp
    · rfl
  have := runInternal_fireConfined (sel := fun r => r.opcode == 0x0203) (f := autoRevert) (fun r s hs => by simpa [this] using hs) hs
  simpa [execAutoRevert] using this

theorem execConfirm_confined {s : State} (hs : s.fireConfined) : answersConfined (execConfirm s) := by
  simp [execConfirm, confirm, hs]

@[simp] theorem bankDiff_fireConfined (r : Request) (s : State) : (bankDiff r s).fireConfined = s.fireConfined := by
  unfold bankDiff
  dsimp only
  (repeat' split) <;> simp

theorem execBankDiff_confined {s : State} (hs : s.fireConfined) : answersConfined (execBankDiff s) := by
  simp [execBankDiff, hs]

theorem execPendingDiscard_confined {s : State} (hs : s.fireConfined) : answersConfined (execPendingDiscard s) := by
  simp [execPendingDiscard, hs]

theorem execLkeyOff_confined {s : State} (hs : s.fireConfined) : answersConfined (execLkeyOff s) := by
  simp [execLkeyOff, lkeyOff, hs]

theorem execLkeyOn_confined {s : State} (hs : s.fireConfined) : answersConfined (execLkeyOn s) := by
  simp [execLkeyOn, lkeyOn, hs]

theorem execLoopOkLow_confined {s : State} (hs : s.fireConfined) : answersConfined (execLoopOkLow s) := by
  simp [execLoopOkLow, loopOkLow, hs]

theorem execLoopOkHigh_confined {s : State} (hs : s.fireConfined) : answersConfined (execLoopOkHigh s) := by
  simp [execLoopOkHigh, hs]

theorem execEstopStop_confined (t : Fin 2) {s : State} (hs : s.fireConfined) : answersConfined (execEstopStop t s) := by
  simp [execEstopStop, hs]

theorem execEstopReleaseWrite_confined (on : Bool) {s : State} (hs : s.fireConfined) : answersConfined (execEstopReleaseWrite on s) := by
  simp [execEstopReleaseWrite, hs]

theorem execLightWithoutGate_confined (p : Fin 4) {s : State} (hs : s.fireConfined) : answersConfined (execLightWithoutGate p s) := by
  simp [execLightWithoutGate, lightWithoutGate, hs]

theorem execPlugOpenLatch_confined (p : Fin 4) {s : State} (hs : s.fireConfined) : answersConfined (execPlugOpenLatch p s) := by
  simp [execPlugOpenLatch, plugOpenLatch, hs]

theorem execPlugDebouncedOpen_confined (p : Fin 4) {s : State} (hs : s.fireConfined) : answersConfined (execPlugDebouncedOpen p s) := by
  simp [execPlugDebouncedOpen, plugDebouncedOpen, hs]

theorem execPlugDebouncedClose_confined (p : Fin 4) {s : State} (hs : s.fireConfined) : answersConfined (execPlugDebouncedClose p s) := by
  simp [execPlugDebouncedClose, plugDebouncedClose, hs]

theorem execAprRestartExpiry_confined (p : Fin 4) {s : State} (hs : s.fireConfined) : answersConfined (execAprRestartExpiry p s) := by
  simp [execAprRestartExpiry, hs]

theorem execPortRestartWrite_confined (mask : Nat) {s : State} (hs : s.fireConfined) : answersConfined (execPortRestartWrite mask s) := by
  simp [execPortRestartWrite, hs]

theorem execHostEnableWrite_confined (mask : Nat) {s : State} (hs : s.fireConfined) : answersConfined (execHostEnableWrite mask s) := by
  simp [execHostEnableWrite, hs]

@[simp] theorem lampFault_fireConfined (j kind : Nat) (s : State) (hs : s.fireConfined) : (lampFault j kind s).fireConfined := by
  have hport (t : State) : (forEach (allPorts.filter fun p => locatorLed s p == j) (fun p t => portTermFalls s 4 p
      (onSafety (fun x => { x with locatorHold := x.locatorHold ||| portMask p }) t)) t).fireConfined = t.fireConfined := by simp
  unfold lampFault
  dsimp only
  split
  · simp [hs]
  · split
    · rw [hport]; simp [hs]
    · simp [hs]

@[simp] theorem ledDiagnosis_fireConfined (j kind : Nat) (s : State) (hs : s.fireConfined) : (ledDiagnosis j kind s).fireConfined := by
  unfold ledDiagnosis
  dsimp only
  split
  · exact hs
  · (repeat' split) <;> simp [hs]

theorem execLedDiagnosis_confined (j : Fin 16) (kind : Fin 3) {s : State} (hs : s.fireConfined) : answersConfined (execLedDiagnosis j kind s) := by
  simp [execLedDiagnosis, hs]

@[simp] theorem colourStep_fireConfined (c : Nat) (m : Int) (s : State) : (colourStep c m s).fireConfined = s.fireConfined := by
  unfold colourStep
  dsimp only
  (repeat' split) <;> simp

@[simp] theorem colourFeedback_fireConfined (dark lit : Vector Int 3) (s : State) : (colourFeedback dark lit s).fireConfined = s.fireConfined := by
  simp [colourFeedback]

theorem execColourFeedback_confined (dark lit : Vector Int 3) {s : State} (hs : s.fireConfined) :
    answersConfined (execColourFeedback dark lit s) := by
  simp [execColourFeedback, hs]

theorem execPanelInputChatter_confined (i : Fin 8) {s : State} (hs : s.fireConfined) : answersConfined (execPanelInputChatter i s) := by
  simp only [execPanelInputChatter, answersConfined_next]
  unfold panelInputChatter
  (repeat' split) <;> simp [hs]

theorem execInputStuck_confined (button : Fin 2) {s : State} (hs : s.fireConfined) : answersConfined (execInputStuck button s) := by
  simp only [execInputStuck, answersConfined_next]
  unfold inputStuck
  (repeat' split) <;> simp [hs]

theorem execButtonStableRelease_confined (button : Fin 2) {s : State} (hs : s.fireConfined) : answersConfined (execButtonStableRelease button s) := by
  unfold execButtonStableRelease
  (repeat' split) <;> simp [hs]

theorem execLocateMaskWrite_confined (mask : Nat) {s : State} (hs : s.fireConfined) : answersConfined (execLocateMaskWrite mask s) := by
  simp [execLocateMaskWrite, hs]

theorem execLocatePress_confined {s : State} (hs : s.fireConfined) : answersConfined (execLocatePress s) := by
  simp [execLocatePress, locatePress, hs]

theorem execLocateEnd_confined {s : State} (hs : s.fireConfined) : answersConfined (execLocateEnd s) := by
  simp [execLocateEnd, hs]

theorem execPowerOn_confined (feed : Fin 2) (seqViolation : Bool) {s : State} (hs : s.fireConfined) :
    answersConfined (execPowerOn feed seqViolation s) := by
  simp [execPowerOn, powerOn, hs]

theorem execPowerOff_confined (s : State) : answersConfined (execPowerOff s) := by
  simp [execPowerOff, powerOff, logCut]

theorem execResetNFall_confined {s : State} (hs : s.fireConfined) : answersConfined (execResetNFall s) := by
  simp [execResetNFall, hs]

theorem execPwrgdFall_confined {s : State} (hs : s.fireConfined) : answersConfined (execPwrgdFall s) := by
  simp [execPwrgdFall, hs]

@[simp] theorem resetRelease_fireConfined (s : State) (hs : s.fireConfined) : (resetRelease s).fireConfined := by
  unfold resetRelease
  split
  next => exact hs
  next h =>
    have hreset : s.mode.current = .reset := by
      simp only [Bool.or_eq_true, not_or, bne_iff_ne, not_not] at h
      exact h.1.1.1
    have hfire : s.safety.fire = 0 := by simpa [State.fireConfined, hreset] using hs
    exact .inr hfire

theorem execResetRelease_confined {s : State} (hs : s.fireConfined) : answersConfined (execResetRelease s) := by
  simp [execResetRelease, hs]

theorem execStrapSample_confined (levels : Straps) {s : State} (hs : s.fireConfined) : answersConfined (execStrapSample levels s) := by
  simp [execStrapSample, hs]

@[simp] theorem unitIdSample_fireConfined (level : Bool) (s : State) : (unitIdSample level s).fireConfined = s.fireConfined := by
  unfold unitIdSample
  dsimp only
  (repeat' split) <;> simp

theorem execUnitIdSample_confined (level : Bool) {s : State} (hs : s.fireConfined) : answersConfined (execUnitIdSample level s) := by
  simp [execUnitIdSample, hs]

@[simp] theorem portOut_fireConfined (p : Nat) (s : State) : (portOut p s).fireConfined = s.fireConfined := by
  simp [portOut]

@[simp] theorem railAction_fireConfined (r : Rail) (s : State) (hs : s.fireConfined) : (railAction r s).fireConfined := by
  unfold railAction
  (repeat' split) <;> simp [hs]

@[simp] theorem railUndervoltage_fireConfined (r : Rail) (s : State) (hs : s.fireConfined) : (railUndervoltage r s).fireConfined := by
  unfold railUndervoltage
  (repeat' split) <;> simp [hs]

theorem execRailUndervoltage_confined (r : Rail) {s : State} (hs : s.fireConfined) : answersConfined (execRailUndervoltage r s) := by
  simp [execRailUndervoltage, hs]

@[simp] theorem railRestored_fireConfined (r : Rail) (s : State) : (railRestored r s).fireConfined = s.fireConfined := by
  unfold railRestored
  split
  · simp
  · dsimp only
    (repeat' split) <;> simp

theorem execRailRestored_confined (r : Rail) {s : State} (hs : s.fireConfined) : answersConfined (execRailRestored r s) := by
  simp [execRailRestored, hs]

theorem execFeedLost_confined (x : Fin 2) (volt pin : Bool) {s : State} (hs : s.fireConfined) : answersConfined (execFeedLost x volt pin s) := by
  simp [execFeedLost, feedLost, feedReact, hs]

theorem execFeedRestored_confined (x : Fin 2) {s : State} (hs : s.fireConfined) : answersConfined (execFeedRestored x s) := by
  simp [execFeedRestored, feedRestored, hs]

theorem execRefPresent_confined (src : Fin 2) (hz25 : Bool) {s : State} (hs : s.fireConfined) : answersConfined (execRefPresent src hz25 s) := by
  simp [execRefPresent, refPresent, hs]

theorem execRefAbsent_confined (src : Fin 2) {s : State} (hs : s.fireConfined) : answersConfined (execRefAbsent src s) := by
  simp [execRefAbsent, refAbsent, hs]

theorem execOcxoWarmChange_confined (warm : Bool) {s : State} (hs : s.fireConfined) : answersConfined (execOcxoWarmChange warm s) := by
  simp [execOcxoWarmChange, hs]

theorem execRefSwitch_confined {s : State} (hs : s.fireConfined) : answersConfined (execRefSwitch s) := by
  simp only [execRefSwitch, answersConfined_next]
  unfold refSwitch
  (repeat' split) <;> simp [hs]

theorem execXtalFail_confined {s : State} (hs : s.fireConfined) : answersConfined (execXtalFail s) := by
  simp [execXtalFail, hs]

theorem execCorePllUnlock_confined {s : State} (hs : s.fireConfined) : answersConfined (execCorePllUnlock s) := by
  simp [execCorePllUnlock, corePllUnlock, holdForPll, hs]

@[simp] theorem pllReturns_fireConfined (s : State) : (pllReturns s).fireConfined = s.fireConfined := by
  simp [pllReturns]

@[simp] theorem corePllRelock_fireConfined (s : State) : (corePllRelock s).fireConfined = s.fireConfined := by
  unfold corePllRelock
  split
  · rfl
  · dsimp only
    (repeat' split) <;> simp

theorem execCorePllRelock_confined {s : State} (hs : s.fireConfined) : answersConfined (execCorePllRelock s) := by
  simp [execCorePllRelock, hs]

theorem execCorePllTimeout_confined {s : State} (hs : s.fireConfined) : answersConfined (execCorePllTimeout s) := by
  simp [execCorePllTimeout, hs]

theorem execCtrlPllUnlock_confined {s : State} (hs : s.fireConfined) : answersConfined (execCtrlPllUnlock s) := by
  simp [execCtrlPllUnlock, hs]

theorem execDramPllUnlock_confined (a : Fin 2) {s : State} (hs : s.fireConfined) : answersConfined (execDramPllUnlock a s) := by
  simp [execDramPllUnlock, hs]

theorem execPciePllUnlock_confined {s : State} (hs : s.fireConfined) : answersConfined (execPciePllUnlock s) := by
  simp [execPciePllUnlock, hs]

@[simp] theorem setTemp_fireConfined (temp : Int) (s : State) : (setTemp temp s).fireConfined = s.fireConfined := by
  unfold setTemp
  dsimp only
  split <;> simp

theorem execThermalLimit_confined (temp : Int) {s : State} (hs : s.fireConfined) : answersConfined (execThermalLimit temp s) := by
  simp [execThermalLimit, hs]

theorem execPtpMessageRx_confined (m : PtpMessage) {s : State} (hs : s.fireConfined) : answersConfined (execPtpMessageRx m s) := by
  simp [execPtpMessageRx, hs]

theorem execPtpMessageTx_confined (d : Fin 2) {s : State} (hs : s.fireConfined) : answersConfined (execPtpMessageTx d s) := by
  simp [execPtpMessageTx, ptpMessageTx, hs]

theorem execSyncTimeout_confined (d : Fin 2) {s : State} (hs : s.fireConfined) : answersConfined (execSyncTimeout d s) := by
  simp [execSyncTimeout, hs]

theorem execServoTimeout_confined (d : Fin 2) {s : State} (hs : s.fireConfined) : answersConfined (execServoTimeout d s) := by
  simp [execServoTimeout, hs]

theorem execTimeDomainWrite_confined (d : Fin 2) (increment : Option Nat) (adjust : Option Int) {s : State} (hs : s.fireConfined) :
    answersConfined (execTimeDomainWrite d increment adjust s) := by
  simp only [execTimeDomainWrite, answersConfined_next]
  unfold timeDomainWrite
  (repeat' split) <;> simp [hs]

theorem execServoStateWrite_confined (d : Fin 2) (locked : Bool) {s : State} (hs : s.fireConfined) :
    answersConfined (execServoStateWrite d locked s) := by
  simp [execServoStateWrite, hs]

theorem execTimeSelectWrite_confined (d : Fin 2) (force : Bool) {s : State} (hs : s.fireConfined) :
    answersConfined (execTimeSelectWrite d force s) := by
  simp [execTimeSelectWrite, hs]

theorem execAxisSlewDone_confined {s : State} (hs : s.fireConfined) : answersConfined (execAxisSlewDone s) := by
  simp [execAxisSlewDone, hs]

theorem execAxisStep_confined {s : State} (hs : s.fireConfined) : answersConfined (execAxisStep s) := by
  simp [execAxisStep, axisStep, hs]

theorem execSyncInEdge_confined {s : State} (hs : s.fireConfined) : answersConfined (execSyncInEdge s) := by
  simp [execSyncInEdge, syncInEdge, syncWatchEdge, syncValidEdge, syncClose, hs]

theorem execSyncLoss_confined (stuck : Bool) {s : State} (hs : s.fireConfined) : answersConfined (execSyncLoss stuck s) := by
  simp [execSyncLoss, syncLoss, hs]

theorem execToutPulse_confined (u : Fin 4) {s : State} (hs : s.fireConfined) : answersConfined (execToutPulse u s) := by
  simp only [execToutPulse, answersConfined_next]
  unfold toutPulse
  (repeat' split) <;> simp [hs]

theorem execToutConfigWrite_confined (u : Fin 4) (field : Fin 8) (v : Int) {s : State} (hs : s.fireConfined) :
    answersConfined (execToutConfigWrite u field v s) := by
  simp [execToutConfigWrite, hs]

theorem execTdcArmWrite_confined (on : Bool) {s : State} (hs : s.fireConfined) : answersConfined (execTdcArmWrite on s) := by
  simp [execTdcArmWrite, hs]

@[simp] theorem usedEdge_fireConfined (isStop : Bool) (lsb : Nat) (s : State) : (usedEdge isStop lsb s).fireConfined = s.fireConfined := by
  unfold usedEdge
  (repeat' split) <;> simp

@[simp] theorem tdcPair_fireConfined (start stop limit : Nat) (s : State) : (tdcPair start stop limit s).fireConfined = s.fireConfined := by
  simp [tdcPair]

@[simp] theorem tdcOneSided_fireConfined (isStop : Bool) (lsb : Nat) (s : State) : (tdcOneSided isStop lsb s).fireConfined = s.fireConfined := by
  unfold tdcOneSided
  (repeat' split) <;> simp

@[simp] theorem tdcTwoSided_fireConfined (isStop : Bool) (lsb : Nat) (s : State) : (tdcTwoSided isStop lsb s).fireConfined = s.fireConfined := by
  unfold tdcTwoSided
  dsimp only
  (repeat' split) <;> simp

@[simp] theorem tdcEdge_fireConfined (isStop : Bool) (lsb : Nat) (s : State) : (tdcEdge isStop lsb s).fireConfined = s.fireConfined := by
  unfold tdcEdge
  dsimp only
  (repeat' split) <;> simp

theorem execTdcEdge_confined (isStop : Bool) (lsb : Nat) {s : State} (hs : s.fireConfined) : answersConfined (execTdcEdge isStop lsb s) := by
  simp [execTdcEdge, hs]

theorem execTdcTimeout_confined {s : State} (hs : s.fireConfined) : answersConfined (execTdcTimeout s) := by
  simp [execTdcTimeout, hs]

theorem execUdpTransportWrite_confined (enable : Bool) (port : Nat) {s : State} (hs : s.fireConfined) :
    answersConfined (execUdpTransportWrite enable port s) := by
  simp [execUdpTransportWrite, hs]

@[simp] theorem paramSet_fireConfined (r : Request) (s : State) : (paramSet r s).fireConfined = s.fireConfined := by
  unfold paramSet
  dsimp only
  split
  · simp
  · refine withJournal_fireConfined_eq fun n s => ?_
    split
    next t h => simp [applyItems_fireConfined h]
    · rfl

theorem execParamSet_confined {s : State} (hs : s.fireConfined) : answersConfined (execParamSet s) := by
  simp [execParamSet, hs]

@[simp] theorem stage_fireConfined (r : Request) (s : State) : (stage r s).fireConfined = s.fireConfined := by
  unfold stage
  dsimp only
  split
  · simp
  · split
    · simp
    · refine withJournal_fireConfined_eq fun n s => ?_
      split
      next t h => rw [answerWork_fireConfined, journalSteps_fireConfined, applyItems_fireConfined h]; split <;> simp
      · rfl

theorem execStage_confined {s : State} (hs : s.fireConfined) : answersConfined (execStage s) := by
  simp [execStage, hs]

@[simp] theorem paramGetCmd_fireConfined (r : Request) (s : State) : (paramGetCmd r s).fireConfined = s.fireConfined := by
  unfold paramGetCmd
  dsimp only
  (repeat' split) <;> simp

theorem execParamGet_confined {s : State} (hs : s.fireConfined) : answersConfined (execParamGet s) := by
  simp [execParamGet, hs]

@[simp] theorem paramGetBlock_fireConfined (r : Request) (s : State) : (paramGetBlock r s).fireConfined = s.fireConfined := by
  unfold paramGetBlock
  dsimp only
  (repeat' split) <;> simp

theorem execParamGetBlock_confined {s : State} (hs : s.fireConfined) : answersConfined (execParamGetBlock s) := by
  simp [execParamGetBlock, hs]

@[simp] theorem stageRecord_fireConfined (v2 : Bool) (b : List Byte) (s : State) : (stageRecord v2 b s).fireConfined = s.fireConfined := by
  simp [stageRecord]

@[simp] theorem zoneDefine_fireConfined (r : Request) (s : State) : (zoneDefine r s).fireConfined = s.fireConfined := by
  unfold zoneDefine
  dsimp only
  (repeat' split) <;> simp

theorem execZoneDefine_confined {s : State} (hs : s.fireConfined) : answersConfined (execZoneDefine s) := by
  simp [execZoneDefine, hs]

@[simp] theorem stageDefaults_fireConfined (z : Nat) (s : State) : (stageDefaults z s).fireConfined = s.fireConfined := by
  simp [stageDefaults]

@[simp] theorem zoneDelete_fireConfined (r : Request) (s : State) : (zoneDelete r s).fireConfined = s.fireConfined := by
  unfold zoneDelete
  dsimp only
  (repeat' split) <;> simp

theorem execZoneDelete_confined {s : State} (hs : s.fireConfined) : answersConfined (execZoneDelete s) := by
  simp [execZoneDelete, hs]

@[simp] theorem zoneQuery_fireConfined (r : Request) (s : State) : (zoneQuery r s).fireConfined = s.fireConfined := by
  unfold zoneQuery
  dsimp only
  (repeat' split) <;> simp

theorem execZoneQuery_confined {s : State} (hs : s.fireConfined) : answersConfined (execZoneQuery s) := by
  simp [execZoneQuery, hs]

@[simp] theorem dropUpload_fireConfined (j : JState) (status detail : Nat) (s : State) :
    (dropUpload j status detail s).fireConfined = s.fireConfined := by
  unfold dropUpload
  (repeat' split) <;> simp

@[simp] theorem progInstall_fireConfined (r : Request) (u : ProgUpload) (s : State) : (progInstall r u s).fireConfined = s.fireConfined := by
  unfold progInstall
  dsimp only
  (repeat' split) <;> simp

@[simp] theorem progSegment_fireConfined (r : Request) (u : ProgUpload) (s : State) : (progSegment r u s).fireConfined = s.fireConfined := by
  simp [progSegment]

@[simp] theorem progLoad_fireConfined (r : Request) (s : State) : (progLoad r s).fireConfined = s.fireConfined := by
  unfold progLoad
  (repeat' split) <;> simp

theorem execProgLoad_confined {s : State} (hs : s.fireConfined) : answersConfined (execProgLoad s) := by
  simp [execProgLoad, hs]

theorem execProgDelete_confined {s : State} (hs : s.fireConfined) : answersConfined (execProgDelete s) := by
  simp [execProgDelete, progDelete, hs]

theorem execProgList_confined {s : State} (hs : s.fireConfined) : answersConfined (execProgList s) := by
  simp [execProgList, progList, hs]

@[simp] theorem replayStart_fireConfined (r : Request) (s : State) : (replayStart r s).fireConfined = s.fireConfined := by
  unfold replayStart
  extract_lets p a reserved taken runs
  iterate 7
    split
    · rw [refuse_fireConfined]
  · refine withJournal_fireConfined_eq fun n s => ?_
    dsimp only
    split <;> simp

theorem execReplayStart_confined {s : State} (hs : s.fireConfined) : answersConfined (execReplayStart s) := by
  simp [execReplayStart, hs]

theorem execReplayCancel_confined {s : State} (hs : s.fireConfined) : answersConfined (execReplayCancel s) := by
  simp [execReplayCancel, replayCancel, hs]

theorem execReplayStatus_confined {s : State} (hs : s.fireConfined) : answersConfined (execReplayStatus s) := by
  simp [execReplayStatus, replayStatus, hs]

@[simp] theorem replayRoundDone_fireConfined (i : Nat) (r : ReplayResult) (s : State) : (replayRoundDone i r s).fireConfined = s.fireConfined := by
  unfold replayRoundDone
  dsimp only
  (repeat' split) <;> simp

theorem execReplayRoundDone_confined (job : Fin 16) (r : ReplayResult) {s : State} (hs : s.fireConfined) :
    answersConfined (execReplayRoundDone job r s) := by
  simp [execReplayRoundDone, hs]

@[simp] theorem seqLoad_fireConfined (r : Request) (s : State) : (seqLoad r s).fireConfined = s.fireConfined := by
  unfold seqLoad
  dsimp only
  (repeat' split) <;> simp

theorem execSeqLoad_confined {s : State} (hs : s.fireConfined) : answersConfined (execSeqLoad s) := by
  simp [execSeqLoad, hs]

theorem execArm_confined {s : State} (hs : s.fireConfined) : answersConfined (execArm s) := by
  simp [execArm, arm, hs]

theorem execDisarm_confined {s : State} (hs : s.fireConfined) : answersConfined (execDisarm s) := by
  simp [execDisarm, disarmCmd, hs]

@[simp] theorem eventRead_fireConfined (r : Request) (s : State) : (eventRead r s).fireConfined = s.fireConfined := by
  unfold eventRead
  dsimp only
  (repeat' split) <;> simp

theorem execEventRead_confined {s : State} (hs : s.fireConfined) : answersConfined (execEventRead s) := by
  simp [execEventRead, hs]

theorem execAnalogueTrimDone_confined (p : Fin 4) (fields : List Int) {s : State} (hs : s.fireConfined) :
    answersConfined (execAnalogueTrimDone p fields s) := by
  simp only [execAnalogueTrimDone, answersConfined_next]
  unfold analogueTrimDone
  (repeat' split) <;> simp [trimReturn, hs]

theorem execTdcDelayRun_confined (temp : Int) {s : State} (hs : s.fireConfined) : answersConfined (execTdcDelayRun temp s) := by
  simp [execTdcDelayRun, tdcDelayRun, hs]

theorem execTdcDelayDone_confined (fields : List Int) {s : State} (hs : s.fireConfined) : answersConfined (execTdcDelayDone fields s) := by
  simp [execTdcDelayDone, tdcDelayDone, hs]

@[simp] theorem watchSet_fireConfined (i : Nat) (failing : Bool) (value : Int) (s : State) :
    (watchSet i failing value s).fireConfined = s.fireConfined := by
  simp [watchSet]

@[simp] theorem calRestore_fireConfined (item index k : Nat) (v : Int) (s : State) : (calRestore item index k v s).fireConfined = s.fireConfined := by
  simp [calRestore]

@[simp] theorem plausibilityWatch_fireConfined (offset reference rext : Int) (s : State) :
    (plausibilityWatch offset reference rext s).fireConfined = s.fireConfined := by
  unfold plausibilityWatch
  dsimp only
  (repeat' split) <;> simp

theorem execPlausibilityWatch_confined (offset reference rext : Int) {s : State} (hs : s.fireConfined) :
    answersConfined (execPlausibilityWatch offset reference rext s) := by
  simp [execPlausibilityWatch, hs]

theorem execXovf_confined (crossing : Fin 10) {s : State} (hs : s.fireConfined) : answersConfined (execXovf crossing s) := by
  simp [execXovf, crossingOverflow, hs]

@[simp] theorem serifSelftest_fireConfined (failed : BitVec 128) (s : State) : (serifSelftest failed s).fireConfined = s.fireConfined := by
  unfold serifSelftest
  dsimp only
  (repeat' split) <;> simp

theorem execSerifSelftest_confined (failed : BitVec 128) {s : State} (hs : s.fireConfined) : answersConfined (execSerifSelftest failed s) := by
  simp [execSerifSelftest, hs]

theorem execHeartbeatToggle_confined {s : State} (hs : s.fireConfined) : answersConfined (execHeartbeatToggle s) := by
  simp [execHeartbeatToggle, hs]

theorem execLogProgram_confined {s : State} (hs : s.fireConfined) : answersConfined (execLogProgram s) := by
  simp [execLogProgram, hs]

@[simp] theorem calRunTrim_fireConfined (r : Request) (index : Nat) (s : State) : (calRunTrim r index s).fireConfined = s.fireConfined := by
  simp [calRunTrim]

@[simp] theorem sysCal_fireConfined (zero full : Int × Int × Int) (s : State) : (sysCal zero full s).2.fireConfined = s.fireConfined := by
  unfold sysCal
  dsimp only
  split <;> rfl

@[simp] theorem calAtOnce_fireConfined (r : Request) (item index : Nat) (bad : Option (Nat × Int)) {use : State → State} (s : State)
    (h : ∀ s, (use s).fireConfined = s.fireConfined) : (calAtOnce r item index bad use s).fireConfined = s.fireConfined := by
  refine withJournal_fireConfined_eq fun n s => ?_
  dsimp only
  split <;> simp [h]

@[simp] theorem calRunRtd_fireConfined (r : Request) (k : Nat) (s : State) : (calRunRtd r k s).fireConfined = s.fireConfined := by
  unfold calRunRtd
  dsimp only
  (repeat' split) <;> simp

@[simp] theorem fitSolve_fireConfined (slope : Bool) (ys xs : List Int) (s : State) : (fitSolve slope ys xs s).2.fireConfined = s.fireConfined := by
  unfold fitSolve
  dsimp only
  (repeat' split) <;> rfl

@[simp] theorem calRunFit_fireConfined (r : Request) (p : Nat) (s : State) : (calRunFit r p s).fireConfined = s.fireConfined := by
  unfold calRunFit
  dsimp only
  (repeat' split) <;> simp

@[simp] theorem calRunDelay_fireConfined (r : Request) (s : State) : (calRunDelay r s).fireConfined = s.fireConfined := by
  simp [calRunDelay]

@[simp] theorem calRun_fireConfined (r : Request) (s : State) : (calRun r s).fireConfined = s.fireConfined := by
  unfold calRun
  dsimp only
  (repeat' split) <;> simp

theorem execCalRun_confined {s : State} (hs : s.fireConfined) : answersConfined (execCalRun s) := by
  simp [execCalRun, hs]

theorem execCalPoint_confined {s : State} (hs : s.fireConfined) : answersConfined (execCalPoint s) := by
  simp [execCalPoint, calPoint, hs]

theorem execCalRead_confined {s : State} (hs : s.fireConfined) : answersConfined (execCalRead s) := by
  simp [execCalRead, calRead, hs]

theorem execDoorbellWrite_confined (t : Fin 2) (v : BitVec 32) {s : State} (hs : s.fireConfined) : answersConfined (execDoorbellWrite t v s) := by
  simp [execDoorbellWrite, hs]

theorem execMessageTaken_confined (t : Fin 2) {s : State} (hs : s.fireConfined) : answersConfined (execMessageTaken t s) := by
  simp only [execMessageTaken, answersConfined_next]
  unfold messageTaken
  (repeat' split) <;> simp [hs]

theorem execRspAckWrite_confined (t : Fin 2) {s : State} (hs : s.fireConfined) : answersConfined (execRspAckWrite t s) := by
  simp [execRspAckWrite, hs]

theorem execResponsePlaced_confined (t : Fin 2) {s : State} (hs : s.fireConfined) : answersConfined (execResponsePlaced t s) := by
  simp only [execResponsePlaced, answersConfined_next]
  unfold responsePlaced
  (repeat' split) <;> simp [hs]

theorem execEvqTailWrite_confined (t : Fin 2) (v : BitVec 32) {s : State} (hs : s.fireConfined) : answersConfined (execEvqTailWrite t v s) := by
  simp [execEvqTailWrite, hs]

theorem execThrottleEnd_confined (t : Fin 4) {s : State} (hs : s.fireConfined) : answersConfined (execThrottleEnd t s) := by
  simp [execThrottleEnd, throttleEnd, hs]

theorem execSessionTimeout_confined {s : State} (hs : s.fireConfined) : answersConfined (execSessionTimeout s) := by
  simp only [execSessionTimeout, answersConfined_next]
  unfold sessionTimeout
  (repeat' split) <;> simp [hs]

theorem execHello_confined {s : State} (hs : s.fireConfined) : answersConfined (execHello s) := by
  simp [execHello, hello, hs]

theorem execPing_confined {s : State} (hs : s.fireConfined) : answersConfined (execPing s) := by
  simp [execPing, hs]

theorem execBye_confined {s : State} (hs : s.fireConfined) : answersConfined (execBye s) := by
  simp [execBye, bye, hs]

theorem execEventSubscribe_confined {s : State} (hs : s.fireConfined) : answersConfined (execEventSubscribe s) := by
  simp [execEventSubscribe, eventSubscribe, hs]

theorem execJournalRead_confined {s : State} (hs : s.fireConfined) : answersConfined (execJournalRead s) := by
  simp [execJournalRead, journalRead, hs]

theorem execLogRead_confined {s : State} (hs : s.fireConfined) : answersConfined (execLogRead s) := by
  simp [execLogRead, logRead, hs]

theorem execSurveyRead_confined {s : State} (hs : s.fireConfined) : answersConfined (execSurveyRead s) := by
  simp [execSurveyRead, surveyRead, hs]

theorem execPePerstNAssert_confined {s : State} (hs : s.fireConfined) : answersConfined (execPePerstNAssert s) := by
  simp [execPePerstNAssert, hs]

theorem execPcieHotReset_confined {s : State} (hs : s.fireConfined) : answersConfined (execPcieHotReset s) := by
  simp [execPcieHotReset, hs]

theorem execPcieFlr_confined {s : State} (hs : s.fireConfined) : answersConfined (execPcieFlr s) := by
  simp [execPcieFlr, hs]

theorem execPcieLinkChange_confined (up : Bool) (gen : BitVec 4) (width : BitVec 3) {s : State} (hs : s.fireConfined) :
    answersConfined (execPcieLinkChange up gen width s) := by
  simp [execPcieLinkChange, pcieLinkChange, hs]

theorem execPcieL1Wake_confined {s : State} (hs : s.fireConfined) : answersConfined (execPcieL1Wake s) := by
  simp [execPcieL1Wake, hs]

theorem execEthLink_confined (n : Fin 2) (up : Bool) {s : State} (hs : s.fireConfined) : answersConfined (execEthLink n up s) := by
  simp [execEthLink, ethLink, hs]

theorem execEthFrameRx_confined (n : Fin 2) (f : EthFrame) {s : State} (hs : s.fireConfined) : answersConfined (execEthFrameRx n f s) := by
  simp only [execEthFrameRx, answersConfined_next]
  unfold ethFrameRx
  (repeat' split) <;> simp [ethReply, learn, rxDrop, hs]

theorem execSnapshotLowRead_confined (t : Fin 2) (off : Nat) {s : State} (hs : s.fireConfined) : answersConfined (execSnapshotLowRead t off s) := by
  simp [execSnapshotLowRead, hs]

theorem execSnapshotHighRead_confined (t : Fin 2) (off : Nat) {s : State} (hs : s.fireConfined) : answersConfined (execSnapshotHighRead t off s) := by
  unfold execSnapshotHighRead
  (repeat' split) <;> simp [hs]

theorem execRegisterWrite_confined (t : Fin 2) (off : Nat) (v : RegData) {s : State} (hs : s.fireConfined) :
    answersConfined (execRegisterWrite t off v s) := by
  simp [execRegisterWrite, registerWrite, hs]

@[simp] theorem readWord_fireConfined (t off : Nat) (s : State) : (readWord t off s).fireConfined = s.fireConfined := by
  unfold readWord
  (repeat' split) <;> simp

@[simp] theorem spiRead_fireConfined (n off : Nat) (first : Bool) (s : State) : (spiRead n off first s).2.fireConfined = s.fireConfined := by
  induction n generalizing off first s with
  | zero => rfl
  | succ n ih =>
    unfold spiRead
    split
    · rfl
    · dsimp only
      rw [ih]
      split <;> simp

@[simp] theorem spiWrite_fireConfined (data : List Byte) (off : Nat) (seen : List Byte) (s : State) (hs : s.fireConfined) :
    (spiWrite data off seen s).fireConfined := by
  induction data generalizing off seen s with
  | nil => exact hs
  | cons b rest ih =>
    unfold spiWrite
    refine ih _ _ _ ?_
    (repeat' split) <;> simp [hs]

@[simp] theorem spiTransaction_fireConfined (mosi : List Byte) (s : State) (hs : s.fireConfined) : (spiTransaction mosi s).fireConfined := by
  unfold spiTransaction
  dsimp only
  (repeat' split) <;> simp [hs]

theorem execSpiTransaction_confined (mosi : List Byte) {s : State} (hs : s.fireConfined) : answersConfined (execSpiTransaction mosi s) := by
  simp [execSpiTransaction, hs]

theorem execSmbReadId_confined (addr : BitVec 7) {s : State} (hs : s.fireConfined) : answersConfined (execSmbReadId addr s) := by
  simp [execSmbReadId, hs]

theorem execSmbReadSerial_confined (addr : BitVec 7) {s : State} (hs : s.fireConfined) : answersConfined (execSmbReadSerial addr s) := by
  simp [execSmbReadSerial, hs]

theorem execSmbReadFwVersion_confined (addr : BitVec 7) {s : State} (hs : s.fireConfined) : answersConfined (execSmbReadFwVersion addr s) := by
  simp [execSmbReadFwVersion, hs]

theorem execSmbReadHostStatus_confined (addr : BitVec 7) {s : State} (hs : s.fireConfined) : answersConfined (execSmbReadHostStatus addr s) := by
  simp [execSmbReadHostStatus, hs]

theorem execSmbReadHealth_confined (addr : BitVec 7) {s : State} (hs : s.fireConfined) : answersConfined (execSmbReadHealth addr s) := by
  simp [execSmbReadHealth, hs]

theorem execSmbReadTemp_confined (addr : BitVec 7) {s : State} (hs : s.fireConfined) : answersConfined (execSmbReadTemp addr s) := by
  simp [execSmbReadTemp, hs]

theorem execSmbReadFeedStatus_confined (addr : BitVec 7) {s : State} (hs : s.fireConfined) : answersConfined (execSmbReadFeedStatus addr s) := by
  simp [execSmbReadFeedStatus, hs]

theorem execSmbReadSafetyStatus_confined (addr : BitVec 7) {s : State} (hs : s.fireConfined) : answersConfined (execSmbReadSafetyStatus addr s) := by
  simp [execSmbReadSafetyStatus, hs]

theorem execSmbReadTimeSnap_confined (addr : BitVec 7) {s : State} (hs : s.fireConfined) : answersConfined (execSmbReadTimeSnap addr s) := by
  simp [execSmbReadTimeSnap, smbTimeSnap, hs]

theorem execSmbReadEstop_confined (addr : BitVec 7) {s : State} (hs : s.fireConfined) : answersConfined (execSmbReadEstop addr s) := by
  simp [execSmbReadEstop, hs]

theorem execSmbWriteEstop_confined (data : SmbData) (pecOk : Bool) {s : State} (hs : s.fireConfined) :
    answersConfined (execSmbWriteEstop data pecOk s) := by
  simp [execSmbWriteEstop, smbWriteEstop, hs]

theorem execJtagBypass_confined {s : State} (hs : s.fireConfined) : answersConfined (execJtagBypass s) := by
  simp [execJtagBypass, hs]

theorem execJtagIdcode_confined {s : State} (hs : s.fireConfined) : answersConfined (execJtagIdcode s) := by
  simp [execJtagIdcode, hs]

theorem execJtagSamplePreload_confined (levels : List Bool) {s : State} (hs : s.fireConfined) : answersConfined (execJtagSamplePreload levels s) := by
  simp [execJtagSamplePreload, hs]

theorem execJtagExtest_confined {s : State} (hs : s.fireConfined) : answersConfined (execJtagExtest s) := by
  simp [execJtagExtest, jtagExtest, hs]

theorem execJtagTrst_confined {s : State} (hs : s.fireConfined) : answersConfined (execJtagTrst s) := by
  simp [execJtagTrst, hs]

@[simp] theorem continuePort_fireConfined (c : Option CopyState) (p : Nat) (s : State) : (continuePort c p s).fireConfined = s.fireConfined := by
  simp [continuePort]

@[simp] theorem continueZone_fireConfined (c : CopyState) (z : CopyZone) (s : State) : (continueZone c z s).fireConfined = s.fireConfined := by
  simp [continueZone]

@[simp] theorem continueRecord_fireConfined (c : CopyState) (r : EventRecord) (s : State) : (continueRecord c r s).fireConfined = s.fireConfined := by
  simp [continueRecord]

@[simp] theorem continueTime_fireConfined (c : CopyState) (s : State) : (continueTime c s).fireConfined = s.fireConfined := by
  simp [continueTime]

@[simp] theorem continueRaman_fireConfined (c : CopyState) (p : Nat) (s : State) : (continueRaman c p s).fireConfined = s.fireConfined := by
  simp [continueRaman]

@[simp] theorem continueCopy_fireConfined (c : CopyState) (s : State) : (continueCopy c s).fireConfined = s.fireConfined := by
  simp [continueCopy]

@[simp] theorem takeDone_fireConfined (s : State) : (takeDone s).fireConfined := by
  unfold takeDone
  dsimp only
  (repeat' split) <;> simp

@[simp] theorem leashOwnTest_fireConfined (held current : Bool) (s : State) (hs : s.fireConfined) : (leashOwnTest held current s).fireConfined := by
  simp [leashOwnTest, hs]

theorem execLeashOwnTest_confined (held current : Bool) {s : State} (hs : s.fireConfined) : answersConfined (execLeashOwnTest held current s) := by
  simp [execLeashOwnTest, hs]

theorem execOwnClear_confined (held : Bool) {s : State} (hs : s.fireConfined) : answersConfined (execOwnClear held s) := by
  simp [execOwnClear, ownClear, hs]

theorem execIlkNReleased_confined {s : State} (hs : s.fireConfined) : answersConfined (execIlkNReleased s) := by
  simp [execIlkNReleased, ilkNReleased, hs]

@[simp] theorem releaseDone_fireConfined (s : State) : (releaseDone s).fireConfined := by
  unfold releaseDone
  dsimp only
  (repeat' split) <;> simp

@[simp] theorem ilkNHeld_fireConfined (s : State) (hs : s.fireConfined) : (ilkNHeld s).fireConfined := by
  unfold ilkNHeld
  dsimp only
  (repeat' split) <;> simp [hs]

theorem execIlkNHeld_confined {s : State} (hs : s.fireConfined) : answersConfined (execIlkNHeld s) := by
  simp [execIlkNHeld, hs]

theorem execVacantTimeout_confined {s : State} (hs : s.fireConfined) : answersConfined (execVacantTimeout s) := by
  simp [execVacantTimeout, vacantTimeout, hs]

theorem execTakeWaitEnd_confined {s : State} (hs : s.fireConfined) : answersConfined (execTakeWaitEnd s) := by
  simp [execTakeWaitEnd, takeWaitEnd, hs]

theorem execHandoverTimeout_confined {s : State} (hs : s.fireConfined) : answersConfined (execHandoverTimeout s) := by
  simp [execHandoverTimeout, handoverTimeout, hs]

theorem execBarkSend_confined {s : State} (hs : s.fireConfined) : answersConfined (execBarkSend s) := by
  simp [execBarkSend, barkSend, hs]

theorem execPairWatchdogExpiry_confined {s : State} (hs : s.fireConfined) : answersConfined (execPairWatchdogExpiry s) := by
  simp [execPairWatchdogExpiry, hs]

theorem execBarkReceived_confined (b : Bark) {s : State} (hs : s.fireConfined) : answersConfined (execBarkReceived b s) := by
  simp [execBarkReceived, barkReceived, hs]

theorem execHbPathSilent_confined {s : State} (hs : s.fireConfined) : answersConfined (execHbPathSilent s) := by
  simp [execHbPathSilent, hbPathSilent, hs]

theorem execBarkPathSilent_confined {s : State} (hs : s.fireConfined) : answersConfined (execBarkPathSilent s) := by
  simp [execBarkPathSilent, barkPathSilent, hs]

theorem execPairPathRestored_confined (path : Fin 2) {s : State} (hs : s.fireConfined) : answersConfined (execPairPathRestored path s) := by
  simp [execPairPathRestored, pairPathRestored, hs]

theorem execPeerFailed_confined {s : State} (hs : s.fireConfined) : answersConfined (execPeerFailed s) := by
  simp [execPeerFailed, hs]

theorem execPeerPresentChange_confined (present : Bool) {s : State} (hs : s.fireConfined) : answersConfined (execPeerPresentChange present s) := by
  simp [execPeerPresentChange, hs]

theorem execSegorLinkUp_confined (peerLow peerHigh : Nat) {s : State} (hs : s.fireConfined) :
    answersConfined (execSegorLinkUp peerLow peerHigh s) := by
  simp [execSegorLinkUp, segorLinkUp, hs]

theorem execSegorLinkDown_confined {s : State} (hs : s.fireConfined) : answersConfined (execSegorLinkDown s) := by
  simp [execSegorLinkDown, segorLinkDown, hs]

@[simp] theorem mailboxFrame_fireConfined (m : List Byte) (s : State) : (mailboxFrame m s).fireConfined = s.fireConfined := by
  unfold mailboxFrame
  (repeat' split) <;> simp

@[simp] theorem segorFrameReceived_fireConfined (kind : Nat) (bytes : List Byte) (s : State) :
    (segorFrameReceived kind bytes s).fireConfined = s.fireConfined := by
  unfold segorFrameReceived
  (repeat' split) <;> simp

theorem execSegorFrameReceived_confined (kind : Fin 5) (bytes : List Byte) {s : State} (hs : s.fireConfined) :
    answersConfined (execSegorFrameReceived kind bytes s) := by
  simp [execSegorFrameReceived, hs]

theorem execCopyEpochEnd_confined {s : State} (hs : s.fireConfined) : answersConfined (execCopyEpochEnd s) := by
  simp [execCopyEpochEnd, copyEpochEnd, hs]

@[simp] theorem copyReceived_fireConfined (c : CopyState) (s : State) (hs : s.fireConfined) : (copyReceived c s).fireConfined := by
  simp [copyReceived, hs]

theorem execCopyReceived_confined (c : CopyState) {s : State} (hs : s.fireConfined) : answersConfined (execCopyReceived c s) := by
  simp [execCopyReceived, hs]

@[simp] theorem finalCopySend_fireConfined (s : State) : (finalCopySend s).fireConfined = s.fireConfined := by
  unfold finalCopySend
  dsimp only
  (repeat' split) <;> simp

theorem execFinalCopySend_confined {s : State} (hs : s.fireConfined) : answersConfined (execFinalCopySend s) := by
  simp [execFinalCopySend, hs]

@[simp] theorem copyAckReceived_fireConfined (epoch : Nat) (s : State) : (copyAckReceived epoch s).fireConfined = s.fireConfined := by
  unfold copyAckReceived
  dsimp only
  (repeat' split) <;> simp

theorem execCopyAckReceived_confined (epoch : Nat) {s : State} (hs : s.fireConfined) : answersConfined (execCopyAckReceived epoch s) := by
  simp [execCopyAckReceived, hs]

theorem execCopyAckTimeout_confined {s : State} (hs : s.fireConfined) : answersConfined (execCopyAckTimeout s) := by
  simp [execCopyAckTimeout, hs]

@[simp] theorem bankReplica_fireConfined (r : Replica) (s : State) (hs : s.fireConfined) : (bankReplica r s).fireConfined := by
  unfold bankReplica
  split
  · exact hs
  · split
    · refine withJournal_fireConfined (fun n s hs => ?_) hs
      rw [journalSteps_fireConfined]
      exact activate_fireConfined _ _ _ _ (by simpa using hs)
    · simpa using hs

theorem execBankReplica_confined (r : Replica) {s : State} (hs : s.fireConfined) : answersConfined (execBankReplica r s) := by
  simp [execBankReplica, hs]

theorem execHealthFrameSend_confined {s : State} (hs : s.fireConfined) : answersConfined (execHealthFrameSend s) := by
  simp [execHealthFrameSend, healthFrameSend, hs]

theorem execServicePress_confined {s : State} (hs : s.fireConfined) : answersConfined (execServicePress s) := by
  simp [execServicePress, servicePress, hs]

@[simp] theorem handoverAnswer_fireConfined (r : Request) (status n : Nat) (s : State) :
    (handoverAnswer r status n s).fireConfined = s.fireConfined := by
  simp [handoverAnswer]

@[simp] theorem pairRelease_fireConfined (r : Request) (s : State) (hs : s.fireConfined) : (pairRelease r s).fireConfined := by
  unfold pairRelease
  dsimp only
  split
  · simpa using hs
  · split
    · simpa using hs
    · simp [withJournal]

@[simp] theorem pairTake_fireConfined (r : Request) (s : State) (hs : s.fireConfined) : (pairTake r s).fireConfined := by
  unfold pairTake
  split
  · simpa using hs
  · split
    · simpa using hs
    · simp [withJournal]

@[simp] theorem pairHandover_fireConfined (r : Request) (s : State) (hs : s.fireConfined) : (pairHandover r s).fireConfined := by
  unfold pairHandover
  split <;> simp [hs]

theorem execPairHandover_confined  {s : State} (hs : s.fireConfined) : answersConfined (execPairHandover s) := by
  simpa [execPairHandover] using runCommand_fireConfined (code := 0x0900) pairHandover_fireConfined hs

theorem execPairQuery_confined {s : State} (hs : s.fireConfined) : answersConfined (execPairQuery s) := by
  simp [execPairQuery, pairQuery, hs]

@[simp] theorem peerRelay_fireConfined (r : Request) (s : State) : (peerRelay r s).fireConfined = s.fireConfined := by
  simp [peerRelay]

theorem execPeerRelay_confined {s : State} (hs : s.fireConfined) : answersConfined (execPeerRelay s) := by
  simp [execPeerRelay, hs]

@[simp] theorem earlyLaunch_fireConfined (p : Nat) (s : State) : (earlyLaunch p s).fireConfined = s.fireConfined := by
  simp [earlyLaunch]

@[simp] theorem noteClipped_fireConfined (p : Nat) (s : State) : (noteClipped p s).fireConfined = s.fireConfined := by
  unfold noteClipped
  dsimp only
  (repeat' split) <;> simp

@[simp] theorem surveyShot_fireConfined (p : Nat) (s : State) : (surveyShot p s).fireConfined = s.fireConfined := by
  simp [surveyShot]

@[simp] theorem portStopped_fireConfined (p : Nat) (s : State) : (portStopped p s).fireConfined = s.fireConfined := by
  simp [portStopped]

@[simp] theorem gatherPort_fireConfined (p : Nat) (s : State) : (gatherPort p s).fireConfined = s.fireConfined := by
  unfold gatherPort
  (repeat' split) <;> simp

@[simp] theorem noteInterval_fireConfined (p : Nat) (s : State) : (noteInterval p s).fireConfined = s.fireConfined := by
  unfold noteInterval
  (repeat' split) <;> simp

@[simp] theorem calApply_fireConfined (item index : Nat) (s : State) : (calApply item index s).fireConfined = s.fireConfined := by
  unfold calApply
  (repeat' split) <;> simp

@[simp] theorem corrUse_fireConfined (p : Nat) (s : State) : (corrUse p s).fireConfined = s.fireConfined := by
  simp [corrUse]

@[simp] theorem corrAtRound_fireConfined (p : Nat) (s : State) : (corrAtRound p s).fireConfined = s.fireConfined := by
  simp [corrAtRound]

@[simp] theorem setDasGain_fireConfined (p g : Nat) (s : State) : (setDasGain p g s).fireConfined = s.fireConfined := by
  simp [setDasGain]

@[simp] theorem gainAtRound_fireConfined (p peakPct : Nat) (s : State) : (gainAtRound p peakPct s).fireConfined = s.fireConfined := by
  unfold gainAtRound
  dsimp only
  (repeat' split) <;> simp

/-- Writing parameters one after another keeps the confinement. -/
theorem foldl_writeParams_fireConfined (xs : List (Nat × Int)) (s : State) :
    (xs.foldl (fun s e => { s with params := Store.write paramDefault s.params e.1 e.2 }) s).fireConfined = s.fireConfined :=
  foldl_keep State.fireConfined (fun s e => { s with params := Store.write paramDefault s.params e.1 e.2 }) (fun _ _ => rfl) xs s

@[simp] theorem applyNextRound_fireConfined (p : Nat) (s : State) : (applyNextRound p s).fireConfined = s.fireConfined := by
  rw [applyNextRound, foldl_writeParams_fireConfined, onPort_fireConfined]

@[simp] theorem rebaseAtShot_fireConfined (p : Nat) (s : State) : (rebaseAtShot p s).fireConfined = s.fireConfined := by
  unfold rebaseAtShot
  dsimp only
  (repeat' split) <;> simp

@[simp] theorem gapAtFire_fireConfined (p : Nat) (s : State) : (gapAtFire p s).fireConfined = s.fireConfined := by
  simp [gapAtFire]

@[simp] theorem enterShot_fireConfined (p : Nat) (t : Shot) (slots : Nat) (s : State) : (enterShot p t slots s).fireConfined = s.fireConfined := by
  simp [enterShot]

@[simp] theorem recordShot_fireConfined (p : Nat) (t : Shot) (s : State) : (recordShot p t s).fireConfined = s.fireConfined := by
  simp [recordShot]

@[simp] theorem ramanLaunch_fireConfined (p : Nat) (t : Shot) (s : State) : (ramanLaunch p t s).fireConfined = s.fireConfined := by
  simp [ramanLaunch]

@[simp] theorem ramanPulse_fireConfined (p : Nat) (t : Shot) (s : State) : (ramanPulse p t s).fireConfined = s.fireConfined := by
  simp [ramanPulse]

@[simp] theorem gridPulses_fireConfined (p : Nat) (s : State) : (gridPulses p s).fireConfined = s.fireConfined := by
  simp [gridPulses]

@[simp] theorem checkpointAtRound_fireConfined (p : Nat) (gap : Bool) (s : State) : (checkpointAtRound p gap s).fireConfined = s.fireConfined := by
  simp [checkpointAtRound]

@[simp] theorem readmitAtRound_fireConfined (p : Nat) (s : State) : (readmitAtRound p s).fireConfined = s.fireConfined := by
  unfold readmitAtRound
  (repeat' split) <;> simp

@[simp] theorem feedRound_fireConfined (now p : Nat) (s : State) : (feedRound now p s).fireConfined = s.fireConfined := by
  simp [feedRound]

@[simp] theorem startPieces_fireConfined (b : Bank) (pieces : List Placement) (w : WorkItem) (s : State) :
    (startPieces b pieces w s).fireConfined = s.fireConfined := by
  unfold startPieces
  (repeat' split) <;> simp

@[simp] theorem dispatchSlice_fireConfined (b : Bank) (pieces : List Placement) (w : WorkItem) (s : State) :
    (dispatchSlice b pieces w s).fireConfined = s.fireConfined := by
  simp [dispatchSlice]

@[simp] theorem dispatchService_fireConfined (b : Bank) (d delay : Nat) (pieces : List Placement) (now z : Nat) (s : State) :
    (dispatchService b d delay pieces now z s).fireConfined = s.fireConfined := by
  unfold dispatchService
  dsimp only
  (repeat' split) <;> simp

@[simp] theorem dispatchZone_fireConfined (now z : Nat) (s : State) : (dispatchZone now z s).fireConfined = s.fireConfined := by
  simp [dispatchZone]

@[simp] theorem dispatchLeaving_fireConfined (now p : Nat) (s : State) : (dispatchLeaving now p s).fireConfined = s.fireConfined := by
  simp [dispatchLeaving]

@[simp] theorem countIdle_fireConfined (p round : Nat) (s : State) : (countIdle p round s).fireConfined = s.fireConfined := by
  simp [countIdle]

@[simp] theorem countSuspended_fireConfined (p round : Nat) (s : State) : (countSuspended p round s).fireConfined = s.fireConfined := by
  simp [countSuspended]

@[simp] theorem endCollections_fireConfined (p round : Nat) (s : State) : (endCollections p round s).fireConfined = s.fireConfined := by
  simp [endCollections]

@[simp] theorem seqEvaluate_fireConfined (v : StepView) (s : State) : (seqEvaluate v s).1.fireConfined = s.fireConfined := by
  unfold seqEvaluate
  dsimp only
  split
  · rfl
  · simp

@[simp] theorem seqStep_fireConfined (q p now round : Nat) (acc : State × Nat × Nat) :
    (seqStep q p now round acc).1.fireConfined = acc.1.fireConfined := by
  unfold seqStep
  dsimp only
  split <;> simp

/-- A port's sequencers step one after another and none touches FIRE. -/
theorem seqSteps_fireConfined (p now round : Nat) (qs : List Nat) (acc : State × Nat × Nat) :
    (qs.foldl (fun acc q => seqStep q p now round acc) acc).1.fireConfined = acc.1.fireConfined := by
  induction qs generalizing acc with
  | nil => rfl
  | cons q qs ih => rw [List.foldl_cons, ih, seqStep_fireConfined]

@[simp] theorem pointerStep_fireConfined (p : Nat) (t : Shot) (s : State) : (pointerStep p t s).fireConfined = s.fireConfined := by
  rw [pointerStep, paramPut_fireConfined]
  exact seqSteps_fireConfined _ _ _ _ _

@[simp] theorem darkRound_fireConfined (p round : Nat) (s : State) : (darkRound p round s).fireConfined = s.fireConfined := by
  simp [darkRound]

@[simp] theorem roundWork_fireConfined (p : Nat) (t : Shot) (steps : Bool) (s : State) : (roundWork p t steps s).fireConfined = s.fireConfined := by
  simp [roundWork]

@[simp] theorem fireSlot_fireConfined (p : Nat) (first stopped : Bool) (peakPct : Nat) (s : State) :
    (fireSlot p first stopped peakPct s).fireConfined = s.fireConfined := by
  simp [fireSlot]

@[simp] theorem slotFireTime_fireConfined (p peakPct : Nat) (raman : RamanCodes) (s : State) (hs : s.fireConfined) :
    (slotFireTime p peakPct raman s).fireConfined := by
  unfold slotFireTime
  split
  · simpa using hs
  · split
    · exact hs
    · extract_lets first u stopped v
      have hu : u.fireConfined := by
        unfold u
        split
        · exact commitSwitch_fireConfined _ _ (by simpa using hs)
        · exact hs
      have hv : v.fireConfined := by
        unfold v
        split <;> simpa using hu
      (repeat' split) <;> simpa

theorem execSlotFireTime_confined (p : Fin 4) (peakPct : Nat) (raman : RamanCodes) {s : State} (hs : s.fireConfined) :
    answersConfined (execSlotFireTime p peakPct raman s) := by
  simp [execSlotFireTime, hs]

theorem execCounterExtend_confined {s : State} (hs : s.fireConfined) : answersConfined (execCounterExtend s) := by
  simp [execCounterExtend, hs]

theorem execTelemetryRecord_confined {s : State} (hs : s.fireConfined) : answersConfined (execTelemetryRecord s) := by
  simp [execTelemetryRecord, telemetryRecord, hs]

@[simp] theorem toutTick_fireConfined (u : Nat) (s : State) : (toutTick u s).fireConfined = s.fireConfined := by
  unfold toutTick
  dsimp only
  (repeat' split) <;> simp [foldl_writeParams_fireConfined]

@[simp] theorem slewEnd_fireConfined (before : Int) (s : State) : (slewEnd before s).fireConfined = s.fireConfined := by
  simp [slewEnd]

@[simp] theorem domainWatch_fireConfined (s : State) : (domainWatch s).fireConfined = s.fireConfined := by
  simp [domainWatch]

@[simp] theorem timeTick_fireConfined (s : State) : (timeTick s).fireConfined = s.fireConfined := by
  simp [timeTick]

@[simp] theorem steerTick_fireConfined (s : State) : (steerTick s).fireConfined = s.fireConfined := by
  simp [steerTick]

@[simp] theorem scrubTick_fireConfined (s : State) : (scrubTick s).fireConfined = s.fireConfined := by
  simp [scrubTick]

@[simp] theorem drainJobs_fireConfined (s : State) : (drainJobs s).fireConfined = s.fireConfined := by
  simp [drainJobs]

@[simp] theorem segorTransmit_fireConfined (s : State) : (segorTransmit s).fireConfined = s.fireConfined := by
  unfold segorTransmit
  (repeat' split) <;> simp

@[simp] theorem sendQueueDatagram_fireConfined (n : Nat) (s : State) : (sendQueueDatagram n s).fireConfined = s.fireConfined := by
  unfold sendQueueDatagram
  dsimp only
  (repeat' split) <;> simp

@[simp] theorem ethTransmit_fireConfined (n : Nat) (s : State) : (ethTransmit n s).fireConfined = s.fireConfined := by
  unfold ethTransmit
  dsimp only
  (repeat' split) <;> simp

@[simp] theorem tick_fireConfined (s : State) : (tick s).fireConfined = s.fireConfined := by
  unfold tick
  dsimp only
  split <;> simp

/-- An update of a Serif lane leaves the mode and the safety unit. -/
theorem onLane_answersConfined {l : Nat} {f : Lane → Lane} {s : State} (hs : s.fireConfined) : answersConfined (.next (onLane l f s)) := by
  simpa using hs

/-- Where an operand is outside its range the instruction runs with a free value (log entry 23): both ways touch the lane alone. -/
theorem onLaneFree_answersConfined {c : Prop} [Decidable c] {l : Fin 128} {f : Nat → Lane → Lane} {g : Lane → Lane} {s : State}
    (hs : s.fireConfined) : answersConfined (if c then .next (onLaneFree l f s) else .next (onLane l g s)) := by
  split <;> simpa using hs

/-- Every command keeps FIRE confined; those without an arm of their own update one Serif lane. -/
theorem exec_confined (c : Instr) {s : State} (hs : s.fireConfined) : answersConfined (exec c s) := by
  cases c with
  | powerOn feed seqViolation => exact execPowerOn_confined feed seqViolation hs
  | powerOff => exact execPowerOff_confined s
  | resetNFall => exact execResetNFall_confined hs
  | pwrgdFall => exact execPwrgdFall_confined hs
  | resetRelease => exact execResetRelease_confined hs
  | strapSample levels => exact execStrapSample_confined levels hs
  | railUndervoltage r => exact execRailUndervoltage_confined r hs
  | railRestored r => exact execRailRestored_confined r hs
  | feedLost x volt pin => exact execFeedLost_confined x volt pin hs
  | feedRestored x => exact execFeedRestored_confined x hs
  | feedLossAction => exact execFeedLossAction_confined hs
  | refPresent src hz25 => exact execRefPresent_confined src hz25 hs
  | refAbsent src => exact execRefAbsent_confined src hs
  | ocxoWarmChange warm => exact execOcxoWarmChange_confined warm hs
  | refSwitch => exact execRefSwitch_confined hs
  | xtalFail => exact execXtalFail_confined hs
  | corePllUnlock => exact execCorePllUnlock_confined hs
  | corePllRelock => exact execCorePllRelock_confined hs
  | corePllTimeout => exact execCorePllTimeout_confined hs
  | ctrlPllUnlock => exact execCtrlPllUnlock_confined hs
  | dramPllUnlock a => exact execDramPllUnlock_confined a hs
  | pciePllUnlock => exact execPciePllUnlock_confined hs
  | thermalLimit temp => exact execThermalLimit_confined temp hs
  | bootRomStart => exact execBootRomStart_confined hs
  | bootSramClearDone ok => exact execBootSramClearDone_confined ok hs
  | bootComplete => exact execBootComplete_confined hs
  | autoRun => exact execAutoRun_confined hs
  | recoveryImage image => exact execRecoveryImage_confined image hs
  | scribeWatchdog => exact execScribeWatchdog_confined hs
  | scribeRestartDone mismatch => exact execScribeRestartDone_confined mismatch hs
  | fwConfirmTimeout => exact execFwConfirmTimeout_confined hs
  | cfgConfirmTimeout => exact execCfgConfirmTimeout_confined hs
  | autoRevert => exact execAutoRevert_confined hs
  | commitRecordProgrammed => exact execCommitRecordProgrammed_confined hs
  | commitSwitch p => exact execCommitSwitch_confined p hs
  | modeTransitionDone => exact execModeTransitionDone_confined hs
  | surveyPortDone p trace => exact execSurveyPortDone_confined p trace hs
  | slotFireTime p peakPct raman => exact execSlotFireTime_confined p peakPct raman hs
  | launchWindowEnd p => exact execLaunchWindowEnd_confined p hs
  | lightWithoutGate p => exact execLightWithoutGate_confined p hs
  | inputOverRange p group => exact execInputOverRange_confined p group hs
  | ovrGuardEnd p group => exact execOvrGuardEnd_confined p group hs
  | adcCorrEstimate p input c => exact execAdcCorrEstimate_confined p input c hs
  | pointUnwrap pt => exact execPointUnwrap_confined pt hs
  | sliceComplete r => exact execSliceComplete_confined r hs
  | sliceDeadline z => exact execSliceDeadline_confined z hs
  | laneBudgetEnd l => exact execLaneBudgetEnd_confined l hs
  | dtsTraceComplete p codes => exact execDtsTraceComplete_confined p codes hs
  | rtdDue k => exact execRtdDue_confined k hs
  | rtdMeasurementEnd k m => exact execRtdMeasurementEnd_confined k m hs
  | rtdPulseTimeout k => exact execRtdPulseTimeout_confined k hs
  | hkScan codes => exact execHkScan_confined codes hs
  | hkPulseEvent e code late => exact execHkPulseEvent_confined e code late hs
  | trgArmNChange low => exact execTrgArmNChange_confined low hs
  | remoteFireEdge => exact execRemoteFireEdge_confined hs
  | firePulseEnd => exact execFirePulseEnd_confined hs
  | recordClose number => exact execRecordClose_confined number hs
  | replayRoundDone job r => exact execReplayRoundDone_confined job r hs
  | sramEccError e => exact execSramEccError_confined e hs
  | sramScrubRewrite store word => exact execSramScrubRewrite_confined store word hs
  | dramEccError e => exact execDramEccError_confined e hs
  | pageRetire a page => exact execPageRetire_confined a page hs
  | dramTrainingDone a r => exact execDramTrainingDone_confined a r hs
  | dramRetrainCheck a mr4 pass => exact execDramRetrainCheck_confined a mr4 pass hs
  | rowHammer a loc => exact execRowHammer_confined a loc hs
  | hammerWindow => exact execHammerWindow_confined hs
  | hammerThrottleEnd k => exact execHammerThrottleEnd_confined k hs
  | dramRefresh a waiting => exact execDramRefresh_confined a waiting hs
  | memLate k n => exact execMemLate_confined k n hs
  | analogueTrimDone p fields => exact execAnalogueTrimDone_confined p fields hs
  | tdcDelayRun temp => exact execTdcDelayRun_confined temp hs
  | tdcDelayDone fields => exact execTdcDelayDone_confined fields hs
  | plausibilityWatch offset reference rext => exact execPlausibilityWatch_confined offset reference rext hs
  | telemetryRecord => exact execTelemetryRecord_confined hs
  | counterExtend => exact execCounterExtend_confined hs
  | logProgram => exact execLogProgram_confined hs
  | heartbeatToggle => exact execHeartbeatToggle_confined hs
  | unitIdSample level => exact execUnitIdSample_confined level hs
  | xovf crossing => exact execXovf_confined crossing hs
  | serifSelftest failed => exact execSerifSelftest_confined failed hs
  | lkeyOff => exact execLkeyOff_confined hs
  | lkeyOn => exact execLkeyOn_confined hs
  | loopOkLow => exact execLoopOkLow_confined hs
  | loopOkHigh => exact execLoopOkHigh_confined hs
  | plugOpenLatch p => exact execPlugOpenLatch_confined p hs
  | plugDebouncedOpen p => exact execPlugDebouncedOpen_confined p hs
  | plugDebouncedClose p => exact execPlugDebouncedClose_confined p hs
  | aprRestartExpiry p => exact execAprRestartExpiry_confined p hs
  | panelInputChatter k => exact execPanelInputChatter_confined k hs
  | inputStuck button => exact execInputStuck_confined button hs
  | servicePress => exact execServicePress_confined hs
  | locatePress => exact execLocatePress_confined hs
  | locateEnd => exact execLocateEnd_confined hs
  | ledDiagnosis j result => exact execLedDiagnosis_confined j result hs
  | colourFeedback dark lit => exact execColourFeedback_confined dark lit hs
  | barkSend => exact execBarkSend_confined hs
  | barkReceived b => exact execBarkReceived_confined b hs
  | hbPathSilent => exact execHbPathSilent_confined hs
  | barkPathSilent => exact execBarkPathSilent_confined hs
  | pairPathRestored path => exact execPairPathRestored_confined path hs
  | peerFailed => exact execPeerFailed_confined hs
  | peerPresentChange present => exact execPeerPresentChange_confined present hs
  | segorLinkUp peerLow peerHigh => exact execSegorLinkUp_confined peerLow peerHigh hs
  | segorLinkDown => exact execSegorLinkDown_confined hs
  | segorFrameReceived kind bytes => exact execSegorFrameReceived_confined kind bytes hs
  | leashOwnTest held current => exact execLeashOwnTest_confined held current hs
  | ownClear held => exact execOwnClear_confined held hs
  | ilkNReleased => exact execIlkNReleased_confined hs
  | vacantTimeout => exact execVacantTimeout_confined hs
  | takeWaitEnd => exact execTakeWaitEnd_confined hs
  | handoverTimeout => exact execHandoverTimeout_confined hs
  | copyEpochEnd => exact execCopyEpochEnd_confined hs
  | copyReceived c => exact execCopyReceived_confined c hs
  | finalCopySend => exact execFinalCopySend_confined hs
  | copyAckReceived epoch => exact execCopyAckReceived_confined epoch hs
  | copyAckTimeout => exact execCopyAckTimeout_confined hs
  | healthFrameSend => exact execHealthFrameSend_confined hs
  | bankReplica r => exact execBankReplica_confined r hs
  | ptpMessageRx m => exact execPtpMessageRx_confined m hs
  | ptpMessageTx d => exact execPtpMessageTx_confined d hs
  | syncTimeout d => exact execSyncTimeout_confined d hs
  | servoTimeout d => exact execServoTimeout_confined d hs
  | axisSlewDone => exact execAxisSlewDone_confined hs
  | axisStep => exact execAxisStep_confined hs
  | syncInEdge => exact execSyncInEdge_confined hs
  | syncLoss stuck => exact execSyncLoss_confined stuck hs
  | toutPulse u => exact execToutPulse_confined u hs
  | tdcEdge isStop lsb => exact execTdcEdge_confined isStop lsb hs
  | tdcTimeout => exact execTdcTimeout_confined hs
  | pePerstNAssert => exact execPePerstNAssert_confined hs
  | pcieHotReset => exact execPcieHotReset_confined hs
  | pcieFlr => exact execPcieFlr_confined hs
  | pcieLinkChange up gen width => exact execPcieLinkChange_confined up gen width hs
  | pcieL1Wake => exact execPcieL1Wake_confined hs
  | ethLink n up => exact execEthLink_confined n up hs
  | ethFrameRx n f => exact execEthFrameRx_confined n f hs
  | queueItemDeliver q buffers => exact execQueueItemDeliver_confined q buffers hs
  | queueIrq q => exact execQueueIrq_confined q hs
  | descriptorReadDone q r => exact execDescriptorReadDone_confined q r hs
  | doorbellWrite t v => exact execDoorbellWrite_confined t v hs
  | messageTaken t => exact execMessageTaken_confined t hs
  | throttleEnd t => exact execThrottleEnd_confined t hs
  | sessionTimeout => exact execSessionTimeout_confined hs
  | rspAckWrite t => exact execRspAckWrite_confined t hs
  | responsePlaced t => exact execResponsePlaced_confined t hs
  | evqTailWrite t v => exact execEvqTailWrite_confined t v hs
  | estopStop t => exact execEstopStop_confined t hs
  | snapshotLowRead t off => exact execSnapshotLowRead_confined t off hs
  | snapshotHighRead t off => exact execSnapshotHighRead_confined t off hs
  | queueTailWrite q v => exact execQueueTailWrite_confined q v hs
  | dmaQueueEnable q => exact execDmaQueueEnable_confined q hs
  | dmaQueueDisable q => exact execDmaQueueDisable_confined q hs
  | registerWrite t off v => exact execRegisterWrite_confined t off v hs
  | spiTransaction mosi => exact execSpiTransaction_confined mosi hs
  | smbReadId addr => exact execSmbReadId_confined addr hs
  | smbReadSerial addr => exact execSmbReadSerial_confined addr hs
  | smbReadFwVersion addr => exact execSmbReadFwVersion_confined addr hs
  | smbReadHostStatus addr => exact execSmbReadHostStatus_confined addr hs
  | smbReadHealth addr => exact execSmbReadHealth_confined addr hs
  | smbReadTemp addr => exact execSmbReadTemp_confined addr hs
  | smbReadFeedStatus addr => exact execSmbReadFeedStatus_confined addr hs
  | smbReadSafetyStatus addr => exact execSmbReadSafetyStatus_confined addr hs
  | smbReadTimeSnap addr => exact execSmbReadTimeSnap_confined addr hs
  | smbReadEstop addr => exact execSmbReadEstop_confined addr hs
  | smbWriteEstop data pecOk => exact execSmbWriteEstop_confined data pecOk hs
  | jtagBypass => exact execJtagBypass_confined hs
  | jtagIdcode => exact execJtagIdcode_confined hs
  | jtagSamplePreload levels => exact execJtagSamplePreload_confined levels hs
  | jtagExtest => exact execJtagExtest_confined hs
  | jtagTrst => exact execJtagTrst_confined hs
  | hello => exact execHello_confined hs
  | ping => exact execPing_confined hs
  | bye => exact execBye_confined hs
  | eventSubscribe => exact execEventSubscribe_confined hs
  | paramGet => exact execParamGet_confined hs
  | paramSet => exact execParamSet_confined hs
  | paramGetBlock => exact execParamGetBlock_confined hs
  | stage => exact execStage_confined hs
  | commit => exact execCommit_confined hs
  | confirm => exact execConfirm_confined hs
  | revert => exact execRevert_confined hs
  | bankDiff => exact execBankDiff_confined hs
  | pendingDiscard => exact execPendingDiscard_confined hs
  | modeRequest => exact execModeRequest_confined hs
  | deviceReset => exact execDeviceReset_confined hs
  | zoneDefine => exact execZoneDefine_confined hs
  | zoneDelete => exact execZoneDelete_confined hs
  | zoneQuery => exact execZoneQuery_confined hs
  | seqLoad => exact execSeqLoad_confined hs
  | arm => exact execArm_confined hs
  | disarm => exact execDisarm_confined hs
  | eventRead => exact execEventRead_confined hs
  | replayStart => exact execReplayStart_confined hs
  | replayCancel => exact execReplayCancel_confined hs
  | replayStatus => exact execReplayStatus_confined hs
  | surveyRead => exact execSurveyRead_confined hs
  | calRun => exact execCalRun_confined hs
  | calPoint => exact execCalPoint_confined hs
  | calRead => exact execCalRead_confined hs
  | pairHandover => exact execPairHandover_confined hs
  | pairQuery => exact execPairQuery_confined hs
  | peerRelay => exact execPeerRelay_confined hs
  | journalRead => exact execJournalRead_confined hs
  | logRead => exact execLogRead_confined hs
  | fwBegin => exact execFwBegin_confined hs
  | fwData => exact execFwData_confined hs
  | fwEnd => exact execFwEnd_confined hs
  | fwActivate => exact execFwActivate_confined hs
  | fwConfirm => exact execFwConfirm_confined hs
  | progLoad => exact execProgLoad_confined hs
  | progDelete => exact execProgDelete_confined hs
  | progList => exact execProgList_confined hs
  | timeDomainWrite d increment adjust => exact execTimeDomainWrite_confined d increment adjust hs
  | servoStateWrite d locked => exact execServoStateWrite_confined d locked hs
  | timeSelectWrite d force => exact execTimeSelectWrite_confined d force hs
  | tdcArmWrite on => exact execTdcArmWrite_confined on hs
  | toutConfigWrite u field v => exact execToutConfigWrite_confined u field v hs
  | dasGainWrite p gain => exact execDasGainWrite_confined p gain hs
  | rateMtsWrite a rate => exact execRateMtsWrite_confined a rate hs
  | estopReleaseWrite on => exact execEstopReleaseWrite_confined on hs
  | portRestartWrite mask => exact execPortRestartWrite_confined mask hs
  | hostEnableWrite mask => exact execHostEnableWrite_confined mask hs
  | locateMaskWrite mask => exact execLocateMaskWrite_confined mask hs
  | masterArmWrite on => exact execMasterArmWrite_confined on hs
  | ptrFlagsWrite v => exact execPtrFlagsWrite_confined v hs
  | udpTransportWrite enable port => exact execUdpTransportWrite_confined enable port hs
  | endInsn l => exact execEndInsn_confined l hs
  | rep l nMinus1 => exact execRep_confined l nMinus1 hs
  | dbnz l c off => exact execDbnz_confined l c off hs
  | launchSeen p => exact execLaunchSeen_confined p hs
  | blankInputChange p level => exact execBlankInputChange_confined p level hs
  | pairWatchdogExpiry => exact execPairWatchdogExpiry_confined hs
  | ilkNHeld => exact execIlkNHeld_confined hs
  | delayedReset => exact execDelayedReset_confined hs
  | buttonStableRelease button => exact execButtonStableRelease_confined button hs
  | loopi _ _ _ => exact onLaneFree_answersConfined hs
  | shli _ _ _ _ => exact onLaneFree_answersConfined hs
  | shrai _ _ _ _ => exact onLaneFree_answersConfined hs
  | shrli _ _ _ _ => exact onLaneFree_answersConfined hs
  | shrri _ _ _ _ => exact onLaneFree_answersConfined hs
  | ld _ _ _ _ _ _ => exact onLaneFree_answersConfined hs
  | ldpt _ _ _ _ => exact onLaneFree_answersConfined hs
  | inInsn _ _ => exact onLaneFree_answersConfined hs
  | feat _ _ _ _ _ => exact onLaneFree_answersConfined hs
  | ext _ _ _ _ => exact onLaneFree_answersConfined hs
  | _ => exact onLane_answersConfined hs

/-- Settles O60: a step runs one command or lets one tick pass, and each keeps the confinement. -/
theorem fireStaysConfined : Obligations.FireStaysConfined := by
  unfold Obligations.FireStaysConfined
  intro s t hs ht
  unfold step at ht
  split at ht
  next => cases ht; simpa using hs
  next c rest _ => exact exec_confined c (s := { s with pending := rest }) hs t ht

end Sys2Proof.Machine

/-! LAWS. What the shared operations leave of the state, field by field: the rules of `Laws/Keep` read at one field, for `simp`. -/

namespace Sys2Proof.Machine

@[simp] theorem paramPut_power (id : Nat) (idx : Nat) (v : Int) (s : State) : (paramPut id idx v s).power = s.power :=
  paramPut_keep (·.power) (by intros; rfl) id idx v s
@[simp] theorem paramPut_clocks (id : Nat) (idx : Nat) (v : Int) (s : State) : (paramPut id idx v s).clocks = s.clocks :=
  paramPut_keep (·.clocks) (by intros; rfl) id idx v s
@[simp] theorem paramPut_straps (id : Nat) (idx : Nat) (v : Int) (s : State) : (paramPut id idx v s).straps = s.straps :=
  paramPut_keep (·.straps) (by intros; rfl) id idx v s
@[simp] theorem paramPut_pins (id : Nat) (idx : Nat) (v : Int) (s : State) : (paramPut id idx v s).pins = s.pins :=
  paramPut_keep (·.pins) (by intros; rfl) id idx v s
@[simp] theorem paramPut_mode (id : Nat) (idx : Nat) (v : Int) (s : State) : (paramPut id idx v s).mode = s.mode :=
  paramPut_keep (·.mode) (by intros; rfl) id idx v s
@[simp] theorem paramPut_banks (id : Nat) (idx : Nat) (v : Int) (s : State) : (paramPut id idx v s).banks = s.banks :=
  paramPut_keep (·.banks) (by intros; rfl) id idx v s
@[simp] theorem paramPut_booted (id : Nat) (idx : Nat) (v : Int) (s : State) : (paramPut id idx v s).booted = s.booted :=
  paramPut_keep (·.booted) (by intros; rfl) id idx v s
@[simp] theorem paramPut_modeEntry (id : Nat) (idx : Nat) (v : Int) (s : State) : (paramPut id idx v s).modeEntry = s.modeEntry :=
  paramPut_keep (·.modeEntry) (by intros; rfl) id idx v s
@[simp] theorem paramPut_firmware (id : Nat) (idx : Nat) (v : Int) (s : State) : (paramPut id idx v s).firmware = s.firmware :=
  paramPut_keep (·.firmware) (by intros; rfl) id idx v s
@[simp] theorem paramPut_ports (id : Nat) (idx : Nat) (v : Int) (s : State) : (paramPut id idx v s).ports = s.ports :=
  paramPut_keep (·.ports) (by intros; rfl) id idx v s
@[simp] theorem paramPut_herder (id : Nat) (idx : Nat) (v : Int) (s : State) : (paramPut id idx v s).herder = s.herder :=
  paramPut_keep (·.herder) (by intros; rfl) id idx v s
@[simp] theorem paramPut_serif (id : Nat) (idx : Nat) (v : Int) (s : State) : (paramPut id idx v s).serif = s.serif :=
  paramPut_keep (·.serif) (by intros; rfl) id idx v s
@[simp] theorem paramPut_raman (id : Nat) (idx : Nat) (v : Int) (s : State) : (paramPut id idx v s).raman = s.raman :=
  paramPut_keep (·.raman) (by intros; rfl) id idx v s
@[simp] theorem paramPut_rtd (id : Nat) (idx : Nat) (v : Int) (s : State) : (paramPut id idx v s).rtd = s.rtd :=
  paramPut_keep (·.rtd) (by intros; rfl) id idx v s
@[simp] theorem paramPut_hk (id : Nat) (idx : Nat) (v : Int) (s : State) : (paramPut id idx v s).hk = s.hk :=
  paramPut_keep (·.hk) (by intros; rfl) id idx v s
@[simp] theorem paramPut_pointer (id : Nat) (idx : Nat) (v : Int) (s : State) : (paramPut id idx v s).pointer = s.pointer :=
  paramPut_keep (·.pointer) (by intros; rfl) id idx v s
@[simp] theorem paramPut_inkstone (id : Nat) (idx : Nat) (v : Int) (s : State) : (paramPut id idx v s).inkstone = s.inkstone :=
  paramPut_keep (·.inkstone) (by intros; rfl) id idx v s
@[simp] theorem paramPut_memory (id : Nat) (idx : Nat) (v : Int) (s : State) : (paramPut id idx v s).memory = s.memory :=
  paramPut_keep (·.memory) (by intros; rfl) id idx v s
@[simp] theorem paramPut_time (id : Nat) (idx : Nat) (v : Int) (s : State) : (paramPut id idx v s).time = s.time :=
  paramPut_keep (·.time) (by intros; rfl) id idx v s
@[simp] theorem paramPut_pair (id : Nat) (idx : Nat) (v : Int) (s : State) : (paramPut id idx v s).pair = s.pair :=
  paramPut_keep (·.pair) (by intros; rfl) id idx v s
@[simp] theorem paramPut_safety (id : Nat) (idx : Nat) (v : Int) (s : State) : (paramPut id idx v s).safety = s.safety :=
  paramPut_keep (·.safety) (by intros; rfl) id idx v s
@[simp] theorem paramPut_calib (id : Nat) (idx : Nat) (v : Int) (s : State) : (paramPut id idx v s).calib = s.calib :=
  paramPut_keep (·.calib) (by intros; rfl) id idx v s
@[simp] theorem paramPut_ticks (id : Nat) (idx : Nat) (v : Int) (s : State) : (paramPut id idx v s).ticks = s.ticks :=
  paramPut_keep (·.ticks) (by intros; rfl) id idx v s
@[simp] theorem paramPut_free (id : Nat) (idx : Nat) (v : Int) (s : State) : (paramPut id idx v s).free = s.free :=
  paramPut_keep (·.free) (by intros; rfl) id idx v s
@[simp] theorem paramPut_pending (id : Nat) (idx : Nat) (v : Int) (s : State) : (paramPut id idx v s).pending = s.pending :=
  paramPut_keep (·.pending) (by intros; rfl) id idx v s
@[simp] theorem bumpBy_power (n : Nat) (id : Nat) (idx : Nat) (s : State) : (bumpBy n id idx s).power = s.power :=
  bumpBy_keep (·.power) (by intros; rfl) n id idx s
@[simp] theorem bumpBy_clocks (n : Nat) (id : Nat) (idx : Nat) (s : State) : (bumpBy n id idx s).clocks = s.clocks :=
  bumpBy_keep (·.clocks) (by intros; rfl) n id idx s
@[simp] theorem bumpBy_straps (n : Nat) (id : Nat) (idx : Nat) (s : State) : (bumpBy n id idx s).straps = s.straps :=
  bumpBy_keep (·.straps) (by intros; rfl) n id idx s
@[simp] theorem bumpBy_pins (n : Nat) (id : Nat) (idx : Nat) (s : State) : (bumpBy n id idx s).pins = s.pins :=
  bumpBy_keep (·.pins) (by intros; rfl) n id idx s
@[simp] theorem bumpBy_mode (n : Nat) (id : Nat) (idx : Nat) (s : State) : (bumpBy n id idx s).mode = s.mode :=
  bumpBy_keep (·.mode) (by intros; rfl) n id idx s
@[simp] theorem bumpBy_banks (n : Nat) (id : Nat) (idx : Nat) (s : State) : (bumpBy n id idx s).banks = s.banks :=
  bumpBy_keep (·.banks) (by intros; rfl) n id idx s
@[simp] theorem bumpBy_booted (n : Nat) (id : Nat) (idx : Nat) (s : State) : (bumpBy n id idx s).booted = s.booted :=
  bumpBy_keep (·.booted) (by intros; rfl) n id idx s
@[simp] theorem bumpBy_modeEntry (n : Nat) (id : Nat) (idx : Nat) (s : State) : (bumpBy n id idx s).modeEntry = s.modeEntry :=
  bumpBy_keep (·.modeEntry) (by intros; rfl) n id idx s
@[simp] theorem bumpBy_scribe (n : Nat) (id : Nat) (idx : Nat) (s : State) : (bumpBy n id idx s).scribe = s.scribe :=
  bumpBy_keep (·.scribe) (by intros; rfl) n id idx s
@[simp] theorem bumpBy_evq (n : Nat) (id : Nat) (idx : Nat) (s : State) : (bumpBy n id idx s).evq = s.evq :=
  bumpBy_keep (·.evq) (by intros; rfl) n id idx s
@[simp] theorem bumpBy_journal (n : Nat) (id : Nat) (idx : Nat) (s : State) : (bumpBy n id idx s).journal = s.journal :=
  bumpBy_keep (·.journal) (by intros; rfl) n id idx s
@[simp] theorem bumpBy_log (n : Nat) (id : Nat) (idx : Nat) (s : State) : (bumpBy n id idx s).log = s.log :=
  bumpBy_keep (·.log) (by intros; rfl) n id idx s
@[simp] theorem bumpBy_firmware (n : Nat) (id : Nat) (idx : Nat) (s : State) : (bumpBy n id idx s).firmware = s.firmware :=
  bumpBy_keep (·.firmware) (by intros; rfl) n id idx s
@[simp] theorem bumpBy_ports (n : Nat) (id : Nat) (idx : Nat) (s : State) : (bumpBy n id idx s).ports = s.ports :=
  bumpBy_keep (·.ports) (by intros; rfl) n id idx s
@[simp] theorem bumpBy_herder (n : Nat) (id : Nat) (idx : Nat) (s : State) : (bumpBy n id idx s).herder = s.herder :=
  bumpBy_keep (·.herder) (by intros; rfl) n id idx s
@[simp] theorem bumpBy_serif (n : Nat) (id : Nat) (idx : Nat) (s : State) : (bumpBy n id idx s).serif = s.serif :=
  bumpBy_keep (·.serif) (by intros; rfl) n id idx s
@[simp] theorem bumpBy_raman (n : Nat) (id : Nat) (idx : Nat) (s : State) : (bumpBy n id idx s).raman = s.raman :=
  bumpBy_keep (·.raman) (by intros; rfl) n id idx s
@[simp] theorem bumpBy_rtd (n : Nat) (id : Nat) (idx : Nat) (s : State) : (bumpBy n id idx s).rtd = s.rtd :=
  bumpBy_keep (·.rtd) (by intros; rfl) n id idx s
@[simp] theorem bumpBy_hk (n : Nat) (id : Nat) (idx : Nat) (s : State) : (bumpBy n id idx s).hk = s.hk :=
  bumpBy_keep (·.hk) (by intros; rfl) n id idx s
@[simp] theorem bumpBy_pointer (n : Nat) (id : Nat) (idx : Nat) (s : State) : (bumpBy n id idx s).pointer = s.pointer :=
  bumpBy_keep (·.pointer) (by intros; rfl) n id idx s
@[simp] theorem bumpBy_inkstone (n : Nat) (id : Nat) (idx : Nat) (s : State) : (bumpBy n id idx s).inkstone = s.inkstone :=
  bumpBy_keep (·.inkstone) (by intros; rfl) n id idx s
@[simp] theorem bumpBy_memory (n : Nat) (id : Nat) (idx : Nat) (s : State) : (bumpBy n id idx s).memory = s.memory :=
  bumpBy_keep (·.memory) (by intros; rfl) n id idx s
@[simp] theorem bumpBy_time (n : Nat) (id : Nat) (idx : Nat) (s : State) : (bumpBy n id idx s).time = s.time :=
  bumpBy_keep (·.time) (by intros; rfl) n id idx s
@[simp] theorem bumpBy_links (n : Nat) (id : Nat) (idx : Nat) (s : State) : (bumpBy n id idx s).links = s.links :=
  bumpBy_keep (·.links) (by intros; rfl) n id idx s
@[simp] theorem bumpBy_pair (n : Nat) (id : Nat) (idx : Nat) (s : State) : (bumpBy n id idx s).pair = s.pair :=
  bumpBy_keep (·.pair) (by intros; rfl) n id idx s
@[simp] theorem bumpBy_safety (n : Nat) (id : Nat) (idx : Nat) (s : State) : (bumpBy n id idx s).safety = s.safety :=
  bumpBy_keep (·.safety) (by intros; rfl) n id idx s
@[simp] theorem bumpBy_calib (n : Nat) (id : Nat) (idx : Nat) (s : State) : (bumpBy n id idx s).calib = s.calib :=
  bumpBy_keep (·.calib) (by intros; rfl) n id idx s
@[simp] theorem bumpBy_ticks (n : Nat) (id : Nat) (idx : Nat) (s : State) : (bumpBy n id idx s).ticks = s.ticks :=
  bumpBy_keep (·.ticks) (by intros; rfl) n id idx s
@[simp] theorem bumpBy_free (n : Nat) (id : Nat) (idx : Nat) (s : State) : (bumpBy n id idx s).free = s.free :=
  bumpBy_keep (·.free) (by intros; rfl) n id idx s
@[simp] theorem bumpBy_pending (n : Nat) (id : Nat) (idx : Nat) (s : State) : (bumpBy n id idx s).pending = s.pending :=
  bumpBy_keep (·.pending) (by intros; rfl) n id idx s
@[simp] theorem bump_power (id : Nat) (idx : Nat) (s : State) : (bump id idx s).power = s.power := bump_keep (·.power) (by intros; rfl) id idx s
@[simp] theorem bump_clocks (id : Nat) (idx : Nat) (s : State) : (bump id idx s).clocks = s.clocks := bump_keep (·.clocks) (by intros; rfl) id idx s
@[simp] theorem bump_straps (id : Nat) (idx : Nat) (s : State) : (bump id idx s).straps = s.straps := bump_keep (·.straps) (by intros; rfl) id idx s
@[simp] theorem bump_pins (id : Nat) (idx : Nat) (s : State) : (bump id idx s).pins = s.pins := bump_keep (·.pins) (by intros; rfl) id idx s
@[simp] theorem bump_mode (id : Nat) (idx : Nat) (s : State) : (bump id idx s).mode = s.mode := bump_keep (·.mode) (by intros; rfl) id idx s
@[simp] theorem bump_banks (id : Nat) (idx : Nat) (s : State) : (bump id idx s).banks = s.banks := bump_keep (·.banks) (by intros; rfl) id idx s
@[simp] theorem bump_booted (id : Nat) (idx : Nat) (s : State) : (bump id idx s).booted = s.booted := bump_keep (·.booted) (by intros; rfl) id idx s
@[simp] theorem bump_modeEntry (id : Nat) (idx : Nat) (s : State) : (bump id idx s).modeEntry = s.modeEntry :=
  bump_keep (·.modeEntry) (by intros; rfl) id idx s
@[simp] theorem bump_scribe (id : Nat) (idx : Nat) (s : State) : (bump id idx s).scribe = s.scribe := bump_keep (·.scribe) (by intros; rfl) id idx s
@[simp] theorem bump_evq (id : Nat) (idx : Nat) (s : State) : (bump id idx s).evq = s.evq := bump_keep (·.evq) (by intros; rfl) id idx s
@[simp] theorem bump_journal (id : Nat) (idx : Nat) (s : State) : (bump id idx s).journal = s.journal :=
  bump_keep (·.journal) (by intros; rfl) id idx s
@[simp] theorem bump_log (id : Nat) (idx : Nat) (s : State) : (bump id idx s).log = s.log := bump_keep (·.log) (by intros; rfl) id idx s
@[simp] theorem bump_firmware (id : Nat) (idx : Nat) (s : State) : (bump id idx s).firmware = s.firmware :=
  bump_keep (·.firmware) (by intros; rfl) id idx s
@[simp] theorem bump_ports (id : Nat) (idx : Nat) (s : State) : (bump id idx s).ports = s.ports := bump_keep (·.ports) (by intros; rfl) id idx s
@[simp] theorem bump_herder (id : Nat) (idx : Nat) (s : State) : (bump id idx s).herder = s.herder := bump_keep (·.herder) (by intros; rfl) id idx s
@[simp] theorem bump_serif (id : Nat) (idx : Nat) (s : State) : (bump id idx s).serif = s.serif := bump_keep (·.serif) (by intros; rfl) id idx s
@[simp] theorem bump_raman (id : Nat) (idx : Nat) (s : State) : (bump id idx s).raman = s.raman := bump_keep (·.raman) (by intros; rfl) id idx s
@[simp] theorem bump_rtd (id : Nat) (idx : Nat) (s : State) : (bump id idx s).rtd = s.rtd := bump_keep (·.rtd) (by intros; rfl) id idx s
@[simp] theorem bump_hk (id : Nat) (idx : Nat) (s : State) : (bump id idx s).hk = s.hk := bump_keep (·.hk) (by intros; rfl) id idx s
@[simp] theorem bump_pointer (id : Nat) (idx : Nat) (s : State) : (bump id idx s).pointer = s.pointer :=
  bump_keep (·.pointer) (by intros; rfl) id idx s
@[simp] theorem bump_inkstone (id : Nat) (idx : Nat) (s : State) : (bump id idx s).inkstone = s.inkstone :=
  bump_keep (·.inkstone) (by intros; rfl) id idx s
@[simp] theorem bump_memory (id : Nat) (idx : Nat) (s : State) : (bump id idx s).memory = s.memory := bump_keep (·.memory) (by intros; rfl) id idx s
@[simp] theorem bump_time (id : Nat) (idx : Nat) (s : State) : (bump id idx s).time = s.time := bump_keep (·.time) (by intros; rfl) id idx s
@[simp] theorem bump_pair (id : Nat) (idx : Nat) (s : State) : (bump id idx s).pair = s.pair := bump_keep (·.pair) (by intros; rfl) id idx s
@[simp] theorem bump_safety (id : Nat) (idx : Nat) (s : State) : (bump id idx s).safety = s.safety := bump_keep (·.safety) (by intros; rfl) id idx s
@[simp] theorem bump_calib (id : Nat) (idx : Nat) (s : State) : (bump id idx s).calib = s.calib := bump_keep (·.calib) (by intros; rfl) id idx s
@[simp] theorem bump_ticks (id : Nat) (idx : Nat) (s : State) : (bump id idx s).ticks = s.ticks := bump_keep (·.ticks) (by intros; rfl) id idx s
@[simp] theorem bump_free (id : Nat) (idx : Nat) (s : State) : (bump id idx s).free = s.free := bump_keep (·.free) (by intros; rfl) id idx s
@[simp] theorem bump_pending (id : Nat) (idx : Nat) (s : State) : (bump id idx s).pending = s.pending :=
  bump_keep (·.pending) (by intros; rfl) id idx s
@[simp] theorem onPage_scribe_ready (t : Nat) (f : PageSide → PageSide) (s : State) : (onPage t f s).scribe.ready = s.scribe.ready :=
  onPage_keep (·.scribe.ready) (by intros; rfl) t f s
@[simp] theorem onPage_scribe_restarting (t : Nat) (f : PageSide → PageSide) (s : State) : (onPage t f s).scribe.restarting = s.scribe.restarting :=
  onPage_keep (·.scribe.restarting) (by intros; rfl) t f s
@[simp] theorem raiseVector_power (v : Nat) (s : State) : (raiseVector v s).power = s.power := raiseVector_keep (·.power) (by intros; rfl) v s
@[simp] theorem raiseVector_clocks (v : Nat) (s : State) : (raiseVector v s).clocks = s.clocks := raiseVector_keep (·.clocks) (by intros; rfl) v s
@[simp] theorem raiseVector_straps (v : Nat) (s : State) : (raiseVector v s).straps = s.straps := raiseVector_keep (·.straps) (by intros; rfl) v s
@[simp] theorem raiseVector_pins (v : Nat) (s : State) : (raiseVector v s).pins = s.pins := raiseVector_keep (·.pins) (by intros; rfl) v s
@[simp] theorem raiseVector_mode (v : Nat) (s : State) : (raiseVector v s).mode = s.mode := raiseVector_keep (·.mode) (by intros; rfl) v s
@[simp] theorem raiseVector_banks (v : Nat) (s : State) : (raiseVector v s).banks = s.banks := raiseVector_keep (·.banks) (by intros; rfl) v s
@[simp] theorem raiseVector_booted (v : Nat) (s : State) : (raiseVector v s).booted = s.booted := raiseVector_keep (·.booted) (by intros; rfl) v s
@[simp] theorem raiseVector_modeEntry (v : Nat) (s : State) : (raiseVector v s).modeEntry = s.modeEntry :=
  raiseVector_keep (·.modeEntry) (by intros; rfl) v s
@[simp] theorem raiseVector_firmware (v : Nat) (s : State) : (raiseVector v s).firmware = s.firmware :=
  raiseVector_keep (·.firmware) (by intros; rfl) v s
@[simp] theorem raiseVector_ports (v : Nat) (s : State) : (raiseVector v s).ports = s.ports := raiseVector_keep (·.ports) (by intros; rfl) v s
@[simp] theorem raiseVector_herder (v : Nat) (s : State) : (raiseVector v s).herder = s.herder := raiseVector_keep (·.herder) (by intros; rfl) v s
@[simp] theorem raiseVector_serif (v : Nat) (s : State) : (raiseVector v s).serif = s.serif := raiseVector_keep (·.serif) (by intros; rfl) v s
@[simp] theorem raiseVector_raman (v : Nat) (s : State) : (raiseVector v s).raman = s.raman := raiseVector_keep (·.raman) (by intros; rfl) v s
@[simp] theorem raiseVector_rtd (v : Nat) (s : State) : (raiseVector v s).rtd = s.rtd := raiseVector_keep (·.rtd) (by intros; rfl) v s
@[simp] theorem raiseVector_hk (v : Nat) (s : State) : (raiseVector v s).hk = s.hk := raiseVector_keep (·.hk) (by intros; rfl) v s
@[simp] theorem raiseVector_pointer (v : Nat) (s : State) : (raiseVector v s).pointer = s.pointer := raiseVector_keep (·.pointer) (by intros; rfl) v s
@[simp] theorem raiseVector_inkstone (v : Nat) (s : State) : (raiseVector v s).inkstone = s.inkstone :=
  raiseVector_keep (·.inkstone) (by intros; rfl) v s
@[simp] theorem raiseVector_memory (v : Nat) (s : State) : (raiseVector v s).memory = s.memory := raiseVector_keep (·.memory) (by intros; rfl) v s
@[simp] theorem raiseVector_time (v : Nat) (s : State) : (raiseVector v s).time = s.time := raiseVector_keep (·.time) (by intros; rfl) v s
@[simp] theorem raiseVector_safety (v : Nat) (s : State) : (raiseVector v s).safety = s.safety := raiseVector_keep (·.safety) (by intros; rfl) v s
@[simp] theorem raiseVector_calib (v : Nat) (s : State) : (raiseVector v s).calib = s.calib := raiseVector_keep (·.calib) (by intros; rfl) v s
@[simp] theorem raiseVector_ticks (v : Nat) (s : State) : (raiseVector v s).ticks = s.ticks := raiseVector_keep (·.ticks) (by intros; rfl) v s
@[simp] theorem raiseVector_free (v : Nat) (s : State) : (raiseVector v s).free = s.free := raiseVector_keep (·.free) (by intros; rfl) v s
@[simp] theorem raiseVector_pending (v : Nat) (s : State) : (raiseVector v s).pending = s.pending := raiseVector_keep (·.pending) (by intros; rfl) v s
@[simp] theorem irqSet_power (t : Nat) (i : Nat) (s : State) : (irqSet t i s).power = s.power := irqSet_keep (·.power) (by intros; rfl) t i s
@[simp] theorem irqSet_clocks (t : Nat) (i : Nat) (s : State) : (irqSet t i s).clocks = s.clocks := irqSet_keep (·.clocks) (by intros; rfl) t i s
@[simp] theorem irqSet_straps (t : Nat) (i : Nat) (s : State) : (irqSet t i s).straps = s.straps := irqSet_keep (·.straps) (by intros; rfl) t i s
@[simp] theorem irqSet_pins (t : Nat) (i : Nat) (s : State) : (irqSet t i s).pins = s.pins := irqSet_keep (·.pins) (by intros; rfl) t i s
@[simp] theorem irqSet_mode (t : Nat) (i : Nat) (s : State) : (irqSet t i s).mode = s.mode := irqSet_keep (·.mode) (by intros; rfl) t i s
@[simp] theorem irqSet_banks (t : Nat) (i : Nat) (s : State) : (irqSet t i s).banks = s.banks := irqSet_keep (·.banks) (by intros; rfl) t i s
@[simp] theorem irqSet_booted (t : Nat) (i : Nat) (s : State) : (irqSet t i s).booted = s.booted := irqSet_keep (·.booted) (by intros; rfl) t i s
@[simp] theorem irqSet_modeEntry (t : Nat) (i : Nat) (s : State) : (irqSet t i s).modeEntry = s.modeEntry :=
  irqSet_keep (·.modeEntry) (by intros; rfl) t i s
@[simp] theorem irqSet_scribe_ready (t : Nat) (i : Nat) (s : State) : (irqSet t i s).scribe.ready = s.scribe.ready :=
  irqSet_keep (·.scribe.ready) (by intros; rfl) t i s
@[simp] theorem irqSet_scribe_restarting (t : Nat) (i : Nat) (s : State) : (irqSet t i s).scribe.restarting = s.scribe.restarting :=
  irqSet_keep (·.scribe.restarting) (by intros; rfl) t i s
@[simp] theorem irqSet_scribe_transports (t : Nat) (i : Nat) (s : State) : (irqSet t i s).scribe.transports = s.scribe.transports :=
  irqSet_keep (·.scribe.transports) (by intros; rfl) t i s
@[simp] theorem irqSet_journal (t : Nat) (i : Nat) (s : State) : (irqSet t i s).journal = s.journal := irqSet_keep (·.journal) (by intros; rfl) t i s
@[simp] theorem irqSet_firmware (t : Nat) (i : Nat) (s : State) : (irqSet t i s).firmware = s.firmware :=
  irqSet_keep (·.firmware) (by intros; rfl) t i s
@[simp] theorem irqSet_ports (t : Nat) (i : Nat) (s : State) : (irqSet t i s).ports = s.ports := irqSet_keep (·.ports) (by intros; rfl) t i s
@[simp] theorem irqSet_herder (t : Nat) (i : Nat) (s : State) : (irqSet t i s).herder = s.herder := irqSet_keep (·.herder) (by intros; rfl) t i s
@[simp] theorem irqSet_serif (t : Nat) (i : Nat) (s : State) : (irqSet t i s).serif = s.serif := irqSet_keep (·.serif) (by intros; rfl) t i s
@[simp] theorem irqSet_raman (t : Nat) (i : Nat) (s : State) : (irqSet t i s).raman = s.raman := irqSet_keep (·.raman) (by intros; rfl) t i s
@[simp] theorem irqSet_rtd (t : Nat) (i : Nat) (s : State) : (irqSet t i s).rtd = s.rtd := irqSet_keep (·.rtd) (by intros; rfl) t i s
@[simp] theorem irqSet_hk (t : Nat) (i : Nat) (s : State) : (irqSet t i s).hk = s.hk := irqSet_keep (·.hk) (by intros; rfl) t i s
@[simp] theorem irqSet_pointer (t : Nat) (i : Nat) (s : State) : (irqSet t i s).pointer = s.pointer := irqSet_keep (·.pointer) (by intros; rfl) t i s
@[simp] theorem irqSet_inkstone (t : Nat) (i : Nat) (s : State) : (irqSet t i s).inkstone = s.inkstone :=
  irqSet_keep (·.inkstone) (by intros; rfl) t i s
@[simp] theorem irqSet_memory (t : Nat) (i : Nat) (s : State) : (irqSet t i s).memory = s.memory := irqSet_keep (·.memory) (by intros; rfl) t i s
@[simp] theorem irqSet_time (t : Nat) (i : Nat) (s : State) : (irqSet t i s).time = s.time := irqSet_keep (·.time) (by intros; rfl) t i s
@[simp] theorem irqSet_safety (t : Nat) (i : Nat) (s : State) : (irqSet t i s).safety = s.safety := irqSet_keep (·.safety) (by intros; rfl) t i s
@[simp] theorem irqSet_calib (t : Nat) (i : Nat) (s : State) : (irqSet t i s).calib = s.calib := irqSet_keep (·.calib) (by intros; rfl) t i s
@[simp] theorem irqSet_ticks (t : Nat) (i : Nat) (s : State) : (irqSet t i s).ticks = s.ticks := irqSet_keep (·.ticks) (by intros; rfl) t i s
@[simp] theorem irqSet_free (t : Nat) (i : Nat) (s : State) : (irqSet t i s).free = s.free := irqSet_keep (·.free) (by intros; rfl) t i s
@[simp] theorem irqSet_pending (t : Nat) (i : Nat) (s : State) : (irqSet t i s).pending = s.pending := irqSet_keep (·.pending) (by intros; rfl) t i s
@[simp] theorem irqBoth_power (i : Nat) (s : State) : (irqBoth i s).power = s.power := irqBoth_keep (·.power) (by intros; rfl) i s
@[simp] theorem irqBoth_clocks (i : Nat) (s : State) : (irqBoth i s).clocks = s.clocks := irqBoth_keep (·.clocks) (by intros; rfl) i s
@[simp] theorem irqBoth_mode (i : Nat) (s : State) : (irqBoth i s).mode = s.mode := irqBoth_keep (·.mode) (by intros; rfl) i s
@[simp] theorem irqBoth_params (i : Nat) (s : State) : (irqBoth i s).params = s.params := irqBoth_keep (·.params) (by intros; rfl) i s
@[simp] theorem irqBoth_evq (i : Nat) (s : State) : (irqBoth i s).evq = s.evq := irqBoth_keep (·.evq) (by intros; rfl) i s
@[simp] theorem irqBoth_memory (i : Nat) (s : State) : (irqBoth i s).memory = s.memory := irqBoth_keep (·.memory) (by intros; rfl) i s
@[simp] theorem irqBoth_time (i : Nat) (s : State) : (irqBoth i s).time = s.time := irqBoth_keep (·.time) (by intros; rfl) i s
@[simp] theorem irqBoth_pair (i : Nat) (s : State) : (irqBoth i s).pair = s.pair := irqBoth_keep (·.pair) (by intros; rfl) i s
@[simp] theorem irqBoth_safety (i : Nat) (s : State) : (irqBoth i s).safety = s.safety := irqBoth_keep (·.safety) (by intros; rfl) i s
@[simp] theorem evqWrite_scribe_restarting (e : EventEntry) (s : State) : (evqWrite e s).scribe.restarting = s.scribe.restarting :=
  evqWrite_keep (·.scribe.restarting) (by intros; rfl) e s
@[simp] theorem evqWrite_log (e : EventEntry) (s : State) : (evqWrite e s).log = s.log := evqWrite_keep (·.log) (by intros; rfl) e s
@[simp] theorem segorSend_power (kind : Nat) (m : List Byte) (s : State) : (segorSend kind m s).power = s.power :=
  segorSend_keep (·.power) (by intros; rfl) kind m s
@[simp] theorem segorSend_clocks (kind : Nat) (m : List Byte) (s : State) : (segorSend kind m s).clocks = s.clocks :=
  segorSend_keep (·.clocks) (by intros; rfl) kind m s
@[simp] theorem segorSend_straps (kind : Nat) (m : List Byte) (s : State) : (segorSend kind m s).straps = s.straps :=
  segorSend_keep (·.straps) (by intros; rfl) kind m s
@[simp] theorem segorSend_pins (kind : Nat) (m : List Byte) (s : State) : (segorSend kind m s).pins = s.pins :=
  segorSend_keep (·.pins) (by intros; rfl) kind m s
@[simp] theorem segorSend_mode (kind : Nat) (m : List Byte) (s : State) : (segorSend kind m s).mode = s.mode :=
  segorSend_keep (·.mode) (by intros; rfl) kind m s
@[simp] theorem segorSend_banks (kind : Nat) (m : List Byte) (s : State) : (segorSend kind m s).banks = s.banks :=
  segorSend_keep (·.banks) (by intros; rfl) kind m s
@[simp] theorem segorSend_booted (kind : Nat) (m : List Byte) (s : State) : (segorSend kind m s).booted = s.booted :=
  segorSend_keep (·.booted) (by intros; rfl) kind m s
@[simp] theorem segorSend_modeEntry (kind : Nat) (m : List Byte) (s : State) : (segorSend kind m s).modeEntry = s.modeEntry :=
  segorSend_keep (·.modeEntry) (by intros; rfl) kind m s
@[simp] theorem segorSend_journal (kind : Nat) (m : List Byte) (s : State) : (segorSend kind m s).journal = s.journal :=
  segorSend_keep (·.journal) (by intros; rfl) kind m s
@[simp] theorem segorSend_firmware (kind : Nat) (m : List Byte) (s : State) : (segorSend kind m s).firmware = s.firmware :=
  segorSend_keep (·.firmware) (by intros; rfl) kind m s
@[simp] theorem segorSend_ports (kind : Nat) (m : List Byte) (s : State) : (segorSend kind m s).ports = s.ports :=
  segorSend_keep (·.ports) (by intros; rfl) kind m s
@[simp] theorem segorSend_herder (kind : Nat) (m : List Byte) (s : State) : (segorSend kind m s).herder = s.herder :=
  segorSend_keep (·.herder) (by intros; rfl) kind m s
@[simp] theorem segorSend_serif (kind : Nat) (m : List Byte) (s : State) : (segorSend kind m s).serif = s.serif :=
  segorSend_keep (·.serif) (by intros; rfl) kind m s
@[simp] theorem segorSend_raman (kind : Nat) (m : List Byte) (s : State) : (segorSend kind m s).raman = s.raman :=
  segorSend_keep (·.raman) (by intros; rfl) kind m s
@[simp] theorem segorSend_rtd (kind : Nat) (m : List Byte) (s : State) : (segorSend kind m s).rtd = s.rtd :=
  segorSend_keep (·.rtd) (by intros; rfl) kind m s
@[simp] theorem segorSend_hk (kind : Nat) (m : List Byte) (s : State) : (segorSend kind m s).hk = s.hk :=
  segorSend_keep (·.hk) (by intros; rfl) kind m s
@[simp] theorem segorSend_pointer (kind : Nat) (m : List Byte) (s : State) : (segorSend kind m s).pointer = s.pointer :=
  segorSend_keep (·.pointer) (by intros; rfl) kind m s
@[simp] theorem segorSend_inkstone (kind : Nat) (m : List Byte) (s : State) : (segorSend kind m s).inkstone = s.inkstone :=
  segorSend_keep (·.inkstone) (by intros; rfl) kind m s
@[simp] theorem segorSend_memory (kind : Nat) (m : List Byte) (s : State) : (segorSend kind m s).memory = s.memory :=
  segorSend_keep (·.memory) (by intros; rfl) kind m s
@[simp] theorem segorSend_time (kind : Nat) (m : List Byte) (s : State) : (segorSend kind m s).time = s.time :=
  segorSend_keep (·.time) (by intros; rfl) kind m s
@[simp] theorem segorSend_safety (kind : Nat) (m : List Byte) (s : State) : (segorSend kind m s).safety = s.safety :=
  segorSend_keep (·.safety) (by intros; rfl) kind m s
@[simp] theorem segorSend_calib (kind : Nat) (m : List Byte) (s : State) : (segorSend kind m s).calib = s.calib :=
  segorSend_keep (·.calib) (by intros; rfl) kind m s
@[simp] theorem segorSend_ticks (kind : Nat) (m : List Byte) (s : State) : (segorSend kind m s).ticks = s.ticks :=
  segorSend_keep (·.ticks) (by intros; rfl) kind m s
@[simp] theorem segorSend_free (kind : Nat) (m : List Byte) (s : State) : (segorSend kind m s).free = s.free :=
  segorSend_keep (·.free) (by intros; rfl) kind m s
@[simp] theorem segorSend_pending (kind : Nat) (m : List Byte) (s : State) : (segorSend kind m s).pending = s.pending :=
  segorSend_keep (·.pending) (by intros; rfl) kind m s
@[simp] theorem dropAnswers_power (s : State) : (dropAnswers s).power = s.power := dropAnswers_keep (·.power) (by intros; rfl) s
@[simp] theorem dropAnswers_clocks (s : State) : (dropAnswers s).clocks = s.clocks := dropAnswers_keep (·.clocks) (by intros; rfl) s
@[simp] theorem dropAnswers_straps (s : State) : (dropAnswers s).straps = s.straps := dropAnswers_keep (·.straps) (by intros; rfl) s
@[simp] theorem dropAnswers_pins (s : State) : (dropAnswers s).pins = s.pins := dropAnswers_keep (·.pins) (by intros; rfl) s
@[simp] theorem dropAnswers_mode (s : State) : (dropAnswers s).mode = s.mode := dropAnswers_keep (·.mode) (by intros; rfl) s
@[simp] theorem dropAnswers_banks (s : State) : (dropAnswers s).banks = s.banks := dropAnswers_keep (·.banks) (by intros; rfl) s
@[simp] theorem dropAnswers_params (s : State) : (dropAnswers s).params = s.params := dropAnswers_keep (·.params) (by intros; rfl) s
@[simp] theorem dropAnswers_booted (s : State) : (dropAnswers s).booted = s.booted := dropAnswers_keep (·.booted) (by intros; rfl) s
@[simp] theorem dropAnswers_modeEntry (s : State) : (dropAnswers s).modeEntry = s.modeEntry := dropAnswers_keep (·.modeEntry) (by intros; rfl) s
@[simp] theorem dropAnswers_evq (s : State) : (dropAnswers s).evq = s.evq := dropAnswers_keep (·.evq) (by intros; rfl) s
@[simp] theorem dropAnswers_journal (s : State) : (dropAnswers s).journal = s.journal := dropAnswers_keep (·.journal) (by intros; rfl) s
@[simp] theorem dropAnswers_log (s : State) : (dropAnswers s).log = s.log := dropAnswers_keep (·.log) (by intros; rfl) s
@[simp] theorem dropAnswers_firmware (s : State) : (dropAnswers s).firmware = s.firmware := dropAnswers_keep (·.firmware) (by intros; rfl) s
@[simp] theorem dropAnswers_ports (s : State) : (dropAnswers s).ports = s.ports := dropAnswers_keep (·.ports) (by intros; rfl) s
@[simp] theorem dropAnswers_herder (s : State) : (dropAnswers s).herder = s.herder := dropAnswers_keep (·.herder) (by intros; rfl) s
@[simp] theorem dropAnswers_serif (s : State) : (dropAnswers s).serif = s.serif := dropAnswers_keep (·.serif) (by intros; rfl) s
@[simp] theorem dropAnswers_raman (s : State) : (dropAnswers s).raman = s.raman := dropAnswers_keep (·.raman) (by intros; rfl) s
@[simp] theorem dropAnswers_rtd (s : State) : (dropAnswers s).rtd = s.rtd := dropAnswers_keep (·.rtd) (by intros; rfl) s
@[simp] theorem dropAnswers_hk (s : State) : (dropAnswers s).hk = s.hk := dropAnswers_keep (·.hk) (by intros; rfl) s
@[simp] theorem dropAnswers_pointer (s : State) : (dropAnswers s).pointer = s.pointer := dropAnswers_keep (·.pointer) (by intros; rfl) s
@[simp] theorem dropAnswers_inkstone (s : State) : (dropAnswers s).inkstone = s.inkstone := dropAnswers_keep (·.inkstone) (by intros; rfl) s
@[simp] theorem dropAnswers_memory (s : State) : (dropAnswers s).memory = s.memory := dropAnswers_keep (·.memory) (by intros; rfl) s
@[simp] theorem dropAnswers_time (s : State) : (dropAnswers s).time = s.time := dropAnswers_keep (·.time) (by intros; rfl) s
@[simp] theorem dropAnswers_pair (s : State) : (dropAnswers s).pair = s.pair := dropAnswers_keep (·.pair) (by intros; rfl) s
@[simp] theorem dropAnswers_safety (s : State) : (dropAnswers s).safety = s.safety := dropAnswers_keep (·.safety) (by intros; rfl) s
@[simp] theorem dropAnswers_calib (s : State) : (dropAnswers s).calib = s.calib := dropAnswers_keep (·.calib) (by intros; rfl) s
@[simp] theorem dropAnswers_ticks (s : State) : (dropAnswers s).ticks = s.ticks := dropAnswers_keep (·.ticks) (by intros; rfl) s
@[simp] theorem dropAnswers_free (s : State) : (dropAnswers s).free = s.free := dropAnswers_keep (·.free) (by intros; rfl) s
@[simp] theorem dropAnswers_pending (s : State) : (dropAnswers s).pending = s.pending := dropAnswers_keep (·.pending) (by intros; rfl) s
@[simp] theorem endSession_power (t : Nat) (s : State) : (endSession t s).power = s.power := endSession_keep (·.power) (by intros; rfl) t s
@[simp] theorem endSession_clocks (t : Nat) (s : State) : (endSession t s).clocks = s.clocks := endSession_keep (·.clocks) (by intros; rfl) t s
@[simp] theorem endSession_straps (t : Nat) (s : State) : (endSession t s).straps = s.straps := endSession_keep (·.straps) (by intros; rfl) t s
@[simp] theorem endSession_pins (t : Nat) (s : State) : (endSession t s).pins = s.pins := endSession_keep (·.pins) (by intros; rfl) t s
@[simp] theorem endSession_mode (t : Nat) (s : State) : (endSession t s).mode = s.mode := endSession_keep (·.mode) (by intros; rfl) t s
@[simp] theorem endSession_banks (t : Nat) (s : State) : (endSession t s).banks = s.banks := endSession_keep (·.banks) (by intros; rfl) t s
@[simp] theorem endSession_booted (t : Nat) (s : State) : (endSession t s).booted = s.booted := endSession_keep (·.booted) (by intros; rfl) t s
@[simp] theorem endSession_modeEntry (t : Nat) (s : State) : (endSession t s).modeEntry = s.modeEntry :=
  endSession_keep (·.modeEntry) (by intros; rfl) t s
@[simp] theorem endSession_firmware (t : Nat) (s : State) : (endSession t s).firmware = s.firmware :=
  endSession_keep (·.firmware) (by intros; rfl) t s
@[simp] theorem endSession_ports (t : Nat) (s : State) : (endSession t s).ports = s.ports := endSession_keep (·.ports) (by intros; rfl) t s
@[simp] theorem endSession_herder (t : Nat) (s : State) : (endSession t s).herder = s.herder := endSession_keep (·.herder) (by intros; rfl) t s
@[simp] theorem endSession_serif (t : Nat) (s : State) : (endSession t s).serif = s.serif := endSession_keep (·.serif) (by intros; rfl) t s
@[simp] theorem endSession_raman (t : Nat) (s : State) : (endSession t s).raman = s.raman := endSession_keep (·.raman) (by intros; rfl) t s
@[simp] theorem endSession_rtd (t : Nat) (s : State) : (endSession t s).rtd = s.rtd := endSession_keep (·.rtd) (by intros; rfl) t s
@[simp] theorem endSession_hk (t : Nat) (s : State) : (endSession t s).hk = s.hk := endSession_keep (·.hk) (by intros; rfl) t s
@[simp] theorem endSession_pointer (t : Nat) (s : State) : (endSession t s).pointer = s.pointer := endSession_keep (·.pointer) (by intros; rfl) t s
@[simp] theorem endSession_inkstone (t : Nat) (s : State) : (endSession t s).inkstone = s.inkstone :=
  endSession_keep (·.inkstone) (by intros; rfl) t s
@[simp] theorem endSession_memory (t : Nat) (s : State) : (endSession t s).memory = s.memory := endSession_keep (·.memory) (by intros; rfl) t s
@[simp] theorem endSession_time (t : Nat) (s : State) : (endSession t s).time = s.time := endSession_keep (·.time) (by intros; rfl) t s
@[simp] theorem endSession_pair (t : Nat) (s : State) : (endSession t s).pair = s.pair := endSession_keep (·.pair) (by intros; rfl) t s
@[simp] theorem endSession_safety (t : Nat) (s : State) : (endSession t s).safety = s.safety := endSession_keep (·.safety) (by intros; rfl) t s
@[simp] theorem endSession_calib (t : Nat) (s : State) : (endSession t s).calib = s.calib := endSession_keep (·.calib) (by intros; rfl) t s
@[simp] theorem endSession_ticks (t : Nat) (s : State) : (endSession t s).ticks = s.ticks := endSession_keep (·.ticks) (by intros; rfl) t s
@[simp] theorem endSession_free (t : Nat) (s : State) : (endSession t s).free = s.free := endSession_keep (·.free) (by intros; rfl) t s
@[simp] theorem endSession_pending (t : Nat) (s : State) : (endSession t s).pending = s.pending := endSession_keep (·.pending) (by intros; rfl) t s
@[simp] theorem noteGap_power (z : Nat) (lost : Nat) (cause : Nat) (s : State) : (noteGap z lost cause s).power = s.power :=
  noteGap_keep (·.power) (by intros; rfl) z lost cause s
@[simp] theorem noteGap_mode (z : Nat) (lost : Nat) (cause : Nat) (s : State) : (noteGap z lost cause s).mode = s.mode :=
  noteGap_keep (·.mode) (by intros; rfl) z lost cause s
@[simp] theorem noteGap_ticks (z : Nat) (lost : Nat) (cause : Nat) (s : State) : (noteGap z lost cause s).ticks = s.ticks :=
  noteGap_keep (·.ticks) (by intros; rfl) z lost cause s
@[simp] theorem noteGap_pending (z : Nat) (lost : Nat) (cause : Nat) (s : State) : (noteGap z lost cause s).pending = s.pending :=
  noteGap_keep (·.pending) (by intros; rfl) z lost cause s
@[simp] theorem forgetPieces_power (z : Nat) (s : State) : (forgetPieces z s).power = s.power := forgetPieces_keep (·.power) (by intros; rfl) z s
@[simp] theorem forgetPieces_mode (z : Nat) (s : State) : (forgetPieces z s).mode = s.mode := forgetPieces_keep (·.mode) (by intros; rfl) z s
@[simp] theorem forgetPieces_ticks (z : Nat) (s : State) : (forgetPieces z s).ticks = s.ticks := forgetPieces_keep (·.ticks) (by intros; rfl) z s
@[simp] theorem forgetPieces_pending (z : Nat) (s : State) : (forgetPieces z s).pending = s.pending :=
  forgetPieces_keep (·.pending) (by intros; rfl) z s
@[simp] theorem logWrite_power (e : LogEntry) (s : State) : (logWrite e s).power = s.power := logWrite_keep (·.power) (by intros; rfl) e s
@[simp] theorem logWrite_clocks (e : LogEntry) (s : State) : (logWrite e s).clocks = s.clocks := logWrite_keep (·.clocks) (by intros; rfl) e s
@[simp] theorem logWrite_straps (e : LogEntry) (s : State) : (logWrite e s).straps = s.straps := logWrite_keep (·.straps) (by intros; rfl) e s
@[simp] theorem logWrite_pins (e : LogEntry) (s : State) : (logWrite e s).pins = s.pins := logWrite_keep (·.pins) (by intros; rfl) e s
@[simp] theorem logWrite_mode (e : LogEntry) (s : State) : (logWrite e s).mode = s.mode := logWrite_keep (·.mode) (by intros; rfl) e s
@[simp] theorem logWrite_banks (e : LogEntry) (s : State) : (logWrite e s).banks = s.banks := logWrite_keep (·.banks) (by intros; rfl) e s
@[simp] theorem logWrite_params (e : LogEntry) (s : State) : (logWrite e s).params = s.params := logWrite_keep (·.params) (by intros; rfl) e s
@[simp] theorem logWrite_booted (e : LogEntry) (s : State) : (logWrite e s).booted = s.booted := logWrite_keep (·.booted) (by intros; rfl) e s
@[simp] theorem logWrite_modeEntry (e : LogEntry) (s : State) : (logWrite e s).modeEntry = s.modeEntry :=
  logWrite_keep (·.modeEntry) (by intros; rfl) e s
@[simp] theorem logWrite_scribe (e : LogEntry) (s : State) : (logWrite e s).scribe = s.scribe := logWrite_keep (·.scribe) (by intros; rfl) e s
@[simp] theorem logWrite_evq (e : LogEntry) (s : State) : (logWrite e s).evq = s.evq := logWrite_keep (·.evq) (by intros; rfl) e s
@[simp] theorem logWrite_journal (e : LogEntry) (s : State) : (logWrite e s).journal = s.journal := logWrite_keep (·.journal) (by intros; rfl) e s
@[simp] theorem logWrite_firmware (e : LogEntry) (s : State) : (logWrite e s).firmware = s.firmware := logWrite_keep (·.firmware) (by intros; rfl) e s
@[simp] theorem logWrite_ports (e : LogEntry) (s : State) : (logWrite e s).ports = s.ports := logWrite_keep (·.ports) (by intros; rfl) e s
@[simp] theorem logWrite_herder (e : LogEntry) (s : State) : (logWrite e s).herder = s.herder := logWrite_keep (·.herder) (by intros; rfl) e s
@[simp] theorem logWrite_serif (e : LogEntry) (s : State) : (logWrite e s).serif = s.serif := logWrite_keep (·.serif) (by intros; rfl) e s
@[simp] theorem logWrite_raman (e : LogEntry) (s : State) : (logWrite e s).raman = s.raman := logWrite_keep (·.raman) (by intros; rfl) e s
@[simp] theorem logWrite_rtd (e : LogEntry) (s : State) : (logWrite e s).rtd = s.rtd := logWrite_keep (·.rtd) (by intros; rfl) e s
@[simp] theorem logWrite_hk (e : LogEntry) (s : State) : (logWrite e s).hk = s.hk := logWrite_keep (·.hk) (by intros; rfl) e s
@[simp] theorem logWrite_pointer (e : LogEntry) (s : State) : (logWrite e s).pointer = s.pointer := logWrite_keep (·.pointer) (by intros; rfl) e s
@[simp] theorem logWrite_inkstone (e : LogEntry) (s : State) : (logWrite e s).inkstone = s.inkstone := logWrite_keep (·.inkstone) (by intros; rfl) e s
@[simp] theorem logWrite_memory (e : LogEntry) (s : State) : (logWrite e s).memory = s.memory := logWrite_keep (·.memory) (by intros; rfl) e s
@[simp] theorem logWrite_time (e : LogEntry) (s : State) : (logWrite e s).time = s.time := logWrite_keep (·.time) (by intros; rfl) e s
@[simp] theorem logWrite_pair (e : LogEntry) (s : State) : (logWrite e s).pair = s.pair := logWrite_keep (·.pair) (by intros; rfl) e s
@[simp] theorem logWrite_safety (e : LogEntry) (s : State) : (logWrite e s).safety = s.safety := logWrite_keep (·.safety) (by intros; rfl) e s
@[simp] theorem logWrite_calib (e : LogEntry) (s : State) : (logWrite e s).calib = s.calib := logWrite_keep (·.calib) (by intros; rfl) e s
@[simp] theorem logWrite_ticks (e : LogEntry) (s : State) : (logWrite e s).ticks = s.ticks := logWrite_keep (·.ticks) (by intros; rfl) e s
@[simp] theorem logWrite_free (e : LogEntry) (s : State) : (logWrite e s).free = s.free := logWrite_keep (·.free) (by intros; rfl) e s
@[simp] theorem logWrite_pending (e : LogEntry) (s : State) : (logWrite e s).pending = s.pending := logWrite_keep (·.pending) (by intros; rfl) e s
@[simp] theorem logFlush_power (s : State) : (logFlush s).power = s.power := logFlush_keep (·.power) (by intros; rfl) s
@[simp] theorem logFlush_clocks (s : State) : (logFlush s).clocks = s.clocks := logFlush_keep (·.clocks) (by intros; rfl) s
@[simp] theorem logFlush_straps (s : State) : (logFlush s).straps = s.straps := logFlush_keep (·.straps) (by intros; rfl) s
@[simp] theorem logFlush_pins (s : State) : (logFlush s).pins = s.pins := logFlush_keep (·.pins) (by intros; rfl) s
@[simp] theorem logFlush_mode (s : State) : (logFlush s).mode = s.mode := logFlush_keep (·.mode) (by intros; rfl) s
@[simp] theorem logFlush_banks (s : State) : (logFlush s).banks = s.banks := logFlush_keep (·.banks) (by intros; rfl) s
@[simp] theorem logFlush_booted (s : State) : (logFlush s).booted = s.booted := logFlush_keep (·.booted) (by intros; rfl) s
@[simp] theorem logFlush_modeEntry (s : State) : (logFlush s).modeEntry = s.modeEntry := logFlush_keep (·.modeEntry) (by intros; rfl) s
@[simp] theorem logFlush_scribe (s : State) : (logFlush s).scribe = s.scribe := logFlush_keep (·.scribe) (by intros; rfl) s
@[simp] theorem logFlush_evq (s : State) : (logFlush s).evq = s.evq := logFlush_keep (·.evq) (by intros; rfl) s
@[simp] theorem logFlush_journal (s : State) : (logFlush s).journal = s.journal := logFlush_keep (·.journal) (by intros; rfl) s
@[simp] theorem logFlush_firmware (s : State) : (logFlush s).firmware = s.firmware := logFlush_keep (·.firmware) (by intros; rfl) s
@[simp] theorem logFlush_ports (s : State) : (logFlush s).ports = s.ports := logFlush_keep (·.ports) (by intros; rfl) s
@[simp] theorem logFlush_herder (s : State) : (logFlush s).herder = s.herder := logFlush_keep (·.herder) (by intros; rfl) s
@[simp] theorem logFlush_serif (s : State) : (logFlush s).serif = s.serif := logFlush_keep (·.serif) (by intros; rfl) s
@[simp] theorem logFlush_raman (s : State) : (logFlush s).raman = s.raman := logFlush_keep (·.raman) (by intros; rfl) s
@[simp] theorem logFlush_rtd (s : State) : (logFlush s).rtd = s.rtd := logFlush_keep (·.rtd) (by intros; rfl) s
@[simp] theorem logFlush_hk (s : State) : (logFlush s).hk = s.hk := logFlush_keep (·.hk) (by intros; rfl) s
@[simp] theorem logFlush_pointer (s : State) : (logFlush s).pointer = s.pointer := logFlush_keep (·.pointer) (by intros; rfl) s
@[simp] theorem logFlush_inkstone (s : State) : (logFlush s).inkstone = s.inkstone := logFlush_keep (·.inkstone) (by intros; rfl) s
@[simp] theorem logFlush_memory (s : State) : (logFlush s).memory = s.memory := logFlush_keep (·.memory) (by intros; rfl) s
@[simp] theorem logFlush_time (s : State) : (logFlush s).time = s.time := logFlush_keep (·.time) (by intros; rfl) s
@[simp] theorem logFlush_pair (s : State) : (logFlush s).pair = s.pair := logFlush_keep (·.pair) (by intros; rfl) s
@[simp] theorem logFlush_safety (s : State) : (logFlush s).safety = s.safety := logFlush_keep (·.safety) (by intros; rfl) s
@[simp] theorem logFlush_calib (s : State) : (logFlush s).calib = s.calib := logFlush_keep (·.calib) (by intros; rfl) s
@[simp] theorem logFlush_ticks (s : State) : (logFlush s).ticks = s.ticks := logFlush_keep (·.ticks) (by intros; rfl) s
@[simp] theorem logFlush_free (s : State) : (logFlush s).free = s.free := logFlush_keep (·.free) (by intros; rfl) s
@[simp] theorem logFlush_pending (s : State) : (logFlush s).pending = s.pending := logFlush_keep (·.pending) (by intros; rfl) s
@[simp] theorem logPost_scribe (e : LogEntry) (s : State) : (logPost e s).scribe = s.scribe := logPost_keep (·.scribe) (by intros; rfl) e s
@[simp] theorem logPost_evq (e : LogEntry) (s : State) : (logPost e s).evq = s.evq := logPost_keep (·.evq) (by intros; rfl) e s
@[simp] theorem eventSend_params (e : EventEntry) (t : Nat) (s : State) : (eventSend e t s).params = s.params :=
  eventSend_keep (·.params) (by intros; rfl) e t s
@[simp] theorem eventSend_scribe_page (e : EventEntry) (t : Nat) (s : State) : (eventSend e t s).scribe.page = s.scribe.page :=
  eventSend_keep (·.scribe.page) (by intros; rfl) e t s
@[simp] theorem eventSend_evq (e : EventEntry) (t : Nat) (s : State) : (eventSend e t s).evq = s.evq := eventSend_keep (·.evq) (by intros; rfl) e t s
@[simp] theorem eventSend_log (e : EventEntry) (t : Nat) (s : State) : (eventSend e t s).log = s.log := eventSend_keep (·.log) (by intros; rfl) e t s
@[simp] theorem post_power (code : Nat) (a0 : Int) (a1 : Int) (a2 : Int) (s : State) : (post code a0 a1 a2 s).power = s.power :=
  post_keep (·.power) (by intros; rfl) code a0 a1 a2 s
@[simp] theorem post_clocks (code : Nat) (a0 : Int) (a1 : Int) (a2 : Int) (s : State) : (post code a0 a1 a2 s).clocks = s.clocks :=
  post_keep (·.clocks) (by intros; rfl) code a0 a1 a2 s
@[simp] theorem post_straps (code : Nat) (a0 : Int) (a1 : Int) (a2 : Int) (s : State) : (post code a0 a1 a2 s).straps = s.straps :=
  post_keep (·.straps) (by intros; rfl) code a0 a1 a2 s
@[simp] theorem post_pins (code : Nat) (a0 : Int) (a1 : Int) (a2 : Int) (s : State) : (post code a0 a1 a2 s).pins = s.pins :=
  post_keep (·.pins) (by intros; rfl) code a0 a1 a2 s
@[simp] theorem post_mode (code : Nat) (a0 : Int) (a1 : Int) (a2 : Int) (s : State) : (post code a0 a1 a2 s).mode = s.mode :=
  post_keep (·.mode) (by intros; rfl) code a0 a1 a2 s
@[simp] theorem post_banks (code : Nat) (a0 : Int) (a1 : Int) (a2 : Int) (s : State) : (post code a0 a1 a2 s).banks = s.banks :=
  post_keep (·.banks) (by intros; rfl) code a0 a1 a2 s
@[simp] theorem post_booted (code : Nat) (a0 : Int) (a1 : Int) (a2 : Int) (s : State) : (post code a0 a1 a2 s).booted = s.booted :=
  post_keep (·.booted) (by intros; rfl) code a0 a1 a2 s
@[simp] theorem post_modeEntry (code : Nat) (a0 : Int) (a1 : Int) (a2 : Int) (s : State) : (post code a0 a1 a2 s).modeEntry = s.modeEntry :=
  post_keep (·.modeEntry) (by intros; rfl) code a0 a1 a2 s
@[simp] theorem post_scribe_ready (code : Nat) (a0 : Int) (a1 : Int) (a2 : Int) (s : State) : (post code a0 a1 a2 s).scribe.ready = s.scribe.ready :=
  post_keep (·.scribe.ready) (by intros; rfl) code a0 a1 a2 s
@[simp] theorem post_scribe_restarting (code : Nat) (a0 : Int) (a1 : Int) (a2 : Int) (s : State) : (post code a0 a1 a2 s).scribe.restarting = s.scribe.restarting :=
  post_keep (·.scribe.restarting) (by intros; rfl) code a0 a1 a2 s
@[simp] theorem post_journal (code : Nat) (a0 : Int) (a1 : Int) (a2 : Int) (s : State) : (post code a0 a1 a2 s).journal = s.journal :=
  post_keep (·.journal) (by intros; rfl) code a0 a1 a2 s
@[simp] theorem post_firmware (code : Nat) (a0 : Int) (a1 : Int) (a2 : Int) (s : State) : (post code a0 a1 a2 s).firmware = s.firmware :=
  post_keep (·.firmware) (by intros; rfl) code a0 a1 a2 s
@[simp] theorem post_ports (code : Nat) (a0 : Int) (a1 : Int) (a2 : Int) (s : State) : (post code a0 a1 a2 s).ports = s.ports :=
  post_keep (·.ports) (by intros; rfl) code a0 a1 a2 s
@[simp] theorem post_herder (code : Nat) (a0 : Int) (a1 : Int) (a2 : Int) (s : State) : (post code a0 a1 a2 s).herder = s.herder :=
  post_keep (·.herder) (by intros; rfl) code a0 a1 a2 s
@[simp] theorem post_serif (code : Nat) (a0 : Int) (a1 : Int) (a2 : Int) (s : State) : (post code a0 a1 a2 s).serif = s.serif :=
  post_keep (·.serif) (by intros; rfl) code a0 a1 a2 s
@[simp] theorem post_raman (code : Nat) (a0 : Int) (a1 : Int) (a2 : Int) (s : State) : (post code a0 a1 a2 s).raman = s.raman :=
  post_keep (·.raman) (by intros; rfl) code a0 a1 a2 s
@[simp] theorem post_rtd (code : Nat) (a0 : Int) (a1 : Int) (a2 : Int) (s : State) : (post code a0 a1 a2 s).rtd = s.rtd :=
  post_keep (·.rtd) (by intros; rfl) code a0 a1 a2 s
@[simp] theorem post_hk (code : Nat) (a0 : Int) (a1 : Int) (a2 : Int) (s : State) : (post code a0 a1 a2 s).hk = s.hk :=
  post_keep (·.hk) (by intros; rfl) code a0 a1 a2 s
@[simp] theorem post_pointer (code : Nat) (a0 : Int) (a1 : Int) (a2 : Int) (s : State) : (post code a0 a1 a2 s).pointer = s.pointer :=
  post_keep (·.pointer) (by intros; rfl) code a0 a1 a2 s
@[simp] theorem post_inkstone (code : Nat) (a0 : Int) (a1 : Int) (a2 : Int) (s : State) : (post code a0 a1 a2 s).inkstone = s.inkstone :=
  post_keep (·.inkstone) (by intros; rfl) code a0 a1 a2 s
@[simp] theorem post_memory (code : Nat) (a0 : Int) (a1 : Int) (a2 : Int) (s : State) : (post code a0 a1 a2 s).memory = s.memory :=
  post_keep (·.memory) (by intros; rfl) code a0 a1 a2 s
@[simp] theorem post_time (code : Nat) (a0 : Int) (a1 : Int) (a2 : Int) (s : State) : (post code a0 a1 a2 s).time = s.time :=
  post_keep (·.time) (by intros; rfl) code a0 a1 a2 s
@[simp] theorem post_pair_own (code : Nat) (a0 : Int) (a1 : Int) (a2 : Int) (s : State) : (post code a0 a1 a2 s).pair.own = s.pair.own :=
  post_keep (·.pair.own) (by intros; rfl) code a0 a1 a2 s
@[simp] theorem post_pair_driving (code : Nat) (a0 : Int) (a1 : Int) (a2 : Int) (s : State) : (post code a0 a1 a2 s).pair.driving = s.pair.driving :=
  post_keep (·.pair.driving) (by intros; rfl) code a0 a1 a2 s
@[simp] theorem post_safety (code : Nat) (a0 : Int) (a1 : Int) (a2 : Int) (s : State) : (post code a0 a1 a2 s).safety = s.safety :=
  post_keep (·.safety) (by intros; rfl) code a0 a1 a2 s
@[simp] theorem post_calib (code : Nat) (a0 : Int) (a1 : Int) (a2 : Int) (s : State) : (post code a0 a1 a2 s).calib = s.calib :=
  post_keep (·.calib) (by intros; rfl) code a0 a1 a2 s
@[simp] theorem post_ticks (code : Nat) (a0 : Int) (a1 : Int) (a2 : Int) (s : State) : (post code a0 a1 a2 s).ticks = s.ticks :=
  post_keep (·.ticks) (by intros; rfl) code a0 a1 a2 s
@[simp] theorem post_free (code : Nat) (a0 : Int) (a1 : Int) (a2 : Int) (s : State) : (post code a0 a1 a2 s).free = s.free :=
  post_keep (·.free) (by intros; rfl) code a0 a1 a2 s
@[simp] theorem post_pending (code : Nat) (a0 : Int) (a1 : Int) (a2 : Int) (s : State) : (post code a0 a1 a2 s).pending = s.pending :=
  post_keep (·.pending) (by intros; rfl) code a0 a1 a2 s
@[simp] theorem setRecord_journal (r : EventRecord) (s : State) : (setRecord r s).journal = s.journal :=
  setRecord_keep (·.journal) (by intros; rfl) r s
@[simp] theorem endCollection_journal (r : EventRecord) (s : State) : (endCollection r s).journal = s.journal :=
  endCollection_keep (·.journal) (by intros; rfl) r s
@[simp] theorem updateMasterArm_pair_driving (cause : Nat) (s : State) : (updateMasterArm cause s).pair.driving = s.pair.driving :=
  updateMasterArm_keep (·.pair.driving) (by intros; rfl) cause s
@[simp] theorem updateMasterArm_pair_ilkHeld (cause : Nat) (s : State) : (updateMasterArm cause s).pair.ilkHeld = s.pair.ilkHeld :=
  updateMasterArm_keep (·.pair.ilkHeld) (by intros; rfl) cause s
@[simp] theorem updateMasterArm_pair_peerFailed (cause : Nat) (s : State) : (updateMasterArm cause s).pair.peerFailed = s.pair.peerFailed :=
  updateMasterArm_keep (·.pair.peerFailed) (by intros; rfl) cause s
@[simp] theorem updateMasterArm_pair_cause (cause : Nat) (s : State) : (updateMasterArm cause s).pair.cause = s.pair.cause :=
  updateMasterArm_keep (·.pair.cause) (by intros; rfl) cause s
@[simp] theorem updateMasterArm_pair_taking (cause : Nat) (s : State) : (updateMasterArm cause s).pair.taking = s.pair.taking :=
  updateMasterArm_keep (·.pair.taking) (by intros; rfl) cause s
@[simp] theorem updateMasterArm_safety (cause : Nat) (s : State) : (updateMasterArm cause s).safety = s.safety :=
  updateMasterArm_keep (·.safety) (by intros; rfl) cause s
@[simp] theorem answer_power (r : Request) (status : Nat) (detail : Nat) (body : List Byte) (s : State) : (answer r status detail body s).power = s.power :=
  answer_keep (·.power) (by intros; rfl) r status detail body s
@[simp] theorem answer_clocks (r : Request) (status : Nat) (detail : Nat) (body : List Byte) (s : State) : (answer r status detail body s).clocks = s.clocks :=
  answer_keep (·.clocks) (by intros; rfl) r status detail body s
@[simp] theorem answer_straps (r : Request) (status : Nat) (detail : Nat) (body : List Byte) (s : State) : (answer r status detail body s).straps = s.straps :=
  answer_keep (·.straps) (by intros; rfl) r status detail body s
@[simp] theorem answer_pins (r : Request) (status : Nat) (detail : Nat) (body : List Byte) (s : State) : (answer r status detail body s).pins = s.pins :=
  answer_keep (·.pins) (by intros; rfl) r status detail body s
@[simp] theorem answer_mode (r : Request) (status : Nat) (detail : Nat) (body : List Byte) (s : State) : (answer r status detail body s).mode = s.mode :=
  answer_keep (·.mode) (by intros; rfl) r status detail body s
@[simp] theorem answer_banks (r : Request) (status : Nat) (detail : Nat) (body : List Byte) (s : State) : (answer r status detail body s).banks = s.banks :=
  answer_keep (·.banks) (by intros; rfl) r status detail body s
@[simp] theorem answer_params (r : Request) (status : Nat) (detail : Nat) (body : List Byte) (s : State) : (answer r status detail body s).params = s.params :=
  answer_keep (·.params) (by intros; rfl) r status detail body s
@[simp] theorem answer_booted (r : Request) (status : Nat) (detail : Nat) (body : List Byte) (s : State) : (answer r status detail body s).booted = s.booted :=
  answer_keep (·.booted) (by intros; rfl) r status detail body s
@[simp] theorem answer_modeEntry (r : Request) (status : Nat) (detail : Nat) (body : List Byte) (s : State) : (answer r status detail body s).modeEntry = s.modeEntry :=
  answer_keep (·.modeEntry) (by intros; rfl) r status detail body s
@[simp] theorem answer_scribe_ready (r : Request) (status : Nat) (detail : Nat) (body : List Byte) (s : State) : (answer r status detail body s).scribe.ready = s.scribe.ready :=
  answer_keep (·.scribe.ready) (by intros; rfl) r status detail body s
@[simp] theorem answer_scribe_restarting (r : Request) (status : Nat) (detail : Nat) (body : List Byte) (s : State) : (answer r status detail body s).scribe.restarting = s.scribe.restarting :=
  answer_keep (·.scribe.restarting) (by intros; rfl) r status detail body s
@[simp] theorem answer_scribe_queue (r : Request) (status : Nat) (detail : Nat) (body : List Byte) (s : State) : (answer r status detail body s).scribe.queue = s.scribe.queue :=
  answer_keep (·.scribe.queue) (by intros; rfl) r status detail body s
@[simp] theorem answer_scribe_page (r : Request) (status : Nat) (detail : Nat) (body : List Byte) (s : State) : (answer r status detail body s).scribe.page = s.scribe.page :=
  answer_keep (·.scribe.page) (by intros; rfl) r status detail body s
@[simp] theorem answer_evq (r : Request) (status : Nat) (detail : Nat) (body : List Byte) (s : State) : (answer r status detail body s).evq = s.evq :=
  answer_keep (·.evq) (by intros; rfl) r status detail body s
@[simp] theorem answer_journal (r : Request) (status : Nat) (detail : Nat) (body : List Byte) (s : State) : (answer r status detail body s).journal = s.journal :=
  answer_keep (·.journal) (by intros; rfl) r status detail body s
@[simp] theorem answer_log (r : Request) (status : Nat) (detail : Nat) (body : List Byte) (s : State) : (answer r status detail body s).log = s.log :=
  answer_keep (·.log) (by intros; rfl) r status detail body s
@[simp] theorem answer_firmware (r : Request) (status : Nat) (detail : Nat) (body : List Byte) (s : State) : (answer r status detail body s).firmware = s.firmware :=
  answer_keep (·.firmware) (by intros; rfl) r status detail body s
@[simp] theorem answer_ports (r : Request) (status : Nat) (detail : Nat) (body : List Byte) (s : State) : (answer r status detail body s).ports = s.ports :=
  answer_keep (·.ports) (by intros; rfl) r status detail body s
@[simp] theorem answer_herder (r : Request) (status : Nat) (detail : Nat) (body : List Byte) (s : State) : (answer r status detail body s).herder = s.herder :=
  answer_keep (·.herder) (by intros; rfl) r status detail body s
@[simp] theorem answer_serif (r : Request) (status : Nat) (detail : Nat) (body : List Byte) (s : State) : (answer r status detail body s).serif = s.serif :=
  answer_keep (·.serif) (by intros; rfl) r status detail body s
@[simp] theorem answer_raman (r : Request) (status : Nat) (detail : Nat) (body : List Byte) (s : State) : (answer r status detail body s).raman = s.raman :=
  answer_keep (·.raman) (by intros; rfl) r status detail body s
@[simp] theorem answer_rtd (r : Request) (status : Nat) (detail : Nat) (body : List Byte) (s : State) : (answer r status detail body s).rtd = s.rtd :=
  answer_keep (·.rtd) (by intros; rfl) r status detail body s
@[simp] theorem answer_hk (r : Request) (status : Nat) (detail : Nat) (body : List Byte) (s : State) : (answer r status detail body s).hk = s.hk :=
  answer_keep (·.hk) (by intros; rfl) r status detail body s
@[simp] theorem answer_pointer (r : Request) (status : Nat) (detail : Nat) (body : List Byte) (s : State) : (answer r status detail body s).pointer = s.pointer :=
  answer_keep (·.pointer) (by intros; rfl) r status detail body s
@[simp] theorem answer_inkstone (r : Request) (status : Nat) (detail : Nat) (body : List Byte) (s : State) : (answer r status detail body s).inkstone = s.inkstone :=
  answer_keep (·.inkstone) (by intros; rfl) r status detail body s
@[simp] theorem answer_memory (r : Request) (status : Nat) (detail : Nat) (body : List Byte) (s : State) : (answer r status detail body s).memory = s.memory :=
  answer_keep (·.memory) (by intros; rfl) r status detail body s
@[simp] theorem answer_time (r : Request) (status : Nat) (detail : Nat) (body : List Byte) (s : State) : (answer r status detail body s).time = s.time :=
  answer_keep (·.time) (by intros; rfl) r status detail body s
@[simp] theorem answer_safety (r : Request) (status : Nat) (detail : Nat) (body : List Byte) (s : State) : (answer r status detail body s).safety = s.safety :=
  answer_keep (·.safety) (by intros; rfl) r status detail body s
@[simp] theorem answer_calib (r : Request) (status : Nat) (detail : Nat) (body : List Byte) (s : State) : (answer r status detail body s).calib = s.calib :=
  answer_keep (·.calib) (by intros; rfl) r status detail body s
@[simp] theorem answer_ticks (r : Request) (status : Nat) (detail : Nat) (body : List Byte) (s : State) : (answer r status detail body s).ticks = s.ticks :=
  answer_keep (·.ticks) (by intros; rfl) r status detail body s
@[simp] theorem answer_free (r : Request) (status : Nat) (detail : Nat) (body : List Byte) (s : State) : (answer r status detail body s).free = s.free :=
  answer_keep (·.free) (by intros; rfl) r status detail body s
@[simp] theorem answer_pending (r : Request) (status : Nat) (detail : Nat) (body : List Byte) (s : State) : (answer r status detail body s).pending = s.pending :=
  answer_keep (·.pending) (by intros; rfl) r status detail body s
@[simp] theorem refuse_power (r : Request) (status : Nat) (detail : Nat) (s : State) : (refuse r status detail s).power = s.power :=
  refuse_keep (·.power) (by intros; rfl) r status detail s
@[simp] theorem refuse_clocks (r : Request) (status : Nat) (detail : Nat) (s : State) : (refuse r status detail s).clocks = s.clocks :=
  refuse_keep (·.clocks) (by intros; rfl) r status detail s
@[simp] theorem refuse_straps (r : Request) (status : Nat) (detail : Nat) (s : State) : (refuse r status detail s).straps = s.straps :=
  refuse_keep (·.straps) (by intros; rfl) r status detail s
@[simp] theorem refuse_pins (r : Request) (status : Nat) (detail : Nat) (s : State) : (refuse r status detail s).pins = s.pins :=
  refuse_keep (·.pins) (by intros; rfl) r status detail s
@[simp] theorem refuse_mode (r : Request) (status : Nat) (detail : Nat) (s : State) : (refuse r status detail s).mode = s.mode :=
  refuse_keep (·.mode) (by intros; rfl) r status detail s
@[simp] theorem refuse_banks (r : Request) (status : Nat) (detail : Nat) (s : State) : (refuse r status detail s).banks = s.banks :=
  refuse_keep (·.banks) (by intros; rfl) r status detail s
@[simp] theorem refuse_booted (r : Request) (status : Nat) (detail : Nat) (s : State) : (refuse r status detail s).booted = s.booted :=
  refuse_keep (·.booted) (by intros; rfl) r status detail s
@[simp] theorem refuse_modeEntry (r : Request) (status : Nat) (detail : Nat) (s : State) : (refuse r status detail s).modeEntry = s.modeEntry :=
  refuse_keep (·.modeEntry) (by intros; rfl) r status detail s
@[simp] theorem refuse_firmware (r : Request) (status : Nat) (detail : Nat) (s : State) : (refuse r status detail s).firmware = s.firmware :=
  refuse_keep (·.firmware) (by intros; rfl) r status detail s
@[simp] theorem refuse_ports (r : Request) (status : Nat) (detail : Nat) (s : State) : (refuse r status detail s).ports = s.ports :=
  refuse_keep (·.ports) (by intros; rfl) r status detail s
@[simp] theorem refuse_herder (r : Request) (status : Nat) (detail : Nat) (s : State) : (refuse r status detail s).herder = s.herder :=
  refuse_keep (·.herder) (by intros; rfl) r status detail s
@[simp] theorem refuse_serif (r : Request) (status : Nat) (detail : Nat) (s : State) : (refuse r status detail s).serif = s.serif :=
  refuse_keep (·.serif) (by intros; rfl) r status detail s
@[simp] theorem refuse_raman (r : Request) (status : Nat) (detail : Nat) (s : State) : (refuse r status detail s).raman = s.raman :=
  refuse_keep (·.raman) (by intros; rfl) r status detail s
@[simp] theorem refuse_rtd (r : Request) (status : Nat) (detail : Nat) (s : State) : (refuse r status detail s).rtd = s.rtd :=
  refuse_keep (·.rtd) (by intros; rfl) r status detail s
@[simp] theorem refuse_hk (r : Request) (status : Nat) (detail : Nat) (s : State) : (refuse r status detail s).hk = s.hk :=
  refuse_keep (·.hk) (by intros; rfl) r status detail s
@[simp] theorem refuse_pointer (r : Request) (status : Nat) (detail : Nat) (s : State) : (refuse r status detail s).pointer = s.pointer :=
  refuse_keep (·.pointer) (by intros; rfl) r status detail s
@[simp] theorem refuse_inkstone (r : Request) (status : Nat) (detail : Nat) (s : State) : (refuse r status detail s).inkstone = s.inkstone :=
  refuse_keep (·.inkstone) (by intros; rfl) r status detail s
@[simp] theorem refuse_memory (r : Request) (status : Nat) (detail : Nat) (s : State) : (refuse r status detail s).memory = s.memory :=
  refuse_keep (·.memory) (by intros; rfl) r status detail s
@[simp] theorem refuse_time (r : Request) (status : Nat) (detail : Nat) (s : State) : (refuse r status detail s).time = s.time :=
  refuse_keep (·.time) (by intros; rfl) r status detail s
@[simp] theorem refuse_pair_step (r : Request) (status : Nat) (detail : Nat) (s : State) : (refuse r status detail s).pair.step = s.pair.step :=
  refuse_keep (·.pair.step) (by intros; rfl) r status detail s
@[simp] theorem refuse_safety (r : Request) (status : Nat) (detail : Nat) (s : State) : (refuse r status detail s).safety = s.safety :=
  refuse_keep (·.safety) (by intros; rfl) r status detail s
@[simp] theorem refuse_calib (r : Request) (status : Nat) (detail : Nat) (s : State) : (refuse r status detail s).calib = s.calib :=
  refuse_keep (·.calib) (by intros; rfl) r status detail s
@[simp] theorem refuse_ticks (r : Request) (status : Nat) (detail : Nat) (s : State) : (refuse r status detail s).ticks = s.ticks :=
  refuse_keep (·.ticks) (by intros; rfl) r status detail s
@[simp] theorem refuse_free (r : Request) (status : Nat) (detail : Nat) (s : State) : (refuse r status detail s).free = s.free :=
  refuse_keep (·.free) (by intros; rfl) r status detail s
@[simp] theorem refuse_pending (r : Request) (status : Nat) (detail : Nat) (s : State) : (refuse r status detail s).pending = s.pending :=
  refuse_keep (·.pending) (by intros; rfl) r status detail s
@[simp] theorem journalOpen_power (r : Request) (total : Nat) (s : State) : (journalOpen r total s).power = s.power :=
  journalOpen_keep (·.power) (by intros; rfl) r total s
@[simp] theorem journalOpen_clocks (r : Request) (total : Nat) (s : State) : (journalOpen r total s).clocks = s.clocks :=
  journalOpen_keep (·.clocks) (by intros; rfl) r total s
@[simp] theorem journalOpen_straps (r : Request) (total : Nat) (s : State) : (journalOpen r total s).straps = s.straps :=
  journalOpen_keep (·.straps) (by intros; rfl) r total s
@[simp] theorem journalOpen_pins (r : Request) (total : Nat) (s : State) : (journalOpen r total s).pins = s.pins :=
  journalOpen_keep (·.pins) (by intros; rfl) r total s
@[simp] theorem journalOpen_mode (r : Request) (total : Nat) (s : State) : (journalOpen r total s).mode = s.mode :=
  journalOpen_keep (·.mode) (by intros; rfl) r total s
@[simp] theorem journalOpen_banks (r : Request) (total : Nat) (s : State) : (journalOpen r total s).banks = s.banks :=
  journalOpen_keep (·.banks) (by intros; rfl) r total s
@[simp] theorem journalOpen_params (r : Request) (total : Nat) (s : State) : (journalOpen r total s).params = s.params :=
  journalOpen_keep (·.params) (by intros; rfl) r total s
@[simp] theorem journalOpen_booted (r : Request) (total : Nat) (s : State) : (journalOpen r total s).booted = s.booted :=
  journalOpen_keep (·.booted) (by intros; rfl) r total s
@[simp] theorem journalOpen_modeEntry (r : Request) (total : Nat) (s : State) : (journalOpen r total s).modeEntry = s.modeEntry :=
  journalOpen_keep (·.modeEntry) (by intros; rfl) r total s
@[simp] theorem journalOpen_scribe (r : Request) (total : Nat) (s : State) : (journalOpen r total s).scribe = s.scribe :=
  journalOpen_keep (·.scribe) (by intros; rfl) r total s
@[simp] theorem journalOpen_evq (r : Request) (total : Nat) (s : State) : (journalOpen r total s).evq = s.evq :=
  journalOpen_keep (·.evq) (by intros; rfl) r total s
@[simp] theorem journalOpen_log (r : Request) (total : Nat) (s : State) : (journalOpen r total s).log = s.log :=
  journalOpen_keep (·.log) (by intros; rfl) r total s
@[simp] theorem journalOpen_firmware (r : Request) (total : Nat) (s : State) : (journalOpen r total s).firmware = s.firmware :=
  journalOpen_keep (·.firmware) (by intros; rfl) r total s
@[simp] theorem journalOpen_ports (r : Request) (total : Nat) (s : State) : (journalOpen r total s).ports = s.ports :=
  journalOpen_keep (·.ports) (by intros; rfl) r total s
@[simp] theorem journalOpen_herder (r : Request) (total : Nat) (s : State) : (journalOpen r total s).herder = s.herder :=
  journalOpen_keep (·.herder) (by intros; rfl) r total s
@[simp] theorem journalOpen_serif (r : Request) (total : Nat) (s : State) : (journalOpen r total s).serif = s.serif :=
  journalOpen_keep (·.serif) (by intros; rfl) r total s
@[simp] theorem journalOpen_raman (r : Request) (total : Nat) (s : State) : (journalOpen r total s).raman = s.raman :=
  journalOpen_keep (·.raman) (by intros; rfl) r total s
@[simp] theorem journalOpen_rtd (r : Request) (total : Nat) (s : State) : (journalOpen r total s).rtd = s.rtd :=
  journalOpen_keep (·.rtd) (by intros; rfl) r total s
@[simp] theorem journalOpen_hk (r : Request) (total : Nat) (s : State) : (journalOpen r total s).hk = s.hk :=
  journalOpen_keep (·.hk) (by intros; rfl) r total s
@[simp] theorem journalOpen_pointer (r : Request) (total : Nat) (s : State) : (journalOpen r total s).pointer = s.pointer :=
  journalOpen_keep (·.pointer) (by intros; rfl) r total s
@[simp] theorem journalOpen_inkstone (r : Request) (total : Nat) (s : State) : (journalOpen r total s).inkstone = s.inkstone :=
  journalOpen_keep (·.inkstone) (by intros; rfl) r total s
@[simp] theorem journalOpen_memory (r : Request) (total : Nat) (s : State) : (journalOpen r total s).memory = s.memory :=
  journalOpen_keep (·.memory) (by intros; rfl) r total s
@[simp] theorem journalOpen_time (r : Request) (total : Nat) (s : State) : (journalOpen r total s).time = s.time :=
  journalOpen_keep (·.time) (by intros; rfl) r total s
@[simp] theorem journalOpen_links (r : Request) (total : Nat) (s : State) : (journalOpen r total s).links = s.links :=
  journalOpen_keep (·.links) (by intros; rfl) r total s
@[simp] theorem journalOpen_pair (r : Request) (total : Nat) (s : State) : (journalOpen r total s).pair = s.pair :=
  journalOpen_keep (·.pair) (by intros; rfl) r total s
@[simp] theorem journalOpen_safety (r : Request) (total : Nat) (s : State) : (journalOpen r total s).safety = s.safety :=
  journalOpen_keep (·.safety) (by intros; rfl) r total s
@[simp] theorem journalOpen_calib (r : Request) (total : Nat) (s : State) : (journalOpen r total s).calib = s.calib :=
  journalOpen_keep (·.calib) (by intros; rfl) r total s
@[simp] theorem journalOpen_ticks (r : Request) (total : Nat) (s : State) : (journalOpen r total s).ticks = s.ticks :=
  journalOpen_keep (·.ticks) (by intros; rfl) r total s
@[simp] theorem journalOpen_free (r : Request) (total : Nat) (s : State) : (journalOpen r total s).free = s.free :=
  journalOpen_keep (·.free) (by intros; rfl) r total s
@[simp] theorem journalOpen_pending (r : Request) (total : Nat) (s : State) : (journalOpen r total s).pending = s.pending :=
  journalOpen_keep (·.pending) (by intros; rfl) r total s
@[simp] theorem journalStep_power (n : Nat) (s : State) : (journalStep n s).power = s.power := journalStep_keep (·.power) (by intros; rfl) n s
@[simp] theorem journalStep_clocks (n : Nat) (s : State) : (journalStep n s).clocks = s.clocks := journalStep_keep (·.clocks) (by intros; rfl) n s
@[simp] theorem journalStep_straps (n : Nat) (s : State) : (journalStep n s).straps = s.straps := journalStep_keep (·.straps) (by intros; rfl) n s
@[simp] theorem journalStep_pins (n : Nat) (s : State) : (journalStep n s).pins = s.pins := journalStep_keep (·.pins) (by intros; rfl) n s
@[simp] theorem journalStep_mode (n : Nat) (s : State) : (journalStep n s).mode = s.mode := journalStep_keep (·.mode) (by intros; rfl) n s
@[simp] theorem journalStep_banks (n : Nat) (s : State) : (journalStep n s).banks = s.banks := journalStep_keep (·.banks) (by intros; rfl) n s
@[simp] theorem journalStep_booted (n : Nat) (s : State) : (journalStep n s).booted = s.booted := journalStep_keep (·.booted) (by intros; rfl) n s
@[simp] theorem journalStep_modeEntry (n : Nat) (s : State) : (journalStep n s).modeEntry = s.modeEntry :=
  journalStep_keep (·.modeEntry) (by intros; rfl) n s
@[simp] theorem journalStep_scribe (n : Nat) (s : State) : (journalStep n s).scribe = s.scribe := journalStep_keep (·.scribe) (by intros; rfl) n s
@[simp] theorem journalStep_firmware (n : Nat) (s : State) : (journalStep n s).firmware = s.firmware :=
  journalStep_keep (·.firmware) (by intros; rfl) n s
@[simp] theorem journalStep_ports (n : Nat) (s : State) : (journalStep n s).ports = s.ports := journalStep_keep (·.ports) (by intros; rfl) n s
@[simp] theorem journalStep_herder (n : Nat) (s : State) : (journalStep n s).herder = s.herder := journalStep_keep (·.herder) (by intros; rfl) n s
@[simp] theorem journalStep_serif (n : Nat) (s : State) : (journalStep n s).serif = s.serif := journalStep_keep (·.serif) (by intros; rfl) n s
@[simp] theorem journalStep_raman (n : Nat) (s : State) : (journalStep n s).raman = s.raman := journalStep_keep (·.raman) (by intros; rfl) n s
@[simp] theorem journalStep_rtd (n : Nat) (s : State) : (journalStep n s).rtd = s.rtd := journalStep_keep (·.rtd) (by intros; rfl) n s
@[simp] theorem journalStep_hk (n : Nat) (s : State) : (journalStep n s).hk = s.hk := journalStep_keep (·.hk) (by intros; rfl) n s
@[simp] theorem journalStep_pointer (n : Nat) (s : State) : (journalStep n s).pointer = s.pointer := journalStep_keep (·.pointer) (by intros; rfl) n s
@[simp] theorem journalStep_inkstone (n : Nat) (s : State) : (journalStep n s).inkstone = s.inkstone :=
  journalStep_keep (·.inkstone) (by intros; rfl) n s
@[simp] theorem journalStep_memory (n : Nat) (s : State) : (journalStep n s).memory = s.memory := journalStep_keep (·.memory) (by intros; rfl) n s
@[simp] theorem journalStep_time (n : Nat) (s : State) : (journalStep n s).time = s.time := journalStep_keep (·.time) (by intros; rfl) n s
@[simp] theorem journalStep_safety (n : Nat) (s : State) : (journalStep n s).safety = s.safety := journalStep_keep (·.safety) (by intros; rfl) n s
@[simp] theorem journalStep_calib (n : Nat) (s : State) : (journalStep n s).calib = s.calib := journalStep_keep (·.calib) (by intros; rfl) n s
@[simp] theorem journalStep_ticks (n : Nat) (s : State) : (journalStep n s).ticks = s.ticks := journalStep_keep (·.ticks) (by intros; rfl) n s
@[simp] theorem journalStep_free (n : Nat) (s : State) : (journalStep n s).free = s.free := journalStep_keep (·.free) (by intros; rfl) n s
@[simp] theorem journalStep_pending (n : Nat) (s : State) : (journalStep n s).pending = s.pending := journalStep_keep (·.pending) (by intros; rfl) n s
@[simp] theorem journalEnd_power (n : Nat) (j : JState) (status : Nat) (detail : Nat) (s : State) : (journalEnd n j status detail s).power = s.power :=
  journalEnd_keep (·.power) (by intros; rfl) n j status detail s
@[simp] theorem journalEnd_clocks (n : Nat) (j : JState) (status : Nat) (detail : Nat) (s : State) : (journalEnd n j status detail s).clocks = s.clocks :=
  journalEnd_keep (·.clocks) (by intros; rfl) n j status detail s
@[simp] theorem journalEnd_straps (n : Nat) (j : JState) (status : Nat) (detail : Nat) (s : State) : (journalEnd n j status detail s).straps = s.straps :=
  journalEnd_keep (·.straps) (by intros; rfl) n j status detail s
@[simp] theorem journalEnd_pins (n : Nat) (j : JState) (status : Nat) (detail : Nat) (s : State) : (journalEnd n j status detail s).pins = s.pins :=
  journalEnd_keep (·.pins) (by intros; rfl) n j status detail s
@[simp] theorem journalEnd_mode (n : Nat) (j : JState) (status : Nat) (detail : Nat) (s : State) : (journalEnd n j status detail s).mode = s.mode :=
  journalEnd_keep (·.mode) (by intros; rfl) n j status detail s
@[simp] theorem journalEnd_banks (n : Nat) (j : JState) (status : Nat) (detail : Nat) (s : State) : (journalEnd n j status detail s).banks = s.banks :=
  journalEnd_keep (·.banks) (by intros; rfl) n j status detail s
@[simp] theorem journalEnd_booted (n : Nat) (j : JState) (status : Nat) (detail : Nat) (s : State) : (journalEnd n j status detail s).booted = s.booted :=
  journalEnd_keep (·.booted) (by intros; rfl) n j status detail s
@[simp] theorem journalEnd_modeEntry (n : Nat) (j : JState) (status : Nat) (detail : Nat) (s : State) : (journalEnd n j status detail s).modeEntry = s.modeEntry :=
  journalEnd_keep (·.modeEntry) (by intros; rfl) n j status detail s
@[simp] theorem journalEnd_scribe_ready (n : Nat) (j : JState) (status : Nat) (detail : Nat) (s : State) : (journalEnd n j status detail s).scribe.ready = s.scribe.ready :=
  journalEnd_keep (·.scribe.ready) (by intros; rfl) n j status detail s
@[simp] theorem journalEnd_scribe_restarting (n : Nat) (j : JState) (status : Nat) (detail : Nat) (s : State) : (journalEnd n j status detail s).scribe.restarting = s.scribe.restarting :=
  journalEnd_keep (·.scribe.restarting) (by intros; rfl) n j status detail s
@[simp] theorem journalEnd_scribe_heartbeat (n : Nat) (j : JState) (status : Nat) (detail : Nat) (s : State) : (journalEnd n j status detail s).scribe.heartbeat = s.scribe.heartbeat :=
  journalEnd_keep (·.scribe.heartbeat) (by intros; rfl) n j status detail s
@[simp] theorem journalEnd_scribe_queue (n : Nat) (j : JState) (status : Nat) (detail : Nat) (s : State) : (journalEnd n j status detail s).scribe.queue = s.scribe.queue :=
  journalEnd_keep (·.scribe.queue) (by intros; rfl) n j status detail s
@[simp] theorem journalEnd_scribe_sessions (n : Nat) (j : JState) (status : Nat) (detail : Nat) (s : State) : (journalEnd n j status detail s).scribe.sessions = s.scribe.sessions :=
  journalEnd_keep (·.scribe.sessions) (by intros; rfl) n j status detail s
@[simp] theorem journalEnd_scribe_scratch (n : Nat) (j : JState) (status : Nat) (detail : Nat) (s : State) : (journalEnd n j status detail s).scribe.scratch = s.scribe.scratch :=
  journalEnd_keep (·.scribe.scratch) (by intros; rfl) n j status detail s
@[simp] theorem journalEnd_firmware (n : Nat) (j : JState) (status : Nat) (detail : Nat) (s : State) : (journalEnd n j status detail s).firmware = s.firmware :=
  journalEnd_keep (·.firmware) (by intros; rfl) n j status detail s
@[simp] theorem journalEnd_ports (n : Nat) (j : JState) (status : Nat) (detail : Nat) (s : State) : (journalEnd n j status detail s).ports = s.ports :=
  journalEnd_keep (·.ports) (by intros; rfl) n j status detail s
@[simp] theorem journalEnd_herder (n : Nat) (j : JState) (status : Nat) (detail : Nat) (s : State) : (journalEnd n j status detail s).herder = s.herder :=
  journalEnd_keep (·.herder) (by intros; rfl) n j status detail s
@[simp] theorem journalEnd_serif (n : Nat) (j : JState) (status : Nat) (detail : Nat) (s : State) : (journalEnd n j status detail s).serif = s.serif :=
  journalEnd_keep (·.serif) (by intros; rfl) n j status detail s
@[simp] theorem journalEnd_raman (n : Nat) (j : JState) (status : Nat) (detail : Nat) (s : State) : (journalEnd n j status detail s).raman = s.raman :=
  journalEnd_keep (·.raman) (by intros; rfl) n j status detail s
@[simp] theorem journalEnd_rtd (n : Nat) (j : JState) (status : Nat) (detail : Nat) (s : State) : (journalEnd n j status detail s).rtd = s.rtd :=
  journalEnd_keep (·.rtd) (by intros; rfl) n j status detail s
@[simp] theorem journalEnd_hk (n : Nat) (j : JState) (status : Nat) (detail : Nat) (s : State) : (journalEnd n j status detail s).hk = s.hk :=
  journalEnd_keep (·.hk) (by intros; rfl) n j status detail s
@[simp] theorem journalEnd_pointer (n : Nat) (j : JState) (status : Nat) (detail : Nat) (s : State) : (journalEnd n j status detail s).pointer = s.pointer :=
  journalEnd_keep (·.pointer) (by intros; rfl) n j status detail s
@[simp] theorem journalEnd_inkstone (n : Nat) (j : JState) (status : Nat) (detail : Nat) (s : State) : (journalEnd n j status detail s).inkstone = s.inkstone :=
  journalEnd_keep (·.inkstone) (by intros; rfl) n j status detail s
@[simp] theorem journalEnd_memory (n : Nat) (j : JState) (status : Nat) (detail : Nat) (s : State) : (journalEnd n j status detail s).memory = s.memory :=
  journalEnd_keep (·.memory) (by intros; rfl) n j status detail s
@[simp] theorem journalEnd_time (n : Nat) (j : JState) (status : Nat) (detail : Nat) (s : State) : (journalEnd n j status detail s).time = s.time :=
  journalEnd_keep (·.time) (by intros; rfl) n j status detail s
@[simp] theorem journalEnd_safety (n : Nat) (j : JState) (status : Nat) (detail : Nat) (s : State) : (journalEnd n j status detail s).safety = s.safety :=
  journalEnd_keep (·.safety) (by intros; rfl) n j status detail s
@[simp] theorem journalEnd_calib (n : Nat) (j : JState) (status : Nat) (detail : Nat) (s : State) : (journalEnd n j status detail s).calib = s.calib :=
  journalEnd_keep (·.calib) (by intros; rfl) n j status detail s
@[simp] theorem journalEnd_ticks (n : Nat) (j : JState) (status : Nat) (detail : Nat) (s : State) : (journalEnd n j status detail s).ticks = s.ticks :=
  journalEnd_keep (·.ticks) (by intros; rfl) n j status detail s
@[simp] theorem journalEnd_free (n : Nat) (j : JState) (status : Nat) (detail : Nat) (s : State) : (journalEnd n j status detail s).free = s.free :=
  journalEnd_keep (·.free) (by intros; rfl) n j status detail s
@[simp] theorem journalEnd_pending (n : Nat) (j : JState) (status : Nat) (detail : Nat) (s : State) : (journalEnd n j status detail s).pending = s.pending :=
  journalEnd_keep (·.pending) (by intros; rfl) n j status detail s
@[simp] theorem answerOk_power (r : Request) (s : State) : (answerOk r s).power = s.power := answerOk_keep (·.power) (by intros; rfl) r s
@[simp] theorem answerOk_clocks (r : Request) (s : State) : (answerOk r s).clocks = s.clocks := answerOk_keep (·.clocks) (by intros; rfl) r s
@[simp] theorem answerOk_straps (r : Request) (s : State) : (answerOk r s).straps = s.straps := answerOk_keep (·.straps) (by intros; rfl) r s
@[simp] theorem answerOk_pins (r : Request) (s : State) : (answerOk r s).pins = s.pins := answerOk_keep (·.pins) (by intros; rfl) r s
@[simp] theorem answerOk_mode (r : Request) (s : State) : (answerOk r s).mode = s.mode := answerOk_keep (·.mode) (by intros; rfl) r s
@[simp] theorem answerOk_banks (r : Request) (s : State) : (answerOk r s).banks = s.banks := answerOk_keep (·.banks) (by intros; rfl) r s
@[simp] theorem answerOk_params (r : Request) (s : State) : (answerOk r s).params = s.params := answerOk_keep (·.params) (by intros; rfl) r s
@[simp] theorem answerOk_booted (r : Request) (s : State) : (answerOk r s).booted = s.booted := answerOk_keep (·.booted) (by intros; rfl) r s
@[simp] theorem answerOk_modeEntry (r : Request) (s : State) : (answerOk r s).modeEntry = s.modeEntry :=
  answerOk_keep (·.modeEntry) (by intros; rfl) r s
@[simp] theorem answerOk_scribe_ready (r : Request) (s : State) : (answerOk r s).scribe.ready = s.scribe.ready :=
  answerOk_keep (·.scribe.ready) (by intros; rfl) r s
@[simp] theorem answerOk_scribe_restarting (r : Request) (s : State) : (answerOk r s).scribe.restarting = s.scribe.restarting :=
  answerOk_keep (·.scribe.restarting) (by intros; rfl) r s
@[simp] theorem answerOk_scribe_heartbeat (r : Request) (s : State) : (answerOk r s).scribe.heartbeat = s.scribe.heartbeat :=
  answerOk_keep (·.scribe.heartbeat) (by intros; rfl) r s
@[simp] theorem answerOk_scribe_queue (r : Request) (s : State) : (answerOk r s).scribe.queue = s.scribe.queue :=
  answerOk_keep (·.scribe.queue) (by intros; rfl) r s
@[simp] theorem answerOk_scribe_page (r : Request) (s : State) : (answerOk r s).scribe.page = s.scribe.page :=
  answerOk_keep (·.scribe.page) (by intros; rfl) r s
@[simp] theorem answerOk_scribe_sessions (r : Request) (s : State) : (answerOk r s).scribe.sessions = s.scribe.sessions :=
  answerOk_keep (·.scribe.sessions) (by intros; rfl) r s
@[simp] theorem answerOk_scribe_scratch (r : Request) (s : State) : (answerOk r s).scribe.scratch = s.scribe.scratch :=
  answerOk_keep (·.scribe.scratch) (by intros; rfl) r s
@[simp] theorem answerOk_evq (r : Request) (s : State) : (answerOk r s).evq = s.evq := answerOk_keep (·.evq) (by intros; rfl) r s
@[simp] theorem answerOk_journal (r : Request) (s : State) : (answerOk r s).journal = s.journal := answerOk_keep (·.journal) (by intros; rfl) r s
@[simp] theorem answerOk_log (r : Request) (s : State) : (answerOk r s).log = s.log := answerOk_keep (·.log) (by intros; rfl) r s
@[simp] theorem answerOk_firmware (r : Request) (s : State) : (answerOk r s).firmware = s.firmware := answerOk_keep (·.firmware) (by intros; rfl) r s
@[simp] theorem answerOk_ports (r : Request) (s : State) : (answerOk r s).ports = s.ports := answerOk_keep (·.ports) (by intros; rfl) r s
@[simp] theorem answerOk_herder (r : Request) (s : State) : (answerOk r s).herder = s.herder := answerOk_keep (·.herder) (by intros; rfl) r s
@[simp] theorem answerOk_serif (r : Request) (s : State) : (answerOk r s).serif = s.serif := answerOk_keep (·.serif) (by intros; rfl) r s
@[simp] theorem answerOk_raman (r : Request) (s : State) : (answerOk r s).raman = s.raman := answerOk_keep (·.raman) (by intros; rfl) r s
@[simp] theorem answerOk_rtd (r : Request) (s : State) : (answerOk r s).rtd = s.rtd := answerOk_keep (·.rtd) (by intros; rfl) r s
@[simp] theorem answerOk_hk (r : Request) (s : State) : (answerOk r s).hk = s.hk := answerOk_keep (·.hk) (by intros; rfl) r s
@[simp] theorem answerOk_pointer (r : Request) (s : State) : (answerOk r s).pointer = s.pointer := answerOk_keep (·.pointer) (by intros; rfl) r s
@[simp] theorem answerOk_inkstone (r : Request) (s : State) : (answerOk r s).inkstone = s.inkstone := answerOk_keep (·.inkstone) (by intros; rfl) r s
@[simp] theorem answerOk_memory (r : Request) (s : State) : (answerOk r s).memory = s.memory := answerOk_keep (·.memory) (by intros; rfl) r s
@[simp] theorem answerOk_time (r : Request) (s : State) : (answerOk r s).time = s.time := answerOk_keep (·.time) (by intros; rfl) r s
@[simp] theorem answerOk_safety (r : Request) (s : State) : (answerOk r s).safety = s.safety := answerOk_keep (·.safety) (by intros; rfl) r s
@[simp] theorem answerOk_calib (r : Request) (s : State) : (answerOk r s).calib = s.calib := answerOk_keep (·.calib) (by intros; rfl) r s
@[simp] theorem answerOk_ticks (r : Request) (s : State) : (answerOk r s).ticks = s.ticks := answerOk_keep (·.ticks) (by intros; rfl) r s
@[simp] theorem answerOk_free (r : Request) (s : State) : (answerOk r s).free = s.free := answerOk_keep (·.free) (by intros; rfl) r s
@[simp] theorem answerOk_pending (r : Request) (s : State) : (answerOk r s).pending = s.pending := answerOk_keep (·.pending) (by intros; rfl) r s
@[simp] theorem tell_power (code : Nat) (a0 : Int) (a1 : Int) (a2 : Int) (s : State) : (tell code a0 a1 a2 s).power = s.power :=
  tell_keep (·.power) (by intros; rfl) code a0 a1 a2 s
@[simp] theorem tell_clocks (code : Nat) (a0 : Int) (a1 : Int) (a2 : Int) (s : State) : (tell code a0 a1 a2 s).clocks = s.clocks :=
  tell_keep (·.clocks) (by intros; rfl) code a0 a1 a2 s
@[simp] theorem tell_straps (code : Nat) (a0 : Int) (a1 : Int) (a2 : Int) (s : State) : (tell code a0 a1 a2 s).straps = s.straps :=
  tell_keep (·.straps) (by intros; rfl) code a0 a1 a2 s
@[simp] theorem tell_pins (code : Nat) (a0 : Int) (a1 : Int) (a2 : Int) (s : State) : (tell code a0 a1 a2 s).pins = s.pins :=
  tell_keep (·.pins) (by intros; rfl) code a0 a1 a2 s
@[simp] theorem tell_mode (code : Nat) (a0 : Int) (a1 : Int) (a2 : Int) (s : State) : (tell code a0 a1 a2 s).mode = s.mode :=
  tell_keep (·.mode) (by intros; rfl) code a0 a1 a2 s
@[simp] theorem tell_banks (code : Nat) (a0 : Int) (a1 : Int) (a2 : Int) (s : State) : (tell code a0 a1 a2 s).banks = s.banks :=
  tell_keep (·.banks) (by intros; rfl) code a0 a1 a2 s
@[simp] theorem tell_booted (code : Nat) (a0 : Int) (a1 : Int) (a2 : Int) (s : State) : (tell code a0 a1 a2 s).booted = s.booted :=
  tell_keep (·.booted) (by intros; rfl) code a0 a1 a2 s
@[simp] theorem tell_modeEntry (code : Nat) (a0 : Int) (a1 : Int) (a2 : Int) (s : State) : (tell code a0 a1 a2 s).modeEntry = s.modeEntry :=
  tell_keep (·.modeEntry) (by intros; rfl) code a0 a1 a2 s
@[simp] theorem tell_journal (code : Nat) (a0 : Int) (a1 : Int) (a2 : Int) (s : State) : (tell code a0 a1 a2 s).journal = s.journal :=
  tell_keep (·.journal) (by intros; rfl) code a0 a1 a2 s
@[simp] theorem tell_firmware (code : Nat) (a0 : Int) (a1 : Int) (a2 : Int) (s : State) : (tell code a0 a1 a2 s).firmware = s.firmware :=
  tell_keep (·.firmware) (by intros; rfl) code a0 a1 a2 s
@[simp] theorem tell_ports (code : Nat) (a0 : Int) (a1 : Int) (a2 : Int) (s : State) : (tell code a0 a1 a2 s).ports = s.ports :=
  tell_keep (·.ports) (by intros; rfl) code a0 a1 a2 s
@[simp] theorem tell_herder (code : Nat) (a0 : Int) (a1 : Int) (a2 : Int) (s : State) : (tell code a0 a1 a2 s).herder = s.herder :=
  tell_keep (·.herder) (by intros; rfl) code a0 a1 a2 s
@[simp] theorem tell_serif (code : Nat) (a0 : Int) (a1 : Int) (a2 : Int) (s : State) : (tell code a0 a1 a2 s).serif = s.serif :=
  tell_keep (·.serif) (by intros; rfl) code a0 a1 a2 s
@[simp] theorem tell_raman (code : Nat) (a0 : Int) (a1 : Int) (a2 : Int) (s : State) : (tell code a0 a1 a2 s).raman = s.raman :=
  tell_keep (·.raman) (by intros; rfl) code a0 a1 a2 s
@[simp] theorem tell_rtd (code : Nat) (a0 : Int) (a1 : Int) (a2 : Int) (s : State) : (tell code a0 a1 a2 s).rtd = s.rtd :=
  tell_keep (·.rtd) (by intros; rfl) code a0 a1 a2 s
@[simp] theorem tell_hk (code : Nat) (a0 : Int) (a1 : Int) (a2 : Int) (s : State) : (tell code a0 a1 a2 s).hk = s.hk :=
  tell_keep (·.hk) (by intros; rfl) code a0 a1 a2 s
@[simp] theorem tell_pointer (code : Nat) (a0 : Int) (a1 : Int) (a2 : Int) (s : State) : (tell code a0 a1 a2 s).pointer = s.pointer :=
  tell_keep (·.pointer) (by intros; rfl) code a0 a1 a2 s
@[simp] theorem tell_inkstone (code : Nat) (a0 : Int) (a1 : Int) (a2 : Int) (s : State) : (tell code a0 a1 a2 s).inkstone = s.inkstone :=
  tell_keep (·.inkstone) (by intros; rfl) code a0 a1 a2 s
@[simp] theorem tell_memory (code : Nat) (a0 : Int) (a1 : Int) (a2 : Int) (s : State) : (tell code a0 a1 a2 s).memory = s.memory :=
  tell_keep (·.memory) (by intros; rfl) code a0 a1 a2 s
@[simp] theorem tell_time (code : Nat) (a0 : Int) (a1 : Int) (a2 : Int) (s : State) : (tell code a0 a1 a2 s).time = s.time :=
  tell_keep (·.time) (by intros; rfl) code a0 a1 a2 s
@[simp] theorem tell_pair_own (code : Nat) (a0 : Int) (a1 : Int) (a2 : Int) (s : State) : (tell code a0 a1 a2 s).pair.own = s.pair.own :=
  tell_keep (·.pair.own) (by intros; rfl) code a0 a1 a2 s
@[simp] theorem tell_pair_driving (code : Nat) (a0 : Int) (a1 : Int) (a2 : Int) (s : State) : (tell code a0 a1 a2 s).pair.driving = s.pair.driving :=
  tell_keep (·.pair.driving) (by intros; rfl) code a0 a1 a2 s
@[simp] theorem tell_pair_ilkHeld (code : Nat) (a0 : Int) (a1 : Int) (a2 : Int) (s : State) : (tell code a0 a1 a2 s).pair.ilkHeld = s.pair.ilkHeld :=
  tell_keep (·.pair.ilkHeld) (by intros; rfl) code a0 a1 a2 s
@[simp] theorem tell_pair_peerPresent (code : Nat) (a0 : Int) (a1 : Int) (a2 : Int) (s : State) : (tell code a0 a1 a2 s).pair.peerPresent = s.pair.peerPresent :=
  tell_keep (·.pair.peerPresent) (by intros; rfl) code a0 a1 a2 s
@[simp] theorem tell_pair_idConflict (code : Nat) (a0 : Int) (a1 : Int) (a2 : Int) (s : State) : (tell code a0 a1 a2 s).pair.idConflict = s.pair.idConflict :=
  tell_keep (·.pair.idConflict) (by intros; rfl) code a0 a1 a2 s
@[simp] theorem tell_pair_step (code : Nat) (a0 : Int) (a1 : Int) (a2 : Int) (s : State) : (tell code a0 a1 a2 s).pair.step = s.pair.step :=
  tell_keep (·.pair.step) (by intros; rfl) code a0 a1 a2 s
@[simp] theorem tell_pair_release (code : Nat) (a0 : Int) (a1 : Int) (a2 : Int) (s : State) : (tell code a0 a1 a2 s).pair.release = s.pair.release :=
  tell_keep (·.pair.release) (by intros; rfl) code a0 a1 a2 s
@[simp] theorem tell_safety (code : Nat) (a0 : Int) (a1 : Int) (a2 : Int) (s : State) : (tell code a0 a1 a2 s).safety = s.safety :=
  tell_keep (·.safety) (by intros; rfl) code a0 a1 a2 s
@[simp] theorem tell_calib (code : Nat) (a0 : Int) (a1 : Int) (a2 : Int) (s : State) : (tell code a0 a1 a2 s).calib = s.calib :=
  tell_keep (·.calib) (by intros; rfl) code a0 a1 a2 s
@[simp] theorem tell_ticks (code : Nat) (a0 : Int) (a1 : Int) (a2 : Int) (s : State) : (tell code a0 a1 a2 s).ticks = s.ticks :=
  tell_keep (·.ticks) (by intros; rfl) code a0 a1 a2 s
@[simp] theorem tell_free (code : Nat) (a0 : Int) (a1 : Int) (a2 : Int) (s : State) : (tell code a0 a1 a2 s).free = s.free :=
  tell_keep (·.free) (by intros; rfl) code a0 a1 a2 s
@[simp] theorem tell_pending (code : Nat) (a0 : Int) (a1 : Int) (a2 : Int) (s : State) : (tell code a0 a1 a2 s).pending = s.pending :=
  tell_keep (·.pending) (by intros; rfl) code a0 a1 a2 s
@[simp] theorem cutHandover_mode (status : Nat) (s : State) : (cutHandover status s).mode = s.mode :=
  cutHandover_keep (·.mode) (by intros; rfl) status s
@[simp] theorem stopDriving_power (s : State) : (stopDriving s).power = s.power := stopDriving_keep (·.power) (by intros; rfl) s
@[simp] theorem stopDriving_mode (s : State) : (stopDriving s).mode = s.mode := stopDriving_keep (·.mode) (by intros; rfl) s
@[simp] theorem stopDriving_links (s : State) : (stopDriving s).links = s.links := stopDriving_keep (·.links) (by intros; rfl) s
@[simp] theorem modeLeash_mode (s : State) : (modeLeash s).mode = s.mode := modeLeash_keep (·.mode) (by intros; rfl) s
@[simp] theorem modeLeash_banks (s : State) : (modeLeash s).banks = s.banks := modeLeash_keep (·.banks) (by intros; rfl) s
@[simp] theorem modeLeash_links (s : State) : (modeLeash s).links = s.links := modeLeash_keep (·.links) (by intros; rfl) s
@[simp] theorem modeLeash_safety (s : State) : (modeLeash s).safety = s.safety := modeLeash_keep (·.safety) (by intros; rfl) s
@[simp] theorem cutPort_power (lead : Nat → Bool) (p : Nat) (s : State) : (cutPort lead p s).power = s.power :=
  cutPort_keep (·.power) (by intros; rfl) lead p s
@[simp] theorem cutPort_clocks (lead : Nat → Bool) (p : Nat) (s : State) : (cutPort lead p s).clocks = s.clocks :=
  cutPort_keep (·.clocks) (by intros; rfl) lead p s
@[simp] theorem cutPort_mode (lead : Nat → Bool) (p : Nat) (s : State) : (cutPort lead p s).mode = s.mode :=
  cutPort_keep (·.mode) (by intros; rfl) lead p s
@[simp] theorem cutPort_banks (lead : Nat → Bool) (p : Nat) (s : State) : (cutPort lead p s).banks = s.banks :=
  cutPort_keep (·.banks) (by intros; rfl) lead p s
@[simp] theorem settle_power (old : State) (s : State) : (settle old s).power = s.power := settle_keep (·.power) (by intros; rfl) old s
@[simp] theorem settle_clocks (old : State) (s : State) : (settle old s).clocks = s.clocks := settle_keep (·.clocks) (by intros; rfl) old s
@[simp] theorem settle_straps (old : State) (s : State) : (settle old s).straps = s.straps := settle_keep (·.straps) (by intros; rfl) old s
@[simp] theorem settle_pins (old : State) (s : State) : (settle old s).pins = s.pins := settle_keep (·.pins) (by intros; rfl) old s
@[simp] theorem settle_banks (old : State) (s : State) : (settle old s).banks = s.banks := settle_keep (·.banks) (by intros; rfl) old s
@[simp] theorem settle_booted (old : State) (s : State) : (settle old s).booted = s.booted := settle_keep (·.booted) (by intros; rfl) old s
@[simp] theorem settle_modeEntry (old : State) (s : State) : (settle old s).modeEntry = s.modeEntry :=
  settle_keep (·.modeEntry) (by intros; rfl) old s
@[simp] theorem settle_scribe (old : State) (s : State) : (settle old s).scribe = s.scribe := settle_keep (·.scribe) (by intros; rfl) old s
@[simp] theorem settle_evq (old : State) (s : State) : (settle old s).evq = s.evq := settle_keep (·.evq) (by intros; rfl) old s
@[simp] theorem settle_journal (old : State) (s : State) : (settle old s).journal = s.journal := settle_keep (·.journal) (by intros; rfl) old s
@[simp] theorem settle_firmware (old : State) (s : State) : (settle old s).firmware = s.firmware := settle_keep (·.firmware) (by intros; rfl) old s
@[simp] theorem settle_herder (old : State) (s : State) : (settle old s).herder = s.herder := settle_keep (·.herder) (by intros; rfl) old s
@[simp] theorem settle_serif (old : State) (s : State) : (settle old s).serif = s.serif := settle_keep (·.serif) (by intros; rfl) old s
@[simp] theorem settle_rtd (old : State) (s : State) : (settle old s).rtd = s.rtd := settle_keep (·.rtd) (by intros; rfl) old s
@[simp] theorem settle_hk (old : State) (s : State) : (settle old s).hk = s.hk := settle_keep (·.hk) (by intros; rfl) old s
@[simp] theorem settle_pointer (old : State) (s : State) : (settle old s).pointer = s.pointer := settle_keep (·.pointer) (by intros; rfl) old s
@[simp] theorem settle_inkstone (old : State) (s : State) : (settle old s).inkstone = s.inkstone := settle_keep (·.inkstone) (by intros; rfl) old s
@[simp] theorem settle_memory (old : State) (s : State) : (settle old s).memory = s.memory := settle_keep (·.memory) (by intros; rfl) old s
@[simp] theorem settle_time (old : State) (s : State) : (settle old s).time = s.time := settle_keep (·.time) (by intros; rfl) old s
@[simp] theorem settle_links (old : State) (s : State) : (settle old s).links = s.links := settle_keep (·.links) (by intros; rfl) old s
@[simp] theorem settle_calib (old : State) (s : State) : (settle old s).calib = s.calib := settle_keep (·.calib) (by intros; rfl) old s
@[simp] theorem settle_ticks (old : State) (s : State) : (settle old s).ticks = s.ticks := settle_keep (·.ticks) (by intros; rfl) old s
@[simp] theorem settle_free (old : State) (s : State) : (settle old s).free = s.free := settle_keep (·.free) (by intros; rfl) old s
@[simp] theorem settle_pending (old : State) (s : State) : (settle old s).pending = s.pending := settle_keep (·.pending) (by intros; rfl) old s
@[simp] theorem scheduleJobs_journal (s : State) : (scheduleJobs s).journal = s.journal := scheduleJobs_keep (·.journal) (by intros; rfl) s
@[simp] theorem endJob_power (i : Nat) (reason : Nat) (s : State) : (endJob i reason s).power = s.power :=
  endJob_keep (·.power) (by intros; rfl) i reason s
@[simp] theorem endJob_clocks (i : Nat) (reason : Nat) (s : State) : (endJob i reason s).clocks = s.clocks :=
  endJob_keep (·.clocks) (by intros; rfl) i reason s
@[simp] theorem endJob_straps (i : Nat) (reason : Nat) (s : State) : (endJob i reason s).straps = s.straps :=
  endJob_keep (·.straps) (by intros; rfl) i reason s
@[simp] theorem endJob_pins (i : Nat) (reason : Nat) (s : State) : (endJob i reason s).pins = s.pins :=
  endJob_keep (·.pins) (by intros; rfl) i reason s
@[simp] theorem endJob_mode (i : Nat) (reason : Nat) (s : State) : (endJob i reason s).mode = s.mode :=
  endJob_keep (·.mode) (by intros; rfl) i reason s
@[simp] theorem endJob_banks (i : Nat) (reason : Nat) (s : State) : (endJob i reason s).banks = s.banks :=
  endJob_keep (·.banks) (by intros; rfl) i reason s
@[simp] theorem endJob_booted (i : Nat) (reason : Nat) (s : State) : (endJob i reason s).booted = s.booted :=
  endJob_keep (·.booted) (by intros; rfl) i reason s
@[simp] theorem endJob_modeEntry (i : Nat) (reason : Nat) (s : State) : (endJob i reason s).modeEntry = s.modeEntry :=
  endJob_keep (·.modeEntry) (by intros; rfl) i reason s
@[simp] theorem endJob_ports (i : Nat) (reason : Nat) (s : State) : (endJob i reason s).ports = s.ports :=
  endJob_keep (·.ports) (by intros; rfl) i reason s
@[simp] theorem endJob_raman (i : Nat) (reason : Nat) (s : State) : (endJob i reason s).raman = s.raman :=
  endJob_keep (·.raman) (by intros; rfl) i reason s
@[simp] theorem endJob_rtd (i : Nat) (reason : Nat) (s : State) : (endJob i reason s).rtd = s.rtd := endJob_keep (·.rtd) (by intros; rfl) i reason s
@[simp] theorem endJob_hk (i : Nat) (reason : Nat) (s : State) : (endJob i reason s).hk = s.hk := endJob_keep (·.hk) (by intros; rfl) i reason s
@[simp] theorem endJob_memory (i : Nat) (reason : Nat) (s : State) : (endJob i reason s).memory = s.memory :=
  endJob_keep (·.memory) (by intros; rfl) i reason s
@[simp] theorem endJob_time (i : Nat) (reason : Nat) (s : State) : (endJob i reason s).time = s.time :=
  endJob_keep (·.time) (by intros; rfl) i reason s
@[simp] theorem endJob_safety (i : Nat) (reason : Nat) (s : State) : (endJob i reason s).safety = s.safety :=
  endJob_keep (·.safety) (by intros; rfl) i reason s
@[simp] theorem endJob_calib (i : Nat) (reason : Nat) (s : State) : (endJob i reason s).calib = s.calib :=
  endJob_keep (·.calib) (by intros; rfl) i reason s
@[simp] theorem endJob_ticks (i : Nat) (reason : Nat) (s : State) : (endJob i reason s).ticks = s.ticks :=
  endJob_keep (·.ticks) (by intros; rfl) i reason s
@[simp] theorem endJob_free (i : Nat) (reason : Nat) (s : State) : (endJob i reason s).free = s.free :=
  endJob_keep (·.free) (by intros; rfl) i reason s
@[simp] theorem endJob_pending (i : Nat) (reason : Nat) (s : State) : (endJob i reason s).pending = s.pending :=
  endJob_keep (·.pending) (by intros; rfl) i reason s
@[simp] theorem endJobs_pair_driving (f : ReplayJob → Bool) (reason : Nat) (s : State) : (endJobs f reason s).pair.driving = s.pair.driving :=
  endJobs_keep (·.pair.driving) (by intros; rfl) f reason s
@[simp] theorem endJobs_pair_ilkHeld (f : ReplayJob → Bool) (reason : Nat) (s : State) : (endJobs f reason s).pair.ilkHeld = s.pair.ilkHeld :=
  endJobs_keep (·.pair.ilkHeld) (by intros; rfl) f reason s
@[simp] theorem endJobs_pair_peerFailed (f : ReplayJob → Bool) (reason : Nat) (s : State) : (endJobs f reason s).pair.peerFailed = s.pair.peerFailed :=
  endJobs_keep (·.pair.peerFailed) (by intros; rfl) f reason s
@[simp] theorem endJobs_pair_cause (f : ReplayJob → Bool) (reason : Nat) (s : State) : (endJobs f reason s).pair.cause = s.pair.cause :=
  endJobs_keep (·.pair.cause) (by intros; rfl) f reason s
@[simp] theorem endJobs_pair_taking (f : ReplayJob → Bool) (reason : Nat) (s : State) : (endJobs f reason s).pair.taking = s.pair.taking :=
  endJobs_keep (·.pair.taking) (by intros; rfl) f reason s
@[simp] theorem endJobs_safety (f : ReplayJob → Bool) (reason : Nat) (s : State) : (endJobs f reason s).safety = s.safety :=
  endJobs_keep (·.safety) (by intros; rfl) f reason s
@[simp] theorem setMode_power (m : Mode) (n : Nat) (s : State) : (setMode m n s).power = s.power := setMode_keep (·.power) (by intros; rfl) m n s
@[simp] theorem setMode_scribe_ready (m : Mode) (n : Nat) (s : State) : (setMode m n s).scribe.ready = s.scribe.ready :=
  setMode_keep (·.scribe.ready) (by intros; rfl) m n s
@[simp] theorem setMode_ticks (m : Mode) (n : Nat) (s : State) : (setMode m n s).ticks = s.ticks := setMode_keep (·.ticks) (by intros; rfl) m n s
@[simp] theorem setMode_pending (m : Mode) (n : Nat) (s : State) : (setMode m n s).pending = s.pending :=
  setMode_keep (·.pending) (by intros; rfl) m n s
@[simp] theorem endOrigin_power (t : Transition) (j : JState) (status : Nat) (detail : Nat) (s : State) : (endOrigin t j status detail s).power = s.power :=
  endOrigin_keep (·.power) (by intros; rfl) t j status detail s
@[simp] theorem endOrigin_mode (t : Transition) (j : JState) (status : Nat) (detail : Nat) (s : State) : (endOrigin t j status detail s).mode = s.mode :=
  endOrigin_keep (·.mode) (by intros; rfl) t j status detail s
@[simp] theorem endOrigin_safety (t : Transition) (j : JState) (status : Nat) (detail : Nat) (s : State) : (endOrigin t j status detail s).safety = s.safety :=
  endOrigin_keep (·.safety) (by intros; rfl) t j status detail s
@[simp] theorem endOrigin_ticks (t : Transition) (j : JState) (status : Nat) (detail : Nat) (s : State) : (endOrigin t j status detail s).ticks = s.ticks :=
  endOrigin_keep (·.ticks) (by intros; rfl) t j status detail s
@[simp] theorem endOrigin_pending (t : Transition) (j : JState) (status : Nat) (detail : Nat) (s : State) : (endOrigin t j status detail s).pending = s.pending :=
  endOrigin_keep (·.pending) (by intros; rfl) t j status detail s
@[simp] theorem interruptTransition_power (status : Nat) (s : State) : (interruptTransition status s).power = s.power :=
  interruptTransition_keep (·.power) (by intros; rfl) status s
@[simp] theorem interruptTransition_clocks (status : Nat) (s : State) : (interruptTransition status s).clocks = s.clocks :=
  interruptTransition_keep (·.clocks) (by intros; rfl) status s
@[simp] theorem interruptTransition_straps (status : Nat) (s : State) : (interruptTransition status s).straps = s.straps :=
  interruptTransition_keep (·.straps) (by intros; rfl) status s
@[simp] theorem interruptTransition_pins (status : Nat) (s : State) : (interruptTransition status s).pins = s.pins :=
  interruptTransition_keep (·.pins) (by intros; rfl) status s
@[simp] theorem interruptTransition_booted (status : Nat) (s : State) : (interruptTransition status s).booted = s.booted :=
  interruptTransition_keep (·.booted) (by intros; rfl) status s
@[simp] theorem interruptTransition_modeEntry (status : Nat) (s : State) : (interruptTransition status s).modeEntry = s.modeEntry :=
  interruptTransition_keep (·.modeEntry) (by intros; rfl) status s
@[simp] theorem interruptTransition_firmware (status : Nat) (s : State) : (interruptTransition status s).firmware = s.firmware :=
  interruptTransition_keep (·.firmware) (by intros; rfl) status s
@[simp] theorem interruptTransition_rtd (status : Nat) (s : State) : (interruptTransition status s).rtd = s.rtd :=
  interruptTransition_keep (·.rtd) (by intros; rfl) status s
@[simp] theorem interruptTransition_hk (status : Nat) (s : State) : (interruptTransition status s).hk = s.hk :=
  interruptTransition_keep (·.hk) (by intros; rfl) status s
@[simp] theorem interruptTransition_memory (status : Nat) (s : State) : (interruptTransition status s).memory = s.memory :=
  interruptTransition_keep (·.memory) (by intros; rfl) status s
@[simp] theorem interruptTransition_time (status : Nat) (s : State) : (interruptTransition status s).time = s.time :=
  interruptTransition_keep (·.time) (by intros; rfl) status s
@[simp] theorem interruptTransition_safety (status : Nat) (s : State) : (interruptTransition status s).safety = s.safety :=
  interruptTransition_keep (·.safety) (by intros; rfl) status s
@[simp] theorem interruptTransition_calib (status : Nat) (s : State) : (interruptTransition status s).calib = s.calib :=
  interruptTransition_keep (·.calib) (by intros; rfl) status s
@[simp] theorem interruptTransition_ticks (status : Nat) (s : State) : (interruptTransition status s).ticks = s.ticks :=
  interruptTransition_keep (·.ticks) (by intros; rfl) status s
@[simp] theorem interruptTransition_pending (status : Nat) (s : State) : (interruptTransition status s).pending = s.pending :=
  interruptTransition_keep (·.pending) (by intros; rfl) status s
@[simp] theorem wakePorts_power (s : State) : (wakePorts s).power = s.power := wakePorts_keep (·.power) (by intros; rfl) s
@[simp] theorem wakePorts_mode (s : State) : (wakePorts s).mode = s.mode := wakePorts_keep (·.mode) (by intros; rfl) s
@[simp] theorem wakePorts_scribe (s : State) : (wakePorts s).scribe = s.scribe := wakePorts_keep (·.scribe) (by intros; rfl) s
@[simp] theorem wakePorts_pair (s : State) : (wakePorts s).pair = s.pair := wakePorts_keep (·.pair) (by intros; rfl) s
@[simp] theorem wakePorts_safety (s : State) : (wakePorts s).safety = s.safety := wakePorts_keep (·.safety) (by intros; rfl) s
@[simp] theorem wakePorts_ticks (s : State) : (wakePorts s).ticks = s.ticks := wakePorts_keep (·.ticks) (by intros; rfl) s
@[simp] theorem wakePorts_pending (s : State) : (wakePorts s).pending = s.pending := wakePorts_keep (·.pending) (by intros; rfl) s
@[simp] theorem takeDrive_mode (s : State) : (takeDrive s).mode = s.mode := takeDrive_keep (·.mode) (by intros; rfl) s
@[simp] theorem beginTake_power (cause : Nat) (planned : Bool) (host : Bool) (s : State) : (beginTake cause planned host s).power = s.power :=
  beginTake_keep (·.power) (by intros; rfl) cause planned host s
@[simp] theorem beginTake_clocks (cause : Nat) (planned : Bool) (host : Bool) (s : State) : (beginTake cause planned host s).clocks = s.clocks :=
  beginTake_keep (·.clocks) (by intros; rfl) cause planned host s
@[simp] theorem beginTake_banks (cause : Nat) (planned : Bool) (host : Bool) (s : State) : (beginTake cause planned host s).banks = s.banks :=
  beginTake_keep (·.banks) (by intros; rfl) cause planned host s
@[simp] theorem beginTake_memory (cause : Nat) (planned : Bool) (host : Bool) (s : State) : (beginTake cause planned host s).memory = s.memory :=
  beginTake_keep (·.memory) (by intros; rfl) cause planned host s
@[simp] theorem beginTake_time (cause : Nat) (planned : Bool) (host : Bool) (s : State) : (beginTake cause planned host s).time = s.time :=
  beginTake_keep (·.time) (by intros; rfl) cause planned host s
@[simp] theorem onItem_power (item : Nat) (index : Nat) (f : CalItem → CalItem) (s : State) : (onItem item index f s).power = s.power :=
  onItem_keep (·.power) (by intros; rfl) item index f s
@[simp] theorem onItem_clocks (item : Nat) (index : Nat) (f : CalItem → CalItem) (s : State) : (onItem item index f s).clocks = s.clocks :=
  onItem_keep (·.clocks) (by intros; rfl) item index f s
@[simp] theorem onItem_straps (item : Nat) (index : Nat) (f : CalItem → CalItem) (s : State) : (onItem item index f s).straps = s.straps :=
  onItem_keep (·.straps) (by intros; rfl) item index f s
@[simp] theorem onItem_pins (item : Nat) (index : Nat) (f : CalItem → CalItem) (s : State) : (onItem item index f s).pins = s.pins :=
  onItem_keep (·.pins) (by intros; rfl) item index f s
@[simp] theorem onItem_mode (item : Nat) (index : Nat) (f : CalItem → CalItem) (s : State) : (onItem item index f s).mode = s.mode :=
  onItem_keep (·.mode) (by intros; rfl) item index f s
@[simp] theorem onItem_banks (item : Nat) (index : Nat) (f : CalItem → CalItem) (s : State) : (onItem item index f s).banks = s.banks :=
  onItem_keep (·.banks) (by intros; rfl) item index f s
@[simp] theorem onItem_params (item : Nat) (index : Nat) (f : CalItem → CalItem) (s : State) : (onItem item index f s).params = s.params :=
  onItem_keep (·.params) (by intros; rfl) item index f s
@[simp] theorem onItem_booted (item : Nat) (index : Nat) (f : CalItem → CalItem) (s : State) : (onItem item index f s).booted = s.booted :=
  onItem_keep (·.booted) (by intros; rfl) item index f s
@[simp] theorem onItem_modeEntry (item : Nat) (index : Nat) (f : CalItem → CalItem) (s : State) : (onItem item index f s).modeEntry = s.modeEntry :=
  onItem_keep (·.modeEntry) (by intros; rfl) item index f s
@[simp] theorem onItem_scribe (item : Nat) (index : Nat) (f : CalItem → CalItem) (s : State) : (onItem item index f s).scribe = s.scribe :=
  onItem_keep (·.scribe) (by intros; rfl) item index f s
@[simp] theorem onItem_evq (item : Nat) (index : Nat) (f : CalItem → CalItem) (s : State) : (onItem item index f s).evq = s.evq :=
  onItem_keep (·.evq) (by intros; rfl) item index f s
@[simp] theorem onItem_journal (item : Nat) (index : Nat) (f : CalItem → CalItem) (s : State) : (onItem item index f s).journal = s.journal :=
  onItem_keep (·.journal) (by intros; rfl) item index f s
@[simp] theorem onItem_log (item : Nat) (index : Nat) (f : CalItem → CalItem) (s : State) : (onItem item index f s).log = s.log :=
  onItem_keep (·.log) (by intros; rfl) item index f s
@[simp] theorem onItem_firmware (item : Nat) (index : Nat) (f : CalItem → CalItem) (s : State) : (onItem item index f s).firmware = s.firmware :=
  onItem_keep (·.firmware) (by intros; rfl) item index f s
@[simp] theorem onItem_ports (item : Nat) (index : Nat) (f : CalItem → CalItem) (s : State) : (onItem item index f s).ports = s.ports :=
  onItem_keep (·.ports) (by intros; rfl) item index f s
@[simp] theorem onItem_herder (item : Nat) (index : Nat) (f : CalItem → CalItem) (s : State) : (onItem item index f s).herder = s.herder :=
  onItem_keep (·.herder) (by intros; rfl) item index f s
@[simp] theorem onItem_serif (item : Nat) (index : Nat) (f : CalItem → CalItem) (s : State) : (onItem item index f s).serif = s.serif :=
  onItem_keep (·.serif) (by intros; rfl) item index f s
@[simp] theorem onItem_raman (item : Nat) (index : Nat) (f : CalItem → CalItem) (s : State) : (onItem item index f s).raman = s.raman :=
  onItem_keep (·.raman) (by intros; rfl) item index f s
@[simp] theorem onItem_rtd (item : Nat) (index : Nat) (f : CalItem → CalItem) (s : State) : (onItem item index f s).rtd = s.rtd :=
  onItem_keep (·.rtd) (by intros; rfl) item index f s
@[simp] theorem onItem_hk (item : Nat) (index : Nat) (f : CalItem → CalItem) (s : State) : (onItem item index f s).hk = s.hk :=
  onItem_keep (·.hk) (by intros; rfl) item index f s
@[simp] theorem onItem_pointer (item : Nat) (index : Nat) (f : CalItem → CalItem) (s : State) : (onItem item index f s).pointer = s.pointer :=
  onItem_keep (·.pointer) (by intros; rfl) item index f s
@[simp] theorem onItem_inkstone (item : Nat) (index : Nat) (f : CalItem → CalItem) (s : State) : (onItem item index f s).inkstone = s.inkstone :=
  onItem_keep (·.inkstone) (by intros; rfl) item index f s
@[simp] theorem onItem_memory (item : Nat) (index : Nat) (f : CalItem → CalItem) (s : State) : (onItem item index f s).memory = s.memory :=
  onItem_keep (·.memory) (by intros; rfl) item index f s
@[simp] theorem onItem_time (item : Nat) (index : Nat) (f : CalItem → CalItem) (s : State) : (onItem item index f s).time = s.time :=
  onItem_keep (·.time) (by intros; rfl) item index f s
@[simp] theorem onItem_links (item : Nat) (index : Nat) (f : CalItem → CalItem) (s : State) : (onItem item index f s).links = s.links :=
  onItem_keep (·.links) (by intros; rfl) item index f s
@[simp] theorem onItem_pair (item : Nat) (index : Nat) (f : CalItem → CalItem) (s : State) : (onItem item index f s).pair = s.pair :=
  onItem_keep (·.pair) (by intros; rfl) item index f s
@[simp] theorem onItem_safety (item : Nat) (index : Nat) (f : CalItem → CalItem) (s : State) : (onItem item index f s).safety = s.safety :=
  onItem_keep (·.safety) (by intros; rfl) item index f s
@[simp] theorem onItem_ticks (item : Nat) (index : Nat) (f : CalItem → CalItem) (s : State) : (onItem item index f s).ticks = s.ticks :=
  onItem_keep (·.ticks) (by intros; rfl) item index f s
@[simp] theorem onItem_free (item : Nat) (index : Nat) (f : CalItem → CalItem) (s : State) : (onItem item index f s).free = s.free :=
  onItem_keep (·.free) (by intros; rfl) item index f s
@[simp] theorem onItem_pending (item : Nat) (index : Nat) (f : CalItem → CalItem) (s : State) : (onItem item index f s).pending = s.pending :=
  onItem_keep (·.pending) (by intros; rfl) item index f s
@[simp] theorem calAccept_power (item : Nat) (index : Nat) (fields : List Int) (s : State) : (calAccept item index fields s).power = s.power :=
  calAccept_keep (·.power) (by intros; rfl) item index fields s
@[simp] theorem calAccept_clocks (item : Nat) (index : Nat) (fields : List Int) (s : State) : (calAccept item index fields s).clocks = s.clocks :=
  calAccept_keep (·.clocks) (by intros; rfl) item index fields s
@[simp] theorem calAccept_straps (item : Nat) (index : Nat) (fields : List Int) (s : State) : (calAccept item index fields s).straps = s.straps :=
  calAccept_keep (·.straps) (by intros; rfl) item index fields s
@[simp] theorem calAccept_pins (item : Nat) (index : Nat) (fields : List Int) (s : State) : (calAccept item index fields s).pins = s.pins :=
  calAccept_keep (·.pins) (by intros; rfl) item index fields s
@[simp] theorem calAccept_mode (item : Nat) (index : Nat) (fields : List Int) (s : State) : (calAccept item index fields s).mode = s.mode :=
  calAccept_keep (·.mode) (by intros; rfl) item index fields s
@[simp] theorem calAccept_banks (item : Nat) (index : Nat) (fields : List Int) (s : State) : (calAccept item index fields s).banks = s.banks :=
  calAccept_keep (·.banks) (by intros; rfl) item index fields s
@[simp] theorem calAccept_params (item : Nat) (index : Nat) (fields : List Int) (s : State) : (calAccept item index fields s).params = s.params :=
  calAccept_keep (·.params) (by intros; rfl) item index fields s
@[simp] theorem calAccept_booted (item : Nat) (index : Nat) (fields : List Int) (s : State) : (calAccept item index fields s).booted = s.booted :=
  calAccept_keep (·.booted) (by intros; rfl) item index fields s
@[simp] theorem calAccept_modeEntry (item : Nat) (index : Nat) (fields : List Int) (s : State) : (calAccept item index fields s).modeEntry = s.modeEntry :=
  calAccept_keep (·.modeEntry) (by intros; rfl) item index fields s
@[simp] theorem calAccept_scribe (item : Nat) (index : Nat) (fields : List Int) (s : State) : (calAccept item index fields s).scribe = s.scribe :=
  calAccept_keep (·.scribe) (by intros; rfl) item index fields s
@[simp] theorem calAccept_evq (item : Nat) (index : Nat) (fields : List Int) (s : State) : (calAccept item index fields s).evq = s.evq :=
  calAccept_keep (·.evq) (by intros; rfl) item index fields s
@[simp] theorem calAccept_journal (item : Nat) (index : Nat) (fields : List Int) (s : State) : (calAccept item index fields s).journal = s.journal :=
  calAccept_keep (·.journal) (by intros; rfl) item index fields s
@[simp] theorem calAccept_log (item : Nat) (index : Nat) (fields : List Int) (s : State) : (calAccept item index fields s).log = s.log :=
  calAccept_keep (·.log) (by intros; rfl) item index fields s
@[simp] theorem calAccept_firmware (item : Nat) (index : Nat) (fields : List Int) (s : State) : (calAccept item index fields s).firmware = s.firmware :=
  calAccept_keep (·.firmware) (by intros; rfl) item index fields s
@[simp] theorem calAccept_ports (item : Nat) (index : Nat) (fields : List Int) (s : State) : (calAccept item index fields s).ports = s.ports :=
  calAccept_keep (·.ports) (by intros; rfl) item index fields s
@[simp] theorem calAccept_herder (item : Nat) (index : Nat) (fields : List Int) (s : State) : (calAccept item index fields s).herder = s.herder :=
  calAccept_keep (·.herder) (by intros; rfl) item index fields s
@[simp] theorem calAccept_serif (item : Nat) (index : Nat) (fields : List Int) (s : State) : (calAccept item index fields s).serif = s.serif :=
  calAccept_keep (·.serif) (by intros; rfl) item index fields s
@[simp] theorem calAccept_raman (item : Nat) (index : Nat) (fields : List Int) (s : State) : (calAccept item index fields s).raman = s.raman :=
  calAccept_keep (·.raman) (by intros; rfl) item index fields s
@[simp] theorem calAccept_rtd (item : Nat) (index : Nat) (fields : List Int) (s : State) : (calAccept item index fields s).rtd = s.rtd :=
  calAccept_keep (·.rtd) (by intros; rfl) item index fields s
@[simp] theorem calAccept_hk (item : Nat) (index : Nat) (fields : List Int) (s : State) : (calAccept item index fields s).hk = s.hk :=
  calAccept_keep (·.hk) (by intros; rfl) item index fields s
@[simp] theorem calAccept_pointer (item : Nat) (index : Nat) (fields : List Int) (s : State) : (calAccept item index fields s).pointer = s.pointer :=
  calAccept_keep (·.pointer) (by intros; rfl) item index fields s
@[simp] theorem calAccept_inkstone (item : Nat) (index : Nat) (fields : List Int) (s : State) : (calAccept item index fields s).inkstone = s.inkstone :=
  calAccept_keep (·.inkstone) (by intros; rfl) item index fields s
@[simp] theorem calAccept_memory (item : Nat) (index : Nat) (fields : List Int) (s : State) : (calAccept item index fields s).memory = s.memory :=
  calAccept_keep (·.memory) (by intros; rfl) item index fields s
@[simp] theorem calAccept_time (item : Nat) (index : Nat) (fields : List Int) (s : State) : (calAccept item index fields s).time = s.time :=
  calAccept_keep (·.time) (by intros; rfl) item index fields s
@[simp] theorem calAccept_links (item : Nat) (index : Nat) (fields : List Int) (s : State) : (calAccept item index fields s).links = s.links :=
  calAccept_keep (·.links) (by intros; rfl) item index fields s
@[simp] theorem calAccept_pair (item : Nat) (index : Nat) (fields : List Int) (s : State) : (calAccept item index fields s).pair = s.pair :=
  calAccept_keep (·.pair) (by intros; rfl) item index fields s
@[simp] theorem calAccept_safety (item : Nat) (index : Nat) (fields : List Int) (s : State) : (calAccept item index fields s).safety = s.safety :=
  calAccept_keep (·.safety) (by intros; rfl) item index fields s
@[simp] theorem calAccept_ticks (item : Nat) (index : Nat) (fields : List Int) (s : State) : (calAccept item index fields s).ticks = s.ticks :=
  calAccept_keep (·.ticks) (by intros; rfl) item index fields s
@[simp] theorem calAccept_free (item : Nat) (index : Nat) (fields : List Int) (s : State) : (calAccept item index fields s).free = s.free :=
  calAccept_keep (·.free) (by intros; rfl) item index fields s
@[simp] theorem calAccept_pending (item : Nat) (index : Nat) (fields : List Int) (s : State) : (calAccept item index fields s).pending = s.pending :=
  calAccept_keep (·.pending) (by intros; rfl) item index fields s
@[simp] theorem calReject_power (item : Nat) (index : Nat) (field : Nat) (value : Int) (s : State) : (calReject item index field value s).power = s.power :=
  calReject_keep (·.power) (by intros; rfl) item index field value s
@[simp] theorem calReject_clocks (item : Nat) (index : Nat) (field : Nat) (value : Int) (s : State) : (calReject item index field value s).clocks = s.clocks :=
  calReject_keep (·.clocks) (by intros; rfl) item index field value s
@[simp] theorem calReject_straps (item : Nat) (index : Nat) (field : Nat) (value : Int) (s : State) : (calReject item index field value s).straps = s.straps :=
  calReject_keep (·.straps) (by intros; rfl) item index field value s
@[simp] theorem calReject_pins (item : Nat) (index : Nat) (field : Nat) (value : Int) (s : State) : (calReject item index field value s).pins = s.pins :=
  calReject_keep (·.pins) (by intros; rfl) item index field value s
@[simp] theorem calReject_mode (item : Nat) (index : Nat) (field : Nat) (value : Int) (s : State) : (calReject item index field value s).mode = s.mode :=
  calReject_keep (·.mode) (by intros; rfl) item index field value s
@[simp] theorem calReject_banks (item : Nat) (index : Nat) (field : Nat) (value : Int) (s : State) : (calReject item index field value s).banks = s.banks :=
  calReject_keep (·.banks) (by intros; rfl) item index field value s
@[simp] theorem calReject_booted (item : Nat) (index : Nat) (field : Nat) (value : Int) (s : State) : (calReject item index field value s).booted = s.booted :=
  calReject_keep (·.booted) (by intros; rfl) item index field value s
@[simp] theorem calReject_modeEntry (item : Nat) (index : Nat) (field : Nat) (value : Int) (s : State) : (calReject item index field value s).modeEntry = s.modeEntry :=
  calReject_keep (·.modeEntry) (by intros; rfl) item index field value s
@[simp] theorem calReject_journal (item : Nat) (index : Nat) (field : Nat) (value : Int) (s : State) : (calReject item index field value s).journal = s.journal :=
  calReject_keep (·.journal) (by intros; rfl) item index field value s
@[simp] theorem calReject_firmware (item : Nat) (index : Nat) (field : Nat) (value : Int) (s : State) : (calReject item index field value s).firmware = s.firmware :=
  calReject_keep (·.firmware) (by intros; rfl) item index field value s
@[simp] theorem calReject_ports (item : Nat) (index : Nat) (field : Nat) (value : Int) (s : State) : (calReject item index field value s).ports = s.ports :=
  calReject_keep (·.ports) (by intros; rfl) item index field value s
@[simp] theorem calReject_herder (item : Nat) (index : Nat) (field : Nat) (value : Int) (s : State) : (calReject item index field value s).herder = s.herder :=
  calReject_keep (·.herder) (by intros; rfl) item index field value s
@[simp] theorem calReject_serif (item : Nat) (index : Nat) (field : Nat) (value : Int) (s : State) : (calReject item index field value s).serif = s.serif :=
  calReject_keep (·.serif) (by intros; rfl) item index field value s
@[simp] theorem calReject_raman (item : Nat) (index : Nat) (field : Nat) (value : Int) (s : State) : (calReject item index field value s).raman = s.raman :=
  calReject_keep (·.raman) (by intros; rfl) item index field value s
@[simp] theorem calReject_rtd (item : Nat) (index : Nat) (field : Nat) (value : Int) (s : State) : (calReject item index field value s).rtd = s.rtd :=
  calReject_keep (·.rtd) (by intros; rfl) item index field value s
@[simp] theorem calReject_hk (item : Nat) (index : Nat) (field : Nat) (value : Int) (s : State) : (calReject item index field value s).hk = s.hk :=
  calReject_keep (·.hk) (by intros; rfl) item index field value s
@[simp] theorem calReject_pointer (item : Nat) (index : Nat) (field : Nat) (value : Int) (s : State) : (calReject item index field value s).pointer = s.pointer :=
  calReject_keep (·.pointer) (by intros; rfl) item index field value s
@[simp] theorem calReject_inkstone (item : Nat) (index : Nat) (field : Nat) (value : Int) (s : State) : (calReject item index field value s).inkstone = s.inkstone :=
  calReject_keep (·.inkstone) (by intros; rfl) item index field value s
@[simp] theorem calReject_memory (item : Nat) (index : Nat) (field : Nat) (value : Int) (s : State) : (calReject item index field value s).memory = s.memory :=
  calReject_keep (·.memory) (by intros; rfl) item index field value s
@[simp] theorem calReject_time (item : Nat) (index : Nat) (field : Nat) (value : Int) (s : State) : (calReject item index field value s).time = s.time :=
  calReject_keep (·.time) (by intros; rfl) item index field value s
@[simp] theorem calReject_safety (item : Nat) (index : Nat) (field : Nat) (value : Int) (s : State) : (calReject item index field value s).safety = s.safety :=
  calReject_keep (·.safety) (by intros; rfl) item index field value s
@[simp] theorem calReject_ticks (item : Nat) (index : Nat) (field : Nat) (value : Int) (s : State) : (calReject item index field value s).ticks = s.ticks :=
  calReject_keep (·.ticks) (by intros; rfl) item index field value s
@[simp] theorem calReject_free (item : Nat) (index : Nat) (field : Nat) (value : Int) (s : State) : (calReject item index field value s).free = s.free :=
  calReject_keep (·.free) (by intros; rfl) item index field value s
@[simp] theorem calReject_pending (item : Nat) (index : Nat) (field : Nat) (value : Int) (s : State) : (calReject item index field value s).pending = s.pending :=
  calReject_keep (·.pending) (by intros; rfl) item index field value s
@[simp] theorem stageItem_power (q : Nat) (type : Nat) (bytes : List Byte) (s : State) : (stageItem q type bytes s).power = s.power :=
  stageItem_keep (·.power) (by intros; rfl) q type bytes s
@[simp] theorem stageItem_clocks (q : Nat) (type : Nat) (bytes : List Byte) (s : State) : (stageItem q type bytes s).clocks = s.clocks :=
  stageItem_keep (·.clocks) (by intros; rfl) q type bytes s
@[simp] theorem stageItem_straps (q : Nat) (type : Nat) (bytes : List Byte) (s : State) : (stageItem q type bytes s).straps = s.straps :=
  stageItem_keep (·.straps) (by intros; rfl) q type bytes s
@[simp] theorem stageItem_pins (q : Nat) (type : Nat) (bytes : List Byte) (s : State) : (stageItem q type bytes s).pins = s.pins :=
  stageItem_keep (·.pins) (by intros; rfl) q type bytes s
@[simp] theorem stageItem_mode (q : Nat) (type : Nat) (bytes : List Byte) (s : State) : (stageItem q type bytes s).mode = s.mode :=
  stageItem_keep (·.mode) (by intros; rfl) q type bytes s
@[simp] theorem stageItem_banks (q : Nat) (type : Nat) (bytes : List Byte) (s : State) : (stageItem q type bytes s).banks = s.banks :=
  stageItem_keep (·.banks) (by intros; rfl) q type bytes s
@[simp] theorem stageItem_booted (q : Nat) (type : Nat) (bytes : List Byte) (s : State) : (stageItem q type bytes s).booted = s.booted :=
  stageItem_keep (·.booted) (by intros; rfl) q type bytes s
@[simp] theorem stageItem_modeEntry (q : Nat) (type : Nat) (bytes : List Byte) (s : State) : (stageItem q type bytes s).modeEntry = s.modeEntry :=
  stageItem_keep (·.modeEntry) (by intros; rfl) q type bytes s
@[simp] theorem stageItem_firmware (q : Nat) (type : Nat) (bytes : List Byte) (s : State) : (stageItem q type bytes s).firmware = s.firmware :=
  stageItem_keep (·.firmware) (by intros; rfl) q type bytes s
@[simp] theorem stageItem_ports (q : Nat) (type : Nat) (bytes : List Byte) (s : State) : (stageItem q type bytes s).ports = s.ports :=
  stageItem_keep (·.ports) (by intros; rfl) q type bytes s
@[simp] theorem stageItem_herder (q : Nat) (type : Nat) (bytes : List Byte) (s : State) : (stageItem q type bytes s).herder = s.herder :=
  stageItem_keep (·.herder) (by intros; rfl) q type bytes s
@[simp] theorem stageItem_serif (q : Nat) (type : Nat) (bytes : List Byte) (s : State) : (stageItem q type bytes s).serif = s.serif :=
  stageItem_keep (·.serif) (by intros; rfl) q type bytes s
@[simp] theorem stageItem_raman (q : Nat) (type : Nat) (bytes : List Byte) (s : State) : (stageItem q type bytes s).raman = s.raman :=
  stageItem_keep (·.raman) (by intros; rfl) q type bytes s
@[simp] theorem stageItem_rtd (q : Nat) (type : Nat) (bytes : List Byte) (s : State) : (stageItem q type bytes s).rtd = s.rtd :=
  stageItem_keep (·.rtd) (by intros; rfl) q type bytes s
@[simp] theorem stageItem_hk (q : Nat) (type : Nat) (bytes : List Byte) (s : State) : (stageItem q type bytes s).hk = s.hk :=
  stageItem_keep (·.hk) (by intros; rfl) q type bytes s
@[simp] theorem stageItem_pointer (q : Nat) (type : Nat) (bytes : List Byte) (s : State) : (stageItem q type bytes s).pointer = s.pointer :=
  stageItem_keep (·.pointer) (by intros; rfl) q type bytes s
@[simp] theorem stageItem_inkstone (q : Nat) (type : Nat) (bytes : List Byte) (s : State) : (stageItem q type bytes s).inkstone = s.inkstone :=
  stageItem_keep (·.inkstone) (by intros; rfl) q type bytes s
@[simp] theorem stageItem_memory (q : Nat) (type : Nat) (bytes : List Byte) (s : State) : (stageItem q type bytes s).memory = s.memory :=
  stageItem_keep (·.memory) (by intros; rfl) q type bytes s
@[simp] theorem stageItem_time (q : Nat) (type : Nat) (bytes : List Byte) (s : State) : (stageItem q type bytes s).time = s.time :=
  stageItem_keep (·.time) (by intros; rfl) q type bytes s
@[simp] theorem stageItem_safety (q : Nat) (type : Nat) (bytes : List Byte) (s : State) : (stageItem q type bytes s).safety = s.safety :=
  stageItem_keep (·.safety) (by intros; rfl) q type bytes s
@[simp] theorem stageItem_calib (q : Nat) (type : Nat) (bytes : List Byte) (s : State) : (stageItem q type bytes s).calib = s.calib :=
  stageItem_keep (·.calib) (by intros; rfl) q type bytes s
@[simp] theorem stageItem_ticks (q : Nat) (type : Nat) (bytes : List Byte) (s : State) : (stageItem q type bytes s).ticks = s.ticks :=
  stageItem_keep (·.ticks) (by intros; rfl) q type bytes s
@[simp] theorem stageItem_free (q : Nat) (type : Nat) (bytes : List Byte) (s : State) : (stageItem q type bytes s).free = s.free :=
  stageItem_keep (·.free) (by intros; rfl) q type bytes s
@[simp] theorem stageItem_pending (q : Nat) (type : Nat) (bytes : List Byte) (s : State) : (stageItem q type bytes s).pending = s.pending :=
  stageItem_keep (·.pending) (by intros; rfl) q type bytes s
@[simp] theorem countStream_journal (stream : Nat) (es : List Encoded) (selfCheck : Bool) (s : State) : (countStream stream es selfCheck s).journal = s.journal :=
  countStream_keep (·.journal) (by intros; rfl) stream es selfCheck s
@[simp] theorem applyGrants_power (cause : Nat) (p : Nat) (s : State) : (applyGrants cause p s).power = s.power :=
  applyGrants_keep (·.power) (by intros; rfl) cause p s
@[simp] theorem applyGrants_mode (cause : Nat) (p : Nat) (s : State) : (applyGrants cause p s).mode = s.mode :=
  applyGrants_keep (·.mode) (by intros; rfl) cause p s
@[simp] theorem applyGrants_banks (cause : Nat) (p : Nat) (s : State) : (applyGrants cause p s).banks = s.banks :=
  applyGrants_keep (·.banks) (by intros; rfl) cause p s
@[simp] theorem applyGrants_journal (cause : Nat) (p : Nat) (s : State) : (applyGrants cause p s).journal = s.journal :=
  applyGrants_keep (·.journal) (by intros; rfl) cause p s
@[simp] theorem applyGrants_safety (cause : Nat) (p : Nat) (s : State) : (applyGrants cause p s).safety = s.safety :=
  applyGrants_keep (·.safety) (by intros; rfl) cause p s
@[simp] theorem applyGrants_ticks (cause : Nat) (p : Nat) (s : State) : (applyGrants cause p s).ticks = s.ticks :=
  applyGrants_keep (·.ticks) (by intros; rfl) cause p s
@[simp] theorem applyGrants_pending (cause : Nat) (p : Nat) (s : State) : (applyGrants cause p s).pending = s.pending :=
  applyGrants_keep (·.pending) (by intros; rfl) cause p s
@[simp] theorem readmitAll_mode (cause : Nat) (keep : List Nat) (s : State) : (readmitAll cause keep s).mode = s.mode :=
  readmitAll_keep (·.mode) (by intros; rfl) cause keep s
@[simp] theorem readmitAll_memory (cause : Nat) (keep : List Nat) (s : State) : (readmitAll cause keep s).memory = s.memory :=
  readmitAll_keep (·.memory) (by intros; rfl) cause keep s
@[simp] theorem journalStart_power (n : Nat) (s : State) : (journalStart n s).power = s.power := journalStart_keep (·.power) (by intros; rfl) n s
@[simp] theorem journalStart_mode (n : Nat) (s : State) : (journalStart n s).mode = s.mode := journalStart_keep (·.mode) (by intros; rfl) n s
@[simp] theorem journalStart_banks (n : Nat) (s : State) : (journalStart n s).banks = s.banks := journalStart_keep (·.banks) (by intros; rfl) n s
@[simp] theorem journalStart_firmware (n : Nat) (s : State) : (journalStart n s).firmware = s.firmware :=
  journalStart_keep (·.firmware) (by intros; rfl) n s
@[simp] theorem moveRecords_memory (sram : Bool) (s : State) : (moveRecords sram s).memory = s.memory :=
  moveRecords_keep (·.memory) (by intros; rfl) sram s
@[simp] theorem kennelResize_power (s : State) : (kennelResize s).power = s.power := kennelResize_keep (·.power) (by intros; rfl) s
@[simp] theorem kennelResize_clocks (s : State) : (kennelResize s).clocks = s.clocks := kennelResize_keep (·.clocks) (by intros; rfl) s
@[simp] theorem kennelResize_straps (s : State) : (kennelResize s).straps = s.straps := kennelResize_keep (·.straps) (by intros; rfl) s
@[simp] theorem kennelResize_pins (s : State) : (kennelResize s).pins = s.pins := kennelResize_keep (·.pins) (by intros; rfl) s
@[simp] theorem kennelResize_mode (s : State) : (kennelResize s).mode = s.mode := kennelResize_keep (·.mode) (by intros; rfl) s
@[simp] theorem kennelResize_banks (s : State) : (kennelResize s).banks = s.banks := kennelResize_keep (·.banks) (by intros; rfl) s
@[simp] theorem kennelResize_booted (s : State) : (kennelResize s).booted = s.booted := kennelResize_keep (·.booted) (by intros; rfl) s
@[simp] theorem kennelResize_modeEntry (s : State) : (kennelResize s).modeEntry = s.modeEntry := kennelResize_keep (·.modeEntry) (by intros; rfl) s
@[simp] theorem kennelResize_firmware (s : State) : (kennelResize s).firmware = s.firmware := kennelResize_keep (·.firmware) (by intros; rfl) s
@[simp] theorem kennelResize_ports (s : State) : (kennelResize s).ports = s.ports := kennelResize_keep (·.ports) (by intros; rfl) s
@[simp] theorem kennelResize_herder (s : State) : (kennelResize s).herder = s.herder := kennelResize_keep (·.herder) (by intros; rfl) s
@[simp] theorem kennelResize_serif (s : State) : (kennelResize s).serif = s.serif := kennelResize_keep (·.serif) (by intros; rfl) s
@[simp] theorem kennelResize_raman (s : State) : (kennelResize s).raman = s.raman := kennelResize_keep (·.raman) (by intros; rfl) s
@[simp] theorem kennelResize_rtd (s : State) : (kennelResize s).rtd = s.rtd := kennelResize_keep (·.rtd) (by intros; rfl) s
@[simp] theorem kennelResize_hk (s : State) : (kennelResize s).hk = s.hk := kennelResize_keep (·.hk) (by intros; rfl) s
@[simp] theorem kennelResize_time (s : State) : (kennelResize s).time = s.time := kennelResize_keep (·.time) (by intros; rfl) s
@[simp] theorem kennelResize_safety (s : State) : (kennelResize s).safety = s.safety := kennelResize_keep (·.safety) (by intros; rfl) s
@[simp] theorem kennelResize_calib (s : State) : (kennelResize s).calib = s.calib := kennelResize_keep (·.calib) (by intros; rfl) s
@[simp] theorem kennelResize_ticks (s : State) : (kennelResize s).ticks = s.ticks := kennelResize_keep (·.ticks) (by intros; rfl) s
@[simp] theorem kennelResize_free (s : State) : (kennelResize s).free = s.free := kennelResize_keep (·.free) (by intros; rfl) s
@[simp] theorem kennelResize_pending (s : State) : (kennelResize s).pending = s.pending := kennelResize_keep (·.pending) (by intros; rfl) s
@[simp] theorem stopPorts_mode (s : State) : (stopPorts s).mode = s.mode := stopPorts_keep (·.mode) (by intros; rfl) s
@[simp] theorem endSurvey_power (status : Nat) (s : State) : (endSurvey status s).power = s.power :=
  endSurvey_keep (·.power) (by intros; rfl) status s
@[simp] theorem endSurvey_clocks (status : Nat) (s : State) : (endSurvey status s).clocks = s.clocks :=
  endSurvey_keep (·.clocks) (by intros; rfl) status s
@[simp] theorem endSurvey_straps (status : Nat) (s : State) : (endSurvey status s).straps = s.straps :=
  endSurvey_keep (·.straps) (by intros; rfl) status s
@[simp] theorem endSurvey_pins (status : Nat) (s : State) : (endSurvey status s).pins = s.pins := endSurvey_keep (·.pins) (by intros; rfl) status s
@[simp] theorem endSurvey_booted (status : Nat) (s : State) : (endSurvey status s).booted = s.booted :=
  endSurvey_keep (·.booted) (by intros; rfl) status s
@[simp] theorem endSurvey_modeEntry (status : Nat) (s : State) : (endSurvey status s).modeEntry = s.modeEntry :=
  endSurvey_keep (·.modeEntry) (by intros; rfl) status s
@[simp] theorem endSurvey_firmware (status : Nat) (s : State) : (endSurvey status s).firmware = s.firmware :=
  endSurvey_keep (·.firmware) (by intros; rfl) status s
@[simp] theorem endSurvey_rtd (status : Nat) (s : State) : (endSurvey status s).rtd = s.rtd := endSurvey_keep (·.rtd) (by intros; rfl) status s
@[simp] theorem endSurvey_hk (status : Nat) (s : State) : (endSurvey status s).hk = s.hk := endSurvey_keep (·.hk) (by intros; rfl) status s
@[simp] theorem endSurvey_memory (status : Nat) (s : State) : (endSurvey status s).memory = s.memory :=
  endSurvey_keep (·.memory) (by intros; rfl) status s
@[simp] theorem endSurvey_time (status : Nat) (s : State) : (endSurvey status s).time = s.time := endSurvey_keep (·.time) (by intros; rfl) status s
@[simp] theorem endSurvey_safety (status : Nat) (s : State) : (endSurvey status s).safety = s.safety :=
  endSurvey_keep (·.safety) (by intros; rfl) status s
@[simp] theorem endSurvey_calib (status : Nat) (s : State) : (endSurvey status s).calib = s.calib :=
  endSurvey_keep (·.calib) (by intros; rfl) status s
@[simp] theorem endSurvey_ticks (status : Nat) (s : State) : (endSurvey status s).ticks = s.ticks :=
  endSurvey_keep (·.ticks) (by intros; rfl) status s
@[simp] theorem endSurvey_pending (status : Nat) (s : State) : (endSurvey status s).pending = s.pending :=
  endSurvey_keep (·.pending) (by intros; rfl) status s
@[simp] theorem emissionStopped_power (terms : Nat) (ports : Nat) (s : State) : (emissionStopped terms ports s).power = s.power :=
  emissionStopped_keep (·.power) (by intros; rfl) terms ports s
@[simp] theorem emissionStopped_clocks (terms : Nat) (ports : Nat) (s : State) : (emissionStopped terms ports s).clocks = s.clocks :=
  emissionStopped_keep (·.clocks) (by intros; rfl) terms ports s
@[simp] theorem emissionStopped_straps (terms : Nat) (ports : Nat) (s : State) : (emissionStopped terms ports s).straps = s.straps :=
  emissionStopped_keep (·.straps) (by intros; rfl) terms ports s
@[simp] theorem emissionStopped_pins (terms : Nat) (ports : Nat) (s : State) : (emissionStopped terms ports s).pins = s.pins :=
  emissionStopped_keep (·.pins) (by intros; rfl) terms ports s
@[simp] theorem emissionStopped_mode (terms : Nat) (ports : Nat) (s : State) : (emissionStopped terms ports s).mode = s.mode :=
  emissionStopped_keep (·.mode) (by intros; rfl) terms ports s
@[simp] theorem emissionStopped_banks (terms : Nat) (ports : Nat) (s : State) : (emissionStopped terms ports s).banks = s.banks :=
  emissionStopped_keep (·.banks) (by intros; rfl) terms ports s
@[simp] theorem emissionStopped_booted (terms : Nat) (ports : Nat) (s : State) : (emissionStopped terms ports s).booted = s.booted :=
  emissionStopped_keep (·.booted) (by intros; rfl) terms ports s
@[simp] theorem emissionStopped_modeEntry (terms : Nat) (ports : Nat) (s : State) : (emissionStopped terms ports s).modeEntry = s.modeEntry :=
  emissionStopped_keep (·.modeEntry) (by intros; rfl) terms ports s
@[simp] theorem emissionStopped_firmware (terms : Nat) (ports : Nat) (s : State) : (emissionStopped terms ports s).firmware = s.firmware :=
  emissionStopped_keep (·.firmware) (by intros; rfl) terms ports s
@[simp] theorem emissionStopped_ports (terms : Nat) (ports : Nat) (s : State) : (emissionStopped terms ports s).ports = s.ports :=
  emissionStopped_keep (·.ports) (by intros; rfl) terms ports s
@[simp] theorem emissionStopped_herder (terms : Nat) (ports : Nat) (s : State) : (emissionStopped terms ports s).herder = s.herder :=
  emissionStopped_keep (·.herder) (by intros; rfl) terms ports s
@[simp] theorem emissionStopped_serif (terms : Nat) (ports : Nat) (s : State) : (emissionStopped terms ports s).serif = s.serif :=
  emissionStopped_keep (·.serif) (by intros; rfl) terms ports s
@[simp] theorem emissionStopped_raman (terms : Nat) (ports : Nat) (s : State) : (emissionStopped terms ports s).raman = s.raman :=
  emissionStopped_keep (·.raman) (by intros; rfl) terms ports s
@[simp] theorem emissionStopped_rtd (terms : Nat) (ports : Nat) (s : State) : (emissionStopped terms ports s).rtd = s.rtd :=
  emissionStopped_keep (·.rtd) (by intros; rfl) terms ports s
@[simp] theorem emissionStopped_hk (terms : Nat) (ports : Nat) (s : State) : (emissionStopped terms ports s).hk = s.hk :=
  emissionStopped_keep (·.hk) (by intros; rfl) terms ports s
@[simp] theorem emissionStopped_pointer (terms : Nat) (ports : Nat) (s : State) : (emissionStopped terms ports s).pointer = s.pointer :=
  emissionStopped_keep (·.pointer) (by intros; rfl) terms ports s
@[simp] theorem emissionStopped_inkstone (terms : Nat) (ports : Nat) (s : State) : (emissionStopped terms ports s).inkstone = s.inkstone :=
  emissionStopped_keep (·.inkstone) (by intros; rfl) terms ports s
@[simp] theorem emissionStopped_memory (terms : Nat) (ports : Nat) (s : State) : (emissionStopped terms ports s).memory = s.memory :=
  emissionStopped_keep (·.memory) (by intros; rfl) terms ports s
@[simp] theorem emissionStopped_time (terms : Nat) (ports : Nat) (s : State) : (emissionStopped terms ports s).time = s.time :=
  emissionStopped_keep (·.time) (by intros; rfl) terms ports s
@[simp] theorem emissionStopped_pair_own (terms : Nat) (ports : Nat) (s : State) : (emissionStopped terms ports s).pair.own = s.pair.own :=
  emissionStopped_keep (·.pair.own) (by intros; rfl) terms ports s
@[simp] theorem emissionStopped_safety (terms : Nat) (ports : Nat) (s : State) : (emissionStopped terms ports s).safety = s.safety :=
  emissionStopped_keep (·.safety) (by intros; rfl) terms ports s
@[simp] theorem emissionStopped_calib (terms : Nat) (ports : Nat) (s : State) : (emissionStopped terms ports s).calib = s.calib :=
  emissionStopped_keep (·.calib) (by intros; rfl) terms ports s
@[simp] theorem emissionStopped_ticks (terms : Nat) (ports : Nat) (s : State) : (emissionStopped terms ports s).ticks = s.ticks :=
  emissionStopped_keep (·.ticks) (by intros; rfl) terms ports s
@[simp] theorem emissionStopped_free (terms : Nat) (ports : Nat) (s : State) : (emissionStopped terms ports s).free = s.free :=
  emissionStopped_keep (·.free) (by intros; rfl) terms ports s
@[simp] theorem emissionStopped_pending (terms : Nat) (ports : Nat) (s : State) : (emissionStopped terms ports s).pending = s.pending :=
  emissionStopped_keep (·.pending) (by intros; rfl) terms ports s
@[simp] theorem decodeError_power (reader : Nat) (code : Nat) (seq : Nat) (s : State) : (decodeError reader code seq s).power = s.power :=
  decodeError_keep (·.power) (by intros; rfl) reader code seq s
@[simp] theorem decodeError_clocks (reader : Nat) (code : Nat) (seq : Nat) (s : State) : (decodeError reader code seq s).clocks = s.clocks :=
  decodeError_keep (·.clocks) (by intros; rfl) reader code seq s
@[simp] theorem decodeError_straps (reader : Nat) (code : Nat) (seq : Nat) (s : State) : (decodeError reader code seq s).straps = s.straps :=
  decodeError_keep (·.straps) (by intros; rfl) reader code seq s
@[simp] theorem decodeError_pins (reader : Nat) (code : Nat) (seq : Nat) (s : State) : (decodeError reader code seq s).pins = s.pins :=
  decodeError_keep (·.pins) (by intros; rfl) reader code seq s
@[simp] theorem decodeError_mode (reader : Nat) (code : Nat) (seq : Nat) (s : State) : (decodeError reader code seq s).mode = s.mode :=
  decodeError_keep (·.mode) (by intros; rfl) reader code seq s
@[simp] theorem decodeError_banks (reader : Nat) (code : Nat) (seq : Nat) (s : State) : (decodeError reader code seq s).banks = s.banks :=
  decodeError_keep (·.banks) (by intros; rfl) reader code seq s
@[simp] theorem decodeError_booted (reader : Nat) (code : Nat) (seq : Nat) (s : State) : (decodeError reader code seq s).booted = s.booted :=
  decodeError_keep (·.booted) (by intros; rfl) reader code seq s
@[simp] theorem decodeError_modeEntry (reader : Nat) (code : Nat) (seq : Nat) (s : State) : (decodeError reader code seq s).modeEntry = s.modeEntry :=
  decodeError_keep (·.modeEntry) (by intros; rfl) reader code seq s
@[simp] theorem decodeError_journal (reader : Nat) (code : Nat) (seq : Nat) (s : State) : (decodeError reader code seq s).journal = s.journal :=
  decodeError_keep (·.journal) (by intros; rfl) reader code seq s
@[simp] theorem decodeError_ports (reader : Nat) (code : Nat) (seq : Nat) (s : State) : (decodeError reader code seq s).ports = s.ports :=
  decodeError_keep (·.ports) (by intros; rfl) reader code seq s
@[simp] theorem decodeError_raman (reader : Nat) (code : Nat) (seq : Nat) (s : State) : (decodeError reader code seq s).raman = s.raman :=
  decodeError_keep (·.raman) (by intros; rfl) reader code seq s
@[simp] theorem decodeError_rtd (reader : Nat) (code : Nat) (seq : Nat) (s : State) : (decodeError reader code seq s).rtd = s.rtd :=
  decodeError_keep (·.rtd) (by intros; rfl) reader code seq s
@[simp] theorem decodeError_hk (reader : Nat) (code : Nat) (seq : Nat) (s : State) : (decodeError reader code seq s).hk = s.hk :=
  decodeError_keep (·.hk) (by intros; rfl) reader code seq s
@[simp] theorem decodeError_memory (reader : Nat) (code : Nat) (seq : Nat) (s : State) : (decodeError reader code seq s).memory = s.memory :=
  decodeError_keep (·.memory) (by intros; rfl) reader code seq s
@[simp] theorem decodeError_time (reader : Nat) (code : Nat) (seq : Nat) (s : State) : (decodeError reader code seq s).time = s.time :=
  decodeError_keep (·.time) (by intros; rfl) reader code seq s
@[simp] theorem decodeError_safety (reader : Nat) (code : Nat) (seq : Nat) (s : State) : (decodeError reader code seq s).safety = s.safety :=
  decodeError_keep (·.safety) (by intros; rfl) reader code seq s
@[simp] theorem decodeError_calib (reader : Nat) (code : Nat) (seq : Nat) (s : State) : (decodeError reader code seq s).calib = s.calib :=
  decodeError_keep (·.calib) (by intros; rfl) reader code seq s
@[simp] theorem decodeError_ticks (reader : Nat) (code : Nat) (seq : Nat) (s : State) : (decodeError reader code seq s).ticks = s.ticks :=
  decodeError_keep (·.ticks) (by intros; rfl) reader code seq s
@[simp] theorem decodeError_free (reader : Nat) (code : Nat) (seq : Nat) (s : State) : (decodeError reader code seq s).free = s.free :=
  decodeError_keep (·.free) (by intros; rfl) reader code seq s
@[simp] theorem decodeError_pending (reader : Nat) (code : Nat) (seq : Nat) (s : State) : (decodeError reader code seq s).pending = s.pending :=
  decodeError_keep (·.pending) (by intros; rfl) reader code seq s
@[simp] theorem freeData_memory (n : Nat) (s : State) : (freeData n s).memory = s.memory := freeData_keep (·.memory) (by intros; rfl) n s
@[simp] theorem closeDisabled_power (old : Bank) (new : Bank) (p : Nat) (s : State) : (closeDisabled old new p s).power = s.power :=
  closeDisabled_keep (·.power) (by intros; rfl) old new p s
@[simp] theorem closeDisabled_clocks (old : Bank) (new : Bank) (p : Nat) (s : State) : (closeDisabled old new p s).clocks = s.clocks :=
  closeDisabled_keep (·.clocks) (by intros; rfl) old new p s
@[simp] theorem closeDisabled_straps (old : Bank) (new : Bank) (p : Nat) (s : State) : (closeDisabled old new p s).straps = s.straps :=
  closeDisabled_keep (·.straps) (by intros; rfl) old new p s
@[simp] theorem closeDisabled_pins (old : Bank) (new : Bank) (p : Nat) (s : State) : (closeDisabled old new p s).pins = s.pins :=
  closeDisabled_keep (·.pins) (by intros; rfl) old new p s
@[simp] theorem closeDisabled_mode (old : Bank) (new : Bank) (p : Nat) (s : State) : (closeDisabled old new p s).mode = s.mode :=
  closeDisabled_keep (·.mode) (by intros; rfl) old new p s
@[simp] theorem closeDisabled_banks (old : Bank) (new : Bank) (p : Nat) (s : State) : (closeDisabled old new p s).banks = s.banks :=
  closeDisabled_keep (·.banks) (by intros; rfl) old new p s
@[simp] theorem closeDisabled_booted (old : Bank) (new : Bank) (p : Nat) (s : State) : (closeDisabled old new p s).booted = s.booted :=
  closeDisabled_keep (·.booted) (by intros; rfl) old new p s
@[simp] theorem closeDisabled_modeEntry (old : Bank) (new : Bank) (p : Nat) (s : State) : (closeDisabled old new p s).modeEntry = s.modeEntry :=
  closeDisabled_keep (·.modeEntry) (by intros; rfl) old new p s
@[simp] theorem closeDisabled_firmware (old : Bank) (new : Bank) (p : Nat) (s : State) : (closeDisabled old new p s).firmware = s.firmware :=
  closeDisabled_keep (·.firmware) (by intros; rfl) old new p s
@[simp] theorem closeDisabled_ports (old : Bank) (new : Bank) (p : Nat) (s : State) : (closeDisabled old new p s).ports = s.ports :=
  closeDisabled_keep (·.ports) (by intros; rfl) old new p s
@[simp] theorem closeDisabled_herder (old : Bank) (new : Bank) (p : Nat) (s : State) : (closeDisabled old new p s).herder = s.herder :=
  closeDisabled_keep (·.herder) (by intros; rfl) old new p s
@[simp] theorem closeDisabled_serif (old : Bank) (new : Bank) (p : Nat) (s : State) : (closeDisabled old new p s).serif = s.serif :=
  closeDisabled_keep (·.serif) (by intros; rfl) old new p s
@[simp] theorem closeDisabled_rtd (old : Bank) (new : Bank) (p : Nat) (s : State) : (closeDisabled old new p s).rtd = s.rtd :=
  closeDisabled_keep (·.rtd) (by intros; rfl) old new p s
@[simp] theorem closeDisabled_hk (old : Bank) (new : Bank) (p : Nat) (s : State) : (closeDisabled old new p s).hk = s.hk :=
  closeDisabled_keep (·.hk) (by intros; rfl) old new p s
@[simp] theorem closeDisabled_memory (old : Bank) (new : Bank) (p : Nat) (s : State) : (closeDisabled old new p s).memory = s.memory :=
  closeDisabled_keep (·.memory) (by intros; rfl) old new p s
@[simp] theorem closeDisabled_time (old : Bank) (new : Bank) (p : Nat) (s : State) : (closeDisabled old new p s).time = s.time :=
  closeDisabled_keep (·.time) (by intros; rfl) old new p s
@[simp] theorem closeDisabled_safety (old : Bank) (new : Bank) (p : Nat) (s : State) : (closeDisabled old new p s).safety = s.safety :=
  closeDisabled_keep (·.safety) (by intros; rfl) old new p s
@[simp] theorem closeDisabled_calib (old : Bank) (new : Bank) (p : Nat) (s : State) : (closeDisabled old new p s).calib = s.calib :=
  closeDisabled_keep (·.calib) (by intros; rfl) old new p s
@[simp] theorem closeDisabled_ticks (old : Bank) (new : Bank) (p : Nat) (s : State) : (closeDisabled old new p s).ticks = s.ticks :=
  closeDisabled_keep (·.ticks) (by intros; rfl) old new p s
@[simp] theorem closeDisabled_free (old : Bank) (new : Bank) (p : Nat) (s : State) : (closeDisabled old new p s).free = s.free :=
  closeDisabled_keep (·.free) (by intros; rfl) old new p s
@[simp] theorem closeDisabled_pending (old : Bank) (new : Bank) (p : Nat) (s : State) : (closeDisabled old new p s).pending = s.pending :=
  closeDisabled_keep (·.pending) (by intros; rfl) old new p s
@[simp] theorem ramanDiscard_power (p : Nat) (cause : Nat) (s : State) : (ramanDiscard p cause s).power = s.power :=
  ramanDiscard_keep (·.power) (by intros; rfl) p cause s
@[simp] theorem ramanDiscard_mode (p : Nat) (cause : Nat) (s : State) : (ramanDiscard p cause s).mode = s.mode :=
  ramanDiscard_keep (·.mode) (by intros; rfl) p cause s
@[simp] theorem ramanDiscard_ticks (p : Nat) (cause : Nat) (s : State) : (ramanDiscard p cause s).ticks = s.ticks :=
  ramanDiscard_keep (·.ticks) (by intros; rfl) p cause s
@[simp] theorem ramanDiscard_pending (p : Nat) (cause : Nat) (s : State) : (ramanDiscard p cause s).pending = s.pending :=
  ramanDiscard_keep (·.pending) (by intros; rfl) p cause s
@[simp] theorem rebaseline_power (p : Nat) (kind : Nat) (cause : Nat) (s : State) : (rebaseline p kind cause s).power = s.power :=
  rebaseline_keep (·.power) (by intros; rfl) p kind cause s
@[simp] theorem rebaseline_mode (p : Nat) (kind : Nat) (cause : Nat) (s : State) : (rebaseline p kind cause s).mode = s.mode :=
  rebaseline_keep (·.mode) (by intros; rfl) p kind cause s
@[simp] theorem rebaseline_ticks (p : Nat) (kind : Nat) (cause : Nat) (s : State) : (rebaseline p kind cause s).ticks = s.ticks :=
  rebaseline_keep (·.ticks) (by intros; rfl) p kind cause s
@[simp] theorem rebaseline_pending (p : Nat) (kind : Nat) (cause : Nat) (s : State) : (rebaseline p kind cause s).pending = s.pending :=
  rebaseline_keep (·.pending) (by intros; rfl) p kind cause s
@[simp] theorem disarm_power (cause : Nat) (q : Nat) (s : State) : (disarm cause q s).power = s.power :=
  disarm_keep (·.power) (by intros; rfl) cause q s
@[simp] theorem disarm_mode (cause : Nat) (q : Nat) (s : State) : (disarm cause q s).mode = s.mode := disarm_keep (·.mode) (by intros; rfl) cause q s
@[simp] theorem disarm_banks (cause : Nat) (q : Nat) (s : State) : (disarm cause q s).banks = s.banks :=
  disarm_keep (·.banks) (by intros; rfl) cause q s
@[simp] theorem disarm_journal (cause : Nat) (q : Nat) (s : State) : (disarm cause q s).journal = s.journal :=
  disarm_keep (·.journal) (by intros; rfl) cause q s
@[simp] theorem disarm_safety (cause : Nat) (q : Nat) (s : State) : (disarm cause q s).safety = s.safety :=
  disarm_keep (·.safety) (by intros; rfl) cause q s
@[simp] theorem disarm_ticks (cause : Nat) (q : Nat) (s : State) : (disarm cause q s).ticks = s.ticks :=
  disarm_keep (·.ticks) (by intros; rfl) cause q s
@[simp] theorem disarm_pending (cause : Nat) (q : Nat) (s : State) : (disarm cause q s).pending = s.pending :=
  disarm_keep (·.pending) (by intros; rfl) cause q s
@[simp] theorem checkpoint_banks (p : Nat) (s : State) : (checkpoint p s).banks = s.banks := checkpoint_keep (·.banks) (by intros; rfl) p s
@[simp] theorem checkpoint_journal (p : Nat) (s : State) : (checkpoint p s).journal = s.journal := checkpoint_keep (·.journal) (by intros; rfl) p s
@[simp] theorem checkpoint_safety (p : Nat) (s : State) : (checkpoint p s).safety = s.safety := checkpoint_keep (·.safety) (by intros; rfl) p s
@[simp] theorem ringRestart_power (cause : Nat) (s : State) : (ringRestart cause s).power = s.power :=
  ringRestart_keep (·.power) (by intros; rfl) cause s
@[simp] theorem ringRestart_clocks (cause : Nat) (s : State) : (ringRestart cause s).clocks = s.clocks :=
  ringRestart_keep (·.clocks) (by intros; rfl) cause s
@[simp] theorem ringRestart_straps (cause : Nat) (s : State) : (ringRestart cause s).straps = s.straps :=
  ringRestart_keep (·.straps) (by intros; rfl) cause s
@[simp] theorem ringRestart_pins (cause : Nat) (s : State) : (ringRestart cause s).pins = s.pins := ringRestart_keep (·.pins) (by intros; rfl) cause s
@[simp] theorem ringRestart_mode (cause : Nat) (s : State) : (ringRestart cause s).mode = s.mode := ringRestart_keep (·.mode) (by intros; rfl) cause s
@[simp] theorem ringRestart_banks (cause : Nat) (s : State) : (ringRestart cause s).banks = s.banks :=
  ringRestart_keep (·.banks) (by intros; rfl) cause s
@[simp] theorem ringRestart_booted (cause : Nat) (s : State) : (ringRestart cause s).booted = s.booted :=
  ringRestart_keep (·.booted) (by intros; rfl) cause s
@[simp] theorem ringRestart_modeEntry (cause : Nat) (s : State) : (ringRestart cause s).modeEntry = s.modeEntry :=
  ringRestart_keep (·.modeEntry) (by intros; rfl) cause s
@[simp] theorem ringRestart_firmware (cause : Nat) (s : State) : (ringRestart cause s).firmware = s.firmware :=
  ringRestart_keep (·.firmware) (by intros; rfl) cause s
@[simp] theorem ringRestart_ports (cause : Nat) (s : State) : (ringRestart cause s).ports = s.ports :=
  ringRestart_keep (·.ports) (by intros; rfl) cause s
@[simp] theorem ringRestart_herder (cause : Nat) (s : State) : (ringRestart cause s).herder = s.herder :=
  ringRestart_keep (·.herder) (by intros; rfl) cause s
@[simp] theorem ringRestart_serif (cause : Nat) (s : State) : (ringRestart cause s).serif = s.serif :=
  ringRestart_keep (·.serif) (by intros; rfl) cause s
@[simp] theorem ringRestart_raman (cause : Nat) (s : State) : (ringRestart cause s).raman = s.raman :=
  ringRestart_keep (·.raman) (by intros; rfl) cause s
@[simp] theorem ringRestart_rtd (cause : Nat) (s : State) : (ringRestart cause s).rtd = s.rtd := ringRestart_keep (·.rtd) (by intros; rfl) cause s
@[simp] theorem ringRestart_hk (cause : Nat) (s : State) : (ringRestart cause s).hk = s.hk := ringRestart_keep (·.hk) (by intros; rfl) cause s
@[simp] theorem ringRestart_pointer (cause : Nat) (s : State) : (ringRestart cause s).pointer = s.pointer :=
  ringRestart_keep (·.pointer) (by intros; rfl) cause s
@[simp] theorem ringRestart_memory (cause : Nat) (s : State) : (ringRestart cause s).memory = s.memory :=
  ringRestart_keep (·.memory) (by intros; rfl) cause s
@[simp] theorem ringRestart_time (cause : Nat) (s : State) : (ringRestart cause s).time = s.time := ringRestart_keep (·.time) (by intros; rfl) cause s
@[simp] theorem ringRestart_safety (cause : Nat) (s : State) : (ringRestart cause s).safety = s.safety :=
  ringRestart_keep (·.safety) (by intros; rfl) cause s
@[simp] theorem ringRestart_calib (cause : Nat) (s : State) : (ringRestart cause s).calib = s.calib :=
  ringRestart_keep (·.calib) (by intros; rfl) cause s
@[simp] theorem ringRestart_ticks (cause : Nat) (s : State) : (ringRestart cause s).ticks = s.ticks :=
  ringRestart_keep (·.ticks) (by intros; rfl) cause s
@[simp] theorem ringRestart_free (cause : Nat) (s : State) : (ringRestart cause s).free = s.free := ringRestart_keep (·.free) (by intros; rfl) cause s
@[simp] theorem ringRestart_pending (cause : Nat) (s : State) : (ringRestart cause s).pending = s.pending :=
  ringRestart_keep (·.pending) (by intros; rfl) cause s
@[simp] theorem ringDrop_power (s : State) : (ringDrop s).power = s.power := ringDrop_keep (·.power) (by intros; rfl) s
@[simp] theorem ringDrop_clocks (s : State) : (ringDrop s).clocks = s.clocks := ringDrop_keep (·.clocks) (by intros; rfl) s
@[simp] theorem ringDrop_straps (s : State) : (ringDrop s).straps = s.straps := ringDrop_keep (·.straps) (by intros; rfl) s
@[simp] theorem ringDrop_pins (s : State) : (ringDrop s).pins = s.pins := ringDrop_keep (·.pins) (by intros; rfl) s
@[simp] theorem ringDrop_mode (s : State) : (ringDrop s).mode = s.mode := ringDrop_keep (·.mode) (by intros; rfl) s
@[simp] theorem ringDrop_banks (s : State) : (ringDrop s).banks = s.banks := ringDrop_keep (·.banks) (by intros; rfl) s
@[simp] theorem ringDrop_booted (s : State) : (ringDrop s).booted = s.booted := ringDrop_keep (·.booted) (by intros; rfl) s
@[simp] theorem ringDrop_modeEntry (s : State) : (ringDrop s).modeEntry = s.modeEntry := ringDrop_keep (·.modeEntry) (by intros; rfl) s
@[simp] theorem ringDrop_firmware (s : State) : (ringDrop s).firmware = s.firmware := ringDrop_keep (·.firmware) (by intros; rfl) s
@[simp] theorem ringDrop_ports (s : State) : (ringDrop s).ports = s.ports := ringDrop_keep (·.ports) (by intros; rfl) s
@[simp] theorem ringDrop_herder (s : State) : (ringDrop s).herder = s.herder := ringDrop_keep (·.herder) (by intros; rfl) s
@[simp] theorem ringDrop_serif (s : State) : (ringDrop s).serif = s.serif := ringDrop_keep (·.serif) (by intros; rfl) s
@[simp] theorem ringDrop_raman (s : State) : (ringDrop s).raman = s.raman := ringDrop_keep (·.raman) (by intros; rfl) s
@[simp] theorem ringDrop_rtd (s : State) : (ringDrop s).rtd = s.rtd := ringDrop_keep (·.rtd) (by intros; rfl) s
@[simp] theorem ringDrop_hk (s : State) : (ringDrop s).hk = s.hk := ringDrop_keep (·.hk) (by intros; rfl) s
@[simp] theorem ringDrop_pointer (s : State) : (ringDrop s).pointer = s.pointer := ringDrop_keep (·.pointer) (by intros; rfl) s
@[simp] theorem ringDrop_memory (s : State) : (ringDrop s).memory = s.memory := ringDrop_keep (·.memory) (by intros; rfl) s
@[simp] theorem ringDrop_time (s : State) : (ringDrop s).time = s.time := ringDrop_keep (·.time) (by intros; rfl) s
@[simp] theorem ringDrop_safety (s : State) : (ringDrop s).safety = s.safety := ringDrop_keep (·.safety) (by intros; rfl) s
@[simp] theorem ringDrop_calib (s : State) : (ringDrop s).calib = s.calib := ringDrop_keep (·.calib) (by intros; rfl) s
@[simp] theorem ringDrop_ticks (s : State) : (ringDrop s).ticks = s.ticks := ringDrop_keep (·.ticks) (by intros; rfl) s
@[simp] theorem ringDrop_free (s : State) : (ringDrop s).free = s.free := ringDrop_keep (·.free) (by intros; rfl) s
@[simp] theorem ringDrop_pending (s : State) : (ringDrop s).pending = s.pending := ringDrop_keep (·.pending) (by intros; rfl) s
@[simp] theorem switchServices_power (old : Bank) (new : Bank) (p : Nat) (s : State) : (switchServices old new p s).power = s.power :=
  switchServices_keep (·.power) (by intros; rfl) old new p s
@[simp] theorem switchServices_clocks (old : Bank) (new : Bank) (p : Nat) (s : State) : (switchServices old new p s).clocks = s.clocks :=
  switchServices_keep (·.clocks) (by intros; rfl) old new p s
@[simp] theorem switchServices_straps (old : Bank) (new : Bank) (p : Nat) (s : State) : (switchServices old new p s).straps = s.straps :=
  switchServices_keep (·.straps) (by intros; rfl) old new p s
@[simp] theorem switchServices_pins (old : Bank) (new : Bank) (p : Nat) (s : State) : (switchServices old new p s).pins = s.pins :=
  switchServices_keep (·.pins) (by intros; rfl) old new p s
@[simp] theorem switchServices_mode (old : Bank) (new : Bank) (p : Nat) (s : State) : (switchServices old new p s).mode = s.mode :=
  switchServices_keep (·.mode) (by intros; rfl) old new p s
@[simp] theorem switchServices_banks (old : Bank) (new : Bank) (p : Nat) (s : State) : (switchServices old new p s).banks = s.banks :=
  switchServices_keep (·.banks) (by intros; rfl) old new p s
@[simp] theorem switchServices_booted (old : Bank) (new : Bank) (p : Nat) (s : State) : (switchServices old new p s).booted = s.booted :=
  switchServices_keep (·.booted) (by intros; rfl) old new p s
@[simp] theorem switchServices_modeEntry (old : Bank) (new : Bank) (p : Nat) (s : State) : (switchServices old new p s).modeEntry = s.modeEntry :=
  switchServices_keep (·.modeEntry) (by intros; rfl) old new p s
@[simp] theorem switchServices_journal (old : Bank) (new : Bank) (p : Nat) (s : State) : (switchServices old new p s).journal = s.journal :=
  switchServices_keep (·.journal) (by intros; rfl) old new p s
@[simp] theorem switchServices_firmware (old : Bank) (new : Bank) (p : Nat) (s : State) : (switchServices old new p s).firmware = s.firmware :=
  switchServices_keep (·.firmware) (by intros; rfl) old new p s
@[simp] theorem switchServices_ports (old : Bank) (new : Bank) (p : Nat) (s : State) : (switchServices old new p s).ports = s.ports :=
  switchServices_keep (·.ports) (by intros; rfl) old new p s
@[simp] theorem switchServices_rtd (old : Bank) (new : Bank) (p : Nat) (s : State) : (switchServices old new p s).rtd = s.rtd :=
  switchServices_keep (·.rtd) (by intros; rfl) old new p s
@[simp] theorem switchServices_hk (old : Bank) (new : Bank) (p : Nat) (s : State) : (switchServices old new p s).hk = s.hk :=
  switchServices_keep (·.hk) (by intros; rfl) old new p s
@[simp] theorem switchServices_memory (old : Bank) (new : Bank) (p : Nat) (s : State) : (switchServices old new p s).memory = s.memory :=
  switchServices_keep (·.memory) (by intros; rfl) old new p s
@[simp] theorem switchServices_time (old : Bank) (new : Bank) (p : Nat) (s : State) : (switchServices old new p s).time = s.time :=
  switchServices_keep (·.time) (by intros; rfl) old new p s
@[simp] theorem switchServices_safety (old : Bank) (new : Bank) (p : Nat) (s : State) : (switchServices old new p s).safety = s.safety :=
  switchServices_keep (·.safety) (by intros; rfl) old new p s
@[simp] theorem switchServices_calib (old : Bank) (new : Bank) (p : Nat) (s : State) : (switchServices old new p s).calib = s.calib :=
  switchServices_keep (·.calib) (by intros; rfl) old new p s
@[simp] theorem switchServices_ticks (old : Bank) (new : Bank) (p : Nat) (s : State) : (switchServices old new p s).ticks = s.ticks :=
  switchServices_keep (·.ticks) (by intros; rfl) old new p s
@[simp] theorem switchServices_pending (old : Bank) (new : Bank) (p : Nat) (s : State) : (switchServices old new p s).pending = s.pending :=
  switchServices_keep (·.pending) (by intros; rfl) old new p s
@[simp] theorem switchRaman_banks (old : Bank) (new : Bank) (p : Nat) (s : State) : (switchRaman old new p s).banks = s.banks :=
  switchRaman_keep (·.banks) (by intros; rfl) old new p s
@[simp] theorem switchRaman_journal (old : Bank) (new : Bank) (p : Nat) (s : State) : (switchRaman old new p s).journal = s.journal :=
  switchRaman_keep (·.journal) (by intros; rfl) old new p s
@[simp] theorem switchRaman_safety (old : Bank) (new : Bank) (p : Nat) (s : State) : (switchRaman old new p s).safety = s.safety :=
  switchRaman_keep (·.safety) (by intros; rfl) old new p s
@[simp] theorem endServices_banks (p : Nat) (s : State) : (endServices p s).banks = s.banks := endServices_keep (·.banks) (by intros; rfl) p s
@[simp] theorem endServices_journal (p : Nat) (s : State) : (endServices p s).journal = s.journal := endServices_keep (·.journal) (by intros; rfl) p s
@[simp] theorem endServices_safety (p : Nat) (s : State) : (endServices p s).safety = s.safety := endServices_keep (·.safety) (by intros; rfl) p s
@[simp] theorem switchGrid_banks (old : Bank) (new : Bank) (p : Nat) (s : State) : (switchGrid old new p s).banks = s.banks :=
  switchGrid_keep (·.banks) (by intros; rfl) old new p s
@[simp] theorem switchGrid_journal (old : Bank) (new : Bank) (p : Nat) (s : State) : (switchGrid old new p s).journal = s.journal :=
  switchGrid_keep (·.journal) (by intros; rfl) old new p s
@[simp] theorem switchGrid_safety (old : Bank) (new : Bank) (p : Nat) (s : State) : (switchGrid old new p s).safety = s.safety :=
  switchGrid_keep (·.safety) (by intros; rfl) old new p s
@[simp] theorem switchZones_banks (old : Bank) (new : Bank) (p : Nat) (s : State) : (switchZones old new p s).banks = s.banks :=
  switchZones_keep (·.banks) (by intros; rfl) old new p s
@[simp] theorem switchZones_journal (old : Bank) (new : Bank) (p : Nat) (s : State) : (switchZones old new p s).journal = s.journal :=
  switchZones_keep (·.journal) (by intros; rfl) old new p s
@[simp] theorem switchZones_safety (old : Bank) (new : Bank) (p : Nat) (s : State) : (switchZones old new p s).safety = s.safety :=
  switchZones_keep (·.safety) (by intros; rfl) old new p s
@[simp] theorem switchSlots_banks (old : Bank) (new : Bank) (p : Nat) (s : State) : (switchSlots old new p s).banks = s.banks :=
  switchSlots_keep (·.banks) (by intros; rfl) old new p s
@[simp] theorem switchSlots_journal (old : Bank) (new : Bank) (p : Nat) (s : State) : (switchSlots old new p s).journal = s.journal :=
  switchSlots_keep (·.journal) (by intros; rfl) old new p s
@[simp] theorem switchSlots_safety (old : Bank) (new : Bank) (p : Nat) (s : State) : (switchSlots old new p s).safety = s.safety :=
  switchSlots_keep (·.safety) (by intros; rfl) old new p s
@[simp] theorem switchLast_banks (old : Bank) (new : Bank) (s : State) : (switchLast old new s).banks = s.banks :=
  switchLast_keep (·.banks) (by intros; rfl) old new s
@[simp] theorem switchPort_mode (p : Nat) (s : State) : (switchPort p s).mode = s.mode := switchPort_keep (·.mode) (by intros; rfl) p s
@[simp] theorem finishSwitch_power (s : State) : (finishSwitch s).power = s.power := finishSwitch_keep (·.power) (by intros; rfl) s
@[simp] theorem finishSwitch_clocks (s : State) : (finishSwitch s).clocks = s.clocks := finishSwitch_keep (·.clocks) (by intros; rfl) s
@[simp] theorem finishSwitch_straps (s : State) : (finishSwitch s).straps = s.straps := finishSwitch_keep (·.straps) (by intros; rfl) s
@[simp] theorem finishSwitch_pins (s : State) : (finishSwitch s).pins = s.pins := finishSwitch_keep (·.pins) (by intros; rfl) s
@[simp] theorem finishSwitch_mode (s : State) : (finishSwitch s).mode = s.mode := finishSwitch_keep (·.mode) (by intros; rfl) s
@[simp] theorem finishSwitch_booted (s : State) : (finishSwitch s).booted = s.booted := finishSwitch_keep (·.booted) (by intros; rfl) s
@[simp] theorem finishSwitch_modeEntry (s : State) : (finishSwitch s).modeEntry = s.modeEntry := finishSwitch_keep (·.modeEntry) (by intros; rfl) s
@[simp] theorem finishSwitch_firmware (s : State) : (finishSwitch s).firmware = s.firmware := finishSwitch_keep (·.firmware) (by intros; rfl) s
@[simp] theorem finishSwitch_rtd (s : State) : (finishSwitch s).rtd = s.rtd := finishSwitch_keep (·.rtd) (by intros; rfl) s
@[simp] theorem finishSwitch_hk (s : State) : (finishSwitch s).hk = s.hk := finishSwitch_keep (·.hk) (by intros; rfl) s
@[simp] theorem finishSwitch_memory (s : State) : (finishSwitch s).memory = s.memory := finishSwitch_keep (·.memory) (by intros; rfl) s
@[simp] theorem finishSwitch_time (s : State) : (finishSwitch s).time = s.time := finishSwitch_keep (·.time) (by intros; rfl) s
@[simp] theorem finishSwitch_calib (s : State) : (finishSwitch s).calib = s.calib := finishSwitch_keep (·.calib) (by intros; rfl) s
@[simp] theorem finishSwitch_ticks (s : State) : (finishSwitch s).ticks = s.ticks := finishSwitch_keep (·.ticks) (by intros; rfl) s
@[simp] theorem finishSwitch_pending (s : State) : (finishSwitch s).pending = s.pending := finishSwitch_keep (·.pending) (by intros; rfl) s
@[simp] theorem closeAllRecords_power (s : State) : (closeAllRecords s).power = s.power := closeAllRecords_keep (·.power) (by intros; rfl) s
@[simp] theorem closeAllRecords_clocks (s : State) : (closeAllRecords s).clocks = s.clocks := closeAllRecords_keep (·.clocks) (by intros; rfl) s
@[simp] theorem closeAllRecords_straps (s : State) : (closeAllRecords s).straps = s.straps := closeAllRecords_keep (·.straps) (by intros; rfl) s
@[simp] theorem closeAllRecords_pins (s : State) : (closeAllRecords s).pins = s.pins := closeAllRecords_keep (·.pins) (by intros; rfl) s
@[simp] theorem closeAllRecords_mode (s : State) : (closeAllRecords s).mode = s.mode := closeAllRecords_keep (·.mode) (by intros; rfl) s
@[simp] theorem closeAllRecords_banks (s : State) : (closeAllRecords s).banks = s.banks := closeAllRecords_keep (·.banks) (by intros; rfl) s
@[simp] theorem closeAllRecords_booted (s : State) : (closeAllRecords s).booted = s.booted := closeAllRecords_keep (·.booted) (by intros; rfl) s
@[simp] theorem closeAllRecords_modeEntry (s : State) : (closeAllRecords s).modeEntry = s.modeEntry :=
  closeAllRecords_keep (·.modeEntry) (by intros; rfl) s
@[simp] theorem closeAllRecords_firmware (s : State) : (closeAllRecords s).firmware = s.firmware :=
  closeAllRecords_keep (·.firmware) (by intros; rfl) s
@[simp] theorem closeAllRecords_ports (s : State) : (closeAllRecords s).ports = s.ports := closeAllRecords_keep (·.ports) (by intros; rfl) s
@[simp] theorem closeAllRecords_herder (s : State) : (closeAllRecords s).herder = s.herder := closeAllRecords_keep (·.herder) (by intros; rfl) s
@[simp] theorem closeAllRecords_serif (s : State) : (closeAllRecords s).serif = s.serif := closeAllRecords_keep (·.serif) (by intros; rfl) s
@[simp] theorem closeAllRecords_raman (s : State) : (closeAllRecords s).raman = s.raman := closeAllRecords_keep (·.raman) (by intros; rfl) s
@[simp] theorem closeAllRecords_rtd (s : State) : (closeAllRecords s).rtd = s.rtd := closeAllRecords_keep (·.rtd) (by intros; rfl) s
@[simp] theorem closeAllRecords_hk (s : State) : (closeAllRecords s).hk = s.hk := closeAllRecords_keep (·.hk) (by intros; rfl) s
@[simp] theorem closeAllRecords_memory (s : State) : (closeAllRecords s).memory = s.memory := closeAllRecords_keep (·.memory) (by intros; rfl) s
@[simp] theorem closeAllRecords_time (s : State) : (closeAllRecords s).time = s.time := closeAllRecords_keep (·.time) (by intros; rfl) s
@[simp] theorem closeAllRecords_safety (s : State) : (closeAllRecords s).safety = s.safety := closeAllRecords_keep (·.safety) (by intros; rfl) s
@[simp] theorem closeAllRecords_calib (s : State) : (closeAllRecords s).calib = s.calib := closeAllRecords_keep (·.calib) (by intros; rfl) s
@[simp] theorem closeAllRecords_ticks (s : State) : (closeAllRecords s).ticks = s.ticks := closeAllRecords_keep (·.ticks) (by intros; rfl) s
@[simp] theorem closeAllRecords_free (s : State) : (closeAllRecords s).free = s.free := closeAllRecords_keep (·.free) (by intros; rfl) s
@[simp] theorem closeAllRecords_pending (s : State) : (closeAllRecords s).pending = s.pending := closeAllRecords_keep (·.pending) (by intros; rfl) s
@[simp] theorem dropWork_mode (s : State) : (dropWork s).mode = s.mode := dropWork_keep (·.mode) (by intros; rfl) s
@[simp] theorem dropWork_safety (s : State) : (dropWork s).safety = s.safety := dropWork_keep (·.safety) (by intros; rfl) s
@[simp] theorem withdrawDevice_power (old : State) (terms : Nat) (s : State) : (withdrawDevice old terms s).power = s.power :=
  withdrawDevice_keep (·.power) (by intros; rfl) old terms s
@[simp] theorem withdrawDevice_clocks (old : State) (terms : Nat) (s : State) : (withdrawDevice old terms s).clocks = s.clocks :=
  withdrawDevice_keep (·.clocks) (by intros; rfl) old terms s
@[simp] theorem withdrawDevice_memory (old : State) (terms : Nat) (s : State) : (withdrawDevice old terms s).memory = s.memory :=
  withdrawDevice_keep (·.memory) (by intros; rfl) old terms s
@[simp] theorem withdrawDevice_time (old : State) (terms : Nat) (s : State) : (withdrawDevice old terms s).time = s.time :=
  withdrawDevice_keep (·.time) (by intros; rfl) old terms s
@[simp] theorem deviceTermFalls_power (old : State) (term : Nat) (s : State) : (deviceTermFalls old term s).power = s.power :=
  deviceTermFalls_keep (·.power) (by intros; rfl) old term s
@[simp] theorem deviceTermFalls_clocks (old : State) (term : Nat) (s : State) : (deviceTermFalls old term s).clocks = s.clocks :=
  deviceTermFalls_keep (·.clocks) (by intros; rfl) old term s
@[simp] theorem deviceTermFalls_memory (old : State) (term : Nat) (s : State) : (deviceTermFalls old term s).memory = s.memory :=
  deviceTermFalls_keep (·.memory) (by intros; rfl) old term s
@[simp] theorem deviceTermFalls_time (old : State) (term : Nat) (s : State) : (deviceTermFalls old term s).time = s.time :=
  deviceTermFalls_keep (·.time) (by intros; rfl) old term s
@[simp] theorem retarget_power (s : State) : (retarget s).power = s.power := retarget_keep (·.power) (by intros; rfl) s
@[simp] theorem retarget_clocks (s : State) : (retarget s).clocks = s.clocks := retarget_keep (·.clocks) (by intros; rfl) s
@[simp] theorem retarget_straps (s : State) : (retarget s).straps = s.straps := retarget_keep (·.straps) (by intros; rfl) s
@[simp] theorem retarget_pins (s : State) : (retarget s).pins = s.pins := retarget_keep (·.pins) (by intros; rfl) s
@[simp] theorem retarget_mode (s : State) : (retarget s).mode = s.mode := retarget_keep (·.mode) (by intros; rfl) s
@[simp] theorem retarget_banks (s : State) : (retarget s).banks = s.banks := retarget_keep (·.banks) (by intros; rfl) s
@[simp] theorem retarget_params (s : State) : (retarget s).params = s.params := retarget_keep (·.params) (by intros; rfl) s
@[simp] theorem retarget_booted (s : State) : (retarget s).booted = s.booted := retarget_keep (·.booted) (by intros; rfl) s
@[simp] theorem retarget_modeEntry (s : State) : (retarget s).modeEntry = s.modeEntry := retarget_keep (·.modeEntry) (by intros; rfl) s
@[simp] theorem retarget_firmware (s : State) : (retarget s).firmware = s.firmware := retarget_keep (·.firmware) (by intros; rfl) s
@[simp] theorem retarget_herder (s : State) : (retarget s).herder = s.herder := retarget_keep (·.herder) (by intros; rfl) s
@[simp] theorem retarget_serif (s : State) : (retarget s).serif = s.serif := retarget_keep (·.serif) (by intros; rfl) s
@[simp] theorem retarget_raman (s : State) : (retarget s).raman = s.raman := retarget_keep (·.raman) (by intros; rfl) s
@[simp] theorem retarget_rtd (s : State) : (retarget s).rtd = s.rtd := retarget_keep (·.rtd) (by intros; rfl) s
@[simp] theorem retarget_hk (s : State) : (retarget s).hk = s.hk := retarget_keep (·.hk) (by intros; rfl) s
@[simp] theorem retarget_pointer (s : State) : (retarget s).pointer = s.pointer := retarget_keep (·.pointer) (by intros; rfl) s
@[simp] theorem retarget_inkstone (s : State) : (retarget s).inkstone = s.inkstone := retarget_keep (·.inkstone) (by intros; rfl) s
@[simp] theorem retarget_memory (s : State) : (retarget s).memory = s.memory := retarget_keep (·.memory) (by intros; rfl) s
@[simp] theorem retarget_safety (s : State) : (retarget s).safety = s.safety := retarget_keep (·.safety) (by intros; rfl) s
@[simp] theorem retarget_calib (s : State) : (retarget s).calib = s.calib := retarget_keep (·.calib) (by intros; rfl) s
@[simp] theorem retarget_ticks (s : State) : (retarget s).ticks = s.ticks := retarget_keep (·.ticks) (by intros; rfl) s
@[simp] theorem retarget_free (s : State) : (retarget s).free = s.free := retarget_keep (·.free) (by intros; rfl) s
@[simp] theorem retarget_pending (s : State) : (retarget s).pending = s.pending := retarget_keep (·.pending) (by intros; rfl) s
@[simp] theorem leaveHoldover_clocks (s : State) : (leaveHoldover s).clocks = s.clocks := leaveHoldover_keep (·.clocks) (by intros; rfl) s
@[simp] theorem leaveHoldover_mode (s : State) : (leaveHoldover s).mode = s.mode := leaveHoldover_keep (·.mode) (by intros; rfl) s
@[simp] theorem switchDomain_power (d : Fin 2) (auto : Bool) (s : State) : (switchDomain d auto s).power = s.power :=
  switchDomain_keep (·.power) (by intros; rfl) d auto s
@[simp] theorem switchDomain_clocks (d : Fin 2) (auto : Bool) (s : State) : (switchDomain d auto s).clocks = s.clocks :=
  switchDomain_keep (·.clocks) (by intros; rfl) d auto s
@[simp] theorem switchDomain_straps (d : Fin 2) (auto : Bool) (s : State) : (switchDomain d auto s).straps = s.straps :=
  switchDomain_keep (·.straps) (by intros; rfl) d auto s
@[simp] theorem switchDomain_pins (d : Fin 2) (auto : Bool) (s : State) : (switchDomain d auto s).pins = s.pins :=
  switchDomain_keep (·.pins) (by intros; rfl) d auto s
@[simp] theorem switchDomain_mode (d : Fin 2) (auto : Bool) (s : State) : (switchDomain d auto s).mode = s.mode :=
  switchDomain_keep (·.mode) (by intros; rfl) d auto s
@[simp] theorem switchDomain_banks (d : Fin 2) (auto : Bool) (s : State) : (switchDomain d auto s).banks = s.banks :=
  switchDomain_keep (·.banks) (by intros; rfl) d auto s
@[simp] theorem switchDomain_booted (d : Fin 2) (auto : Bool) (s : State) : (switchDomain d auto s).booted = s.booted :=
  switchDomain_keep (·.booted) (by intros; rfl) d auto s
@[simp] theorem switchDomain_modeEntry (d : Fin 2) (auto : Bool) (s : State) : (switchDomain d auto s).modeEntry = s.modeEntry :=
  switchDomain_keep (·.modeEntry) (by intros; rfl) d auto s
@[simp] theorem switchDomain_firmware (d : Fin 2) (auto : Bool) (s : State) : (switchDomain d auto s).firmware = s.firmware :=
  switchDomain_keep (·.firmware) (by intros; rfl) d auto s
@[simp] theorem switchDomain_herder (d : Fin 2) (auto : Bool) (s : State) : (switchDomain d auto s).herder = s.herder :=
  switchDomain_keep (·.herder) (by intros; rfl) d auto s
@[simp] theorem switchDomain_serif (d : Fin 2) (auto : Bool) (s : State) : (switchDomain d auto s).serif = s.serif :=
  switchDomain_keep (·.serif) (by intros; rfl) d auto s
@[simp] theorem switchDomain_raman (d : Fin 2) (auto : Bool) (s : State) : (switchDomain d auto s).raman = s.raman :=
  switchDomain_keep (·.raman) (by intros; rfl) d auto s
@[simp] theorem switchDomain_rtd (d : Fin 2) (auto : Bool) (s : State) : (switchDomain d auto s).rtd = s.rtd :=
  switchDomain_keep (·.rtd) (by intros; rfl) d auto s
@[simp] theorem switchDomain_hk (d : Fin 2) (auto : Bool) (s : State) : (switchDomain d auto s).hk = s.hk :=
  switchDomain_keep (·.hk) (by intros; rfl) d auto s
@[simp] theorem switchDomain_pointer (d : Fin 2) (auto : Bool) (s : State) : (switchDomain d auto s).pointer = s.pointer :=
  switchDomain_keep (·.pointer) (by intros; rfl) d auto s
@[simp] theorem switchDomain_inkstone (d : Fin 2) (auto : Bool) (s : State) : (switchDomain d auto s).inkstone = s.inkstone :=
  switchDomain_keep (·.inkstone) (by intros; rfl) d auto s
@[simp] theorem switchDomain_memory (d : Fin 2) (auto : Bool) (s : State) : (switchDomain d auto s).memory = s.memory :=
  switchDomain_keep (·.memory) (by intros; rfl) d auto s
@[simp] theorem switchDomain_safety (d : Fin 2) (auto : Bool) (s : State) : (switchDomain d auto s).safety = s.safety :=
  switchDomain_keep (·.safety) (by intros; rfl) d auto s
@[simp] theorem switchDomain_calib (d : Fin 2) (auto : Bool) (s : State) : (switchDomain d auto s).calib = s.calib :=
  switchDomain_keep (·.calib) (by intros; rfl) d auto s
@[simp] theorem switchDomain_ticks (d : Fin 2) (auto : Bool) (s : State) : (switchDomain d auto s).ticks = s.ticks :=
  switchDomain_keep (·.ticks) (by intros; rfl) d auto s
@[simp] theorem switchDomain_free (d : Fin 2) (auto : Bool) (s : State) : (switchDomain d auto s).free = s.free :=
  switchDomain_keep (·.free) (by intros; rfl) d auto s
@[simp] theorem switchDomain_pending (d : Fin 2) (auto : Bool) (s : State) : (switchDomain d auto s).pending = s.pending :=
  switchDomain_keep (·.pending) (by intros; rfl) d auto s
@[simp] theorem enterHoldover_power (cause : Nat) (s : State) : (enterHoldover cause s).power = s.power :=
  enterHoldover_keep (·.power) (by intros; rfl) cause s
@[simp] theorem enterHoldover_clocks (cause : Nat) (s : State) : (enterHoldover cause s).clocks = s.clocks :=
  enterHoldover_keep (·.clocks) (by intros; rfl) cause s
@[simp] theorem enterHoldover_mode (cause : Nat) (s : State) : (enterHoldover cause s).mode = s.mode :=
  enterHoldover_keep (·.mode) (by intros; rfl) cause s
@[simp] theorem enterHoldover_banks (cause : Nat) (s : State) : (enterHoldover cause s).banks = s.banks :=
  enterHoldover_keep (·.banks) (by intros; rfl) cause s
@[simp] theorem enterFault_clocks (code : Nat) (present : Bool) (s : State) : (enterFault code present s).clocks = s.clocks :=
  enterFault_keep (·.clocks) (by intros; rfl) code present s
@[simp] theorem enterFault_memory (code : Nat) (present : Bool) (s : State) : (enterFault code present s).memory = s.memory :=
  enterFault_keep (·.memory) (by intros; rfl) code present s
@[simp] theorem enterFault_calib (code : Nat) (present : Bool) (s : State) : (enterFault code present s).calib = s.calib :=
  enterFault_keep (·.calib) (by intros; rfl) code present s
@[simp] theorem wakeDram_mode (s : State) : (wakeDram s).mode = s.mode := wakeDram_keep (·.mode) (by intros; rfl) s
@[simp] theorem journalSteps_power (n : Nat) (k : Nat) (s : State) : (journalSteps n k s).power = s.power :=
  journalSteps_keep (·.power) (by intros; rfl) n k s
@[simp] theorem journalSteps_clocks (n : Nat) (k : Nat) (s : State) : (journalSteps n k s).clocks = s.clocks :=
  journalSteps_keep (·.clocks) (by intros; rfl) n k s
@[simp] theorem journalSteps_straps (n : Nat) (k : Nat) (s : State) : (journalSteps n k s).straps = s.straps :=
  journalSteps_keep (·.straps) (by intros; rfl) n k s
@[simp] theorem journalSteps_pins (n : Nat) (k : Nat) (s : State) : (journalSteps n k s).pins = s.pins :=
  journalSteps_keep (·.pins) (by intros; rfl) n k s
@[simp] theorem journalSteps_mode (n : Nat) (k : Nat) (s : State) : (journalSteps n k s).mode = s.mode :=
  journalSteps_keep (·.mode) (by intros; rfl) n k s
@[simp] theorem journalSteps_banks (n : Nat) (k : Nat) (s : State) : (journalSteps n k s).banks = s.banks :=
  journalSteps_keep (·.banks) (by intros; rfl) n k s
@[simp] theorem journalSteps_booted (n : Nat) (k : Nat) (s : State) : (journalSteps n k s).booted = s.booted :=
  journalSteps_keep (·.booted) (by intros; rfl) n k s
@[simp] theorem journalSteps_modeEntry (n : Nat) (k : Nat) (s : State) : (journalSteps n k s).modeEntry = s.modeEntry :=
  journalSteps_keep (·.modeEntry) (by intros; rfl) n k s
@[simp] theorem journalSteps_firmware (n : Nat) (k : Nat) (s : State) : (journalSteps n k s).firmware = s.firmware :=
  journalSteps_keep (·.firmware) (by intros; rfl) n k s
@[simp] theorem journalSteps_ports (n : Nat) (k : Nat) (s : State) : (journalSteps n k s).ports = s.ports :=
  journalSteps_keep (·.ports) (by intros; rfl) n k s
@[simp] theorem journalSteps_herder (n : Nat) (k : Nat) (s : State) : (journalSteps n k s).herder = s.herder :=
  journalSteps_keep (·.herder) (by intros; rfl) n k s
@[simp] theorem journalSteps_serif (n : Nat) (k : Nat) (s : State) : (journalSteps n k s).serif = s.serif :=
  journalSteps_keep (·.serif) (by intros; rfl) n k s
@[simp] theorem journalSteps_raman (n : Nat) (k : Nat) (s : State) : (journalSteps n k s).raman = s.raman :=
  journalSteps_keep (·.raman) (by intros; rfl) n k s
@[simp] theorem journalSteps_rtd (n : Nat) (k : Nat) (s : State) : (journalSteps n k s).rtd = s.rtd :=
  journalSteps_keep (·.rtd) (by intros; rfl) n k s
@[simp] theorem journalSteps_hk (n : Nat) (k : Nat) (s : State) : (journalSteps n k s).hk = s.hk := journalSteps_keep (·.hk) (by intros; rfl) n k s
@[simp] theorem journalSteps_pointer (n : Nat) (k : Nat) (s : State) : (journalSteps n k s).pointer = s.pointer :=
  journalSteps_keep (·.pointer) (by intros; rfl) n k s
@[simp] theorem journalSteps_inkstone (n : Nat) (k : Nat) (s : State) : (journalSteps n k s).inkstone = s.inkstone :=
  journalSteps_keep (·.inkstone) (by intros; rfl) n k s
@[simp] theorem journalSteps_memory (n : Nat) (k : Nat) (s : State) : (journalSteps n k s).memory = s.memory :=
  journalSteps_keep (·.memory) (by intros; rfl) n k s
@[simp] theorem journalSteps_time (n : Nat) (k : Nat) (s : State) : (journalSteps n k s).time = s.time :=
  journalSteps_keep (·.time) (by intros; rfl) n k s
@[simp] theorem journalSteps_safety (n : Nat) (k : Nat) (s : State) : (journalSteps n k s).safety = s.safety :=
  journalSteps_keep (·.safety) (by intros; rfl) n k s
@[simp] theorem journalSteps_calib (n : Nat) (k : Nat) (s : State) : (journalSteps n k s).calib = s.calib :=
  journalSteps_keep (·.calib) (by intros; rfl) n k s
@[simp] theorem journalSteps_ticks (n : Nat) (k : Nat) (s : State) : (journalSteps n k s).ticks = s.ticks :=
  journalSteps_keep (·.ticks) (by intros; rfl) n k s
@[simp] theorem journalSteps_free (n : Nat) (k : Nat) (s : State) : (journalSteps n k s).free = s.free :=
  journalSteps_keep (·.free) (by intros; rfl) n k s
@[simp] theorem journalSteps_pending (n : Nat) (k : Nat) (s : State) : (journalSteps n k s).pending = s.pending :=
  journalSteps_keep (·.pending) (by intros; rfl) n k s
@[simp] theorem plugRelease_power (p : Nat) (s : State) : (plugRelease p s).power = s.power := plugRelease_keep (·.power) (by intros; rfl) p s
@[simp] theorem plugRelease_clocks (p : Nat) (s : State) : (plugRelease p s).clocks = s.clocks := plugRelease_keep (·.clocks) (by intros; rfl) p s
@[simp] theorem plugRelease_straps (p : Nat) (s : State) : (plugRelease p s).straps = s.straps := plugRelease_keep (·.straps) (by intros; rfl) p s
@[simp] theorem plugRelease_pins (p : Nat) (s : State) : (plugRelease p s).pins = s.pins := plugRelease_keep (·.pins) (by intros; rfl) p s
@[simp] theorem plugRelease_mode (p : Nat) (s : State) : (plugRelease p s).mode = s.mode := plugRelease_keep (·.mode) (by intros; rfl) p s
@[simp] theorem plugRelease_banks (p : Nat) (s : State) : (plugRelease p s).banks = s.banks := plugRelease_keep (·.banks) (by intros; rfl) p s
@[simp] theorem plugRelease_booted (p : Nat) (s : State) : (plugRelease p s).booted = s.booted := plugRelease_keep (·.booted) (by intros; rfl) p s
@[simp] theorem plugRelease_modeEntry (p : Nat) (s : State) : (plugRelease p s).modeEntry = s.modeEntry :=
  plugRelease_keep (·.modeEntry) (by intros; rfl) p s
@[simp] theorem plugRelease_firmware (p : Nat) (s : State) : (plugRelease p s).firmware = s.firmware :=
  plugRelease_keep (·.firmware) (by intros; rfl) p s
@[simp] theorem plugRelease_herder (p : Nat) (s : State) : (plugRelease p s).herder = s.herder := plugRelease_keep (·.herder) (by intros; rfl) p s
@[simp] theorem plugRelease_serif (p : Nat) (s : State) : (plugRelease p s).serif = s.serif := plugRelease_keep (·.serif) (by intros; rfl) p s
@[simp] theorem plugRelease_rtd (p : Nat) (s : State) : (plugRelease p s).rtd = s.rtd := plugRelease_keep (·.rtd) (by intros; rfl) p s
@[simp] theorem plugRelease_hk (p : Nat) (s : State) : (plugRelease p s).hk = s.hk := plugRelease_keep (·.hk) (by intros; rfl) p s
@[simp] theorem plugRelease_pointer (p : Nat) (s : State) : (plugRelease p s).pointer = s.pointer := plugRelease_keep (·.pointer) (by intros; rfl) p s
@[simp] theorem plugRelease_inkstone (p : Nat) (s : State) : (plugRelease p s).inkstone = s.inkstone :=
  plugRelease_keep (·.inkstone) (by intros; rfl) p s
@[simp] theorem plugRelease_memory (p : Nat) (s : State) : (plugRelease p s).memory = s.memory := plugRelease_keep (·.memory) (by intros; rfl) p s
@[simp] theorem plugRelease_time (p : Nat) (s : State) : (plugRelease p s).time = s.time := plugRelease_keep (·.time) (by intros; rfl) p s
@[simp] theorem plugRelease_calib (p : Nat) (s : State) : (plugRelease p s).calib = s.calib := plugRelease_keep (·.calib) (by intros; rfl) p s
@[simp] theorem plugRelease_ticks (p : Nat) (s : State) : (plugRelease p s).ticks = s.ticks := plugRelease_keep (·.ticks) (by intros; rfl) p s
@[simp] theorem plugRelease_free (p : Nat) (s : State) : (plugRelease p s).free = s.free := plugRelease_keep (·.free) (by intros; rfl) p s
@[simp] theorem plugRelease_pending (p : Nat) (s : State) : (plugRelease p s).pending = s.pending := plugRelease_keep (·.pending) (by intros; rfl) p s
@[simp] theorem tdcGrade_power (s : State) : (tdcGrade s).power = s.power := tdcGrade_keep (·.power) (by intros; rfl) s
@[simp] theorem tdcGrade_clocks (s : State) : (tdcGrade s).clocks = s.clocks := tdcGrade_keep (·.clocks) (by intros; rfl) s
@[simp] theorem tdcGrade_mode (s : State) : (tdcGrade s).mode = s.mode := tdcGrade_keep (·.mode) (by intros; rfl) s
@[simp] theorem tdcGrade_evq (s : State) : (tdcGrade s).evq = s.evq := tdcGrade_keep (·.evq) (by intros; rfl) s
@[simp] theorem tdcGrade_ports (s : State) : (tdcGrade s).ports = s.ports := tdcGrade_keep (·.ports) (by intros; rfl) s
@[simp] theorem refReact_mode (s : State) : (refReact s).mode = s.mode := refReact_keep (·.mode) (by intros; rfl) s
@[simp] theorem stageValue_power (id : Nat) (idx : Nat) (v : Int) (s : State) : (stageValue id idx v s).power = s.power :=
  stageValue_keep (·.power) (by intros; rfl) id idx v s
@[simp] theorem stageValue_clocks (id : Nat) (idx : Nat) (v : Int) (s : State) : (stageValue id idx v s).clocks = s.clocks :=
  stageValue_keep (·.clocks) (by intros; rfl) id idx v s
@[simp] theorem stageValue_mode (id : Nat) (idx : Nat) (v : Int) (s : State) : (stageValue id idx v s).mode = s.mode :=
  stageValue_keep (·.mode) (by intros; rfl) id idx v s
@[simp] theorem stageValue_ports (id : Nat) (idx : Nat) (v : Int) (s : State) : (stageValue id idx v s).ports = s.ports :=
  stageValue_keep (·.ports) (by intros; rfl) id idx v s
@[simp] theorem stageValue_memory (id : Nat) (idx : Nat) (v : Int) (s : State) : (stageValue id idx v s).memory = s.memory :=
  stageValue_keep (·.memory) (by intros; rfl) id idx v s
@[simp] theorem stageValue_safety (id : Nat) (idx : Nat) (v : Int) (s : State) : (stageValue id idx v s).safety = s.safety :=
  stageValue_keep (·.safety) (by intros; rfl) id idx v s
@[simp] theorem stageValue_pending (id : Nat) (idx : Nat) (v : Int) (s : State) : (stageValue id idx v s).pending = s.pending :=
  stageValue_keep (·.pending) (by intros; rfl) id idx v s
@[simp] theorem beginTransition_power (t : Transition) (s : State) : (beginTransition t s).power = s.power :=
  beginTransition_keep (·.power) (by intros; rfl) t s
@[simp] theorem beginTransition_banks (t : Transition) (s : State) : (beginTransition t s).banks = s.banks :=
  beginTransition_keep (·.banks) (by intros; rfl) t s
@[simp] theorem beginTransition_journal (t : Transition) (s : State) : (beginTransition t s).journal = s.journal :=
  beginTransition_keep (·.journal) (by intros; rfl) t s
@[simp] theorem discardStaged_power (q : Nat) (cause : Nat) (s : State) : (discardStaged q cause s).power = s.power :=
  discardStaged_keep (·.power) (by intros; rfl) q cause s
@[simp] theorem discardStaged_clocks (q : Nat) (cause : Nat) (s : State) : (discardStaged q cause s).clocks = s.clocks :=
  discardStaged_keep (·.clocks) (by intros; rfl) q cause s
@[simp] theorem discardStaged_straps (q : Nat) (cause : Nat) (s : State) : (discardStaged q cause s).straps = s.straps :=
  discardStaged_keep (·.straps) (by intros; rfl) q cause s
@[simp] theorem discardStaged_pins (q : Nat) (cause : Nat) (s : State) : (discardStaged q cause s).pins = s.pins :=
  discardStaged_keep (·.pins) (by intros; rfl) q cause s
@[simp] theorem discardStaged_mode (q : Nat) (cause : Nat) (s : State) : (discardStaged q cause s).mode = s.mode :=
  discardStaged_keep (·.mode) (by intros; rfl) q cause s
@[simp] theorem discardStaged_banks (q : Nat) (cause : Nat) (s : State) : (discardStaged q cause s).banks = s.banks :=
  discardStaged_keep (·.banks) (by intros; rfl) q cause s
@[simp] theorem discardStaged_booted (q : Nat) (cause : Nat) (s : State) : (discardStaged q cause s).booted = s.booted :=
  discardStaged_keep (·.booted) (by intros; rfl) q cause s
@[simp] theorem discardStaged_modeEntry (q : Nat) (cause : Nat) (s : State) : (discardStaged q cause s).modeEntry = s.modeEntry :=
  discardStaged_keep (·.modeEntry) (by intros; rfl) q cause s
@[simp] theorem discardStaged_firmware (q : Nat) (cause : Nat) (s : State) : (discardStaged q cause s).firmware = s.firmware :=
  discardStaged_keep (·.firmware) (by intros; rfl) q cause s
@[simp] theorem discardStaged_ports (q : Nat) (cause : Nat) (s : State) : (discardStaged q cause s).ports = s.ports :=
  discardStaged_keep (·.ports) (by intros; rfl) q cause s
@[simp] theorem discardStaged_herder (q : Nat) (cause : Nat) (s : State) : (discardStaged q cause s).herder = s.herder :=
  discardStaged_keep (·.herder) (by intros; rfl) q cause s
@[simp] theorem discardStaged_serif (q : Nat) (cause : Nat) (s : State) : (discardStaged q cause s).serif = s.serif :=
  discardStaged_keep (·.serif) (by intros; rfl) q cause s
@[simp] theorem discardStaged_raman (q : Nat) (cause : Nat) (s : State) : (discardStaged q cause s).raman = s.raman :=
  discardStaged_keep (·.raman) (by intros; rfl) q cause s
@[simp] theorem discardStaged_rtd (q : Nat) (cause : Nat) (s : State) : (discardStaged q cause s).rtd = s.rtd :=
  discardStaged_keep (·.rtd) (by intros; rfl) q cause s
@[simp] theorem discardStaged_hk (q : Nat) (cause : Nat) (s : State) : (discardStaged q cause s).hk = s.hk :=
  discardStaged_keep (·.hk) (by intros; rfl) q cause s
@[simp] theorem discardStaged_pointer (q : Nat) (cause : Nat) (s : State) : (discardStaged q cause s).pointer = s.pointer :=
  discardStaged_keep (·.pointer) (by intros; rfl) q cause s
@[simp] theorem discardStaged_inkstone (q : Nat) (cause : Nat) (s : State) : (discardStaged q cause s).inkstone = s.inkstone :=
  discardStaged_keep (·.inkstone) (by intros; rfl) q cause s
@[simp] theorem discardStaged_memory (q : Nat) (cause : Nat) (s : State) : (discardStaged q cause s).memory = s.memory :=
  discardStaged_keep (·.memory) (by intros; rfl) q cause s
@[simp] theorem discardStaged_time (q : Nat) (cause : Nat) (s : State) : (discardStaged q cause s).time = s.time :=
  discardStaged_keep (·.time) (by intros; rfl) q cause s
@[simp] theorem discardStaged_safety (q : Nat) (cause : Nat) (s : State) : (discardStaged q cause s).safety = s.safety :=
  discardStaged_keep (·.safety) (by intros; rfl) q cause s
@[simp] theorem discardStaged_calib (q : Nat) (cause : Nat) (s : State) : (discardStaged q cause s).calib = s.calib :=
  discardStaged_keep (·.calib) (by intros; rfl) q cause s
@[simp] theorem discardStaged_ticks (q : Nat) (cause : Nat) (s : State) : (discardStaged q cause s).ticks = s.ticks :=
  discardStaged_keep (·.ticks) (by intros; rfl) q cause s
@[simp] theorem discardStaged_free (q : Nat) (cause : Nat) (s : State) : (discardStaged q cause s).free = s.free :=
  discardStaged_keep (·.free) (by intros; rfl) q cause s
@[simp] theorem discardStaged_pending (q : Nat) (cause : Nat) (s : State) : (discardStaged q cause s).pending = s.pending :=
  discardStaged_keep (·.pending) (by intros; rfl) q cause s
@[simp] theorem ethDown_power (n : Nat) (s : State) : (ethDown n s).power = s.power := ethDown_keep (·.power) (by intros; rfl) n s
@[simp] theorem ethDown_mode (n : Nat) (s : State) : (ethDown n s).mode = s.mode := ethDown_keep (·.mode) (by intros; rfl) n s
@[simp] theorem ethDown_time (n : Nat) (s : State) : (ethDown n s).time = s.time := ethDown_keep (·.time) (by intros; rfl) n s
@[simp] theorem ethDown_safety (n : Nat) (s : State) : (ethDown n s).safety = s.safety := ethDown_keep (·.safety) (by intros; rfl) n s
@[simp] theorem ethDown_ticks (n : Nat) (s : State) : (ethDown n s).ticks = s.ticks := ethDown_keep (·.ticks) (by intros; rfl) n s
@[simp] theorem ethDown_pending (n : Nat) (s : State) : (ethDown n s).pending = s.pending := ethDown_keep (·.pending) (by intros; rfl) n s
@[simp] theorem linksFollow_mode (s : State) : (linksFollow s).mode = s.mode := linksFollow_keep (·.mode) (by intros; rfl) s
@[simp] theorem linksFollow_banks (s : State) : (linksFollow s).banks = s.banks := linksFollow_keep (·.banks) (by intros; rfl) s
@[simp] theorem linksFollow_journal (s : State) : (linksFollow s).journal = s.journal := linksFollow_keep (·.journal) (by intros; rfl) s
@[simp] theorem activate_power (new : Bank) (run : Plan) (sentinel : Plan) (s : State) : (activate new run sentinel s).power = s.power :=
  activate_keep (·.power) (by intros; rfl) new run sentinel s
@[simp] theorem activate_clocks (new : Bank) (run : Plan) (sentinel : Plan) (s : State) : (activate new run sentinel s).clocks = s.clocks :=
  activate_keep (·.clocks) (by intros; rfl) new run sentinel s
@[simp] theorem enqueue_mode (r : Request) (s : State) : (enqueue r s).mode = s.mode := enqueue_keep (·.mode) (by intros; rfl) r s
@[simp] theorem enqueue_pair (r : Request) (s : State) : (enqueue r s).pair = s.pair := enqueue_keep (·.pair) (by intros; rfl) r s
@[simp] theorem loseHistory_memory (z : Nat) (arg : Nat) (lost : Nat) (s : State) : (loseHistory z arg lost s).memory = s.memory :=
  loseHistory_keep (·.memory) (by intros; rfl) z arg lost s
@[simp] theorem dramOffline_clocks (a : Nat) (cause : Nat) (s : State) : (dramOffline a cause s).clocks = s.clocks :=
  dramOffline_keep (·.clocks) (by intros; rfl) a cause s
@[simp] theorem dramOffline_mode (a : Nat) (cause : Nat) (s : State) : (dramOffline a cause s).mode = s.mode :=
  dramOffline_keep (·.mode) (by intros; rfl) a cause s
@[simp] theorem tdcEnd_power (aborted : Bool) (s : State) : (tdcEnd aborted s).power = s.power := tdcEnd_keep (·.power) (by intros; rfl) aborted s
@[simp] theorem tdcEnd_clocks (aborted : Bool) (s : State) : (tdcEnd aborted s).clocks = s.clocks := tdcEnd_keep (·.clocks) (by intros; rfl) aborted s
@[simp] theorem tdcEnd_straps (aborted : Bool) (s : State) : (tdcEnd aborted s).straps = s.straps := tdcEnd_keep (·.straps) (by intros; rfl) aborted s
@[simp] theorem tdcEnd_pins (aborted : Bool) (s : State) : (tdcEnd aborted s).pins = s.pins := tdcEnd_keep (·.pins) (by intros; rfl) aborted s
@[simp] theorem tdcEnd_mode (aborted : Bool) (s : State) : (tdcEnd aborted s).mode = s.mode := tdcEnd_keep (·.mode) (by intros; rfl) aborted s
@[simp] theorem tdcEnd_banks (aborted : Bool) (s : State) : (tdcEnd aborted s).banks = s.banks := tdcEnd_keep (·.banks) (by intros; rfl) aborted s
@[simp] theorem tdcEnd_booted (aborted : Bool) (s : State) : (tdcEnd aborted s).booted = s.booted := tdcEnd_keep (·.booted) (by intros; rfl) aborted s
@[simp] theorem tdcEnd_modeEntry (aborted : Bool) (s : State) : (tdcEnd aborted s).modeEntry = s.modeEntry :=
  tdcEnd_keep (·.modeEntry) (by intros; rfl) aborted s
@[simp] theorem tdcEnd_firmware (aborted : Bool) (s : State) : (tdcEnd aborted s).firmware = s.firmware :=
  tdcEnd_keep (·.firmware) (by intros; rfl) aborted s
@[simp] theorem tdcEnd_ports (aborted : Bool) (s : State) : (tdcEnd aborted s).ports = s.ports := tdcEnd_keep (·.ports) (by intros; rfl) aborted s
@[simp] theorem tdcEnd_herder (aborted : Bool) (s : State) : (tdcEnd aborted s).herder = s.herder := tdcEnd_keep (·.herder) (by intros; rfl) aborted s
@[simp] theorem tdcEnd_serif (aborted : Bool) (s : State) : (tdcEnd aborted s).serif = s.serif := tdcEnd_keep (·.serif) (by intros; rfl) aborted s
@[simp] theorem tdcEnd_raman (aborted : Bool) (s : State) : (tdcEnd aborted s).raman = s.raman := tdcEnd_keep (·.raman) (by intros; rfl) aborted s
@[simp] theorem tdcEnd_rtd (aborted : Bool) (s : State) : (tdcEnd aborted s).rtd = s.rtd := tdcEnd_keep (·.rtd) (by intros; rfl) aborted s
@[simp] theorem tdcEnd_hk (aborted : Bool) (s : State) : (tdcEnd aborted s).hk = s.hk := tdcEnd_keep (·.hk) (by intros; rfl) aborted s
@[simp] theorem tdcEnd_pointer (aborted : Bool) (s : State) : (tdcEnd aborted s).pointer = s.pointer :=
  tdcEnd_keep (·.pointer) (by intros; rfl) aborted s
@[simp] theorem tdcEnd_inkstone (aborted : Bool) (s : State) : (tdcEnd aborted s).inkstone = s.inkstone :=
  tdcEnd_keep (·.inkstone) (by intros; rfl) aborted s
@[simp] theorem tdcEnd_memory (aborted : Bool) (s : State) : (tdcEnd aborted s).memory = s.memory := tdcEnd_keep (·.memory) (by intros; rfl) aborted s
@[simp] theorem tdcEnd_safety (aborted : Bool) (s : State) : (tdcEnd aborted s).safety = s.safety := tdcEnd_keep (·.safety) (by intros; rfl) aborted s
@[simp] theorem tdcEnd_calib (aborted : Bool) (s : State) : (tdcEnd aborted s).calib = s.calib := tdcEnd_keep (·.calib) (by intros; rfl) aborted s
@[simp] theorem tdcEnd_ticks (aborted : Bool) (s : State) : (tdcEnd aborted s).ticks = s.ticks := tdcEnd_keep (·.ticks) (by intros; rfl) aborted s
@[simp] theorem tdcEnd_free (aborted : Bool) (s : State) : (tdcEnd aborted s).free = s.free := tdcEnd_keep (·.free) (by intros; rfl) aborted s
@[simp] theorem tdcEnd_pending (aborted : Bool) (s : State) : (tdcEnd aborted s).pending = s.pending :=
  tdcEnd_keep (·.pending) (by intros; rfl) aborted s
@[simp] theorem tdcMeasured_power (result : Option Int) (s : State) : (tdcMeasured result s).power = s.power :=
  tdcMeasured_keep (·.power) (by intros; rfl) result s
@[simp] theorem tdcMeasured_clocks (result : Option Int) (s : State) : (tdcMeasured result s).clocks = s.clocks :=
  tdcMeasured_keep (·.clocks) (by intros; rfl) result s
@[simp] theorem tdcMeasured_straps (result : Option Int) (s : State) : (tdcMeasured result s).straps = s.straps :=
  tdcMeasured_keep (·.straps) (by intros; rfl) result s
@[simp] theorem tdcMeasured_pins (result : Option Int) (s : State) : (tdcMeasured result s).pins = s.pins :=
  tdcMeasured_keep (·.pins) (by intros; rfl) result s
@[simp] theorem tdcMeasured_mode (result : Option Int) (s : State) : (tdcMeasured result s).mode = s.mode :=
  tdcMeasured_keep (·.mode) (by intros; rfl) result s
@[simp] theorem tdcMeasured_banks (result : Option Int) (s : State) : (tdcMeasured result s).banks = s.banks :=
  tdcMeasured_keep (·.banks) (by intros; rfl) result s
@[simp] theorem tdcMeasured_booted (result : Option Int) (s : State) : (tdcMeasured result s).booted = s.booted :=
  tdcMeasured_keep (·.booted) (by intros; rfl) result s
@[simp] theorem tdcMeasured_modeEntry (result : Option Int) (s : State) : (tdcMeasured result s).modeEntry = s.modeEntry :=
  tdcMeasured_keep (·.modeEntry) (by intros; rfl) result s
@[simp] theorem tdcMeasured_firmware (result : Option Int) (s : State) : (tdcMeasured result s).firmware = s.firmware :=
  tdcMeasured_keep (·.firmware) (by intros; rfl) result s
@[simp] theorem tdcMeasured_ports (result : Option Int) (s : State) : (tdcMeasured result s).ports = s.ports :=
  tdcMeasured_keep (·.ports) (by intros; rfl) result s
@[simp] theorem tdcMeasured_herder (result : Option Int) (s : State) : (tdcMeasured result s).herder = s.herder :=
  tdcMeasured_keep (·.herder) (by intros; rfl) result s
@[simp] theorem tdcMeasured_serif (result : Option Int) (s : State) : (tdcMeasured result s).serif = s.serif :=
  tdcMeasured_keep (·.serif) (by intros; rfl) result s
@[simp] theorem tdcMeasured_raman (result : Option Int) (s : State) : (tdcMeasured result s).raman = s.raman :=
  tdcMeasured_keep (·.raman) (by intros; rfl) result s
@[simp] theorem tdcMeasured_rtd (result : Option Int) (s : State) : (tdcMeasured result s).rtd = s.rtd :=
  tdcMeasured_keep (·.rtd) (by intros; rfl) result s
@[simp] theorem tdcMeasured_hk (result : Option Int) (s : State) : (tdcMeasured result s).hk = s.hk :=
  tdcMeasured_keep (·.hk) (by intros; rfl) result s
@[simp] theorem tdcMeasured_pointer (result : Option Int) (s : State) : (tdcMeasured result s).pointer = s.pointer :=
  tdcMeasured_keep (·.pointer) (by intros; rfl) result s
@[simp] theorem tdcMeasured_inkstone (result : Option Int) (s : State) : (tdcMeasured result s).inkstone = s.inkstone :=
  tdcMeasured_keep (·.inkstone) (by intros; rfl) result s
@[simp] theorem tdcMeasured_memory (result : Option Int) (s : State) : (tdcMeasured result s).memory = s.memory :=
  tdcMeasured_keep (·.memory) (by intros; rfl) result s
@[simp] theorem tdcMeasured_safety (result : Option Int) (s : State) : (tdcMeasured result s).safety = s.safety :=
  tdcMeasured_keep (·.safety) (by intros; rfl) result s
@[simp] theorem tdcMeasured_calib (result : Option Int) (s : State) : (tdcMeasured result s).calib = s.calib :=
  tdcMeasured_keep (·.calib) (by intros; rfl) result s
@[simp] theorem tdcMeasured_ticks (result : Option Int) (s : State) : (tdcMeasured result s).ticks = s.ticks :=
  tdcMeasured_keep (·.ticks) (by intros; rfl) result s
@[simp] theorem tdcMeasured_free (result : Option Int) (s : State) : (tdcMeasured result s).free = s.free :=
  tdcMeasured_keep (·.free) (by intros; rfl) result s
@[simp] theorem tdcMeasured_pending (result : Option Int) (s : State) : (tdcMeasured result s).pending = s.pending :=
  tdcMeasured_keep (·.pending) (by intros; rfl) result s
@[simp] theorem portTermFalls_power (old : State) (term : Nat) (p : Nat) (s : State) : (portTermFalls old term p s).power = s.power :=
  portTermFalls_keep (·.power) (by intros; rfl) old term p s
@[simp] theorem portTermFalls_clocks (old : State) (term : Nat) (p : Nat) (s : State) : (portTermFalls old term p s).clocks = s.clocks :=
  portTermFalls_keep (·.clocks) (by intros; rfl) old term p s
@[simp] theorem portTermFalls_straps (old : State) (term : Nat) (p : Nat) (s : State) : (portTermFalls old term p s).straps = s.straps :=
  portTermFalls_keep (·.straps) (by intros; rfl) old term p s
@[simp] theorem portTermFalls_pins (old : State) (term : Nat) (p : Nat) (s : State) : (portTermFalls old term p s).pins = s.pins :=
  portTermFalls_keep (·.pins) (by intros; rfl) old term p s
@[simp] theorem portTermFalls_mode (old : State) (term : Nat) (p : Nat) (s : State) : (portTermFalls old term p s).mode = s.mode :=
  portTermFalls_keep (·.mode) (by intros; rfl) old term p s
@[simp] theorem portTermFalls_banks (old : State) (term : Nat) (p : Nat) (s : State) : (portTermFalls old term p s).banks = s.banks :=
  portTermFalls_keep (·.banks) (by intros; rfl) old term p s
@[simp] theorem portTermFalls_booted (old : State) (term : Nat) (p : Nat) (s : State) : (portTermFalls old term p s).booted = s.booted :=
  portTermFalls_keep (·.booted) (by intros; rfl) old term p s
@[simp] theorem portTermFalls_modeEntry (old : State) (term : Nat) (p : Nat) (s : State) : (portTermFalls old term p s).modeEntry = s.modeEntry :=
  portTermFalls_keep (·.modeEntry) (by intros; rfl) old term p s
@[simp] theorem portTermFalls_firmware (old : State) (term : Nat) (p : Nat) (s : State) : (portTermFalls old term p s).firmware = s.firmware :=
  portTermFalls_keep (·.firmware) (by intros; rfl) old term p s
@[simp] theorem portTermFalls_herder (old : State) (term : Nat) (p : Nat) (s : State) : (portTermFalls old term p s).herder = s.herder :=
  portTermFalls_keep (·.herder) (by intros; rfl) old term p s
@[simp] theorem portTermFalls_serif (old : State) (term : Nat) (p : Nat) (s : State) : (portTermFalls old term p s).serif = s.serif :=
  portTermFalls_keep (·.serif) (by intros; rfl) old term p s
@[simp] theorem portTermFalls_rtd (old : State) (term : Nat) (p : Nat) (s : State) : (portTermFalls old term p s).rtd = s.rtd :=
  portTermFalls_keep (·.rtd) (by intros; rfl) old term p s
@[simp] theorem portTermFalls_hk (old : State) (term : Nat) (p : Nat) (s : State) : (portTermFalls old term p s).hk = s.hk :=
  portTermFalls_keep (·.hk) (by intros; rfl) old term p s
@[simp] theorem portTermFalls_pointer (old : State) (term : Nat) (p : Nat) (s : State) : (portTermFalls old term p s).pointer = s.pointer :=
  portTermFalls_keep (·.pointer) (by intros; rfl) old term p s
@[simp] theorem portTermFalls_inkstone (old : State) (term : Nat) (p : Nat) (s : State) : (portTermFalls old term p s).inkstone = s.inkstone :=
  portTermFalls_keep (·.inkstone) (by intros; rfl) old term p s
@[simp] theorem portTermFalls_memory (old : State) (term : Nat) (p : Nat) (s : State) : (portTermFalls old term p s).memory = s.memory :=
  portTermFalls_keep (·.memory) (by intros; rfl) old term p s
@[simp] theorem portTermFalls_time (old : State) (term : Nat) (p : Nat) (s : State) : (portTermFalls old term p s).time = s.time :=
  portTermFalls_keep (·.time) (by intros; rfl) old term p s
@[simp] theorem portTermFalls_calib (old : State) (term : Nat) (p : Nat) (s : State) : (portTermFalls old term p s).calib = s.calib :=
  portTermFalls_keep (·.calib) (by intros; rfl) old term p s
@[simp] theorem portTermFalls_ticks (old : State) (term : Nat) (p : Nat) (s : State) : (portTermFalls old term p s).ticks = s.ticks :=
  portTermFalls_keep (·.ticks) (by intros; rfl) old term p s
@[simp] theorem portTermFalls_free (old : State) (term : Nat) (p : Nat) (s : State) : (portTermFalls old term p s).free = s.free :=
  portTermFalls_keep (·.free) (by intros; rfl) old term p s
@[simp] theorem portTermFalls_pending (old : State) (term : Nat) (p : Nat) (s : State) : (portTermFalls old term p s).pending = s.pending :=
  portTermFalls_keep (·.pending) (by intros; rfl) old term p s
@[simp] theorem revertDomain_ticks (s : State) : (revertDomain s).ticks = s.ticks := revertDomain_keep (·.ticks) (by intros; rfl) s
@[simp] theorem revertDomain_pending (s : State) : (revertDomain s).pending = s.pending := revertDomain_keep (·.pending) (by intros; rfl) s
@[simp] theorem lockUpdate_power (d : Fin 2) (cause : Nat) (s : State) : (lockUpdate d cause s).power = s.power :=
  lockUpdate_keep (·.power) (by intros; rfl) d cause s
@[simp] theorem lockUpdate_clocks (d : Fin 2) (cause : Nat) (s : State) : (lockUpdate d cause s).clocks = s.clocks :=
  lockUpdate_keep (·.clocks) (by intros; rfl) d cause s
@[simp] theorem lockUpdate_straps (d : Fin 2) (cause : Nat) (s : State) : (lockUpdate d cause s).straps = s.straps :=
  lockUpdate_keep (·.straps) (by intros; rfl) d cause s
@[simp] theorem lockUpdate_pins (d : Fin 2) (cause : Nat) (s : State) : (lockUpdate d cause s).pins = s.pins :=
  lockUpdate_keep (·.pins) (by intros; rfl) d cause s
@[simp] theorem lockUpdate_mode (d : Fin 2) (cause : Nat) (s : State) : (lockUpdate d cause s).mode = s.mode :=
  lockUpdate_keep (·.mode) (by intros; rfl) d cause s
@[simp] theorem lockUpdate_banks (d : Fin 2) (cause : Nat) (s : State) : (lockUpdate d cause s).banks = s.banks :=
  lockUpdate_keep (·.banks) (by intros; rfl) d cause s
@[simp] theorem lockUpdate_booted (d : Fin 2) (cause : Nat) (s : State) : (lockUpdate d cause s).booted = s.booted :=
  lockUpdate_keep (·.booted) (by intros; rfl) d cause s
@[simp] theorem lockUpdate_modeEntry (d : Fin 2) (cause : Nat) (s : State) : (lockUpdate d cause s).modeEntry = s.modeEntry :=
  lockUpdate_keep (·.modeEntry) (by intros; rfl) d cause s
@[simp] theorem lockUpdate_firmware (d : Fin 2) (cause : Nat) (s : State) : (lockUpdate d cause s).firmware = s.firmware :=
  lockUpdate_keep (·.firmware) (by intros; rfl) d cause s
@[simp] theorem lockUpdate_herder (d : Fin 2) (cause : Nat) (s : State) : (lockUpdate d cause s).herder = s.herder :=
  lockUpdate_keep (·.herder) (by intros; rfl) d cause s
@[simp] theorem lockUpdate_serif (d : Fin 2) (cause : Nat) (s : State) : (lockUpdate d cause s).serif = s.serif :=
  lockUpdate_keep (·.serif) (by intros; rfl) d cause s
@[simp] theorem lockUpdate_raman (d : Fin 2) (cause : Nat) (s : State) : (lockUpdate d cause s).raman = s.raman :=
  lockUpdate_keep (·.raman) (by intros; rfl) d cause s
@[simp] theorem lockUpdate_rtd (d : Fin 2) (cause : Nat) (s : State) : (lockUpdate d cause s).rtd = s.rtd :=
  lockUpdate_keep (·.rtd) (by intros; rfl) d cause s
@[simp] theorem lockUpdate_hk (d : Fin 2) (cause : Nat) (s : State) : (lockUpdate d cause s).hk = s.hk :=
  lockUpdate_keep (·.hk) (by intros; rfl) d cause s
@[simp] theorem lockUpdate_pointer (d : Fin 2) (cause : Nat) (s : State) : (lockUpdate d cause s).pointer = s.pointer :=
  lockUpdate_keep (·.pointer) (by intros; rfl) d cause s
@[simp] theorem lockUpdate_inkstone (d : Fin 2) (cause : Nat) (s : State) : (lockUpdate d cause s).inkstone = s.inkstone :=
  lockUpdate_keep (·.inkstone) (by intros; rfl) d cause s
@[simp] theorem lockUpdate_memory (d : Fin 2) (cause : Nat) (s : State) : (lockUpdate d cause s).memory = s.memory :=
  lockUpdate_keep (·.memory) (by intros; rfl) d cause s
@[simp] theorem lockUpdate_safety (d : Fin 2) (cause : Nat) (s : State) : (lockUpdate d cause s).safety = s.safety :=
  lockUpdate_keep (·.safety) (by intros; rfl) d cause s
@[simp] theorem lockUpdate_calib (d : Fin 2) (cause : Nat) (s : State) : (lockUpdate d cause s).calib = s.calib :=
  lockUpdate_keep (·.calib) (by intros; rfl) d cause s
@[simp] theorem lockUpdate_ticks (d : Fin 2) (cause : Nat) (s : State) : (lockUpdate d cause s).ticks = s.ticks :=
  lockUpdate_keep (·.ticks) (by intros; rfl) d cause s
@[simp] theorem lockUpdate_free (d : Fin 2) (cause : Nat) (s : State) : (lockUpdate d cause s).free = s.free :=
  lockUpdate_keep (·.free) (by intros; rfl) d cause s
@[simp] theorem lockUpdate_pending (d : Fin 2) (cause : Nat) (s : State) : (lockUpdate d cause s).pending = s.pending :=
  lockUpdate_keep (·.pending) (by intros; rfl) d cause s
@[simp] theorem locatorRelease_power (p : Nat) (s : State) : (locatorRelease p s).power = s.power :=
  locatorRelease_keep (·.power) (by intros; rfl) p s
@[simp] theorem locatorRelease_clocks (p : Nat) (s : State) : (locatorRelease p s).clocks = s.clocks :=
  locatorRelease_keep (·.clocks) (by intros; rfl) p s
@[simp] theorem locatorRelease_straps (p : Nat) (s : State) : (locatorRelease p s).straps = s.straps :=
  locatorRelease_keep (·.straps) (by intros; rfl) p s
@[simp] theorem locatorRelease_pins (p : Nat) (s : State) : (locatorRelease p s).pins = s.pins := locatorRelease_keep (·.pins) (by intros; rfl) p s
@[simp] theorem locatorRelease_mode (p : Nat) (s : State) : (locatorRelease p s).mode = s.mode := locatorRelease_keep (·.mode) (by intros; rfl) p s
@[simp] theorem locatorRelease_banks (p : Nat) (s : State) : (locatorRelease p s).banks = s.banks :=
  locatorRelease_keep (·.banks) (by intros; rfl) p s
@[simp] theorem locatorRelease_booted (p : Nat) (s : State) : (locatorRelease p s).booted = s.booted :=
  locatorRelease_keep (·.booted) (by intros; rfl) p s
@[simp] theorem locatorRelease_modeEntry (p : Nat) (s : State) : (locatorRelease p s).modeEntry = s.modeEntry :=
  locatorRelease_keep (·.modeEntry) (by intros; rfl) p s
@[simp] theorem locatorRelease_firmware (p : Nat) (s : State) : (locatorRelease p s).firmware = s.firmware :=
  locatorRelease_keep (·.firmware) (by intros; rfl) p s
@[simp] theorem locatorRelease_herder (p : Nat) (s : State) : (locatorRelease p s).herder = s.herder :=
  locatorRelease_keep (·.herder) (by intros; rfl) p s
@[simp] theorem locatorRelease_serif (p : Nat) (s : State) : (locatorRelease p s).serif = s.serif :=
  locatorRelease_keep (·.serif) (by intros; rfl) p s
@[simp] theorem locatorRelease_rtd (p : Nat) (s : State) : (locatorRelease p s).rtd = s.rtd := locatorRelease_keep (·.rtd) (by intros; rfl) p s
@[simp] theorem locatorRelease_hk (p : Nat) (s : State) : (locatorRelease p s).hk = s.hk := locatorRelease_keep (·.hk) (by intros; rfl) p s
@[simp] theorem locatorRelease_pointer (p : Nat) (s : State) : (locatorRelease p s).pointer = s.pointer :=
  locatorRelease_keep (·.pointer) (by intros; rfl) p s
@[simp] theorem locatorRelease_inkstone (p : Nat) (s : State) : (locatorRelease p s).inkstone = s.inkstone :=
  locatorRelease_keep (·.inkstone) (by intros; rfl) p s
@[simp] theorem locatorRelease_memory (p : Nat) (s : State) : (locatorRelease p s).memory = s.memory :=
  locatorRelease_keep (·.memory) (by intros; rfl) p s
@[simp] theorem locatorRelease_time (p : Nat) (s : State) : (locatorRelease p s).time = s.time := locatorRelease_keep (·.time) (by intros; rfl) p s
@[simp] theorem locatorRelease_calib (p : Nat) (s : State) : (locatorRelease p s).calib = s.calib :=
  locatorRelease_keep (·.calib) (by intros; rfl) p s
@[simp] theorem locatorRelease_ticks (p : Nat) (s : State) : (locatorRelease p s).ticks = s.ticks :=
  locatorRelease_keep (·.ticks) (by intros; rfl) p s
@[simp] theorem locatorRelease_free (p : Nat) (s : State) : (locatorRelease p s).free = s.free := locatorRelease_keep (·.free) (by intros; rfl) p s
@[simp] theorem locatorRelease_pending (p : Nat) (s : State) : (locatorRelease p s).pending = s.pending :=
  locatorRelease_keep (·.pending) (by intros; rfl) p s
@[simp] theorem restorePorts_power (s : State) : (restorePorts s).power = s.power := restorePorts_keep (·.power) (by intros; rfl) s
@[simp] theorem restorePorts_mode (s : State) : (restorePorts s).mode = s.mode := restorePorts_keep (·.mode) (by intros; rfl) s
@[simp] theorem restorePorts_banks (s : State) : (restorePorts s).banks = s.banks := restorePorts_keep (·.banks) (by intros; rfl) s
@[simp] theorem restorePorts_serif (s : State) : (restorePorts s).serif = s.serif := restorePorts_keep (·.serif) (by intros; rfl) s
@[simp] theorem replicateBanks_mode (s : State) : (replicateBanks s).mode = s.mode := replicateBanks_keep (·.mode) (by intros; rfl) s
@[simp] theorem replicateBanks_banks (s : State) : (replicateBanks s).banks = s.banks := replicateBanks_keep (·.banks) (by intros; rfl) s
@[simp] theorem replicateBanks_ports (s : State) : (replicateBanks s).ports = s.ports := replicateBanks_keep (·.ports) (by intros; rfl) s
@[simp] theorem replicateBanks_memory (s : State) : (replicateBanks s).memory = s.memory := replicateBanks_keep (·.memory) (by intros; rfl) s
@[simp] theorem replicateBanks_safety (s : State) : (replicateBanks s).safety = s.safety := replicateBanks_keep (·.safety) (by intros; rfl) s

/-! Repeated operations keep a field that each of them keeps. -/
@[simp] theorem forEach_power {α : Type} {f : α → State → State} (h : ∀ x s, (f x s).power = s.power) (xs : List α) (s : State) :
    (forEach xs f s).power = s.power := forEach_keep (·.power) f h xs s
@[simp] theorem forEach_clocks {α : Type} {f : α → State → State} (h : ∀ x s, (f x s).clocks = s.clocks) (xs : List α) (s : State) :
    (forEach xs f s).clocks = s.clocks := forEach_keep (·.clocks) f h xs s
@[simp] theorem forEach_straps {α : Type} {f : α → State → State} (h : ∀ x s, (f x s).straps = s.straps) (xs : List α) (s : State) :
    (forEach xs f s).straps = s.straps := forEach_keep (·.straps) f h xs s
@[simp] theorem forEach_pins {α : Type} {f : α → State → State} (h : ∀ x s, (f x s).pins = s.pins) (xs : List α) (s : State) :
    (forEach xs f s).pins = s.pins := forEach_keep (·.pins) f h xs s
@[simp] theorem forEach_mode {α : Type} {f : α → State → State} (h : ∀ x s, (f x s).mode = s.mode) (xs : List α) (s : State) :
    (forEach xs f s).mode = s.mode := forEach_keep (·.mode) f h xs s
@[simp] theorem forEach_banks {α : Type} {f : α → State → State} (h : ∀ x s, (f x s).banks = s.banks) (xs : List α) (s : State) :
    (forEach xs f s).banks = s.banks := forEach_keep (·.banks) f h xs s
@[simp] theorem forEach_params {α : Type} {f : α → State → State} (h : ∀ x s, (f x s).params = s.params) (xs : List α) (s : State) :
    (forEach xs f s).params = s.params := forEach_keep (·.params) f h xs s
@[simp] theorem forEach_booted {α : Type} {f : α → State → State} (h : ∀ x s, (f x s).booted = s.booted) (xs : List α) (s : State) :
    (forEach xs f s).booted = s.booted := forEach_keep (·.booted) f h xs s
@[simp] theorem forEach_modeEntry {α : Type} {f : α → State → State} (h : ∀ x s, (f x s).modeEntry = s.modeEntry) (xs : List α) (s : State) :
    (forEach xs f s).modeEntry = s.modeEntry := forEach_keep (·.modeEntry) f h xs s
@[simp] theorem forEach_scribe {α : Type} {f : α → State → State} (h : ∀ x s, (f x s).scribe = s.scribe) (xs : List α) (s : State) :
    (forEach xs f s).scribe = s.scribe := forEach_keep (·.scribe) f h xs s
@[simp] theorem forEach_evq {α : Type} {f : α → State → State} (h : ∀ x s, (f x s).evq = s.evq) (xs : List α) (s : State) :
    (forEach xs f s).evq = s.evq := forEach_keep (·.evq) f h xs s
@[simp] theorem forEach_journal {α : Type} {f : α → State → State} (h : ∀ x s, (f x s).journal = s.journal) (xs : List α) (s : State) :
    (forEach xs f s).journal = s.journal := forEach_keep (·.journal) f h xs s
@[simp] theorem forEach_log {α : Type} {f : α → State → State} (h : ∀ x s, (f x s).log = s.log) (xs : List α) (s : State) :
    (forEach xs f s).log = s.log := forEach_keep (·.log) f h xs s
@[simp] theorem forEach_firmware {α : Type} {f : α → State → State} (h : ∀ x s, (f x s).firmware = s.firmware) (xs : List α) (s : State) :
    (forEach xs f s).firmware = s.firmware := forEach_keep (·.firmware) f h xs s
@[simp] theorem forEach_ports {α : Type} {f : α → State → State} (h : ∀ x s, (f x s).ports = s.ports) (xs : List α) (s : State) :
    (forEach xs f s).ports = s.ports := forEach_keep (·.ports) f h xs s
@[simp] theorem forEach_herder {α : Type} {f : α → State → State} (h : ∀ x s, (f x s).herder = s.herder) (xs : List α) (s : State) :
    (forEach xs f s).herder = s.herder := forEach_keep (·.herder) f h xs s
@[simp] theorem forEach_serif {α : Type} {f : α → State → State} (h : ∀ x s, (f x s).serif = s.serif) (xs : List α) (s : State) :
    (forEach xs f s).serif = s.serif := forEach_keep (·.serif) f h xs s
@[simp] theorem forEach_raman {α : Type} {f : α → State → State} (h : ∀ x s, (f x s).raman = s.raman) (xs : List α) (s : State) :
    (forEach xs f s).raman = s.raman := forEach_keep (·.raman) f h xs s
@[simp] theorem forEach_rtd {α : Type} {f : α → State → State} (h : ∀ x s, (f x s).rtd = s.rtd) (xs : List α) (s : State) :
    (forEach xs f s).rtd = s.rtd := forEach_keep (·.rtd) f h xs s
@[simp] theorem forEach_hk {α : Type} {f : α → State → State} (h : ∀ x s, (f x s).hk = s.hk) (xs : List α) (s : State) :
    (forEach xs f s).hk = s.hk := forEach_keep (·.hk) f h xs s
@[simp] theorem forEach_pointer {α : Type} {f : α → State → State} (h : ∀ x s, (f x s).pointer = s.pointer) (xs : List α) (s : State) :
    (forEach xs f s).pointer = s.pointer := forEach_keep (·.pointer) f h xs s
@[simp] theorem forEach_inkstone {α : Type} {f : α → State → State} (h : ∀ x s, (f x s).inkstone = s.inkstone) (xs : List α) (s : State) :
    (forEach xs f s).inkstone = s.inkstone := forEach_keep (·.inkstone) f h xs s
@[simp] theorem forEach_memory {α : Type} {f : α → State → State} (h : ∀ x s, (f x s).memory = s.memory) (xs : List α) (s : State) :
    (forEach xs f s).memory = s.memory := forEach_keep (·.memory) f h xs s
@[simp] theorem forEach_time {α : Type} {f : α → State → State} (h : ∀ x s, (f x s).time = s.time) (xs : List α) (s : State) :
    (forEach xs f s).time = s.time := forEach_keep (·.time) f h xs s
@[simp] theorem forEach_links {α : Type} {f : α → State → State} (h : ∀ x s, (f x s).links = s.links) (xs : List α) (s : State) :
    (forEach xs f s).links = s.links := forEach_keep (·.links) f h xs s
@[simp] theorem forEach_pair {α : Type} {f : α → State → State} (h : ∀ x s, (f x s).pair = s.pair) (xs : List α) (s : State) :
    (forEach xs f s).pair = s.pair := forEach_keep (·.pair) f h xs s
@[simp] theorem forEach_safety {α : Type} {f : α → State → State} (h : ∀ x s, (f x s).safety = s.safety) (xs : List α) (s : State) :
    (forEach xs f s).safety = s.safety := forEach_keep (·.safety) f h xs s
@[simp] theorem forEach_calib {α : Type} {f : α → State → State} (h : ∀ x s, (f x s).calib = s.calib) (xs : List α) (s : State) :
    (forEach xs f s).calib = s.calib := forEach_keep (·.calib) f h xs s
@[simp] theorem forEach_ticks {α : Type} {f : α → State → State} (h : ∀ x s, (f x s).ticks = s.ticks) (xs : List α) (s : State) :
    (forEach xs f s).ticks = s.ticks := forEach_keep (·.ticks) f h xs s
@[simp] theorem foldl_ticks {α : Type} {f : State → α → State} (h : ∀ x s, (f s x).ticks = s.ticks) (xs : List α) (s : State) :
    (xs.foldl f s).ticks = s.ticks := foldl_keep (·.ticks) f h xs s
@[simp] theorem forEach_free {α : Type} {f : α → State → State} (h : ∀ x s, (f x s).free = s.free) (xs : List α) (s : State) :
    (forEach xs f s).free = s.free := forEach_keep (·.free) f h xs s
@[simp] theorem forEach_pending {α : Type} {f : α → State → State} (h : ∀ x s, (f x s).pending = s.pending) (xs : List α) (s : State) :
    (forEach xs f s).pending = s.pending := forEach_keep (·.pending) f h xs s
@[simp] theorem foldl_pending {α : Type} {f : State → α → State} (h : ∀ x s, (f s x).pending = s.pending) (xs : List α) (s : State) :
    (xs.foldl f s).pending = s.pending := foldl_keep (·.pending) f h xs s

/-! Operations of the model without a rule of `Laws/Keep`. -/
@[simp] theorem dequeue_booted (r : Request) (s : State) : (dequeue r s).booted = s.booted := by
  simp -implicitDefEqProofs [dequeue]
@[simp] theorem dequeue_calib (r : Request) (s : State) : (dequeue r s).calib = s.calib := by
  simp -implicitDefEqProofs [dequeue]
@[simp] theorem dequeue_clocks (r : Request) (s : State) : (dequeue r s).clocks = s.clocks := by
  simp -implicitDefEqProofs [dequeue]
@[simp] theorem dequeue_evq (r : Request) (s : State) : (dequeue r s).evq = s.evq := by
  simp -implicitDefEqProofs [dequeue]
@[simp] theorem dequeue_firmware (r : Request) (s : State) : (dequeue r s).firmware = s.firmware := by
  simp -implicitDefEqProofs [dequeue]
@[simp] theorem dequeue_free (r : Request) (s : State) : (dequeue r s).free = s.free := by
  simp -implicitDefEqProofs [dequeue]
@[simp] theorem dequeue_herder (r : Request) (s : State) : (dequeue r s).herder = s.herder := by
  simp -implicitDefEqProofs [dequeue]
@[simp] theorem dequeue_hk (r : Request) (s : State) : (dequeue r s).hk = s.hk := by
  simp -implicitDefEqProofs [dequeue]
@[simp] theorem dequeue_inkstone (r : Request) (s : State) : (dequeue r s).inkstone = s.inkstone := by
  simp -implicitDefEqProofs [dequeue]
@[simp] theorem dequeue_links (r : Request) (s : State) : (dequeue r s).links = s.links := by
  simp -implicitDefEqProofs [dequeue]
@[simp] theorem dequeue_log (r : Request) (s : State) : (dequeue r s).log = s.log := by
  simp -implicitDefEqProofs [dequeue]
@[simp] theorem dequeue_memory (r : Request) (s : State) : (dequeue r s).memory = s.memory := by
  simp -implicitDefEqProofs [dequeue]
@[simp] theorem dequeue_modeEntry (r : Request) (s : State) : (dequeue r s).modeEntry = s.modeEntry := by
  simp -implicitDefEqProofs [dequeue]
@[simp] theorem dequeue_pair (r : Request) (s : State) : (dequeue r s).pair = s.pair := by
  simp -implicitDefEqProofs [dequeue]
@[simp] theorem dequeue_pending (r : Request) (s : State) : (dequeue r s).pending = s.pending := by
  simp -implicitDefEqProofs [dequeue]
@[simp] theorem dequeue_pins (r : Request) (s : State) : (dequeue r s).pins = s.pins := by
  simp -implicitDefEqProofs [dequeue]
@[simp] theorem dequeue_pointer (r : Request) (s : State) : (dequeue r s).pointer = s.pointer := by
  simp -implicitDefEqProofs [dequeue]
@[simp] theorem dequeue_ports (r : Request) (s : State) : (dequeue r s).ports = s.ports := by
  simp -implicitDefEqProofs [dequeue]
@[simp] theorem dequeue_power (r : Request) (s : State) : (dequeue r s).power = s.power := by
  simp -implicitDefEqProofs [dequeue]
@[simp] theorem dequeue_raman (r : Request) (s : State) : (dequeue r s).raman = s.raman := by
  simp -implicitDefEqProofs [dequeue]
@[simp] theorem dequeue_rtd (r : Request) (s : State) : (dequeue r s).rtd = s.rtd := by
  simp -implicitDefEqProofs [dequeue]
@[simp] theorem dequeue_safety (r : Request) (s : State) : (dequeue r s).safety = s.safety := by
  simp -implicitDefEqProofs [dequeue]
@[simp] theorem dequeue_serif (r : Request) (s : State) : (dequeue r s).serif = s.serif := by
  simp -implicitDefEqProofs [dequeue]
@[simp] theorem dequeue_straps (r : Request) (s : State) : (dequeue r s).straps = s.straps := by
  simp -implicitDefEqProofs [dequeue]
@[simp] theorem dequeue_ticks (r : Request) (s : State) : (dequeue r s).ticks = s.ticks := by
  simp -implicitDefEqProofs [dequeue]
@[simp] theorem dequeue_time (r : Request) (s : State) : (dequeue r s).time = s.time := by
  simp -implicitDefEqProofs [dequeue]
@[simp] theorem hkToPointer_banks (i : Nat) (w : BitVec 32) (s : State) : (hkToPointer i w s).banks = s.banks := by
  simp -implicitDefEqProofs [hkToPointer]
@[simp] theorem hkToPointer_booted (i : Nat) (w : BitVec 32) (s : State) : (hkToPointer i w s).booted = s.booted := by
  simp -implicitDefEqProofs [hkToPointer]
@[simp] theorem hkToPointer_calib (i : Nat) (w : BitVec 32) (s : State) : (hkToPointer i w s).calib = s.calib := by
  simp -implicitDefEqProofs [hkToPointer]
@[simp] theorem hkToPointer_clocks (i : Nat) (w : BitVec 32) (s : State) : (hkToPointer i w s).clocks = s.clocks := by
  simp -implicitDefEqProofs [hkToPointer]
@[simp] theorem hkToPointer_firmware (i : Nat) (w : BitVec 32) (s : State) : (hkToPointer i w s).firmware = s.firmware := by
  simp -implicitDefEqProofs [hkToPointer]
@[simp] theorem hkToPointer_free (i : Nat) (w : BitVec 32) (s : State) : (hkToPointer i w s).free = s.free := by
  simp -implicitDefEqProofs [hkToPointer]
@[simp] theorem hkToPointer_herder (i : Nat) (w : BitVec 32) (s : State) : (hkToPointer i w s).herder = s.herder := by
  simp -implicitDefEqProofs [hkToPointer]
@[simp] theorem hkToPointer_hk (i : Nat) (w : BitVec 32) (s : State) : (hkToPointer i w s).hk = s.hk := by
  simp -implicitDefEqProofs [hkToPointer]
@[simp] theorem hkToPointer_inkstone (i : Nat) (w : BitVec 32) (s : State) : (hkToPointer i w s).inkstone = s.inkstone := by
  simp -implicitDefEqProofs [hkToPointer]
@[simp] theorem hkToPointer_memory (i : Nat) (w : BitVec 32) (s : State) : (hkToPointer i w s).memory = s.memory := by
  simp -implicitDefEqProofs [hkToPointer]
@[simp] theorem hkToPointer_mode (i : Nat) (w : BitVec 32) (s : State) : (hkToPointer i w s).mode = s.mode := by
  simp -implicitDefEqProofs [hkToPointer]
@[simp] theorem hkToPointer_modeEntry (i : Nat) (w : BitVec 32) (s : State) : (hkToPointer i w s).modeEntry = s.modeEntry := by
  simp -implicitDefEqProofs [hkToPointer]
@[simp] theorem hkToPointer_pending (i : Nat) (w : BitVec 32) (s : State) : (hkToPointer i w s).pending = s.pending := by
  simp -implicitDefEqProofs [hkToPointer]
@[simp] theorem hkToPointer_pins (i : Nat) (w : BitVec 32) (s : State) : (hkToPointer i w s).pins = s.pins := by
  simp -implicitDefEqProofs [hkToPointer]
@[simp] theorem hkToPointer_ports (i : Nat) (w : BitVec 32) (s : State) : (hkToPointer i w s).ports = s.ports := by
  simp -implicitDefEqProofs [hkToPointer]
@[simp] theorem hkToPointer_power (i : Nat) (w : BitVec 32) (s : State) : (hkToPointer i w s).power = s.power := by
  simp -implicitDefEqProofs [hkToPointer]
@[simp] theorem hkToPointer_raman (i : Nat) (w : BitVec 32) (s : State) : (hkToPointer i w s).raman = s.raman := by
  simp -implicitDefEqProofs [hkToPointer]
@[simp] theorem hkToPointer_rtd (i : Nat) (w : BitVec 32) (s : State) : (hkToPointer i w s).rtd = s.rtd := by
  simp -implicitDefEqProofs [hkToPointer]
@[simp] theorem hkToPointer_safety (i : Nat) (w : BitVec 32) (s : State) : (hkToPointer i w s).safety = s.safety := by
  simp -implicitDefEqProofs [hkToPointer]
@[simp] theorem hkToPointer_serif (i : Nat) (w : BitVec 32) (s : State) : (hkToPointer i w s).serif = s.serif := by
  simp -implicitDefEqProofs [hkToPointer]
@[simp] theorem hkToPointer_straps (i : Nat) (w : BitVec 32) (s : State) : (hkToPointer i w s).straps = s.straps := by
  simp -implicitDefEqProofs [hkToPointer]
@[simp] theorem hkToPointer_ticks (i : Nat) (w : BitVec 32) (s : State) : (hkToPointer i w s).ticks = s.ticks := by
  simp -implicitDefEqProofs [hkToPointer]
@[simp] theorem hkToPointer_time (i : Nat) (w : BitVec 32) (s : State) : (hkToPointer i w s).time = s.time := by
  simp -implicitDefEqProofs [hkToPointer]
@[simp] theorem scrubTick_pending (s : State) : (scrubTick  s).pending = s.pending := by
  simp -implicitDefEqProofs [scrubTick]
@[simp] theorem scrubTick_ticks (s : State) : (scrubTick  s).ticks = s.ticks := by
  simp -implicitDefEqProofs [scrubTick]
@[simp] theorem dequeue_scribe_ready (r : Request) (s : State) : (dequeue r s).scribe.ready = s.scribe.ready := by
  simp -implicitDefEqProofs [dequeue]
@[simp] theorem dequeue_scribe_restarting (r : Request) (s : State) : (dequeue r s).scribe.restarting = s.scribe.restarting := by
  simp -implicitDefEqProofs [dequeue]
@[simp] theorem rtdBegin_banks (k : Nat) (s : State) : (rtdBegin k s).banks = s.banks := by
  simp -implicitDefEqProofs [rtdBegin]
@[simp] theorem rtdBegin_booted (k : Nat) (s : State) : (rtdBegin k s).booted = s.booted := by
  simp -implicitDefEqProofs [rtdBegin]
@[simp] theorem rtdBegin_calib (k : Nat) (s : State) : (rtdBegin k s).calib = s.calib := by
  simp -implicitDefEqProofs [rtdBegin]
@[simp] theorem rtdBegin_clocks (k : Nat) (s : State) : (rtdBegin k s).clocks = s.clocks := by
  simp -implicitDefEqProofs [rtdBegin]
@[simp] theorem rtdBegin_firmware (k : Nat) (s : State) : (rtdBegin k s).firmware = s.firmware := by
  simp -implicitDefEqProofs [rtdBegin]
@[simp] theorem rtdBegin_free (k : Nat) (s : State) : (rtdBegin k s).free = s.free := by
  simp -implicitDefEqProofs [rtdBegin]
@[simp] theorem rtdBegin_herder (k : Nat) (s : State) : (rtdBegin k s).herder = s.herder := by
  simp -implicitDefEqProofs [rtdBegin]
@[simp] theorem rtdBegin_hk (k : Nat) (s : State) : (rtdBegin k s).hk = s.hk := by
  simp -implicitDefEqProofs [rtdBegin]
@[simp] theorem rtdBegin_inkstone (k : Nat) (s : State) : (rtdBegin k s).inkstone = s.inkstone := by
  simp -implicitDefEqProofs [rtdBegin]
@[simp] theorem rtdBegin_memory (k : Nat) (s : State) : (rtdBegin k s).memory = s.memory := by
  simp -implicitDefEqProofs [rtdBegin]
@[simp] theorem rtdBegin_mode (k : Nat) (s : State) : (rtdBegin k s).mode = s.mode := by
  simp -implicitDefEqProofs [rtdBegin]
@[simp] theorem rtdBegin_modeEntry (k : Nat) (s : State) : (rtdBegin k s).modeEntry = s.modeEntry := by
  simp -implicitDefEqProofs [rtdBegin]
@[simp] theorem rtdBegin_pending (k : Nat) (s : State) : (rtdBegin k s).pending = s.pending := by
  simp -implicitDefEqProofs [rtdBegin]
@[simp] theorem rtdBegin_pins (k : Nat) (s : State) : (rtdBegin k s).pins = s.pins := by
  simp -implicitDefEqProofs [rtdBegin]
@[simp] theorem rtdBegin_pointer (k : Nat) (s : State) : (rtdBegin k s).pointer = s.pointer := by
  simp -implicitDefEqProofs [rtdBegin]
@[simp] theorem rtdBegin_ports (k : Nat) (s : State) : (rtdBegin k s).ports = s.ports := by
  simp -implicitDefEqProofs [rtdBegin]
@[simp] theorem rtdBegin_power (k : Nat) (s : State) : (rtdBegin k s).power = s.power := by
  simp -implicitDefEqProofs [rtdBegin]
@[simp] theorem rtdBegin_raman (k : Nat) (s : State) : (rtdBegin k s).raman = s.raman := by
  simp -implicitDefEqProofs [rtdBegin]
@[simp] theorem rtdBegin_safety (k : Nat) (s : State) : (rtdBegin k s).safety = s.safety := by
  simp -implicitDefEqProofs [rtdBegin]
@[simp] theorem rtdBegin_serif (k : Nat) (s : State) : (rtdBegin k s).serif = s.serif := by
  simp -implicitDefEqProofs [rtdBegin]
@[simp] theorem rtdBegin_straps (k : Nat) (s : State) : (rtdBegin k s).straps = s.straps := by
  simp -implicitDefEqProofs [rtdBegin]
@[simp] theorem rtdBegin_ticks (k : Nat) (s : State) : (rtdBegin k s).ticks = s.ticks := by
  simp -implicitDefEqProofs [rtdBegin]
@[simp] theorem rtdBegin_time (k : Nat) (s : State) : (rtdBegin k s).time = s.time := by
  simp -implicitDefEqProofs [rtdBegin]
@[simp] theorem noteRelease_mode (s : State) : (noteRelease  s).mode = s.mode := by
  unfold noteRelease
  (repeat' split) <;> simp -implicitDefEqProofs
@[simp] theorem noteRelease_pending (s : State) : (noteRelease  s).pending = s.pending := by
  unfold noteRelease
  (repeat' split) <;> simp -implicitDefEqProofs
@[simp] theorem noteRelease_power (s : State) : (noteRelease  s).power = s.power := by
  unfold noteRelease
  (repeat' split) <;> simp -implicitDefEqProofs
@[simp] theorem noteRelease_ticks (s : State) : (noteRelease  s).ticks = s.ticks := by
  unfold noteRelease
  (repeat' split) <;> simp -implicitDefEqProofs
@[simp] theorem replicateProgram_banks (i : Nat) (crc : Option Nat) (s : State) : (replicateProgram i crc s).banks = s.banks := by
  unfold replicateProgram
  (repeat' split) <;> simp -implicitDefEqProofs
@[simp] theorem replicateProgram_booted (i : Nat) (crc : Option Nat) (s : State) : (replicateProgram i crc s).booted = s.booted := by
  unfold replicateProgram
  (repeat' split) <;> simp -implicitDefEqProofs
@[simp] theorem replicateProgram_calib (i : Nat) (crc : Option Nat) (s : State) : (replicateProgram i crc s).calib = s.calib := by
  unfold replicateProgram
  (repeat' split) <;> simp -implicitDefEqProofs
@[simp] theorem replicateProgram_clocks (i : Nat) (crc : Option Nat) (s : State) : (replicateProgram i crc s).clocks = s.clocks := by
  unfold replicateProgram
  (repeat' split) <;> simp -implicitDefEqProofs
@[simp] theorem replicateProgram_firmware (i : Nat) (crc : Option Nat) (s : State) : (replicateProgram i crc s).firmware = s.firmware := by
  unfold replicateProgram
  (repeat' split) <;> simp -implicitDefEqProofs
@[simp] theorem replicateProgram_free (i : Nat) (crc : Option Nat) (s : State) : (replicateProgram i crc s).free = s.free := by
  unfold replicateProgram
  (repeat' split) <;> simp -implicitDefEqProofs
@[simp] theorem replicateProgram_herder (i : Nat) (crc : Option Nat) (s : State) : (replicateProgram i crc s).herder = s.herder := by
  unfold replicateProgram
  (repeat' split) <;> simp -implicitDefEqProofs
@[simp] theorem replicateProgram_hk (i : Nat) (crc : Option Nat) (s : State) : (replicateProgram i crc s).hk = s.hk := by
  unfold replicateProgram
  (repeat' split) <;> simp -implicitDefEqProofs
@[simp] theorem replicateProgram_inkstone (i : Nat) (crc : Option Nat) (s : State) : (replicateProgram i crc s).inkstone = s.inkstone := by
  unfold replicateProgram
  (repeat' split) <;> simp -implicitDefEqProofs
@[simp] theorem replicateProgram_journal (i : Nat) (crc : Option Nat) (s : State) : (replicateProgram i crc s).journal = s.journal := by
  unfold replicateProgram
  (repeat' split) <;> simp -implicitDefEqProofs
@[simp] theorem replicateProgram_memory (i : Nat) (crc : Option Nat) (s : State) : (replicateProgram i crc s).memory = s.memory := by
  unfold replicateProgram
  (repeat' split) <;> simp -implicitDefEqProofs
@[simp] theorem replicateProgram_mode (i : Nat) (crc : Option Nat) (s : State) : (replicateProgram i crc s).mode = s.mode := by
  unfold replicateProgram
  (repeat' split) <;> simp -implicitDefEqProofs
@[simp] theorem replicateProgram_modeEntry (i : Nat) (crc : Option Nat) (s : State) : (replicateProgram i crc s).modeEntry = s.modeEntry := by
  unfold replicateProgram
  (repeat' split) <;> simp -implicitDefEqProofs
@[simp] theorem replicateProgram_pending (i : Nat) (crc : Option Nat) (s : State) : (replicateProgram i crc s).pending = s.pending := by
  unfold replicateProgram
  (repeat' split) <;> simp -implicitDefEqProofs
@[simp] theorem replicateProgram_pins (i : Nat) (crc : Option Nat) (s : State) : (replicateProgram i crc s).pins = s.pins := by
  unfold replicateProgram
  (repeat' split) <;> simp -implicitDefEqProofs
@[simp] theorem replicateProgram_pointer (i : Nat) (crc : Option Nat) (s : State) : (replicateProgram i crc s).pointer = s.pointer := by
  unfold replicateProgram
  (repeat' split) <;> simp -implicitDefEqProofs
@[simp] theorem replicateProgram_ports (i : Nat) (crc : Option Nat) (s : State) : (replicateProgram i crc s).ports = s.ports := by
  unfold replicateProgram
  (repeat' split) <;> simp -implicitDefEqProofs
@[simp] theorem replicateProgram_power (i : Nat) (crc : Option Nat) (s : State) : (replicateProgram i crc s).power = s.power := by
  unfold replicateProgram
  (repeat' split) <;> simp -implicitDefEqProofs
@[simp] theorem replicateProgram_raman (i : Nat) (crc : Option Nat) (s : State) : (replicateProgram i crc s).raman = s.raman := by
  unfold replicateProgram
  (repeat' split) <;> simp -implicitDefEqProofs
@[simp] theorem replicateProgram_rtd (i : Nat) (crc : Option Nat) (s : State) : (replicateProgram i crc s).rtd = s.rtd := by
  unfold replicateProgram
  (repeat' split) <;> simp -implicitDefEqProofs
@[simp] theorem replicateProgram_safety (i : Nat) (crc : Option Nat) (s : State) : (replicateProgram i crc s).safety = s.safety := by
  unfold replicateProgram
  (repeat' split) <;> simp -implicitDefEqProofs
@[simp] theorem replicateProgram_serif (i : Nat) (crc : Option Nat) (s : State) : (replicateProgram i crc s).serif = s.serif := by
  unfold replicateProgram
  (repeat' split) <;> simp -implicitDefEqProofs
@[simp] theorem replicateProgram_straps (i : Nat) (crc : Option Nat) (s : State) : (replicateProgram i crc s).straps = s.straps := by
  unfold replicateProgram
  (repeat' split) <;> simp -implicitDefEqProofs
@[simp] theorem replicateProgram_ticks (i : Nat) (crc : Option Nat) (s : State) : (replicateProgram i crc s).ticks = s.ticks := by
  unfold replicateProgram
  (repeat' split) <;> simp -implicitDefEqProofs
@[simp] theorem replicateProgram_time (i : Nat) (crc : Option Nat) (s : State) : (replicateProgram i crc s).time = s.time := by
  unfold replicateProgram
  (repeat' split) <;> simp -implicitDefEqProofs
@[simp] theorem segorTransmit_pending (s : State) : (segorTransmit  s).pending = s.pending := by
  unfold segorTransmit
  (repeat' split) <;> simp -implicitDefEqProofs
@[simp] theorem segorTransmit_ticks (s : State) : (segorTransmit  s).ticks = s.ticks := by
  unfold segorTransmit
  (repeat' split) <;> simp -implicitDefEqProofs
@[simp] theorem sendQueueDatagram_pending (n : Nat) (s : State) : (sendQueueDatagram n s).pending = s.pending := by
  unfold sendQueueDatagram
  dsimp only
  (repeat' split) <;> simp -implicitDefEqProofs
@[simp] theorem sendQueueDatagram_ticks (n : Nat) (s : State) : (sendQueueDatagram n s).ticks = s.ticks := by
  unfold sendQueueDatagram
  dsimp only
  (repeat' split) <;> simp -implicitDefEqProofs
@[simp] theorem steerTick_pending (s : State) : (steerTick  s).pending = s.pending := by
  unfold steerTick
  dsimp only
  (repeat' split) <;> simp -implicitDefEqProofs
@[simp] theorem steerTick_ticks (s : State) : (steerTick  s).ticks = s.ticks := by
  unfold steerTick
  dsimp only
  (repeat' split) <;> simp -implicitDefEqProofs
@[simp] theorem onItem_calib_generations (item index : Nat) (f : CalItem → CalItem) (s : State) : (onItem item index f s).calib.generations = s.calib.generations := by
  simp -implicitDefEqProofs [onItem]
@[simp] theorem onItem_calib_jobs (item index : Nat) (f : CalItem → CalItem) (s : State) : (onItem item index f s).calib.jobs = s.calib.jobs := by
  simp -implicitDefEqProofs [onItem]
@[simp] theorem onItem_calib_temp (item index : Nat) (f : CalItem → CalItem) (s : State) : (onItem item index f s).calib.temp = s.calib.temp := by
  simp -implicitDefEqProofs [onItem]
@[simp] theorem retarget_time_domains (s : State) : (retarget  s).time.domains = s.time.domains := by
  unfold retarget
  dsimp only
  (repeat' split) <;> simp -implicitDefEqProofs
@[simp] theorem pairQuery_banks (r : Request) (s : State) : (pairQuery r s).banks = s.banks := by
  simp -implicitDefEqProofs [pairQuery]
@[simp] theorem pairQuery_booted (r : Request) (s : State) : (pairQuery r s).booted = s.booted := by
  simp -implicitDefEqProofs [pairQuery]
@[simp] theorem pairQuery_calib (r : Request) (s : State) : (pairQuery r s).calib = s.calib := by
  simp -implicitDefEqProofs [pairQuery]
@[simp] theorem pairQuery_clocks (r : Request) (s : State) : (pairQuery r s).clocks = s.clocks := by
  simp -implicitDefEqProofs [pairQuery]
@[simp] theorem pairQuery_firmware (r : Request) (s : State) : (pairQuery r s).firmware = s.firmware := by
  simp -implicitDefEqProofs [pairQuery]
@[simp] theorem pairQuery_free (r : Request) (s : State) : (pairQuery r s).free = s.free := by
  simp -implicitDefEqProofs [pairQuery]
@[simp] theorem pairQuery_herder (r : Request) (s : State) : (pairQuery r s).herder = s.herder := by
  simp -implicitDefEqProofs [pairQuery]
@[simp] theorem pairQuery_hk (r : Request) (s : State) : (pairQuery r s).hk = s.hk := by
  simp -implicitDefEqProofs [pairQuery]
@[simp] theorem pairQuery_inkstone (r : Request) (s : State) : (pairQuery r s).inkstone = s.inkstone := by
  simp -implicitDefEqProofs [pairQuery]
@[simp] theorem pairQuery_memory (r : Request) (s : State) : (pairQuery r s).memory = s.memory := by
  simp -implicitDefEqProofs [pairQuery]
@[simp] theorem pairQuery_mode (r : Request) (s : State) : (pairQuery r s).mode = s.mode := by
  simp -implicitDefEqProofs [pairQuery]
@[simp] theorem pairQuery_modeEntry (r : Request) (s : State) : (pairQuery r s).modeEntry = s.modeEntry := by
  simp -implicitDefEqProofs [pairQuery]
@[simp] theorem pairQuery_pending (r : Request) (s : State) : (pairQuery r s).pending = s.pending := by
  simp -implicitDefEqProofs [pairQuery]
@[simp] theorem pairQuery_pins (r : Request) (s : State) : (pairQuery r s).pins = s.pins := by
  simp -implicitDefEqProofs [pairQuery]
@[simp] theorem pairQuery_pointer (r : Request) (s : State) : (pairQuery r s).pointer = s.pointer := by
  simp -implicitDefEqProofs [pairQuery]
@[simp] theorem pairQuery_ports (r : Request) (s : State) : (pairQuery r s).ports = s.ports := by
  simp -implicitDefEqProofs [pairQuery]
@[simp] theorem pairQuery_power (r : Request) (s : State) : (pairQuery r s).power = s.power := by
  simp -implicitDefEqProofs [pairQuery]
@[simp] theorem pairQuery_raman (r : Request) (s : State) : (pairQuery r s).raman = s.raman := by
  simp -implicitDefEqProofs [pairQuery]
@[simp] theorem pairQuery_rtd (r : Request) (s : State) : (pairQuery r s).rtd = s.rtd := by
  simp -implicitDefEqProofs [pairQuery]
@[simp] theorem pairQuery_safety (r : Request) (s : State) : (pairQuery r s).safety = s.safety := by
  simp -implicitDefEqProofs [pairQuery]
@[simp] theorem pairQuery_serif (r : Request) (s : State) : (pairQuery r s).serif = s.serif := by
  simp -implicitDefEqProofs [pairQuery]
@[simp] theorem pairQuery_straps (r : Request) (s : State) : (pairQuery r s).straps = s.straps := by
  simp -implicitDefEqProofs [pairQuery]
@[simp] theorem pairQuery_ticks (r : Request) (s : State) : (pairQuery r s).ticks = s.ticks := by
  simp -implicitDefEqProofs [pairQuery]
@[simp] theorem pairQuery_time (r : Request) (s : State) : (pairQuery r s).time = s.time := by
  simp -implicitDefEqProofs [pairQuery]
@[simp] theorem scribeReady_banks (s : State) : (scribeReady  s).banks = s.banks := by
  simp -implicitDefEqProofs [scribeReady]
@[simp] theorem scribeReady_booted (s : State) : (scribeReady  s).booted = s.booted := by
  simp -implicitDefEqProofs [scribeReady]
@[simp] theorem scribeReady_clocks (s : State) : (scribeReady  s).clocks = s.clocks := by
  simp -implicitDefEqProofs [scribeReady]
@[simp] theorem scribeReady_firmware (s : State) : (scribeReady  s).firmware = s.firmware := by
  simp -implicitDefEqProofs [scribeReady]
@[simp] theorem scribeReady_free (s : State) : (scribeReady  s).free = s.free := by
  simp -implicitDefEqProofs [scribeReady]
@[simp] theorem scribeReady_herder (s : State) : (scribeReady  s).herder = s.herder := by
  simp -implicitDefEqProofs [scribeReady]
@[simp] theorem scribeReady_hk (s : State) : (scribeReady  s).hk = s.hk := by
  simp -implicitDefEqProofs [scribeReady]
@[simp] theorem scribeReady_inkstone (s : State) : (scribeReady  s).inkstone = s.inkstone := by
  simp -implicitDefEqProofs [scribeReady]
@[simp] theorem scribeReady_journal (s : State) : (scribeReady  s).journal = s.journal := by
  simp -implicitDefEqProofs [scribeReady]
@[simp] theorem scribeReady_memory (s : State) : (scribeReady  s).memory = s.memory := by
  simp -implicitDefEqProofs [scribeReady]
@[simp] theorem scribeReady_mode (s : State) : (scribeReady  s).mode = s.mode := by
  simp -implicitDefEqProofs [scribeReady]
@[simp] theorem scribeReady_modeEntry (s : State) : (scribeReady  s).modeEntry = s.modeEntry := by
  simp -implicitDefEqProofs [scribeReady]
@[simp] theorem scribeReady_pending (s : State) : (scribeReady  s).pending = s.pending := by
  simp -implicitDefEqProofs [scribeReady]
@[simp] theorem scribeReady_pins (s : State) : (scribeReady  s).pins = s.pins := by
  simp -implicitDefEqProofs [scribeReady]
@[simp] theorem scribeReady_pointer (s : State) : (scribeReady  s).pointer = s.pointer := by
  simp -implicitDefEqProofs [scribeReady]
@[simp] theorem scribeReady_ports (s : State) : (scribeReady  s).ports = s.ports := by
  simp -implicitDefEqProofs [scribeReady]
@[simp] theorem scribeReady_power (s : State) : (scribeReady  s).power = s.power := by
  simp -implicitDefEqProofs [scribeReady]
@[simp] theorem scribeReady_raman (s : State) : (scribeReady  s).raman = s.raman := by
  simp -implicitDefEqProofs [scribeReady]
@[simp] theorem scribeReady_rtd (s : State) : (scribeReady  s).rtd = s.rtd := by
  simp -implicitDefEqProofs [scribeReady]
@[simp] theorem scribeReady_safety (s : State) : (scribeReady  s).safety = s.safety := by
  simp -implicitDefEqProofs [scribeReady]
@[simp] theorem scribeReady_serif (s : State) : (scribeReady  s).serif = s.serif := by
  simp -implicitDefEqProofs [scribeReady]
@[simp] theorem scribeReady_straps (s : State) : (scribeReady  s).straps = s.straps := by
  simp -implicitDefEqProofs [scribeReady]
@[simp] theorem scribeReady_ticks (s : State) : (scribeReady  s).ticks = s.ticks := by
  simp -implicitDefEqProofs [scribeReady]
@[simp] theorem scribeReady_time (s : State) : (scribeReady  s).time = s.time := by
  simp -implicitDefEqProofs [scribeReady]
@[simp] theorem surveyStage_clocks (p : Nat) (r : SurveyResult) (s : State) : (surveyStage p r s).clocks = s.clocks := by
  simp -implicitDefEqProofs [surveyStage]
@[simp] theorem surveyStage_memory (p : Nat) (r : SurveyResult) (s : State) : (surveyStage p r s).memory = s.memory := by
  simp -implicitDefEqProofs [surveyStage]
@[simp] theorem surveyStage_mode (p : Nat) (r : SurveyResult) (s : State) : (surveyStage p r s).mode = s.mode := by
  simp -implicitDefEqProofs [surveyStage]
@[simp] theorem surveyStage_pending (p : Nat) (r : SurveyResult) (s : State) : (surveyStage p r s).pending = s.pending := by
  simp -implicitDefEqProofs [surveyStage]
@[simp] theorem surveyStage_ports (p : Nat) (r : SurveyResult) (s : State) : (surveyStage p r s).ports = s.ports := by
  simp -implicitDefEqProofs [surveyStage]
@[simp] theorem surveyStage_power (p : Nat) (r : SurveyResult) (s : State) : (surveyStage p r s).power = s.power := by
  simp -implicitDefEqProofs [surveyStage]
@[simp] theorem surveyStage_safety (p : Nat) (r : SurveyResult) (s : State) : (surveyStage p r s).safety = s.safety := by
  simp -implicitDefEqProofs [surveyStage]
@[simp] theorem tdcDelayBegin_pending (s : State) : (tdcDelayBegin  s).pending = s.pending := by
  simp -implicitDefEqProofs [tdcDelayBegin]
@[simp] theorem tdcDelayBegin_ticks (s : State) : (tdcDelayBegin  s).ticks = s.ticks := by
  simp -implicitDefEqProofs [tdcDelayBegin]
@[simp] theorem wakeZones_mode (s : State) : (wakeZones  s).mode = s.mode := by
  simp -implicitDefEqProofs [wakeZones]
@[simp] theorem wakeZones_pending (s : State) : (wakeZones  s).pending = s.pending := by
  simp -implicitDefEqProofs [wakeZones]
@[simp] theorem wakeZones_power (s : State) : (wakeZones  s).power = s.power := by
  simp -implicitDefEqProofs [wakeZones]
@[simp] theorem wakeZones_ticks (s : State) : (wakeZones  s).ticks = s.ticks := by
  simp -implicitDefEqProofs [wakeZones]
@[simp] theorem answerWork_banks (r : Request) (n k detail : Nat) (s : State) : (answerWork r n k detail s).banks = s.banks := by
  unfold answerWork
  (repeat' split) <;> simp -implicitDefEqProofs
@[simp] theorem answerWork_booted (r : Request) (n k detail : Nat) (s : State) : (answerWork r n k detail s).booted = s.booted := by
  unfold answerWork
  (repeat' split) <;> simp -implicitDefEqProofs
@[simp] theorem answerWork_calib (r : Request) (n k detail : Nat) (s : State) : (answerWork r n k detail s).calib = s.calib := by
  unfold answerWork
  (repeat' split) <;> simp -implicitDefEqProofs
@[simp] theorem answerWork_clocks (r : Request) (n k detail : Nat) (s : State) : (answerWork r n k detail s).clocks = s.clocks := by
  unfold answerWork
  (repeat' split) <;> simp -implicitDefEqProofs
@[simp] theorem answerWork_evq (r : Request) (n k detail : Nat) (s : State) : (answerWork r n k detail s).evq = s.evq := by
  unfold answerWork
  (repeat' split) <;> simp -implicitDefEqProofs
@[simp] theorem answerWork_firmware (r : Request) (n k detail : Nat) (s : State) : (answerWork r n k detail s).firmware = s.firmware := by
  unfold answerWork
  (repeat' split) <;> simp -implicitDefEqProofs
@[simp] theorem answerWork_free (r : Request) (n k detail : Nat) (s : State) : (answerWork r n k detail s).free = s.free := by
  unfold answerWork
  (repeat' split) <;> simp -implicitDefEqProofs
@[simp] theorem answerWork_herder (r : Request) (n k detail : Nat) (s : State) : (answerWork r n k detail s).herder = s.herder := by
  unfold answerWork
  (repeat' split) <;> simp -implicitDefEqProofs
@[simp] theorem answerWork_hk (r : Request) (n k detail : Nat) (s : State) : (answerWork r n k detail s).hk = s.hk := by
  unfold answerWork
  (repeat' split) <;> simp -implicitDefEqProofs
@[simp] theorem answerWork_inkstone (r : Request) (n k detail : Nat) (s : State) : (answerWork r n k detail s).inkstone = s.inkstone := by
  unfold answerWork
  (repeat' split) <;> simp -implicitDefEqProofs
@[simp] theorem answerWork_journal (r : Request) (n k detail : Nat) (s : State) : (answerWork r n k detail s).journal = s.journal := by
  unfold answerWork
  (repeat' split) <;> simp -implicitDefEqProofs
@[simp] theorem answerWork_log (r : Request) (n k detail : Nat) (s : State) : (answerWork r n k detail s).log = s.log := by
  unfold answerWork
  (repeat' split) <;> simp -implicitDefEqProofs
@[simp] theorem answerWork_memory (r : Request) (n k detail : Nat) (s : State) : (answerWork r n k detail s).memory = s.memory := by
  unfold answerWork
  (repeat' split) <;> simp -implicitDefEqProofs
@[simp] theorem answerWork_mode (r : Request) (n k detail : Nat) (s : State) : (answerWork r n k detail s).mode = s.mode := by
  unfold answerWork
  (repeat' split) <;> simp -implicitDefEqProofs
@[simp] theorem answerWork_modeEntry (r : Request) (n k detail : Nat) (s : State) : (answerWork r n k detail s).modeEntry = s.modeEntry := by
  unfold answerWork
  (repeat' split) <;> simp -implicitDefEqProofs
@[simp] theorem answerWork_params (r : Request) (n k detail : Nat) (s : State) : (answerWork r n k detail s).params = s.params := by
  unfold answerWork
  (repeat' split) <;> simp -implicitDefEqProofs
@[simp] theorem answerWork_pending (r : Request) (n k detail : Nat) (s : State) : (answerWork r n k detail s).pending = s.pending := by
  unfold answerWork
  (repeat' split) <;> simp -implicitDefEqProofs
@[simp] theorem answerWork_pins (r : Request) (n k detail : Nat) (s : State) : (answerWork r n k detail s).pins = s.pins := by
  unfold answerWork
  (repeat' split) <;> simp -implicitDefEqProofs
@[simp] theorem answerWork_pointer (r : Request) (n k detail : Nat) (s : State) : (answerWork r n k detail s).pointer = s.pointer := by
  unfold answerWork
  (repeat' split) <;> simp -implicitDefEqProofs
@[simp] theorem answerWork_ports (r : Request) (n k detail : Nat) (s : State) : (answerWork r n k detail s).ports = s.ports := by
  unfold answerWork
  (repeat' split) <;> simp -implicitDefEqProofs
@[simp] theorem answerWork_power (r : Request) (n k detail : Nat) (s : State) : (answerWork r n k detail s).power = s.power := by
  unfold answerWork
  (repeat' split) <;> simp -implicitDefEqProofs
@[simp] theorem answerWork_raman (r : Request) (n k detail : Nat) (s : State) : (answerWork r n k detail s).raman = s.raman := by
  unfold answerWork
  (repeat' split) <;> simp -implicitDefEqProofs
@[simp] theorem answerWork_rtd (r : Request) (n k detail : Nat) (s : State) : (answerWork r n k detail s).rtd = s.rtd := by
  unfold answerWork
  (repeat' split) <;> simp -implicitDefEqProofs
@[simp] theorem answerWork_safety (r : Request) (n k detail : Nat) (s : State) : (answerWork r n k detail s).safety = s.safety := by
  unfold answerWork
  (repeat' split) <;> simp -implicitDefEqProofs
@[simp] theorem answerWork_serif (r : Request) (n k detail : Nat) (s : State) : (answerWork r n k detail s).serif = s.serif := by
  unfold answerWork
  (repeat' split) <;> simp -implicitDefEqProofs
@[simp] theorem answerWork_straps (r : Request) (n k detail : Nat) (s : State) : (answerWork r n k detail s).straps = s.straps := by
  unfold answerWork
  (repeat' split) <;> simp -implicitDefEqProofs
@[simp] theorem answerWork_ticks (r : Request) (n k detail : Nat) (s : State) : (answerWork r n k detail s).ticks = s.ticks := by
  unfold answerWork
  (repeat' split) <;> simp -implicitDefEqProofs
@[simp] theorem answerWork_time (r : Request) (n k detail : Nat) (s : State) : (answerWork r n k detail s).time = s.time := by
  unfold answerWork
  (repeat' split) <;> simp -implicitDefEqProofs
@[simp] theorem rtdNext_banks (s : State) : (rtdNext  s).banks = s.banks := by
  unfold rtdNext
  (repeat' split) <;> simp -implicitDefEqProofs
@[simp] theorem rtdNext_booted (s : State) : (rtdNext  s).booted = s.booted := by
  unfold rtdNext
  (repeat' split) <;> simp -implicitDefEqProofs
@[simp] theorem rtdNext_calib (s : State) : (rtdNext  s).calib = s.calib := by
  unfold rtdNext
  (repeat' split) <;> simp -implicitDefEqProofs
@[simp] theorem rtdNext_clocks (s : State) : (rtdNext  s).clocks = s.clocks := by
  unfold rtdNext
  (repeat' split) <;> simp -implicitDefEqProofs
@[simp] theorem rtdNext_firmware (s : State) : (rtdNext  s).firmware = s.firmware := by
  unfold rtdNext
  (repeat' split) <;> simp -implicitDefEqProofs
@[simp] theorem rtdNext_free (s : State) : (rtdNext  s).free = s.free := by
  unfold rtdNext
  (repeat' split) <;> simp -implicitDefEqProofs
@[simp] theorem rtdNext_herder (s : State) : (rtdNext  s).herder = s.herder := by
  unfold rtdNext
  (repeat' split) <;> simp -implicitDefEqProofs
@[simp] theorem rtdNext_hk (s : State) : (rtdNext  s).hk = s.hk := by
  unfold rtdNext
  (repeat' split) <;> simp -implicitDefEqProofs
@[simp] theorem rtdNext_inkstone (s : State) : (rtdNext  s).inkstone = s.inkstone := by
  unfold rtdNext
  (repeat' split) <;> simp -implicitDefEqProofs
@[simp] theorem rtdNext_memory (s : State) : (rtdNext  s).memory = s.memory := by
  unfold rtdNext
  (repeat' split) <;> simp -implicitDefEqProofs
@[simp] theorem rtdNext_mode (s : State) : (rtdNext  s).mode = s.mode := by
  unfold rtdNext
  (repeat' split) <;> simp -implicitDefEqProofs
@[simp] theorem rtdNext_modeEntry (s : State) : (rtdNext  s).modeEntry = s.modeEntry := by
  unfold rtdNext
  (repeat' split) <;> simp -implicitDefEqProofs
@[simp] theorem rtdNext_pending (s : State) : (rtdNext  s).pending = s.pending := by
  unfold rtdNext
  (repeat' split) <;> simp -implicitDefEqProofs
@[simp] theorem rtdNext_pins (s : State) : (rtdNext  s).pins = s.pins := by
  unfold rtdNext
  (repeat' split) <;> simp -implicitDefEqProofs
@[simp] theorem rtdNext_pointer (s : State) : (rtdNext  s).pointer = s.pointer := by
  unfold rtdNext
  (repeat' split) <;> simp -implicitDefEqProofs
@[simp] theorem rtdNext_ports (s : State) : (rtdNext  s).ports = s.ports := by
  unfold rtdNext
  (repeat' split) <;> simp -implicitDefEqProofs
@[simp] theorem rtdNext_power (s : State) : (rtdNext  s).power = s.power := by
  unfold rtdNext
  (repeat' split) <;> simp -implicitDefEqProofs
@[simp] theorem rtdNext_raman (s : State) : (rtdNext  s).raman = s.raman := by
  unfold rtdNext
  (repeat' split) <;> simp -implicitDefEqProofs
@[simp] theorem rtdNext_safety (s : State) : (rtdNext  s).safety = s.safety := by
  unfold rtdNext
  (repeat' split) <;> simp -implicitDefEqProofs
@[simp] theorem rtdNext_serif (s : State) : (rtdNext  s).serif = s.serif := by
  unfold rtdNext
  (repeat' split) <;> simp -implicitDefEqProofs
@[simp] theorem rtdNext_straps (s : State) : (rtdNext  s).straps = s.straps := by
  unfold rtdNext
  (repeat' split) <;> simp -implicitDefEqProofs
@[simp] theorem rtdNext_ticks (s : State) : (rtdNext  s).ticks = s.ticks := by
  unfold rtdNext
  (repeat' split) <;> simp -implicitDefEqProofs
@[simp] theorem rtdNext_time (s : State) : (rtdNext  s).time = s.time := by
  unfold rtdNext
  (repeat' split) <;> simp -implicitDefEqProofs
@[simp] theorem ethTransmit_pending (n : Nat) (s : State) : (ethTransmit n s).pending = s.pending := by
  unfold ethTransmit
  dsimp only
  (repeat' split) <;> simp -implicitDefEqProofs
@[simp] theorem ethTransmit_ticks (n : Nat) (s : State) : (ethTransmit n s).ticks = s.ticks := by
  unfold ethTransmit
  dsimp only
  (repeat' split) <;> simp -implicitDefEqProofs
@[simp] theorem slewEnd_pending (before : Int) (s : State) : (slewEnd before s).pending = s.pending := by
  unfold slewEnd
  dsimp only
  (repeat' split) <;> simp -implicitDefEqProofs
@[simp] theorem slewEnd_ticks (before : Int) (s : State) : (slewEnd before s).ticks = s.ticks := by
  unfold slewEnd
  dsimp only
  (repeat' split) <;> simp -implicitDefEqProofs
@[simp] theorem toutTick_pending (u : Nat) (s : State) : (toutTick u s).pending = s.pending := by
  unfold toutTick
  dsimp only
  (repeat' split) <;> simp -implicitDefEqProofs
@[simp] theorem toutTick_ticks (u : Nat) (s : State) : (toutTick u s).ticks = s.ticks := by
  unfold toutTick
  dsimp only
  (repeat' split) <;> simp -implicitDefEqProofs
@[simp] theorem answerWork_scribe_page (r : Request) (n k detail : Nat) (s : State) : (answerWork r n k detail s).scribe.page = s.scribe.page := by
  unfold answerWork
  (repeat' split) <;> simp -implicitDefEqProofs
@[simp] theorem answerWork_scribe_queue (r : Request) (n k detail : Nat) (s : State) : (answerWork r n k detail s).scribe.queue = s.scribe.queue := by
  unfold answerWork
  (repeat' split) <;> simp -implicitDefEqProofs
@[simp] theorem answerWork_scribe_ready (r : Request) (n k detail : Nat) (s : State) : (answerWork r n k detail s).scribe.ready = s.scribe.ready := by
  unfold answerWork
  (repeat' split) <;> simp -implicitDefEqProofs
@[simp] theorem answerWork_scribe_restarting (r : Request) (n k detail : Nat) (s : State) : (answerWork r n k detail s).scribe.restarting = s.scribe.restarting := by
  unfold answerWork
  (repeat' split) <;> simp -implicitDefEqProofs
@[simp] theorem strokeEmit_banks (pt : RawPoint) (t : Shot) (o : UnwrapOut) (s : State) : (strokeEmit pt t o s).banks = s.banks := by
  unfold strokeEmit
  dsimp only
  (repeat' split) <;> simp -implicitDefEqProofs
@[simp] theorem strokeEmit_booted (pt : RawPoint) (t : Shot) (o : UnwrapOut) (s : State) : (strokeEmit pt t o s).booted = s.booted := by
  unfold strokeEmit
  dsimp only
  (repeat' split) <;> simp -implicitDefEqProofs
@[simp] theorem strokeEmit_calib (pt : RawPoint) (t : Shot) (o : UnwrapOut) (s : State) : (strokeEmit pt t o s).calib = s.calib := by
  unfold strokeEmit
  dsimp only
  (repeat' split) <;> simp -implicitDefEqProofs
@[simp] theorem strokeEmit_clocks (pt : RawPoint) (t : Shot) (o : UnwrapOut) (s : State) : (strokeEmit pt t o s).clocks = s.clocks := by
  unfold strokeEmit
  dsimp only
  (repeat' split) <;> simp -implicitDefEqProofs
@[simp] theorem strokeEmit_firmware (pt : RawPoint) (t : Shot) (o : UnwrapOut) (s : State) : (strokeEmit pt t o s).firmware = s.firmware := by
  unfold strokeEmit
  dsimp only
  (repeat' split) <;> simp -implicitDefEqProofs
@[simp] theorem strokeEmit_free (pt : RawPoint) (t : Shot) (o : UnwrapOut) (s : State) : (strokeEmit pt t o s).free = s.free := by
  unfold strokeEmit
  dsimp only
  (repeat' split) <;> simp -implicitDefEqProofs
@[simp] theorem strokeEmit_herder (pt : RawPoint) (t : Shot) (o : UnwrapOut) (s : State) : (strokeEmit pt t o s).herder = s.herder := by
  unfold strokeEmit
  dsimp only
  (repeat' split) <;> simp -implicitDefEqProofs
@[simp] theorem strokeEmit_hk (pt : RawPoint) (t : Shot) (o : UnwrapOut) (s : State) : (strokeEmit pt t o s).hk = s.hk := by
  unfold strokeEmit
  dsimp only
  (repeat' split) <;> simp -implicitDefEqProofs
@[simp] theorem strokeEmit_inkstone (pt : RawPoint) (t : Shot) (o : UnwrapOut) (s : State) : (strokeEmit pt t o s).inkstone = s.inkstone := by
  unfold strokeEmit
  dsimp only
  (repeat' split) <;> simp -implicitDefEqProofs
@[simp] theorem strokeEmit_memory (pt : RawPoint) (t : Shot) (o : UnwrapOut) (s : State) : (strokeEmit pt t o s).memory = s.memory := by
  unfold strokeEmit
  dsimp only
  (repeat' split) <;> simp -implicitDefEqProofs
@[simp] theorem strokeEmit_mode (pt : RawPoint) (t : Shot) (o : UnwrapOut) (s : State) : (strokeEmit pt t o s).mode = s.mode := by
  unfold strokeEmit
  dsimp only
  (repeat' split) <;> simp -implicitDefEqProofs
@[simp] theorem strokeEmit_modeEntry (pt : RawPoint) (t : Shot) (o : UnwrapOut) (s : State) : (strokeEmit pt t o s).modeEntry = s.modeEntry := by
  unfold strokeEmit
  dsimp only
  (repeat' split) <;> simp -implicitDefEqProofs
@[simp] theorem strokeEmit_pending (pt : RawPoint) (t : Shot) (o : UnwrapOut) (s : State) : (strokeEmit pt t o s).pending = s.pending := by
  unfold strokeEmit
  dsimp only
  (repeat' split) <;> simp -implicitDefEqProofs
@[simp] theorem strokeEmit_pins (pt : RawPoint) (t : Shot) (o : UnwrapOut) (s : State) : (strokeEmit pt t o s).pins = s.pins := by
  unfold strokeEmit
  dsimp only
  (repeat' split) <;> simp -implicitDefEqProofs
@[simp] theorem strokeEmit_pointer (pt : RawPoint) (t : Shot) (o : UnwrapOut) (s : State) : (strokeEmit pt t o s).pointer = s.pointer := by
  unfold strokeEmit
  dsimp only
  (repeat' split) <;> simp -implicitDefEqProofs
@[simp] theorem strokeEmit_power (pt : RawPoint) (t : Shot) (o : UnwrapOut) (s : State) : (strokeEmit pt t o s).power = s.power := by
  unfold strokeEmit
  dsimp only
  (repeat' split) <;> simp -implicitDefEqProofs
@[simp] theorem strokeEmit_raman (pt : RawPoint) (t : Shot) (o : UnwrapOut) (s : State) : (strokeEmit pt t o s).raman = s.raman := by
  unfold strokeEmit
  dsimp only
  (repeat' split) <;> simp -implicitDefEqProofs
@[simp] theorem strokeEmit_rtd (pt : RawPoint) (t : Shot) (o : UnwrapOut) (s : State) : (strokeEmit pt t o s).rtd = s.rtd := by
  unfold strokeEmit
  dsimp only
  (repeat' split) <;> simp -implicitDefEqProofs
@[simp] theorem strokeEmit_safety (pt : RawPoint) (t : Shot) (o : UnwrapOut) (s : State) : (strokeEmit pt t o s).safety = s.safety := by
  unfold strokeEmit
  dsimp only
  (repeat' split) <;> simp -implicitDefEqProofs
@[simp] theorem strokeEmit_serif (pt : RawPoint) (t : Shot) (o : UnwrapOut) (s : State) : (strokeEmit pt t o s).serif = s.serif := by
  unfold strokeEmit
  dsimp only
  (repeat' split) <;> simp -implicitDefEqProofs
@[simp] theorem strokeEmit_straps (pt : RawPoint) (t : Shot) (o : UnwrapOut) (s : State) : (strokeEmit pt t o s).straps = s.straps := by
  unfold strokeEmit
  dsimp only
  (repeat' split) <;> simp -implicitDefEqProofs
@[simp] theorem strokeEmit_ticks (pt : RawPoint) (t : Shot) (o : UnwrapOut) (s : State) : (strokeEmit pt t o s).ticks = s.ticks := by
  unfold strokeEmit
  dsimp only
  (repeat' split) <;> simp -implicitDefEqProofs
@[simp] theorem strokeEmit_time (pt : RawPoint) (t : Shot) (o : UnwrapOut) (s : State) : (strokeEmit pt t o s).time = s.time := by
  unfold strokeEmit
  dsimp only
  (repeat' split) <;> simp -implicitDefEqProofs
@[simp] theorem segorDown_pair_step (s : State) : (segorDown  s).pair.step = s.pair.step := by
  unfold segorDown
  dsimp only
  (repeat' split) <;> simp -implicitDefEqProofs
@[simp] theorem overdrive_banks (p group gain : Nat) (s : State) : (overdrive p group gain s).banks = s.banks := by
  unfold overdrive
  dsimp only
  (repeat' split) <;> simp -implicitDefEqProofs
@[simp] theorem overdrive_booted (p group gain : Nat) (s : State) : (overdrive p group gain s).booted = s.booted := by
  unfold overdrive
  dsimp only
  (repeat' split) <;> simp -implicitDefEqProofs
@[simp] theorem overdrive_calib (p group gain : Nat) (s : State) : (overdrive p group gain s).calib = s.calib := by
  unfold overdrive
  dsimp only
  (repeat' split) <;> simp -implicitDefEqProofs
@[simp] theorem overdrive_clocks (p group gain : Nat) (s : State) : (overdrive p group gain s).clocks = s.clocks := by
  unfold overdrive
  dsimp only
  (repeat' split) <;> simp -implicitDefEqProofs
@[simp] theorem overdrive_firmware (p group gain : Nat) (s : State) : (overdrive p group gain s).firmware = s.firmware := by
  unfold overdrive
  dsimp only
  (repeat' split) <;> simp -implicitDefEqProofs
@[simp] theorem overdrive_free (p group gain : Nat) (s : State) : (overdrive p group gain s).free = s.free := by
  unfold overdrive
  dsimp only
  (repeat' split) <;> simp -implicitDefEqProofs
@[simp] theorem overdrive_herder (p group gain : Nat) (s : State) : (overdrive p group gain s).herder = s.herder := by
  unfold overdrive
  dsimp only
  (repeat' split) <;> simp -implicitDefEqProofs
@[simp] theorem overdrive_hk (p group gain : Nat) (s : State) : (overdrive p group gain s).hk = s.hk := by
  unfold overdrive
  dsimp only
  (repeat' split) <;> simp -implicitDefEqProofs
@[simp] theorem overdrive_inkstone (p group gain : Nat) (s : State) : (overdrive p group gain s).inkstone = s.inkstone := by
  unfold overdrive
  dsimp only
  (repeat' split) <;> simp -implicitDefEqProofs
@[simp] theorem overdrive_memory (p group gain : Nat) (s : State) : (overdrive p group gain s).memory = s.memory := by
  unfold overdrive
  dsimp only
  (repeat' split) <;> simp -implicitDefEqProofs
@[simp] theorem overdrive_mode (p group gain : Nat) (s : State) : (overdrive p group gain s).mode = s.mode := by
  unfold overdrive
  dsimp only
  (repeat' split) <;> simp -implicitDefEqProofs
@[simp] theorem overdrive_modeEntry (p group gain : Nat) (s : State) : (overdrive p group gain s).modeEntry = s.modeEntry := by
  unfold overdrive
  dsimp only
  (repeat' split) <;> simp -implicitDefEqProofs
@[simp] theorem overdrive_pending (p group gain : Nat) (s : State) : (overdrive p group gain s).pending = s.pending := by
  unfold overdrive
  dsimp only
  (repeat' split) <;> simp -implicitDefEqProofs
@[simp] theorem overdrive_pins (p group gain : Nat) (s : State) : (overdrive p group gain s).pins = s.pins := by
  unfold overdrive
  dsimp only
  (repeat' split) <;> simp -implicitDefEqProofs
@[simp] theorem overdrive_pointer (p group gain : Nat) (s : State) : (overdrive p group gain s).pointer = s.pointer := by
  unfold overdrive
  dsimp only
  (repeat' split) <;> simp -implicitDefEqProofs
@[simp] theorem overdrive_power (p group gain : Nat) (s : State) : (overdrive p group gain s).power = s.power := by
  unfold overdrive
  dsimp only
  (repeat' split) <;> simp -implicitDefEqProofs
@[simp] theorem overdrive_raman (p group gain : Nat) (s : State) : (overdrive p group gain s).raman = s.raman := by
  unfold overdrive
  dsimp only
  (repeat' split) <;> simp -implicitDefEqProofs
@[simp] theorem overdrive_rtd (p group gain : Nat) (s : State) : (overdrive p group gain s).rtd = s.rtd := by
  unfold overdrive
  dsimp only
  (repeat' split) <;> simp -implicitDefEqProofs
@[simp] theorem overdrive_safety (p group gain : Nat) (s : State) : (overdrive p group gain s).safety = s.safety := by
  unfold overdrive
  dsimp only
  (repeat' split) <;> simp -implicitDefEqProofs
@[simp] theorem overdrive_serif (p group gain : Nat) (s : State) : (overdrive p group gain s).serif = s.serif := by
  unfold overdrive
  dsimp only
  (repeat' split) <;> simp -implicitDefEqProofs
@[simp] theorem overdrive_straps (p group gain : Nat) (s : State) : (overdrive p group gain s).straps = s.straps := by
  unfold overdrive
  dsimp only
  (repeat' split) <;> simp -implicitDefEqProofs
@[simp] theorem overdrive_ticks (p group gain : Nat) (s : State) : (overdrive p group gain s).ticks = s.ticks := by
  unfold overdrive
  dsimp only
  (repeat' split) <;> simp -implicitDefEqProofs
@[simp] theorem overdrive_time (p group gain : Nat) (s : State) : (overdrive p group gain s).time = s.time := by
  unfold overdrive
  dsimp only
  (repeat' split) <;> simp -implicitDefEqProofs
@[simp] theorem rtdFault_banks (k code : Nat) (ohms : Int) (s : State) : (rtdFault k code ohms s).banks = s.banks := by
  unfold rtdFault
  dsimp only
  (repeat' split) <;> simp -implicitDefEqProofs
@[simp] theorem rtdFault_booted (k code : Nat) (ohms : Int) (s : State) : (rtdFault k code ohms s).booted = s.booted := by
  unfold rtdFault
  dsimp only
  (repeat' split) <;> simp -implicitDefEqProofs
@[simp] theorem rtdFault_clocks (k code : Nat) (ohms : Int) (s : State) : (rtdFault k code ohms s).clocks = s.clocks := by
  unfold rtdFault
  dsimp only
  (repeat' split) <;> simp -implicitDefEqProofs
@[simp] theorem rtdFault_firmware (k code : Nat) (ohms : Int) (s : State) : (rtdFault k code ohms s).firmware = s.firmware := by
  unfold rtdFault
  dsimp only
  (repeat' split) <;> simp -implicitDefEqProofs
@[simp] theorem rtdFault_free (k code : Nat) (ohms : Int) (s : State) : (rtdFault k code ohms s).free = s.free := by
  unfold rtdFault
  dsimp only
  (repeat' split) <;> simp -implicitDefEqProofs
@[simp] theorem rtdFault_herder (k code : Nat) (ohms : Int) (s : State) : (rtdFault k code ohms s).herder = s.herder := by
  unfold rtdFault
  dsimp only
  (repeat' split) <;> simp -implicitDefEqProofs
@[simp] theorem rtdFault_hk (k code : Nat) (ohms : Int) (s : State) : (rtdFault k code ohms s).hk = s.hk := by
  unfold rtdFault
  dsimp only
  (repeat' split) <;> simp -implicitDefEqProofs
@[simp] theorem rtdFault_inkstone (k code : Nat) (ohms : Int) (s : State) : (rtdFault k code ohms s).inkstone = s.inkstone := by
  unfold rtdFault
  dsimp only
  (repeat' split) <;> simp -implicitDefEqProofs
@[simp] theorem rtdFault_memory (k code : Nat) (ohms : Int) (s : State) : (rtdFault k code ohms s).memory = s.memory := by
  unfold rtdFault
  dsimp only
  (repeat' split) <;> simp -implicitDefEqProofs
@[simp] theorem rtdFault_mode (k code : Nat) (ohms : Int) (s : State) : (rtdFault k code ohms s).mode = s.mode := by
  unfold rtdFault
  dsimp only
  (repeat' split) <;> simp -implicitDefEqProofs
@[simp] theorem rtdFault_modeEntry (k code : Nat) (ohms : Int) (s : State) : (rtdFault k code ohms s).modeEntry = s.modeEntry := by
  unfold rtdFault
  dsimp only
  (repeat' split) <;> simp -implicitDefEqProofs
@[simp] theorem rtdFault_pending (k code : Nat) (ohms : Int) (s : State) : (rtdFault k code ohms s).pending = s.pending := by
  unfold rtdFault
  dsimp only
  (repeat' split) <;> simp -implicitDefEqProofs
@[simp] theorem rtdFault_pins (k code : Nat) (ohms : Int) (s : State) : (rtdFault k code ohms s).pins = s.pins := by
  unfold rtdFault
  dsimp only
  (repeat' split) <;> simp -implicitDefEqProofs
@[simp] theorem rtdFault_pointer (k code : Nat) (ohms : Int) (s : State) : (rtdFault k code ohms s).pointer = s.pointer := by
  unfold rtdFault
  dsimp only
  (repeat' split) <;> simp -implicitDefEqProofs
@[simp] theorem rtdFault_ports (k code : Nat) (ohms : Int) (s : State) : (rtdFault k code ohms s).ports = s.ports := by
  unfold rtdFault
  dsimp only
  (repeat' split) <;> simp -implicitDefEqProofs
@[simp] theorem rtdFault_power (k code : Nat) (ohms : Int) (s : State) : (rtdFault k code ohms s).power = s.power := by
  unfold rtdFault
  dsimp only
  (repeat' split) <;> simp -implicitDefEqProofs
@[simp] theorem rtdFault_raman (k code : Nat) (ohms : Int) (s : State) : (rtdFault k code ohms s).raman = s.raman := by
  unfold rtdFault
  dsimp only
  (repeat' split) <;> simp -implicitDefEqProofs
@[simp] theorem rtdFault_safety (k code : Nat) (ohms : Int) (s : State) : (rtdFault k code ohms s).safety = s.safety := by
  unfold rtdFault
  dsimp only
  (repeat' split) <;> simp -implicitDefEqProofs
@[simp] theorem rtdFault_serif (k code : Nat) (ohms : Int) (s : State) : (rtdFault k code ohms s).serif = s.serif := by
  unfold rtdFault
  dsimp only
  (repeat' split) <;> simp -implicitDefEqProofs
@[simp] theorem rtdFault_straps (k code : Nat) (ohms : Int) (s : State) : (rtdFault k code ohms s).straps = s.straps := by
  unfold rtdFault
  dsimp only
  (repeat' split) <;> simp -implicitDefEqProofs
@[simp] theorem rtdFault_ticks (k code : Nat) (ohms : Int) (s : State) : (rtdFault k code ohms s).ticks = s.ticks := by
  unfold rtdFault
  dsimp only
  (repeat' split) <;> simp -implicitDefEqProofs
@[simp] theorem rtdFault_time (k code : Nat) (ohms : Int) (s : State) : (rtdFault k code ohms s).time = s.time := by
  unfold rtdFault
  dsimp only
  (repeat' split) <;> simp -implicitDefEqProofs
@[simp] theorem strokeSat_banks (p n : Nat) (s : State) : (strokeSat p n s).banks = s.banks := by
  unfold strokeSat
  dsimp only
  (repeat' split) <;> simp -implicitDefEqProofs
@[simp] theorem strokeSat_booted (p n : Nat) (s : State) : (strokeSat p n s).booted = s.booted := by
  unfold strokeSat
  dsimp only
  (repeat' split) <;> simp -implicitDefEqProofs
@[simp] theorem strokeSat_calib (p n : Nat) (s : State) : (strokeSat p n s).calib = s.calib := by
  unfold strokeSat
  dsimp only
  (repeat' split) <;> simp -implicitDefEqProofs
@[simp] theorem strokeSat_clocks (p n : Nat) (s : State) : (strokeSat p n s).clocks = s.clocks := by
  unfold strokeSat
  dsimp only
  (repeat' split) <;> simp -implicitDefEqProofs
@[simp] theorem strokeSat_firmware (p n : Nat) (s : State) : (strokeSat p n s).firmware = s.firmware := by
  unfold strokeSat
  dsimp only
  (repeat' split) <;> simp -implicitDefEqProofs
@[simp] theorem strokeSat_free (p n : Nat) (s : State) : (strokeSat p n s).free = s.free := by
  unfold strokeSat
  dsimp only
  (repeat' split) <;> simp -implicitDefEqProofs
@[simp] theorem strokeSat_herder (p n : Nat) (s : State) : (strokeSat p n s).herder = s.herder := by
  unfold strokeSat
  dsimp only
  (repeat' split) <;> simp -implicitDefEqProofs
@[simp] theorem strokeSat_hk (p n : Nat) (s : State) : (strokeSat p n s).hk = s.hk := by
  unfold strokeSat
  dsimp only
  (repeat' split) <;> simp -implicitDefEqProofs
@[simp] theorem strokeSat_inkstone (p n : Nat) (s : State) : (strokeSat p n s).inkstone = s.inkstone := by
  unfold strokeSat
  dsimp only
  (repeat' split) <;> simp -implicitDefEqProofs
@[simp] theorem strokeSat_memory (p n : Nat) (s : State) : (strokeSat p n s).memory = s.memory := by
  unfold strokeSat
  dsimp only
  (repeat' split) <;> simp -implicitDefEqProofs
@[simp] theorem strokeSat_mode (p n : Nat) (s : State) : (strokeSat p n s).mode = s.mode := by
  unfold strokeSat
  dsimp only
  (repeat' split) <;> simp -implicitDefEqProofs
@[simp] theorem strokeSat_modeEntry (p n : Nat) (s : State) : (strokeSat p n s).modeEntry = s.modeEntry := by
  unfold strokeSat
  dsimp only
  (repeat' split) <;> simp -implicitDefEqProofs
@[simp] theorem strokeSat_pending (p n : Nat) (s : State) : (strokeSat p n s).pending = s.pending := by
  unfold strokeSat
  dsimp only
  (repeat' split) <;> simp -implicitDefEqProofs
@[simp] theorem strokeSat_pins (p n : Nat) (s : State) : (strokeSat p n s).pins = s.pins := by
  unfold strokeSat
  dsimp only
  (repeat' split) <;> simp -implicitDefEqProofs
@[simp] theorem strokeSat_pointer (p n : Nat) (s : State) : (strokeSat p n s).pointer = s.pointer := by
  unfold strokeSat
  dsimp only
  (repeat' split) <;> simp -implicitDefEqProofs
@[simp] theorem strokeSat_power (p n : Nat) (s : State) : (strokeSat p n s).power = s.power := by
  unfold strokeSat
  dsimp only
  (repeat' split) <;> simp -implicitDefEqProofs
@[simp] theorem strokeSat_raman (p n : Nat) (s : State) : (strokeSat p n s).raman = s.raman := by
  unfold strokeSat
  dsimp only
  (repeat' split) <;> simp -implicitDefEqProofs
@[simp] theorem strokeSat_rtd (p n : Nat) (s : State) : (strokeSat p n s).rtd = s.rtd := by
  unfold strokeSat
  dsimp only
  (repeat' split) <;> simp -implicitDefEqProofs
@[simp] theorem strokeSat_safety (p n : Nat) (s : State) : (strokeSat p n s).safety = s.safety := by
  unfold strokeSat
  dsimp only
  (repeat' split) <;> simp -implicitDefEqProofs
@[simp] theorem strokeSat_serif (p n : Nat) (s : State) : (strokeSat p n s).serif = s.serif := by
  unfold strokeSat
  dsimp only
  (repeat' split) <;> simp -implicitDefEqProofs
@[simp] theorem strokeSat_straps (p n : Nat) (s : State) : (strokeSat p n s).straps = s.straps := by
  unfold strokeSat
  dsimp only
  (repeat' split) <;> simp -implicitDefEqProofs
@[simp] theorem strokeSat_ticks (p n : Nat) (s : State) : (strokeSat p n s).ticks = s.ticks := by
  unfold strokeSat
  dsimp only
  (repeat' split) <;> simp -implicitDefEqProofs
@[simp] theorem strokeSat_time (p n : Nat) (s : State) : (strokeSat p n s).time = s.time := by
  unfold strokeSat
  dsimp only
  (repeat' split) <;> simp -implicitDefEqProofs
@[simp] theorem xresync_scribe_ready (x : Nat) (s : State) : (xresync x s).scribe.ready = s.scribe.ready := by
  simp -implicitDefEqProofs [xresync]
@[simp] theorem xresync_scribe_restarting (x : Nat) (s : State) : (xresync x s).scribe.restarting = s.scribe.restarting := by
  simp -implicitDefEqProofs [xresync]
@[simp] theorem fitPoint_banks (p : Nat) (j : PointJob) (s : State) : (fitPoint p j s).banks = s.banks := by
  simp -implicitDefEqProofs [fitPoint]
@[simp] theorem fitPoint_booted (p : Nat) (j : PointJob) (s : State) : (fitPoint p j s).booted = s.booted := by
  simp -implicitDefEqProofs [fitPoint]
@[simp] theorem fitPoint_clocks (p : Nat) (j : PointJob) (s : State) : (fitPoint p j s).clocks = s.clocks := by
  simp -implicitDefEqProofs [fitPoint]
@[simp] theorem fitPoint_firmware (p : Nat) (j : PointJob) (s : State) : (fitPoint p j s).firmware = s.firmware := by
  simp -implicitDefEqProofs [fitPoint]
@[simp] theorem fitPoint_free (p : Nat) (j : PointJob) (s : State) : (fitPoint p j s).free = s.free := by
  simp -implicitDefEqProofs [fitPoint]
@[simp] theorem fitPoint_herder (p : Nat) (j : PointJob) (s : State) : (fitPoint p j s).herder = s.herder := by
  simp -implicitDefEqProofs [fitPoint]
@[simp] theorem fitPoint_hk (p : Nat) (j : PointJob) (s : State) : (fitPoint p j s).hk = s.hk := by
  simp -implicitDefEqProofs [fitPoint]
@[simp] theorem fitPoint_inkstone (p : Nat) (j : PointJob) (s : State) : (fitPoint p j s).inkstone = s.inkstone := by
  simp -implicitDefEqProofs [fitPoint]
@[simp] theorem fitPoint_memory (p : Nat) (j : PointJob) (s : State) : (fitPoint p j s).memory = s.memory := by
  simp -implicitDefEqProofs [fitPoint]
@[simp] theorem fitPoint_mode (p : Nat) (j : PointJob) (s : State) : (fitPoint p j s).mode = s.mode := by
  simp -implicitDefEqProofs [fitPoint]
@[simp] theorem fitPoint_modeEntry (p : Nat) (j : PointJob) (s : State) : (fitPoint p j s).modeEntry = s.modeEntry := by
  simp -implicitDefEqProofs [fitPoint]
@[simp] theorem fitPoint_pending (p : Nat) (j : PointJob) (s : State) : (fitPoint p j s).pending = s.pending := by
  simp -implicitDefEqProofs [fitPoint]
@[simp] theorem fitPoint_pins (p : Nat) (j : PointJob) (s : State) : (fitPoint p j s).pins = s.pins := by
  simp -implicitDefEqProofs [fitPoint]
@[simp] theorem fitPoint_pointer (p : Nat) (j : PointJob) (s : State) : (fitPoint p j s).pointer = s.pointer := by
  simp -implicitDefEqProofs [fitPoint]
@[simp] theorem fitPoint_ports (p : Nat) (j : PointJob) (s : State) : (fitPoint p j s).ports = s.ports := by
  simp -implicitDefEqProofs [fitPoint]
@[simp] theorem fitPoint_power (p : Nat) (j : PointJob) (s : State) : (fitPoint p j s).power = s.power := by
  simp -implicitDefEqProofs [fitPoint]
@[simp] theorem fitPoint_raman (p : Nat) (j : PointJob) (s : State) : (fitPoint p j s).raman = s.raman := by
  simp -implicitDefEqProofs [fitPoint]
@[simp] theorem fitPoint_rtd (p : Nat) (j : PointJob) (s : State) : (fitPoint p j s).rtd = s.rtd := by
  simp -implicitDefEqProofs [fitPoint]
@[simp] theorem fitPoint_safety (p : Nat) (j : PointJob) (s : State) : (fitPoint p j s).safety = s.safety := by
  simp -implicitDefEqProofs [fitPoint]
@[simp] theorem fitPoint_serif (p : Nat) (j : PointJob) (s : State) : (fitPoint p j s).serif = s.serif := by
  simp -implicitDefEqProofs [fitPoint]
@[simp] theorem fitPoint_straps (p : Nat) (j : PointJob) (s : State) : (fitPoint p j s).straps = s.straps := by
  simp -implicitDefEqProofs [fitPoint]
@[simp] theorem fitPoint_ticks (p : Nat) (j : PointJob) (s : State) : (fitPoint p j s).ticks = s.ticks := by
  simp -implicitDefEqProofs [fitPoint]
@[simp] theorem fitPoint_time (p : Nat) (j : PointJob) (s : State) : (fitPoint p j s).time = s.time := by
  simp -implicitDefEqProofs [fitPoint]
@[simp] theorem holdForPll_banks (s : State) : (holdForPll  s).banks = s.banks := by
  simp -implicitDefEqProofs [holdForPll]
@[simp] theorem holdForPll_clocks (s : State) : (holdForPll  s).clocks = s.clocks := by
  simp -implicitDefEqProofs [holdForPll]
@[simp] theorem holdForPll_mode (s : State) : (holdForPll  s).mode = s.mode := by
  simp -implicitDefEqProofs [holdForPll]
@[simp] theorem holdForPll_power (s : State) : (holdForPll  s).power = s.power := by
  simp -implicitDefEqProofs [holdForPll]
@[simp] theorem journalCutOff_banks (s : State) : (journalCutOff  s).banks = s.banks := by
  simp -implicitDefEqProofs [journalCutOff]
@[simp] theorem journalCutOff_booted (s : State) : (journalCutOff  s).booted = s.booted := by
  simp -implicitDefEqProofs [journalCutOff]
@[simp] theorem journalCutOff_clocks (s : State) : (journalCutOff  s).clocks = s.clocks := by
  simp -implicitDefEqProofs [journalCutOff]
@[simp] theorem journalCutOff_firmware (s : State) : (journalCutOff  s).firmware = s.firmware := by
  simp -implicitDefEqProofs [journalCutOff]
@[simp] theorem journalCutOff_free (s : State) : (journalCutOff  s).free = s.free := by
  simp -implicitDefEqProofs [journalCutOff]
@[simp] theorem journalCutOff_herder (s : State) : (journalCutOff  s).herder = s.herder := by
  simp -implicitDefEqProofs [journalCutOff]
@[simp] theorem journalCutOff_hk (s : State) : (journalCutOff  s).hk = s.hk := by
  simp -implicitDefEqProofs [journalCutOff]
@[simp] theorem journalCutOff_inkstone (s : State) : (journalCutOff  s).inkstone = s.inkstone := by
  simp -implicitDefEqProofs [journalCutOff]
@[simp] theorem journalCutOff_memory (s : State) : (journalCutOff  s).memory = s.memory := by
  simp -implicitDefEqProofs [journalCutOff]
@[simp] theorem journalCutOff_mode (s : State) : (journalCutOff  s).mode = s.mode := by
  simp -implicitDefEqProofs [journalCutOff]
@[simp] theorem journalCutOff_modeEntry (s : State) : (journalCutOff  s).modeEntry = s.modeEntry := by
  simp -implicitDefEqProofs [journalCutOff]
@[simp] theorem journalCutOff_pending (s : State) : (journalCutOff  s).pending = s.pending := by
  simp -implicitDefEqProofs [journalCutOff]
@[simp] theorem journalCutOff_pins (s : State) : (journalCutOff  s).pins = s.pins := by
  simp -implicitDefEqProofs [journalCutOff]
@[simp] theorem journalCutOff_pointer (s : State) : (journalCutOff  s).pointer = s.pointer := by
  simp -implicitDefEqProofs [journalCutOff]
@[simp] theorem journalCutOff_ports (s : State) : (journalCutOff  s).ports = s.ports := by
  simp -implicitDefEqProofs [journalCutOff]
@[simp] theorem journalCutOff_power (s : State) : (journalCutOff  s).power = s.power := by
  simp -implicitDefEqProofs [journalCutOff]
@[simp] theorem journalCutOff_raman (s : State) : (journalCutOff  s).raman = s.raman := by
  simp -implicitDefEqProofs [journalCutOff]
@[simp] theorem journalCutOff_rtd (s : State) : (journalCutOff  s).rtd = s.rtd := by
  simp -implicitDefEqProofs [journalCutOff]
@[simp] theorem journalCutOff_safety (s : State) : (journalCutOff  s).safety = s.safety := by
  simp -implicitDefEqProofs [journalCutOff]
@[simp] theorem journalCutOff_serif (s : State) : (journalCutOff  s).serif = s.serif := by
  simp -implicitDefEqProofs [journalCutOff]
@[simp] theorem journalCutOff_straps (s : State) : (journalCutOff  s).straps = s.straps := by
  simp -implicitDefEqProofs [journalCutOff]
@[simp] theorem journalCutOff_ticks (s : State) : (journalCutOff  s).ticks = s.ticks := by
  simp -implicitDefEqProofs [journalCutOff]
@[simp] theorem journalCutOff_time (s : State) : (journalCutOff  s).time = s.time := by
  simp -implicitDefEqProofs [journalCutOff]
@[simp] theorem pllLost_mode (i : Nat) (s : State) : (pllLost i s).mode = s.mode := by
  simp -implicitDefEqProofs [pllLost]
@[simp] theorem pllLost_ports (i : Nat) (s : State) : (pllLost i s).ports = s.ports := by
  simp -implicitDefEqProofs [pllLost]
@[simp] theorem endSurvey_mode_current (status : Nat) (s : State) : (endSurvey status s).mode.current = s.mode.current := by
  unfold endSurvey
  dsimp only
  (repeat' split) <;> simp -implicitDefEqProofs
@[simp] theorem endSurvey_mode_faultCode (status : Nat) (s : State) : (endSurvey status s).mode.faultCode = s.mode.faultCode := by
  unfold endSurvey
  dsimp only
  (repeat' split) <;> simp -implicitDefEqProofs
@[simp] theorem endSurvey_mode_inProgress (status : Nat) (s : State) : (endSurvey status s).mode.inProgress = s.mode.inProgress := by
  unfold endSurvey
  dsimp only
  (repeat' split) <;> simp -implicitDefEqProofs
@[simp] theorem endSurvey_mode_previous (status : Nat) (s : State) : (endSurvey status s).mode.previous = s.mode.previous := by
  unfold endSurvey
  dsimp only
  (repeat' split) <;> simp -implicitDefEqProofs
@[simp] theorem hostEnable_power (mask : Nat) (s : State) : (hostEnable mask s).power = s.power := by
  unfold hostEnable
  dsimp only
  (repeat' split) <;> simp -implicitDefEqProofs
@[simp] theorem idConflict_banks (unitId : Bool) (s : State) : (idConflict unitId s).banks = s.banks := by
  unfold idConflict
  dsimp only
  (repeat' split) <;> simp -implicitDefEqProofs
@[simp] theorem idConflict_booted (unitId : Bool) (s : State) : (idConflict unitId s).booted = s.booted := by
  unfold idConflict
  dsimp only
  (repeat' split) <;> simp -implicitDefEqProofs
@[simp] theorem idConflict_calib (unitId : Bool) (s : State) : (idConflict unitId s).calib = s.calib := by
  unfold idConflict
  dsimp only
  (repeat' split) <;> simp -implicitDefEqProofs
@[simp] theorem idConflict_clocks (unitId : Bool) (s : State) : (idConflict unitId s).clocks = s.clocks := by
  unfold idConflict
  dsimp only
  (repeat' split) <;> simp -implicitDefEqProofs
@[simp] theorem idConflict_firmware (unitId : Bool) (s : State) : (idConflict unitId s).firmware = s.firmware := by
  unfold idConflict
  dsimp only
  (repeat' split) <;> simp -implicitDefEqProofs
@[simp] theorem idConflict_free (unitId : Bool) (s : State) : (idConflict unitId s).free = s.free := by
  unfold idConflict
  dsimp only
  (repeat' split) <;> simp -implicitDefEqProofs
@[simp] theorem idConflict_herder (unitId : Bool) (s : State) : (idConflict unitId s).herder = s.herder := by
  unfold idConflict
  dsimp only
  (repeat' split) <;> simp -implicitDefEqProofs
@[simp] theorem idConflict_hk (unitId : Bool) (s : State) : (idConflict unitId s).hk = s.hk := by
  unfold idConflict
  dsimp only
  (repeat' split) <;> simp -implicitDefEqProofs
@[simp] theorem idConflict_inkstone (unitId : Bool) (s : State) : (idConflict unitId s).inkstone = s.inkstone := by
  unfold idConflict
  dsimp only
  (repeat' split) <;> simp -implicitDefEqProofs
@[simp] theorem idConflict_journal (unitId : Bool) (s : State) : (idConflict unitId s).journal = s.journal := by
  unfold idConflict
  dsimp only
  (repeat' split) <;> simp -implicitDefEqProofs
@[simp] theorem idConflict_memory (unitId : Bool) (s : State) : (idConflict unitId s).memory = s.memory := by
  unfold idConflict
  dsimp only
  (repeat' split) <;> simp -implicitDefEqProofs
@[simp] theorem idConflict_mode (unitId : Bool) (s : State) : (idConflict unitId s).mode = s.mode := by
  unfold idConflict
  dsimp only
  (repeat' split) <;> simp -implicitDefEqProofs
@[simp] theorem idConflict_modeEntry (unitId : Bool) (s : State) : (idConflict unitId s).modeEntry = s.modeEntry := by
  unfold idConflict
  dsimp only
  (repeat' split) <;> simp -implicitDefEqProofs
@[simp] theorem idConflict_pending (unitId : Bool) (s : State) : (idConflict unitId s).pending = s.pending := by
  unfold idConflict
  dsimp only
  (repeat' split) <;> simp -implicitDefEqProofs
@[simp] theorem idConflict_pins (unitId : Bool) (s : State) : (idConflict unitId s).pins = s.pins := by
  unfold idConflict
  dsimp only
  (repeat' split) <;> simp -implicitDefEqProofs
@[simp] theorem idConflict_pointer (unitId : Bool) (s : State) : (idConflict unitId s).pointer = s.pointer := by
  unfold idConflict
  dsimp only
  (repeat' split) <;> simp -implicitDefEqProofs
@[simp] theorem idConflict_ports (unitId : Bool) (s : State) : (idConflict unitId s).ports = s.ports := by
  unfold idConflict
  dsimp only
  (repeat' split) <;> simp -implicitDefEqProofs
@[simp] theorem idConflict_power (unitId : Bool) (s : State) : (idConflict unitId s).power = s.power := by
  unfold idConflict
  dsimp only
  (repeat' split) <;> simp -implicitDefEqProofs
@[simp] theorem idConflict_raman (unitId : Bool) (s : State) : (idConflict unitId s).raman = s.raman := by
  unfold idConflict
  dsimp only
  (repeat' split) <;> simp -implicitDefEqProofs
@[simp] theorem idConflict_rtd (unitId : Bool) (s : State) : (idConflict unitId s).rtd = s.rtd := by
  unfold idConflict
  dsimp only
  (repeat' split) <;> simp -implicitDefEqProofs
@[simp] theorem idConflict_safety (unitId : Bool) (s : State) : (idConflict unitId s).safety = s.safety := by
  unfold idConflict
  dsimp only
  (repeat' split) <;> simp -implicitDefEqProofs
@[simp] theorem idConflict_serif (unitId : Bool) (s : State) : (idConflict unitId s).serif = s.serif := by
  unfold idConflict
  dsimp only
  (repeat' split) <;> simp -implicitDefEqProofs
@[simp] theorem idConflict_straps (unitId : Bool) (s : State) : (idConflict unitId s).straps = s.straps := by
  unfold idConflict
  dsimp only
  (repeat' split) <;> simp -implicitDefEqProofs
@[simp] theorem idConflict_ticks (unitId : Bool) (s : State) : (idConflict unitId s).ticks = s.ticks := by
  unfold idConflict
  dsimp only
  (repeat' split) <;> simp -implicitDefEqProofs
@[simp] theorem idConflict_time (unitId : Bool) (s : State) : (idConflict unitId s).time = s.time := by
  unfold idConflict
  dsimp only
  (repeat' split) <;> simp -implicitDefEqProofs
@[simp] theorem pairRefresh_banks (s : State) : (pairRefresh  s).banks = s.banks := by
  unfold pairRefresh
  dsimp only
  (repeat' split) <;> simp -implicitDefEqProofs
@[simp] theorem pairRefresh_booted (s : State) : (pairRefresh  s).booted = s.booted := by
  unfold pairRefresh
  dsimp only
  (repeat' split) <;> simp -implicitDefEqProofs
@[simp] theorem pairRefresh_calib (s : State) : (pairRefresh  s).calib = s.calib := by
  unfold pairRefresh
  dsimp only
  (repeat' split) <;> simp -implicitDefEqProofs
@[simp] theorem pairRefresh_clocks (s : State) : (pairRefresh  s).clocks = s.clocks := by
  unfold pairRefresh
  dsimp only
  (repeat' split) <;> simp -implicitDefEqProofs
@[simp] theorem pairRefresh_firmware (s : State) : (pairRefresh  s).firmware = s.firmware := by
  unfold pairRefresh
  dsimp only
  (repeat' split) <;> simp -implicitDefEqProofs
@[simp] theorem pairRefresh_free (s : State) : (pairRefresh  s).free = s.free := by
  unfold pairRefresh
  dsimp only
  (repeat' split) <;> simp -implicitDefEqProofs
@[simp] theorem pairRefresh_herder (s : State) : (pairRefresh  s).herder = s.herder := by
  unfold pairRefresh
  dsimp only
  (repeat' split) <;> simp -implicitDefEqProofs
@[simp] theorem pairRefresh_hk (s : State) : (pairRefresh  s).hk = s.hk := by
  unfold pairRefresh
  dsimp only
  (repeat' split) <;> simp -implicitDefEqProofs
@[simp] theorem pairRefresh_inkstone (s : State) : (pairRefresh  s).inkstone = s.inkstone := by
  unfold pairRefresh
  dsimp only
  (repeat' split) <;> simp -implicitDefEqProofs
@[simp] theorem pairRefresh_journal (s : State) : (pairRefresh  s).journal = s.journal := by
  unfold pairRefresh
  dsimp only
  (repeat' split) <;> simp -implicitDefEqProofs
@[simp] theorem pairRefresh_memory (s : State) : (pairRefresh  s).memory = s.memory := by
  unfold pairRefresh
  dsimp only
  (repeat' split) <;> simp -implicitDefEqProofs
@[simp] theorem pairRefresh_mode (s : State) : (pairRefresh  s).mode = s.mode := by
  unfold pairRefresh
  dsimp only
  (repeat' split) <;> simp -implicitDefEqProofs
@[simp] theorem pairRefresh_modeEntry (s : State) : (pairRefresh  s).modeEntry = s.modeEntry := by
  unfold pairRefresh
  dsimp only
  (repeat' split) <;> simp -implicitDefEqProofs
@[simp] theorem pairRefresh_pending (s : State) : (pairRefresh  s).pending = s.pending := by
  unfold pairRefresh
  dsimp only
  (repeat' split) <;> simp -implicitDefEqProofs
@[simp] theorem pairRefresh_pins (s : State) : (pairRefresh  s).pins = s.pins := by
  unfold pairRefresh
  dsimp only
  (repeat' split) <;> simp -implicitDefEqProofs
@[simp] theorem pairRefresh_pointer (s : State) : (pairRefresh  s).pointer = s.pointer := by
  unfold pairRefresh
  dsimp only
  (repeat' split) <;> simp -implicitDefEqProofs
@[simp] theorem pairRefresh_power (s : State) : (pairRefresh  s).power = s.power := by
  unfold pairRefresh
  dsimp only
  (repeat' split) <;> simp -implicitDefEqProofs
@[simp] theorem pairRefresh_rtd (s : State) : (pairRefresh  s).rtd = s.rtd := by
  unfold pairRefresh
  dsimp only
  (repeat' split) <;> simp -implicitDefEqProofs
@[simp] theorem pairRefresh_serif (s : State) : (pairRefresh  s).serif = s.serif := by
  unfold pairRefresh
  dsimp only
  (repeat' split) <;> simp -implicitDefEqProofs
@[simp] theorem pairRefresh_straps (s : State) : (pairRefresh  s).straps = s.straps := by
  unfold pairRefresh
  dsimp only
  (repeat' split) <;> simp -implicitDefEqProofs
@[simp] theorem pairRefresh_ticks (s : State) : (pairRefresh  s).ticks = s.ticks := by
  unfold pairRefresh
  dsimp only
  (repeat' split) <;> simp -implicitDefEqProofs
@[simp] theorem pairRefresh_time (s : State) : (pairRefresh  s).time = s.time := by
  unfold pairRefresh
  dsimp only
  (repeat' split) <;> simp -implicitDefEqProofs
@[simp] theorem pcieDown_clocks (s : State) : (pcieDown  s).clocks = s.clocks := by
  unfold pcieDown
  dsimp only
  (repeat' split) <;> simp -implicitDefEqProofs
@[simp] theorem pcieDown_mode (s : State) : (pcieDown  s).mode = s.mode := by
  unfold pcieDown
  dsimp only
  (repeat' split) <;> simp -implicitDefEqProofs
@[simp] theorem pcieDown_ports (s : State) : (pcieDown  s).ports = s.ports := by
  unfold pcieDown
  dsimp only
  (repeat' split) <;> simp -implicitDefEqProofs
@[simp] theorem rtdPoint_banks (k : Nat) (ok : Bool) (v : Int) (s : State) : (rtdPoint k ok v s).banks = s.banks := by
  unfold rtdPoint
  dsimp only
  (repeat' split) <;> simp -implicitDefEqProofs
@[simp] theorem rtdPoint_booted (k : Nat) (ok : Bool) (v : Int) (s : State) : (rtdPoint k ok v s).booted = s.booted := by
  unfold rtdPoint
  dsimp only
  (repeat' split) <;> simp -implicitDefEqProofs
@[simp] theorem rtdPoint_clocks (k : Nat) (ok : Bool) (v : Int) (s : State) : (rtdPoint k ok v s).clocks = s.clocks := by
  unfold rtdPoint
  dsimp only
  (repeat' split) <;> simp -implicitDefEqProofs
@[simp] theorem rtdPoint_firmware (k : Nat) (ok : Bool) (v : Int) (s : State) : (rtdPoint k ok v s).firmware = s.firmware := by
  unfold rtdPoint
  dsimp only
  (repeat' split) <;> simp -implicitDefEqProofs
@[simp] theorem rtdPoint_free (k : Nat) (ok : Bool) (v : Int) (s : State) : (rtdPoint k ok v s).free = s.free := by
  unfold rtdPoint
  dsimp only
  (repeat' split) <;> simp -implicitDefEqProofs
@[simp] theorem rtdPoint_herder (k : Nat) (ok : Bool) (v : Int) (s : State) : (rtdPoint k ok v s).herder = s.herder := by
  unfold rtdPoint
  dsimp only
  (repeat' split) <;> simp -implicitDefEqProofs
@[simp] theorem rtdPoint_hk (k : Nat) (ok : Bool) (v : Int) (s : State) : (rtdPoint k ok v s).hk = s.hk := by
  unfold rtdPoint
  dsimp only
  (repeat' split) <;> simp -implicitDefEqProofs
@[simp] theorem rtdPoint_inkstone (k : Nat) (ok : Bool) (v : Int) (s : State) : (rtdPoint k ok v s).inkstone = s.inkstone := by
  unfold rtdPoint
  dsimp only
  (repeat' split) <;> simp -implicitDefEqProofs
@[simp] theorem rtdPoint_memory (k : Nat) (ok : Bool) (v : Int) (s : State) : (rtdPoint k ok v s).memory = s.memory := by
  unfold rtdPoint
  dsimp only
  (repeat' split) <;> simp -implicitDefEqProofs
@[simp] theorem rtdPoint_mode (k : Nat) (ok : Bool) (v : Int) (s : State) : (rtdPoint k ok v s).mode = s.mode := by
  unfold rtdPoint
  dsimp only
  (repeat' split) <;> simp -implicitDefEqProofs
@[simp] theorem rtdPoint_modeEntry (k : Nat) (ok : Bool) (v : Int) (s : State) : (rtdPoint k ok v s).modeEntry = s.modeEntry := by
  unfold rtdPoint
  dsimp only
  (repeat' split) <;> simp -implicitDefEqProofs
@[simp] theorem rtdPoint_pending (k : Nat) (ok : Bool) (v : Int) (s : State) : (rtdPoint k ok v s).pending = s.pending := by
  unfold rtdPoint
  dsimp only
  (repeat' split) <;> simp -implicitDefEqProofs
@[simp] theorem rtdPoint_pins (k : Nat) (ok : Bool) (v : Int) (s : State) : (rtdPoint k ok v s).pins = s.pins := by
  unfold rtdPoint
  dsimp only
  (repeat' split) <;> simp -implicitDefEqProofs
@[simp] theorem rtdPoint_pointer (k : Nat) (ok : Bool) (v : Int) (s : State) : (rtdPoint k ok v s).pointer = s.pointer := by
  unfold rtdPoint
  dsimp only
  (repeat' split) <;> simp -implicitDefEqProofs
@[simp] theorem rtdPoint_ports (k : Nat) (ok : Bool) (v : Int) (s : State) : (rtdPoint k ok v s).ports = s.ports := by
  unfold rtdPoint
  dsimp only
  (repeat' split) <;> simp -implicitDefEqProofs
@[simp] theorem rtdPoint_power (k : Nat) (ok : Bool) (v : Int) (s : State) : (rtdPoint k ok v s).power = s.power := by
  unfold rtdPoint
  dsimp only
  (repeat' split) <;> simp -implicitDefEqProofs
@[simp] theorem rtdPoint_raman (k : Nat) (ok : Bool) (v : Int) (s : State) : (rtdPoint k ok v s).raman = s.raman := by
  unfold rtdPoint
  dsimp only
  (repeat' split) <;> simp -implicitDefEqProofs
@[simp] theorem rtdPoint_rtd (k : Nat) (ok : Bool) (v : Int) (s : State) : (rtdPoint k ok v s).rtd = s.rtd := by
  unfold rtdPoint
  dsimp only
  (repeat' split) <;> simp -implicitDefEqProofs
@[simp] theorem rtdPoint_safety (k : Nat) (ok : Bool) (v : Int) (s : State) : (rtdPoint k ok v s).safety = s.safety := by
  unfold rtdPoint
  dsimp only
  (repeat' split) <;> simp -implicitDefEqProofs
@[simp] theorem rtdPoint_serif (k : Nat) (ok : Bool) (v : Int) (s : State) : (rtdPoint k ok v s).serif = s.serif := by
  unfold rtdPoint
  dsimp only
  (repeat' split) <;> simp -implicitDefEqProofs
@[simp] theorem rtdPoint_straps (k : Nat) (ok : Bool) (v : Int) (s : State) : (rtdPoint k ok v s).straps = s.straps := by
  unfold rtdPoint
  dsimp only
  (repeat' split) <;> simp -implicitDefEqProofs
@[simp] theorem rtdPoint_ticks (k : Nat) (ok : Bool) (v : Int) (s : State) : (rtdPoint k ok v s).ticks = s.ticks := by
  unfold rtdPoint
  dsimp only
  (repeat' split) <;> simp -implicitDefEqProofs
@[simp] theorem rtdPoint_time (k : Nat) (ok : Bool) (v : Int) (s : State) : (rtdPoint k ok v s).time = s.time := by
  unfold rtdPoint
  dsimp only
  (repeat' split) <;> simp -implicitDefEqProofs
@[simp] theorem traceCal_banks (p : Nat) (f : TraceFacts) (s : State) : (traceCal p f s).banks = s.banks := by
  unfold traceCal
  dsimp only
  (repeat' split) <;> simp -implicitDefEqProofs
@[simp] theorem traceCal_booted (p : Nat) (f : TraceFacts) (s : State) : (traceCal p f s).booted = s.booted := by
  unfold traceCal
  dsimp only
  (repeat' split) <;> simp -implicitDefEqProofs
@[simp] theorem traceCal_clocks (p : Nat) (f : TraceFacts) (s : State) : (traceCal p f s).clocks = s.clocks := by
  unfold traceCal
  dsimp only
  (repeat' split) <;> simp -implicitDefEqProofs
@[simp] theorem traceCal_firmware (p : Nat) (f : TraceFacts) (s : State) : (traceCal p f s).firmware = s.firmware := by
  unfold traceCal
  dsimp only
  (repeat' split) <;> simp -implicitDefEqProofs
@[simp] theorem traceCal_free (p : Nat) (f : TraceFacts) (s : State) : (traceCal p f s).free = s.free := by
  unfold traceCal
  dsimp only
  (repeat' split) <;> simp -implicitDefEqProofs
@[simp] theorem traceCal_hk (p : Nat) (f : TraceFacts) (s : State) : (traceCal p f s).hk = s.hk := by
  unfold traceCal
  dsimp only
  (repeat' split) <;> simp -implicitDefEqProofs
@[simp] theorem traceCal_inkstone (p : Nat) (f : TraceFacts) (s : State) : (traceCal p f s).inkstone = s.inkstone := by
  unfold traceCal
  dsimp only
  (repeat' split) <;> simp -implicitDefEqProofs
@[simp] theorem traceCal_journal (p : Nat) (f : TraceFacts) (s : State) : (traceCal p f s).journal = s.journal := by
  unfold traceCal
  dsimp only
  (repeat' split) <;> simp -implicitDefEqProofs
@[simp] theorem traceCal_memory (p : Nat) (f : TraceFacts) (s : State) : (traceCal p f s).memory = s.memory := by
  unfold traceCal
  dsimp only
  (repeat' split) <;> simp -implicitDefEqProofs
@[simp] theorem traceCal_mode (p : Nat) (f : TraceFacts) (s : State) : (traceCal p f s).mode = s.mode := by
  unfold traceCal
  dsimp only
  (repeat' split) <;> simp -implicitDefEqProofs
@[simp] theorem traceCal_modeEntry (p : Nat) (f : TraceFacts) (s : State) : (traceCal p f s).modeEntry = s.modeEntry := by
  unfold traceCal
  dsimp only
  (repeat' split) <;> simp -implicitDefEqProofs
@[simp] theorem traceCal_pending (p : Nat) (f : TraceFacts) (s : State) : (traceCal p f s).pending = s.pending := by
  unfold traceCal
  dsimp only
  (repeat' split) <;> simp -implicitDefEqProofs
@[simp] theorem traceCal_pins (p : Nat) (f : TraceFacts) (s : State) : (traceCal p f s).pins = s.pins := by
  unfold traceCal
  dsimp only
  (repeat' split) <;> simp -implicitDefEqProofs
@[simp] theorem traceCal_pointer (p : Nat) (f : TraceFacts) (s : State) : (traceCal p f s).pointer = s.pointer := by
  unfold traceCal
  dsimp only
  (repeat' split) <;> simp -implicitDefEqProofs
@[simp] theorem traceCal_ports (p : Nat) (f : TraceFacts) (s : State) : (traceCal p f s).ports = s.ports := by
  unfold traceCal
  dsimp only
  (repeat' split) <;> simp -implicitDefEqProofs
@[simp] theorem traceCal_power (p : Nat) (f : TraceFacts) (s : State) : (traceCal p f s).power = s.power := by
  unfold traceCal
  dsimp only
  (repeat' split) <;> simp -implicitDefEqProofs
@[simp] theorem traceCal_raman (p : Nat) (f : TraceFacts) (s : State) : (traceCal p f s).raman = s.raman := by
  unfold traceCal
  dsimp only
  (repeat' split) <;> simp -implicitDefEqProofs
@[simp] theorem traceCal_rtd (p : Nat) (f : TraceFacts) (s : State) : (traceCal p f s).rtd = s.rtd := by
  unfold traceCal
  dsimp only
  (repeat' split) <;> simp -implicitDefEqProofs
@[simp] theorem traceCal_safety (p : Nat) (f : TraceFacts) (s : State) : (traceCal p f s).safety = s.safety := by
  unfold traceCal
  dsimp only
  (repeat' split) <;> simp -implicitDefEqProofs
@[simp] theorem traceCal_serif (p : Nat) (f : TraceFacts) (s : State) : (traceCal p f s).serif = s.serif := by
  unfold traceCal
  dsimp only
  (repeat' split) <;> simp -implicitDefEqProofs
@[simp] theorem traceCal_straps (p : Nat) (f : TraceFacts) (s : State) : (traceCal p f s).straps = s.straps := by
  unfold traceCal
  dsimp only
  (repeat' split) <;> simp -implicitDefEqProofs
@[simp] theorem traceCal_ticks (p : Nat) (f : TraceFacts) (s : State) : (traceCal p f s).ticks = s.ticks := by
  unfold traceCal
  dsimp only
  (repeat' split) <;> simp -implicitDefEqProofs
@[simp] theorem traceCal_time (p : Nat) (f : TraceFacts) (s : State) : (traceCal p f s).time = s.time := by
  unfold traceCal
  dsimp only
  (repeat' split) <;> simp -implicitDefEqProofs
@[simp] theorem hostEnable_pair_own (mask : Nat) (s : State) : (hostEnable mask s).pair.own = s.pair.own := by
  unfold hostEnable
  dsimp only
  (repeat' split) <;> simp -implicitDefEqProofs
@[simp] theorem hostEnable_safety_fire (mask : Nat) (s : State) : (hostEnable mask s).safety.fire = s.safety.fire := by
  unfold hostEnable
  dsimp only
  (repeat' split) <;> simp -implicitDefEqProofs
@[simp] theorem idConflict_pair_driving (unitId : Bool) (s : State) : (idConflict unitId s).pair.driving = s.pair.driving := by
  unfold idConflict
  dsimp only
  (repeat' split) <;> simp -implicitDefEqProofs
@[simp] theorem idConflict_pair_own (unitId : Bool) (s : State) : (idConflict unitId s).pair.own = s.pair.own := by
  unfold idConflict
  dsimp only
  (repeat' split) <;> simp -implicitDefEqProofs
@[simp] theorem idConflict_pair_peerPresent (unitId : Bool) (s : State) : (idConflict unitId s).pair.peerPresent = s.pair.peerPresent := by
  unfold idConflict
  dsimp only
  (repeat' split) <;> simp -implicitDefEqProofs
@[simp] theorem idConflict_pair_release (unitId : Bool) (s : State) : (idConflict unitId s).pair.release = s.pair.release := by
  unfold idConflict
  dsimp only
  (repeat' split) <;> simp -implicitDefEqProofs
@[simp] theorem idConflict_pair_step (unitId : Bool) (s : State) : (idConflict unitId s).pair.step = s.pair.step := by
  unfold idConflict
  dsimp only
  (repeat' split) <;> simp -implicitDefEqProofs
@[simp] theorem domainWatch_pending (s : State) : (domainWatch  s).pending = s.pending := by
  unfold domainWatch
  dsimp only
  (repeat' split) <;> simp -implicitDefEqProofs
@[simp] theorem domainWatch_ticks (s : State) : (domainWatch  s).ticks = s.ticks := by
  unfold domainWatch
  dsimp only
  (repeat' split) <;> simp -implicitDefEqProofs
@[simp] theorem ethForceLow_mode (on : Bool) (s : State) : (ethForceLow on s).mode = s.mode := by
  unfold ethForceLow
  dsimp only
  (repeat' split) <;> simp -implicitDefEqProofs
@[simp] theorem ethForceLow_pending (on : Bool) (s : State) : (ethForceLow on s).pending = s.pending := by
  unfold ethForceLow
  dsimp only
  (repeat' split) <;> simp -implicitDefEqProofs
@[simp] theorem ethForceLow_power (on : Bool) (s : State) : (ethForceLow on s).power = s.power := by
  unfold ethForceLow
  dsimp only
  (repeat' split) <;> simp -implicitDefEqProofs
@[simp] theorem ethForceLow_safety (on : Bool) (s : State) : (ethForceLow on s).safety = s.safety := by
  unfold ethForceLow
  dsimp only
  (repeat' split) <;> simp -implicitDefEqProofs
@[simp] theorem ethForceLow_ticks (on : Bool) (s : State) : (ethForceLow on s).ticks = s.ticks := by
  unfold ethForceLow
  dsimp only
  (repeat' split) <;> simp -implicitDefEqProofs
@[simp] theorem leaveDormant_mode (s : State) : (leaveDormant  s).mode = s.mode := by
  simp -implicitDefEqProofs [leaveDormant]
@[simp] theorem leaveDormant_pending (s : State) : (leaveDormant  s).pending = s.pending := by
  simp -implicitDefEqProofs [leaveDormant]
@[simp] theorem leaveDormant_power (s : State) : (leaveDormant  s).power = s.power := by
  simp -implicitDefEqProofs [leaveDormant]
@[simp] theorem leaveDormant_ticks (s : State) : (leaveDormant  s).ticks = s.ticks := by
  simp -implicitDefEqProofs [leaveDormant]
@[simp] theorem timeTick_pending (s : State) : (timeTick  s).pending = s.pending := by
  simp -implicitDefEqProofs [timeTick]
@[simp] theorem timeTick_ticks (s : State) : (timeTick  s).ticks = s.ticks := by
  simp -implicitDefEqProofs [timeTick]
@[simp] theorem planFollows_mode (s : State) : (planFollows  s).mode = s.mode := by
  simp -implicitDefEqProofs [planFollows]
@[simp] theorem planFollows_pending (s : State) : (planFollows  s).pending = s.pending := by
  simp -implicitDefEqProofs [planFollows]
@[simp] theorem planFollows_power (s : State) : (planFollows  s).power = s.power := by
  simp -implicitDefEqProofs [planFollows]
@[simp] theorem planFollows_ticks (s : State) : (planFollows  s).ticks = s.ticks := by
  simp -implicitDefEqProofs [planFollows]
@[simp] theorem activate_mode_current (new : Bank) (run sentinel : Plan) (s : State) : (activate new run sentinel s).mode.current = s.mode.current := by
  unfold activate
  dsimp only
  (repeat' split) <;> simp -implicitDefEqProofs
@[simp] theorem lampFault_clocks (j kind : Nat) (s : State) : (lampFault j kind s).clocks = s.clocks := by
  unfold lampFault
  dsimp only
  (repeat' split) <;> simp -implicitDefEqProofs
@[simp] theorem lampFault_memory (j kind : Nat) (s : State) : (lampFault j kind s).memory = s.memory := by
  unfold lampFault
  dsimp only
  (repeat' split) <;> simp -implicitDefEqProofs
@[simp] theorem lampFault_power (j kind : Nat) (s : State) : (lampFault j kind s).power = s.power := by
  unfold lampFault
  dsimp only
  (repeat' split) <;> simp -implicitDefEqProofs
@[simp] theorem lampFault_time (j kind : Nat) (s : State) : (lampFault j kind s).time = s.time := by
  unfold lampFault
  dsimp only
  (repeat' split) <;> simp -implicitDefEqProofs

/-- Two states are equal where every part of them is. -/
theorem state_eq_iff {s t : State} : s = t ↔ s.power = t.power ∧ s.clocks = t.clocks ∧ s.straps = t.straps ∧ s.pins = t.pins ∧ s.mode = t.mode ∧ s.banks = t.banks ∧ s.params = t.params ∧ s.booted = t.booted ∧ s.modeEntry = t.modeEntry ∧ s.scribe = t.scribe ∧ s.evq = t.evq ∧ s.journal = t.journal ∧ s.log = t.log ∧ s.firmware = t.firmware ∧ s.ports = t.ports ∧ s.herder = t.herder ∧ s.serif = t.serif ∧ s.raman = t.raman ∧ s.rtd = t.rtd ∧ s.hk = t.hk ∧ s.pointer = t.pointer ∧ s.inkstone = t.inkstone ∧ s.memory = t.memory ∧ s.time = t.time ∧ s.links = t.links ∧ s.pair = t.pair ∧ s.safety = t.safety ∧ s.calib = t.calib ∧ s.ticks = t.ticks ∧ s.free = t.free ∧ s.pending = t.pending := by
  cases s; cases t; simp

end Sys2Proof.Machine

namespace Sys2Proof.Machine

/-! ## The journal -/

/-- An update that keeps identifiers is read back at its identifier. -/
theorem journalOf_onJournal (n : Nat) (f : JournalEntry → JournalEntry) (s : State) (hf : ∀ e, (f e).ident = e.ident) :
    journalOf (onJournal n f s) n = (journalOf s n).map f := by
  unfold journalOf onJournal
  dsimp only
  induction s.journal.entries with
  | nil => rfl
  | cons e es ih =>
    by_cases h : e.ident = n
    · simp [h, hf]
    · simpa [h] using ih

/-- The entry just opened is read back as NOT_STARTED (R143). -/
@[simp] theorem journalState_journalOpen (r : Request) (k : Nat) (s : State) :
    journalState (journalOpen r k s) (nextJournal s) = some .notStarted := by
  simp [journalState, journalOf, journalOpen, nextJournal, journalCapacity]

/-- A started entry is RUNNING. -/
theorem journalState_journalStart {n : Nat} {s : State} (h : journalState s n = some .notStarted) :
    journalState (journalStart n s) n = some .running := by
  unfold journalState journalStart at *
  rw [journalOf_onJournal _ _ _ fun e => by split <;> rfl, Option.map_map]
  obtain ⟨e, he, hst⟩ := Option.map_eq_some_iff.1 h
  simp [he, hst]

/-- An entry with a step done is RUNNING. -/
theorem journalState_journalStep {n : Nat} {s : State} (h : journalState s n = some .notStarted ∨ journalState s n = some .running) :
    journalState (journalStep n s) n = some .running := by
  unfold journalState journalStep at *
  rw [journalOf_onJournal _ _ _ (by simp), Option.map_map]
  rcases h with h | h <;> obtain ⟨e, he, hst⟩ := Option.map_eq_some_iff.1 h <;> simp [he, hst]

/-- An open entry ends in the state given. -/
theorem journalState_journalEnd {n : Nat} {s : State} {x : JState} (j : JState) (status detail : Nat) (h : journalState s n = some x)
    (hx : jstateOpen x = true) : journalState (journalEnd n j status detail s) n = some j := by
  obtain ⟨e, he, hst⟩ := Option.map_eq_some_iff.1 h
  have hpost (c : Nat) (a b d : Int) (t : State) : journalState (post c a b d t) n = journalState t n := by simp [journalState, journalOf]
  rw [journalEnd, he]
  simp only [hst, hx, if_true]
  rw [hpost, journalState, journalOf_onJournal _ _ _ (by simp), he]
  rfl

/-- Entries of identifier `n` are no longer open. -/
def journalClosed (s : State) (n : Nat) : Prop := ∀ e ∈ s.journal.entries, e.ident = n → jstateOpen e.state = false

@[simp] theorem journalIdents_onJournal (n : Nat) (f : JournalEntry → JournalEntry) (hf : ∀ e, (f e).ident = e.ident) (s : State) :
    (onJournal n f s).journal.entries.map (·.ident) = s.journal.entries.map (·.ident) := by
  simp only [onJournal, List.map_map]
  congr 1
  funext e
  simp only [Function.comp]
  split <;> simp [hf]

/-- The end of an entry keeps the identifiers. -/
theorem journalIdents_journalEnd (n : Nat) (j : JState) (st d : Nat) (s : State) :
    (journalEnd n j st d s).journal.entries.map (·.ident) = s.journal.entries.map (·.ident) := by
  unfold journalEnd
  (repeat' split) <;> simp

/-- An update at one identifier leaves the entries of the others. -/
theorem journalClosed_onJournal_other {n k : Nat} {f : JournalEntry → JournalEntry} {s : State} (hf : ∀ e, (f e).ident = e.ident) (hk : k ≠ n) (h : journalClosed s k) :
    journalClosed (onJournal n f s) k := by
  intro e he hek
  obtain ⟨e', he', rfl⟩ := List.mem_map.1 he
  split at hek
  next h' => exact absurd (hek.symm.trans ((hf e').trans h')) hk
  next h' => rw [if_neg h']; exact h e' he' hek

theorem journalClosed_post {c : Nat} {a b d : Int} {s : State} {n : Nat} : journalClosed (post c a b d s) n ↔ journalClosed s n := by
  simp [journalClosed]

/-- With no two entries of one identifier, the end of an entry closes its identifier. -/
theorem journalClosed_journalEnd {n : Nat} {j : JState} {st d : Nat} {s : State} (hj : jstateOpen j = false)
    (hd : (s.journal.entries.map (·.ident)).Nodup) : journalClosed (journalEnd n j st d s) n := by
  unfold journalEnd
  split
  next e he =>
    split
    · rw [journalClosed_post]
      intro e' h' hn
      obtain ⟨x, -, rfl⟩ := List.mem_map.1 h'
      by_cases hx : x.ident = n
      · simp [hx, hj]
      · simp [hx] at hn
    · intro e' h' hn
      have hmem := List.mem_of_find?_eq_some he
      have hident : e.ident = n := by simpa using List.find?_some he
      have : e' = e := List.inj_on_of_nodup_map hd h' hmem (hn.trans hident.symm)
      simp_all
  next he =>
    intro e' h' hn
    have := List.find?_eq_none.1 he e' h'
    simp [hn] at this

/-- The end of an entry leaves the other identifiers closed. -/
theorem journalClosed_journalEnd_other {n k : Nat} {j : JState} {st d : Nat} {s : State} (hk : k ≠ n) (h : journalClosed s k) :
    journalClosed (journalEnd n j st d s) k := by
  unfold journalEnd
  (repeat' split)
  · exact journalClosed_post.2 (journalClosed_onJournal_other (fun _ => rfl) hk h)
  all_goals exact h

/-- One open entry's cut-off. -/
def cutOffEntry (e : JournalEntry) (s : State) : State :=
  journalEnd e.ident (if e.state = .running then .part else .rolledBack) 0x60 0xFF09
    (onJournal e.ident (fun e => { e with done := e.flashDone }) s)

theorem journalIdents_cutOffEntry (e : JournalEntry) (s : State) :
    (cutOffEntry e s).journal.entries.map (·.ident) = s.journal.entries.map (·.ident) := by
  rw [cutOffEntry, journalIdents_journalEnd, journalIdents_onJournal _ _ (by simp)]

theorem journalClosed_cutOffEntry (e : JournalEntry) (s : State) (hd : (s.journal.entries.map (·.ident)).Nodup) (k : Nat)
    (h : k = e.ident ∨ journalClosed s k) : journalClosed (cutOffEntry e s) k := by
  by_cases hk : k = e.ident
  · subst hk
    refine journalClosed_journalEnd (by split <;> rfl) ?_
    rwa [journalIdents_onJournal _ _ (by simp)]
  · exact journalClosed_journalEnd_other hk (journalClosed_onJournal_other (fun _ => rfl) hk (h.resolve_left hk))

theorem journalClosed_cutOffEntries (es : List JournalEntry) (s : State) (hd : (s.journal.entries.map (·.ident)).Nodup) (k : Nat)
    (h : k ∈ es.map (·.ident) ∨ journalClosed s k) : journalClosed (forEach es cutOffEntry s) k := by
  unfold forEach
  induction es generalizing s with
  | nil => simpa using h
  | cons e es ih =>
    refine ih _ (by rwa [journalIdents_cutOffEntry]) ?_
    rw [List.map_cons, List.mem_cons] at h
    rcases h with (h | h) | h
    · exact .inr (journalClosed_cutOffEntry e s hd k (.inl h))
    · exact .inl h
    · exact .inr (journalClosed_cutOffEntry e s hd k (.inr h))

theorem journalIdents_cutOffEntries (es : List JournalEntry) (s : State) :
    (forEach es cutOffEntry s).journal.entries.map (·.ident) = s.journal.entries.map (·.ident) := by
  exact forEach_keep (fun s => s.journal.entries.map (·.ident)) cutOffEntry journalIdents_cutOffEntry es s

/-- The cut-off leaves no entry open (R145). -/
theorem journalCutOff_closes (s : State) (hd : (s.journal.entries.map (·.ident)).Nodup) :
    ∀ e ∈ (journalCutOff s).journal.entries, jstateOpen e.state = false := by
  intro e he
  let es := s.journal.entries.reverse.filter fun e => jstateOpen e.state
  have hcut : journalCutOff s = forEach es cutOffEntry s := rfl
  rw [hcut] at he
  have hident : e.ident ∈ s.journal.entries.map (·.ident) := by
    rw [← journalIdents_cutOffEntries es s]
    exact List.mem_map_of_mem he
  refine journalClosed_cutOffEntries es s hd e.ident ?_ e he rfl
  obtain ⟨e', he', hee⟩ := List.mem_map.1 hident
  by_cases ho : jstateOpen e'.state
  · refine .inl (List.mem_map.2 ⟨e', ?_, hee⟩)
    simpa [es] using ⟨he', ho⟩
  · refine .inr fun x hx hxe => ?_
    rw [List.inj_on_of_nodup_map hd hx he' (hxe.trans hee.symm)]
    simpa using ho

end Sys2Proof.Machine

namespace Sys2Proof.Machine

@[simp] theorem interruptTransition_modeCurrent (n : Nat) (s : State) : (interruptTransition n s).mode.current = s.mode.current := by
  unfold interruptTransition
  split <;> simp

@[simp] theorem endSurvey_modeCurrent (n : Nat) (s : State) : (endSurvey n s).mode.current = s.mode.current := by
  unfold endSurvey
  dsimp only
  split <;> simp

/-- Where the leash is released by the mode the unit drives it no longer (R475). -/
theorem setMode_driving (m : Mode) (n : Nat) (s : State) (h : m ∈ [Mode.reset, .boot, .config, .mirror, .test, .fault]) :
    (setMode m n s).pair.driving = false := by
  rw [setMode_obs (·.pair.driving) m n s (by intros; rfl) (by simp) (by simp) (by simp) (by simp) (by simp) (by simp)]
  simp only [onSafety_pair]
  unfold leashed modeLeash
  dsimp only
  split <;> cases m <;> simp_all [stopDriving]

/-- Emission looks at what only the emission chain and the parameters hold. -/
theorem emissionOff_of_own_eq {s t : State} (h : t.pair.own = s.pair.own) (hs : s.pair.own = false) : emissionOff t :=
  emissionOff_of_own (h.trans hs)

/-- Settles O9: outside RESET and FAULT the device takes the code and lets go of the leash, without which no port emits; inside FAULT the latched
code is not written again. -/
theorem faultIsLatched : Obligations.FaultIsLatched := by
  unfold Obligations.FaultIsLatched
  refine ⟨fun s code present hr hf => ?_, fun s code present hf => ?_⟩
  · have hown : (enterFault code present s).pair.own = false := by
      simp [enterFault, hr, hf, setMode_releases]
    refine ⟨?_, ?_, ?_, ?_, emissionOff_of_own hown, ?_⟩ <;> simp [enterFault, hr, hf, setMode_driving]
  · simp only [enterFault, hf]
    by_cases hc : code = s.mode.faultCode <;> simp [hc, hf]
end Sys2Proof.Machine

namespace Sys2Proof.Machine

theorem get_set_same {α : Type} {n : Nat} (v : Vector α n) (i : Fin n) (x : α) : (v.set i x).get i = x := by
  simp [Vector.get_eq_getElem]

theorem deviceReset_wasReset (held : Bool) (s : State) : deviceWasReset s (deviceReset held s) := by
  refine ⟨rfl, rfl, emissionOff_of_own rfl, rfl, rfl, rfl, rfl, rfl, rfl, rfl, rfl, rfl, rfl, rfl, rfl, rfl, rfl, rfl, rfl, rfl, rfl, rfl, rfl, rfl⟩

/-- Scribe's return to work touches its own state and the interrupt lines. -/
theorem scribeReady_keep {β : Type} (ob : State → β) (hob : ∀ (s : State) c l, ob { s with scribe := c, links := l } = ob s) (s : State) :
    ob (scribeReady s) = ob s := by
  unfold scribeReady
  refine (forEach_keep ob _ (fun t s => ?_) _ _).trans (hob s _ s.links)
  rw [irqSet_keep ob fun s pg m w => hob s { s.scribe with page := pg } { s.links with msix := m, peWake := w }]
  exact hob s _ s.links

@[simp] theorem onPage_ready (t f s) : (onPage t f s).scribe.ready = s.scribe.ready := rfl
@[simp] theorem onPage_restarting (t f s) : (onPage t f s).scribe.restarting = s.scribe.restarting := rfl

/-- Scribe works again. -/
@[simp] theorem scribeReady_ready (s : State) : (scribeReady s).scribe.ready = true :=
  forEach_keep (·.scribe.ready) _ (fun _ _ => by simp) _ _
@[simp] theorem scribeReady_restarting (s : State) : (scribeReady s).scribe.restarting = false :=
  forEach_keep (·.scribe.restarting) _ (fun _ _ => by simp) _ _


/-- A crossing begins anew and is reported; Scribe's own state stays. -/
@[simp] theorem xresync_ready (x : Nat) (s : State) : (xresync x s).scribe.ready = s.scribe.ready := by simp [xresync]
@[simp] theorem xresync_restarting (x : Nat) (s : State) : (xresync x s).scribe.restarting = s.scribe.restarting := by simp [xresync]

/-- How BOOT ends. -/
def bootEnded (t : State) : Prop :=
  (t.mode.current = .config ∨ t.mode.current = .mirror) ∧ t.mode.admitted = true ∧ t.scribe.ready = true ∧ emissionOff t

theorem bootComplete_ends (s : State) (hb : s.mode.current = .boot) (hi : s.mode.imageRunning = true) (hc : s.mode.sramCleared = true) :
    bootEnded (bootComplete s) := by
  unfold bootComplete
  rw [if_neg (by simp [hb, hi, hc])]
  extract_lets s1 c1 s2 c2 s3 c3 s4 s5 s6 opened ready watched cal ptr u v w
  clear_value s1 c1 s2 c2 s3 c3 s4 s5 s6
  have hadmitted : u.mode.admitted = true := by
    have hopened : opened.mode.admitted = true := by simp [opened]
    unfold u watched ready
    split <;> simpa using hopened
  have hready : u.scribe.ready = true := by
    unfold u watched ready
    split <;> simp
  clear_value u
  split
  · have hown : (enterMirror 4 u).pair.own = false := by simp [enterMirror, setMode_releases]
    exact ⟨.inr (by simp [enterMirror]), by simpa [enterMirror] using hadmitted, by simpa [enterMirror] using hready, emissionOff_of_own hown⟩
  · have hv : v.mode.current = .config ∧ v.mode.admitted = true ∧ v.scribe.ready = true ∧ v.pair.own = false :=
      ⟨by simp [v], by simpa [v] using hadmitted, by simpa [v] using hready, by simp [v, setMode_releases]⟩
    have hw : w.mode = v.mode ∧ w.scribe = v.scribe ∧ w.pair = v.pair := by
      refine ⟨forEach_mode ?_ _ _, forEach_scribe ?_ _ _, forEach_pair ?_ _ _⟩ <;> intros <;> rfl
    clear_value v w
    obtain ⟨hmode, hadm, hrdy, hown⟩ := hv
    obtain ⟨hwm, hws, hwp⟩ := hw
    split
    · exact ⟨.inl (by simp [enqueueInternal, hwm, hmode]), by simp [enqueueInternal, hwm, hadm], by simp [enqueueInternal, enqueue, hws, hrdy],
        emissionOff_of_own (by simp [enqueueInternal, hwp, hown])⟩
    · exact ⟨.inl (hwm ▸ hmode), hwm ▸ hadm, hws ▸ hrdy, emissionOff_of_own (hwp ▸ hown)⟩

/-- A restart of Scribe drops what it worked on and nothing of the plant (R89). -/
def scribeRestarted (s t : State) : Prop :=
  t.scribe.restarting = true ∧ t.scribe.queue = [] ∧ t.banks.pending = none ∧ t.banks.active = s.banks.active ∧
    t.mode.resetRecord = s.mode.resetRecord ∧ t.mode.current = s.mode.current ∧
    t = { s with scribe := t.scribe, banks := t.banks, mode := t.mode, firmware := t.firmware, serif := t.serif, pair := t.pair,
                 calib := t.calib, links := t.links, pointer := t.pointer } ∧
    t.pointer = (if s.pointer.areaSram then { s.pointer with records := [] } else s.pointer)

theorem scribeReset_frame (s : State) : scribeRestarted s (scribeReset s) := by
  unfold scribeReset
  extract_lets u items b c f g h l p v w
  have hu : u = { s with scribe := u.scribe, links := u.links } := by simp -implicitDefEqProofs [u, state_eq_iff]
  clear_value u
  simp only [scribeRestarted, state_eq_iff] at hu ⊢
  unfold w
  split <;> simp_all [v, b]

/-- Settles O10: each command of the boot takes one branch of its function under its hypotheses, and every restart is the device's reset or
Scribe's, whose return touches Scribe and the interrupt lines alone. -/
theorem bootAndRestarts : Obligations.BootAndRestarts := by
  unfold Obligations.BootAndRestarts
  refine ⟨?_, ?_, ?_, ?_, ?_, ?_, ?_, ?_, ?_, ?_, ?_⟩
  · intro s hb hi hn hr hp
    refine ⟨_, rfl, ?_⟩
    simp only [preferredBoots, slotOf] at hp
    simp [bootRomStart, preferredBoots, hb, hi, hn, hr, hp, slotOf, state_eq_iff]
    by_cases hc : (s.firmware.slots.get s.firmware.preferred).confirmed <;> simp [hc]
  · intro s hb hi hn hr h0 h1
    have hv (i : Fin 2) : (s.firmware.slots.get i).verifies = false := by fin_cases i <;> assumption
    refine ⟨_, rfl, ?_⟩
    simp [bootRomStart, preferredBoots, slotOf, hv, hb, hi, hn, hr, state_eq_iff]
  · intro s hb
    simp [exec, execBootSramClearDone, hb, onMode]
  · intro s hb
    refine ⟨_, rfl, ?_⟩
    simp [enterFault, hb]
  · intro s hb hi hc
    exact ⟨_, rfl, bootComplete_ends s hb hi hc⟩
  · intro s image hb hn hv hs
    refine ⟨_, rfl, ?_⟩
    unfold recoveryImage
    extract_lets x i
    have hrun : ¬(s.mode.current != .boot || !(s.mode.bootNoImage || s.straps.bootRecover)) = true := by simp [hb, hn]
    have hfit : ¬(!x.verifies || decide (x.security < s.firmware.secverMin)) = true := by simp [x, trialSlot, hv, hs]
    rw [if_neg hrun, if_neg hfit]
    have hget : (s.firmware.slots.set i x).get i = x := get_set_same _ _ _
    refine ⟨deviceReset_wasReset _ _, ?_, ?_, rfl⟩
    · exact (congrArg ImageSlot.verifies hget).trans hv
    · exact congrArg ImageSlot.confirmed hget
  · intro s hr hs
    refine ⟨_, rfl, ?_⟩
    simp only [scribeRuns, Bool.and_eq_true, bne_iff_ne] at hr
    obtain ⟨h1, h2⟩ := hr
    obtain ⟨hrestart, hqueue, hpending, hactive, hrecord, hcurrent, hframe, hptr⟩ := scribeReset_frame (recordReset 0x80 s)
    rw [if_neg (by simp [h1, h2, hs])]
    exact ⟨hrestart, hqueue, hpending, hactive, hrecord, hcurrent, hframe, hptr⟩
  · intro s hr hd
    refine ⟨_, rfl, ?_⟩
    simp only [scribeRestartDone, hr]
    have hready : (forEach [1, 2, 3, 7, 8] xresync (scribeReady (journalCutOff s))).scribe.ready = true :=
      (forEach_keep (·.scribe.ready) xresync (by simp) _ _).trans (by simp)
    have hrestart : (forEach [1, 2, 3, 7, 8] xresync (scribeReady (journalCutOff s))).scribe.restarting = false :=
      (forEach_keep (·.scribe.restarting) xresync (by simp) _ _).trans (by simp)
    simpa [xresync, -xresync_ready, -xresync_restarting] using ⟨hrestart, hready, journalCutOff_closes s hd⟩
  · intro s t h hs
    refine ⟨_, rfl, ?_⟩
    simp only [fwConfirmTimeout, h, if_neg (not_lt.2 hs)]
    exact ⟨deviceReset_wasReset _ _, rfl, congrArg ImageSlot.failed (get_set_same _ _ _)⟩
  · intro s h
    refine ⟨_, rfl, ?_⟩
    simp only [delayedReset, h]
    obtain ⟨hrestart, -, -, hactive, -, hcurrent, hframe, -⟩ := scribeReset_frame s
    exact ⟨hrestart, hactive, by rw [hframe], hcurrent⟩
  · intro s k h
    refine ⟨_, rfl, ?_⟩
    simp [delayedReset, h, deviceReset_wasReset]
    rfl
end Sys2Proof.Machine

namespace Sys2Proof.Machine

/-- A transition that begins is in progress; the mode itself is entered at its end (R76). -/
@[simp] theorem beginTransition_mode (t : Transition) (s : State) : (beginTransition t s).mode = { s.mode with inProgress := some t } := by
  unfold beginTransition
  extract_lets fired u v
  have hv : v.mode = u.mode := by unfold v; split <;> simp only [wakeDram_mode]
  have hu : v.mode = { s.mode with inProgress := some t } := hv.trans rfl
  split
  · exact (stopPorts_mode _).trans hu
  · exact hu

/-- Settles O11: a request that may execute reaches `modeRequest`, whose branch the hypotheses choose: the start of the transition, WRONG_MODE or
BUSY. -/
theorem modeRequestsStart : Obligations.ModeRequestsStart := by
  unfold Obligations.ModeRequestsStart
  refine ⟨?_, ?_, ?_, ?_⟩
  · intro s r m a hr hsw hm hns hp ha hst h14 h6
    refine ⟨_, congrArg Host.Outcome.next ((if_neg (by simp [hsw])).trans (runCommand_of_mayExecute hr _)), ?_⟩
    have hidle : s.mode.inProgress = none := by simpa using hp
    simp [modeRequest, hm, hidle, ha, hst, hns, h14, startAsked, h6, withJournal, journalOpen_newest]
  · intro s r m hr hsw hm hp ha
    refine congrArg Host.Outcome.next ((if_neg (by simp [hsw])).trans ((runCommand_of_mayExecute hr _).trans ?_))
    have hidle : s.mode.inProgress = none := by simpa using hp
    simp [modeRequest, hm, hidle, ha]
  · intro s r m hr hsw hm hp
    refine congrArg Host.Outcome.next ((if_neg (by simp [hsw])).trans ((runCommand_of_mayExecute hr _).trans ?_))
    simp only [modeRequest, hm, hp, if_true]
  · intro s hsw
    exact congrArg Host.Outcome.next (if_pos hsw)
end Sys2Proof.Machine

namespace Sys2Proof.Machine

/-- A device in CONFIG on trial whose confirm timeout has just ended, one tick after the commit. -/
def expiredTrial : State :=
  { State.reset with
    mode := { State.reset.mode with current := .config }, ticks := 1,
    banks := { State.reset.banks with trial := true, confirmTimeout := 0, commitTick := 1 } }

/-- The automatic revert that the confirm timeout queues carries the tick at which it arrived. -/
theorem expiredTrial_queues : (cfgConfirmTimeout expiredTrial).scribe.queue.map (·.arrived) = [1] := by decide

/-- Refutes O13: the automatic revert is queued with the tick of its arrival (`enqueue`), which the statement has as 0. -/
theorem not_internalCommandsRun : ¬ Obligations.InternalCommandsRun := by
  unfold Obligations.InternalCommandsRun
  rintro ⟨-, -, hraise, -⟩
  have h := hraise expiredTrial (by decide) rfl rfl rfl (by decide)
  have hqueue : (cfgConfirmTimeout expiredTrial).scribe.queue.map (·.arrived) = [0] :=
    congrArg (fun t : State => t.scribe.queue.map (·.arrived)) (Host.Outcome.next.inj h)
  exact absurd (expiredTrial_queues.symm.trans hqueue) (by decide)
end Sys2Proof.Machine

namespace Sys2Proof.Machine

@[simp] theorem length_leBytes (n v : Nat) : (leBytes n v).length = n := by
  induction n generalizing v with
  | zero => rfl
  | succ n ih => simp [leBytes, ih]

/-- A page transport answers under the session that its request names, or that it does not name. -/
theorem ownsSession_of_page {s : State} {r : Request} {ss : Session} (ht : r.transport < 2)
    (hss : (transportOf s r.transport).session = some ss) (hid : r.session = 0 ∨ r.session = ss.ident) : ownsSession s r = true := by
  have h2 : r.transport ≠ 2 := by omega
  simp [ownsSession, hss, h2, hid]

/-- What an answer that fits writes on a page transport (R114, R117). -/
theorem answer_page {s : State} {r : Request} {ss : Session} {status detail : Nat} {body : List Byte} (ht : r.transport < 2)
    (h1 : status ≠ 0x01) (h13 : status ≠ 0x13) (h2 : r.opcode ≠ 0x0002)
    (hss : (transportOf s r.transport).session = some ss) (hid : r.session = 0 ∨ r.session = ss.ident) (hlen : body.length ≤ 4076) :
    ∃ keep, answer r status detail body s =
      onTransport r.transport (fun x => { x with waiting := x.waiting ++ [⟨r.tag, message ss.version r.opcode r.tag ss.respSeq 0x20
          (leBytes 1 status ++ leBytes 1 0 ++ leBytes 2 detail ++ body), true⟩] })
        (onTransport r.transport (fun x => { x with cache := x.cache.map keep })
          (onTransport r.transport (fun x => { x with session := some { ss with respSeq := (ss.respSeq + 1) % 65536 } }) s)) := by
  have howns := ownsSession_of_page ht hss hid
  have h4 : r.transport ≠ 4 := by omega
  have hlimit : requestLimit s r = 4080 := by
    have h2 : r.transport ≠ 2 := by omega
    simp [requestLimit, payloadLimit, h2]
  have hop : (r.opcode == 2) = false := by simpa using h2
  have hfit : 1 + (1 + (2 + body.length)) ≤ 4080 := by omega
  simp [answer, answerWith, h1, h13, hop, h4, howns, hlimit, hfit, answerSeq, hss, sendAnswer, ht]
  exact ⟨_, rfl⟩

/-- Settles O15: the answer is one message under the request's tag, and the waiting list of its transport is all that it writes. -/
theorem answersWait : Obligations.AnswersWait := by
  unfold Obligations.AnswersWait
  intro s r ss status detail body ht h1 h13 h2 hss hid hlen
  obtain ⟨keep, h⟩ := answer_page (detail := detail) ht h1 h13 h2 hss hid hlen
  obtain ⟨t, htr⟩ : ∃ t : Fin 4, r.transport = t.val := ⟨⟨r.transport, by omega⟩, rfl⟩
  rw [h, htr]
  simp [hss]
  rfl
end Sys2Proof.Machine

namespace Sys2Proof.Machine

/-- A request that may execute has the command's opcode and came over a transport of its own. -/
theorem opcode_of_mayExecute {s : State} {code : Nat} {r : Request} (h : mayExecute s code r) : r.opcode = code ∧ r.transport ≠ 4 := by
  obtain ⟨hn, -⟩ := h
  unfold nextRequest at hn
  split at hn
  · simp at hn
  · simpa using (Option.filter_eq_some_iff.1 hn).2

@[simp] theorem onTransport_untouched (t : Nat) (f : TransportState → TransportState) (s : State) : plantUntouched s (onTransport t f s) := by
  simp [plantUntouched]

/-- A session that ends leaves neither session nor tags nor answers. -/
theorem transportOf_endSession (t : Fin 4) (s : State) :
    (transportOf (endSession t s) t).session = none ∧ (transportOf (endSession t s) t).tags = [] ∧
    (transportOf (endSession t s) t).waiting = [] := by
  simp [endSession]

/-- The state in which HELLO answers: the session before has ended and the new one stands (R123). -/
def helloed (r : Request) (v : Nat) (s : State) : State :=
  let ident := (s.scribe.sessions + 1) % 2 ^ 32
  let u := endSession r.transport { s with scribe := { s.scribe with sessions := ident } }
  onTransport r.transport (fun x => { x with
    session := some { version := v, ident := ident, source := r.source, ethPort := r.ethPort, lastValid := u.ticks }, tags := [r.tag] }) u

/-- HELLO on a transport that no other host holds. -/
theorem hello_of_free {r : Request} {v : Nat} {s : State} (hv : negotiate r.payload = some v) (hheld : heldByOther s r = false) :
    hello r s = answer { r with session := (s.scribe.sessions + 1) % 2 ^ 32 } 0 0
      (helloBody r v ((s.scribe.sessions + 1) % 2 ^ 32) (helloed r v s)) (helloed r v s) := by
  simp [hello, hheld, hv, helloed]

theorem helloed_untouched (r : Request) (v : Nat) (s : State) : plantUntouched s (helloed r v s) := by
  simp [plantUntouched, helloed]

/-- Settles O18: HELLO leaves a new session before its own answer takes the first sequence; the other commands and the timeouts are one branch each. -/
theorem sessionsLive : Obligations.SessionsLive := by
  unfold Obligations.SessionsLive
  refine ⟨?_, ?_, ?_, ?_, ?_, ?_, ?_⟩
  · intro s r v hr ht hv
    refine ⟨_, congrArg Host.Outcome.next (runCommand_of_mayExecute hr _), ?_⟩
    have hheld : heldByOther (dequeue r s) r = false := by
      have h2 : r.transport ≠ 2 := by omega
      simp [heldByOther, h2]
    rw [hello_of_free hv hheld]
    obtain ⟨hop, -⟩ := opcode_of_mayExecute hr
    obtain ⟨t, htr⟩ : ∃ t : Fin 4, r.transport = t.val := ⟨⟨r.transport, by omega⟩, rfl⟩
    obtain ⟨ss, hss, hnew⟩ : ∃ ss, (transportOf (helloed r v (dequeue r s)) r.transport).session = some ss ∧
        (ss.version, ss.ident, ss.respSeq, ss.subscribed) = (v, (s.scribe.sessions + 1) % 2 ^ 32, 0, false) := by
      rw [htr]
      refine ⟨_, by simp only [helloed, htr, transportOf_onTransport]; rfl, rfl⟩
    have htags : (transportOf (helloed r v (dequeue r s)) r.transport).tags = [r.tag] := by
      rw [htr]
      simp only [helloed, htr, transportOf_onTransport]
    obtain ⟨keep, h⟩ := answer_page (r := { r with session := (s.scribe.sessions + 1) % 2 ^ 32 })
      (body := helloBody r v ((s.scribe.sessions + 1) % 2 ^ 32) (helloed r v (dequeue r s))) (status := 0) (detail := 0) ht (by decide) (by decide)
      (by simp [hop]) hss (.inr (congrArg (·.2.1) hnew).symm) (by simp [helloBody])
    refine ⟨?_, ?_, plantUntouched_trans (dequeue_untouched r s) (plantUntouched_trans (helloed_untouched r v _) (answer_untouched _ _ _ _ _))⟩
    · rw [show (dequeue r s).scribe.sessions = s.scribe.sessions from rfl, h, htr]
      simp_all
    · rw [show (dequeue r s).scribe.sessions = s.scribe.sessions from rfl, h, htr]
      simp_all
  · intro s r hr
    exact congrArg Host.Outcome.next (runCommand_of_mayExecute hr _)
  · intro s r hr ht
    exact congrArg Host.Outcome.next ((runCommand_of_mayExecute hr _).trans (if_pos ht))
  · intro s r hr ht
    refine ⟨_, congrArg Host.Outcome.next (runCommand_of_mayExecute hr _), ?_⟩
    obtain ⟨hs, hg, -⟩ := transportOf_endSession 3 (answerOk r (dequeue r s))
    simp only [bye, ht]
    exact ⟨hs, hg⟩
  · intro s r hr hf
    refine congrArg Host.Outcome.next ((runCommand_of_mayExecute hr _).trans ?_)
    simp [eventSubscribe, hf]
  · intro s t ht hs
    refine congrArg Host.Outcome.next ?_
    simp [throttleEnd, ht, hs]
  · intro s ss hss ht
    refine ⟨_, rfl, ?_⟩
    obtain ⟨hs, hg, hw⟩ := transportOf_endSession 2 s
    simp only [sessionTimeout, hss, ht, if_true]
    exact ⟨hs, hg, hw, endSession_untouched _ _⟩
end Sys2Proof.Machine

namespace Sys2Proof.Machine

/-- An interrupt cause of a page is raised in its status alone; a vector may go out. -/
theorem pageOf_irqSet (t : Fin 2) (i : Nat) (s : State) :
    pageOf (irqSet t i s) t = { pageOf s t with irqStatus := (pageOf s t).irqStatus ||| (1#5 <<< i) } := by
  have h (v : Nat) (s : State) : pageOf (raiseVector v s) t = pageOf s t := rfl
  unfold irqSet
  dsimp only
  split
  · rw [h]; simp
  · simp

@[simp] theorem transportOf_onPage (t u : Nat) (f s) : transportOf (onPage t f s) u = transportOf s u := rfl
@[simp] theorem transportOf_irqSet (t i u : Nat) (s : State) : transportOf (irqSet t i s) u = transportOf s u := by simp [transportOf]

theorem transportOf_onTransport_lt {t : Nat} (h : t < 4) (f s) : transportOf (onTransport t f s) t = f (transportOf s t) :=
  transportOf_onTransport ⟨t, h⟩ f s

/-- A low word's read latches its high words. -/
theorem latched_read (highs : List (Nat × Nat)) (l : Store (BitVec 32)) (hk : (highs.map (·.1)).Nodup) {e : Nat × Nat} (he : e ∈ highs) :
    Store.read (fun _ => 0) (highs.foldl (fun l e => Store.put l e.1 (BitVec.ofNat 32 e.2)) l) e.1 = BitVec.ofNat 32 e.2 := by
  have hother (highs : List (Nat × Nat)) (l : Store (BitVec 32)) (k : Nat) (h : k ∉ highs.map (·.1)) :
      Store.read (fun _ => 0) (highs.foldl (fun l e => Store.put l e.1 (BitVec.ofNat 32 e.2)) l) k = Store.read (fun _ => 0) l k := by
    induction highs generalizing l with
    | nil => rfl
    | cons x xs ih =>
      rw [List.map_cons, List.mem_cons, not_or] at h
      rw [List.foldl_cons, ih _ h.2, Store.read_put_other _ _ _ h.1]
  induction highs generalizing l with
  | nil => simp at he
  | cons x xs ih =>
    rw [List.map_cons, List.nodup_cons] at hk
    rcases List.mem_cons.1 he with rfl | he
    · rw [List.foldl_cons, hother _ _ _ hk.1, Store.read_put_self]
    · exact ih _ hk.2 he

/-- No low word has two high words at one offset. -/
theorem snapshotHighs_nodup (s : State) (t off : Nat) : ((snapshotHighs s t off).map (·.1)).Nodup := by
  unfold snapshotHighs
  (repeat' split) <;> simp

theorem irqSet_untouched (t i : Nat) (s : State) : plantUntouched s (irqSet t i s) := by
  simp [plantUntouched]

/-- Settles O17: each register is one branch of the page's access; a snapshot's high words are latched once each, so the word read back is the one
that was latched. -/
theorem pageRegistersWork : Obligations.PageRegistersWork := by
  unfold Obligations.PageRegistersWork
  refine ⟨?_, ?_, ?_, ?_, ?_, ?_, ?_, ?_, ?_⟩
  · intro s t v hf
    exact congrArg Host.Outcome.next (if_pos hf)
  · intro s t n hd hr
    refine congrArg Host.Outcome.next ?_
    simp only [messageTaken, hd, hr]
    rfl
  · intro s t
    rfl
  · intro s t w rest hv hw hb
    refine ⟨_, rfl, ?_⟩
    simp only [responsePlaced, hv, hw, hb]
    have ht : t.val < 4 := by omega
    simp [pageOf_irqSet, plantUntouched, transportOf_onTransport_lt ht]
  · intro s t v hv ho hd
    refine congrArg Host.Outcome.next ?_
    simp [evqTailWrite, hv, ho, eventsLost, hd]
  · intro s t off hoff
    refine ⟨_, congrArg Host.Outcome.next (if_pos (List.contains_iff_mem.2 hoff)), ?_⟩
    unfold readLow
    by_cases h : off = 0x144
    · subst h
      simp [statusWord, selectedNet]
      rfl
    · simpa [h] using fun a b hab => latched_read _ _ (snapshotHighs_nodup s t off) hab
  · intro s t off live e hl he
    refine congrArg Host.Outcome.next ?_
    simp only [hl, readHigh, he]
  · intro s t off live hl he
    refine ⟨_, rfl, ?_⟩
    simp only [hl, readHigh, he]
    have hpage := pageOf_onPage t (fun g => { g with torn := true, readData := BitVec.ofNat 32 live }) s
    exact ⟨congrArg PageSide.readData hpage, congrArg PageSide.torn hpage, rfl, rfl, rfl, rfl⟩
  · intro s t v
    exact ⟨rfl, rfl⟩
end Sys2Proof.Machine

namespace Sys2Proof.Machine

/-- A parameter that takes effect at a commit is no counter, no action and no pulse output. -/
theorem paramTable_atCommit_plain : (paramTable.all fun d => d.effect != .atCommit ||
    ((clearTable.find? fun e => e.1 == d.id).isNone && !(decide (Pid.toutMode ≤ d.id) && decide (d.id < Pid.toutMode + 8)) &&
      (actionTable.find? fun e => e.1 == d.id).isNone)) = true := by decide +kernel

/-- A write of a parameter that takes effect at a commit goes to PENDING (R14, R91). -/
theorem writeParam_atCommit {id : Nat} (h : effectOf id = .atCommit) (idx : Nat) (v : Int) (s : State) :
    writeParam id idx v s = stageValue id idx v s := by
  unfold effectOf at h
  cases hrow : paramRow id with
  | none => simp [hrow] at h
  | some d =>
    have heff : d.effect = .atCommit := by simpa [hrow] using h
    have hid : d.id = canonId id := by simpa using List.find?_some hrow
    have hplain := List.all_eq_true.1 paramTable_atCommit_plain d (List.mem_of_find?_eq_some hrow)
    simp only [heff, hid, bne_self_eq_false, Bool.false_or, Bool.and_eq_true, Bool.not_eq_true', Option.isNone_iff_eq_none] at hplain
    obtain ⟨⟨hclear, htout⟩, haction⟩ := hplain
    have htout' : ¬(Pid.toutMode ≤ canonId id ∧ canonId id < Pid.toutMode + 8) := by simpa using htout
    have heff' : effectOf id = .atCommit := by simp [effectOf, hrow, heff]
    simp only [writeParam, hclear, haction, if_neg htout', heff']

/-- An item that may be staged takes effect at a commit. -/
theorem effectOf_of_staging {s : State} {force : Bool} {id idx raw : Nat} (h : itemStatus s true force id idx raw = 0) : effectOf id = .atCommit := by
  unfold itemStatus at h
  split at h
  · simp at h
  next d hd =>
    obtain ⟨hrow, -⟩ := Option.filter_eq_some_iff.1 hd
    by_contra hne
    have : (d.effect != .atCommit) = true := by simpa [effectOf, hrow] using hne
    simp only [this] at h
    split at h <;> simp at h

/-- Items that are staged change the banks alone (R91). -/
theorem applyItems_staging {force : Bool} {n : Nat} {items : List (Nat × Nat × Nat)} {s u : State} (h : applyItems true force n items s = .ok u) :
    u = { s with banks := u.banks } := by
  induction items generalizing n s with
  | nil => cases h; rfl
  | cons x xs ih =>
    obtain ⟨id, idx, raw⟩ := x
    unfold applyItems at h
    dsimp only at h
    split at h
    · cases h
    next hst =>
      rw [writeParam_atCommit (effectOf_of_staging (not_not.1 hst))] at h
      exact (ih h).trans rfl

/-- The journal plays no part in what an item may be. -/
theorem itemStatus_journal (s : State) (j : Journal) (staging force : Bool) (id idx raw : Nat) :
    itemStatus { s with journal := j } staging force id idx raw = itemStatus s staging force id idx raw := rfl

/-- Nor in staging. -/
theorem applyItems_journal (force : Bool) (n : Nat) (items : List (Nat × Nat × Nat)) (s : State) (j : Journal) :
    applyItems true force n items { s with journal := j } = (applyItems true force n items s).map fun t => { t with journal := j } := by
  induction items generalizing n s with
  | nil => rfl
  | cons x xs ih =>
    obtain ⟨id, idx, raw⟩ := x
    unfold applyItems
    simp only [itemStatus_journal]
    by_cases hst : itemStatus s true force id idx raw = 0
    · simp only [hst, ne_eq, not_true, if_false, writeParam_atCommit (effectOf_of_staging hst)]
      exact ih (n + 1) (stageValue id idx _ s)
    · simp only [hst, ne_eq, not_false_eq_true, if_true]
      rfl
end Sys2Proof.Machine

namespace Sys2Proof.Machine


/-- The end of an entry keeps the newest identifier. -/
@[simp] theorem journalEnd_newest (n : Nat) (j : JState) (st d : Nat) (s : State) : (journalEnd n j st d s).journal.newest = s.journal.newest := by
  unfold journalEnd
  (repeat' split) <;> simp

@[simp] theorem journalSteps_newest (n k : Nat) (s : State) : (journalSteps n k s).journal.newest = s.journal.newest := by
  rw [journalSteps, journalEnd_newest]
  exact forEach_keep (·.journal.newest) _ (fun _ _ => by simp) _ _

/-- STAGE of items that all pass. -/
theorem stage_ok {r : Request} {s u : State} (hf : field r.payload 2 1 = 0) (h : applyItems true false 0 (requestItems r.payload) s = .ok u) :
    stage r s = answerWork r (nextJournal s) (requestItems r.payload).length 0
      (journalSteps (nextJournal s) (requestItems r.payload).length { u with journal := (journalOpen r (requestItems r.payload).length s).journal }) := by
  have hj := applyItems_journal false 0 (requestItems r.payload) s (journalOpen r (requestItems r.payload).length s).journal
  rw [h] at hj
  have h0 : hasBit 0 0 = false := rfl
  simp only [stage, hf, h0, h, withJournal]
  rw [show journalOpen r (requestItems r.payload).length s = { s with journal := (journalOpen r (requestItems r.payload).length s).journal } from rfl]
  simp [hj, h, Except.map]
  rfl

/-- COMMIT of a bank that passes and fits starts the programming of its record (R92). -/
theorem commitSteps_ok {r : Request} {b : Bank} {n : Nat} {s : State} (hv : validate b s.serif.library = none)
    (h1 : (admitPlan b s.serif.library (planLimits s b) false).fits = true)
    (h2 : (admitPlan b s.serif.library (planLimits s b) true).fits = true) :
    ∃ j e, (j.kind = 0 ∧ j.bank = b ∧ j.journal = n ∧ j.request = r) ∧
      commitSteps r b n s = onBanks (fun x => { x with job := some j }) (journalStep n (journalStep n (onJournal n e s))) := by
  have hlim (e : JournalEntry → JournalEntry) : planLimits (journalStep n (onJournal n e s)) b = planLimits s b := rfl
  refine ⟨?_, ?_, ⟨?_, ?_, ?_, ?_⟩, ?_⟩
  rotate_right
  · simp only [commitSteps, onJournal_serif, journalStep_serif, hv, hlim, h1, h2]
    rfl
  all_goals rfl

/-- REVERT to a bank that fits starts the programming of its record (R95). -/
theorem revertSteps_ok {kind : Nat} {r : Request} {b : Bank} {n : Nat} {s : State}
    (h : kind = 1 → (admitPlan b s.serif.library (planLimits s b) false).fits = true ∧
      (admitPlan b s.serif.library (planLimits s b) true).fits = true) :
    ∃ j e, (j.kind = kind ∧ j.bank = b ∧ j.journal = n) ∧
      revertSteps kind r b n s = onBanks (fun x => { x with job := some j }) (journalStep n (onJournal n e s)) := by
  have hlim (e : JournalEntry → JournalEntry) : planLimits (onJournal n e s) b = planLimits s b := rfl
  refine ⟨?_, ?_, ⟨?_, ?_, ?_⟩, ?_⟩
  rotate_right
  · simp only [revertSteps, onJournal_serif, hlim]
    rw [if_neg]
    by_cases hk : kind = 1
    · simp [h hk]
    · simp [hk]
  all_goals rfl

theorem switchTime_eq (old new : Bank) (s : State) :
    switchTime old new s = s.ticks + msTicks (if allPorts.any fun p => portOn new p && !portOn old p then 3 else 1) := rfl

/-- Settles O14: STAGE and its refusals by the items they apply, COMMIT and REVERT by the record whose programming they start, the switch by the
bank that was programmed. -/
theorem banksChange : Obligations.BanksChange := by
  unfold Obligations.BanksChange
  refine ⟨?_, ?_, ?_, ?_, ?_, ?_, ?_, ?_, ?_⟩
  · intro s r u hr hf hu
    refine ⟨_, congrArg Host.Outcome.next (runCommand_of_mayExecute hr _), ?_⟩
    have hframe := applyItems_staging hu
    rw [stage_ok hf hu]
    have hmode : u.mode = s.mode := by rw [hframe]; rfl
    simp [hmode, journalOpen_newest]
    rfl
  · intro s r i st hr hf hu
    refine congrArg Host.Outcome.next ((runCommand_of_mayExecute hr _).trans ?_)
    have h0 : hasBit 0 0 = false := rfl
    simp [stage, hf, h0, hu]
  · intro s r b hr hm ht hf hb hv h1 h2
    have hlib : (journalOpen r 5 (restorePorts (dequeue r s))).serif.library = s.serif.library := by
      rw [journalOpen_serif, restorePorts_serif]
      rfl
    have hlim (u : State) : planLimits (journalOpen r 5 u) b = planLimits u b := rfl
    obtain ⟨j, e, ⟨hk, hjb, hjn, hjr⟩, h⟩ := commitSteps_ok (r := r) (b := b) (n := nextJournal (restorePorts (dequeue r s)))
      (s := journalOpen r 5 (restorePorts (dequeue r s))) (by rw [hlib]; exact hv) (by rw [hlib, hlim]; exact h1) (by rw [hlib, hlim]; exact h2)
    have hm' : commitMode (dequeue r s) = true := hm
    have hcommit : commit r (dequeue r s) = commitSteps r b (nextJournal (restorePorts (dequeue r s))) (journalOpen r 5 (restorePorts (dequeue r s))) := by
      simp only [commit, hm', hf, bne_self_eq_false, Bool.false_and]
      simp [ht, hb, withJournal, journalOpen_newest]
    refine ⟨_, j, congrArg Host.Outcome.next ((runCommand_of_mayExecute hr _).trans (hcommit.trans h)), rfl, hk, hjb, hjn, hjr⟩
  · intro s j hj hk hw hm
    refine ⟨_, rfl, ?_⟩
    simp [commitRecordProgrammed, hj, hk, hw, commitDone, activate, acquiring, hm]
    rw [switchTime_eq]
    exact Nat.add_le_add (by simp) (by split <;> simp [msTicks])
  · intro s p w hw ht hl hg
    refine ⟨_, rfl, ?_⟩
    have hgo : ¬(decide (s.ticks < w.tsw) || ((portOf s p).gridRunning && (portOf s p).nextSlot != 0)) = true := by
      rcases hg with hg | hg <;> simp [hg, ht]
    have hbit : w.portsLeft.getLsbD p = true := by simp [hl]
    have hleft : w.portsLeft &&& ~~~(1#4 <<< p.val) = 0 := by rw [hl, BitVec.and_not_self]
    have hbanks : (switchPort p s).banks = { s.banks with switch := none } := by
      simp only [switchPort, hw, hbit, hleft]
      simp
    simp only [commitSwitch, hw, if_neg hgo]
    simp [hbanks]
  · intro s r hr he ht hc
    refine ⟨_, congrArg Host.Outcome.next (runCommand_of_mayExecute hr _), ?_⟩
    have hc' : confirmExpired (dequeue r s) r.arrived = false := hc
    simp [confirm, he, hc', ht, withJournal]
  · intro s r b hr hm he hb h1 h2
    obtain ⟨j, e, ⟨hk, hjb, hjn⟩, h⟩ := revertSteps_ok (kind := 1) (r := r) (b := b) (n := nextJournal s)
      (s := journalOpen r 3 (dequeue r s)) fun _ => ⟨h1, h2⟩
    have hm' : commitMode (dequeue r s) = true := hm
    have hrevert : revert r (dequeue r s) = revertSteps 1 r b (nextJournal s) (journalOpen r 3 (dequeue r s)) := by
      simp [revert, hm', he, hb, withJournal, journalOpen_newest]
      rfl
    exact ⟨_, j, congrArg Host.Outcome.next ((runCommand_of_mayExecute hr _).trans (hrevert.trans h)), rfl, hk, hjb, rfl, rfl⟩
  · intro s r hr h0 h1
    have hbody : ∃ body, bankDiff r (dequeue r s) = answer r 0 0 body (dequeue r s) := by
      simp only [bankDiff, h0, h1]
      exact ⟨_, rfl⟩
    obtain ⟨body, h⟩ := hbody
    exact ⟨_, body, congrArg Host.Outcome.next ((runCommand_of_mayExecute hr _).trans h), rfl,
      plantUntouched_trans (dequeue_untouched r s) (answer_untouched _ _ _ _ _)⟩
  · intro s r hr
    refine ⟨_, congrArg Host.Outcome.next (runCommand_of_mayExecute hr _), rfl, ?_⟩
    simp [discardPending]
end Sys2Proof.Machine

namespace Sys2Proof.Machine

/-- A view of the ports that an update of one of them keeps. -/
theorem portView_onPort {β : Type} {g : PortState → β} {f : PortState → PortState} (hf : ∀ x, g (f x) = g x) (p q : Nat) (s : State) :
    g (portOf (onPort p f s) q) = g (portOf s q) := by
  by_cases h : q = p
  · subst h
    by_cases hq : q < 4
    · rw [show portOf (onPort q f s) q = f (portOf s q) from portOf_onPort ⟨q, hq⟩ f s, hf]
    · simp [portOf, vecRead, hq]
  · rw [portOf_onPort_other _ _ h]

/-- What the emission chain's settling keeps of a port: all but its shots and its pulse. -/
theorem portView_settle {β : Type} {g : PortState → β}
    (hg : ∀ x shots lost slot0 lead trg, g { x with shots := shots, lostSeen := lost, awaitSlot0 := slot0, leadCut := lead, ramTrg := trg } = g x)
    (q : Nat) (o s : State) : g (portOf (settle o s) q) = g (portOf s q) := by
  have hmark (p r : Nat) (s : State) : g (portOf (markLost p r s) q) = g (portOf s q) := by
    rw [markLost, bump_keep (fun s => g (portOf s q)) (by intros; rfl)]
    exact portView_onPort (fun x => hg x (x.shots.map fun t => if t.round = r then { t with lost := true, window := false } else t) true
      x.awaitSlot0 x.leadCut x.ramTrg) p q s
  have hpulse (p : Nat) (s : State) : g (portOf (cutPulse p s) q) = g (portOf s q) := by
    have hun (p : Nat) (s : State) : g (portOf (ramanUnlaunch p s) q) = g (portOf s q) := rfl
    have hport (s : State) : g (portOf (onPort p (fun x => { x with ramTrg := none }) s) q) = g (portOf s q) :=
      portView_onPort (fun x => hg x x.shots x.lostSeen x.awaitSlot0 x.leadCut none) p q s
    unfold cutPulse
    split
    · dsimp only
      split
      · rw [hun, hport]
      · rw [hport]
    · rfl
  have hcut (p : Nat) (s : State) : g (portOf (cutPort (inLead o) p s) q) = g (portOf s q) := by
    unfold cutPort
    dsimp only
    have hlead (s : State) : g (portOf (onPort p (fun x => { x with awaitSlot0 := true, leadCut := x.leadCut || inLead o p }) s) q) = g (portOf s q) :=
      portView_onPort (g := g) (fun x => hg x x.shots x.lostSeen true (x.leadCut || inLead o p) x.ramTrg) p q s
    have hshot (r : Nat) (s : State) : g (portOf (onPort p (fun x => { x with
        shots := x.shots.map fun u => if u.round = r then { u with cut := true } else u }) s) q) = g (portOf s q) :=
      portView_onPort (g := g) (fun x => hg x (x.shots.map fun u => if u.round = r then { u with cut := true } else u) x.lostSeen
        x.awaitSlot0 x.leadCut x.ramTrg) p q s
    rw [hpulse, hlead]
    exact forEach_keep (fun s => g (portOf s q)) _ (fun t s => by simp only [hmark, hshot]) _ _
  exact (forEach_keep (fun s => g (portOf s q)) _ hcut _ _).trans rfl

end Sys2Proof.Machine

namespace Sys2Proof.Machine

/-- Lane 0 holds a repetition of no times, its first loop counter at 5. -/
def repeatsNever : State :=
  { State.reset with serif := { State.reset.serif with lanes := [(0, { rep := some 0, c := #v[5, 0, 0, 0] })] } }

/-- LOOPP then leaves its counter. -/
theorem repeatsNever_loopp : (match exec (.loopp 0 0) repeatsNever with
    | .next t => (laneOf t 0).c.get 0
    | _ => 0) = 5#16 := by decide

/-- Refutes O44: a lane whose `rep` is `some 0` applies LOOPP no times, so its counter is not loaded. -/
theorem not_serifRepeats : ¬ Obligations.SerifRepeats := by
  unfold Obligations.SerifRepeats
  rintro ⟨-, -, hcontrol, -⟩
  obtain ⟨-, ⟨t, ht, hlane, -⟩, -⟩ := hcontrol repeatsNever 0 0 0 0 (by decide)
  have hloaded : (laneOf t 0).c.get 0 = 0#16 := by
    refine (congrArg (fun y : Lane => y.c.get 0) hlane).trans ?_
    decide
  have hkept := repeatsNever_loopp
  rw [ht] at hkept
  exact absurd (hkept.symm.trans hloaded) (by decide)
end Sys2Proof.Machine

namespace Sys2Proof.Machine

/-- DBNZ whose counter ends falls through. -/
theorem laneDbnz_ends {x : Lane} {c : Fin 4} {off : BitVec 16} (h : x.c.get c = 1) :
    laneDbnz x c off = { x with c := x.c.set c 0, pc := x.pc + 1, cycles := x.cycles + 1 } := by
  simp [laneDbnz, h]

/-- DBNZ whose counter goes on branches. -/
theorem laneDbnz_branches {x : Lane} {c : Fin 4} {off : BitVec 16} (h : x.c.get c ≠ 1) :
    laneDbnz x c off = { x with c := x.c.set c (x.c.get c - 1), pc := ((x.pc : Int) + off.toInt).toNat, cycles := x.cycles + 2 } := by
  have hne : x.c.get c - 1 ≠ 0 := fun h0 => h (by bv_omega)
  exact if_neg hne

/-! ## The end of a piece -/

/-- What the flags of a piece report leaves of the lanes, their results and the plant (R259). -/
theorem pieceFlags_keep {β : Type} (ob : State → β)
    (hob : ∀ (s : State) status sat acc params evq log links pg tr tx, ob { s with
      serif := { s.serif with status := status, satRate := sat, accessRate := acc }, params := params, evq := evq, log := log, links := links,
      scribe := { s.scribe with page := pg, transports := tr }, pair := { s.pair with tx := tx } } = ob s) (l : Nat) (s : State) :
    ob (pieceFlags l s) = ob s := by
  have hbump (i j : Nat) (s : State) : ob (bump i j s) = ob s :=
    bump_keep ob (fun s v => hob s s.serif.status s.serif.satRate s.serif.accessRate v s.evq s.log s.links s.scribe.page s.scribe.transports s.pair.tx) i j s
  have hpost (c : Nat) (a b d : Int) (s : State) : ob (post c a b d s) = ob s :=
    post_keep ob (fun s params pg tr evq log links tx => hob s s.serif.status s.serif.satRate s.serif.accessRate params evq log links pg tr tx) c a b d s
  have hserif (s : State) (status : BitVec 6) : ob { s with serif := { s.serif with status := status } } = ob s :=
    hob s status s.serif.satRate s.serif.accessRate s.params s.evq s.log s.links s.scribe.page s.scribe.transports s.pair.tx
  have hsat (s : State) (r) : ob { s with serif := { s.serif with satRate := r } } = ob s :=
    hob s s.serif.status r s.serif.accessRate s.params s.evq s.log s.links s.scribe.page s.scribe.transports s.pair.tx
  have hacc (s : State) (r) : ob { s with serif := { s.serif with accessRate := r } } = ob s :=
    hob s s.serif.status s.serif.satRate r s.params s.evq s.log s.links s.scribe.page s.scribe.transports s.pair.tx
  unfold pieceFlags
  extract_lets x zone sat aov acc s1 s2 s3 sticky c s4 c4 s5 c5
  have h3 : ob s3 = ob s := by
    have h1 : ob s1 = ob s := by unfold s1; split <;> simp only [hbump]
    have h2 : ob s2 = ob s := by unfold s2; split <;> simp only [hbump, h1]
    unfold s3
    split <;> simp only [hbump, h2]
  have h5 : ob s5 = ob s := by
    have h4 : ob s4 = ob s := (hserif s3 _).trans h3
    unfold s5
    split
    · dsimp only
      split
      · rw [hpost]
        exact (hsat s4 _).trans h4
      · exact (hsat s4 _).trans h4
    · exact h4
  split
  · dsimp only
    split
    · rw [hpost]
      exact (hacc s5 _).trans h5
    · exact (hacc s5 _).trans h5
  · exact h5

@[simp] theorem laneOf_pieceFlags (l k : Nat) (s : State) : laneOf (pieceFlags l s) k = laneOf s k :=
  pieceFlags_keep (laneOf · k) (by intros; rfl) l s

/-- The output of a piece that emits what it is expected to stays (R251). -/
theorem pieceOutput_expected {l : Nat} {s : State} {d : Piece} (hp : (laneOf s l).piece = some d) (he : d.emit = true)
    (hlen : (laneOf s l).output.length = d.expected) : pieceOutput l s = s := by
  simp [pieceOutput, hp, he, hlen]

/-- A piece that emits adds its result. -/
theorem pieceResult_emit {l : Nat} {s : State} {d : Piece} (hp : (laneOf s l).piece = some d) (he : d.emit = true) :
    pieceResult l s = { s with serif := { s.serif with
      results := s.serif.results ++ [⟨d.zone, d.round, d.slice, d.firstPoint, (laneOf s l).output, (laneOf s l).features⟩] } } := by
  simp [pieceResult, hp, he]

/-- What a piece leaves of its zone's history touches the zones alone. -/
theorem pieceKeep_keep {β : Type} (ob : State → β) (hob : ∀ (s : State) h, ob { s with herder := h } = ob s) (l : Nat) (s : State) :
    ob (pieceKeep l s) = ob s := by
  unfold pieceKeep
  dsimp only
  split
  · split
    · rfl
    · exact inService_keep ob hob _ _ _ (fun s => onZone_keep ob hob _ _ s) s
  · rfl

/-- DBNZ leaves a lane in use: it counts cycles. -/
theorem laneDbnz_ne (x : Lane) (c : Fin 4) (off : BitVec 16) : laneDbnz x c off ≠ {} := fun h => by
  have := congrArg Lane.cycles h
  unfold laneDbnz at this
  dsimp only at this
  split at this <;> simp at this

/-- DBNZ backwards, no REP waiting. -/
theorem execDbnz_runs {s : State} {l : Fin 128} {c : Fin 4} {off : BitVec 16} (hr : (laneOf s l).rep = none) (hoff : off.toInt < 0) :
    exec (.dbnz l c off) s = .next (onLane l (fun x => laneDbnz x c off) s) := by
  simp [exec, execDbnz, hr, hoff]

/-- The lane's change at END. -/
def pieceEnd (x : Lane) : Lane := laneNext { x with rep := none, pc := x.pc + 1, cycles := x.cycles + 1 }

/-- A lane whose piece has ended with none after it. -/
theorem pieceEnd_last {x : Lane} (h : x.next = []) : pieceEnd x = { x with rep := none, pc := x.pc + 1, cycles := x.cycles + 1, piece := none } := by
  simp [pieceEnd, laneNext, h]

/-- A lane that goes on with its next piece. -/
theorem pieceEnd_next {x : Lane} {e : Piece} {rest : List Piece} (h : x.next = e :: rest) :
    (pieceEnd x).piece = some e ∧ (pieceEnd x).next = rest ∧ (pieceEnd x).flags = 0 ∧ (pieceEnd x).input = e.input ∧ (pieceEnd x).pc = 0 := by
  simp [pieceEnd, laneNext, h, laneStart]

/-- The plant but for the Serif and the Herder. -/
def plantOutside (s : State) := plant { s with serif := {}, herder := {} }

theorem plantUntouched_of_outside {s t : State} (h : plantOutside t = plantOutside s) :
    plantUntouched { s with serif := t.serif, herder := t.herder } t := by
  rw [plantUntouched_iff]
  simp only [plantOutside, plant, Prod.mk.injEq] at h ⊢
  simp [h]

/-- A check of the piece's output leaves the other lanes, the lane's queue and the plant. -/
theorem pieceOutput_frame (l : Nat) (s : State) : (∀ k, k ≠ l → laneOf (pieceOutput l s) k = laneOf s k) ∧
    (laneOf (pieceOutput l s) l).next = (laneOf s l).next ∧ plantOutside (pieceOutput l s) = plantOutside s := by
  unfold pieceOutput
  dsimp only
  split
  · exact ⟨fun _ _ => rfl, rfl, rfl⟩
  next d hp =>
    have hne (f : Lane → Lane) (hf : (f (laneOf s l)).piece = (laneOf s l).piece) : f (laneOf s l) ≠ {} := fun h => by
      have := congrArg Lane.piece h
      simp [hf, hp] at this
    split
    · refine ⟨fun k hk => laneOf_onLane_other hk, ?_, rfl⟩
      rw [laneOf_onLane (hne (fun x => { x with output := [], features := [] }) rfl)]
    · split
      · exact ⟨fun _ _ => rfl, rfl, rfl⟩
      · have hrep {β : Type} (ob : State → β) (hob : ∀ (s : State) params pg tr evq log links tx, ob { s with
            params := params, evq := evq, log := log, links := links, scribe := { s.scribe with page := pg, transports := tr },
            pair := { s.pair with tx := tx } } = ob s) (c : Nat) (a b d : Int) (i j : Nat) (s : State) :
            ob (post c a b d (bump i j s)) = ob s := by
          rw [post_keep ob hob, bump_keep ob fun s v => hob s v s.scribe.page s.scribe.transports s.evq s.log s.links s.pair.tx]
        refine ⟨fun k hk => ?_, ?_, ?_⟩
        · rw [hrep (laneOf · k) (by intros; rfl), laneOf_onLane_other hk]
        · rw [hrep (fun s => (laneOf s l).next) (by intros; rfl), laneOf_onLane (hne (fun x => { x with output := slice x.output 0 d.expected }) rfl)]
        · rw [hrep plantOutside (by intros; rfl)]
          rfl

/-- The state in which the lane's piece ends. -/
def pieceDone (l : Nat) (s : State) : State := pieceKeep l (pieceResult l (pieceOutput l (pieceFlags l s)))

theorem pieceResult_keep {β : Type} (ob : State → β) (hob : ∀ (s : State) r, ob { s with serif := { s.serif with results := r } } = ob s) (l : Nat)
    (s : State) : ob (pieceResult l s) = ob s := by
  unfold pieceResult
  dsimp only
  (repeat' split) <;> simp only [hob]

/-- Up to its end a piece leaves the other lanes, its own queue and the plant. -/
theorem pieceDone_frame (l : Nat) (s : State) : (∀ k, k ≠ l → laneOf (pieceDone l s) k = laneOf s k) ∧
    (laneOf (pieceDone l s) l).next = (laneOf s l).next ∧ plantOutside (pieceDone l s) = plantOutside s := by
  obtain ⟨hother, hnext, hplant⟩ := pieceOutput_frame l (pieceFlags l s)
  have hdone {β : Type} (ob : State → β) (hk : ∀ (s : State) h, ob { s with herder := h } = ob s)
      (hr : ∀ (s : State) r, ob { s with serif := { s.serif with results := r } } = ob s) : ob (pieceDone l s) = ob (pieceOutput l (pieceFlags l s)) :=
    (pieceKeep_keep ob hk l _).trans (pieceResult_keep ob hr l _)
  refine ⟨fun k hk => ?_, ?_, ?_⟩
  · rw [hdone (laneOf · k) (by intros; rfl) (by intros; rfl), hother k hk, laneOf_pieceFlags]
  · rw [hdone (fun s => (laneOf s l).next) (by intros; rfl) (by intros; rfl), hnext, laneOf_pieceFlags]
  · rw [hdone plantOutside (by intros; rfl) (by intros; rfl), hplant]
    exact pieceFlags_keep plantOutside (by intros; rfl) l s

/-- Up to its end a piece that emits what is expected keeps its lane and adds its result. -/
theorem pieceDone_emit {l : Nat} {s : State} {d : Piece} (hp : (laneOf s l).piece = some d) (he : d.emit = true)
    (hlen : (laneOf s l).output.length = d.expected) : laneOf (pieceDone l s) l = laneOf s l ∧
    (pieceDone l s).serif.results = s.serif.results ++ [⟨d.zone, d.round, d.slice, d.firstPoint, (laneOf s l).output, (laneOf s l).features⟩] := by
  have hflags : laneOf (pieceFlags l s) l = laneOf s l := laneOf_pieceFlags _ _ _
  have hres : (pieceFlags l s).serif.results = s.serif.results := pieceFlags_keep (·.serif.results) (by intros; rfl) l s
  unfold pieceDone
  rw [pieceOutput_expected (hflags ▸ hp) he (hflags ▸ hlen), pieceResult_emit (hflags ▸ hp) he]
  constructor
  · exact (pieceKeep_keep (laneOf · l) (by intros; rfl) l _).trans hflags
  · refine (pieceKeep_keep (·.serif.results) (by intros; rfl) l _).trans ?_
    simp only [hres, hflags]

/-- END ends the lane's piece and takes the next. -/
theorem execEndInsn_eq (l : Fin 128) (s : State) : exec (.endInsn l) s = .next (onLane l pieceEnd (pieceDone l s)) := rfl

/-- Settles O49: NOP, the counters and DBNZ are one effect of the lane; END hands the piece's output over, which leaves the other lanes, and starts
what waits. -/
theorem serifControl : Obligations.SerifControl := by
  unfold Obligations.SerifControl
  refine ⟨fun s l hr => laneRuns_of_effect hr rfl rfl, fun s l c n hr hn => ?_, fun s l c d hr hp => ?_, fun s l c off hr hoff hc => ?_,
    fun s l c off hr hoff hc => ?_, fun s l d hr hp he hlen hn => ?_, fun s l e rest hr hn => ?_⟩
  · exact laneRuns_of_effect (f := fun x => { x with c := x.c.set c n }) hr (if_neg hn) rfl
  · exact laneRuns_of_effect hr rfl (by simp [hp])
  · have hx := laneDbnz_ends (off := off) hc
    refine ⟨_, execDbnz_runs hr hoff, ?_, fun k hk => laneOf_onLane_other hk, rfl⟩
    rw [laneOf_onLane (laneDbnz_ne _ _ _), hx, hr]
  · have hx := laneDbnz_branches (off := off) hc
    refine ⟨_, execDbnz_runs hr hoff, ?_, fun k hk => laneOf_onLane_other hk, rfl⟩
    rw [laneOf_onLane (laneDbnz_ne _ _ _), hx]
  · obtain ⟨hother, -, hplant⟩ := pieceDone_frame l s
    obtain ⟨hlane, hres⟩ := pieceDone_emit hp he hlen
    have hend := pieceEnd_last hn
    have hne : pieceEnd (laneOf (pieceDone l s) l) ≠ {} := fun h => by
      rw [hlane, hend] at h
      simpa using congrArg Lane.pc h
    have hlast : laneOf (onLane l pieceEnd (pieceDone l s)) l = pieceEnd (laneOf s l) := by rw [laneOf_onLane hne, hlane]
    refine ⟨_, execEndInsn_eq l s, ?_, ?_, ?_, hres, fun k hk => (laneOf_onLane_other hk).trans (hother k hk), plantUntouched_of_outside hplant⟩ <;>
      rw [hlast, hend]
  · obtain ⟨hother, hnext, hplant⟩ := pieceDone_frame l s
    have hstart := pieceEnd_next (hnext.trans hn)
    have hne : pieceEnd (laneOf (pieceDone l s) l) ≠ {} := fun h => by
      simpa [hstart.1] using congrArg Lane.piece h
    have hlane : laneOf (onLane l pieceEnd (pieceDone l s)) l = pieceEnd (laneOf (pieceDone l s) l) := laneOf_onLane hne
    obtain ⟨hp, hrest, hflags, hinput, hpc⟩ := hstart
    exact ⟨_, execEndInsn_eq l s, by rw [hlane, hp], by rw [hlane, hrest], by rw [hlane, hflags], by rw [hlane, hinput], by rw [hlane, hpc],
      fun k hk => (laneOf_onLane_other hk).trans (hother k hk), plantUntouched_of_outside hplant⟩
end Sys2Proof.Machine

namespace Sys2Proof.Machine

/-- Saturation at the nearer limit of `w` bits (R253). -/
theorem sat_eq (w : Nat) (v : Int) :
    sat w v = if v < -2 ^ (w - 1) then -2 ^ (w - 1) else if 2 ^ (w - 1) ≤ v then 2 ^ (w - 1) - 1 else v := by
  unfold sat
  split_ifs <;> omega

/-- A value overflows where it lies outside its limits. -/
theorem overflows_eq {w : Nat} (hw : 0 < w) (v : Int) : overflows w v = decide (v < -2 ^ (w - 1) ∨ 2 ^ (w - 1) ≤ v) := by
  have hpos : (0 : Int) < 2 ^ (w - 1) := by positivity
  rw [overflows, sat_eq]
  by_cases h1 : v < -2 ^ (w - 1)
  · have : (-2 ^ (w - 1) : Int) ≠ v := by omega
    simp [h1, this]
  · by_cases h2 : 2 ^ (w - 1) ≤ v
    · have : (2 ^ (w - 1) - 1 : Int) ≠ v := by omega
      simp [h1, h2, this]
    · simp [h1, h2]

/-- The AOV bit of accumulator `j`. -/
theorem aovBit (j : Fin 4) : 1#9 <<< (flagAov + j.val) = 0x008#9 <<< j.val := by
  fin_cases j <;> rfl

/-- An accumulator that is not frozen takes the value, at its limits with the AOV bit (R253). -/
theorem laneAcc_open {x : Lane} {j : Fin 4} (h : x.flags.getLsbD (3 + j.val) = false) (v : Int) : laneAcc x j v = { x with
    m := x.m.set j (BitVec.ofInt 56 (if v < -2 ^ 55 then -2 ^ 55 else if 2 ^ 55 ≤ v then 2 ^ 55 - 1 else v)),
    flags := if v < -2 ^ 55 ∨ 2 ^ 55 ≤ v then x.flags ||| (0x008#9 <<< j.val) else x.flags } := by
  have hopen : x.flags.getLsbD (flagAov + j.val) = false := h
  rw [laneAcc, hopen, sat_eq, overflows_eq (by decide), laneSticky]
  by_cases ho : v < -2 ^ 55 ∨ 2 ^ 55 ≤ v
  · rw [decide_eq_true ho, if_pos rfl, if_pos ho, laneFlag, aovBit]
    rfl
  · rw [decide_eq_false ho, if_neg ho]
    rfl

/-- A frozen accumulator holds (R253). -/
theorem laneAcc_frozen {x : Lane} {j : Fin 4} (h : x.flags.getLsbD (3 + j.val) = true) (v : Int) : laneAcc x j v = x := if_pos h

/-- Within its limits an open accumulator takes the sum exactly. -/
theorem laneAcc_exact {x : Lane} {j : Fin 4} {v : Int} (h : x.flags.getLsbD (3 + j.val) = false) (hlo : -2 ^ 55 ≤ v) (hhi : v < 2 ^ 55) :
    laneAcc x j v = { x with m := x.m.set j (BitVec.ofInt 56 v) } := by
  rw [laneAcc_open h, if_neg (not_lt.2 hlo), if_neg (not_le.2 hhi), if_neg (by omega)]

/-- CLR and LDA set the accumulator and clear its AOV bit. -/
theorem laneAccSet_eq (x : Lane) (j : Fin 4) (v : Int) :
    laneAccSet x j v = { x with m := x.m.set j (BitVec.ofInt 56 v), flags := x.flags &&& ~~~(0x008#9 <<< j.val) } := by
  simp [laneAccSet, laneFlag, aovBit]

theorem get_set_other {α : Type} {n : Nat} {i j : Fin n} (h : j ≠ i) (v : Vector α n) (x : α) : (v.set i x).get j = v.get j := by
  have : i.val ≠ j.val := fun e => h (Fin.ext e.symm)
  simp [Vector.get_eq_getElem, this]

/-- The value a load of `n` bytes takes from the pointer `q`. -/
def laneBytes (x : Lane) (q : BitVec 14) (n : Nat) : Nat := leNat ((laneAddrs q n).map (Store.read (fun _ => 0) x.mem))

/-- A load whose bytes are readable takes them and post-modifies its pointer (R260). -/
theorem laneLd_open {x : Lane} {d : Fin 16} {p o : Fin 8} {n : Nat} {sx : Bool} (h : (laneAddrs (x.p.get p) n).all (laneReadable x) = true) :
    laneLd x d p o n sx = { x with
      x := x.x.set d (BitVec.ofInt 24 (if sx then signed (8 * n) (laneBytes x (x.p.get p) n) else laneBytes x (x.p.get p) n)),
      p := x.p.set p (x.p.get p + x.o.get o) } := by
  simp only [laneLd, laneLoad, h, if_true]
  cases sx <;> rfl

/-- A load outside the readable windows reads 0 and sets ACCESS. -/
theorem laneLd_closed {x : Lane} {d : Fin 16} {p o : Fin 8} {n : Nat} {sx : Bool} (h : (laneAddrs (x.p.get p) n).all (laneReadable x) = false) :
    laneLd x d p o n sx = { x with
      x := x.x.set d 0, p := x.p.set p (x.p.get p + x.o.get o), flags := x.flags ||| 0x100#9 } := by
  simp only [laneLd, laneLoad, h]
  have hs : signed (8 * n) 0 = 0 := by simp [signed]
  cases sx <;> simp [hs] <;> rfl

/-- A value put into a register stops at the 24-bit limits with the SAT flag. -/
theorem lanePutSat_eq (x : Lane) (d : Fin 16) (v : Int) : lanePutSat x d v = { x with
    x := x.x.set d (BitVec.ofInt 24 (if v < -8388608 then -8388608 else if 8388607 < v then 8388607 else v)),
    flags := if v < -8388608 ∨ 8388607 < v then x.flags ||| 0x080#9 else x.flags } := by
  rw [lanePutSat, overflows_eq (by decide), sat_eq]
  have hlo : (-2 ^ (24 - 1) : Int) = -8388608 := rfl
  have hhi : (2 ^ (24 - 1) : Int) = 8388608 := rfl
  have htop : (8388608 : Int) ≤ v ↔ 8388607 < v := by omega
  rw [hlo, hhi, laneSticky]
  simp only [htop, decide_eq_true_eq]
  by_cases h : v < -8388608 ∨ 8388607 < v
  · rw [if_pos h, if_pos h]
    rfl
  · rw [if_neg h, if_neg h]
    rfl

theorem laneExt_eq (x : Lane) (d : Fin 16) (j : Fin 4) (sh : Nat) : laneExt x d j sh = lanePutSat x d
    (if x.flags.getLsbD (3 + j.val) then (if (x.m.get j).toInt < 0 then -2 ^ 23 - 1 else 2 ^ 23) else rhu (x.m.get j).toInt sh) := by
  simp only [laneExt, BitVec.msb_eq_toInt, decide_eq_true_eq]
  by_cases h : x.flags.getLsbD (3 + j.val)
  · rw [if_pos h]; exact if_pos h
  · rw [if_neg h]; exact if_neg h

/-- Settles O48: an open accumulator takes the exact sum or stops at the nearer limit, a frozen one keeps its value; every instruction is one effect
of its lane. -/
theorem serifAccumulators : Obligations.SerifAccumulators := by
  unfold Obligations.SerifAccumulators
  refine ⟨fun s l j j2 a b v hr => ⟨fun h => ?_, fun h => ?_⟩, fun s l j a sh hr => ?_, fun s l pr a b a2 b2 hr => ?_,
    fun s l j a b p o p2 o2 hr => ?_, fun s l d j sh hr hs => ?_⟩
  · refine ⟨laneRuns_of_effect hr rfl (laneAcc_open h _), laneRuns_of_effect hr rfl (laneAcc_open h _), laneRuns_of_effect hr rfl (laneAcc_open h _)⟩
  · exact ⟨laneRuns_of_effect hr rfl (laneAcc_frozen h _), laneRuns_of_effect hr rfl (laneAcc_frozen h _), laneRuns_of_effect hr rfl (laneAcc_frozen h _)⟩
  · exact ⟨laneRuns_of_effect hr rfl (laneAccSet_eq _ _ _), laneRuns_of_effect hr rfl (laneAccSet_eq _ _ _)⟩
  · intro x even v w hf hf' hv hv' hw hw'
    have heven : (if pr = 0 then 0 else 2 : Fin 4) = even := by fin_cases pr <;> rfl
    have hother : (x.m.set even (BitVec.ofInt 56 v)).get (even + 1) = x.m.get (even + 1) := get_set_other (by fin_cases pr <;> decide) _ _
    have hbit : x.flags.getLsbD (3 + (even + 1).val) = false := by
      rw [show 3 + (even + 1).val = 4 + even.val by fin_cases pr <;> rfl]
      exact hf'
    refine laneRuns_of_effect hr rfl ?_
    rw [laneMac2, heven]
    simp only [laneMac, laneAccAdd]
    simp only [Bool.false_eq_true, if_false, laneInt]
    rw [show laneAcc (laneOf s l) even _ = _ from laneAcc_exact hf hv hv']
    have hsecond : ((x.m.set even (BitVec.ofInt 56 v)).get (even + 1)).toInt + (x.x.get a2).toInt * (x.x.get b2).toInt = w := by
      rw [hother]
    have hval : (even + 1).val = even.val + 1 := by fin_cases pr <;> rfl
    refine (congrArg (laneAcc _ _) hsecond).trans ((laneAcc_exact (x := { x with m := x.m.set even (BitVec.ofInt 56 v) }) hbit hw hw').trans ?_)
    simp only [hval]
  · intro x v load open3 hf hv hv' hp ha h1 h2
    refine laneRuns_of_effect hr rfl ?_
    have hmac : laneMac x j a b false = { x with m := x.m.set j (BitVec.ofInt 56 v) } := laneAcc_exact hf hv hv'
    refine (congrArg (fun y => laneLd (laneLd y a p o 3 true) b p2 o2 3 true) hmac).trans ?_
    have hopen (q : Fin 8) : (laneAddrs (x.p.get q) 3).all (laneReadable x) = open3 q := List.all_map
    have hload (q : Fin 8) : signed (8 * 3) (laneBytes x (x.p.get q) 3) = load q := by simp only [laneBytes, laneAddrs, List.map_map]; rfl
    have hfirst := laneLd_open (x := { x with m := x.m.set j (BitVec.ofInt 56 v) }) (d := a) (o := o) (sx := true) ((hopen p).trans h1)
    refine (congrArg (fun y => laneLd y b p2 o2 3 true) hfirst).trans ?_
    have hkeep : (x.p.set p (x.p.get p + x.o.get o)).get p2 = x.p.get p2 := get_set_other (Ne.symm hp) _ _
    refine (laneLd_open ?_).trans ?_
    · rw [hkeep]
      exact (hopen p2).trans h2
    · simp only [hkeep, if_true]
      rw [← hload p, ← hload p2]
      rfl
  · intro x v
    refine laneRuns_of_effect (f := fun x => laneExt x d j sh.toNat) hr (if_neg (by omega)) ?_
    exact (laneExt_eq _ _ _ _).trans (lanePutSat_eq _ _ _)
end Sys2Proof.Machine

namespace Sys2Proof.Machine

/-- A run under a free value puts the lane where its effect leads, and moves no other. -/
theorem laneMoves_of_free {i : Instr} {l : Fin 128} {s : State} {f : Nat → Lane → Lane} {p : Lane → Prop} (hr : (laneOf s l).rep = none)
    (he : exec i s = .next (onLaneFree l f s))
    (hp : p { (f (Config.freeValue s.free) (laneOf s l)) with rep := none, pc := (laneOf s l).pc + 1, cycles := (laneOf s l).cycles + 1 }) :
    laneMoves i l s p := by
  have hx : laneRetire (f (Config.freeValue s.free)) (laneOf s l) =
      { (f (Config.freeValue s.free) (laneOf s l)) with rep := none, pc := (laneOf s l).pc + 1, cycles := (laneOf s l).cycles + 1 } := by
    rw [laneRetire, hr]
    rfl
  have hne : laneRetire (f (Config.freeValue s.free)) (laneOf s l) ≠ {} := fun h => by
    rw [hx] at h
    simpa using congrArg Lane.pc h
  have hlane : laneOf (onLaneFree l f s) l = laneRetire (f (Config.freeValue s.free)) (laneOf s l) :=
    laneOf_onLane (s := (drawFree s).2) hne
  refine ⟨_, he, ?_, fun k hk => laneOf_onLane_other (s := (drawFree s).2) hk, rfl⟩
  rw [hlane, hx]
  exact hp

/-- The value of a load as R260 words it. -/
theorem ofInt_signed {n v : Nat} {sx : Bool} (hn : n ≠ 0) (hv : v < 2 ^ (8 * n)) :
    (if sx = true then signed (8 * n) v else (v : Int)) = if sx = true ∧ 2 ^ (8 * n - 1) ≤ v then (v : Int) - 2 ^ (8 * n) else v := by
  cases sx
  · simp
  · rw [signed, Nat.mod_eq_of_lt hv]
    by_cases h : v < 2 ^ (8 * n - 1)
    · simp [h, not_le.2 h]
    · simp [h, not_lt.1 h]

theorem leNat_lt (bs : List Byte) : leNat bs < 2 ^ (8 * bs.length) := by
  induction bs with
  | nil => simp [leNat]
  | cons b t ih =>
    have hb := b.isLt
    rw [leNat, List.length_cons, Nat.mul_add, Nat.pow_add]
    omega

/-- The bytes of a store land at their own addresses and nowhere else. -/
theorem read_foldl_write {as : List Nat} {bs : List Byte} (hl : as.length = bs.length) (hnd : as.Nodup) {m : Store Byte}
    (hm : Store.wf (fun _ => 0#8) m = true) : let t := (as.zip bs).foldl (fun m ab => Store.write (fun _ => 0) m ab.1 ab.2) m
    Store.wf (fun _ => 0#8) t = true ∧ ∀ k, Store.read (fun _ => 0#8) t k = if k ∈ as then bs.getD (as.idxOf k) 0 else Store.read (fun _ => 0#8) m k := by
  induction as generalizing bs m with
  | nil => exact ⟨hm, fun k => by simp⟩
  | cons a t ih =>
    cases bs with
    | nil => simp at hl
    | cons b u =>
      obtain ⟨ha, ht⟩ := List.nodup_cons.1 hnd
      obtain ⟨hw, hread⟩ := ih (Nat.succ.inj hl) ht (m := Store.write (fun _ => 0) m a b) (Store.wf_write _ _ _ _ hm)
      refine ⟨hw, fun k => (hread k).trans ?_⟩
      by_cases hk : k = a
      · subst hk
        rw [if_neg ha, if_pos (List.mem_cons_self ..), List.idxOf_cons_self]
        exact Store.read_write_self _ _ _ _ hm
      · rw [show Store.read (fun _ => 0#8) (Store.write (fun _ => 0) m a b) k = _ from Store.read_write_other _ _ _ hk,
          List.idxOf_cons_ne _ (Ne.symm hk)]
        simp [hk]

theorem getD_leBytes {n i : Nat} (v : Nat) (h : i < n) : (leBytes n v).getD i 0 = BitVec.ofNat 8 (v / 2 ^ (8 * i)) := by
  induction n generalizing i v with
  | zero => omega
  | succ n ih =>
    cases i with
    | zero => simp [leBytes]
    | succ i =>
      rw [leBytes, List.getD_cons_succ, ih _ (by omega), Nat.div_div_eq_div_mul, show 8 * (i + 1) = 8 + 8 * i by omega, Nat.pow_add]

/-- Fewer than 16384 addresses from a pointer are different. -/
theorem laneAddrs_nodup {p : BitVec 14} {n : Nat} (h : n ≤ 16384) : (laneAddrs p n).Nodup := by
  refine List.Nodup.map_on (fun i hi j hj hij => ?_) List.nodup_range
  rw [List.mem_range] at hi hj
  omega

/-- A store inside the piece's windows. -/
theorem laneSt_open {x : Lane} {a : Fin 16} {p o : Fin 8} {n : Nat} (h : (laneAddrs (x.p.get p) n).all (laneWritable x) = true) :
    laneSt x a p o n = { x with
      p := x.p.set p (x.p.get p + x.o.get o),
      mem := ((laneAddrs (x.p.get p) n).zip (leBytes n (x.x.get a).toNat)).foldl (fun m ab => Store.write (fun _ => 0) m ab.1 ab.2) x.mem } := by
  simp only [laneSt, laneStore, length_leBytes]
  rw [if_pos h]
  rfl

/-- A store outside them writes nothing and sets ACCESS. -/
theorem laneSt_closed {x : Lane} {a : Fin 16} {p o : Fin 8} {n : Nat} (h : (laneAddrs (x.p.get p) n).all (laneWritable x) = false) :
    laneSt x a p o n = { x with p := x.p.set p (x.p.get p + x.o.get o), flags := x.flags ||| 0x100#9 } := by
  simp only [laneSt, laneStore, length_leBytes]
  rw [if_neg (by simp [h])]
  rfl

/-- The byte of a register that a store puts at its offset. -/
theorem ofNat_shift (v : BitVec 24) (i : Nat) : BitVec.ofNat 8 (v.toNat / 2 ^ i) = (v >>> i).setWidth 8 := by
  apply BitVec.eq_of_toNat_eq
  simp [Nat.shiftRight_eq_div_pow]

/-- The two registers that take an input or point word: its high 24 bits, and its low byte over its second and third. -/
theorem lanePutWord_eq (x : Lane) (d : Fin 16) (w : BitVec 48) : lanePutWord x d w = { x with
    x := (x.x.set d ((w >>> 24).setWidth 24)).set (d + 1 : Fin 16) (w.setWidth 8 ++ (w >>> 8).setWidth 16) } := by
  have hhigh : w.extractLsb' 24 24 = (w >>> 24).setWidth 24 := rfl
  have hlow : ((w.extractLsb' 0 8).setWidth 24 <<< 16) ||| (w.extractLsb' 8 16).setWidth 24 = w.setWidth 8 ++ (w >>> 8).setWidth 16 := by
    ext i hi
    rw [BitVec.getElem_append]
    by_cases h : i < 16
    · simp [h]
    · simp [h]
      omega
  rw [lanePutWord, hhigh, hlow]
  rfl

theorem lanePutWord_zero (x : Lane) (d : Fin 16) : lanePutWord x d 0 = { x with x := (x.x.set d 0).set (d + 1 : Fin 16) 0 } := by
  rw [lanePutWord_eq, show ((0 : BitVec 48) >>> 24).setWidth 24 = 0 by decide,
    show (0 : BitVec 48).setWidth 8 ++ ((0 : BitVec 48) >>> 8).setWidth 16 = 0 by decide]

/-- The six bytes of a point word, low byte first. -/
theorem word_of_bytes (b0 b1 b2 b3 b4 b5 : Byte) (w : BitVec 48) (hw : w = BitVec.ofNat 48 (leNat [b0, b1, b2, b3, b4, b5])) :
    (w >>> 24).setWidth 24 = BitVec.ofNat 24 (leNat [b3, b4, b5]) ∧ w.setWidth 8 ++ (w >>> 8).setWidth 16 = b0 ++ b2 ++ b1 := by
  have h0 := b0.isLt
  have h1 := b1.isLt
  have h2 := b2.isLt
  have h3 := b3.isLt
  have h4 := b4.isLt
  have h5 := b5.isLt
  have hv : w.toNat = b0.toNat + 256 * (b1.toNat + 256 * (b2.toNat + 256 * (b3.toNat + 256 * (b4.toNat + 256 * b5.toNat)))) := by
    rw [hw, BitVec.toNat_ofNat]
    simp only [leNat]
    omega
  have hlow : w.setWidth 8 = b0 := by
    apply BitVec.eq_of_toNat_eq
    rw [BitVec.toNat_setWidth]
    omega
  have hmid : (w >>> 8).setWidth 16 = b2 ++ b1 := by
    apply BitVec.eq_of_toNat_eq
    rw [BitVec.toNat_setWidth, BitVec.toNat_ushiftRight, BitVec.toNat_append, ← Nat.shiftLeft_add_eq_or_of_lt h1, Nat.shiftLeft_eq,
      Nat.shiftRight_eq_div_pow]
    omega
  refine ⟨?_, ?_⟩
  · apply BitVec.eq_of_toNat_eq
    rw [BitVec.toNat_setWidth, BitVec.toNat_ushiftRight, BitVec.toNat_ofNat, Nat.shiftRight_eq_div_pow]
    simp only [leNat]
    omega
  · rw [hlow, hmid]
    exact (BitVec.append_assoc (x₁ := b0) (x₂ := b2) (x₃ := b1)).symm

/-- The second values put into a pair of registers replace the first. -/
theorem set_pair_twice (x : Vector (BitVec 24) 16) (d : Fin 16) (a b v w : BitVec 24) :
    (((x.set d a).set (d + 1 : Fin 16) b).set d v).set (d + 1 : Fin 16) w = (x.set d v).set (d + 1 : Fin 16) w := by
  refine Vector.ext fun i hi => ?_
  simp only [Vector.getElem_set]
  split_ifs <;> rfl

/-- LDPT puts some word, bumps its pointer and leaves the flags that the load gives. -/
theorem laneLdpt_form (x : Lane) (d : Fin 16) (p o : Fin 8) : ∃ a b f, laneLdpt x d p o = { x with
    x := (x.x.set d a).set (d + 1 : Fin 16) b, p := x.p.set p (x.p.get p + x.o.get o), flags := f } := by
  unfold laneLdpt laneSticky
  dsimp only
  rw [lanePutWord_eq]
  split
  · exact ⟨_, _, _, rfl⟩
  · exact ⟨_, _, _, rfl⟩

/-- IN with nothing to come puts 0 and sets ACCESS. -/
theorem laneIn_empty {x : Lane} (d : Fin 16) (h : x.input = []) :
    laneIn x d = { x with x := (x.x.set d 0).set (d + 1 : Fin 16) 0, flags := x.flags ||| 0x100#9 } := by
  rw [laneIn, h]
  dsimp only
  rw [lanePutWord_zero]
  simp [laneFlag, flagAccess, h]

/-- IN takes the word at the head of the input. -/
theorem laneIn_word {x : Lane} (d : Fin 16) {w : BitVec 48} {rest : List (BitVec 48)} (h : x.input = w :: rest) : laneIn x d = { x with
    input := rest, x := (x.x.set d ((w >>> 24).setWidth 24)).set (d + 1 : Fin 16) (w.setWidth 8 ++ (w >>> 8).setWidth 16) } := by
  rw [laneIn, h]
  dsimp only
  rw [lanePutWord_eq]

theorem laneIn_form (x : Lane) (d : Fin 16) : ∃ a b f, laneIn x d = { x with
    x := (x.x.set d a).set (d + 1 : Fin 16) b, input := x.input.tail, flags := f } := by
  cases h : x.input with
  | nil => exact ⟨0, 0, x.flags ||| 0x100#9, by rw [laneIn_empty d h, List.tail_nil, h]⟩
  | cons w rest => exact ⟨_, _, x.flags, laneIn_word d h⟩

/-- LDPT inside the piece's windows takes the six bytes of its point word. -/
theorem laneLdpt_open {x : Lane} {d : Fin 16} {p o : Fin 8} (h : (laneAddrs (x.p.get p) 6).all (laneReadable x) = true) :
    let bs := (laneAddrs (x.p.get p) 6).map fun a => Store.read (fun _ => 0#8) x.mem a
    laneLdpt x d p o = { x with
      x := (x.x.set d (BitVec.ofNat 24 (leNat (bs.drop 3)))).set (d + 1 : Fin 16) (bs.getD 0 0 ++ bs.getD 2 0 ++ bs.getD 1 0),
      p := x.p.set p (x.p.get p + x.o.get o) } := by
  intro bs
  obtain ⟨hhigh, hlow⟩ := word_of_bytes _ _ _ _ _ _ _ (show BitVec.ofNat 48 (leNat bs) = _ from rfl)
  have hput : lanePutWord x d (BitVec.ofNat 48 (leNat bs)) = { x with
      x := (x.x.set d (BitVec.ofNat 24 (leNat (bs.drop 3)))).set (d + 1 : Fin 16) (bs.getD 0 0 ++ bs.getD 2 0 ++ bs.getD 1 0) } := by
    rw [lanePutWord_eq, hhigh, hlow]
    rfl
  simp only [laneLdpt, laneLoad, h, if_true]
  rw [show lanePutWord x d (BitVec.ofNat 48 (leNat ((laneAddrs (x.p.get p) 6).map (Store.read (fun _ => 0) x.mem)))) = _ from hput]
  rfl

theorem laneLdpt_closed {x : Lane} {d : Fin 16} {p o : Fin 8} (h : (laneAddrs (x.p.get p) 6).all (laneReadable x) = false) :
    laneLdpt x d p o = { x with
      x := (x.x.set d 0).set (d + 1 : Fin 16) 0, p := x.p.set p (x.p.get p + x.o.get o), flags := x.flags ||| 0x100#9 } := by
  simp only [laneLdpt, laneLoad, h, Bool.false_eq_true, if_false]
  rw [show lanePutWord x d 0#48 = _ from lanePutWord_zero x d]
  simp [laneBump, laneSticky, laneFlag, flagAccess]

/-- Settles O47: the loads, stores, input, output and feature instructions over the piece's windows, and the same forms with an operand that
R257 gives no result for. -/
theorem serifMemory : Obligations.SerifMemory := by
  unfold Obligations.SerifMemory
  refine ⟨fun s l d p o size sign hr hz => ?_, fun s l a p o size hr hz => ?_, fun s l d p o hr hd => ?_, fun s l d hr hd => ?_,
    fun s l a b k size mode hr => ?_, fun s l a b d p o k sign hd hr => ?_⟩
  · intro x as v bump
    have hn : size.toNat ≠ 0 := fun h => hz (BitVec.eq_of_toNat_eq h)
    refine ⟨fun h => laneRuns_of_effect (f := fun x => laneLd x d p o size.toNat sign) hr (if_neg hz) ((laneLd_open h).trans ?_),
      fun h => laneRuns_of_effect (f := fun x => laneLd x d p o size.toNat sign) hr (if_neg hz) (laneLd_closed h)⟩
    have hv : laneBytes x (x.p.get p) size.toNat < 2 ^ (8 * size.toNat) := by
      refine (leNat_lt _).trans_eq ?_
      simp [laneAddrs]
    rw [ofInt_signed hn hv]
    rfl
  · intro x as bump
    refine ⟨fun h hm => ?_, fun h => laneRuns_of_effect (f := fun x => laneSt x a p o size.toNat) hr rfl (laneSt_closed h)⟩
    obtain ⟨hw, hread⟩ := read_foldl_write (as := as) (bs := leBytes size.toNat (x.x.get a).toNat) (by simp [as])
      (laneAddrs_nodup (by omega)) hm
    refine ⟨_, laneRuns_of_effect (f := fun x => laneSt x a p o size.toNat) hr rfl (laneSt_open h), hw, fun k => (hread k).trans ?_⟩
    by_cases hk : k ∈ as
    · have hi : as.idxOf k < size.toNat := (List.idxOf_lt_length_iff.2 hk).trans_eq (by simp [as])
      rw [if_pos hk, if_pos hk, getD_leBytes _ hi, ofNat_shift]
    · rw [if_neg hk, if_neg hk]
  · intro x e as bs bump
    exact ⟨fun h => laneRuns_of_effect (f := fun x => laneLdpt x d p o) hr (if_neg (by omega)) (laneLdpt_open h),
      fun h => laneRuns_of_effect (f := fun x => laneLdpt x d p o) hr (if_neg (by omega)) (laneLdpt_closed h)⟩
  · intro x e
    exact ⟨fun w rest h => laneRuns_of_effect (f := fun x => laneIn x d) hr (if_neg (by omega)) (laneIn_word d h),
      fun h => laneRuns_of_effect (f := fun x => laneIn x d) hr (if_neg (by omega)) (laneIn_empty d h)⟩
  · intro x
    exact ⟨laneRuns_of_effect (f := fun x => laneOut x a size.toNat) hr rfl rfl,
      fun hm => laneRuns_of_effect (f := fun x => laneFeat x k a b mode.toNat) hr (if_neg hm) rfl⟩
  · intro x bump
    have hrep : x.rep = none := hr
    refine ⟨laneMoves_of_free (f := fun v x => lanePutWord (laneLdpt x d p o) d (BitVec.ofNat 48 v)) hr (if_pos hd) ?_,
      laneMoves_of_free (f := fun v x => lanePutWord (laneIn x d) d (BitVec.ofNat 48 v)) hr (if_pos hd) ?_,
      laneMoves_of_free (f := fun v x => laneBump (lanePut x d (BitVec.ofNat 24 v)) p o) hr rfl ⟨BitVec.ofNat 24 (Config.freeValue s.free), ?_⟩,
      laneRuns_of_effect (f := fun x => laneSt x a p o 0) hr rfl (laneSt_open rfl),
      laneMoves_of_free (f := fun v x => laneFeat x k a b (v % 3)) hr rfl ⟨Config.freeValue s.free % 3, Nat.mod_lt _ (by decide), ?_⟩⟩
    · obtain ⟨v, w, f, h⟩ := laneLdpt_form x d p o
      exact ⟨_, _, f, by rw [lanePutWord_eq, h, set_pair_twice, hrep]⟩
    · obtain ⟨v, w, f, h⟩ := laneIn_form x d
      exact ⟨_, _, f, by rw [lanePutWord_eq, h, set_pair_twice, hrep]⟩
    · rw [hrep]
      rfl
    · rw [hrep]
      rfl
end Sys2Proof.Machine

namespace Sys2Proof.Machine

/-- Settles O1: the step function takes the head of the queue by definition. -/
theorem frontCommandRuns : Obligations.FrontCommandRuns := fun _ _ _ => rfl

/-- Settles O37: every term of the chain is a conjunct of the output's enable. -/
theorem emissionNeedsTheChain : Obligations.EmissionNeedsTheChain := by
  unfold Obligations.EmissionNeedsTheChain
  intro s p h
  simp only [emitEn, swsel, Bool.and_eq_true, Bool.not_eq_true'] at h
  obtain ⟨⟨⟨⟨⟨⟨⟨⟨hheld, hkey⟩, hloop⟩, hestop⟩, hown⟩, hind⟩, hport⟩, hfire⟩, hlamp⟩ := h
  have hterms := hport
  simp only [portPermit, Bool.and_eq_true, Bool.not_eq_true'] at hterms
  obtain ⟨⟨⟨⟨hapr, hlwg⟩, hoos⟩, -⟩, -⟩ := hterms
  exact ⟨⟨hkey, hloop, hestop, hown, hind, hport, hfire, hlamp⟩, hheld, hapr, hlwg, hoos⟩

/-- Settles O59: the reset state is closed, so each clause is a computation. -/
theorem resetState : Obligations.ResetState := by
  unfold Obligations.ResetState
  refine ⟨rfl, rfl, rfl, rfl, rfl, rfl, rfl, rfl, rfl, ?_, ?_, ?_, ?_, ?_, rfl, ?_⟩
  · exact emissionOff_of_own rfl
  · decide +kernel
  · decide +kernel
  · decide +kernel
  · exact fun _ => rfl
  · exact .inr rfl

end Sys2Proof.Machine

namespace Sys2Proof.Machine

/-- What was put under a key is the first entry of that key. -/
theorem find_put {α : Type} (l : Store α) (k : Nat) (v : α) : (Store.put l k v).find? (fun x => x.1 == k) = some (k, v) := by
  induction l with
  | nil => simp [Store.put]
  | cons x xs ih =>
    obtain ⟨j, w⟩ := x
    rw [Store.put]
    split_ifs with hlt heq
    · simp
    · simp
    · rw [List.find?_cons_of_neg (by simpa using heq), ih]

/-- The entry that an event posts (R138). -/
def postEntry (code : Nat) (a b c : Int) (s : State) : EventEntry :=
  ⟨code, (s.evq.seq + 1).toNat, severity code, nowNet s, BitVec.ofInt 32 a, BitVec.ofInt 32 b, BitVec.ofInt 32 c⟩

/-- The state whose event sequence the post has taken. -/
def seqTaken (s : State) : State := { s with evq := { s.evq with seq := s.evq.seq + 1 } }

/-- The queue after an event is the queue after the entry is written to it. -/
theorem post_evq (code : Nat) (a b c : Int) (s : State) :
    (post code a b c s).evq = (evqWrite (postEntry code a b c s) (seqTaken s)).evq := by
  refine (forEach_keep (·.evq) _ (fun t s => eventSend_evq _ t s) _ _).trans ?_
  rw [logPost_evq]
  rfl

/-- The log after an event is the log after the entry is posted to it. -/
theorem post_log (code : Nat) (a b c : Int) (s : State) : (post code a b c s).log =
    (logPost { number := 0, entry := postEntry code a b c s } (evqWrite (postEntry code a b c s) (seqTaken s))).log :=
  forEach_keep (·.log) _ (fun t s => eventSend_log _ t s) _ _

theorem post_page (code : Nat) (a b c : Int) (s : State) (t : Nat) : pageOf (post code a b c s) t =
    pageOf (evqWrite (postEntry code a b c s) (seqTaken s)) t := by
  refine (forEach_keep (pageOf · t) _ (fun u s => by simp [pageOf]) _ _).trans ?_
  simp only [pageOf, logPost_scribe]
  rfl

theorem evqWrite_full {e : EventEntry} {s : State} (h : (s.evq.head + 1) % 128 = s.evq.tail) :
    evqWrite e s = bump Pid.hostEvqLost 0 { s with evq := { s.evq with dropped := s.evq.dropped + 1 } } := if_pos h

theorem evqWrite_room {e : EventEntry} {s : State} (h : (s.evq.head + 1) % 128 ≠ s.evq.tail) : evqWrite e s =
    irqBoth 1 { s with evq := { s.evq with slots := Store.put s.evq.slots s.evq.head e, head := (s.evq.head + 1) % 128 } } := if_neg h

/-- An entry of severity 3 is programmed whatever the budget (R544). -/
theorem logBudgeted_severe {e : LogEntry} {s : State} (h : e.entry.severity = 3) : logBudgeted e s = logWrite e s := if_pos h

/-- A programmed entry is the newest of the log. -/
theorem logWrite_newest (e : LogEntry) (s : State) : (logWrite e s).log.entries.head?.map (·.entry) = some e.entry := by
  have hheld (n : Nat) : logHeld n = (logHeld n - 1) + 1 := by
    unfold logHeld
    omega
  unfold logWrite
  dsimp only
  split <;> rw [hheld] <;> rfl

/-- Programming leaves what waits as it is. -/
theorem logBudgeted_waiting (e : LogEntry) (s : State) : (logBudgeted e s).log.waiting = s.log.waiting := by
  have hw (e : LogEntry) (s : State) : (logWrite e s).log.waiting = s.log.waiting := by
    unfold logWrite
    dsimp only
    (repeat' split) <;> rfl
  unfold logBudgeted
  dsimp only
  (repeat' split) <;> simp [hw]

/-- A flush leaves nothing waiting, and the newest entry is the last that waited, where that one is severe. -/
theorem logFlush_last {s : State} {es : List LogEntry} {e : LogEntry} (hw : s.log.waiting = es ++ [e]) (he : e.entry.severity = 3) :
    (logFlush s).log.waiting = [] ∧ (logFlush s).log.entries.head?.map (·.entry) = some e.entry := by
  have hwaiting : (logAccrue s).log.waiting = es ++ [e] := hw
  refine ⟨?_, ?_⟩
  · exact forEach_keep (·.log.waiting) _ (fun e s => logBudgeted_waiting e s) _ _
  · rw [logFlush, hwaiting, forEach, List.foldl_append]
    exact (congrArg (fun s : State => s.log.entries.head?.map (·.entry)) (logBudgeted_severe he)).trans (logWrite_newest e _)

/-- Settles O58: the queue and the log that a post leaves are those of its entry alone, written to each. -/
theorem eventsArePosted : Obligations.EventsArePosted := by
  unfold Obligations.EventsArePosted
  refine ⟨fun s code a b c hroom => ⟨postEntry code a b c s, ?_⟩, fun s code a b c hfull => ?_, fun s code a b c h => ?_, fun s code a b c hsev hrun => ?_,
    fun s code a b c => post_untouched code a b c s⟩
  · rw [post_evq, post_page, evqWrite_room (s := seqTaken s) hroom]
    refine ⟨?_, rfl, rfl, rfl, rfl, rfl, rfl, rfl, ?_, ?_, ?_, ?_⟩
    · simp [find_put, seqTaken]
    · simp [seqTaken]
    · simp [seqTaken]
    · simp [seqTaken]
    · rw [irqBoth, show pageOf (irqSet 1 1 _) 1 = _ from pageOf_irqSet 1 1 _]
      simp
  · rw [post_evq, evqWrite_full (s := seqTaken s) hfull]
    simp [seqTaken]
  · refine ⟨{ number := 0, entry := postEntry code a b c s }, ?_, rfl, rfl⟩
    rw [post_log, logPost, if_neg (by simpa [postEntry, seqTaken, imp_iff_not_or] using h)]
    simp [seqTaken]
  · obtain ⟨hwait, hhead⟩ := logFlush_last (s := { evqWrite (postEntry code a b c s) (seqTaken s) with
      log := { (evqWrite (postEntry code a b c s) (seqTaken s)).log with
        waiting := (evqWrite (postEntry code a b c s) (seqTaken s)).log.waiting ++ [{ number := 0, entry := postEntry code a b c s }] } }) rfl hsev
    rw [post_log, logPost, if_pos (by simp [postEntry, seqTaken, hsev, hrun])]
    refine ⟨hwait, ?_⟩
    have := congrArg (Option.map EventEntry.code) hhead
    rwa [Option.map_map] at this
end Sys2Proof.Machine

namespace Sys2Proof.Machine

/-- The bits of a point word (R197): quality, amplitude, phase. -/
theorem pointWord_bit (u : BitVec 24) (amp : BitVec 16) (q : BitVec 8) (i : Nat) : (pointWord u amp q).getLsbD i =
    if i < 8 then q.getLsbD i else if i - 8 < 16 then amp.getLsbD (i - 8) else u.getLsbD (i - 8 - 16) := by
  refine (BitVec.getLsbD_append (x := u ++ amp) (y := q)).trans ?_
  simp only [BitVec.getLsbD_append]

theorem pointWord_phase (u : BitVec 24) (amp : BitVec 16) (q : BitVec 8) : (pointWord u amp q >>> 24).setWidth 24 = u := by
  ext i hi
  have h1 : ¬ 24 + i < 8 := by omega
  have h2 : ¬ 24 + i - 8 < 16 := by omega
  have h3 : 24 + i - 8 - 16 = i := by omega
  simp [pointWord_bit, h1, h2, h3, hi]

theorem pointWord_amp (u : BitVec 24) (amp : BitVec 16) (q : BitVec 8) : (pointWord u amp q >>> 8).setWidth 16 = amp := by
  ext i hi
  simp [pointWord_bit, hi]

theorem pointWord_quality (u : BitVec 24) (amp : BitVec 16) (q : BitVec 8) {i : Nat} (h : i < 8) : (pointWord u amp q).getLsbD i = q.getLsbD i :=
  (pointWord_bit u amp q i).trans (if_pos h)

/-- The flags of a quality byte (R197). -/
theorem qualityByte_flags : ∀ discont held lost blot ovr fade step init : Bool,
    (qualityByte discont held lost blot ovr fade step init).getLsbD 7 = discont ∧
    (qualityByte discont held lost blot ovr fade step init).getLsbD 6 = held ∧
    (qualityByte discont held lost blot ovr fade step init).getLsbD 5 = lost ∧
    (qualityByte discont held lost blot ovr fade step init).getLsbD 0 = init := by decide

theorem setWidth_ofInt (d : Int) : (BitVec.ofInt 32 d).setWidth 16 = BitVec.ofInt 16 d := by
  apply BitVec.eq_of_toNat_eq
  simp only [BitVec.toNat_setWidth, BitVec.toNat_ofInt]
  omega

/-- The point of a tracked phase (R195): the nearest turn to the phase before. -/
theorem unwrapPoint_tracked {u : UnwrapIn} {pr e : TraceEntry} (hh : u.hold = false) (hr : e.refValid = true) :
    let d : Int := (u.phase - (e.ref >>> 16).setWidth 16 - pr.unw.setWidth 16).toInt
    unwrapPoint u pr e = {
      entry := { e with
        unw := pr.unw + BitVec.ofInt 32 d,
        ref := if 1 < u.slots then e.ref + BitVec.ofInt 32 (rhu (d * 65536) u.trackShift) else e.ref,
        ampAvg := if u.fade then e.ampAvg else e.ampAvg + BitVec.ofInt 16 (rhu ((u.amp.toNat : Int) - e.ampAvg.toNat) 8),
        pend := false, holdRun := 0 },
      word := pointWord ((pr.unw + BitVec.ofInt 32 d).setWidth 24) u.amp
        (qualityByte (pr.pend || u.gap) false u.lost u.blot u.ovr u.fade u.gainStep false) } := by
  simp [unwrapPoint, hh, hr]

/-- The point of a round that holds, or whose cell has no reference yet. -/
theorem unwrapPoint_held {u : UnwrapIn} {pr e : TraceEntry} (hh : u.hold = true) : unwrapPoint u pr e = {
    entry := { e with unw := pr.unw, pend := true, holdRun := if pr.holdRun = 0xFFFF#16 then 0xFFFF#16 else pr.holdRun + 1 },
    word := pointWord (pr.unw.setWidth 24) u.amp (qualityByte false true u.lost u.blot u.ovr u.fade u.gainStep false) } := by
  by_cases h : pr.holdRun = 0xFFFF#16 <;> simp [unwrapPoint, hh, h]

theorem unwrapPoint_first {u : UnwrapIn} {pr e : TraceEntry} (hh : u.hold = false) (hr : e.refValid = false) : unwrapPoint u pr e = {
    entry := { e with
      ref := ((u.phase - pr.unw.setWidth 16).setWidth 32) <<< 16, refValid := true, ampAvg := u.amp, unw := pr.unw, pend := true,
      holdRun := if pr.holdRun = 0xFFFF#16 then 0xFFFF#16 else pr.holdRun + 1 },
    word := pointWord (pr.unw.setWidth 24) u.amp (qualityByte false true u.lost u.blot u.ovr u.fade u.gainStep true) } := by
  by_cases h : pr.holdRun = 0xFFFF#16 <;> simp [unwrapPoint, hh, hr, h]

/-- Settles O41: one equation for each of the tracked, the held and the first point, read at the fields of its word. -/
theorem unwrapTracksPhase : Obligations.UnwrapTracksPhase := by
  unfold Obligations.UnwrapTracksPhase
  refine ⟨fun u pr e hh hr => ?_, fun u pr e hh => ?_, fun u pr e hh hr => ?_⟩
  · rw [unwrapPoint_tracked hh hr]
    obtain ⟨h7, h6, -, -⟩ := qualityByte_flags (pr.pend || u.gap) false u.lost u.blot u.ovr u.fade u.gainStep false
    refine ⟨(u.phase - (e.ref >>> 16).setWidth 16 - pr.unw.setWidth 16).toInt, BitVec.le_toInt _, BitVec.toInt_lt, rfl, ?_,
      pointWord_phase _ _ _, pointWord_amp _ _ _, (pointWord_quality _ _ _ (by decide)).trans h6, (pointWord_quality _ _ _ (by decide)).trans h7,
      rfl, rfl, fun h => if_neg (by omega)⟩
    rw [BitVec.setWidth_add _ _ (by decide), setWidth_ofInt, BitVec.ofInt_toInt]
    bv_omega
  · rw [unwrapPoint_held hh]
    obtain ⟨-, h6, -, h0⟩ := qualityByte_flags false true u.lost u.blot u.ovr u.fade u.gainStep false
    exact ⟨rfl, pointWord_phase _ _ _, (pointWord_quality _ _ _ (by decide)).trans h6, (pointWord_quality _ _ _ (by decide)).trans h0⟩
  · rw [unwrapPoint_first hh hr]
    obtain ⟨-, h6, -, h0⟩ := qualityByte_flags false true u.lost u.blot u.ovr u.fade u.gainStep true
    refine ⟨?_, rfl, rfl, rfl, rfl, (pointWord_quality _ _ _ (by decide)).trans h6, (pointWord_quality _ _ _ (by decide)).trans h0⟩
    ext i hi
    have h32 : 16 + i < 32 := by omega
    simp [hi, h32]
end Sys2Proof.Machine

namespace Sys2Proof.Machine

/-- A port is read from the ports alone. -/
theorem portOf_congr {s t : State} (h : t.ports = s.ports) (q : Nat) : portOf t q = portOf s q := congrArg (fun v : Vector PortState 4 => vecRead v q ({} : PortState)) h

/-- What the saturation count of a point leaves of a port that it was true of before. -/
theorem portView_strokeSat {β : Type} {g : PortState → β} (hg : ∀ x seen rate, g { x with satSeen := seen, satRate := rate } = g x)
    (p n q : Nat) (s : State) : g (portOf (strokeSat p n s) q) = g (portOf s q) := by
  have hport (r) (s : State) : g (portOf (onPort p (fun x => { x with satSeen := true, satRate := r }) s) q) = g (portOf s q) :=
    portView_onPort (fun x => hg x true r) p q s
  unfold strokeSat
  split
  · rfl
  · dsimp only
    split
    · rw [portOf_congr (post_ports ..), hport, portOf_congr (bumpBy_ports ..)]
    · rw [hport, portOf_congr (bumpBy_ports ..)]

/-- The port that a point is stored in. -/
def pointStored (pt : RawPoint) (t : Shot) (o : UnwrapOut) (ticks : Nat) (x : PortState) : PortState :=
  pointStats ticks (o.word.setWidth 8) { (traceWrite x t.run t.slot pt.index o.entry) with
    words := Store.put x.words (wordKey pt.round (pt.index * t.run.slots)) o.word }

theorem portOf_strokeEmit (pt : RawPoint) (t : Shot) (o : UnwrapOut) (s : State) (q : Nat) :
    portOf (strokeEmit pt t o s) q = portOf (onPort pt.port (pointStored pt t o s.ticks) s) q := by
  unfold strokeEmit
  dsimp only
  split
  · rw [portOf_congr (bump_ports ..)]
    rfl
  · rfl

theorem pointStored_fields (pt : RawPoint) (t : Shot) (o : UnwrapOut) (now : Nat) (x : PortState) :
    (pointStored pt t o now x).words = Store.put x.words (wordKey pt.round (pt.index * t.run.slots)) o.word ∧
    (pointStored pt t o now x).trace = Store.write (fun _ => {}) x.trace (pt.index * t.run.slots + t.slot) { o.entry with gen := t.run.gen, rgen := t.run.rgen } ∧
    (pointStored pt t o now x).shots = x.shots ∧ (pointStored pt t o now x).secPoints ≤ x.secPoints + 1 := by
  unfold pointStored pointStats rollStats traceWrite
  dsimp only
  split
  · exact ⟨rfl, rfl, rfl, by simp⟩
  · exact ⟨rfl, rfl, rfl, Nat.add_le_add_right (Nat.zero_le _) 1⟩

theorem portOf_strokeSat_other {p q : Nat} (h : q ≠ p) (n : Nat) (s : State) : portOf (strokeSat p n s) q = portOf s q := by
  unfold strokeSat
  split
  · rfl
  · dsimp only
    split
    · rw [portOf_congr (post_ports ..), portOf_onPort_other _ _ h, portOf_congr (bumpBy_ports ..)]
    · rw [portOf_onPort_other _ _ h, portOf_congr (bumpBy_ports ..)]

theorem pointWord_byte (u : BitVec 24) (amp : BitVec 16) (q : BitVec 8) : (pointWord u amp q).setWidth 8 = q := by
  ext i hi
  simp [pointWord_bit, hi]

/-- A lost shot's point goes into the unwrap held, with amplitude 0. -/
theorem strokePoint_lost {u : Shot} (s : State) (pt : RawPoint) (h : u.lost = true) : ∃ v pr e, (strokePoint s pt u).1 = unwrapPoint v pr e ∧
    v.hold = true ∧ v.lost = true ∧ v.amp = 0 :=
  ⟨_, _, _, rfl, by simp [h], h, if_pos h⟩

/-- Settles O40: the stage's one write of the port, read at each of its fields; a lost shot's point is a held one. -/
theorem pointsAreUnwrapped : Obligations.PointsAreUnwrapped := by
  unfold Obligations.PointsAreUnwrapped
  refine ⟨fun s pt u hu hf hi => ⟨_, rfl, ?_⟩, fun s pt u hl => ?_, fun s pt h => ?_⟩
  · have hrun : pointUnwrap pt s = strokeSat pt.port (strokePoint s pt u).2 (strokeEmit pt u (strokePoint s pt u).1 s) := by
      simp [pointUnwrap, hu, hf, hi]
    rw [hrun]
    generalize strokePoint s pt u = r
    have hport (q : Nat) : portOf (strokeEmit pt u r.1 s) q = portOf (onPort pt.port (pointStored pt u r.1 s.ticks) s) q := portOf_strokeEmit pt u r.1 s q
    have hhere : portOf (strokeEmit pt u r.1 s) pt.port = pointStored pt u r.1 s.ticks (portOf s pt.port) := (hport _).trans (portOf_onPort _ _ _)
    obtain ⟨hwords, htrace, hshots, hsec⟩ := pointStored_fields pt u r.1 s.ticks (portOf s pt.port)
    refine ⟨?_, fun hwf => ?_, ?_, ?_, fun q hq => ?_, ?_⟩
    · rw [portView_strokeSat (g := (·.words)) (by intros; rfl), hhere, hwords]
      exact Store.read_put_self _ _ _ _
    · rw [portView_strokeSat (g := fun x => traceRead x u.run.slots u.slot pt.index) (by intros; rfl), hhere]
      rw [traceRead, htrace]
      exact Store.read_write_self _ _ _ _ hwf
    · rw [portView_strokeSat (g := (·.shots)) (by intros; rfl), hhere, hshots]
    · rw [portView_strokeSat (g := (·.secPoints)) (by intros; rfl), hhere]
      exact hsec
    · have hq' : q.val ≠ pt.port.val := fun h => hq (Fin.ext h)
      rw [portOf_strokeSat_other hq', hport, portOf_onPort_other _ _ hq']
    · simp [plantUntouched]
  · obtain ⟨v, pr, e, hv, hhold, hlost, hamp⟩ := strokePoint_lost s pt hl
    obtain ⟨-, h6, h5, -⟩ := qualityByte_flags false true v.lost v.blot v.ovr v.fade v.gainStep false
    rw [hv, unwrapPoint_held hhold]
    refine ⟨?_, ?_, (pointWord_amp _ _ _).trans hamp⟩
    · rw [pointWord_byte]
      exact h5.trans hlost
    · rw [pointWord_byte]
      exact h6
  · exact congrArg Host.Outcome.next (by simp [pointUnwrap, h])
end Sys2Proof.Machine

namespace Sys2Proof.Machine

/-! ## What the emission chain's settling and the modes keep of the terms -/

/-- A view of the safety state that neither the FIRE terms nor relighting the lamps shows in. -/
def TermView {β : Type} (g : Safety → β) : Prop := (∀ x fire, g { x with fire := fire } = g x) ∧ ∀ s, g (relight s).safety = g s.safety

theorem termView_of_plain {β : Type} {g : Safety → β} (h : ∀ x fire leds, g { x with fire := fire, leds := leds } = g x) : TermView g :=
  ⟨fun x fire => h x fire x.leds, fun s => h s.safety s.safety.fire _⟩

theorem settle_term {β : Type} {g : Safety → β} (hg : TermView g) (o s : State) : g (settle o s).safety = g s.safety := by
  unfold settle
  refine (forEach_keep (fun s => g s.safety) _ (fun p s => cutPort_keep (fun s => g s.safety) (by intros; rfl) _ p s) _ _).trans ?_
  exact hg.2 s

theorem switchLast_term {β : Type} {g : Safety → β} (hg : TermView g) (old new : Bank) (s : State) : g (switchLast old new s).safety = g s.safety := by
  unfold switchLast
  refine (hg.1 _ _).trans ?_
  split_ifs <;> simp

theorem switchPort_term {β : Type} {g : Safety → β} (hg : TermView g) (p : Nat) (s : State) : g (switchPort p s).safety = g s.safety := by
  unfold switchPort
  split
  · rfl
  · split
    · rfl
    · dsimp only
      split
      · rw [switchLast_term hg]
        simp
      · simp

theorem finishSwitch_term {β : Type} {g : Safety → β} (hg : TermView g) (s : State) : g (finishSwitch s).safety = g s.safety := by
  unfold finishSwitch
  rw [settle_term hg, forEach_keep (·.safety) _ (fun p s => endServices_safety p s)]
  exact forEach_keep (fun s => g s.safety) _ (fun p s => switchPort_term hg p s) _ _

theorem setMode_term {β : Type} {g : Safety → β} (hg : TermView g) (m : Mode) (n : Nat) (s : State) : g (setMode m n s).safety = g s.safety := by
  rw [setMode_obs (fun s => g s.safety) m n s (by intros; rfl) (settle_term hg) (by simp) (by simp) (by intros; rfl) (by simp) (by simp)]
  refine (hg.1 _ _).trans (congrArg g ?_)
  simp [leashed]

theorem enterInhibit_term {β : Type} {g : Safety → β} (hg : TermView g) (s : State) : g (enterInhibit s).safety = g s.safety := by
  unfold enterInhibit
  dsimp only
  rw [setMode_term hg]
  simp [onMode, finishSwitch_term hg]

/-- INHIBIT is entered. -/
theorem enterInhibit_current (s : State) : (enterInhibit s).mode.current = .inhibit := by
  unfold enterInhibit
  simp

/-- A withdrawn term keeps what neither FIRE, the lamps nor the sticky bits show in. -/
theorem withdrawDevice_term {β : Type} {g : Safety → β} (hg : TermView g) (hs : ∀ x, g { x with sticky := x.sticky ||| 1#9 } = g x) (old : State) (terms : Nat) (s : State) :
    g (withdrawDevice old terms s).safety = g s.safety := by
  have hsettled : g (emissionStopped terms 0xF (settle old (onSafety (fun x => { x with sticky := x.sticky ||| 1#9 }) s))).safety = g s.safety := by
    rw [emissionStopped_safety, settle_term hg]
    exact hs _
  unfold withdrawDevice
  dsimp only
  split_ifs
  · rw [enterInhibit_term hg, hsettled]
  · rw [interruptTransition_safety, hsettled]
  · exact hsettled

/-- The sticky bits that a withdrawal found set stay set. -/
theorem withdrawDevice_sticky (old : State) (terms : Nat) (s : State) (i : Nat) (h : s.safety.sticky.getLsbD i = true) :
    (withdrawDevice old terms s).safety.sticky.getLsbD i = true := by
  have hview : TermView (fun x => x.sticky.getLsbD i) := termView_of_plain fun _ _ _ => rfl
  have hsettled : (emissionStopped terms 0xF (settle old (onSafety (fun x => { x with sticky := x.sticky ||| 1#9 }) s))).safety.sticky.getLsbD i = true := by
    rw [emissionStopped_safety, settle_term hview]
    simp [h]
  unfold withdrawDevice
  dsimp only
  split_ifs
  · rw [enterInhibit_term hview, hsettled]
  · rw [interruptTransition_safety, hsettled]
  · exact hsettled

theorem withdrawDevice_current (old : State) (terms : Nat) (s : State) :
    (withdrawDevice old terms s).mode.current = if firingMode s.mode.current then .inhibit else s.mode.current := by
  unfold withdrawDevice
  dsimp only
  simp only [emissionStopped_mode, settle_mode, onSafety_mode]
  split_ifs
  · exact enterInhibit_current _
  · simp
  · simp

/-- The fall of a device-wide term. -/
structure TermFell (s t : State) (u : State) : Prop where
  term {β : Type} {g : Safety → β} : TermView g → (∀ x, g { x with sticky := x.sticky ||| 1#9 } = g x) → g t.safety = g u.safety
  sticky (i : Nat) : u.safety.sticky.getLsbD i = true → t.safety.sticky.getLsbD i = true
  firing : s.mode.current ∈ [Mode.run, .sentinel, .survey] → t.mode.current = .inhibit
  other : s.mode.current ∉ [Mode.run, .sentinel, .survey] → t.mode.current = s.mode.current
  power : t.power = u.power
  clocks : t.clocks = u.clocks
  memory : t.memory = u.memory
  time : t.time = u.time

theorem deviceTermFalls_fell {old s u : State} (term : Nat) (hm : u.mode.current = s.mode.current) : TermFell s (deviceTermFalls old term u) u := by
  have hfiring : firingMode u.mode.current = true ↔ s.mode.current ∈ [Mode.run, .sentinel, .survey] := by
    rw [hm]
    cases s.mode.current <;> decide
  by_cases hr : scribeRuns u
  · rw [deviceTermFalls, if_pos hr]
    refine ⟨fun hg hs => withdrawDevice_term hg hs _ _ _, withdrawDevice_sticky _ _ _, fun h => ?_, fun h => ?_, by simp, by simp, by simp, by simp⟩
    · rw [withdrawDevice_current, if_pos (hfiring.2 h)]
    · rw [withdrawDevice_current, if_neg (mt hfiring.1 h), hm]
  · rw [deviceTermFalls, if_neg hr]
    refine ⟨fun hg _ => settle_term hg _ _, fun i h => (settle_term (g := fun x => x.sticky.getLsbD i) (termView_of_plain fun _ _ _ => rfl) _ _).trans h, fun h => ?_,
      fun h => by simp [hm], by simp, by simp, by simp, by simp⟩
    refine absurd ?_ hr
    simp only [List.mem_cons, List.not_mem_nil, or_false] at h
    rcases h with h | h | h <;> simp [scribeRuns, hm, h]

/-- Nothing emits without the key, the loop, or under an emergency stop (R498). -/
theorem emissionOff_of_terms {t : State} (h : t.safety.key = false ∨ t.safety.loop = false ∨ t.safety.estop = true) : emissionOff t := by
  intro p
  have hsel : swsel t p = false := by rcases h with h | h | h <;> simp [swsel, h]
  exact ⟨by simp [emitEn, hsel], hsel⟩

theorem settle_emissionOnly {s u : State} (o : State) (h : u = { s with safety := u.safety }) : emissionOnly s (settle o u) := by
  rw [h]
  simp [emissionOnly, plantUntouched]

/-- An emergency stop released (R520). -/
theorem estopRelease_emissionOnly (how : Nat) (s : State) : emissionOnly s (estopRelease how s) := by
  unfold estopRelease
  dsimp only
  split_ifs <;> simp [emissionOnly, plantUntouched]

theorem estopRelease_estop (how : Nat) (s : State) : (estopRelease how s).safety.estop = false := by
  unfold estopRelease
  dsimp only
  split_ifs with h
  · simpa using h
  · rw [post_safety]
    exact settle_term (g := (·.estop)) (termView_of_plain fun _ _ _ => rfl) _ _
  · exact settle_term (g := (·.estop)) (termView_of_plain fun _ _ _ => rfl) _ _

theorem estopRelease_term {β : Type} {g : Safety → β} (hg : TermView g) (he : ∀ x v, g { x with estop := v } = g x) (how : Nat) (s : State) :
    g (estopRelease how s).safety = g s.safety := by
  have hsettled : g (settle s (onSafety (fun x => { x with estop := false }) s)).safety = g s.safety := (settle_term hg _ _).trans (he _ _)
  unfold estopRelease
  dsimp only
  split_ifs
  · rfl
  · rw [post_safety, hsettled]
  · exact hsettled

theorem emissionOnly_trans {s t u : State} (h : emissionOnly s t) (h' : emissionOnly t u) : emissionOnly s u := by
  simp only [emissionOnly, plantUntouched] at h h' ⊢
  simp [h, h']

/-- An emergency stop from a source, before its term is withdrawn. -/
def estopSeen (source : Nat) (s : State) : State :=
  let s1 := irqBoth 4 (onSafety (fun x => { x with
    estop := true, estopCount := if x.estopCount = 0xFF then x.estopCount else x.estopCount + 1, sticky := x.sticky ||| (0x040#9 <<< source) }) s)
  if scribeRuns s then post 0x3402 source s1.safety.estopCount.toNat 0 s1 else s1

theorem estopSeen_facts (source : Nat) (s : State) : (estopSeen source s).safety = { s.safety with
      estop := true, estopCount := if s.safety.estopCount = 0xFF then 0xFF else s.safety.estopCount + 1,
      sticky := s.safety.sticky ||| (0x040#9 <<< source) } ∧
    (estopSeen source s).mode = s.mode ∧ (estopSeen source s).power = s.power ∧ (estopSeen source s).clocks = s.clocks ∧
    (estopSeen source s).memory = s.memory ∧ (estopSeen source s).time = s.time := by
  have hcount : (if s.safety.estopCount = 0xFF#8 then s.safety.estopCount else s.safety.estopCount + 1#8) =
      if s.safety.estopCount = 0xFF#8 then 0xFF#8 else s.safety.estopCount + 1#8 := by
    by_cases h : s.safety.estopCount = 0xFF#8
    · rw [if_pos h, if_pos h, h]
    · rw [if_neg h, if_neg h]
  unfold estopSeen
  dsimp only
  split <;> simp [onSafety, hcount]

/-- Settles O33: a fallen term shows in every output at once; the mode follows it through one withdrawal. -/
theorem deviceTermsFall : Obligations.DeviceTermsFall := by
  unfold Obligations.DeviceTermsFall
  refine ⟨fun s hk => ⟨_, rfl, ?_⟩, fun s hl => ⟨_, rfl, ?_⟩, fun s x he => ⟨_, rfl, ?_⟩, fun s hk hc => ⟨_, rfl, ?_⟩, fun s hk hc => ⟨_, rfl, ?_⟩,
    fun s => ⟨_, rfl, ?_⟩, fun s => ⟨_, rfl, ?_⟩, fun s => rfl⟩
  · obtain ⟨hterm, hsticky, hfire, hother, h1, h2, h3, h4⟩ := deviceTermFalls_fell (old := s) (s := s) (u := onSafety (fun x => { x with
      key := false, keyOffTick := some s.ticks, sticky := x.sticky ||| 0x002#9 }) s) 0 rfl
    have hrun : lkeyOff s = deviceTermFalls s 0 (onSafety (fun x => { x with key := false, keyOffTick := some s.ticks, sticky := x.sticky ||| 0x002#9 }) s) := by
      simp [lkeyOff, hk]
    rw [hrun]
    have hkey := hterm (g := (·.key)) (termView_of_plain fun _ _ _ => rfl) (by intros; rfl)
    exact ⟨hkey, hterm (g := (·.keyOffTick)) (termView_of_plain fun _ _ _ => rfl) (by intros; rfl), emissionOff_of_terms (.inl hkey), hfire, hother,
      hsticky 1 (by simp), h1, h2, h3, h4⟩
  · obtain ⟨hterm, hsticky, hfire, hother, h1, h2, h3, h4⟩ := deviceTermFalls_fell (old := s) (s := s) (u := onSafety (fun x => { x with
      loop := false, loopOffTick := some s.ticks, sticky := x.sticky ||| 0x004#9 }) s) 1 rfl
    have hrun : loopOkLow s = deviceTermFalls s 1 (onSafety (fun x => { x with loop := false, loopOffTick := some s.ticks, sticky := x.sticky ||| 0x004#9 }) s) := by
      simp [loopOkLow, hl]
    rw [hrun]
    have hloop := hterm (g := (·.loop)) (termView_of_plain fun _ _ _ => rfl) (by intros; rfl)
    exact ⟨hloop, emissionOff_of_terms (.inr (.inl hloop)), hfire, hsticky 2 (by simp), hother, h1, h2, h3, h4⟩
  · obtain ⟨hsafe, hmode, h1, h2, h3, h4⟩ := estopSeen_facts x s
    obtain ⟨hterm, hsticky, hfire, hother, g1, g2, g3, g4⟩ := deviceTermFalls_fell (old := s) (s := s) (u := estopSeen x s) 2 (congrArg ModeState.current hmode)
    have hrun : estopStop x s = deviceTermFalls s 2 (estopSeen x s) := by simp [estopStop, estopSeen, he]
    rw [hrun]
    have hestop := (hterm (g := (·.estop)) (termView_of_plain fun _ _ _ => rfl) (by intros; rfl)).trans (congrArg Safety.estop hsafe)
    refine ⟨hestop, emissionOff_of_terms (.inr (.inr hestop)), ?_, hsticky _ ?_, hfire, hother, g1.trans h1, g2.trans h2, g3.trans h3, g4.trans h4⟩
    · exact (hterm (g := (·.estopCount)) (termView_of_plain fun _ _ _ => rfl) (by intros; rfl)).trans (congrArg Safety.estopCount hsafe)
    · rw [hsafe]
      fin_cases x <;> simp
  · have hrun : lkeyOn s = estopRelease 1 (settle s (onSafety (fun x => { x with key := true, lkeyStable := true, keyOffTick := none }) s)) := by
      simp [lkeyOn, hk, hc]
    rw [hrun]
    refine ⟨?_, ?_, estopRelease_estop _ _, emissionOnly_trans (settle_emissionOnly s rfl) (estopRelease_emissionOnly _ _)⟩
    · exact (estopRelease_term (g := (·.key)) (termView_of_plain fun _ _ _ => rfl) (by intros; rfl) _ _).trans (settle_term (g := (·.key)) (termView_of_plain fun _ _ _ => rfl) _ _)
    · exact (estopRelease_term (g := (·.keyOffTick)) (termView_of_plain fun _ _ _ => rfl) (by intros; rfl) _ _).trans
        (settle_term (g := (·.keyOffTick)) (termView_of_plain fun _ _ _ => rfl) _ _)
  · have hrun : lkeyOn s = settle s (onSafety (fun x => { x with key := true, lkeyStable := true, keyOffTick := none }) s) := by
      rcases h : s.safety.keyOffTick.map fun k => decide (k + secTicks 1 ≤ s.ticks) with _ | b
      · simp [lkeyOn, hk, h]
      · have hb : b = false := by
          rw [h] at hc
          simpa using hc
        simp [lkeyOn, hk, h, hb]
    rw [hrun]
    exact ⟨settle_term (g := (·.key)) (termView_of_plain fun _ _ _ => rfl) _ _, settle_term (g := (·.keyOffTick)) (termView_of_plain fun _ _ _ => rfl) _ _,
      settle_term (g := (·.estop)) (termView_of_plain fun _ _ _ => rfl) _ _, settle_emissionOnly s rfl⟩
  · exact ⟨settle_term (g := (·.loop)) (termView_of_plain fun _ _ _ => rfl) _ _, settle_term (g := (·.key)) (termView_of_plain fun _ _ _ => rfl) _ _,
      settle_term (g := (·.estop)) (termView_of_plain fun _ _ _ => rfl) _ _, settle_emissionOnly s rfl⟩
  · exact ⟨estopRelease_estop _ _, estopRelease_term (g := (·.estopCount)) (termView_of_plain fun _ _ _ => rfl) (by intros; rfl) _ _,
      estopRelease_term (g := (·.key)) (termView_of_plain fun _ _ _ => rfl) (by intros; rfl) _ _, estopRelease_emissionOnly _ _⟩
end Sys2Proof.Machine

namespace Sys2Proof.Machine

/-! ## Parameters that the counters of an event or of a cut shot leave alone -/

theorem bumpBy_paramAt {k : Nat} {id idx : Nat} (h : k ≠ paramKey id idx) (n : Nat) (s : State) :
    Store.read paramDefault (bumpBy n id idx s).params k = Store.read paramDefault s.params k := Store.read_write_other _ _ _ h

theorem bump_paramAt {k : Nat} {id idx : Nat} (h : k ≠ paramKey id idx) (s : State) :
    Store.read paramDefault (bump id idx s).params k = Store.read paramDefault s.params k := bumpBy_paramAt h 1 s

theorem logBudgeted_paramAt {k : Nat} (h : k ≠ paramKey Pid.logSuppressed 0) (e : LogEntry) (s : State) :
    Store.read paramDefault (logBudgeted e s).params k = Store.read paramDefault s.params k := by
  have hw (e : LogEntry) (s : State) : (logWrite e s).params = s.params := by
    unfold logWrite
    dsimp only
    split <;> rfl
  unfold logBudgeted
  dsimp only
  split_ifs <;> simp only [hw, bump_paramAt h]

theorem post_paramAt {k : Nat} (hq : k ≠ paramKey Pid.hostEvqLost 0) (hl : k ≠ paramKey Pid.logSuppressed 0) (code : Nat) (a b c : Int) (s : State) :
    Store.read paramDefault (post code a b c s).params k = Store.read paramDefault s.params k := by
  have hwrite (e : EventEntry) (s : State) : Store.read paramDefault (evqWrite e s).params k = Store.read paramDefault s.params k := by
    by_cases h : (s.evq.head + 1) % 128 = s.evq.tail
    · rw [evqWrite_full h, bump_paramAt hq]
    · rw [evqWrite_room h, irqBoth_params]
  have hflush (s : State) : Store.read paramDefault (logFlush s).params k = Store.read paramDefault s.params k :=
    forEach_keep (fun s => Store.read paramDefault s.params k) _ (fun e s => logBudgeted_paramAt hl e s) _ _
  have hlog (e : LogEntry) (s : State) : Store.read paramDefault (logPost e s).params k = Store.read paramDefault s.params k := by
    unfold logPost
    dsimp only
    split
    · rw [hflush]
    · rfl
  exact (forEach_keep (fun s => Store.read paramDefault s.params k) _ (fun t s => by simp only [eventSend_params]) _ _).trans
    ((hlog _ _).trans (hwrite _ _))

theorem settle_paramAt {k : Nat} (h : ∀ p ∈ allPorts, k ≠ paramKey (portId p Pid.portLostShots) 0) (o s : State) :
    Store.read paramDefault (settle o s).params k = Store.read paramDefault s.params k := by
  have hpulse (p : Nat) (s : State) : (cutPulse p s).params = s.params := by
    unfold cutPulse
    split
    · dsimp only
      split <;> rfl
    · rfl
  have hcut (l : Nat → Bool) (p : Nat) (hp : p ∈ allPorts) (s : State) :
      Store.read paramDefault (cutPort l p s).params k = Store.read paramDefault s.params k := by
    unfold cutPort
    dsimp only
    rw [hpulse]
    exact forEach_keep (fun s => Store.read paramDefault s.params k) (fun (t : Shot) s => markLost p t.round (onPort p (fun x => { x with
      shots := x.shots.map fun u => if u.round = t.round then { u with cut := true } else u }) s)) (fun _ _ => (bump_paramAt (h p hp) _).trans rfl) _ _
  have hall (xs : List Nat) (hxs : ∀ p ∈ xs, p ∈ allPorts) (l : Nat → Bool) (s : State) :
      Store.read paramDefault (forEach xs (cutPort l) s).params k = Store.read paramDefault s.params k := by
    induction xs generalizing s with
    | nil => rfl
    | cons p ps ih => exact (ih (fun q hq => hxs q (List.mem_cons_of_mem _ hq)) _).trans (hcut l p (hxs p (List.mem_cons_self ..)) s)
  exact (hall _ (fun p hp => List.mem_of_mem_filter hp) _ _).trans rfl

theorem emissionStopped_paramAt {k : Nat} (hq : k ≠ paramKey Pid.hostEvqLost 0) (hl : k ≠ paramKey Pid.logSuppressed 0)
    (hi : k ≠ paramKey Pid.safetyInhibits 0) (terms ports : Nat) (s : State) :
    Store.read paramDefault (emissionStopped terms ports s).params k = Store.read paramDefault s.params k :=
  (post_paramAt hq hl _ _ _ _ _).trans (bump_paramAt hi s)

/-- A parameter that takes effect at once is read from the parameters in force. -/
theorem paramNat_hostEnable (s : State) : paramNat s Pid.safetyHostEnable 0 = (Store.read paramDefault s.params (paramKey Pid.safetyHostEnable 0)).toNat := by
  have he : effectOf Pid.safetyHostEnable = .atOnce := by decide +kernel
  rw [paramNat, paramGet, he]

/-- What the fall of a port's term keeps. -/
theorem portTermFalls_term {β : Type} {g : Safety → β} (hg : TermView g) (old : State) (term p : Nat) (s : State) :
    g (portTermFalls old term p s).safety = g s.safety := by
  unfold portTermFalls withdrawPort
  split
  · rw [emissionStopped_safety, settle_term hg]
  · exact settle_term hg _ _

theorem portView_portTermFalls {β : Type} {g : PortState → β}
    (hg : ∀ x shots lost slot0 lead trg, g { x with shots := shots, lostSeen := lost, awaitSlot0 := slot0, leadCut := lead, ramTrg := trg } = g x)
    (old : State) (term p q : Nat) (s : State) : g (portOf (portTermFalls old term p s) q) = g (portOf s q) := by
  unfold portTermFalls withdrawPort
  split
  · rw [portOf_congr (emissionStopped_ports ..), portView_settle hg]
  · exact portView_settle hg _ _ _

/-- A port whose plug is open or that saw light without a gate emits nothing. -/
theorem dark_of_latch {t : State} {p : Nat} (h : t.safety.apr.getLsbD p = true ∨ t.safety.lwg.getLsbD p = true) :
    emitEn t p = false ∧ swsel t p = false := by
  have hsel : swsel t p = false := by rcases h with h | h <;> simp [swsel, portPermit, h]
  exact ⟨by simp [emitEn, hsel], hsel⟩

theorem getLsbD_or_portMask (m : BitVec 4) (p : Fin 4) : (m ||| portMask p).getLsbD p = true := by
  fin_cases p <;> simp [portMask]

/-- Light without a gate, before the port's emission is withdrawn. -/
def lightLatched (p : Nat) (s : State) : State :=
  onPort p (fun x => { x with riseTick := some s.ticks, lightSeen := true })
    (onSafety (fun x => { x with lwg := x.lwg ||| portMask p, sticky := x.sticky ||| 0x010#9 }) s)

theorem lightWithoutGate_facts (p : Fin 4) {s : State} (hg : gateOpen s p = false) : let t := lightWithoutGate p s
    t.safety.lwg = s.safety.lwg ||| portMask p ∧ (portOf t p).riseTick = some s.ticks ∧ (portOf t p).lightSeen = true ∧ emissionOnly s t := by
  have hsafe : (lightLatched p s).safety.lwg = s.safety.lwg ||| portMask p := rfl
  have hport : portOf (lightLatched p s) p = { (portOf s p) with riseTick := some s.ticks, lightSeen := true } := portOf_onPort p _ _
  have honly : emissionOnly s (lightLatched p s) := by simp [emissionOnly, plantUntouched, lightLatched]
  have hfall : let t := portTermFalls s 5 p (lightLatched p s)
      t.safety.lwg = s.safety.lwg ||| portMask p ∧ (portOf t p).riseTick = some s.ticks ∧ (portOf t p).lightSeen = true ∧ emissionOnly s t := by
    refine ⟨(portTermFalls_term (g := (·.lwg)) (termView_of_plain fun _ _ _ => rfl) _ _ _ _).trans hsafe, ?_, ?_, emissionOnly_trans honly ?_⟩
    · rw [portView_portTermFalls (g := (·.riseTick)) (by intros; rfl), hport]
    · rw [portView_portTermFalls (g := (·.lightSeen)) (by intros; rfl), hport]
    · simp [emissionOnly, plantUntouched]
  intro t
  have ht : t = if s.safety.lwg.getLsbD p then lightLatched p s
      else if scribeRuns s then post 0x1002 p 0 0 (portTermFalls s 5 p (lightLatched p s))
      else portTermFalls s 5 p (lightLatched p s) := by
    simp only [t, lightWithoutGate, hg, Bool.false_eq_true, if_false]
    rfl
  rw [ht]
  split_ifs
  · exact ⟨hsafe, by rw [hport], by rw [hport], honly⟩
  · obtain ⟨h1, h2, h3, h4⟩ := hfall
    refine ⟨?_, ?_, ?_, emissionOnly_trans h4 ?_⟩
    · rw [post_safety, h1]
    · rw [portOf_congr (post_ports ..), h2]
    · rw [portOf_congr (post_ports ..), h3]
    · simp [emissionOnly, plantUntouched]
  · exact hfall

/-- What is told of an open plug. -/
theorem aprTell_facts (p : Nat) (s : State) : plantUntouched { s with safety := (aprTell p s).safety } (aprTell p s) ∧
    (aprTell p s).safety = { s.safety with aprUntold := if s.safety.aprUntold.getLsbD p then s.safety.aprUntold &&& ~~~portMask p else s.safety.aprUntold } := by
  unfold aprTell
  dsimp only
  split_ifs <;> simp [plantUntouched, onSafety]

theorem and_not_portMask (m : BitVec 4) (p : Fin 4) : (if m.getLsbD p then m &&& ~~~portMask p else m) = m &&& ~~~portMask p := by
  revert m p
  decide

theorem plugRelease_safety (p : Nat) (s : State) : (plugRelease p s).safety =
    if s.safety.apr.getLsbD p && s.safety.plugClosed.getLsbD p then
      { s.safety with apr := s.safety.apr &&& ~~~(1#4 <<< p), aprRestart := s.safety.aprRestart &&& ~~~(1#4 <<< p) }
    else s.safety := by
  unfold plugRelease
  split <;> simp [onSafety]

theorem plugRelease_apr (p : Fin 4) (s : State) : (plugRelease p s).safety.apr =
    if s.safety.plugClosed.getLsbD p then s.safety.apr &&& ~~~(1#4 <<< p.val) else s.safety.apr := by
  have hclear : ∀ (m : BitVec 4) (p : Fin 4), m.getLsbD p = false → m = m &&& ~~~(1#4 <<< p.val) := by decide
  rw [plugRelease_safety]
  by_cases hc : s.safety.plugClosed.getLsbD p
  · by_cases ha : s.safety.apr.getLsbD p
    · simp only [ha, hc, Bool.and_self, if_true]
    · simp only [ha, hc, if_true]
      exact hclear _ _ (by simpa using ha)
  · simp only [hc, Bool.and_false, Bool.false_eq_true, if_false]

theorem plugDebouncedOpen_safety (p : Nat) (s : State) : (plugDebouncedOpen p s).safety = { s.safety with
    plugClosed := s.safety.plugClosed &&& ~~~portMask p,
    aprUntold := if s.safety.aprUntold.getLsbD p then s.safety.aprUntold &&& ~~~portMask p else s.safety.aprUntold } := by
  unfold plugDebouncedOpen
  dsimp only
  rw [(aprTell_facts p _).2]
  split
  · simp only [post_safety]
    rfl
  · rfl

theorem plugDebouncedOpen_untouched (p : Nat) (s : State) : plantUntouched { s with safety := (plugDebouncedOpen p s).safety } (plugDebouncedOpen p s) := by
  unfold plugDebouncedOpen aprTell
  dsimp only
  (repeat' split) <;> simp [plantUntouched]

theorem plugDebouncedClose_safety (p : Nat) (s : State) : (plugDebouncedClose p s).safety = { s.safety with
    plugClosed := s.safety.plugClosed ||| portMask p,
    aprRestart := if paramBool s Pid.safetyAprAutoRestart 0 && s.safety.apr.getLsbD p then s.safety.aprRestart ||| portMask p else s.safety.aprRestart,
    aprUntold := if s.safety.aprUntold.getLsbD p then s.safety.aprUntold &&& ~~~portMask p else s.safety.aprUntold } := by
  unfold plugDebouncedClose
  exact (aprTell_facts p _).2

theorem plugDebouncedClose_untouched (p : Nat) (s : State) : plantUntouched { s with safety := (plugDebouncedClose p s).safety } (plugDebouncedClose p s) := by
  unfold plugDebouncedClose aprTell
  generalize (paramBool s Pid.safetyAprAutoRestart 0 && s.safety.apr.getLsbD p) = auto
  dsimp only
  (repeat' split) <;> simp [plantUntouched]

theorem locatorRelease_term {β : Type} {g : Safety → β} (hg : ∀ x v, g { x with locatorHold := v } = g x) (p : Nat) (s : State) :
    g (locatorRelease p s).safety = g s.safety := by
  unfold locatorRelease
  split
  · exact hg _ _
  · rfl

/-- The ports of a list are released where their plugs are closed. -/
theorem portsReleased_apr (xs : List Nat) (hxs : ∀ q ∈ xs, q < 4) (p : Fin 4) (s : State) :
    (forEach xs (fun p s => locatorRelease p (plugRelease p s)) s).safety.apr.getLsbD p =
      (s.safety.apr.getLsbD p && !(decide (p.val ∈ xs) && s.safety.plugClosed.getLsbD p)) := by
  induction xs generalizing s with
  | nil => simp [forEach]
  | cons q qs ih =>
    obtain ⟨hq, hqs⟩ := List.forall_mem_cons.1 hxs
    have hplug : (locatorRelease q (plugRelease q s)).safety.plugClosed = s.safety.plugClosed := by
      rw [locatorRelease_term (g := (·.plugClosed)) (by intros; rfl), plugRelease_safety]
      split <;> rfl
    have hapr : (locatorRelease q (plugRelease q s)).safety.apr =
        if s.safety.plugClosed.getLsbD q then s.safety.apr &&& ~~~(1#4 <<< q) else s.safety.apr := by
      rw [locatorRelease_term (g := (·.apr)) (by intros; rfl)]
      exact plugRelease_apr ⟨q, hq⟩ s
    refine (ih hqs _).trans ?_
    rw [hplug, hapr]
    have hbit : ∀ (a c : BitVec 4) (q p : Fin 4) (b : Bool),
        ((if c.getLsbD q then a &&& ~~~(1#4 <<< q.val) else a).getLsbD p && !(b && c.getLsbD p)) =
          (a.getLsbD p && !((decide (p = q) || b) && c.getLsbD p)) := by decide +kernel
    rw [hbit s.safety.apr s.safety.plugClosed ⟨q, hq⟩ p]
    have hmem : decide (p.val ∈ q :: qs) = (decide (p = ⟨q, hq⟩) || decide (p.val ∈ qs)) := by
      rw [← Bool.decide_or]
      exact decide_eq_decide.2 (List.mem_cons.trans (or_congr_left (Fin.ext_iff (a := p) (b := ⟨q, hq⟩)).symm))
    rw [hmem]

/-- `safety.host_enable` as the write leaves it. -/
theorem hostEnable_facts {mask : Nat} {s : State} (hwf : s.paramsWf = true) :
    paramNat (hostEnable mask s) Pid.safetyHostEnable 0 = mask ∧ emissionOnly s (hostEnable mask s) := by
  have hread : Store.read paramDefault (paramPut Pid.safetyHostEnable 0 mask s).params (paramKey Pid.safetyHostEnable 0) = (mask : Int) :=
    Store.read_write_self _ _ _ _ hwf
  have hsettled : Store.read paramDefault (settle s (paramPut Pid.safetyHostEnable 0 mask s)).params (paramKey Pid.safetyHostEnable 0) = (mask : Int) :=
    (settle_paramAt (by decide) _ _).trans hread
  unfold hostEnable
  dsimp only
  split
  · rw [paramNat_hostEnable, hsettled]
    exact ⟨Int.toNat_natCast mask, by simp [emissionOnly, plantUntouched]⟩
  · rw [paramNat_hostEnable, emissionStopped_paramAt (by decide) (by decide) (by decide), hsettled]
    exact ⟨Int.toNat_natCast mask, by simp [emissionOnly, plantUntouched]⟩

/-- Settles O34: each term's own bit is a conjunct of its port's output; what follows a fall changes neither it nor the mode. -/
theorem portTermsFall : Obligations.PortTermsFall := by
  unfold Obligations.PortTermsFall
  refine ⟨fun s p => ⟨_, rfl, ?_⟩, fun s p hg => ⟨_, rfl, ?_⟩, fun s p hg => ?_, fun s p => ⟨_, rfl, ?_⟩, fun s p => ⟨_, rfl, ?_⟩,
    fun s p hp => ⟨_, rfl, ?_⟩, fun s mask hm => ⟨_, rfl, ?_⟩, fun s mask hm hwf => ⟨_, rfl, ?_⟩, fun s mask hm => ?_⟩
  · have hapr : (plugOpenLatch p s).safety.apr = s.safety.apr ||| portMask p := settle_term (g := (·.apr)) (termView_of_plain fun _ _ _ => rfl) _ _
    have hdark := dark_of_latch (t := plugOpenLatch p s) (p := p) (.inl (by rw [hapr]; exact getLsbD_or_portMask _ _))
    exact ⟨hapr, hdark.1, hdark.2, settle_emissionOnly s rfl, by simp [plugOpenLatch], by simp [plugOpenLatch]⟩
  · obtain ⟨hlwg, hrise, hlight, honly⟩ := lightWithoutGate_facts p hg
    have hdark := dark_of_latch (t := lightWithoutGate p s) (p := p) (.inr (by rw [hlwg]; exact getLsbD_or_portMask _ _))
    exact ⟨hlwg, hdark.1, hrise, hlight, honly⟩
  · exact congrArg Host.Outcome.next (if_pos hg)
  · have hsafe := plugDebouncedOpen_safety p s
    rw [hsafe]
    refine ⟨rfl, rfl, and_not_portMask _ _, ?_⟩
    rw [← hsafe]
    exact plugDebouncedOpen_untouched p s
  · have hsafe := plugDebouncedClose_safety p s
    refine ⟨by rw [hsafe]; rfl, by rw [hsafe], ?_, plugDebouncedClose_untouched p s⟩
    rw [hsafe]
    simp [portMask]
  · have hrun : (if s.safety.aprRestart.getLsbD p then settle s (plugRelease p s) else s) = settle s (plugRelease p s) := if_pos hp
    rw [hrun]
    refine ⟨(settle_term (g := (·.apr)) (termView_of_plain fun _ _ _ => rfl) _ _).trans (plugRelease_apr p s), ?_⟩
    simp [emissionOnly, plantUntouched]
  · have hrun : (if mask ≤ 15 then portRestart mask s else s) = portRestart mask s := if_pos hm
    rw [hrun]
    refine ⟨by simp [emissionOnly, plantUntouched, portRestart], fun p => ?_⟩
    refine (settle_term (g := fun x => x.apr.getLsbD p) (termView_of_plain fun _ _ _ => rfl) _ _).trans ?_
    have hlt : ∀ q ∈ allPorts, q < 4 := by decide
    have hin : p.val ∈ allPorts := by fin_cases p <;> decide
    rw [portsReleased_apr _ (fun q hq => hlt q (List.mem_of_mem_filter hq)) p s]
    simp [List.mem_filter, hin]
  · have hrun : (if mask ≤ 15 then hostEnable mask s else s) = hostEnable mask s := if_pos hm
    rw [hrun]
    obtain ⟨hmask, honly⟩ := hostEnable_facts (mask := mask) hwf
    refine ⟨hmask, fun p hp => ?_, honly⟩
    have hsel : swsel (hostEnable mask s) p = false := by simp [swsel, portPermit, hmask, hp]
    exact ⟨by simp [emitEn, hsel], hsel⟩
  · exact ⟨congrArg Host.Outcome.next (if_neg (by omega)), congrArg Host.Outcome.next (if_neg (by omega))⟩
end Sys2Proof.Machine

namespace Sys2Proof.Machine

/-! ## Lamp channels -/

/-- A view of one lamp channel that lighting it does not show in. -/
theorem termView_of_led {β : Type} {g : Led → β} (hg : ∀ x lit good stretch, g { x with lit := lit, litGood := good, stretch := stretch } = g x) (j : Fin 16) :
    TermView fun x => g (vecRead x.leds j {}) := by
  refine ⟨fun _ _ => rfl, fun s => ?_⟩
  simp only [relight, onSafety, vecRead, j.isLt, dif_pos]
  refine (congrArg g (Vector.getElem_ofFn _)).trans (hg _ _ _ _)


/-- The channel's fault as the diagnosis declares it, before it is reported and acts. -/
def lampMarked (j kind : Nat) (s : State) : State := onSafety (fun x => { x with
  sticky := x.sticky ||| 0x020#9, leds := vecUpdate x.leds j fun l => { l with fault := BitVec.ofNat 2 kind, faultSeen := true } }) s

theorem tell_safety_same (c : Nat) (a b d : Int) (s : State) : (tell c a b d s).safety = s.safety := by
  unfold tell
  split <;> simp

/-- A lamp fault keeps what no withdrawal shows in. -/
theorem lampFault_term {β : Type} {g : Safety → β} (hg : TermView g) (hs : ∀ x, g { x with sticky := x.sticky ||| 1#9 } = g x)
    (hh : ∀ x v, g { x with locatorHold := v } = g x) (j kind : Nat) (s : State) : g (lampFault j kind s).safety = g (lampMarked j kind s).safety := by
  unfold lampFault
  dsimp only
  have htold : g (tell 0x3406 j kind (lampRole s j) (lampMarked j kind s)).safety = g (lampMarked j kind s).safety := by rw [tell_safety_same]
  split_ifs
  · unfold deviceTermFalls
    split
    · rw [withdrawDevice_term hg hs]
      exact htold
    · rw [settle_term hg]
      exact htold
  · refine (forEach_keep (fun s => g s.safety) _ (fun p s => ?_) _ _).trans htold
    rw [portTermFalls_term hg]
    exact hh _ _
  · exact htold

theorem lampFault_outside (j kind : Nat) (s : State) : (lampFault j kind s).power = s.power ∧ (lampFault j kind s).clocks = s.clocks ∧
    (lampFault j kind s).memory = s.memory ∧ (lampFault j kind s).time = s.time := by
  refine ⟨?_, ?_, ?_, ?_⟩ <;> simp

/-- The channel's record after a diagnosis, before it is acted on. -/
def ledRecorded (kind : Nat) (l : Led) : Led :=
  let passed := if kind = 0 then min 3 (l.passed + 1) else l.passed
  { l with kind := BitVec.ofNat 2 kind, run := if l.kind == BitVec.ofNat 2 kind then l.run + 1 else 1, passed := passed,
           proven := decide (3 ≤ passed), litGood := l.litGood || (l.lit && kind == 0) }

def diagnosisRecorded (j kind : Nat) (s : State) : State :=
  let l := ledRecorded kind (ledOf s j)
  onSafety (fun x => { x with leds := vecUpdate x.leds j fun y => { y with
    kind := l.kind, run := l.run, passed := l.passed, proven := l.proven, litGood := y.litGood || (y.lit && kind == 0) } }) s

theorem ledOf_onLed (j : Fin 16) (f : Led → Led) (s : State) : ledOf (onSafety (fun x => { x with leds := vecUpdate x.leds j f }) s) j = f (ledOf s j) :=
  vecRead_vecUpdate _ _ _ j.isLt

theorem ledOf_diagnosisRecorded (j : Fin 16) (kind : Nat) (s : State) : ledOf (diagnosisRecorded j kind s) j = ledRecorded kind (ledOf s j) :=
  ledOf_onLed j _ s

/-- A diagnosis in a lit phase is recorded, and a third bad one in a row declares its fault, a sixteenth good one clears it (R511). -/
theorem ledDiagnosis_lit {j : Fin 16} {s : State} (kind : Nat) (hl : (ledOf s j).lit = true) (hp : ledPhase s j = true) : ledDiagnosis j kind s =
    if kind ≠ 0 && ((ledOf s j).proven || !lampWatched s j) && 3 ≤ (ledRecorded kind (ledOf s j)).run && (ledOf s j).fault == 0 then
      lampFault j kind (diagnosisRecorded j kind s)
    else if kind = 0 && (ledOf s j).fault != 0 && 16 ≤ (ledRecorded kind (ledOf s j)).run then
      settle s (tell 0x3407 j 0 0 (onSafety (fun x => { x with leds := vecUpdate x.leds j fun l => { l with fault := 0 } }) (diagnosisRecorded j kind s)))
    else settle s (diagnosisRecorded j kind s) := by
  unfold ledDiagnosis
  dsimp only
  rw [hl, hp]
  rfl

/-- What a settled channel shows. -/
theorem ledOf_settle {β : Type} {g : Led → β} (hg : ∀ x lit good stretch, g { x with lit := lit, litGood := good, stretch := stretch } = g x) (j : Fin 16)
    (o s : State) : g (ledOf (settle o s) j) = g (ledOf s j) := settle_term (termView_of_led hg j) o s

/-- A channel that was lit and good stays good while it stays lit. -/
theorem litGood_settle {j : Fin 16} {o s : State} (hl : (ledOf s j).lit = true) (hg : (ledOf s j).litGood = true) :
    (ledOf (settle o s) j).litGood = (ledOf (settle o s) j).lit := by
  have hsettle : (settle o s).safety.leds = (relight s).safety.leds :=
    forEach_keep (·.safety.leds) _ (fun p s => cutPort_keep (·.safety.leds) (by intros; rfl) _ p s) _ _
  have hlight : ledOf (relight s) j = { ledOf s j with lit := lampLit s j, litGood := (ledOf s j).litGood && (ledOf s j).lit && lampLit s j, stretch := lampStretched s j } := by
    simp only [ledOf, relight, onSafety, vecRead, j.isLt, dif_pos]
    exact Vector.getElem_ofFn _
  have hled : ledOf (settle o s) j = ledOf (relight s) j := congrArg (fun v : Vector Led 16 => vecRead v j {}) hsettle
  rw [hled, hlight, hl, hg]
  rfl

/-! ## Colour feedback -/

theorem trimStep_limits (trim target : Nat) (m : Int) : 0x6000 ≤ trimStep trim target m ∧ trimStep trim target m ≤ 0xA000 := by
  unfold trimStep
  dsimp only
  omega

/-- One colour's step writes that colour's trim, within its limits, and no other. -/
theorem colourStep_trim (c : Fin 3) (m : Int) (s : State) : (0x6000 ≤ (colourStep c m s).safety.cfbTrim.get c ∧ (colourStep c m s).safety.cfbTrim.get c ≤ 0xA000) ∧
    ∀ d : Fin 3, d ≠ c → (colourStep c m s).safety.cfbTrim.get d = s.safety.cfbTrim.get d := by
  have htrim : ∃ v, (0x6000 ≤ v ∧ v ≤ 0xA000) ∧ (colourStep c m s).safety.cfbTrim = vecUpdate s.safety.cfbTrim c (fun _ => v) := by
    refine ⟨trimStep (vecRead s.safety.cfbTrim c 0x8000) (if paramNat s Pid.ledCfbTarget c ≠ 0 then paramNat s Pid.ledCfbTarget c
      else if vecRead s.safety.cfbTarget c 0 ≠ 0 then vecRead s.safety.cfbTarget c 0 else m.toNat) m, trimStep_limits _ _ _, ?_⟩
    unfold colourStep
    dsimp only
    split_ifs <;> simp [onSafety] <;> rfl
  obtain ⟨v, hv, h⟩ := htrim
  have hget (d : Fin 3) (v : Vector Nat 3) : v.get d = vecRead v d 0 := by simp [vecRead, Vector.get]
  rw [h]
  refine ⟨?_, fun d hd => ?_⟩
  · rw [hget, vecRead_vecUpdate _ _ _ c.isLt]
    exact hv
  · rw [hget, hget, vecRead_vecUpdate_other _ _ _ fun e => hd (Fin.ext e)]

theorem colourStep_untouched (c : Nat) (m : Int) (s : State) :
    plantUntouched { s with safety := (colourStep c m s).safety, calib := (colourStep c m s).calib } (colourStep c m s) := by
  unfold colourStep
  dsimp only
  split_ifs <;> simp [plantUntouched]

/-- Settles O35: a diagnosis is its record followed by what it declares or clears; feedback's three steps each write one trim within its limits. -/
theorem lampsDiagnosed : Obligations.LampsDiagnosed := by
  unfold Obligations.LampsDiagnosed
  refine ⟨fun s j hl hp hf => ⟨_, rfl, ?_⟩, fun s j hl hp hf hk hr => ⟨_, rfl, ?_⟩, fun s j hl hp hf hv hk hr => ⟨_, rfl, ?_⟩,
    fun s j kind h hs => ?_, fun s dark lit h => ?_, fun s dark lit he hon hlim => ⟨_, rfl, ?_⟩⟩
  · have hrun : ledDiagnosis j 0 s = settle s (diagnosisRecorded j 0 s) := by
      rw [ledDiagnosis_lit 0 hl hp]
      simp [hf]
    rw [show (0 : Fin 3).val = 0 from rfl, hrun]
    have hled := ledOf_diagnosisRecorded j 0 s
    refine ⟨?_, ?_, ?_, ?_, ?_, ?_, settle_emissionOnly s rfl⟩
    · rw [ledOf_settle (g := (·.passed)) (by intros; rfl), hled]
      rfl
    · rw [ledOf_settle (g := (·.proven)) (by intros; rfl), hled]
      simp [ledRecorded]
    · rw [ledOf_settle (g := (·.run)) (by intros; rfl), hled]
      simp [ledRecorded]
    · rw [ledOf_settle (g := (·.kind)) (by intros; rfl), hled]
      rfl
    · rw [ledOf_settle (g := (·.fault)) (by intros; rfl), hled]
      exact hf
    · exact litGood_settle (by rw [hled]; exact hl) (by rw [hled]; simp [ledRecorded, hl])
  · have hrun : ledDiagnosis j 0 s = settle s (tell 0x3407 j 0 0 (onSafety (fun x => { x with
        leds := vecUpdate x.leds j fun l => { l with fault := 0 } }) (diagnosisRecorded j 0 s))) := by
      have hf' : ((ledOf s j).fault != 0) = true := by simpa using hf
      rw [ledDiagnosis_lit 0 hl hp, if_neg (by simp), if_pos (by simpa [ledRecorded, hk, hr] using hf')]
    rw [show (0 : Fin 3).val = 0 from rfl, hrun]
    refine ⟨?_, ?_⟩
    · rw [ledOf_settle (g := (·.fault)) (by intros; rfl)]
      refine (congrArg (fun x : Safety => (vecRead x.leds j {}).fault) (tell_safety_same ..)).trans ?_
      exact congrArg Led.fault (ledOf_onLed j _ _)
    · unfold tell
      split <;> simp [emissionOnly, plantUntouched, diagnosisRecorded]
  · have hrun : ledDiagnosis j 1 s = lampFault j 1 (diagnosisRecorded j 1 s) := by
      rw [ledDiagnosis_lit 1 hl hp]
      simp [hf, hv, ledRecorded, hk, hr]
    rw [show (1 : Fin 3).val = 1 from rfl, hrun]
    have hled : ledOf (lampMarked j 1 (diagnosisRecorded j 1 s)) j = { ledOf (diagnosisRecorded j 1 s) j with fault := 1, faultSeen := true } :=
      ledOf_onLed j _ _
    obtain ⟨h1, h2, h3, h4⟩ := lampFault_outside j 1 (diagnosisRecorded j 1 s)
    refine ⟨?_, ?_, ?_, h1, h2, h3, h4⟩
    · exact (lampFault_term (termView_of_led (g := (·.fault)) (by intros; rfl) j) (by intros; rfl) (by intros; rfl) _ _ _).trans (congrArg Led.fault hled)
    · exact (lampFault_term (termView_of_led (g := (·.faultSeen)) (by intros; rfl) j) (by intros; rfl) (by intros; rfl) _ _ _).trans (congrArg Led.faultSeen hled)
    · refine (lampFault_term (g := fun x => x.sticky.getLsbD 5) (termView_of_plain fun _ _ _ => rfl) (by simp) (by intros; rfl) _ _ _).trans ?_
      simp [lampMarked, onSafety]
  · refine congrArg Host.Outcome.next ?_
    rcases h with h | h <;> simp [ledDiagnosis, h, hs]
  · exact congrArg Host.Outcome.next (by simp [colourFeedback, h])
  · have hrun : colourFeedback dark lit s = forEach [0, 1, 2] (fun c s => colourStep c (vecRead lit c 0 - vecRead dark c 0) s) s := by
      simp only [colourFeedback, he, hon, hlim]
      rfl
    rw [hrun]
    refine ⟨fun c => ?_, ?_⟩
    · obtain ⟨h0, k0⟩ := colourStep_trim 0 (vecRead lit 0 0 - vecRead dark 0 0) s
      obtain ⟨h1, k1⟩ := colourStep_trim 1 (vecRead lit 1 0 - vecRead dark 1 0) (colourStep 0 (vecRead lit 0 0 - vecRead dark 0 0) s)
      obtain ⟨h2, k2⟩ := colourStep_trim 2 (vecRead lit 2 0 - vecRead dark 2 0)
        (colourStep 1 (vecRead lit 1 0 - vecRead dark 1 0) (colourStep 0 (vecRead lit 0 0 - vecRead dark 0 0) s))
      simp only [forEach, List.foldl]
      fin_cases c
      · exact (k2 0 (by decide)).symm ▸ (k1 0 (by decide)).symm ▸ h0
      · exact (k2 1 (by decide)).symm ▸ h1
      · exact h2
    · have h0 := colourStep_untouched 0 (vecRead lit 0 0 - vecRead dark 0 0) s
      have h1 := colourStep_untouched 1 (vecRead lit 1 0 - vecRead dark 1 0) (colourStep 0 (vecRead lit 0 0 - vecRead dark 0 0) s)
      have h2 := colourStep_untouched 2 (vecRead lit 2 0 - vecRead dark 2 0)
        (colourStep 1 (vecRead lit 1 0 - vecRead dark 1 0) (colourStep 0 (vecRead lit 0 0 - vecRead dark 0 0) s))
      simp only [plantUntouched, forEach, List.foldl] at h0 h1 h2 ⊢
      simp [h0, h1, h2]
end Sys2Proof.Machine

namespace Sys2Proof.Machine

/-- Settles O21: each command is read at its accepted branch; what it journals and answers leaves the firmware record alone. -/
theorem firmwareUpdates : Obligations.FirmwareUpdates := by
  unfold Obligations.FirmwareUpdates
  refine ⟨fun s r hr hm hp hu => ⟨_, congrArg Host.Outcome.next (runCommand_of_mayExecute hr _), ?_⟩,
    fun s r u hr hm hu hl => ⟨_, congrArg Host.Outcome.next (runCommand_of_mayExecute hr _), ?_⟩,
    fun s r u hr hm hu hv hs hlo hhi => ⟨_, congrArg Host.Outcome.next (runCommand_of_mayExecute hr _), ?_⟩,
    fun s r hr hm hv => ⟨_, congrArg Host.Outcome.next (runCommand_of_mayExecute hr _), ?_⟩,
    fun s r hr hm => ⟨_, congrArg Host.Outcome.next (runCommand_of_mayExecute hr _), ?_⟩,
    fun s r hr hs => ⟨_, congrArg Host.Outcome.next (runCommand_of_mayExecute hr _), ?_⟩⟩
  · have hm' : fwMode (dequeue r s) = true := hm
    have hp' : ¬ s.memory.usablePages < 384 * 16 := by omega
    simp [fwBegin, hm', hp', hu, fwDrop, withJournal, nextJournal, journalOpen_newest]
  · have hm' : fwMode (dequeue r s) = true := hm
    simp [fwData, hm', hu, not_lt.2 hl]
  · have hm' : fwMode (dequeue r s) = true := hm
    have hv' : (trialSlot u.bytes).verifies = true := hv
    simp [fwEnd, hm', hu, withJournal, hv', not_lt.2 hs, hlo, hhi, fwDrop]
  · have hm' : fwMode (dequeue r s) = true := hm
    have hv' : (slotOf (dequeue r s) (otherSlot s.firmware.running)).verifies = true := hv
    simp [fwActivate, hm', hv', withJournal, recordReset, get_set_same]
  · have hm' : fwMode (dequeue r s) = true := hm
    simp [fwConfirm, hm', withJournal, get_set_same]
  · have hs' : ¬ 1 < field r.payload 0 1 := by omega
    simp [deviceResetCmd, hs', withJournal, recordReset]
end Sys2Proof.Machine

namespace Sys2Proof.Machine

/-- The first byte of an answer's payload: its status, or BAD_LENGTH where the result does not fit. -/
theorem answer_status {s : State} {r : Request} {status detail : Nat} {body : List Byte} (ht : r.transport = 0) (hid : r.session = 0)
    (hn : (transportOf s 0).session = none) (h1 : status ≠ 0x01) :
    (transportOf (answer r status detail body s) 0).waiting.getLast?.map (fun w => w.bytes.getD 16 0) = some (BitVec.ofNat 8 status) ∨
      (transportOf (answer r status detail body s) 0).waiting.getLast?.map (fun w => w.bytes.getD 16 0) = some 0x10 := by
  have hseq : answerSeq r s = (r.version, 0, s) := by simp [answerSeq, ht, hn]
  simp only [answer, h1, if_false, answerWith, hid, ht, hseq, sendAnswer, transportOf_onTransport_lt (show 0 < 4 by decide)]
  by_cases hlen : (leBytes 1 status ++ leBytes 1 0 ++ leBytes 2 detail ++ body).length ≤ requestLimit s r
  · left
    rw [if_neg (by simp [hid]), if_pos hlen, if_pos (by decide)]
    simp only [transportOf_onTransport_lt (show 0 < 4 by decide), List.getLast?_concat, Option.map_some]
    rfl
  · right
    rw [if_neg (by simp [hid]), if_neg hlen, if_pos (by decide)]
    simp only [transportOf_onTransport_lt (show 0 < 4 by decide), List.getLast?_concat, Option.map_some]
    rfl

/-- A request for one parameter at an index that it has not. -/
def noSuchIndex : Request := { transport := 0, opcode := 0x0102, payload := leBytes 2 Pid.powerFeedDebounceMs ++ leBytes 2 9 ++ leBytes 2 1 ++ leBytes 2 0 }

def asksNoSuchIndex : State := { State.reset with scribe := { State.reset.scribe with ready := true, queue := [noSuchIndex] } }

theorem asksNoSuchIndex_refused : paramGetBlock noSuchIndex (dequeue noSuchIndex asksNoSuchIndex) = refuse noSuchIndex 0x20 0 (dequeue noSuchIndex asksNoSuchIndex) := by
  have hitem : (((List.range 1).map (Pid.powerFeedDebounceMs + ·)).filter fun id => decide (id < 65536) && (paramRow id).isSome).findIdx?
      (fun id => (paramItem id 9).isNone) = some 0 := by decide +kernel
  have h0 : field noSuchIndex.payload 0 2 = Pid.powerFeedDebounceMs := by decide
  have h2 : field noSuchIndex.payload 2 2 = 9 := by decide
  have h4 : field noSuchIndex.payload 4 2 = 1 := by decide
  have h6 : field noSuchIndex.payload 6 1 = 0 := by decide
  simp only [paramGetBlock, h0, h2, h4, h6, hitem]
  rfl

/-- That refusal shows its status. -/
theorem asksNoSuchIndex_status : (transportOf (refuse noSuchIndex 0x20 0 (dequeue noSuchIndex asksNoSuchIndex)) 0).waiting.getLast?.map (fun w => w.bytes.getD 16 0) =
    some 0x20 := by decide +kernel

/-- Refutes O19: the index of a block read is free, and one that the block's parameter has not is refused with BAD_PARAM. -/
theorem not_parametersReadAndSet : ¬ Obligations.ParametersReadAndSet := by
  unfold Obligations.ParametersReadAndSet
  rintro ⟨-, hblock, -⟩
  have hmay : mayExecute asksNoSuchIndex 0x0102 noSuchIndex := by
    rw [mayExecute_iff]
    decide +kernel
  obtain ⟨t, items, hrun, -, hanswer, -⟩ := hblock asksNoSuchIndex noSuchIndex hmay (by decide) (by decide) (by decide)
  have ht : t = refuse noSuchIndex 0x20 0 (dequeue noSuchIndex asksNoSuchIndex) :=
    (Host.Outcome.next.inj hrun).symm.trans ((runCommand_of_mayExecute hmay _).trans asksNoSuchIndex_refused)
  have hstatus := asksNoSuchIndex_status
  rw [← ht, hanswer, answerItems] at hstatus
  rcases answer_status (s := dequeue noSuchIndex asksNoSuchIndex) (r := noSuchIndex) (status := 0) (detail := 0)
    (body := leBytes 2 items.length ++ leBytes 2 0 ++ items.flatten) rfl rfl rfl (by decide) with h | h
  · exact absurd (h.symm.trans hstatus) (by decide)
  · exact absurd (h.symm.trans hstatus) (by decide)
end Sys2Proof.Machine

namespace Sys2Proof.Machine

/-- A standby with automatic take that has no bark in hand, but was told of a busy peer at tick 0. -/
def busyWithoutPeer : State := { State.reset with
  mode := { State.reset.mode with current := .mirror }, pair := { State.reset.pair with busyBark := some 0 },
  banks := { State.reset.banks with active := bankWrite (bankWrite State.reset.banks.active Pid.pairEnable 0 1) Pid.pairAutoTake 0 1 } }

theorem busyWithoutPeer_waits : (match exec .vacantTimeout busyWithoutPeer with
    | .next t => t.mode.current
    | _ => .handover) = .mirror := by decide +kernel

/-- Refutes O27: the vacant timeout looks at the time of the last busy bark, which a state without a bark in hand may still hold. -/
theorem not_leashIsTaken : ¬ Obligations.LeashIsTaken := by
  unfold Obligations.LeashIsTaken
  rintro ⟨-, -, -, -, -, -, -, -, -, hvacant, -, -⟩
  obtain ⟨t, ht, hmode, -⟩ := hvacant busyWithoutPeer rfl (by decide +kernel) (by decide +kernel) rfl rfl rfl rfl
  have hwaits := busyWithoutPeer_waits
  rw [ht] at hwaits
  exact absurd (hmode.symm.trans hwaits) (by decide)
end Sys2Proof.Machine

namespace Sys2Proof.Machine

/-- A device in RUN one tick after its release, both feeds good, that goes to SENTINEL when feed A is lost. -/
def feedARuns : State := paramPut Pid.powerFeedALossAction 0 1 { State.reset with
  mode := { State.reset.mode with current := .run }, ticks := 1, power := { State.reset.power with feedGood := Vector.replicate 2 true } }

/-- The command that the loss of feed A queues carries the tick at which it arrived. -/
theorem feedARuns_queues : (feedLost 0 false false feedARuns).scribe.queue.map (·.arrived) = [1] := by decide +kernel

/-- Refutes O6: the action's internal command is queued with the tick of its arrival (`enqueue`), which the statement has as 0. -/
theorem not_feedsLostAndRestored : ¬ Obligations.FeedsLostAndRestored := by
  unfold Obligations.FeedsLostAndRestored
  rintro ⟨-, -, haction, -⟩
  obtain ⟨t, ht, hqueue, -⟩ := haction feedARuns 0 false false (by decide +kernel) (by decide +kernel) (by decide +kernel) (by decide +kernel) (by decide +kernel)
  have hat : t.scribe.queue.map (·.arrived) = [0] := by
    rw [hqueue]
    rfl
  rw [← Host.Outcome.next.inj ht] at hat
  exact absurd (feedARuns_queues.symm.trans hat) (by decide)
end Sys2Proof.Machine

namespace Sys2Proof.Machine

/-- A standby that owns the leash and emits on port 0 under a lamp that is good but not lit, a Raman pulse of the port armed. -/
def emittingStandby : State := { State.reset with
  mode := { State.reset.mode with current := .mirror },
  banks := { State.reset.banks with active := bankWrite State.reset.banks.active Pid.pairEnable 0 1 },
  power := { State.reset.power with aon := true, coreOk := true, portOos := Vector.replicate 4 false },
  pair := { State.reset.pair with linkUp := true, own := true, pullOk := true },
  safety := { State.reset.safety with
    key := true, loop := true, estop := false, apr := 0, lwg := 0, fire := 0xF, leds := Vector.replicate 16 { proven := true, litGood := true } },
  ports := Vector.replicate 4 { ramTrg := some 5 },
  raman := Vector.replicate 4 { running := true } }

/-- The bark line's refresh then relights the lamp, which ends the emission and the pulse. -/
theorem emittingStandby_cut : (match exec (.copyReceived {}) emittingStandby with
    | .next t => (ramanOf t 0).running
    | _ => true) = false := by decide +kernel

/-- Refutes O28: a copy received by a standby that emits without a lit lamp ends the port's Raman pulse. -/
theorem not_handoversRun : ¬ Obligations.HandoversRun := by
  unfold Obligations.HandoversRun
  rintro ⟨-, -, -, -, -, -, hcopy, -⟩
  obtain ⟨t, ht, -, -, -, hplant⟩ := hcopy emittingStandby {} rfl (by decide +kernel) rfl rfl
  have hraman : t.raman = emittingStandby.raman := by
    simp only [plantUntouched] at hplant
    simp only [hplant]
  have hcut := emittingStandby_cut
  rw [ht] at hcut
  have hrunning : (ramanOf t 0).running = true := by
    rw [ramanOf, hraman]
    decide +kernel
  exact absurd (hrunning.symm.trans hcut) (by decide)
end Sys2Proof.Machine

namespace Sys2Proof.Machine

/-- A store that lists the delay item twice, running in both. -/
def twoDelayItems : State := { State.reset with
  mode := { State.reset.mode with current := .run },
  calib := { State.reset.calib with items := [(1280, { running := true }), (1280, { running := true })] } }

/-- The factory's own delay fields, each inside its limits. -/
def factoryDelays : List Int := (List.range 6).map (Config.factoryField 5 0) ++ [320000, 0]

theorem factoryDelays_pass (s : State) : calFailing s 5 0 factoryDelays = none := by
  simp [calFailing, calFieldCount, factoryDelays, calFieldOk, within, calFactory, List.range, List.range.loop]

/-- The end of the run erases the first item, and the second one shows. -/
theorem twoDelayItems_erased : onItem 5 0 (fun i => { i with running := false }) twoDelayItems =
    { twoDelayItems with calib := { twoDelayItems.calib with items := [(1280, { running := true })] } } := by
  rw [onItem, show calItem twoDelayItems 5 0 = { running := true } from rfl]
  rfl

theorem twoDelayItems_runs (s : State) (fields : List Int) (h : calItem s 5 0 = { running := true }) (hf : calFailing s 5 0 fields = none) :
    (calItem (calFinish 5 0 fields s) 5 0).running = true := by
  have hjob : calTakeJournal 5 0 s = (none, s) := by simp [calTakeJournal, h]
  have hkeep (u : State) : calItem (calDone 5 0 0 u) 5 0 = calItem u 5 0 := by simp [calItem, calDone]
  simp only [calFinish, hjob, hf, Option.map_none, Option.getD_none, hkeep]
  have hread : calItem (calNext 5 0 (fields.take (calFieldCount 5)) s) 5 0 =
      { calItem s 5 0 with next := some (fields.take (calFieldCount 5)), acceptedTime := nowNet s } :=
    Store.read_write_ne _ _ fun he => by simpa using congrArg CalItem.next he
  rw [hread, h]

/-- Refutes O30: the end of a delay run writes its item back, and a store that lists the item twice then shows the second. -/
theorem not_calibrationRuns : ¬ Obligations.CalibrationRuns := by
  unfold Obligations.CalibrationRuns
  rintro ⟨-, -, -, -, hdone, -⟩
  obtain ⟨t, ht, hrun, -⟩ := hdone twoDelayItems factoryDelays (by decide) rfl (factoryDelays_pass _) rfl
  have heq : t = calFinish 5 0 factoryDelays (onItem 5 0 (fun i => { i with running := false }) twoDelayItems) := (Host.Outcome.next.inj ht).symm
  have hshows := twoDelayItems_runs (onItem 5 0 (fun i => { i with running := false }) twoDelayItems) factoryDelays
    (by rw [twoDelayItems_erased]; rfl) (factoryDelays_pass _)
  rw [← heq, hrun] at hshows
  exact absurd hshows (by decide)
end Sys2Proof.Machine

namespace Sys2Proof.Machine

/-- The piece in progress on lane 0, which keeps no history byte. -/
def overrunPiece : Piece := { zone := 0, round := 1, slice := 0, points := 1, histLen := 0 }

/-- A store that lists zone 0 twice: as after reset, and with the piece's round missed. -/
def zoneListedTwice : State := { State.reset with
  banks := { State.reset.banks with active := bankWrite State.reset.banks.active Pid.zoneClass 0 1 },
  serif := { State.reset.serif with lanes := [(0, { piece := some overrunPiece })] },
  herder := { State.reset.herder with
    zones := [(0, {}), (0, { missed := some 1 })],
    work := [{ zone := 0, round := 1, slice := 0, slices := 1, dueRound := 1 }] } }

/-- The piece's history then erases the first, and the miss that the second shows is not reported again. -/
theorem zoneListedTwice_silent : (match exec (.laneBudgetEnd 0) zoneListedTwice with
    | .next t => (zoneOf t 0).gap.isSome
    | _ => true) = false := by decide +kernel

/-- Refutes O42: what the overrun piece leaves is written to its zone first, and a store that lists the zone twice then shows the round as missed already. -/
theorem not_slicesWork : ¬ Obligations.SlicesWork := by
  unfold Obligations.SlicesWork
  rintro ⟨-, -, -, -, -, -, -, hoverrun⟩
  obtain ⟨t, ht, -, -, hgap, -⟩ := hoverrun zoneListedTwice 0 overrunPiece { zone := 0, round := 1, slice := 0, slices := 1, dueRound := 1 } rfl rfl rfl
    (by decide) (by decide +kernel)
  have hsilent := zoneListedTwice_silent
  rw [ht] at hsilent
  exact absurd (hgap.symm.trans hsilent) (by decide)
end Sys2Proof.Machine

namespace Sys2Proof.Machine

/-- A shot of the ring under the bank of the reset. -/
def ringShot (r : Nat) (t : NetTime) : Shot := { round := r, slot := 0, period := 1, seq := r, fireTick := 0, time := t, fired := true, epoch := State.reset.banks.active.epoch }

/-- The ring on, zone 0 served, its time past the record's span. -/
def ringServed : State := { State.reset with
  mode := { State.reset.mode with current := .run }, memory := { State.reset.memory with regions := Vector.replicate 5 64, ports := Vector.replicate 2 { state := .online } },
  banks := { State.reset.banks with active := bankWrite (bankWrite State.reset.banks.active Pid.portEnable 0 1) Pid.zoneEnable 0 1 },
  time := { State.reset.time with axis := 200000 * 2 ^ 40 } }

/-- One round in the ring, then a block that does not decode, then the next round from a checkpoint. -/
def ringBroken : State :=
  let first := ringFeed 2 0 0 0 0 (ringShot 7 { ns := 0 }) [0x000001000200#48] false (forEach allPorts checkpoint ringServed)
  let torn := onInk (fun x => { x with pages := x.pages.map fun g => { g with blocks := g.blocks ++ [(0, [0xFF])] } }) first
  ringFeed 2 0 0 0 0 (ringShot 8 { ns := 100000 }) [0x000002000300#48] false (forEach allPorts checkpoint torn)

/-- A record of that zone whose span ends 200 µs after round 7. -/
def brokenRecord : EventRecord := { number := 1, port := 0, round := 7, time := {}, collecting := false, postReq := 200, zones := [{ zone := 0 }] }

def recordsBroken : State := { ringBroken with pointer := { State.reset.pointer with newest := 1, records := [(1, brokenRecord)] } }

/-- The later round makes the record ready, and its data end at the torn block: it closes as INCOMPLETE. -/
theorem recordsBroken_incomplete : (match exec (.recordClose 1) recordsBroken with
    | .next t => (recordOf t 1).map (·.completeness)
    | _ => none) = some 3 := by decide +kernel

/-- Refutes O53: a ready record closes INCOMPLETE where the ring holds the span in two parts with a torn block between them. -/
theorem not_recordsAndReplays : ¬ Obligations.RecordsAndReplays := by
  unfold Obligations.RecordsAndReplays
  rintro ⟨hclose, -⟩
  obtain ⟨t, u, ht, hu, hcomplete, -⟩ := hclose recordsBroken 1 brokenRecord (by decide +kernel) rfl (by decide +kernel)
  have hbroken := recordsBroken_incomplete
  rw [ht] at hbroken
  have hthree : u.completeness = 3 := by
    simpa [hu] using hbroken
  omega
end Sys2Proof.Machine

namespace Sys2Proof.Machine

theorem dramOf_of_ports {s t : State} (h : t.memory.ports = s.memory.ports) (a : Nat) : dramOf t a = dramOf s a := by
  unfold dramOf
  rw [h]

@[simp] theorem dramOf_bump (id i : Nat) (s : State) (a : Nat) : dramOf (bump id i s) a = dramOf s a := rfl

@[simp] theorem dramOf_post (code : Nat) (a0 a1 a2 : Int) (s : State) (a : Nat) : dramOf (post code a0 a1 a2 s) a = dramOf s a :=
  dramOf_of_ports (by simp) a

theorem bump_memory_eq (id i : Nat) {s u : State} (h : u = { s with memory := u.memory }) :
    bump id i u = { s with memory := (bump id i u).memory, params := (bump id i u).params } := by
  rw [h]
  rfl

theorem sramCorrected_counts (s : State) (e : SramError) (h : e.corrected = true) :
    ∃ t, exec (.sramEccError e) s = .next t ∧ t = { s with params := t.params } := by
  refine ⟨_, rfl, ?_⟩
  show sramEccError e s = _
  unfold sramEccError
  rw [if_pos h]
  dsimp only
  split <;> rfl

theorem sramTrace_repaired (s : State) (e : SramError) (h : e.corrected = false) (hstore : e.store.val = 0) :
    ∃ t, exec (.sramEccError e) s = .next t ∧ (0, e.word) ∈ t.memory.bad ∧
      (∀ q : Fin 4, q.val ≠ e.word / 2 / 262144 → portOf t q = portOf s q) ∧
      plantUntouched { s with memory := { s.memory with bad := t.memory.bad }, ports := t.ports } t := by
  refine ⟨_, rfl, ?_⟩
  show _ ∈ (sramEccError e s).memory.bad ∧ (∀ q : Fin 4, _ → portOf (sramEccError e s) q = _) ∧ plantUntouched _ (sramEccError e s)
  unfold sramEccError sramEffect
  simp only [h, hstore, Bool.false_eq_true, if_false]
  refine ⟨?_, fun q hq => ?_, ?_⟩
  · simp [onMem]
    split <;> simp_all
  · rw [portOf_onPort_other _ _ hq]
    exact portOf_congr (by simp [onMem]) q
  · simp [plantUntouched, onMem]

theorem sramStore_faults (s : State) (e : SramError) (h : e.corrected = false) (hstore : e.store.val = 4) (hrun : s.mode.current = .run)
    (hstill : s.mode.inProgress = none) (hswitch : s.banks.switch = none) :
    ∃ t, exec (.sramEccError e) s = .next t ∧ t.mode.current = .fault ∧ t.mode.faultCode = 5 ∧ emissionOff t ∧ (4, e.word) ∈ t.memory.bad := by
  refine ⟨_, rfl, ?_⟩
  show (sramEccError e s).mode.current = _ ∧ (sramEccError e s).mode.faultCode = 5 ∧ emissionOff (sramEccError e s) ∧ _ ∈ (sramEccError e s).memory.bad
  unfold sramEccError sramEffect
  simp only [h, hstore, Bool.false_eq_true, if_false]
  generalize hu : post 0x2C07 _ _ _ _ = u
  have hmode : u.mode = s.mode := by simp [← hu, onMem]
  have hbad : (4, e.word) ∈ u.memory.bad := by
    simp only [← hu, post_memory, bump_memory, onMem]
    split <;> simp_all
  have hfault : (4, e.word) ∈ (enterFault 5 false u).memory.bad := by simp [hbad]
  obtain ⟨ha, hb, -, -, hoff, -⟩ := faultIsLatched.1 u 5 false (by rw [hmode, hrun]; decide) (by rw [hmode, hrun]; decide)
  exact ⟨ha, hb, hoff, hfault⟩

theorem dramCorrected_counts (s : State) (e : DramError) (h : e.uncorrectable = false) :
    ∃ t, exec (.dramEccError e) s = .next t ∧ t = { s with params := t.params } := by
  refine ⟨_, rfl, ?_⟩
  show dramEccError e s = _
  unfold dramEccError
  rw [h]
  rfl

theorem checkPassed_restarts (s : State) (a : Fin 2) (mr4 : Nat) (hon : (dramOf s a).state = .online) (hpasr : (dramOf s a).pasr = false)
    (hfree : (dramOf s a).retraining = false) (hdue : (dramOf s a).checkDue = true) :
    ∃ t, exec (.dramRetrainCheck a mr4 true) s = .next t ∧
      dramOf t a = { dramOf s a with mr4 := some mr4, refTemp := s.calib.temp, refMr4 := some mr4, checkDue := false } ∧
      (∀ b : Fin 2, b ≠ a → dramOf t b = dramOf s b) ∧ t = { s with memory := t.memory } := by
  refine ⟨_, rfl, ?_⟩
  show dramOf (dramRetrainCheck a mr4 true s) a = _ ∧ (∀ b : Fin 2, b ≠ a → dramOf (dramRetrainCheck a mr4 true s) b = _) ∧ dramRetrainCheck a mr4 true s = _
  unfold dramRetrainCheck
  simp only [hon, hpasr, hfree, hdue, bne_self_eq_false, Bool.or_false, Bool.or_true, Bool.not_true, Bool.false_eq_true, if_false, if_true]
  refine ⟨by rw [dramOf_onDram, dramOf_onDram]; simp [onDram, hon, hpasr, hfree], fun b hb => ?_, rfl⟩
  have hb' : b.val ≠ a.val := fun h => hb (Fin.ext h)
  rw [dramOf_onDram_other _ _ hb', dramOf_onDram_other _ _ hb']

theorem checkFailed_retrains (s : State) (a : Fin 2) (mr4 : Nat) (hon : (dramOf s a).state = .online) (hpasr : (dramOf s a).pasr = false)
    (hfree : (dramOf s a).retraining = false) (hdue : (dramOf s a).checkDue = true) :
    ∃ t, exec (.dramRetrainCheck a mr4 false) s = .next t ∧
      dramOf t a = { dramOf s a with
        mr4 := some mr4, refMr4 := some ((dramOf s a).refMr4.getD mr4), state := if s.mode.current = .config then .training else .online,
        retraining := true, passRate := (dramOf s a).delays.rate, checkDue := false } ∧
      (∀ b : Fin 2, b ≠ a → dramOf t b = dramOf s b) ∧ t = { s with memory := t.memory, params := t.params } := by
  refine ⟨_, rfl, ?_⟩
  show dramOf (dramRetrainCheck a mr4 false s) a = _ ∧ (∀ b : Fin 2, b ≠ a → dramOf (dramRetrainCheck a mr4 false s) b = _) ∧ dramRetrainCheck a mr4 false s = _
  unfold dramRetrainCheck dramTrain
  simp only [hon, hpasr, hfree, hdue, bne_self_eq_false, Bool.or_false, Bool.or_true, Bool.not_true, Bool.false_eq_true, if_false]
  refine ⟨?_, fun b hb => ?_, bump_memory_eq _ _ rfl⟩
  · rw [dramOf_bump, dramOf_onDram, dramOf_onDram, dramOf_onDram]
    simp [hon, hpasr, onDram]
  · have hb' : b.val ≠ a.val := fun h => hb (Fin.ext h)
    rw [dramOf_bump, dramOf_onDram_other _ _ hb', dramOf_onDram_other _ _ hb', dramOf_onDram_other _ _ hb']

theorem rowHammer_dram (a : Nat) (l : DramRow) (s : State) : (rowHammer a l s).memory.ports =
    vecUpdate s.memory.ports a fun d => { d with
      hammerSeen := true, rows := Store.put d.rows (((l.channel.val * 2 + l.rank.val) * 8 + l.bank.val) * 2 ^ 18 + l.row.val) 0 } := by
  unfold rowHammer
  dsimp only
  split <;> simp [onMem, onDram]

theorem rowHammer_requesters (a : Nat) (l : DramRow) (s : State) : (vecRead (rowHammer a l s).memory.requesters l.requester.val {}).throttled = true := by
  unfold rowHammer
  dsimp only
  split <;> simp [onMem, onDram, vecRead_vecUpdate _ _ _ l.requester.isLt]

theorem rowHammer_plant (a : Nat) (l : DramRow) (s : State) : plantUntouched { s with memory := (rowHammer a l s).memory } (rowHammer a l s) := by
  unfold rowHammer
  dsimp only
  split <;> simp [onMem, plantUntouched]

theorem rowHammer_throttles (s : State) (a : Fin 2) (l : DramRow) : ∃ t, exec (.rowHammer a l) s = .next t ∧
    (vecRead t.memory.requesters l.requester.val {}).throttled = true ∧ (dramOf t a).hammerSeen = true ∧
    (dramOf t a).state = (dramOf s a).state ∧ (∀ b : Fin 2, b ≠ a → dramOf t b = dramOf s b) ∧ plantUntouched { s with memory := t.memory } t := by
  refine ⟨_, rfl, ?_⟩
  show (vecRead (rowHammer a l s).memory.requesters _ _).throttled = _ ∧ (dramOf (rowHammer a l s) a).hammerSeen = _ ∧ (dramOf (rowHammer a l s) a).state = _
    ∧ (∀ b : Fin 2, b ≠ a → dramOf (rowHammer a l s) b = _) ∧ plantUntouched _ (rowHammer a l s)
  have hports := rowHammer_dram a.val l s
  refine ⟨rowHammer_requesters a l s, ?_, ?_, fun b hb => ?_, rowHammer_plant a l s⟩
  · rw [dramOf, hports, vecRead_vecUpdate _ _ _ a.isLt]
  · rw [dramOf, hports, vecRead_vecUpdate _ _ _ a.isLt]
    rfl
  · rw [dramOf, hports, vecRead_vecUpdate_other _ _ _ fun h => hb (Fin.ext h)]
    rfl

theorem hammerWindow_clears (s : State) : ∃ t, exec .hammerWindow s = .next t ∧ (∀ a : Fin 2, dramOf t a = { dramOf s a with rows := [] }) ∧
    t = { s with memory := t.memory } := by
  refine ⟨_, rfl, fun a => ?_, rfl⟩
  simp [dramOf, vecRead, onMem, show a.val < 2 from a.isLt]

theorem hammerThrottle_ends (s : State) (i : Fin 8) : ∃ t, exec (.hammerThrottleEnd i) s = .next t ∧ (t.memory.requesters.get i).throttled = false ∧
    (∀ j : Fin 8, j ≠ i → t.memory.requesters.get j = s.memory.requesters.get j) ∧
    t = { s with memory := { s.memory with requesters := t.memory.requesters } } := by
  refine ⟨_, rfl, ?_, fun j hj => ?_, rfl⟩
  · simp [onMem, vecUpdate, Vector.get_eq_getElem, i.isLt]
  · have hj' : i.val ≠ j.val := fun h => hj (Fin.ext h.symm)
    simp [onMem, vecUpdate, Vector.get_eq_getElem, hj']

theorem refresh_postpones (s : State) (a : Fin 2) (waiting : Bool) (hpost : (dramOf s a).postponed ≤ 8) : ∃ t, exec (.dramRefresh a waiting) s = .next t ∧
    dramOf t a = { dramOf s a with postponed := (dramOf t a).postponed } ∧ (dramOf t a).postponed ≤ 8 ∧
    (waiting = false → (dramOf t a).postponed = 0) ∧ (∀ b : Fin 2, b ≠ a → dramOf t b = dramOf s b) ∧ t = { s with memory := t.memory } := by
  refine ⟨_, rfl, ?_, ?_, ?_, fun b hb => ?_, rfl⟩
  · rw [dramOf_onDram]
  · rw [dramOf_onDram]
    dsimp only
    split
    next h => simp at h; omega
    next => omega
  · rintro rfl
    rw [dramOf_onDram]
    rfl
  · exact dramOf_onDram_other _ _ fun h => hb (Fin.ext h)

theorem memLate_counts (s : State) (i : Fin 8) (n : Nat) (hn : 0 < n) : ∃ t, exec (.memLate i n) s = .next t ∧ t.memory.ports = s.memory.ports ∧
    plantUntouched { s with memory := t.memory } t := by
  refine ⟨_, rfl, ?_⟩
  show (memLate i n s).memory.ports = _ ∧ plantUntouched _ (memLate i n s)
  unfold memLate
  rw [if_neg (by omega)]
  dsimp only
  split <;> simp [onMem, plantUntouched]

theorem rateWrite_trains (s : State) (a : Fin 2) (rate : Nat) (hconfig : s.mode.current = .config) (hrate : rate ∈ [1600, 2133, 3200, 3733, 4266])
    (hon : (dramOf s a).state = .online) (hfree : (dramOf s a).retraining = false) : ∃ t, exec (.rateMtsWrite a rate) s = .next t ∧
      dramOf t a = { dramOf s a with state := .training, retraining := true, passRate := rate } ∧
      (∀ b : Fin 2, b ≠ a → dramOf t b = dramOf s b) ∧ t = { s with memory := t.memory, params := t.params } := by
  refine ⟨_, rfl, ?_⟩
  rw [if_pos (by simp [hconfig, hrate])]
  unfold writeRate
  have hd : ∀ b, dramOf (paramPut (dramId a Pid.memPortRateMts) 0 rate s) b = dramOf s b := fun _ => rfl
  have hm : (paramPut (dramId a Pid.memPortRateMts) 0 rate s).mode = s.mode := by simp
  simp only [hd, hm, hconfig, hon, hfree, dramTrain, beq_self_eq_true, Bool.and_self, Bool.false_eq_true, if_false, if_true]
  exact ⟨dramOf_onDram _ _ _, fun b hb => dramOf_onDram_other _ _ fun h => hb (Fin.ext h), rfl⟩

/-! The history of an error's owner is dropped, or its block or job poisoned. -/

/-- What poison cannot reach: the plant outside the Herder, Serif, the Pointer, Inkstone and the firmware's upload. -/
def unpoisoned (s : State) :=
  (s.power, s.clocks, s.straps, s.pins, s.mode, s.banks, s.booted, s.modeEntry, s.ports, s.raman, s.rtd, s.hk, s.memory, s.time, s.safety, s.calib,
    s.ticks, s.free, s.pending)

@[simp] theorem post_unpoisoned (code : Nat) (a0 a1 a2 : Int) (s : State) : unpoisoned (post code a0 a1 a2 s) = unpoisoned s := by
  simp [unpoisoned]

@[simp] theorem onZone_unpoisoned (z : Nat) (f : ZoneState → ZoneState) (s : State) : unpoisoned (onZone z f s) = unpoisoned s := rfl

@[simp] theorem onInk_unpoisoned (f : Inkstone → Inkstone) (s : State) : unpoisoned (onInk f s) = unpoisoned s := rfl

@[simp] theorem noteGap_unpoisoned (z lost cause : Nat) (s : State) : unpoisoned (noteGap z lost cause s) = unpoisoned s := rfl

@[simp] theorem endJob_unpoisoned (i reason : Nat) (s : State) : unpoisoned (endJob i reason s) = unpoisoned s := by
  simp [unpoisoned]

@[simp] theorem dropRound_unpoisoned (z : Nat) (s : State) : unpoisoned (dropRound z s) = unpoisoned s := by
  unfold dropRound
  split
  next w _ => exact inService_keep unpoisoned (fun _ _ => rfl) z w.epoch _ (fun _ => by simp) s
  · rfl

@[simp] theorem historyError_unpoisoned (z : Nat) (points : List Nat) (s : State) : unpoisoned (historyError z points s) = unpoisoned s := by
  have hforget : ∀ u : State, unpoisoned (forgetPieces z u) = unpoisoned u := forgetPieces_keep unpoisoned (fun _ _ => rfl) z
  unfold historyError
  dsimp only
  split <;> simp [hforget]

@[simp] theorem poisonRing_unpoisoned (a f o : Nat) (s : State) : unpoisoned (poisonRing a f o s) = unpoisoned s := by
  unfold poisonRing
  split <;> rfl

@[simp] theorem poisonJob_unpoisoned (i : Nat) (s : State) : unpoisoned (poisonJob i s) = unpoisoned s := by
  unfold poisonJob
  split <;> simp

@[simp] theorem decodeError_unpoisoned (reader code seq : Nat) (s : State) : unpoisoned (decodeError reader code seq s) = unpoisoned s := by
  simp [unpoisoned]

theorem poisonEffect_unpoisoned (e : DramError) (s : State) : unpoisoned (poisonEffect e s) = unpoisoned s := by
  unfold poisonEffect
  dsimp only
  split
  · exact historyError_unpoisoned _ _ _
  · split
    · rfl
    · exact poisonRing_unpoisoned _ _ _ _
  · split <;> simp
  · split <;> rfl
  · rfl

/-- The page's mark where the port's lists have room. -/
def pageMarked (known : Bool) (page : Nat) (d : DramPort) : DramPort :=
  { d with ueSeen := true, marked := if known then d.marked else d.marked ++ [page] }

theorem dramEccError_unpoisoned (s : State) (e : DramError) (h : e.uncorrectable = true)
    (hroom : (dramOf s e.port).retired.length + (dramOf s e.port).marked.length < 1024)
    (hnew : sectorPage s e.port e.loc e.sector ∉ (dramOf s e.port).retired) :
    unpoisoned (dramEccError e s) = unpoisoned (onDram e.port.val
      (pageMarked ((dramOf s e.port).marked.contains (sectorPage s e.port e.loc e.sector)) (sectorPage s e.port e.loc e.sector)) s) := by
  have hlists : ¬ 1024 ≤ (dramOf s e.port).retired.length + (dramOf s e.port).marked.length := by omega
  have hretired : (dramOf s e.port).retired.contains (sectorPage s e.port e.loc e.sector) = false := by simpa using hnew
  unfold dramEccError
  simp only [h, Bool.not_true, Bool.false_eq_true, if_false, decide_eq_false hlists, hretired, Bool.and_false, Bool.or_false, Bool.false_or]
  rw [poisonEffect_unpoisoned, post_unpoisoned]
  rfl

theorem dramPoison_marks (s : State) (e : DramError) (h : e.uncorrectable = true)
    (hroom : (dramOf s e.port).retired.length + (dramOf s e.port).marked.length < 1024)
    (hnew : sectorPage s e.port e.loc e.sector ∉ (dramOf s e.port).retired) : ∃ t, exec (.dramEccError e) s = .next t ∧
      sectorPage s e.port e.loc e.sector ∈ (dramOf t e.port).marked ∧
      (dramOf t e.port).ueSeen = true ∧ (dramOf t e.port).state = (dramOf s e.port).state ∧
      (∀ a : Fin 2, a ≠ e.port → dramOf t a = dramOf s a) ∧
      plantUntouched { s with memory := t.memory, herder := t.herder, serif := t.serif, pointer := t.pointer, inkstone := t.inkstone, firmware := t.firmware } t := by
  have hkept := dramEccError_unpoisoned s e h hroom hnew
  refine ⟨_, rfl, ?_⟩
  show sectorPage s e.port e.loc e.sector ∈ (dramOf (dramEccError e s) e.port).marked ∧ (dramOf (dramEccError e s) e.port).ueSeen = true ∧
    (dramOf (dramEccError e s) e.port).state = _ ∧ (∀ a : Fin 2, a ≠ e.port → dramOf (dramEccError e s) a = _) ∧ plantUntouched _ (dramEccError e s)
  generalize dramEccError e s = t at hkept ⊢
  have hmem : t.memory = (onDram e.port.val (pageMarked ((dramOf s e.port).marked.contains (sectorPage s e.port e.loc e.sector))
      (sectorPage s e.port e.loc e.sector)) s).memory := by
    simp only [unpoisoned, Prod.mk.injEq] at hkept
    simp only [hkept]
  have hport : ∀ a, dramOf t a = _ := dramOf_of_ports (congrArg Memory.ports hmem)
  refine ⟨?_, ?_, ?_, fun a ha => ?_, ?_⟩
  · rw [hport, dramOf_onDram]
    unfold pageMarked
    split <;> simp_all
  · rw [hport, dramOf_onDram]
    rfl
  · rw [hport, dramOf_onDram]
    rfl
  · rw [hport, dramOf_onDram_other _ _ fun h => ha (Fin.ext h)]
  · simp only [unpoisoned, Prod.mk.injEq, onDram] at hkept
    simp [plantUntouched, hkept]

@[simp] theorem kennelResize_dram (s : State) : (kennelResize s).memory.ports = s.memory.ports := by
  unfold kennelResize
  dsimp only
  split
  · rw [forEach_keep (·.memory) _ fun _ _ => by simp]
    simp [onMem]
  · simp [onMem]

@[simp] theorem dramOf_kennelResize (s : State) (a : Nat) : dramOf (kennelResize s) a = dramOf s a := dramOf_of_ports (kennelResize_dram s) a

theorem pageRetire_dram (a page : Nat) (s : State) (h : page ∈ (dramOf s a).marked) : (pageRetire a page s).memory.ports =
    (onDram a (fun d => { d with marked := d.marked.erase page, retired := d.retired ++ [page] }) s).memory.ports := by
  unfold pageRetire
  rw [if_neg (by simpa using h)]
  dsimp only
  split
  · split <;> simp
  · rfl

theorem pageRetire_retires (s : State) (a : Fin 2) (page : Nat) (h : page ∈ (dramOf s a).marked) : ∃ t, exec (.pageRetire a page) s = .next t ∧
    (dramOf t a).retired = (dramOf s a).retired ++ [page] ∧ (dramOf t a).marked = (dramOf s a).marked.erase page ∧
    (∀ b : Fin 2, b ≠ a → dramOf t b = dramOf s b) ∧
    plantUntouched { s with memory := t.memory, pointer := t.pointer, inkstone := t.inkstone } t := by
  have hport : ∀ b, dramOf (pageRetire a page s) b = _ := dramOf_of_ports (pageRetire_dram a page s h)
  refine ⟨_, rfl, ?_⟩
  show (dramOf (pageRetire a page s) a).retired = _ ∧ (dramOf (pageRetire a page s) a).marked = _ ∧ (∀ b : Fin 2, b ≠ a → dramOf (pageRetire a page s) b = _) ∧
    plantUntouched _ (pageRetire a page s)
  refine ⟨?_, ?_, fun b hb => ?_, ?_⟩
  · rw [hport, dramOf_onDram]
  · rw [hport, dramOf_onDram]
  · rw [hport, dramOf_onDram_other _ _ fun h => hb (Fin.ext h)]
  · unfold pageRetire
    rw [if_neg (by simpa using h)]
    dsimp only
    split
    · split <;> simp [plantUntouched, onDram]
    · simp [plantUntouched, onDram]

theorem lanesPass_of_eyes (s : State) (a : Nat) (r : TrainingResult) (htrained : r.trained = true)
    (heyes : sweeps s a = true → ∀ l : Fin 4, paramNat s Pid.memMinEyeSteps 0 ≤ r.delays.eye.get l) : lanesPass s a r = true := by
  unfold lanesPass
  cases hs : sweeps s a
  · simp [htrained]
  · simp only [htrained, Bool.not_true, Bool.false_or, Bool.true_and, Vector.all_eq_true, decide_eq_true_eq]
    exact fun i hi => heyes hs ⟨i, hi⟩

/-- A port that has passed its training with no cause to be away. -/
def trainedPort (s : State) (a : Nat) (r : TrainingResult) (d : DramPort) : DramPort :=
  { d with delays := trainedDelays s a r, flash := some (trainedDelays s a r), refTemp := s.calib.temp, refMr4 := d.mr4,
           state := .online, retraining := false, cause := 0 }

theorem onDram_onDram (a : Nat) (f g : DramPort → DramPort) (s : State) : onDram a g (onDram a f s) = onDram a (fun d => g (f d)) s := by
  unfold onDram vecUpdate
  by_cases h : a < 2 <;> simp [h]

theorem onDram_memory_congr {s t : State} (h : t.memory = s.memory) (a : Nat) (f : DramPort → DramPort) :
    (onDram a f t).memory = (onDram a f s).memory := by
  simp only [onDram, h]

theorem trainingEnds_passed (s : State) (a : Fin 2) (r : TrainingResult) (hpass : lanesPass s a r = true) (hrate : (dramOf s a).deferredRate = none)
    (hcause : (dramOf s a).cause = 0) : (trainingEnds a r s).memory = (onDram a (trainedPort s a r) s).memory ∧
      plantUntouched { s with memory := (trainingEnds a r s).memory } (trainingEnds a r s) := by
  unfold trainingEnds trainingOutcome dramOnlineNow
  simp only [hrate, hpass, if_true, dramOf_post, dramOf_onDram, hcause, true_or, decide_true, Bool.true_or]
  constructor
  · rw [onDram_memory_congr (post_memory _ _ _ _ _), onDram_onDram]
    rfl
  · simp [plantUntouched, onDram]

theorem training_passes (s : State) (a : Fin 2) (r : TrainingResult) (hmode : s.mode.current ≠ .boot) (hon : (dramOf s a).state = .online)
    (hretrain : (dramOf s a).retraining = true) (hcause : (dramOf s a).cause = 0) (hrate : (dramOf s a).deferredRate = none) (htrained : r.trained = true)
    (heyes : sweeps s a = true → ∀ l : Fin 4, paramNat s Pid.memMinEyeSteps 0 ≤ r.delays.eye.get l) : ∃ t,
      exec (.dramTrainingDone a r) s = .next t ∧ (dramOf t a).state = .online ∧ (dramOf t a).retraining = false ∧
      (sweeps s a = true → (dramOf t a).delays = { r.delays with rate := (dramOf s a).passRate }) ∧
      (sweeps s a = false → (dramOf t a).delays.rate = (dramOf s a).passRate ∧
        (∀ l : Fin 4, (dramOf t a).delays.rd.get l = paramNat s (dramId a Pid.memPortDlyRd) l ∧
          (dramOf t a).delays.wr.get l = paramNat s (dramId a Pid.memPortDlyWr) l) ∧
        (dramOf t a).delays.ca = #v[paramNat s (dramId a Pid.memPortDlyCaA) 0, paramNat s (dramId a Pid.memPortDlyCaB) 0]) ∧
      (dramOf t a).flash = some (dramOf t a).delays ∧ (dramOf t a).refTemp = s.calib.temp ∧
      (dramOf t a).refMr4 = (dramOf s a).mr4 ∧
      (∀ b : Fin 2, b ≠ a → dramOf t b = dramOf s b) ∧ plantUntouched { s with memory := t.memory } t := by
  obtain ⟨hmem, hplant⟩ := trainingEnds_passed s a r (lanesPass_of_eyes s a r htrained heyes) hrate hcause
  have hexec : exec (.dramTrainingDone a r) s = .next (trainingEnds a r s) := by
    show Host.Outcome.next (dramTrainingDone a r s) = _
    unfold dramTrainingDone
    simp [hmode, hon, hretrain]
  have hport : ∀ b, dramOf (trainingEnds a r s) b = _ := dramOf_of_ports (congrArg Memory.ports hmem)
  have ha : dramOf (trainingEnds a r s) a = trainedPort s a r (dramOf s a) := by rw [hport, dramOf_onDram]
  refine ⟨_, hexec, ?_⟩
  rw [ha]
  refine ⟨rfl, rfl, fun hs => ?_, fun hs => ?_, rfl, rfl, rfl, fun b hb => ?_, hplant⟩
  · simp [trainedPort, trainedDelays, hs]
  · simp [trainedPort, trainedDelays, hs, Vector.get_eq_getElem]
  · rw [hport, dramOf_onDram_other _ _ fun h => hb (Fin.ext h)]

/-- The port as it goes offline. -/
def offlinePort (cause now : Nat) (d : DramPort) : DramPort :=
  { d with state := .offline, cause := cause, lossTick := now, retraining := false, deferredRate := none }

theorem ringFollows_memory (s : State) : (if ringAvailable s then ringRestart 3 s else ringDrop s).memory = s.memory := by
  split <;> simp

theorem dramOffline_dram (a cause : Nat) (s : State) (hfit : (dramOf s a).state ≠ .unfitted) (hon : (dramOf s a).state ≠ .offline) :
    (dramOffline a cause s).memory.ports = (onDram a (offlinePort cause s.ticks) s).memory.ports := by
  unfold dramOffline
  rw [if_neg (by simp [hfit, hon])]
  dsimp only
  split
  · rw [post_memory]
    rfl
  · rw [ringFollows_memory, readmitAll_memory, forEach_keep (·.memory.ports) _ fun z u => ?lost, post_memory, kennelResize_dram,
      forEach_keep (·.memory.ports) _ fun _ _ => by simp, closeAllRecords_memory]
    · rfl
    case lost =>
      split
      · rfl
      · simp

theorem training_fails (s : State) (a : Fin 2) (r : TrainingResult) (hmode : s.mode.current ≠ .boot) (hon : (dramOf s a).state = .training)
    (hretrain : (dramOf s a).retraining = true) (hrate : (dramOf s a).deferredRate = none) (hout : trainingOutcome s a r = 2) :
    ∃ t, exec (.dramTrainingDone a r) s = .next t ∧
      (dramOf t a).state = .offline ∧ (dramOf t a).cause = 2 ∧ (dramOf t a).lossTick = s.ticks ∧ (dramOf t a).retraining = false ∧
      ((dramOf s a).cause ≠ 0 → plantUntouched { s with memory := t.memory } t) := by
  have hexec : exec (.dramTrainingDone a r) s = .next (dramOffline a 2 s) := by
    show Host.Outcome.next (dramTrainingDone a r s) = _
    unfold dramTrainingDone trainingEnds
    simp [hmode, hon, hretrain, hrate, hout]
  have hport : dramOf (dramOffline a 2 s) a = offlinePort 2 s.ticks (dramOf s a) := by
    rw [dramOf_of_ports (dramOffline_dram a 2 s (by simp [hon]) (by simp [hon])), dramOf_onDram]
  refine ⟨_, hexec, ?_⟩
  rw [hport]
  refine ⟨rfl, rfl, rfl, rfl, fun hcause => ?_⟩
  unfold dramOffline
  simp [hon, holdsPages, hcause, plantUntouched, onDram]

/-- Settles O54: each command's port, page, requester or store changes as its rule says, and the shared operations it calls
(the Kennel's new quotas, the ring's restart, the events) leave the DRAM ports and the rest of the plant. -/
theorem memoryIsKept : Obligations.MemoryIsKept := by
  unfold Obligations.MemoryIsKept
  exact ⟨sramCorrected_counts, sramTrace_repaired, sramStore_faults, fun _ _ _ => rfl, dramCorrected_counts, dramPoison_marks, pageRetire_retires,
    training_passes, training_fails, fun s a mr4 hon hpasr hfree hdue => ⟨checkPassed_restarts s a mr4 hon hpasr hfree hdue,
      checkFailed_retrains s a mr4 hon hpasr hfree hdue⟩, rowHammer_throttles, hammerWindow_clears, hammerThrottle_ends, refresh_postpones,
    memLate_counts, rateWrite_trains⟩
end Sys2Proof.Machine

namespace Sys2Proof.Machine

/-! ## A bark's bytes (R473) -/

/-- A bark before its CRC. -/
def barkBody (s : State) : List Byte :=
  let copy := if s.mode.current == .mirror then ((s.pair.applied.map (·.epoch)).getD 0) else s.pair.copyEpoch.toNat
  leBytes 1 1 ++ leBytes 1 s.pair.linkVersion ++ leBytes 1 (bit s.straps.unitId) ++
    leBytes 1 (modeCode s.mode.current) ++ leBytes 4 s.pair.barkSeq.toNat ++ leBytes 2 (barkFlags s) ++
    leBytes 1 (feedStatus s) ++ leBytes 1 (selftestFailed s) ++ leBytes 4 copy ++ stampBytes (selectedNet s) ++
    stampBytes s.pair.echo ++ stampBytes s.pair.rx ++ leBytes 4 s.banks.active.epoch ++ leBytes 4 (fwVersion s).toNat ++
    leBytes 4 (libraryCrc s) ++ leBytes 2 (healthWord s)

theorem barkBytes_eq (s : State) : barkBytes s = barkBody s ++ leBytes 4 (crc32c (barkBody s)).toNat := rfl

theorem leNat_leBytes (n v : Nat) : leNat (leBytes n v) = v % 256 ^ n := by
  induction n generalizing v with
  | zero => simp [leBytes, leNat, Nat.mod_one]
  | succ n ih =>
    simp only [leBytes, leNat, ih, BitVec.toNat_ofNat]
    rw [show 256 ^ (n + 1) = 256 * 256 ^ n from Nat.pow_succ', Nat.mod_mul]

/-- A field written at its place is read there. -/
theorem field_append (xs ys : List Byte) (n v : Nat) : field (xs ++ leBytes n v ++ ys) xs.length n = v % 256 ^ n := by
  have hlen := length_leBytes n v
  have htake : (leBytes n v ++ ys).take n = leBytes n v := by
    rw [List.take_append_of_le_length (by omega), List.take_of_length_le (by omega)]
  unfold field slice
  simp [htake, hlen, leNat_leBytes]

theorem length_barkBody (s : State) : (barkBody s).length = 60 := by
  simp [barkBody, length_leBytes, stampBytes]

theorem modeCode_lt (m : Mode) : modeCode m < 256 := by cases m <;> decide

theorem barkBytes_fields (s : State) : (barkBytes s).length = 64 ∧ field (barkBytes s) 0 1 = 1 ∧ field (barkBytes s) 3 1 = modeCode s.mode.current ∧
    field (barkBytes s) 4 4 = s.pair.barkSeq.toNat ∧ field (barkBytes s) 60 4 = (crc32c ((barkBytes s).take 60)).toNat := by
  have hmode := modeCode_lt s.mode.current
  have hseq := s.pair.barkSeq.isLt
  have hlen := length_barkBody s
  refine ⟨by simp [barkBytes_eq, hlen, length_leBytes], ?_, ?_, ?_, ?_⟩
  · rw [barkBytes_eq, barkBody]
    simp only [List.append_assoc]
    exact field_append [] _ 1 1
  · rw [barkBytes_eq, barkBody]
    simp only [List.append_assoc]
    simp [field, slice, leBytes, leNat, Nat.mod_eq_of_lt hmode]
  · rw [barkBytes_eq, barkBody]
    simp only [List.append_assoc]
    have h := field_append (leBytes 1 1 ++ leBytes 1 s.pair.linkVersion ++ leBytes 1 (bit s.straps.unitId) ++ leBytes 1 (modeCode s.mode.current))
    simp only [List.append_assoc] at h
    exact (h _ 4 s.pair.barkSeq.toNat).trans (Nat.mod_eq_of_lt hseq)
  · rw [barkBytes_eq, List.take_left' hlen]
    have h := field_append (barkBody s) [] 4 (crc32c (barkBody s)).toNat
    rw [List.append_nil, hlen] at h
    rw [h]
    exact Nat.mod_eq_of_lt (crc32c (barkBody s)).isLt

/-! ## What the refresh of readiness and the tests of the peer leave of the pair -/

/-- The unit's record of its peer and of its own leash. -/
structure Watched where
  hbSilent : Bool
  linkLost : Bool
  own : Bool
  driving : Bool
  peerFailed : Bool
  peer : Option Bark
  echo : NetTime
  rx : NetTime
  idConflict : Bool
  timeOffset : Int
  barkSeq : BitVec 32
  watchdogOk : Bool
  linkUp : Bool
  linkVersion : Nat
  taking : Bool
  cause : Nat
  step : HandoverStep

/-- What the pair's commands say of the peer. -/
def watched (s : State) : Watched := {
  hbSilent := s.pair.hbSilent, linkLost := s.pair.linkLost, own := s.pair.own, driving := s.pair.driving, peerFailed := s.pair.peerFailed, peer := s.pair.peer, echo := s.pair.echo, rx := s.pair.rx, idConflict := s.pair.idConflict, timeOffset := s.pair.timeOffset, barkSeq := s.pair.barkSeq, watchdogOk := s.pair.watchdogOk, linkUp := s.pair.linkUp, linkVersion := s.pair.linkVersion, taking := s.pair.taking, cause := s.pair.cause, step := s.pair.step }

@[simp] theorem tell_watched (code : Nat) (a0 a1 a2 : Int) (s : State) : watched (tell code a0 a1 a2 s) = watched s :=
  tell_keep watched (by intros; rfl) code a0 a1 a2 s

@[simp] theorem settle_watched (o s : State) : watched (settle o s) = watched s := settle_keep watched (by intros; rfl) o s

@[simp] theorem pairRefresh_watched (s : State) : watched (pairRefresh s) = watched s := by
  have hready (c : Nat) (u : State) : watched (onPair (fun x => { x with ready := c == 0, readyCond := c }) u) = watched u := rfl
  have hpull (p : Bool) (u : State) : watched (onPair (fun x => { x with pullOk := p }) u) = watched u := rfl
  unfold pairRefresh
  dsimp only
  split <;> split <;> simp only [tell_watched, settle_watched, hready, hpull]


theorem pairRefresh_emissionOnly (s : State) : emissionOnly s (pairRefresh s) := by
  simp [emissionOnly, plantUntouched]


/-! ## Barks and paths -/

theorem barkSend_bytes (s : State) (hsent : barksSent s = true) (hup : s.pair.linkUp = true) : ∃ t b, exec .barkSend s = .next t ∧
    t.pair.tx.getLast? = some (0, b) ∧ b.length = 64 ∧ field b 0 1 = 1 ∧ field b 3 1 = modeCode s.mode.current ∧ field b 4 4 = s.pair.barkSeq.toNat ∧
    field b 60 4 = (crc32c (b.take 60)).toNat ∧ t.pair.barkSeq = s.pair.barkSeq + 1 ∧ t.pair.watchdogOk = true ∧ emissionOnly s t := by
  have hexec : exec .barkSend s = .next (barkSend s) := rfl
  unfold barkSend at hexec
  simp only [hsent, Bool.not_true, Bool.false_eq_true, if_false] at hexec
  generalize hu : pairRefresh (onPair (fun x => { x with watchdogOk := true }) s) = u at hexec
  have hwatch : watched u = watched (onPair (fun x => { x with watchdogOk := true }) s) := by rw [← hu, pairRefresh_watched]
  have hseq : u.pair.barkSeq = s.pair.barkSeq := congrArg Watched.barkSeq hwatch
  have hdog : u.pair.watchdogOk = true := congrArg Watched.watchdogOk hwatch
  have hlink : u.pair.linkUp = s.pair.linkUp := congrArg Watched.linkUp hwatch
  have hmode : u.mode = s.mode := by simp [← hu]
  have honly : emissionOnly s u := by simp [← hu, emissionOnly, plantUntouched]
  obtain ⟨hlen, hfirst, hcode, hnumber, hcrc⟩ := barkBytes_fields u
  rw [hmode] at hcode
  rw [hseq] at hnumber
  have hopen : (onPair (fun x => { x with barkSeq := x.barkSeq + 1 }) u).pair.linkUp = true := hlink.trans hup
  unfold segorSend at hexec
  rw [if_pos hopen] at hexec
  refine ⟨_, barkBytes u, hexec, by simp, hlen, hfirst, hcode, hnumber, hcrc, congrArg (· + 1) hseq, hdog, ?_⟩
  simpa [emissionOnly, plantUntouched, onPair] using honly

theorem hbPathSilent_marks (s : State) (hon : pairEnabled s = true) (hheard : s.pair.hbSilent = false) : ∃ t, exec .hbPathSilent s = .next t ∧
    t.pair.hbSilent = true ∧ t.pair.linkLost = s.pair.linkLost ∧ t.pair.own = s.pair.own ∧ emissionOnly s t := by
  have honly : emissionOnly s (pairRefresh (hbPathSilent s)) := by
    simp [hbPathSilent, hon, hheard, emissionOnly, plantUntouched]
  have hw : watched (pairRefresh (hbPathSilent s)) = watched (onPair (fun x => { x with hbSilent := true }) s) := by
    simp [hbPathSilent, hon, hheard]
  refine ⟨_, rfl, ?_⟩
  change (pairRefresh (hbPathSilent s)).pair.hbSilent = _ ∧ _
  generalize pairRefresh (hbPathSilent s) = t at hw honly ⊢
  exact ⟨congrArg Watched.hbSilent hw, congrArg Watched.linkLost hw, congrArg Watched.own hw, honly⟩

theorem barkPathSilent_marks (s : State) (hon : pairEnabled s = true) (hheard : s.pair.linkLost = false) : ∃ t, exec .barkPathSilent s = .next t ∧
    t.pair.linkLost = true ∧ t.pair.hbSilent = s.pair.hbSilent ∧ t.pair.own = s.pair.own ∧ emissionOnly s t := by
  have honly : emissionOnly s (pairRefresh (barkPathSilent s)) := by
    simp [barkPathSilent, hon, hheard, emissionOnly, plantUntouched]
  have hw : watched (pairRefresh (barkPathSilent s)) = watched (onPair (fun x => { x with linkLost := true }) s) := by
    simp [barkPathSilent, hon, hheard]
  refine ⟨_, rfl, ?_⟩
  change (pairRefresh (barkPathSilent s)).pair.linkLost = _ ∧ _
  generalize pairRefresh (barkPathSilent s) = t at hw honly ⊢
  exact ⟨congrArg Watched.linkLost hw, congrArg Watched.hbSilent hw, congrArg Watched.own hw, honly⟩

theorem hbPath_returns (s : State) (h : s.pair.hbSilent = true) : ∃ t, exec (.pairPathRestored 0) s = .next t ∧ t.pair.hbSilent = false ∧
    t.pair.linkLost = s.pair.linkLost ∧ t.pair.peerFailed = (s.pair.peerFailed && s.pair.linkLost) ∧ t.pair.own = s.pair.own ∧ emissionOnly s t := by
  refine ⟨_, rfl, ?_⟩
  have hw : watched (pairRefresh (pairPathRestored 0 s)) =
      watched (onPair (fun x => { x with hbSilent := false, peerFailed := x.peerFailed && x.linkLost }) s) := by
    simp only [pairPathRestored, h, if_true, pairRefresh_watched, tell_watched, Bool.not_true, Bool.false_eq_true, if_false, onPair]
    cases hl : s.pair.linkLost <;> simp [watched, hl]
  refine ⟨congrArg Watched.hbSilent hw, congrArg Watched.linkLost hw, congrArg Watched.peerFailed hw, congrArg Watched.own hw, ?_⟩
  simp only [pairPathRestored, h, if_true, Bool.not_true, Bool.false_eq_true, if_false]
  split <;> simp [emissionOnly, plantUntouched]

theorem barkPath_returns (s : State) (h : s.pair.linkLost = true) : ∃ t, exec (.pairPathRestored 1) s = .next t ∧ t.pair.linkLost = false ∧
    t.pair.hbSilent = s.pair.hbSilent ∧ t.pair.peerFailed = (s.pair.peerFailed && s.pair.hbSilent) ∧ t.pair.own = s.pair.own ∧ emissionOnly s t := by
  refine ⟨_, rfl, ?_⟩
  have hw : watched (pairRefresh (pairPathRestored 1 s)) =
      watched (onPair (fun x => { x with linkLost := false, peerFailed := x.peerFailed && x.hbSilent }) s) := by
    simp only [pairPathRestored, h, one_ne_zero, if_false, pairRefresh_watched, tell_watched, Bool.not_true, Bool.false_eq_true, onPair]
    cases hl : s.pair.hbSilent <;> simp [watched, hl]
  refine ⟨congrArg Watched.linkLost hw, congrArg Watched.hbSilent hw, congrArg Watched.peerFailed hw, congrArg Watched.own hw, ?_⟩
  simp only [pairPathRestored, h, one_ne_zero, if_false, Bool.not_true, Bool.false_eq_true]
  split <;> simp [emissionOnly, plantUntouched]

/-! ## A failed peer -/

/-- The pair's record of a peer declared failed (R478). -/
def peerLost (s : State) : State := onPair (fun x => { x with
  peerFailed := true, peer := x.peer.map fun b => { b with flags := b.flags &&& ~~~0x0004#16 } }) s

theorem peerFailed_declares (s : State) (hon : pairEnabled s = true) (hhb : s.pair.hbSilent = true) (hlink : s.pair.linkLost = true)
    (hnew : s.pair.peerFailed = false) : peerFailed s = autoTake 3 (tell 0x3003 (pairRole s) (bit s.pair.ilkHeld) 0 (peerLost s)) := by
  simp [peerFailed, hon, hhb, hlink, hnew]
  rfl

theorem peerFailed_active (s : State) (hon : pairEnabled s = true) (hhb : s.pair.hbSilent = true) (hlink : s.pair.linkLost = true)
    (hnew : s.pair.peerFailed = false) (hmode : s.mode.current ≠ .mirror) : ∃ t, exec .peerFailed s = .next t ∧ t.pair.peerFailed = true ∧
      peerReady t = false ∧ t.pair.own = s.pair.own ∧ t.pair.driving = s.pair.driving ∧ emissionOnly s t := by
  have hexec : exec .peerFailed s = .next (pairRefresh (tell 0x3003 (pairRole s) (bit s.pair.ilkHeld) 0 (peerLost s))) := by
    show Host.Outcome.next (pairRefresh (peerFailed s)) = _
    rw [peerFailed_declares s hon hhb hlink hnew, autoTake, if_neg (by simp [hmode, peerLost])]
  refine ⟨_, hexec, ?_⟩
  have hw : watched (pairRefresh (tell 0x3003 (pairRole s) (bit s.pair.ilkHeld) 0 (peerLost s))) = watched (peerLost s) := by simp
  have hpeer := congrArg Watched.peer hw
  refine ⟨congrArg Watched.peerFailed hw, ?_, congrArg Watched.own hw, congrArg Watched.driving hw, ?_⟩
  · show ((watched _).peer.map fun b => b.flags.getLsbD 2).getD false = false
    rw [hpeer]
    cases hp : s.pair.peer <;> simp [watched, peerLost, onPair, hp]
  · simp [emissionOnly, plantUntouched, peerLost]

/-- Whether ILK_N is held by the peer, the take that runs, and whether the peer has failed. -/
def taking (s : State) := (s.pair.ilkHeld, s.pair.taking, s.pair.cause, s.pair.peerFailed)

@[simp] theorem tell_taking (code : Nat) (a0 a1 a2 : Int) (s : State) : taking (tell code a0 a1 a2 s) = taking s :=
  tell_keep taking (by intros; rfl) code a0 a1 a2 s

@[simp] theorem startDriving_taking (s : State) : taking (startDriving s) = taking s := by
  unfold startDriving
  split <;> rfl

/-- A change to HANDOVER leaves the take as it is, and finds no peer on a line that none held. -/
theorem setMode_taking (n : Nat) (s : State) (hfree : s.pair.ilkHeld = false) : taking (setMode .handover n s) = taking s := by
  rw [setMode_obs taking .handover n s (fun _ _ => rfl) (fun o s => settle_keep taking (by intros; rfl) o s) (fun _ _ _ => rfl)
    (fun _ _ _ => by simp [taking]) (fun _ _ => rfl) (fun _ _ => by simp [taking]) (fun c a b d s => post_keep taking (by intros; rfl) c a b d s)]
  unfold leashed modeLeash
  dsimp only
  split
  · split
    · rfl
    · simp [taking, onSafety, stopDriving, onPair, onMode, hfree]
  · split
    · rw [← startDriving_taking s]
      simp [taking, onSafety, startDriving, onPair, onMode]
      split <;> simp
    · simp [taking, onSafety, stopDriving, onPair, onMode, hfree]

/-- A standby unit that finds ILK_N free takes: HANDOVER, with the take's cause. -/
theorem beginTake_takes (cause : Nat) (s : State) (hstill : s.mode.inProgress = none) (hfree : s.pair.ilkHeld = false) :
    (beginTake cause false false s).mode.current = .handover ∧
      taking (beginTake cause false false s) = (false, true, cause, s.pair.peerFailed) := by
  unfold beginTake
  simp only [interruptTransition, hstill]
  generalize hu : onPair _ s = u
  have hu' : taking u = (false, true, cause, s.pair.peerFailed) := by rw [← hu, ← hfree]; rfl
  generalize hv : tell 0x3004 _ _ _ (setMode .handover 17 u) = v
  have hv' : taking v = (false, true, cause, s.pair.peerFailed) := by
    rw [← hv, tell_taking, setMode_taking _ _ (congrArg Prod.fst hu'), hu']
  have hmode : v.mode.current = .handover := by simp [← hv]
  have hilk : v.pair.ilkHeld = false := congrArg Prod.fst hv'
  rw [if_neg (by simp [hilk])]
  split
  · refine ⟨by simp [hmode], ?_⟩
    unfold takeDrive
    rw [startDriving_taking, ← hv']
    rfl
  · exact ⟨hmode, hv'⟩

/-- PAIR_ENABLE takes effect with a bank. -/
theorem pairEnabled_tell (code : Nat) (a0 a1 a2 : Int) (s : State) : pairEnabled (tell code a0 a1 a2 s) = pairEnabled s := by
  have heffect : effectOf Pid.pairEnable = .atCommit := by decide
  simp [pairEnabled, paramBool, paramGet, heffect, globalBank]

theorem peerFailed_standby (s : State) (hon : pairEnabled s = true) (hhb : s.pair.hbSilent = true) (hlink : s.pair.linkLost = true)
    (hnew : s.pair.peerFailed = false) (hmode : s.mode.current = .mirror) (hstill : s.mode.inProgress = none) (hids : s.pair.idConflict = false)
    (hfree : s.pair.ilkHeld = false) : ∃ t,
      exec .peerFailed s = .next t ∧ t.pair.peerFailed = true ∧ t.mode.current = .handover ∧ t.pair.taking = true ∧ t.pair.cause = 3 ∧
      t.power = s.power ∧ t.clocks = s.clocks ∧ t.banks = s.banks ∧ t.memory = s.memory ∧ t.time = s.time := by
  generalize hu : tell 0x3003 (pairRole s) (bit s.pair.ilkHeld) 0 (peerLost s) = u
  have htake : taking u = (false, s.pair.taking, s.pair.cause, true) := by
    rw [← hu, tell_taking, ← hfree]
    rfl
  have hconf : u.pair.idConflict = false := by
    have hw : watched u = watched (peerLost s) := by rw [← hu, tell_watched]
    exact (congrArg Watched.idConflict hw).trans hids
  have hilk : u.pair.ilkHeld = false := congrArg Prod.fst htake
  have hmode' : u.mode = s.mode := by simp [← hu, peerLost]
  have hexec : exec .peerFailed s = .next (pairRefresh (beginTake 3 false false u)) := by
    show Host.Outcome.next (pairRefresh (peerFailed s)) = _
    have hpair : pairEnabled u = true := by rw [← hon, ← hu, pairEnabled_tell]; rfl
    rw [peerFailed_declares s hon hhb hlink hnew, hu, autoTake, if_pos (by simp [hmode', hmode, hpair, hconf, hilk])]
  obtain ⟨hhand, htaken⟩ := beginTake_takes 3 u (by rw [hmode', hstill]) hilk
  generalize hv : beginTake 3 false false u = v at hexec hhand htaken
  simp only [taking, Prod.mk.injEq] at htaken
  obtain ⟨-, htaken, hcause, hfailed⟩ := htaken
  have hw : watched (pairRefresh v) = watched v := pairRefresh_watched v
  have hfields : v.power = s.power ∧ v.clocks = s.clocks ∧ v.banks = s.banks ∧ v.memory = s.memory ∧ v.time = s.time := by
    simp [← hv, ← hu, peerLost]
  obtain ⟨hpower, hclocks, hbanks, hmemory, htime⟩ := hfields
  exact ⟨_, hexec, (congrArg Watched.peerFailed hw).trans (hfailed.trans (congrArg (·.2.2.2) htake)), by simpa using hhand,
    (congrArg Watched.taking hw).trans htaken, (congrArg Watched.cause hw).trans hcause, by simpa using hpower, by simpa using hclocks,
    by simpa using hbanks, by simpa using hmemory, by simpa using htime⟩

/-! ## Barks received -/

/-- The unit's record of a bark as it takes it (R474, R478). -/
def barkNoted (b : Bark) (s : State) : State := onPair (fun x => { x with
  peer := some b, echo := b.tx, rx := selectedNet s, busyBark := if b.flags.getLsbD 6 || b.flags.getLsbD 3 then some s.ticks else x.busyBark }) s

theorem idConflict_watched (unitId : Bool) (s : State) :
    watched (idConflict unitId s) = watched (onPair (fun x => { x with idConflict := unitId == s.straps.unitId }) s) := by
  unfold idConflict
  dsimp only
  split
  · exact tell_watched _ _ _ _ _
  · rfl

theorem barkReceived_active (s : State) (b : Bark) (hon : pairEnabled s = true) (hup : s.pair.linkUp = true) (hruns : scribeRuns s = true)
    (hmode : s.mode.current ≠ .mirror) (hstep : s.pair.step ≠ .stopping) : ∃ t, exec (.barkReceived b) s = .next t ∧ t.pair.peer = some b ∧
      t.pair.echo = b.tx ∧ t.pair.rx = selectedNet s ∧ t.pair.idConflict = (b.unitId == s.straps.unitId) ∧ t.pair.timeOffset = s.pair.timeOffset ∧
      t.pair.own = s.pair.own ∧ emissionOnly s t := by
  generalize hu : idConflict b.unitId (barkNoted b s) = u
  have hwu : watched u = _ := hu ▸ idConflict_watched b.unitId (barkNoted b s)
  have hmode' : u.mode = s.mode := by simp [← hu, barkNoted]
  have hstep' : u.pair.step = s.pair.step := congrArg Watched.step hwu
  have hexec : exec (.barkReceived b) s = .next (pairRefresh u) := by
    show Host.Outcome.next (pairRefresh (barkReceived b s)) = _
    unfold barkReceived
    simp only [hon, hup, hruns, Bool.not_true, Bool.or_self, Bool.false_eq_true, if_false]
    unfold barkNoted at hu
    rw [hu]
    simp [hmode', hmode, hstep', hstep, autoTake]
  have honly : emissionOnly s (pairRefresh u) := by simp [← hu, emissionOnly, plantUntouched, barkNoted]
  have hw : watched (pairRefresh u) = _ := (pairRefresh_watched u).trans hwu
  generalize pairRefresh u = t at hexec hw honly
  exact ⟨t, hexec, congrArg Watched.peer hw, congrArg Watched.echo hw, congrArg Watched.rx hw, congrArg Watched.idConflict hw,
    congrArg Watched.timeOffset hw, congrArg Watched.own hw, honly⟩

/-- The standby's clock offset and the correction that follows from it (R494). -/
def barkTimed (d correction : Int) (s : State) : State := onPair (fun x => { x with timeOffset := d, steer := correction }) s

theorem barkReceived_mirror (s : State) (b : Bark) (hon : pairEnabled s = true) (hup : s.pair.linkUp = true) (hmode : s.mode.current = .mirror)
    (hstep : s.pair.step = .idle) (hkeep : b.flags.getLsbD 4 = false) :
    ∃ correction, barkReceived b s = barkTimed (barkOffset b (selectedNet s)) correction (idConflict b.unitId (barkNoted b s)) := by
  have hruns : scribeRuns s = true := by simp [scribeRuns, hmode]
  have hmirror : ((idConflict b.unitId (barkNoted b s)).mode.current == .mirror) = true := by simp [barkNoted, hmode]
  have hidle : (idConflict b.unitId (barkNoted b s)).pair.step = .idle :=
    (congrArg Watched.step (idConflict_watched b.unitId (barkNoted b s))).trans hstep
  unfold barkNoted at hmirror hidle
  unfold barkReceived barkNoted barkTimed
  rw [if_neg (by simp [hon, hup, hruns])]
  dsimp only
  rw [if_pos hmirror, if_neg (by rw [hkeep]; decide), if_neg (by simp [onPair, hstep])]
  exact ⟨_, rfl⟩

theorem barkReceived_standby (s : State) (b : Bark) (hon : pairEnabled s = true) (hup : s.pair.linkUp = true) (hmode : s.mode.current = .mirror)
    (hstep : s.pair.step = .idle) (hkeep : b.flags.getLsbD 4 = false) : ∃ t, exec (.barkReceived b) s = .next t ∧ t.pair.peer = some b ∧
      t.pair.timeOffset = barkOffset b (selectedNet s) ∧ emissionOnly s t := by
  have hexec : exec (.barkReceived b) s = .next (pairRefresh (barkReceived b s)) := rfl
  obtain ⟨correction, heq⟩ := barkReceived_mirror s b hon hup hmode hstep hkeep
  rw [heq] at hexec
  obtain ⟨d, hd⟩ : ∃ d, barkOffset b (selectedNet s) = d := ⟨_, rfl⟩
  rw [hd] at hexec ⊢
  have hwu := idConflict_watched b.unitId (barkNoted b s)
  have honly : emissionOnly s (pairRefresh (barkTimed d correction (idConflict b.unitId (barkNoted b s)))) := by
    simp [emissionOnly, plantUntouched, barkTimed, barkNoted]
  generalize idConflict b.unitId (barkNoted b s) = u at hexec honly hwu
  have hw : watched (pairRefresh (barkTimed d correction u)) = watched (barkTimed d correction u) := pairRefresh_watched _
  generalize pairRefresh (barkTimed d correction u) = t at hexec hw honly
  exact ⟨t, hexec, (congrArg Watched.peer hw).trans (congrArg Watched.peer hwu), congrArg Watched.timeOffset hw, honly⟩

/-- Settles O26: each command of the watch, seen through the pair's record of its peer; the refresh of readiness that ends every one
leaves that record. -/
theorem peerIsWatched : Obligations.PeerIsWatched := by
  unfold Obligations.PeerIsWatched
  exact ⟨barkSend_bytes, fun _ => rfl, hbPathSilent_marks, barkPathSilent_marks, hbPath_returns, barkPath_returns, peerFailed_active,
    peerFailed_standby, fun _ _ => rfl, barkReceived_active, barkReceived_standby⟩

end Sys2Proof.Machine

namespace Sys2Proof.Machine

/-! ## Causes of a reset -/

theorem resetFor_running (cause : BitVec 6) (held : Bool) (s : State) (haon : s.power.aon = true) (hmode : s.mode.current ≠ .reset) :
    resetFor cause held s = deviceReset held (onPower (fun x => { x with resetCause := x.resetCause ||| cause }) s) := by
  unfold resetFor
  rw [if_neg (by simp [haon])]
  exact if_neg (by simpa [onPower] using hmode)

/-- Settles O3: each cause records its bit and runs the device's reset. -/
theorem resetCausesEnterReset : Obligations.ResetCausesEnterReset := by
  unfold Obligations.ResetCausesEnterReset
  intro s haon hmode
  have hreset (cause : BitVec 6) (held : Bool) (u : State) (hu : u.power.aon = true) (hm : u.mode.current ≠ .reset) := resetFor_running cause held u hu hm
  refine ⟨⟨_, rfl, ?_⟩, ⟨_, rfl, ?_⟩, ⟨_, rfl, ?_⟩, ⟨_, rfl, ?_⟩⟩
  · rw [hreset 0x04 false (onPins (fun x => { x with resetN := false }) s) haon hmode]
    exact ⟨deviceReset_wasReset _ _, rfl, rfl, rfl⟩
  · rw [hreset 0x02 false (onPins (fun x => { x with pwrgd := false }) s) haon hmode]
    exact ⟨deviceReset_wasReset _ _, rfl, rfl, rfl⟩
  · rw [show railUndervoltage .core s = _ from hreset 0x08 true (onPower (fun x => { x with coreOk := false }) s) haon hmode]
    exact ⟨deviceReset_wasReset _ _, rfl, rfl, rfl, rfl⟩
  · rw [if_neg (by simpa using hmode), hreset 0x10 true s haon hmode]
    exact ⟨deviceReset_wasReset _ _, rfl, rfl, rfl⟩

/-! ## Power and release -/

theorem emissionOff_of_held {t : State} (h : heldLow t = true) : emissionOff t := fun p => by simp [emitEn, swsel, h]

/-- An entry cut off while it is programmed touches the log alone. -/
theorem logCut_kept (s : State) : (logCut s).banks = s.banks ∧ (logCut s).journal = s.journal ∧ (logCut s).firmware = s.firmware ∧
    (logCut s).pending = s.pending := by
  unfold logCut
  split
  · exact ⟨rfl, rfl, rfl, rfl⟩
  · dsimp only
    split <;> simp [drawFree]

/-- Settles O4: the cold state keeps what flash holds; the release of reset moves the mode, the reset balls and the held time. -/
theorem powerUpAndRelease : Obligations.PowerUpAndRelease := by
  unfold Obligations.PowerUpAndRelease
  refine ⟨fun s feed seq haon => ⟨_, rfl, ?_⟩, fun s => ⟨_, rfl, ?_⟩, fun s hmode haon hcore hrails => ⟨_, rfl, ?_⟩,
    fun s levels hboot hnew => ?_, fun s levels hheld => ?_⟩
  · unfold powerOn
    rw [if_neg (by simp [haon])]
    exact ⟨rfl, rfl, rfl, rfl, emissionOff_of_held rfl, rfl, rfl, rfl, rfl, rfl, rfl⟩
  · obtain ⟨hbanks, hjournal, hfirmware, hpending⟩ := logCut_kept s
    have hactive : (logCut s).banks.active = s.banks.active := by rw [hbanks]
    have hslots : (logCut s).firmware.slots = s.firmware.slots := by rw [hfirmware]
    exact ⟨rfl, rfl, rfl, rfl, emissionOff_of_held rfl, rfl, hactive, hjournal, hslots, rfl, hpending⟩
  · unfold resetRelease
    rw [if_neg (by simp [hmode, haon, hcore, hrails])]
    exact ⟨rfl, rfl, emissionOff_of_held rfl⟩
  · show Host.Outcome.next _ = _
    rw [if_neg (by simp [onPins, hboot, hnew])]
    rfl
  · show Host.Outcome.next _ = _
    rw [if_pos (by simpa [onPins] using hheld)]
    rfl

/-! ## Rails -/

theorem railUndervoltage_acts (s : State) (r : Rail) (b : Nat) (hbit : railBit r = some b) (hmode : s.mode.current ≠ .reset) (haon : s.power.aon = true) :
    exec (.railUndervoltage r) s = .next (railAction r (tell 0x0201 b 0 0 { s with power := { s.power with
      railStatus := s.power.railStatus &&& ~~~(1#13 <<< b), railStable := s.power.railStable &&& ~~~(1#13 <<< b) } })) := by
  show Host.Outcome.next (railUndervoltage r s) = _
  unfold railUndervoltage
  rw [hbit]
  dsimp only
  rw [if_neg (by simp [onPower, hmode, haon])]
  rfl

theorem portOut_dark (s : State) (p : Nat) (h : vecRead s.power.portOos p true = false) (hp : p < 4) :
    vecRead (portOut p s).power.portOos p false = true ∧ emitEn (portOut p s) p = false ∧ swsel (portOut p s) p = false ∧
    (portOut p s).mode.current = s.mode.current := by
  have hpower : (portOut p s).power.portOos = vecUpdate s.power.portOos p fun _ => true := by
    unfold portOut portTermFalls
    rw [if_neg (by simp [h])]
    split <;> simp [withdrawPort, onPower]
  have hout (d : Bool) : vecRead (portOut p s).power.portOos p d = true := by
    rw [hpower, vecRead_vecUpdate _ _ _ hp]
  have hoff : swsel (portOut p s) p = false := by simp [swsel, portPermit, hout]
  refine ⟨hout false, by simp [emitEn, hoff], hoff, ?_⟩
  unfold portOut portTermFalls
  rw [if_neg (by simp [h])]
  split <;> simp [withdrawPort]

theorem railRestored_running (s : State) (r : Rail) (b : Nat) (hbit : railBit r = some b) (hmode : s.mode.current ≠ .reset)
    (hfault : ¬(r = .io33 ∧ s.mode.faultCode = 3)) : exec (.railRestored r) s = .next { s with power := { s.power with
      railStatus := s.power.railStatus ||| (1#13 <<< b), railStable := s.power.railStable ||| (1#13 <<< b) } } := by
  show Host.Outcome.next (railRestored r s) = _
  unfold railRestored
  rw [hbit]
  dsimp only
  rw [if_neg (c := (s.mode.current == .reset && _ && _) = true) (by simp [hmode]), if_neg (by simpa [onPower] using hfault)]
  rfl

theorem railRestored_sequence (s : State) (r : Rail) (b : Nat) (hbit : railBit r = some b) (hfault : s.mode.faultCode = 0)
    (hmode : s.mode.current = .reset) : ∃ t,
    exec (.railRestored r) s = .next t ∧ t.power.railStatus = s.power.railStatus ||| (1#13 <<< b) ∧
    t.power.seqViolation = (s.power.seqViolation || (lateRail r && !earlierRails s)) ∧ t = { s with power := t.power } := by
  refine ⟨_, rfl, ?_⟩
  show (railRestored r s).power.railStatus = _ ∧ (railRestored r s).power.seqViolation = _ ∧ railRestored r s = _
  unfold railRestored
  rw [hbit]
  dsimp only
  rw [if_neg (by split <;> simp [onPower, hfault])]
  cases hlate : lateRail r && !earlierRails s <;> simp [onPower, hmode, hlate]

/-- Settles O5: a rail's bits move alone; `port_oos` is a conjunct of the port's permit, so a fallen rail ends its emission. -/
theorem railsAndStrapWatch : Obligations.RailsAndStrapWatch := by
  unfold Obligations.RailsAndStrapWatch
  refine ⟨railUndervoltage_acts, portOut_dark, fun s => ⟨rfl, rfl, rfl, fun _ => rfl, fun _ => ⟨rfl, rfl⟩⟩, railRestored_running, fun _ => rfl,
    fun s r b hbit hmode hfault => railRestored_sequence s r b hbit hfault hmode, fun s hfault => ⟨_, rfl, ?_⟩, fun s level hruns hdiff hnew => ?_, fun s level hruns hdiff hlogged => ?_⟩
  · show (railRestored .io33 s).mode.faultPresent = false ∧ (railRestored .io33 s).power.railStatus = _
    unfold railRestored
    simp only [railBit]
    split <;> simp [onPower, onMode, hfault]
  · refine ⟨_, ?_, rfl⟩
    show Host.Outcome.next (unitIdSample level s) = _
    unfold unitIdSample
    rw [if_neg (by simpa [onPins, scribeRuns] using hruns), if_neg (by simpa [onPins] using hdiff), if_neg (by simpa [onPins] using hnew)]
    rfl
  · show Host.Outcome.next (unitIdSample level s) = _
    unfold unitIdSample
    rw [if_neg (by simpa [onPins, scribeRuns] using hruns), if_neg (by simpa [onPins] using hdiff), if_pos (by simpa [onPins] using hlogged)]
    rfl
end Sys2Proof.Machine

namespace Sys2Proof.Machine

theorem canPost_of_runs {s : State} (h : scribeRuns s = true) : canPost s = true := by simp [canPost, h]

theorem tell_of_runs {s : State} (h : scribeRuns s = true) (code : Nat) (a b c : Int) : tell code a b c s = post code a b c s :=
  if_pos (canPost_of_runs h)

/-! ## References -/

theorem refForced_onClk (f : Clocks → Clocks) (s : State) (src : Fin 2) : refForced (onClk f s) src = refForced s src := rfl

theorem refAbsent_of_present (s : State) (src : Fin 2) (h : (if src = 0 then s.clocks.refinPresent else s.clocks.ocxoPresent) = true) (u : State)
    (hu : u = onClk (fun c => if src = 0 then { c with refinPresent := false, refinHz := 0 } else { c with ocxoPresent := false, ocxoHz := 0 }) s) :
    exec (.refAbsent src) s = .next (refReact (if refForced u src then tell 0x0302 (src.val + 1) 0 0 u else u)) := by
  show Host.Outcome.next (refAbsent src s) = _
  unfold refAbsent
  rw [if_neg (by simp [h]), hu]

/-- The reaction to the references moves the wanted switch alone among the clocks. -/
theorem refReact_clocks (s : State) : ∃ w, (refReact s).clocks = { s.clocks with switchTo := w } := by
  unfold refReact
  dsimp only
  split
  · exact ⟨_, rfl⟩
  · split
    · exact ⟨_, rfl⟩
    · split
      · exact ⟨_, tdcGrade_clocks s⟩
      · exact ⟨_, rfl⟩

/-- Settles O7: what is present or warm changes the clocks alone and the reaction follows; the reaction to a failed crystal ends in the
latched fault. -/
theorem referencesSwitch : Obligations.ReferencesSwitch := by
  unfold Obligations.ReferencesSwitch
  refine ⟨fun s src hz25 hmode => ?_, fun s hin hforce => ?_, fun s hin hforce hruns => ?_, fun s hin hforce => ?_, fun s warm => rfl,
    fun s hruns hlock hidle hwant => ?_, fun s r hsw hruns => ⟨_, rfl, ?_⟩, fun s hreset hfault => ⟨_, rfl, ?_⟩⟩
  · refine ⟨_, ?_, rfl⟩
    show Host.Outcome.next _ = _
    rw [if_neg (by simpa using hmode)]
    unfold refPresent onClk
    congr 3
  · rw [refAbsent_of_present s 0 hin _ rfl, if_neg (by rw [refForced_onClk]; simp [hforce])]
    rfl
  · rw [refAbsent_of_present s 0 hin _ rfl, if_pos (by rw [refForced_onClk]; exact hforce), tell_of_runs (s := onClk _ s) hruns]
    rfl
  · rw [refAbsent_of_present s 1 hin _ rfl, if_neg (by rw [refForced_onClk]; simp [hforce])]
    rfl
  · unfold refReact
    rw [if_neg (by simp [hruns, hlock])]
    simp only [hidle]
    rw [if_neg (by simpa using hwant)]
    rfl
  · unfold refSwitch
    simp only [hsw]
    rw [tell_of_runs (by simpa [scribeRuns, onClk] using hruns)]
    refine ⟨by simp [onClk], by simp [onClk], by simp [onClk], by simp [onClk], ?_⟩
    rw [tdcGrade_evq, post_seq]
    simp [onClk]
  · have hstill : (refReact (onClk (fun c => { c with xtalFailed := true }) s)).mode = s.mode := by simp [onClk]
    obtain ⟨hlatched, hcode, -⟩ := faultIsLatched.1 _ 1 true (hstill ▸ hreset) (hstill ▸ hfault)
    rw [if_neg (by simp [hfault])]
    obtain ⟨w, hclocks⟩ := refReact_clocks (onClk (fun c => { c with xtalFailed := true }) s)
    exact ⟨hlatched, hcode, by rw [enterFault_clocks, hclocks]; rfl⟩

/-! ## PLLs -/

theorem dramOffline_notOnline (a : Fin 2) (cause : Nat) (s : State) : dramOnline (dramOffline a cause s) a = false := by
  by_cases h : (dramOf s a).state = .unfitted ∨ (dramOf s a).state = .offline
  · unfold dramOffline
    rw [if_pos (by simpa using h)]
    unfold dramOnline
    rcases h with h | h <;> simp [h]
  · obtain ⟨hfit, hoff⟩ := not_or.1 h
    simp [dramOnline, dramOf_of_ports (dramOffline_dram a cause s hfit hoff), offlinePort]

theorem pllReturns_clocks (s : State) : (pllReturns s).clocks = s.clocks := by
  unfold pllReturns
  split
  · rfl
  · split
    · simp
    · rfl

theorem pllReturns_mode (s : State) : (pllReturns s).mode = s.mode := by
  unfold pllReturns
  split
  · rfl
  · split
    · simp
    · rfl

/-- The links but for what an event itself sends: datagrams, interrupts, the wake and the console's line. -/
def linkState (s : State) : Links := { s.links with eth := Vector.replicate 2 {}, msix := 0, peWake := false, console := [] }

/-- The links but for the console's line. -/
def quietLinks (s : State) : Links := { s.links with console := [] }

theorem logWrite_quietLinks (e : LogEntry) (s : State) : quietLinks (logWrite e s) = quietLinks s := by
  unfold logWrite
  dsimp only
  split <;> rfl

theorem logBudgeted_quietLinks (e : LogEntry) (s : State) : quietLinks (logBudgeted e s) = quietLinks s := by
  unfold logBudgeted
  dsimp only
  split
  · exact logWrite_quietLinks _ _
  split
  · rfl
  split
  · exact logWrite_quietLinks _ _
  split
  · exact logWrite_quietLinks _ _
  · exact (logWrite_quietLinks _ _).trans (logWrite_quietLinks _ _)

theorem logPost_quietLinks (e : LogEntry) (s : State) : quietLinks (logPost e s) = quietLinks s := by
  unfold logPost
  dsimp only
  split
  · exact (forEach_keep quietLinks _ (fun e u => logBudgeted_quietLinks e u) _ _).trans rfl
  · rfl

@[simp] theorem post_linkState (code : Nat) (a b c : Int) (s : State) : linkState (post code a b c s) = linkState s := by
  unfold post
  refine (forEach_keep linkState _ (fun t u => eventSend_keep linkState (by intros; rfl) _ t u) _ _).trans ?_
  refine (congrArg (fun l : Links => { l with eth := Vector.replicate 2 {}, msix := 0, peWake := false }) (logPost_quietLinks _ _)).trans ?_
  exact evqWrite_keep linkState (by intros; rfl) _ _

@[simp] theorem tell_linkState (code : Nat) (a b c : Int) (s : State) : linkState (tell code a b c s) = linkState s := by
  unfold tell
  split
  · exact post_linkState _ _ _ _ _
  · rfl

/-- Settles O8: a loss clears its bit and sets the sticky one; what follows (cut pulses, holdover, a port offline, the link down) leaves the
clocks and the mode. -/
theorem pllsLoseLock : Obligations.PllsLoseLock := by
  unfold Obligations.PllsLoseLock
  refine ⟨fun s hidle hlocked => ⟨_, rfl, ?_⟩, fun s hreset hboot hlost => ⟨_, rfl, ?_⟩, fun s hlost hreset hfault => ⟨_, rfl, ?_⟩,
    fun s a hmode hlocked => ⟨_, rfl, ?_⟩, fun s hmode hlocked => ⟨_, rfl, ?_⟩, fun s temp hhot hreset hfault => ⟨_, rfl, ?_⟩⟩
  · unfold corePllUnlock
    rw [if_neg (by simp [hidle, hlocked])]
    have hcut (old u : State) : (forEach allPorts (cutPort (inLead old)) u).clocks = u.clocks ∧ (forEach allPorts (cutPort (inLead old)) u).mode = u.mode ∧
        (forEach allPorts (cutPort (inLead old)) u).power = u.power ∧ (forEach allPorts (cutPort (inLead old)) u).banks = u.banks :=
      ⟨forEach_keep (·.clocks) _ (fun _ _ => by simp) _ _, forEach_keep (·.mode) _ (fun _ _ => by simp) _ _,
        forEach_keep (·.power) _ (fun _ _ => by simp) _ _, forEach_keep (·.banks) _ (fun _ _ => by simp) _ _⟩
    dsimp only
    split <;> simp [hcut, pllLost, onClk]
  · unfold corePllRelock
    have hruns : scribeRuns s = true := by simp [scribeRuns, hreset, hboot]
    rw [if_neg (by simp [hreset, hlost])]
    simp only [hruns, if_true]
    generalize hu : onClk _ s = u
    generalize hv : (if (u.mode.faultCode == 2) = true then onMode _ u else u) = v
    have hclocks : v.clocks = { s.clocks with locked := s.clocks.locked ||| 1#5, corePllLost := false } := by
      rw [← hv, ← hu]
      split <;> rfl
    have hmode : v.mode.current = s.mode.current := by
      rw [← hv, ← hu]
      split <;> rfl
    have hruns' : scribeRuns v = true := by rw [← hruns, scribeRuns, hmode]; rfl
    rw [if_pos hruns']
    obtain ⟨w, hreact⟩ := refReact_clocks (pllReturns v)
    rw [hreact, pllReturns_clocks, hclocks]
    exact ⟨rfl, rfl, rfl, by rw [refReact_mode, pllReturns_mode, hmode]⟩
  · rw [if_pos hlost]
    obtain ⟨hlatched, hcode, hpresent, -⟩ := faultIsLatched.1 s 2 true hreset hfault
    exact ⟨hlatched, hcode, hpresent⟩
  · rw [if_neg (by simp [hmode, hlocked])]
    refine ⟨by simp [pllLost, onClk], dramOffline_notOnline _ _ _, by simp⟩
  · rw [if_neg (by simp [hmode, hlocked])]
    refine ⟨by simp [pllLost, onClk], ?_, by simp, by simp⟩
    unfold pcieDown
    split
    · simp_all
    · exact congrArg Links.pcieUp (tell_linkState _ _ _ _ _)
  · rw [if_pos hhot]
    have hmode : (setTemp temp s).mode.current = s.mode.current := by
      unfold setTemp
      dsimp only
      split <;> rfl
    have htemp : (setTemp temp s).calib.temp = temp := by
      unfold setTemp
      dsimp only
      split <;> rfl
    obtain ⟨hlatched, hcode, -⟩ := faultIsLatched.1 (setTemp temp s) 8 true (hmode ▸ hreset) (hmode ▸ hfault)
    exact ⟨hlatched, hcode, by rw [enterFault_calib, htemp]⟩
end Sys2Proof.Machine

namespace Sys2Proof.Machine

/-- A session on the SPI page that follows the events. -/
def spiSession : Session := { version := 0x0302, ident := 1, subscribed := true }

/-- One item staged for queue 0, which goes out over PCIe, while the SPI page's session follows the events. -/
def pcieStaged : State := { State.reset with
  params := Store.write paramDefault State.reset.params (paramKey Pid.hostQueueLink 0) 1,
  scribe := { State.reset.scribe with transports := State.reset.scribe.transports.set 1 { session := some spiSession } },
  links := { State.reset.links with queues := State.reset.links.queues.set 0 { staged := [(0, 0, [])] } } }

/-- QUEUE_DROP of the item the reset discards goes to that session as an event. -/
theorem pcieStaged_event : (match exec .pcieFlr pcieStaged with
    | .next t => (transportOf t 1).session.map (·.eventSeq)
    | _ => none) = some 1 := by decide +kernel

/-- Refutes O22: a reset of the PCIe transport that discards staged items posts QUEUE_DROP, and the event's message takes the next event
sequence of a subscribed session of another transport. -/
theorem not_pcieEndpoint : ¬ Obligations.PcieEndpoint := by
  unfold Obligations.PcieEndpoint
  rintro ⟨hreset, -⟩
  obtain ⟨t, ht, -, -, -, -, -, -, hspi, -⟩ := hreset pcieStaged .pcieFlr (.inr (.inr rfl))
  have hevent := pcieStaged_event
  rw [ht] at hevent
  have hkept : (transportOf pcieStaged 1).session.map (·.eventSeq) = some 0 := by decide +kernel
  simp only [hspi, hkept] at hevent
  simp at hevent
end Sys2Proof.Machine

namespace Sys2Proof.Machine

/-! ## Ethernet -/

/-- What of a port an event's datagram cannot move: everything but the waiting answers. -/
def ethLine (s : State) (n : Nat) : EthPort := { ethOf s n with txOxras := [] }

theorem ethLine_of_links {s t : State} (h : t.links.eth = s.links.eth) (n : Nat) : ethLine t n = ethLine s n := by
  simp only [ethLine, ethOf, h]

theorem sendCarrier_ethLine (t dest port : Nat) (m : List Byte) (s : State) (n : Nat) : ethLine (sendCarrier t dest port m s) n = ethLine s n := by
  unfold sendCarrier
  split
  · by_cases h : n = port
    · subst h
      by_cases hn : n < 2
      · simp only [ethLine, ethOf, onEth, vecRead_vecUpdate _ _ _ hn]
      · simp [ethLine, ethOf, onEth, vecUpdate, hn]
    · unfold ethLine
      rw [ethOf_onEth_other _ _ h]
  · exact ethLine_of_links (segorSend_keep (·.links.eth) (by intros; rfl) _ _ _) n
  · rfl

theorem post_ethLine (code : Nat) (a b c : Int) (s : State) (n : Nat) : ethLine (post code a b c s) n = ethLine s n := by
  unfold post
  refine (forEach_keep (ethLine · n) _ (fun t u => ?_) _ _).trans ?_
  · unfold eventSend
    split
    · dsimp only
      split
      · exact (sendCarrier_ethLine _ _ _ _ _ _).trans rfl
      · rfl
    · rfl
  · refine ethLine_of_links ?_ n
    refine (congrArg Links.eth (logPost_quietLinks _ _)).trans ?_
    exact evqWrite_keep (·.links.eth) (by intros; rfl) _ _

theorem tell_ethLine (code : Nat) (a b c : Int) (s : State) (n : Nat) : ethLine (tell code a b c s) n = ethLine s n := by
  unfold tell
  split
  · exact post_ethLine _ _ _ _ _ n
  · rfl

theorem dropItems_ethLine (q n cause : Nat) (s : State) (k : Nat) : ethLine (dropItems q n cause s) k = ethLine s k := by
  unfold dropItems
  split
  · rfl
  · dsimp only
    split
    · exact post_ethLine _ _ _ _ _ k
    · rfl

theorem discardStaged_ethLine (q cause : Nat) (s : State) (k : Nat) : ethLine (discardStaged q cause s) k = ethLine s k := by
  unfold discardStaged
  rw [dropItems_ethLine]
  exact ethLine_of_links rfl k

/-- A port whose link has fallen, but for the answers that still reach it. -/
def ethFallen (e : EthPort) : EthPort := { e with linkUp := false, anComplete := false, txPtp := [], txOxras := [], txQueue := [] }

theorem ethDown_line (n : Fin 2) (s : State) (h : (ethOf s n).linkUp = true) : ethLine (ethDown n s) n = ethFallen (ethOf s n) := by
  unfold ethDown
  rw [if_neg (by simp [h])]
  dsimp only
  rw [tell_ethLine]
  refine (forEach_keep (ethLine · n) _ (fun q u => discardStaged_ethLine _ _ _ _) _ _).trans ?_
  refine (forEach_keep (ethLine · n) _ (fun d u => dropItems_ethLine _ _ _ _ _) _ _).trans ?_
  unfold ethLine
  rw [ethOf_onEth]
  rfl

theorem ethLink_up (s : State) (n : Fin 2) (hheld : ethHeld s n = false) (hdown : (ethOf s n).linkUp = false) : ∃ t, exec (.ethLink n true) s = .next t ∧
    (ethOf t n).linkUp = true ∧ (ethOf t n).rate1g = ethRate1g s n ∧ t.mode = s.mode ∧ t.ports = s.ports ∧ t.time = s.time := by
  refine ⟨_, rfl, ?_⟩
  unfold ethLink
  rw [if_neg (by decide), if_neg (by simp [hheld, hdown])]
  dsimp only
  generalize ht : tell _ _ _ _ _ = t
  have hline : ethLine t n = { ethOf s n with linkUp := true, rate1g := ethRate1g s n, anComplete := ethRate1g s n, txOxras := [] } := by
    rw [← ht, tell_ethLine]
    exact congrArg (fun e : EthPort => { e with txOxras := [] }) (ethOf_onEth n _ s)
  exact ⟨congrArg EthPort.linkUp hline, congrArg EthPort.rate1g hline, by simp [← ht], by simp [← ht], by simp [← ht]⟩

theorem ethLink_down (s : State) (n : Fin 2) (hup : (ethOf s n).linkUp = true) : ∃ t, exec (.ethLink n false) s = .next t ∧
    (ethOf t n).linkUp = false ∧ (ethOf t n).txQueue = [] ∧ (ethOf t n).txPtp = [] ∧ t.mode = s.mode ∧ t.time = s.time := by
  have hexec : exec (.ethLink n false) s = .next (ethDown n s) := rfl
  have hline := ethDown_line n s hup
  have hmode : (ethDown n s).mode = s.mode := by simp
  have htime : (ethDown n s).time = s.time := by simp
  generalize ethDown n s = t at hexec hline hmode htime
  exact ⟨t, hexec, congrArg EthPort.linkUp hline, congrArg EthPort.txQueue hline, congrArg EthPort.txPtp hline, hmode, htime⟩

/-- Settles O23: the line's own state of a port is moved by its link alone, not by the events and drops that follow. -/
theorem ethernetPorts : Obligations.EthernetPorts := by
  unfold Obligations.EthernetPorts
  have hopen {s : State} {n : Fin 2} (hup : (ethOf s n).linkUp = true) (f : EthFrame) :
      exec (.ethFrameRx n f) s = .next (ethFrameRx n f s) ∧ ¬ (!(ethOf s n).linkUp) = true := ⟨rfl, by simp [hup]⟩
  refine ⟨ethLink_up, ethLink_down, fun s n hup => ?_, fun s n hup => ?_, fun s n source port v6 payload hup hon hport => ⟨fun hready => ?_, fun hready => ?_⟩⟩
  · rw [(hopen hup .other).1, ethFrameRx, if_neg (hopen hup .other).2]
    rfl
  · rw [(hopen hup .badFcs).1, ethFrameRx, if_neg (hopen hup .badFcs).2]
    rfl
  · rw [(hopen hup _).1, ethFrameRx, if_neg (hopen hup .badFcs).2]
    rw [if_neg (by simp [hon, hport]), if_neg (by simp [hready])]
  · rw [(hopen hup _).1, ethFrameRx, if_neg (hopen hup .badFcs).2]
    rw [if_neg (by simp [hon, hport]), if_pos (by simp [hready])]

/-! ## SPI and SMBus -/

theorem readWord_identity (t : Nat) (s : State) : readWord t 0 s = onPage t (fun g => { g with readData := 0x46400B31 }) s := by
  have hlive : liveHigh s t 0 = none := by simp [liveHigh, snapshotLows, snapshotHighs]
  unfold readWord
  rw [if_neg (by decide), hlive]
  rfl

/-- Settles O24: the read of the identity word and the write of SCRATCH through the page's registers; each SMBus command's words as the
model computes them. -/
theorem spiAndSmbusTargets : Obligations.SpiAndSmbusTargets := by
  unfold Obligations.SpiAndSmbusTargets
  refine ⟨fun s d hserve hon => ⟨_, rfl, ?_⟩, fun s b0 b1 b2 b3 hserve hon => ⟨_, rfl, ?_⟩, fun s a hserve ha => ?_, fun s a data ok ha => ?_, fun _ => rfl,
    fun s hserve => ?_, fun s data hserve hlen hbit => ?_, fun s data ok hserve hbad => ?_⟩
  · unfold spiTransaction
    rw [if_neg (by simp [hserve])]
    have hword : spiRead 4 0 true s = (leBytes 4 0x46400B31, onPage 1 (fun g => { g with readData := 0x46400B31 }) s) := by
      simp [spiRead, readWord_identity, leBytes]
      have hpage : (pageOf (onPage 1 (fun g => { g with readData := 1178602289#32 }) s) 1).readData = 1178602289#32 :=
        congrArg PageSide.readData (pageOf_onPage 1 _ s)
      rw [hpage]
      decide
    simp [hon, hword]
    simp [plantUntouched, onLinks]
  · unfold spiTransaction
    rw [if_neg (by simp [hserve])]
    simp [hon, spiWrite]
    have hlt := leNat_lt [b0, b1, b2, b3]
    exact ⟨Nat.mod_eq_of_lt hlt, by simp [plantUntouched, onLinks, writeWord]⟩
  · subst ha
    have hmine : smbMine s (smbAddress s) = true := by simp [smbMine, hserve]
    have hread (words : List Nat) : smbRead (smbAddress s) words s = { s with links := { s.links with smbData := (words.map (leBytes 4)).flatten } } := if_pos hmine
    exact ⟨congrArg Host.Outcome.next (hread _), congrArg Host.Outcome.next (hread _), congrArg Host.Outcome.next (hread _),
      congrArg Host.Outcome.next (hread _), congrArg Host.Outcome.next (hread _), congrArg Host.Outcome.next (hread _),
      congrArg Host.Outcome.next (hread _), congrArg Host.Outcome.next (hread _), congrArg Host.Outcome.next (hread _)⟩
  · have hother : smbMine s a = false := by simp [smbMine, ha]
    have hread (words : List Nat) : smbRead a words s = s := if_neg (by simp [hother])
    simp only [List.forall_mem_cons, List.not_mem_nil, false_implies, implies_true, and_true]
    refine ⟨congrArg Host.Outcome.next (hread _), congrArg Host.Outcome.next (hread _), congrArg Host.Outcome.next (hread _),
      congrArg Host.Outcome.next (hread _), congrArg Host.Outcome.next (hread _), congrArg Host.Outcome.next (hread _),
      congrArg Host.Outcome.next (hread _), congrArg Host.Outcome.next (hread _), congrArg Host.Outcome.next (if_neg (by simp [hother])),
      congrArg Host.Outcome.next (hread _), congrArg Host.Outcome.next (if_pos (by simp [hother]))⟩
  · have hmine : smbMine s (smbAddress s) = true := by simp [smbMine, hserve]
    show Host.Outcome.next (smbTimeSnap (smbAddress s) s) = _
    unfold smbTimeSnap
    rw [if_pos hmine]
    unfold smbRead
    dsimp only
    rw [if_pos (show smbMine { s with calib := { s.calib with snapTag := s.calib.snapTag + 1 } } (smbAddress s) = true from hmine)]
    simp [onLinks]
    rfl
  · have hmine : smbMine s (smbAddress s) = true := by simp [smbMine, hserve]
    show Host.Outcome.next (smbWriteEstop _ _ _) = _
    unfold smbWriteEstop
    rw [if_neg (by simp [hmine]), if_neg (by simp [hlen]), if_pos hbit]
  · have hmine : smbMine s (smbAddress s) = true := by simp [smbMine, hserve]
    show Host.Outcome.next (smbWriteEstop _ _ _) = _
    unfold smbWriteEstop
    rw [if_neg (by simp [hmine]), if_pos (by simpa using hbad)]

/-! ## JTAG -/

theorem modeLeash_frame (s : State) : (modeLeash s).mode = s.mode ∧ (modeLeash s).banks = s.banks ∧ (modeLeash s).links = s.links := by
  unfold modeLeash
  dsimp only
  split
  · split <;> exact ⟨rfl, rfl, rfl⟩
  · split
    · unfold startDriving
      split <;> exact ⟨rfl, rfl, rfl⟩
    · exact ⟨rfl, rfl, rfl⟩

/-- Settles O25: a test holds every SWSEL low; its end settles the chain and touches neither mode nor banks. -/
theorem jtagTests : Obligations.JtagTests := by
  unfold Obligations.JtagTests
  refine ⟨fun s => ⟨_, rfl, ?_⟩, fun s hidle => ?_, fun s c htest hc => ?_⟩
  · unfold jtagExtest
    have htest : ∀ o, (settle o (stopDriving (onLinks (fun l => { l with jtagTest := true }) s))).links.jtagTest = true := fun o => by
      simp [stopDriving, onLinks]
    refine ⟨htest _, emissionOff_of_held (by simp [heldLow, htest]), by simp [stopDriving], by simp [stopDriving], by simp [stopDriving], ?_, ?_⟩ <;>
      simp [stopDriving]
  · have hf : jtagFunctional s = s := if_neg (by simp [hidle])
    refine ⟨congrArg Host.Outcome.next hf, congrArg Host.Outcome.next hf, ?_, fun levels => ?_⟩
    · show Host.Outcome.next (onLinks _ (jtagFunctional s)) = _
      rw [hf]
      rfl
    · show Host.Outcome.next (onLinks _ (jtagFunctional s)) = _
      rw [hf]
      rfl
  · have hf : (jtagFunctional s).links.jtagTest = false ∧ (jtagFunctional s).mode = s.mode ∧ (jtagFunctional s).banks = s.banks := by
      unfold jtagFunctional
      rw [if_pos htest]
      obtain ⟨hmode, hbanks, hlinks⟩ := modeLeash_frame (onLinks (fun l => { l with jtagTest := false }) s)
      simp [hmode, hbanks, hlinks, onLinks]
    rcases hc with rfl | rfl | rfl
    · exact ⟨_, rfl, hf⟩
    · exact ⟨_, rfl, hf⟩
    · exact ⟨_, rfl, hf⟩
end Sys2Proof.Machine

namespace Sys2Proof.Machine

/-! ## Sessions stay ended -/

/-- Whether a transport has a session. -/
def inSession (s : State) (t : Nat) : Bool := (transportOf s t).session.isSome

theorem inSession_of_scribe {s u : State} (h : u.scribe.transports = s.scribe.transports) (t : Nat) : inSession u t = inSession s t := by
  simp only [inSession, transportOf, h]

theorem onTransport_inSession (t : Nat) (f : TransportState → TransportState) (s : State) (k : Nat)
    (hf : (f (transportOf s t)).session.isSome = (transportOf s t).session.isSome) : inSession (onTransport t f s) k = inSession s k := by
  unfold inSession
  by_cases h : k = t
  · subst h
    by_cases hk : k < 4
    · unfold transportOf onTransport at *
      simp only [vecRead_vecUpdate _ _ _ hk, hf]
    · simp [transportOf, onTransport, vecUpdate, hk]
  · rw [transportOf_onTransport_other _ _ h]

theorem sendCarrier_inSession (t dest port : Nat) (m : List Byte) (s : State) (k : Nat) : inSession (sendCarrier t dest port m s) k = inSession s k :=
  inSession_of_scribe (sendCarrier_keep (·.scribe.transports) (by intros; rfl) _ _ _ _ _) k

theorem eventSend_inSession (e : EventEntry) (t : Nat) (s : State) (k : Nat) : inSession (eventSend e t s) k = inSession s k := by
  unfold eventSend
  split
  next ss hss =>
    dsimp only
    split
    · rw [sendCarrier_inSession]
      exact onTransport_inSession _ _ _ _ (by simp [hss])
    · rfl
  · rfl

theorem post_inSession (code : Nat) (a b c : Int) (s : State) (k : Nat) : inSession (post code a b c s) k = inSession s k := by
  unfold post
  refine (forEach_keep (inSession · k) _ (fun t u => eventSend_inSession _ t u k) _ _).trans ?_
  refine (logPost_keep (inSession · k) (by intros; rfl) _ _).trans ?_
  exact evqWrite_keep (inSession · k) (by intros; rfl) _ _

theorem tell_inSession (code : Nat) (a b c : Int) (s : State) (k : Nat) : inSession (tell code a b c s) k = inSession s k := by
  unfold tell
  split
  · exact post_inSession _ _ _ _ _ k
  · rfl

theorem pairRefresh_inSession (s : State) (k : Nat) : inSession (pairRefresh s) k = inSession s k := by
  have hpair (f : Pair → Pair) (u : State) : inSession (onPair f u) k = inSession u k := rfl
  have hsettle (o u : State) : inSession (settle o u) k = inSession u k := settle_keep (inSession · k) (by intros; rfl) o u
  unfold pairRefresh
  dsimp only
  split <;> split <;> simp only [tell_inSession, hsettle, hpair]

theorem answerSeq_inSession (r : Request) (s : State) (k : Nat) : inSession (answerSeq r s).2.2 k = inSession s k := by
  unfold answerSeq
  split
  next ss hss =>
    split
    · exact onTransport_inSession _ _ _ _ (by simp [hss])
    · rfl
  · rfl

theorem sendAnswer_inSession (r : Request) (holdsTag : Bool) (m : List Byte) (s : State) (k : Nat) :
    inSession (sendAnswer r holdsTag m s) k = inSession s k := by
  unfold sendAnswer
  split
  · exact onTransport_inSession _ _ _ _ rfl
  · rw [sendCarrier_inSession]
    exact onTransport_inSession _ _ _ _ (by split <;> rfl)

theorem answer_inSession (r : Request) (status detail : Nat) (body : List Byte) (s : State) (k : Nat) :
    inSession (answer r status detail body s) k = inSession s k := by
  have hwith (flags : Nat) (holdsTag : Bool) (u : State) : inSession (answerWith flags holdsTag r status detail body u) k = inSession u k := by
    unfold answerWith
    split
    · rfl
    · dsimp only
      rw [sendAnswer_inSession, onTransport_inSession _ _ _ _ rfl, answerSeq_inSession]
  unfold answer
  split
  · rw [hwith]
    exact onTransport_inSession _ _ _ _ rfl
  · exact hwith _ _ _

/-! ## The link -/

theorem segorLink_rises (s : State) (lo hi : Nat) (hmode : s.mode.current ≠ .reset) (hrail : s.power.railStatus.getLsbD 10 = true) (hle : lo ≤ hi)
    (hlo : lo ≤ 2) (hhi : 1 ≤ hi) : ∃ t, exec (.segorLinkUp lo hi) s = .next t ∧ t.pair.linkUp = true ∧ t.pair.linkVersion = min 2 hi ∧
    emissionOnly s t := by
  have hexec : exec (.segorLinkUp lo hi) s = .next (pairRefresh (onPair (fun x => { x with linkUp := true, linkVersion := min 2 hi }) s)) := by
    show Host.Outcome.next (pairRefresh (segorLinkUp lo hi s)) = _
    unfold segorLinkUp
    rw [if_neg (by simp [hmode, hrail]; omega)]
  generalize hu : onPair _ s = u at hexec
  have hw : watched (pairRefresh u) = watched u := pairRefresh_watched u
  have honly : emissionOnly s (pairRefresh u) := by simp [← hu, emissionOnly, plantUntouched]
  generalize pairRefresh u = t at hexec hw honly
  exact ⟨t, hexec, (congrArg Watched.linkUp hw).trans (by rw [← hu]; rfl), (congrArg Watched.linkVersion hw).trans (by rw [← hu]; rfl), honly⟩

theorem segorDown_ends (s : State) (hup : s.pair.linkUp = true) : (segorDown s).pair.linkUp = false ∧ (segorDown s).pair.linkVersion = 0 ∧
    (segorDown s).pair.step = s.pair.step ∧ inSession (segorDown s) 3 = false ∧ emissionOnly s (segorDown s) := by
  have hend : inSession (endSession 3 s) 3 = false := by
    unfold inSession endSession
    rw [if_neg (by decide)]
    exact congrArg (fun x : TransportState => x.session.isSome) (transportOf_onTransport 3 _ s)
  unfold segorDown
  rw [if_pos hup]
  dsimp only
  split
  next r _ =>
    refine ⟨rfl, rfl, by simp, (answer_inSession r 0x31 0 [] _ 3).trans hend, by simp [emissionOnly, plantUntouched]⟩
  next => exact ⟨rfl, rfl, by simp, hend, by simp [emissionOnly, plantUntouched]⟩

theorem segorLink_falls (s : State) (hup : s.pair.linkUp = true) (hstep : s.pair.step = .idle) : ∃ t, exec .segorLinkDown s = .next t ∧
    t.pair.linkUp = false ∧ t.pair.linkVersion = 0 ∧ (transportOf t 3).session = none ∧ emissionOnly s t := by
  obtain ⟨hdown, hversion, hidle, hsession, honly⟩ := segorDown_ends s hup
  have hexec : exec .segorLinkDown s = .next (pairRefresh (segorDown s)) := by
    show Host.Outcome.next (pairRefresh (segorLinkDown s)) = _
    unfold segorLinkDown
    dsimp only
    rw [if_neg (by simp [hidle, hstep])]
  generalize segorDown s = u at hexec hdown hversion hsession honly
  have hw : watched (pairRefresh u) = watched u := pairRefresh_watched u
  have honly' : emissionOnly s (pairRefresh u) := by simpa [emissionOnly, plantUntouched] using honly
  have hnone : inSession (pairRefresh u) 3 = false := (pairRefresh_inSession u 3).trans hsession
  generalize pairRefresh u = t at hexec hw honly' hnone
  exact ⟨t, hexec, (congrArg Watched.linkUp hw).trans hdown, (congrArg Watched.linkVersion hw).trans hversion,
    Option.isSome_eq_false_iff.1 hnone |> Option.isNone_iff_eq_none.1, honly'⟩

/-! ## Frames -/

theorem segorFrame_bad (s : State) (kind : Fin 5) (bytes : List Byte) (hup : s.pair.linkUp = true)
    (hcrc : field bytes (bytes.length - 4) 4 ≠ (crc32c (bytes.take (bytes.length - 4))).toNat) :
    exec (.segorFrameReceived kind bytes) s = .next (bump Pid.pairFrameErrors 0 s) := by
  show Host.Outcome.next (segorFrameReceived kind.val bytes s) = _
  unfold segorFrameReceived
  rw [if_neg (by simp [hup]), if_pos (by simp [hcrc])]

theorem segorFrame_health (s : State) (body : List Byte) (hup : s.pair.linkUp = true) (hbody : body ≠ []) :
    exec (.segorFrameReceived 3 (body ++ leBytes 4 (crc32c body).toNat)) s =
      .next { s with pair := { s.pair with peerCond := some (field (body.drop 1) 20 1, s.ticks) } } := by
  have hlen : (body ++ leBytes 4 (crc32c body).toNat).length - 4 = body.length := by simp
  have hcrc : field (body ++ leBytes 4 (crc32c body).toNat) body.length 4 = (crc32c body).toNat := by
    have h := field_append body [] 4 (crc32c body).toNat
    rw [List.append_nil] at h
    exact h.trans (Nat.mod_eq_of_lt (crc32c body).isLt)
  have hpos : 0 < body.length := List.length_pos_iff.2 hbody
  show Host.Outcome.next (segorFrameReceived 3 _ s) = _
  unfold segorFrameReceived
  rw [if_neg (by simp [hup]), hlen, List.take_left' rfl, if_neg (by simp [hcrc]; omega)]
  rfl

theorem length_pairFigures (s : State) : (pairFigures s).length = 24 := by
  simp [pairFigures, leInt]

theorem forEach_preserves {α : Type} {P : State → Prop} {f : α → State → State} (h : ∀ x s, P s → P (f x s)) (xs : List α) {s : State} (hs : P s) :
    P (forEach xs f s) := by
  unfold forEach
  induction xs generalizing s with
  | nil => exact hs
  | cons x xs ih => exact ih (h x s hs)

/-- A frame that waits on the link still waits after an event. -/
theorem post_sends {f : Nat × List Byte} {s : State} (h : f ∈ s.pair.tx) (code : Nat) (a b c : Int) : f ∈ (post code a b c s).pair.tx := by
  unfold post
  refine forEach_preserves (P := fun u => f ∈ u.pair.tx) (fun t u hu => ?_) _ ?_
  · unfold eventSend
    split
    · dsimp only
      split
      · unfold sendCarrier segorSend
        split
        · exact hu
        · split
          · exact List.mem_append_left _ hu
          · exact hu
        · exact hu
      · exact hu
    · exact hu
  · rw [logPost_keep (·.pair.tx) (by intros; rfl), evqWrite_keep (·.pair.tx) (by intros; rfl)]
    exact h

theorem tell_sends {f : Nat × List Byte} {s : State} (h : f ∈ s.pair.tx) (code : Nat) (a b c : Int) : f ∈ (tell code a b c s).pair.tx := by
  unfold tell
  split
  · exact post_sends h _ _ _ _
  · exact h

theorem pairRefresh_sends {f : Nat × List Byte} {s : State} (h : f ∈ s.pair.tx) : f ∈ (pairRefresh s).pair.tx := by
  unfold pairRefresh
  dsimp only
  split
  · split
    · exact tell_sends (s := onPair _ s) h _ _ _ _
    · refine tell_sends ?_ _ _ _ _
      rw [settle_pair]
      exact tell_sends (s := onPair _ s) h _ _ _ _
  · split
    · exact h
    · refine tell_sends ?_ _ _ _ _
      rw [settle_pair]
      exact h

theorem healthFrame_sent (s : State) (hmode : s.mode.current = .mirror) (hon : pairEnabled s = true) (hruns : s.scribe.restarting = false)
    (hup : s.pair.linkUp = true) : ∃ t b, exec .healthFrameSend s = .next t ∧ (3, b) ∈ t.pair.tx ∧ b.length = 29 ∧
      field b 25 4 = (crc32c (b.take 25)).toNat ∧ emissionOnly s t := by
  generalize hbody : Config.healthType :: pairFigures s = body
  have hlen : body.length = 25 := by simp [← hbody, length_pairFigures]
  have hexec : exec .healthFrameSend s = .next (pairRefresh { s with pair := { s.pair with tx := s.pair.tx ++ [(3, body ++ leBytes 4 (crc32c body).toNat)] } }) := by
    show Host.Outcome.next (pairRefresh (healthFrameSend s)) = _
    unfold healthFrameSend segorSend
    rw [if_neg (by simp [hmode, hon, hruns]), hbody, if_pos hup]
  generalize hu : ({ s with pair := _ } : State) = u at hexec
  have hsent : (3, body ++ leBytes 4 (crc32c body).toNat) ∈ u.pair.tx := by simp [← hu]
  have honly : emissionOnly s (pairRefresh u) := by simp [← hu, emissionOnly, plantUntouched]
  refine ⟨_, body ++ leBytes 4 (crc32c body).toNat, hexec, pairRefresh_sends hsent, by simp [hlen], ?_, honly⟩
  have h := field_append body [] 4 (crc32c body).toNat
  rw [List.append_nil, hlen] at h
  rw [h, List.take_left' hlen]
  exact Nat.mod_eq_of_lt (crc32c body).isLt

/-! ## Replicas -/

theorem switchPort_banks {p : Nat} {s : State} {b : Banks} {w : BankSwitch} {m m' : BitVec 4}
    (hs : s.banks = { b with switch := some { w with portsLeft := m } }) (hp : m.getLsbD p = true) (hm : m &&& ~~~(1#4 <<< p) = m') :
    (switchPort p s).banks = { b with switch := if m' == 0 then none else some { w with portsLeft := m' } } := by
  unfold switchPort
  simp only [hs, hp, hm, Bool.not_true, Bool.false_eq_true, if_false]
  split <;> simp [onBanks, hs]

/-- The four ports' switches end the bank's switch. -/
theorem finishSwitch_banks {s : State} {w : BankSwitch} (hw : s.banks.switch = some w) (hall : w.portsLeft = 0xF) :
    (finishSwitch s).banks = { s.banks with switch := none } := by
  have h0 : s.banks = { s.banks with switch := some { w with portsLeft := 15 } } := by rw [← hall, ← hw]
  have h1 := switchPort_banks (p := 0) (m' := 14) h0 (by decide) (by decide)
  have h2 := switchPort_banks (p := 1) (m' := 12) h1 (by decide) (by decide)
  have h3 := switchPort_banks (p := 2) (m' := 8) h2 (by decide) (by decide)
  have h4 := switchPort_banks (p := 3) (m' := 0) h3 (by decide) (by decide)
  unfold finishSwitch
  rw [settle_keep (·.banks) (by intros; rfl), forEach_keep (·.banks) _ fun _ _ => endServices_banks _ _]
  exact h4

/-! Ending jobs, records and a switch changes entries of the journal and opens none. -/

theorem endJob_newest (i reason : Nat) (s : State) : (endJob i reason s).journal.newest = s.journal.newest := by
  unfold endJob
  split
  · rw [journalEnd_newest, onJournal_newest]
    simp
  · rfl

theorem endJobs_newest (f : ReplayJob → Bool) (reason : Nat) (s : State) : (endJobs f reason s).journal.newest = s.journal.newest :=
  forEach_keep (·.journal.newest) _ (fun _ _ => endJob_newest _ _ _) _ _

theorem freeData_newest (n : Nat) (s : State) : (freeData n s).journal.newest = s.journal.newest := by
  unfold freeData
  split
  · rw [endJobs_newest]
    simp
  · rfl

theorem fitData_newest (k n : Nat) (s : State) : (fitData k n s).journal.newest = s.journal.newest := by
  induction k generalizing s with
  | zero => rfl
  | succ k ih =>
    unfold fitData
    dsimp only
    split
    · rfl
    · split
      · rw [ih, freeData_newest]
      · rfl

theorem closeRecord_newest (incomplete : Bool) (n : Nat) (s : State) : (closeRecord incomplete n s).journal.newest = s.journal.newest := by
  unfold closeRecord
  split
  · rfl
  · split
    · rfl
    · dsimp only
      rw [fitData_newest, post_journal, foldl_keep (·.journal) _ fun _ _ => by simp, foldl_keep (·.journal) _ fun _ _ => by simp]
      simp

theorem ringFollows_newest (cause : Nat) (s : State) : (ringRestart cause s).journal.newest = s.journal.newest ∧ (ringDrop s).journal.newest = s.journal.newest := by
  unfold ringRestart ringDrop
  refine ⟨?_, endJobs_newest _ _ _⟩
  dsimp only
  split
  · rw [post_journal, endJobs_newest, forEach_keep (·.journal) _ fun _ _ => by simp]
    rfl
  · rw [endJobs_newest, forEach_keep (·.journal) _ fun _ _ => by simp]
    rfl

theorem switchPort_newest (p : Nat) (s : State) : (switchPort p s).journal.newest = s.journal.newest := by
  have hclose (old new : Bank) (u : State) : (closeDisabled old new p u).journal.newest = u.journal.newest :=
    forEach_keep (·.journal.newest) _ (fun _ _ => closeRecord_newest _ _ _) _ _
  have hlast (old new : Bank) (u : State) : (switchLast old new u).journal.newest = u.journal.newest := by
    unfold switchLast
    dsimp only
    split
    · exact (ringFollows_newest 5 u).1
    · split
      · exact (ringFollows_newest 5 u).2
      · rfl
  unfold switchPort
  split
  · rfl
  · dsimp only
    split
    · rfl
    · split <;> simp [hlast, hclose]

theorem activate_newest (new : Bank) (run sentinel : Plan) (s : State) : (activate new run sentinel s).journal.newest = s.journal.newest := by
  have hfinish (u : State) : (finishSwitch u).journal.newest = u.journal.newest := by
    unfold finishSwitch
    rw [settle_keep (·.journal.newest) (by intros; rfl), forEach_keep (·.journal.newest) _ fun _ _ => by simp,
      forEach_keep (·.journal.newest) _ fun _ _ => switchPort_newest _ _]
  unfold activate
  dsimp only
  split
  · rw [forEach_keep (·.journal) _ fun _ _ => by simp]
    rfl
  · rw [linksFollow_journal, hfinish, forEach_keep (·.journal) _ fun _ _ => by simp]
    rfl

/-- A bank that comes in force while no grid runs is in force at once. -/
theorem activate_idle {s : State} (new : Bank) (run sentinel : Plan) (h : acquiring s = false) :
    (activate new run sentinel s).banks = { s.banks with active := new, switch := none } := by
  unfold activate
  dsimp only
  rw [if_neg]
  · rw [linksFollow_banks, finishSwitch_banks (w := { tsw := switchTime s.banks.active new (onBanks (fun b => b) s), portsLeft := 0xF, old := s.banks.active }) _ rfl,
      forEach_keep (·.banks) _ fun _ _ => onItem_banks _ _ _ _]
    · rfl
    · rw [forEach_keep (·.banks) _ fun _ _ => onItem_banks _ _ _ _]
      rfl
  · rw [Bool.not_eq_true, acquiring, forEach_keep (·.mode) _ fun _ _ => onItem_mode _ _ _ _]
    exact h

theorem replica_program (s : State) (i : Nat) (g : Program) (hmode : s.mode.current = .mirror) (hon : pairEnabled s = true)
    (hruns : s.scribe.restarting = false) : ∃ t,
    exec (.bankReplica (.program i (some g))) s = .next t ∧ t.serif.library = Store.put s.serif.library i g ∧
      t.journal.newest = nextJournal s ∧ t.mode = s.mode ∧ t.banks = s.banks ∧ t.memory = s.memory ∧ t.time = s.time := by
  have hexec : exec (.bankReplica (.program i (some g))) s = .next (pairRefresh (bankReplica (.program i (some g)) s)) := rfl
  unfold bankReplica at hexec
  rw [if_neg (by simp [hmode, hon, hruns])] at hexec
  refine ⟨_, hexec, ?_⟩
  simp [withJournal, onSerif, journalOpen_newest]

theorem replica_banks (s : State) (op : Nat) (active : Bank) (previous : Option Bank) (trial : Bool) (tick timeout : Nat) (hmode : s.mode.current = .mirror)
    (hon : pairEnabled s = true) (hruns : s.scribe.restarting = false) : ∃ t,
      exec (.bankReplica (.banks op active previous trial tick timeout)) s = .next t ∧
      t.banks.active = active ∧ t.banks.previous = previous ∧ t.banks.trial = trial ∧ t.banks.switch = none ∧
      t.banks.highestEpoch = max s.banks.highestEpoch (max active.epoch ((previous.map (·.epoch)).getD 0)) ∧
      t.journal.newest = nextJournal s ∧ t.mode.current = .mirror ∧ t.power = s.power ∧ t.clocks = s.clocks := by
  have hexec : exec (.bankReplica (.banks op active previous trial tick timeout)) s = .next (pairRefresh (bankReplica (.banks op active previous trial tick timeout) s)) := rfl
  unfold bankReplica at hexec
  rw [if_neg (by simp [hmode, hon, hruns])] at hexec
  refine ⟨_, hexec, ?_⟩
  dsimp only [withJournal]
  generalize hu : onBanks _ _ = u
  have hidle : acquiring u = false := by simp [← hu, acquiring, onBanks, onJournal, hmode]
  simp only [pairRefresh_banks, journalSteps_banks, activate_idle _ _ _ hidle]
  refine ⟨trivial, by rw [← hu]; rfl, by rw [← hu]; rfl, trivial, by rw [← hu]; rfl, ?_, ?_, ?_, ?_⟩
  · rw [pairRefresh_journal, journalSteps_newest, activate_newest, ← hu]
    rfl
  · simp [← hu, onBanks, onJournal, hmode]
  · simp [← hu, onBanks, onJournal]
  · simp [← hu, onBanks, onJournal]

/-! ## PAIR_QUERY and PEER_RELAY -/

theorem bits_lt (bs : List Bool) : bits bs < 2 ^ bs.length := by
  induction bs with
  | nil => simp [bits]
  | cons b bs ih =>
    have hb : bit b ≤ 1 := by cases b <;> decide
    simp only [bits, List.length_cons, Nat.pow_succ]
    omega

theorem pairStatus_lt (s : State) : pairStatus s < 2 ^ 32 := by
  have hrole : pairRole s ≤ 4 := by
    unfold pairRole
    split
    · omega
    · split
      · split <;> omega
      · split
        · omega
        · split <;> omega
  have hage := s.pair.copyAge.isLt
  unfold pairStatus
  have hfirst := bits_lt [pairEnabled s, s.straps.unitId]
  have hsecond := bits_lt [s.pair.own, s.pair.ilkHeld && !s.pair.own, s.pair.peerPresent, s.pair.linkUp, s.pair.linkLost, s.pair.hbSilent,
    s.pair.peerFailed, s.pair.ready, (s.pair.peer.map fun b => b.flags.getLsbD 2).getD false, pullOkNow s, s.pair.idConflict]
  simp only [List.length_cons, List.length_nil] at hfirst hsecond
  omega

theorem readyCondition_lt (s : State) : readyCondition s < 256 := by
  have hlen : (readyConditions s).length = 8 := rfl
  unfold readyCondition
  cases h : (readyConditions s).findIdx? fun c => !c with
  | none => simp
  | some i =>
    obtain ⟨hi, -⟩ := List.findIdx?_eq_some_iff_getElem.1 h
    simp
    omega

/-- The epoch of the copy that the unit holds or sent last (R495). -/
def copyNumber (s : State) : Nat := if s.mode.current == .mirror then ((s.pair.applied.map (·.epoch)).getD 0) else s.pair.copyEpoch.toNat

/-- The peer's own figures among the pair's. -/
def peerFigures (s : State) : List Byte :=
  let b := s.pair.peer.getD {}
  leBytes 1 b.mode ++ leBytes 1 b.version ++ leBytes 1 b.feed ++ leBytes 1 b.selftest ++ leBytes 4 b.fwVersion ++
  leBytes 4 b.epoch ++ leBytes 4 b.health ++ leInt 4 s.pair.timeOffset

theorem pairQuery_answers (s : State) (r : Request) (hr : mayExecute s 0x0901 r) : ∃ (t : State) (body : List Byte), exec .pairQuery s = .next t ∧
    t = answer r 0 0 body (dequeue r s) ∧ body.length = 52 ∧ field body 0 4 = pairStatus s ∧
    field body 36 1 = readyCondition s ∧ field body 37 1 = s.pair.lastCause % 256 ∧ plantUntouched s t := by
  refine ⟨_, _, congrArg Host.Outcome.next (runCommand_of_mayExecute hr _), rfl, ?_, ?_, ?_, ?_, ?_⟩
  · simp [length_pairFigures, stampBytes]
  · simp only [List.append_assoc]
    exact (field_append [] _ 4 (pairStatus s)).trans (Nat.mod_eq_of_lt (pairStatus_lt s))
  · have h := field_append (leBytes 4 (pairStatus (dequeue r s)) ++ leBytes 4 (copyNumber (dequeue r s)) ++
      leBytes 4 (paramNat (dequeue r s) Pid.pairCopiesMissed 0) ++ leBytes 4 (paramNat (dequeue r s) Pid.pairHandovers 0) ++ peerFigures (dequeue r s))
    simp only [peerFigures, List.append_assoc] at h
    simp only [pairFigures, List.append_assoc]
    exact (h _ 1 (readyCondition s)).trans (Nat.mod_eq_of_lt (readyCondition_lt s))
  · have h := field_append (leBytes 4 (pairStatus (dequeue r s)) ++ leBytes 4 (copyNumber (dequeue r s)) ++
      leBytes 4 (paramNat (dequeue r s) Pid.pairCopiesMissed 0) ++ leBytes 4 (paramNat (dequeue r s) Pid.pairHandovers 0) ++ peerFigures (dequeue r s) ++
      leBytes 1 (readyCondition s))
    simp only [peerFigures, List.append_assoc] at h
    simp only [pairFigures, List.append_assoc]
    exact h _ 1 s.pair.lastCause
  · simp [plantUntouched]

theorem peerRelay_up (s : State) (r : Request) (hr : mayExecute s 0x0902 r) (hfree : s.links.relay = none) (hup : s.pair.linkUp = true) :
    ∃ t, exec .peerRelay s = .next t ∧ t.links.relay = some r ∧ t.pair.tx = s.pair.tx ++ [(2, r.payload)] ∧ plantUntouched s t := by
  refine ⟨_, congrArg Host.Outcome.next ((if_neg (by simp [hfree])).trans (runCommand_of_mayExecute hr _)), ?_⟩
  unfold peerRelay segorSend
  rw [if_neg (by simp [hup]), if_pos (by simpa [onLinks] using hup)]
  exact ⟨rfl, rfl, by simp [plantUntouched, onLinks]⟩

theorem peerRelay_down (s : State) (r : Request) (hr : mayExecute s 0x0902 r) (hfree : s.links.relay = none) (hdown : s.pair.linkUp = false) :
    exec .peerRelay s = .next (refuse r 0x31 0 (dequeue r s)) := by
  refine congrArg Host.Outcome.next ((if_neg (by simp [hfree])).trans ((runCommand_of_mayExecute hr _).trans ?_))
  unfold peerRelay
  rw [if_pos (by simp [hdown])]

/-- Settles O29: the link, its frames, the standby's replicas and the pair's two commands, each by its own lemma; the refresh of readiness
after them leaves the link, the sessions and the frames that wait. -/
theorem segorCarries : Obligations.SegorCarries := by
  unfold Obligations.SegorCarries
  refine ⟨segorLink_rises, fun s lo hi hlo => ?_, segorLink_falls, fun s kind bytes hup _ hcrc => segorFrame_bad s kind bytes hup hcrc, segorFrame_health,
    replica_program, replica_banks, healthFrame_sent, pairQuery_answers, peerRelay_up, peerRelay_down⟩
  show Host.Outcome.next (pairRefresh (segorLinkUp lo hi s)) = _
  unfold segorLinkUp
  rw [if_pos (by simp; omega)]
end Sys2Proof.Machine

namespace Sys2Proof.Machine

/-! ## The panel -/

theorem bits_testBit (bs : List Bool) (i : Nat) : (bits bs).testBit i = bs.getD i false := by
  induction bs generalizing i with
  | nil => simp [bits]
  | cons b bs ih =>
    cases i with
    | zero => cases b <;> simp [bits, bit, Nat.testBit_zero]
    | succ i =>
      have hhalf : (bit b + 2 * bits bs) / 2 = bits bs := by
        cases b <;> simp [bit] <;> omega
      simp [bits, Nat.testBit_succ, hhalf, ih]

theorem settle_locateMask (o s : State) : (settle o s).safety.locateMask = s.safety.locateMask :=
  settle_term (g := (·.locateMask)) (termView_of_plain fun _ _ _ => rfl) o s

theorem paramNat_chatter (s : State) (i : Nat) :
    paramNat s Pid.panelChatter i = (Store.read paramDefault s.params (paramKey Pid.panelChatter i)).toNat := by
  have heffect : effectOf Pid.panelChatter = .atOnce := by decide
  simp [paramNat, paramGet, heffect]

/-- A counter short of its end counts one. -/
theorem chatter_counted (s : State) (i : Fin 8) (h : paramNat s Pid.panelChatter i < 0xFFFFFFFF) (f : Safety → Safety) :
    paramNat (bump Pid.panelChatter i (onSafety f s)) Pid.panelChatter i = paramNat s Pid.panelChatter i + 1 := by
  have hkind : ((paramRow Pid.panelChatter).map (·.counter) == some CounterKind.sat) = true := by decide
  have hdefault : paramDefault (paramKey Pid.panelChatter i) = 0 :=
    (by decide : ∀ k : Fin 8, paramDefault (paramKey Pid.panelChatter k) = 0) i
  rw [paramNat_chatter] at h ⊢
  rw [paramNat_chatter]
  unfold bump bumpBy paramPut
  simp only [hkind, if_true, onSafety]
  rw [Store.read_write_ne _ _ (by rw [hdefault]; omega)]
  omega

theorem tell_chatter (code : Nat) (a b c : Int) (s : State) (i : Nat) (hi : i < 8) :
    paramNat (tell code a b c s) Pid.panelChatter i = paramNat s Pid.panelChatter i := by
  have hlost : paramKey Pid.panelChatter i ≠ paramKey Pid.hostEvqLost 0 := by
    unfold paramKey Pid.panelChatter Pid.hostEvqLost
    omega
  have hlog : paramKey Pid.panelChatter i ≠ paramKey Pid.logSuppressed 0 := by
    unfold paramKey Pid.panelChatter Pid.logSuppressed
    omega
  unfold tell
  split
  · simp only [paramNat_chatter, post_paramAt hlost hlog]
  · rfl

/-- Settles O36: the buttons' bits, the locate mask and the chatter counters are plain fields; the lamps that follow them leave the rest. -/
theorem panelAnswers : Obligations.PanelAnswers := by
  unfold Obligations.PanelAnswers
  refine ⟨fun s i hroom => ⟨_, rfl, ?_⟩, fun s hpress hnew => ⟨_, rfl, ?_⟩, fun s hpress hnew => ⟨_, rfl, ?_⟩, fun s => ⟨rfl, rfl⟩,
    fun s hnew => ⟨_, rfl, ?_⟩, fun s => ⟨_, rfl, ?_⟩, fun s mask hmask => ⟨_, rfl, ?_⟩⟩
  · unfold panelInputChatter
    dsimp only
    have hcount := chatter_counted s i hroom
    split
    · exact ⟨(tell_chatter _ _ _ _ _ _ i.isLt).trans (hcount _), by simp [plantUntouched, onSafety]⟩
    · exact ⟨hcount _, by simp [plantUntouched, onSafety]⟩
  · unfold inputStuck
    simp [hpress, hnew, plantUntouched, onSafety]
  · unfold inputStuck
    simp [hpress, hnew, plantUntouched, onSafety]
  · unfold locatePress
    rw [if_neg (by simp [hnew])]
    refine ⟨?_, ?_, ?_⟩
    · rw [tell_safety]
      exact settle_term (g := (·.locate)) (termView_of_plain fun _ _ _ => rfl) _ _
    · simp [settle_locateMask, onSafety]
    · simp [emissionOnly, plantUntouched, onSafety]
  · refine ⟨by simp [emissionOnly, plantUntouched, onSafety], settle_keep (·.evq) (by intros; rfl) _ _, fun i => ?_⟩
    rw [settle_locateMask]
    have hi := i.isLt
    show (BitVec.ofNat 5 (locateLeft s)).getLsbD i = _
    rw [BitVec.getLsbD_ofNat, locateLeft, bits_testBit]
    simp only [List.getD_eq_getElem?_getD, List.getElem?_map, List.getElem?_range hi, hi, decide_true, Bool.true_and, Option.map_some, Option.getD_some]
  · rw [if_pos hmask]
    unfold locateMask
    refine ⟨?_, by simp [emissionOnly, plantUntouched, onSafety], settle_keep (·.evq) (by intros; rfl) _ _⟩
    rw [settle_locateMask]
    simp [onSafety]
    omega

/-! ## Guards, gain and correction -/

@[simp] theorem portOf_bump (id i : Nat) (s : State) (p : Nat) : portOf (bump id i s) p = portOf s p := rfl

theorem openGuard_guard (p : Fin 4) (g : Fin 2) (s : State) : vecRead (portOf (openGuard p g s) p).guard g false = true ∧
    vecRead (portOf (openGuard p g s) p).guardLast g 0 = s.ticks ∧ (portOf (openGuard p g s) p).dasGain = (portOf s p).dasGain ∧
    (vecRead (portOf s p).guard g false = true → s.ticks ≤ vecRead (portOf s p).guardLast g 0 + guardTicks s p g →
      vecRead (portOf (openGuard p g s) p).guardTick g 0 = vecRead (portOf s p).guardTick g 0) := by
  have hg := g.isLt
  cases hopen : vecRead (portOf s p).guard g false
  · unfold openGuard
    simp [hopen, portOf_onPort, vecRead_vecUpdate _ _ _ hg]
  · by_cases hlapse : vecRead (portOf s p).guardLast g 0 + guardTicks s p g < s.ticks
    · unfold openGuard
      simp [hopen, hlapse, closeGuard, portOf_onPort, vecRead_vecUpdate _ _ _ hg]
    · unfold openGuard
      simp [hopen, hlapse, portOf_onPort, vecRead_vecUpdate _ _ _ hg]

/-- The operations on one port's guards and the reports of their rates leave the others and the rest. -/
theorem openGuard_frame (p : Fin 4) (g : Fin 2) (s : State) : (∀ q : Fin 4, q ≠ p → portOf (openGuard p g s) q = portOf s q) ∧
    plantUntouched { s with ports := (openGuard p g s).ports } (openGuard p g s) := by
  have hne : ∀ q : Fin 4, q ≠ p → q.val ≠ p.val := fun q hq h => hq (Fin.ext h)
  unfold openGuard closeGuard
  refine ⟨fun q hq => ?_, ?_⟩
  · dsimp only
    rw [portOf_onPort_other _ _ (hne q hq)]
    split_ifs <;> simp [portOf_onPort_other _ _ (hne q hq)]
  · dsimp only
    split_ifs <;> simp [plantUntouched]

theorem overdrive_guards (p : Fin 4) (g gain : Nat) (s : State) : (portOf (overdrive p g gain s) p).guard = (portOf s p).guard ∧
    (portOf (overdrive p g gain s) p).guardLast = (portOf s p).guardLast ∧ (portOf (overdrive p g gain s) p).guardTick = (portOf s p).guardTick ∧
    (portOf (overdrive p g gain s) p).dasGain = (portOf s p).dasGain ∧ (portOf (overdrive p g gain s) p).overSeen = (portOf s p).overSeen := by
  unfold overdrive
  dsimp only
  split
  · rw [portOf_congr (post_ports _ _ _ _ _), portOf_onPort]
    exact ⟨rfl, rfl, rfl, rfl, rfl⟩
  · rw [portOf_onPort]
    exact ⟨rfl, rfl, rfl, rfl, rfl⟩

theorem overdrive_frame (p : Fin 4) (g gain : Nat) (s : State) : (∀ q : Fin 4, q ≠ p → portOf (overdrive p g gain s) q = portOf s q) ∧
    plantUntouched { s with ports := (overdrive p g gain s).ports } (overdrive p g gain s) := by
  unfold overdrive
  refine ⟨fun q hq => ?_, ?_⟩
  · have hne : q.val ≠ p.val := fun h => hq (Fin.ext h)
    dsimp only
    split
    · rw [portOf_congr (post_ports _ _ _ _ _), portOf_onPort_other _ _ hne]
    · exact portOf_onPort_other _ _ hne
  · dsimp only
    split <;> simp [plantUntouched]

theorem adcEstimate_kept (s : State) (p : Fin 4) (i : Fin 6) (c : Correction) (h : ∀ f ∈ corrFields i c, f.2.1.natAbs ≤ f.2.2) : ∃ t,
    exec (.adcCorrEstimate p i c) s = .next t ∧ vecRead (portOf t p).corrNext i none = some c ∧ (portOf t p).corr = (portOf s p).corr ∧
    (∀ q : Fin 4, q ≠ p → portOf t q = portOf s q) ∧ t = { s with ports := t.ports } := by
  have hnone : ((corrFields i c).find? fun f => decide (f.2.2 < f.2.1.natAbs)) = none := by
    simpa using h
  refine ⟨_, rfl, ?_⟩
  unfold adcCorrEstimate
  rw [hnone]
  refine ⟨?_, ?_, fun q hq => portOf_onPort_other _ _ fun h => hq (Fin.ext h), rfl⟩
  · dsimp only
    rw [portOf_onPort, vecRead_vecUpdate _ _ _ i.isLt]
  · dsimp only
    rw [portOf_onPort]

theorem adcEstimate_rejected (s : State) (p : Fin 4) (i : Fin 6) (c : Correction) (h : ∃ f ∈ corrFields i c, f.2.2 < f.2.1.natAbs) : ∃ t,
    exec (.adcCorrEstimate p i c) s = .next t ∧ t.calib.rejectSeen = true ∧ plantUntouched { s with calib := t.calib } t := by
  obtain ⟨f, hmem, hfar⟩ := h
  refine ⟨_, rfl, ?_⟩
  unfold adcCorrEstimate
  cases hfind : (corrFields i c).find? fun f => decide (f.2.2 < f.2.1.natAbs) with
  | none => exact absurd (List.find?_eq_none.1 hfind f hmem) (by simpa using hfar)
  | some e =>
    unfold calReject
    simp [plantUntouched, onCal]

/-- A guard held open since before the state `s`, or opened in it. -/
structure GuardOpened (s : State) (p : Fin 4) (g : Fin 2) (t : State) : Prop where
  open_ : vecRead (portOf t p).guard g false = true
  last : vecRead (portOf t p).guardLast g 0 = s.ticks
  gain : (portOf t p).dasGain = (portOf s p).dasGain
  from_ : vecRead (portOf s p).guard g false = true → s.ticks ≤ vecRead (portOf s p).guardLast g 0 + guardTicks s p g →
      vecRead (portOf t p).guardTick g 0 = vecRead (portOf s p).guardTick g 0
  others : ∀ q : Fin 4, q ≠ p → portOf t q = portOf s q
  plant : plantUntouched { s with ports := t.ports } t

theorem GuardOpened.overdrive {s t : State} {p : Fin 4} {g : Fin 2} (h : GuardOpened s p g t) (k gain : Nat) :
    GuardOpened s p g (overdrive p k gain t) := by
  obtain ⟨hguard, hlast, htick, hgain, -⟩ := overdrive_guards p k gain t
  obtain ⟨hothers, hplant⟩ := overdrive_frame p k gain t
  refine ⟨by rw [hguard, h.open_], by rw [hlast, h.last], by rw [hgain, h.gain], by rw [htick]; exact h.from_,
    fun q hq => (hothers q hq).trans (h.others q hq), ?_⟩
  have hbefore := h.plant
  simp only [plantUntouched] at hplant hbefore ⊢
  simp [hplant, hbefore]

theorem GuardOpened.seen {s t : State} {p : Fin 4} {g : Fin 2} (h : GuardOpened s p g t) :
    GuardOpened s p g (onPort p (fun x => { x with overSeen := true }) t) := by
  have hplant : plantUntouched { s with ports := (onPort p (fun x => { x with overSeen := true }) t).ports } (onPort p (fun x => { x with overSeen := true }) t) := by
    have hbefore := h.plant
    simp only [plantUntouched] at hbefore ⊢
    simp [hbefore]
  refine ⟨?_, ?_, ?_, ?_, fun q hq => (portOf_onPort_other _ _ fun h => hq (Fin.ext h)).trans (h.others q hq), hplant⟩ <;> rw [portOf_onPort]
  · exact h.open_
  · exact h.last
  · exact h.gain
  · exact h.from_

theorem inputOverRange_opens (s : State) (p : Fin 4) (g : Fin 2) : GuardOpened s p g (inputOverRange p g s) ∧
    (g.val = 0 → (portOf (inputOverRange p g s) p).overSeen = true) := by
  have hopened : GuardOpened s p g (openGuard p g s) := by
    obtain ⟨hopen, hlast, hgain, htick⟩ := openGuard_guard p g s
    obtain ⟨hother, hplant⟩ := openGuard_frame p g s
    exact ⟨hopen, hlast, hgain, htick, hother, hplant⟩
  unfold inputOverRange
  dsimp only
  split
  next hzero =>
    have hseen : (portOf (onPort p (fun x => { x with overSeen := true }) (openGuard p g s)) p).overSeen = true := by rw [portOf_onPort]
    split
    · exact ⟨hopened.seen, fun _ => hseen⟩
    · obtain ⟨-, -, -, -, hkeep⟩ := overdrive_guards p 0 (portOf s p).dasGain (onPort p (fun x => { x with overSeen := true }) (openGuard p g s))
      exact ⟨hopened.seen.overdrive _ _, fun _ => hkeep.trans hseen⟩
  next hraman => exact ⟨hopened.overdrive _ _, fun h => absurd h hraman⟩

/-- Settles O39: an over-range opens or prolongs its group's guard alone; the rest are plain writes of one port. -/
theorem receiveGuards : Obligations.ReceiveGuards := by
  unfold Obligations.ReceiveGuards
  refine ⟨fun s p g => ?_, fun s p g hopen hdue => ⟨_, rfl, ?_⟩, fun s p g hkeep => ?_, fun s p g hgain => ⟨_, rfl, ?_⟩, fun s p g hgain => ?_,
    fun s p level hnew => ⟨_, rfl, ?_⟩, fun s p => ?_, adcEstimate_kept, adcEstimate_rejected⟩
  · obtain ⟨h, hseen⟩ := inputOverRange_opens s p g
    exact ⟨_, rfl, h.open_, hseen, h.gain, h.from_, h.last, h.others, h.plant⟩
  · unfold ovrGuardEnd closeGuard
    rw [if_pos (by simp [hopen, hdue])]
    refine ⟨?_, ?_, fun q hq => portOf_onPort_other _ _ fun h => hq (Fin.ext h), rfl⟩
    · rw [portOf_onPort, vecRead_vecUpdate _ _ _ g.isLt]
    · rw [portOf_onPort, vecRead_vecUpdate_other _ _ _ (by omega)]
  · show Host.Outcome.next (ovrGuardEnd p g s) = _
    unfold ovrGuardEnd
    rw [if_neg (by rcases hkeep with h | h <;> simp [h])]
  · unfold dasGainWrite
    rw [if_pos (by simpa using hgain), portOf_onPort]
    exact ⟨rfl, rfl, fun q hq => portOf_onPort_other _ _ fun h => hq (Fin.ext h), rfl⟩
  · show Host.Outcome.next (dasGainWrite p g s) = _
    unfold dasGainWrite
    rw [if_neg (by simpa using hgain)]
  · unfold blankInputChange
    rw [if_neg (by simpa using hnew), portOf_onPort]
    exact ⟨rfl, rfl, fun q hq => portOf_onPort_other _ _ fun h => hq (Fin.ext h), rfl⟩
  · show Host.Outcome.next (blankInputChange p _ s) = _
    unfold blankInputChange
    rw [if_pos (by simp)]
end Sys2Proof.Machine

namespace Sys2Proof.Machine

/-! ## The plausibility watch -/

/-- What the search for a failing field reads. -/
structure FieldsRead where
  items : Store CalItem
  trimming : BitVec 4
  jobs : List PointJob
  banks : Banks
  types : Fin 8 → Nat

/-- What the search reads of a state. -/
def fieldsRead (s : State) : FieldsRead where
  items := s.calib.items
  trimming := s.calib.trimming
  jobs := s.calib.jobs
  banks := s.banks
  types i := paramNat s Pid.rtdType i

theorem inForceFailing_of_fields {s t : State} (h : fieldsRead t = fieldsRead s) : inForceFailing t = inForceFailing s := by
  have hitems : t.calib.items = s.calib.items := congrArg FieldsRead.items h
  have htrim : t.calib.trimming = s.calib.trimming := congrArg FieldsRead.trimming h
  have hjobs : t.calib.jobs = s.calib.jobs := congrArg FieldsRead.jobs h
  have hbanks : t.banks = s.banks := congrArg FieldsRead.banks h
  have htype (i : Fin 8) : paramNat t Pid.rtdType i = paramNat s Pid.rtdType i := congrFun (congrArg FieldsRead.types h) i
  have hitem (item index : Nat) : calItem t item index = calItem s item index := by simp only [calItem, hitems]
  have hrunning (item index : Nat) : calRunning t item index = calRunning s item index := by simp only [calRunning, htrim, hjobs, hitem]
  have hforce (item index k : Nat) : calInForce t item index k = calInForce s item index k := by simp only [calInForce, hbanks, hitem]
  unfold inForceFailing
  simp only [hrunning, hitem, hforce]
  refine List.find?_congr fun ⟨item, index, k, v⟩ hmem => ?_
  have hindex : index < calIndexes item := by
    simp only [List.mem_flatMap, List.mem_range] at hmem
    obtain ⟨item', -, index', hlt, hmem⟩ := hmem
    split at hmem
    · simp at hmem
    · simp only [List.mem_map, Prod.mk.injEq] at hmem
      obtain ⟨-, -, rfl, rfl, -⟩ := hmem
      exact hlt
  unfold calFieldOk
  dsimp only
  split
  case h_3 => rw [htype ⟨index, hindex⟩]
  all_goals rfl

theorem paramNat_rtdType (s : State) (i : Nat) : paramNat s Pid.rtdType i = (Store.read paramDefault s.params (paramKey Pid.rtdType i)).toNat := by
  have heffect : effectOf Pid.rtdType = .atOnce := by decide
  simp [paramNat, paramGet, heffect]

theorem post_fields (code : Nat) (a b c : Int) (s : State) : fieldsRead (post code a b c s) = fieldsRead s := by
  have htype (i : Fin 8) : paramNat (post code a b c s) Pid.rtdType i = paramNat s Pid.rtdType i := by
    have hlost : ∀ k : Fin 8, paramKey Pid.rtdType k ≠ paramKey Pid.hostEvqLost 0 := by decide
    have hlog : ∀ k : Fin 8, paramKey Pid.rtdType k ≠ paramKey Pid.logSuppressed 0 := by decide
    rw [paramNat_rtdType, paramNat_rtdType, post_paramAt (hlost i) (hlog i)]
  simp only [fieldsRead, htype, post_calib, post_banks]

/-- A watch's bit as it is set. -/
theorem watchSet_bits (i : Nat) (hi : i < 4) (failing : Bool) (v : Int) (s : State) (j : Fin 4) : (watchSet i failing v s).calib.watch.getLsbD j =
    if j.val = i then failing else s.calib.watch.getLsbD j := by
  unfold watchSet watchFailing
  split
  next h =>
    split
    · simp_all
    · rfl
  next =>
    rw [post_calib]
    have hbits : ∀ (w : BitVec 4) (k j : Fin 4) (b : Bool),
        (if b then w ||| (1#4 <<< k.val) else w &&& ~~~(1#4 <<< k.val)).getLsbD j = if j.val = k.val then b else w.getLsbD j := by decide
    exact hbits s.calib.watch ⟨i, hi⟩ j failing

theorem watchSet_keep (i : Nat) (failing : Bool) (v : Int) (s : State) : fieldsRead (watchSet i failing v s) = fieldsRead s ∧
    (watchSet i failing v s).rtd = s.rtd ∧ (watchSet i failing v s).calib.rextBoot = s.calib.rextBoot ∧
    plantUntouched { s with calib := (watchSet i failing v s).calib } (watchSet i failing v s) := by
  unfold watchSet
  split
  · exact ⟨rfl, rfl, rfl, by simp [plantUntouched]⟩
  · exact ⟨post_fields _ _ _ _ _, by simp [onCal], by simp [onCal], by simp [onCal, plantUntouched]⟩

theorem calRestore_keep (item index k : Nat) (v : Int) (s : State) : (calRestore item index k v s).calib.watch = s.calib.watch ∧
    (calRestore item index k v s).rtd = s.rtd ∧
    plantUntouched { s with calib := (calRestore item index k v s).calib, banks := (calRestore item index k v s).banks } (calRestore item index k v s) := by
  unfold calRestore calReject
  dsimp only
  split <;> simp [plantUntouched, onCal, onItem, onBanks]

/-- What the watch has found so far: its three first bits, REXT's value at boot, and nothing moved but the calibration's own state. -/
structure WatchedSo (s : State) (b0 b1 b2 : Bool) (t : State) : Prop where
  fields : fieldsRead t = fieldsRead s
  bit0 : t.calib.watch.getLsbD (0 : Fin 4) = b0
  bit1 : t.calib.watch.getLsbD (1 : Fin 4) = b1
  bit2 : t.calib.watch.getLsbD (2 : Fin 4) = b2
  plant : plantUntouched { s with calib := t.calib, rtd := t.rtd } t

theorem WatchedSo.fourth {s t : State} {b0 b1 b2 : Bool} (h : WatchedSo s b0 b1 b2 t) (b3 : Bool) (v : Int) :
    WatchedSo s b0 b1 b2 (watchSet 3 b3 v t) ∧ (watchSet 3 b3 v t).calib.watch.getLsbD (3 : Fin 4) = b3 ∧ (watchSet 3 b3 v t).rtd = t.rtd := by
  obtain ⟨hfields, hrtd, -, hplant⟩ := watchSet_keep 3 b3 v t
  have hbits := watchSet_bits 3 (by decide) b3 v t
  refine ⟨⟨hfields.trans h.fields, (hbits 0).trans h.bit0, (hbits 1).trans h.bit1, (hbits 2).trans h.bit2, ?_⟩, (hbits 3).trans rfl, hrtd⟩
  have hbefore := h.plant
  simp only [plantUntouched] at hplant hbefore ⊢
  simp [hplant, hbefore]

/-- The three readings' bits, and the RTD channels that a far REXT makes invalid. -/
theorem readings_watched (s : State) (b0 b1 far : Bool) (offset reference rext boot : Int) (t : State)
    (ht : watchSet 2 far rext (onCal (fun c => { c with rextBoot := some boot }) (watchSet 1 b1 reference (watchSet 0 b0 offset s))) = t) :
    WatchedSo s b0 b1 far t ∧ t.rtd = s.rtd := by
  obtain ⟨hfields0, hrtd0, -, hplant0⟩ := watchSet_keep 0 b0 offset s
  have hbits0 := watchSet_bits 0 (by decide) b0 offset s
  generalize watchSet 0 b0 offset s = u at *
  obtain ⟨hfields1, hrtd1, -, hplant1⟩ := watchSet_keep 1 b1 reference u
  have hbits1 := watchSet_bits 1 (by decide) b1 reference u
  generalize watchSet 1 b1 reference u = v at *
  obtain ⟨hfields2, hrtd2, -, hplant2⟩ := watchSet_keep 2 far rext (onCal (fun c => { c with rextBoot := some boot }) v)
  have hbits2 := watchSet_bits 2 (by decide) far rext (onCal (fun c => { c with rextBoot := some boot }) v)
  rw [ht] at hfields2 hrtd2 hplant2 hbits2
  refine ⟨⟨hfields2.trans (hfields1.trans hfields0), ?_, ?_, hbits2 2, ?_⟩, hrtd2.trans (hrtd1.trans hrtd0)⟩
  · exact (hbits2 0).trans ((hbits1 0).trans (hbits0 0))
  · exact (hbits2 1).trans (hbits1 1)
  · simp only [plantUntouched, onCal] at hplant0 hplant1 hplant2 ⊢
    simp [hplant0, hplant1, hplant2]

theorem plausibilityWatch_follows (s : State) (offset reference rext : Int) (hruns : scribeRuns s = true) (hup : s.scribe.restarting = false)
    (t : State) (ht : plausibilityWatch offset reference rext s = t) :
    t.calib.watch.getLsbD 0 = decide (16 < offset.natAbs) ∧
    t.calib.watch.getLsbD 1 = decide (Config.referenceFactory < (reference - Config.referenceFactory).natAbs * 500) ∧
    t.calib.watch.getLsbD 2 = decide (3 * (s.calib.rextBoot.getD rext).natAbs < (rext - s.calib.rextBoot.getD rext).natAbs * 100) ∧
    t.calib.watch.getLsbD 3 = (inForceFailing s).isSome ∧
    (t.calib.watch.getLsbD 2 = true → ∀ k : Fin 8, (t.rtd.get k).valid = false) ∧
    (t.calib.watch.getLsbD 2 = false → t.rtd = s.rtd) ∧
    (inForceFailing s = none → t.banks = s.banks ∧ t.calib.items = s.calib.items) ∧
    plantUntouched { s with calib := t.calib, rtd := t.rtd, banks := t.banks } t := by
  have hboot (b0 b1 : Bool) : (watchSet 1 b1 reference (watchSet 0 b0 offset s)).calib.rextBoot = s.calib.rextBoot := by
    obtain ⟨-, -, h0, -⟩ := watchSet_keep 0 b0 offset s
    obtain ⟨-, -, h1, -⟩ := watchSet_keep 1 b1 reference (watchSet 0 b0 offset s)
    exact h1.trans h0
  have hoffset : (!within 0 offset 16) = decide (16 < offset.natAbs) := by
    simp only [within, Int.sub_zero, ← decide_not, not_le]
  unfold plausibilityWatch at ht
  rw [if_neg (by simp [hruns, hup])] at ht
  simp only [hboot] at ht
  generalize decide (Config.referenceFactory < (reference - Config.referenceFactory).natAbs * 500) = b1 at ht ⊢
  generalize hfar : decide (3 * (s.calib.rextBoot.getD rext).natAbs < (rext - s.calib.rextBoot.getD rext).natAbs * 100) = far at ht ⊢
  generalize hu : watchSet 2 far rext _ = u at ht
  obtain ⟨hso, hrtd⟩ := readings_watched s _ _ _ _ _ _ _ _ hu
  generalize hv : (if far = true then { u with rtd := u.rtd.map fun r => { r with valid := false } } else u) = v at ht
  have hsov : WatchedSo s (!within 0 offset 16) b1 far v := by
    rw [← hv]
    split
    · exact ⟨hso.fields, hso.bit0, hso.bit1, hso.bit2, by have h := hso.plant; simp only [plantUntouched] at h ⊢; simp [h]⟩
    · exact hso
  have hinvalid : far = true → ∀ k : Fin 8, (v.rtd.get k).valid = false := by
    rintro rfl k
    rw [← hv, if_pos rfl]
    simp [Vector.get_eq_getElem]
  have hvalid : far = false → v.rtd = s.rtd := by
    rintro rfl
    rw [← hv, if_neg (by decide), hrtd]
  rw [inForceFailing_of_fields hsov.fields] at ht
  rw [← hoffset]
  cases hfail : inForceFailing s with
  | none =>
    simp only [hfail] at ht
    obtain ⟨hlast, hbit3, hrtd3⟩ := hsov.fourth false 0
    rw [ht] at hlast hbit3 hrtd3
    have hbanks : t.banks = s.banks := congrArg FieldsRead.banks hlast.fields
    have hitems : t.calib.items = s.calib.items := congrArg FieldsRead.items hlast.fields
    refine ⟨hlast.bit0, hlast.bit1, hlast.bit2, hbit3, fun h => ?_, fun h => ?_, fun _ => ⟨hbanks, hitems⟩, ?_⟩
    · rw [hrtd3]
      exact hinvalid (hlast.bit2.symm.trans h)
    · rw [hrtd3]
      exact hvalid (hlast.bit2.symm.trans h)
    · have hplant := hlast.plant
      simp only [plantUntouched] at hplant ⊢
      simp [hplant]
  | some e =>
    obtain ⟨item, index, k, x⟩ := e
    simp only [hfail] at ht
    obtain ⟨hlast, hbit3, hrtd3⟩ := hsov.fourth true x
    obtain ⟨hwatch, hrtd4, hplant4⟩ := calRestore_keep item index k x (watchSet 3 true x v)
    rw [ht] at hwatch hrtd4 hplant4
    refine ⟨by rw [hwatch]; exact hlast.bit0, by rw [hwatch]; exact hlast.bit1, by rw [hwatch]; exact hlast.bit2, by rw [hwatch]; exact hbit3,
      fun h => ?_, fun h => ?_, fun h => by simp at h, ?_⟩
    · rw [hrtd4, hrtd3]
      rw [hwatch] at h
      exact hinvalid (hlast.bit2.symm.trans h)
    · rw [hrtd4, hrtd3]
      rw [hwatch] at h
      exact hvalid (hlast.bit2.symm.trans h)
    · have hplant := hlast.plant
      simp only [plantUntouched] at hplant hplant4 ⊢
      simp [hplant, hplant4]

/-- Settles O31: each reading sets its own bit of the watch, and the search for a failing field reads nothing that the readings set. -/
theorem watchFollowsReadings : Obligations.WatchFollowsReadings := by
  unfold Obligations.WatchFollowsReadings
  exact fun s offset reference rext hruns hup => ⟨_, rfl, plausibilityWatch_follows s offset reference rext hruns hup _ rfl⟩

end Sys2Proof.Machine

namespace Sys2Proof.Machine

/-! ## Commands over the sequencers of a mask -/

/-- A command over distinct sequencers changes each of them by its own rule and leaves the others. -/
theorem forEach_seqs {P : State → Prop} {f : Nat → State → State} {g : Nat → Sequencer → Sequencer} (hP : ∀ q u, P u → P (f q u))
    (hself : ∀ (q : Fin 8) u, P u → seqOf (f q u) q = g q (seqOf u q)) (hother : ∀ q r u, r ≠ q → seqOf (f q u) r = seqOf u r)
    {qs : List Nat} (hqs : qs.Nodup) {s : State} (hs : P s) (r : Fin 8) :
    seqOf (forEach qs f s) r = if r.val ∈ qs then g r (seqOf s r) else seqOf s r := by
  induction qs generalizing s with
  | nil => rfl
  | cons q qs ih =>
    obtain ⟨hnot, hqs⟩ := List.nodup_cons.1 hqs
    show seqOf (forEach qs f (f q s)) r = _
    rw [ih hqs (hP q s hs)]
    by_cases h : r.val = q
    · subst h
      simp [hnot, hself r s hs]
    · simp [hother q r s h, h]

theorem mem_maskSeqs (m : Nat) (q : Fin 8) : q.val ∈ maskSeqs m ↔ hasBit m q = true := by
  simp [maskSeqs]

theorem nodup_maskSeqs (m : Nat) : (maskSeqs m).Nodup := List.Nodup.filter _ List.nodup_range

/-- A sequencer armed with its initial state. -/
def seqArmed (initial : Nat) (x : Sequencer) : Sequencer :=
  { x with arm := .armed, state := initial, timers := Vector.replicate 2 none,
           counters := Vector.replicate 2 0, window := none, lastFire := none, recordFrom := 0, recording := false, missed := 0 }

/-- ARM on one sequencer of its mask. -/
def armOne (flags q : Nat) (s : State) : State := if (seqOf s q).arm == .idle || flags == 1 then armSeq q s else s

/-- The plant but for the sequencers. -/
def plantBesidesSeqs (s : State) := plant { s with pointer := { s.pointer with seqs := Vector.replicate 8 {} } }

theorem plantUntouched_of_besides {s t : State} (h : plantBesidesSeqs t = plantBesidesSeqs s) :
    plantUntouched { s with pointer := { s.pointer with seqs := t.pointer.seqs } } t := by
  rw [plantUntouched_iff]
  simp only [plantBesidesSeqs, plant, Prod.mk.injEq] at h ⊢
  obtain ⟨hpower, hclocks, hstraps, hpins, hmode, hbanks, hbooted, hentry, hfirmware, hports, hherder, hserif, hraman, hrtd, hhk, hpointer, hrest⟩ := h
  exact ⟨hpower, hclocks, hstraps, hpins, hmode, hbanks, hbooted, hentry, hfirmware, hports, hherder, hserif, hraman, hrtd, hhk,
    congrArg (fun x : Pointer => { x with seqs := t.pointer.seqs }) hpointer, hrest⟩

@[simp] theorem answer_besidesSeqs (r : Request) (status detail : Nat) (body : List Byte) (s : State) :
    plantBesidesSeqs (answer r status detail body s) = plantBesidesSeqs s := by
  simp [plantBesidesSeqs, plant]

theorem seqOf_answer (r : Request) (status detail : Nat) (body : List Byte) (s : State) (q : Nat) : seqOf (answer r status detail body s) q = seqOf s q := by
  simp [seqOf]

theorem armOne_seq (flags initial : Nat) (q : Fin 8) (u : State) (h : paramNat u Pid.seqInitialState q = initial) :
    seqOf (armOne flags q u) q = if (seqOf u q).arm == .idle || flags == 1 then seqArmed initial (seqOf u q) else seqOf u q := by
  unfold armOne
  split
  · unfold armSeq
    rw [seqOf_onSeq, h]
    rfl
  · rfl

theorem armOne_frame (flags q : Nat) (u : State) : (∀ k, k ≠ q → seqOf (armOne flags q u) k = seqOf u k) ∧ (armOne flags q u).banks = u.banks ∧
    plantBesidesSeqs (armOne flags q u) = plantBesidesSeqs u := by
  unfold armOne
  split
  · exact ⟨fun k hk => seqOf_onSeq_other _ _ hk, rfl, rfl⟩
  · exact ⟨fun _ _ => rfl, rfl, rfl⟩

theorem arm_arms (s : State) (r : Request) (hr : mayExecute s 0x0501 r) (hmode : armMode s.mode.current = true) (hflags : field r.payload 1 1 ≤ 1)
    (hdef : ∀ q : Fin 8, hasBit (field r.payload 0 1) q = true → seqDefined (globalBank s) q = true) : ∃ t, exec .arm s = .next t ∧
      (∀ q : Fin 8, hasBit (field r.payload 0 1) q = true → ((seqOf s q).arm = .idle ∨ field r.payload 1 1 = 1) →
        (seqOf t q).arm = .armed ∧ (seqOf t q).state = paramNat s Pid.seqInitialState q ∧ (seqOf t q).recording = false ∧
        (seqOf t q).timers = Vector.replicate 2 none ∧ (seqOf t q).counters = Vector.replicate 2 0 ∧ (seqOf t q).window = none) ∧
      (∀ q : Fin 8, hasBit (field r.payload 0 1) q = false → seqOf t q = seqOf s q) ∧
      plantUntouched { s with pointer := { s.pointer with seqs := t.pointer.seqs } } t := by
  have hnone : (maskSeqs (field r.payload 0 1)).any (fun q => !seqDefined (globalBank (dequeue r s)) q) = false := by
    rw [List.any_eq_false]
    intro q hq
    have hlt : q < 8 := List.mem_range.1 (List.mem_filter.1 hq).1
    have hok : seqDefined (globalBank (dequeue r s)) q = true := hdef ⟨q, hlt⟩ ((mem_maskSeqs _ ⟨q, hlt⟩).1 hq)
    simp [hok]
  have heffect : effectOf Pid.seqInitialState = .atCommit := by decide
  have hseqs (q : Fin 8) := forEach_seqs (P := fun u => u.banks = s.banks) (f := armOne (field r.payload 1 1))
    (g := fun q x => if x.arm == .idle || field r.payload 1 1 == 1 then seqArmed (paramNat s Pid.seqInitialState q) x else x)
    (fun q u hu => (armOne_frame _ q u).2.1.trans hu) (fun q u hu => armOne_seq _ _ q u (by simp [paramNat, paramGet, heffect, globalBank, hu]))
    (fun q k u hk => (armOne_frame _ q u).1 k hk) (nodup_maskSeqs (field r.payload 0 1)) (s := dequeue r s) rfl q
  have hplant : plantBesidesSeqs (forEach (maskSeqs (field r.payload 0 1)) (armOne (field r.payload 1 1)) (dequeue r s)) = plantBesidesSeqs s :=
    forEach_keep plantBesidesSeqs _ (fun q u => (armOne_frame _ q u).2.2) _ _
  have hexec : exec .arm s = .next (arm r (dequeue r s)) := congrArg Host.Outcome.next (runCommand_of_mayExecute hr _)
  unfold arm at hexec
  rw [if_neg (by simp [hmode]), if_neg (by simp [hnone]; omega)] at hexec
  refine ⟨_, hexec, fun q hq harm => ?_, fun q hq => ?_, plantUntouched_of_besides ((answer_besidesSeqs _ _ _ _ _).trans hplant)⟩
  · rw [seqOf_answer]
    have hidle : ((seqOf s q).arm == .idle || field r.payload 1 1 == 1) = true := by simpa using harm
    have h := hseqs q
    rw [if_pos ((mem_maskSeqs _ q).2 hq), if_pos (show ((seqOf (dequeue r s) q).arm == .idle || field r.payload 1 1 == 1) = true from hidle)] at h
    exact ⟨congrArg Sequencer.arm h, congrArg Sequencer.state h, congrArg Sequencer.recording h, congrArg Sequencer.timers h, congrArg Sequencer.counters h,
      congrArg Sequencer.window h⟩
  · rw [seqOf_answer]
    exact (hseqs q).trans (if_neg fun h => by simp [(mem_maskSeqs _ q).1 h] at hq)

/-- A sequencer disarmed by a command. -/
def seqDisarmed (x : Sequencer) : Sequencer := if x.arm == .idle then x else { x with arm := .idle, recording := false, disarmedByCommit := x.disarmedByCommit || false }

theorem seqOf_post (code : Nat) (a b c : Int) (s : State) (q : Nat) : seqOf (post code a b c s) q = seqOf s q := by
  simp [seqOf]

theorem disarm_seq (q : Fin 8) (u : State) : seqOf (disarm 1 q u) q = seqDisarmed (seqOf u q) := by
  unfold disarm seqDisarmed
  split
  · rfl
  · rw [seqOf_post, seqOf_onSeq]
    rfl

theorem disarm_frame (q : Nat) (u : State) : (∀ k, k ≠ q → seqOf (disarm 1 q u) k = seqOf u k) ∧ plantBesidesSeqs (disarm 1 q u) = plantBesidesSeqs u := by
  unfold disarm
  split
  · exact ⟨fun _ _ => rfl, rfl⟩
  · refine ⟨fun k hk => ?_, ?_⟩
    · rw [seqOf_post, seqOf_onSeq_other _ _ hk]
    · simp [plantBesidesSeqs, plant, onSeq]

theorem disarm_disarms (s : State) (r : Request) (hr : mayExecute s 0x0502 r) (hmode : armMode s.mode.current = true) : ∃ t, exec .disarm s = .next t ∧
    (∀ q : Fin 8, hasBit (field r.payload 0 1) q = true → (seqOf t q).arm = .idle) ∧
    (∀ q : Fin 8, hasBit (field r.payload 0 1) q = false → seqOf t q = seqOf s q) ∧
    plantUntouched { s with pointer := { s.pointer with seqs := t.pointer.seqs } } t := by
  have hseqs (q : Fin 8) := forEach_seqs (P := fun _ => True) (f := disarm 1) (g := fun _ => seqDisarmed) (fun _ _ _ => trivial)
    (fun q u _ => disarm_seq q u) (fun q k u hk => (disarm_frame q u).1 k hk) (nodup_maskSeqs (field r.payload 0 1)) (s := dequeue r s) trivial q
  have hplant : plantBesidesSeqs (forEach (maskSeqs (field r.payload 0 1)) (disarm 1) (dequeue r s)) = plantBesidesSeqs s :=
    forEach_keep plantBesidesSeqs _ (fun q u => (disarm_frame q u).2) _ _
  have hexec : exec .disarm s = .next (disarmCmd r (dequeue r s)) := congrArg Host.Outcome.next (runCommand_of_mayExecute hr _)
  unfold disarmCmd answerOk at hexec
  rw [if_neg (by simp [hmode])] at hexec
  refine ⟨_, hexec, fun q hq => ?_, fun q hq => ?_, plantUntouched_of_besides ((answer_besidesSeqs _ _ _ _ _).trans hplant)⟩
  · rw [seqOf_answer, hseqs q, if_pos ((mem_maskSeqs _ q).2 hq)]
    unfold seqDisarmed
    split <;> simp_all
  · rw [seqOf_answer]
    exact (hseqs q).trans (if_neg fun h => by simp [(mem_maskSeqs _ q).1 h] at hq)

theorem arm_refused (s : State) (r : Request) (hr : mayExecute s 0x0501 r) (hmode : armMode s.mode.current = false) :
    exec .arm s = .next (refuse r 0x30 0 (dequeue r s)) := by
  refine congrArg Host.Outcome.next ((runCommand_of_mayExecute hr _).trans ?_)
  unfold arm
  exact if_pos (by simp [hmode])

/-! ## SEQ_LOAD -/

/-- Records put one after another at distinct keys are each read back. -/
theorem read_putRecords (key : Nat → Nat) (hkey : Function.Injective key) (n : Nat) (f : Nat → List Byte) (m : Store (List Byte)) (i : Nat) (hi : i < n) :
    Store.read (fun _ => []) ((((List.range n).map f).zipIdx).foldl (fun m e => Store.put m (key e.2) e.1) m) (key i) = f i := by
  induction n with
  | zero => omega
  | succ n ih =>
    rw [List.range_succ, List.map_append, List.zipIdx_append, List.foldl_append]
    simp only [List.map_cons, List.map_nil, List.zipIdx_singleton, List.foldl_cons, List.foldl_nil, List.length_map, List.length_range, Nat.zero_add]
    by_cases h : i = n
    · subst h
      rw [Store.read_put_self]
    · rw [Store.read_put_other _ _ _ fun hk => h (hkey hk)]
      exact ih (by omega)

/-- PENDING's bank with the records of a SEQ_LOAD. -/
def seqsLoaded (p : List Byte) (base : Bank) : Bank :=
  let kept := if field p 3 1 = 1 then base.seqs.filter fun e => e.1 / 16 != field p 0 1 else base.seqs
  let records := ((List.range (field p 2 1)).map fun i => slice p (4 + 128 * i) 128).zipIdx
  let seqs := records.foldl (fun m e => Store.put m (field p 0 1 * 16 + field p 1 1 + e.2) e.1) kept
  { base with seqs := seqs }

theorem seqLoad_stages (s : State) (r : Request) (hr : mayExecute s 0x0500 r) (hq : field r.payload 0 1 ≤ 7)
    (hn : field r.payload 1 1 + field r.payload 2 1 ≤ 16) (hflags : field r.payload 3 1 ≤ 1)
    (hconds : ∀ i < field r.payload 2 1, ∀ j < 4, condFields (condOf (slice r.payload (4 + 128 * i) 128) j) = true) :
    ∃ t b, exec .seqLoad s = .next t ∧ t.banks = { s.banks with pending := some b } ∧
      (∀ i < field r.payload 2 1, seqState b (field r.payload 0 1) (field r.payload 1 1 + i) = slice r.payload (4 + 128 * i) 128) ∧
      b.params = (s.banks.pending.getD s.banks.active).params ∧ t.journal.newest = nextJournal s ∧
      plantUntouched { s with banks := t.banks } t := by
  have hfind : ((((List.range (field r.payload 2 1)).map fun i => slice r.payload (4 + 128 * i) 128).zipIdx).find? fun e =>
      (List.range 4).any fun j => !condFields (condOf e.1 j)) = none := by
    rw [List.find?_eq_none]
    rintro ⟨st, i⟩ hmem
    obtain ⟨-, hi, hst⟩ := List.mem_zipIdx hmem
    simp only [List.length_map, List.length_range, Nat.zero_add] at hi
    simp only [Nat.sub_zero, List.getElem_map, List.getElem_range] at hst
    simp only [List.any_eq_true, List.mem_range, not_exists, not_and]
    intro j hj
    simp [hst, hconds i hi j hj]
  have hexec : exec .seqLoad s = .next (seqLoad r (dequeue r s)) := congrArg Host.Outcome.next (runCommand_of_mayExecute hr _)
  unfold seqLoad at hexec
  rw [if_neg (by simp; omega)] at hexec
  simp only [hfind, withJournal] at hexec
  refine ⟨_, seqsLoaded r.payload (s.banks.pending.getD s.banks.active), hexec, ?_, fun i hi => ?_, rfl, ?_, ?_⟩
  · simp [onBanks]
    rfl
  · have hkey : Function.Injective fun i => field r.payload 0 1 * 16 + field r.payload 1 1 + i := fun a b h => by simpa using h
    rw [seqState, ← Nat.add_assoc]
    exact read_putRecords _ hkey _ (fun i => slice r.payload (4 + 128 * i) 128) _ i hi
  · simp [journalOpen_newest, onBanks]
    rfl
  · simp [plantUntouched, onBanks]

/-! ## The master arm and the lines -/

theorem updateMasterArm_state (cause : Nat) (s : State) : (updateMasterArm cause s).pointer = { s.pointer with masterArmed := masterArmNow s } ∧
    plantUntouched { s with pointer := { s.pointer with masterArmed := masterArmNow s } } (updateMasterArm cause s) := by
  unfold updateMasterArm
  dsimp only
  split
  next h =>
    have hsame : masterArmNow s = s.pointer.masterArmed := by simpa using h
    rw [hsame]
    exact ⟨rfl, by simp [plantUntouched]⟩
  · simp [onPtr, plantUntouched]

theorem updateMasterArm_paramAt {k : Nat} (hq : k ≠ paramKey Pid.hostEvqLost 0) (hl : k ≠ paramKey Pid.logSuppressed 0) (cause : Nat) (s : State) :
    Store.read paramDefault (updateMasterArm cause s).params k = Store.read paramDefault s.params k := by
  unfold updateMasterArm
  dsimp only
  split
  · rfl
  · exact post_paramAt hq hl _ _ _ _ _

theorem masterArm_written (s : State) (on : Bool) (hwf : s.paramsWf = true) : ∃ t, exec (.masterArmWrite on) s = .next t ∧
    paramBool t Pid.ptrMasterArm 0 = on ∧
    (on = false → t.pointer.masterArmed = false) ∧ (on = true → paramNat s Pid.ptrArmBus 0 ≠ 2 → t.pointer.masterArmed = true) ∧
    plantUntouched { s with pointer := { s.pointer with masterArmed := t.pointer.masterArmed } } t := by
  have heffect : effectOf Pid.ptrMasterArm = .atOnce := by decide
  have hread : Store.read paramDefault (paramPut Pid.ptrMasterArm 0 (bit on) s).params (paramKey Pid.ptrMasterArm 0) = (bit on : Int) :=
    Store.read_write_self _ _ _ _ hwf
  have harm : paramBool (paramPut Pid.ptrMasterArm 0 (bit on) s) Pid.ptrMasterArm 0 = on := by
    simp only [paramBool, paramGet, heffect, hread]
    cases on <;> rfl
  have hbus : paramNat (paramPut Pid.ptrMasterArm 0 (bit on) s) Pid.ptrArmBus 0 = paramNat s Pid.ptrArmBus 0 := by
    have hbusEffect : effectOf Pid.ptrArmBus = .atOnce := by decide
    simp only [paramNat, paramGet, hbusEffect]
    exact congrArg Int.toNat (Store.read_write_other _ _ _ (by decide))
  obtain ⟨hpointer, hplant⟩ := updateMasterArm_state 0 (paramPut Pid.ptrMasterArm 0 (bit on) s)
  have hmaster : (updateMasterArm 0 (paramPut Pid.ptrMasterArm 0 (bit on) s)).pointer.masterArmed = masterArmNow (paramPut Pid.ptrMasterArm 0 (bit on) s) := by
    rw [hpointer]
  refine ⟨_, rfl, ?_, fun hoff => ?_, fun hon hfree => ?_, ?_⟩
  · refine Eq.trans ?_ harm
    simp only [paramBool, paramGet, heffect, updateMasterArm_paramAt (k := paramKey Pid.ptrMasterArm 0) (by decide) (by decide)]
  · rw [hmaster, masterArmNow, harm, hoff, Bool.false_and]
  · rw [hmaster, masterArmNow, harm, hbus, hon]
    simp [hfree]
  · rw [hmaster]
    exact hplant

/-- Settles O52: a mask's command is one step per sequencer; the master arm is recomputed from its parameter and its line. -/
theorem sequencersArm : Obligations.SequencersArm := by
  unfold Obligations.SequencersArm
  refine ⟨seqLoad_stages, arm_arms, disarm_disarms, arm_refused, masterArm_written, fun s v hwf => ⟨_, rfl, ?_, rfl⟩, fun s low => ⟨_, rfl, ?_⟩,
    fun s hout hlive => ⟨_, rfl, ?_⟩, fun _ => rfl⟩
  · have heffect : effectOf Pid.ptrFlags = .atOnce := by decide
    have hread : Store.read paramDefault (paramPut Pid.ptrFlags 0 (v % 256 : Nat) s).params (paramKey Pid.ptrFlags 0) = ((v % 256 : Nat) : Int) :=
      Store.read_write_self _ _ _ _ hwf
    simp only [paramNat, paramGet, heffect, hread]
    exact Int.toNat_natCast _
  · obtain ⟨hpointer, hplant⟩ := updateMasterArm_state 1 (onPtr (fun x => { x with armLow := low }) s)
    rw [hpointer]
    have harmed : masterArmNow (onPtr (fun x => { x with armLow := low }) s) =
        (paramBool s Pid.ptrMasterArm 0 && (paramNat s Pid.ptrArmBus 0 != 2 || (low && linesLive s.mode.current))) := rfl
    rw [harmed]
    refine ⟨rfl, fun hlow hbus => by simp [hlow, hbus], fun hlow harm hlive => by simp [hlow, harm, hlive], ?_⟩
    rw [← harmed]
    exact hplant
  · unfold remoteFireEdge
    rw [if_neg (by simp [hout, hlive])]
    refine ⟨fun q => ?_, rfl⟩
    simp [onPtr, Vector.get_eq_getElem]
end Sys2Proof.Machine

namespace Sys2Proof.Machine

/-- What an RTD channel has measured, without its place in the queue for the excitation source. -/
def rtdReading (r : Rtd) : Rtd := { r with running := false, due := false, attempts := 0, written := false }

theorem rtdOf_onRtd_if (k : Fin 8) (j : Fin 8) (f : Rtd → Rtd) (s : State) :
    rtdOf (onRtd k f s) j = if j = k then f (rtdOf s j) else rtdOf s j := by
  split
  next h => subst h; simp
  next h => exact rtdOf_onRtd_other _ _ fun hv => h (Fin.ext hv)

theorem rtdReading_rtdNext (s : State) (k : Fin 8) : rtdReading (rtdOf (rtdNext s) k) = rtdReading (rtdOf s k) := by
  unfold rtdNext rtdBegin
  split
  · rfl
  · split
    next j hj =>
      have hlt : j < 8 := List.mem_range.1 (List.mem_of_find?_eq_some hj)
      rw [rtdOf_onRtd_if ⟨j, hlt⟩ k]
      split <;> rfl
    next => rfl

theorem rtdOf_of_rtd {s t : State} (h : t.rtd = s.rtd) (k : Nat) : rtdOf t k = rtdOf s k := by
  unfold rtdOf
  rw [h]

@[simp] theorem rtdOf_rtdPoint (k : Nat) (ok : Bool) (v : Int) (s : State) (j : Nat) : rtdOf (rtdPoint k ok v s) j = rtdOf s j :=
  rtdOf_of_rtd (by simp) j

theorem rtd_any_of_running {s : State} (j : Fin 8) (h : (rtdOf s j).running = true) : s.rtd.any (·.running) = true := by
  rw [Vector.any_eq_true]
  refine ⟨j, j.isLt, ?_⟩
  simpa [rtdOf, vecRead] using h

theorem rtd_any_none {s : State} (h : ∀ j : Fin 8, (rtdOf s j).running = false) : s.rtd.any (·.running) = false := by
  rw [Vector.any_eq_false]
  intro i hi
  have := h ⟨i, hi⟩
  simp only [rtdOf, vecRead, hi, dif_pos] at this
  simp [this]

theorem find_due {s : State} (k : Fin 8) (hk : (rtdOf s k).due = true) (hother : ∀ j : Fin 8, j ≠ k → (rtdOf s j).due = false) :
    ((List.range 8).find? fun i => (rtdOf s i).due) = some k.val := by
  rw [List.find?_range_eq_some]
  refine ⟨hk, by simp, fun j hj => ?_⟩
  have hlt : j < 8 := hj.trans k.isLt
  simpa using hother ⟨j, hlt⟩ fun h => by simp [← h] at hj

theorem onRtd_only (k : Nat) (f : Rtd → Rtd) (s : State) : onRtd k f s = { s with rtd := (onRtd k f s).rtd } := rfl

theorem rtdDue_takes (s : State) (k : Fin 8) (hen : paramBool s Pid.rtdEnable k = true) (hmode : s.mode.current ≠ .reset)
    (hfree : ∀ j : Fin 8, (rtdOf s j).running = false ∧ (rtdOf s j).due = false) :
    rtdDue k s = rtdBegin k (onRtd k (fun r => { r with due := true }) s) := by
  have hguard : (paramBool s Pid.rtdEnable k && s.mode.current != .reset) = true := by simp [hen, hmode]
  unfold rtdDue
  rw [if_pos hguard]
  generalize hu : onRtd k _ s = u
  have hof (j : Fin 8) : rtdOf u j = if j = k then { rtdOf s j with due := true } else rtdOf s j := by rw [← hu, rtdOf_onRtd_if]
  have hrun (j : Fin 8) : (rtdOf u j).running = false := by
    rw [hof]
    split <;> exact (hfree j).1
  have hfind := find_due (s := u) k (by rw [hof, if_pos rfl]) fun j hj => by rw [hof, if_neg hj]; exact (hfree j).2
  simp only [rtdNext, rtd_any_none hrun, hfind, Bool.false_eq_true, if_false]

theorem rtdDue_waits (s : State) (k j : Fin 8) (hen : paramBool s Pid.rtdEnable k = true) (hmode : s.mode.current ≠ .reset)
    (hrun : (rtdOf s j).running = true) : rtdDue k s = onRtd k (fun r => { r with due := true }) s := by
  have hguard : (paramBool s Pid.rtdEnable k && s.mode.current != .reset) = true := by simp [hen, hmode]
  unfold rtdDue
  rw [if_pos hguard]
  generalize hu : onRtd k _ s = u
  have : (rtdOf u j).running = true := by
    rw [← hu, rtdOf_onRtd_if]
    split <;> exact hrun
  simp [rtdNext, rtd_any_of_running j this]

theorem rtdFault_rtd (k : Fin 8) (code : Nat) (ohms : Int) (s : State) :
    (rtdOf (rtdFault k code ohms s) k).faultSeen = true ∧ (rtdOf (rtdFault k code ohms s) k).valid = false ∧
      (rtdOf (rtdFault k code ohms s) k).last = (rtdOf s k).last ∧ (rtdOf (rtdFault k code ohms s) k).resultMc = (rtdOf s k).resultMc := by
  unfold rtdFault
  dsimp only
  split
  · simp
  · simp [rtdOf_of_rtd (post_rtd _ _ _ _ _)]

theorem rtdFinish_faulty (k : Fin 8) (code : Nat) (m : Option RtdSums) (s : State) (h : code ≠ 0) :
    (rtdOf (rtdFinish k code m s) k).last = code ∧ (rtdOf (rtdFinish k code m s) k).valid = false ∧
      (rtdOf (rtdFinish k code m s) k).faultSeen = true ∧ (rtdOf (rtdFinish k code m s) k).resultMc = (rtdOf s k).resultMc ∧
      plantUntouched { s with rtd := (rtdFinish k code m s).rtd, calib := (rtdFinish k code m s).calib } (rtdFinish k code m s) := by
  obtain ⟨c, rfl⟩ := Nat.exists_eq_succ_of_ne_zero h
  refine and_assoc.1 (and_assoc.1 (and_assoc.1 ⟨?_, ?_⟩))
  · unfold rtdFinish
    dsimp only
    generalize hu : onRtd k _ s = u
    obtain ⟨hseen, hvalid, hlast, hres⟩ := rtdFault_rtd k c.succ ((m.map (rtdResistance u k)).getD 0xFFFFFFFF) u
    have hu' : (rtdOf u k).last = c.succ ∧ (rtdOf u k).resultMc = (rtdOf s k).resultMc := by simp [← hu]
    generalize hw : rtdPoint _ _ _ _ = w
    have hread := rtdReading_rtdNext w k
    rw [← hw, rtdOf_rtdPoint] at hread
    rw [← hw]
    exact ⟨⟨⟨(congrArg Rtd.last hread).trans (hlast.trans hu'.1), (congrArg Rtd.valid hread).trans hvalid⟩,
      (congrArg Rtd.faultSeen hread).trans hseen⟩, (congrArg Rtd.resultMc hread).trans (hres.trans hu'.2)⟩
  · simp [plantUntouched, rtdFinish]


theorem rtdFinish_good (k : Fin 8) (m : RtdSums) (s : State) (hwatch : watchFailing s 2 = false) :
    (rtdOf (rtdFinish k 0 (some m) s) k).last = 0 ∧ (rtdOf (rtdFinish k 0 (some m) s) k).valid = true ∧
      (rtdOf (rtdFinish k 0 (some m) s) k).resultMohm = (rtdResistance s k m).toNat ∧
      (rtdOf (rtdFinish k 0 (some m) s) k).validTick = rtdMidpoint s k ∧
      (rtdOf (rtdFinish k 0 (some m) s) k).resultMc = cvdTemperature (rtdResistance s k m) (rtdR0 s k) (paramGet s Pid.rtdCvdA k)
        (paramGet s Pid.rtdCvdB k) (paramGet s Pid.rtdCvdC k) ∧
      plantUntouched { s with rtd := (rtdFinish k 0 (some m) s).rtd, calib := (rtdFinish k 0 (some m) s).calib } (rtdFinish k 0 (some m) s) := by
  refine and_assoc.1 (and_assoc.1 (and_assoc.1 (and_assoc.1 ⟨?_, ?_⟩)))
  · unfold rtdFinish
    dsimp only
    generalize hu : onRtd k (fun r => { r with running := false, last := 0 }) s = u
    have hsame : u = { s with rtd := u.rtd } := by rw [← hu]; rfl
    have hw : watchFailing u 2 = false := by rw [hsame]; exact hwatch
    have hlast : (rtdOf u k).last = 0 := by simp [← hu]
    have hres : rtdResistance u k m = rtdResistance s k m := by rw [hsame]; rfl
    have hmid : rtdMidpoint u k = rtdMidpoint s k := by rw [hsame]; rfl
    have hr0 : rtdR0 u k = rtdR0 s k := by rw [hsame]; rfl
    have hpar (id : Nat) : paramGet u id k = paramGet s id k := by rw [hsame]; rfl
    simp only [hw, Bool.not_false, if_true, hres, hmid, hr0, hpar]
    generalize hx : onRtd k _ u = x
    generalize hv : rtdPoint _ _ _ x = v
    have hread : rtdReading (rtdOf (rtdNext v) k) = rtdReading (rtdOf x k) := by
      rw [rtdReading_rtdNext, ← hv, rtdOf_rtdPoint]
    have hof := rtdOf_onRtd k
    refine ⟨⟨⟨⟨(congrArg Rtd.last hread).trans ?_, (congrArg Rtd.valid hread).trans ?_⟩, (congrArg Rtd.resultMohm hread).trans ?_⟩,
      (congrArg Rtd.validTick hread).trans ?_⟩, (congrArg Rtd.resultMc hread).trans ?_⟩ <;> simp [rtdReading, ← hx, hlast]
  · simp [plantUntouched, rtdFinish]

/-! Raman traces. -/

theorem ramanOf_of_raman {s t : State} (h : t.raman = s.raman) (p : Nat) : ramanOf t p = ramanOf s p := by
  unfold ramanOf
  rw [h]

theorem ramanOf_onRaman_ne {p q : Nat} (f : Raman → Raman) (s : State) (h : q ≠ p) : ramanOf (onRaman p f s) q = ramanOf s q :=
  vecRead_vecUpdate_other _ _ _ h

/-- Of an accumulator, what says whether and how far it runs. -/
def ramanProgress (x : Raman) : Nat × RamanCfg × Nat := (x.shots, x.cfg, x.traceCount)

theorem addBoxcar_progress (s : State) (p : Nat) (t : Shot) (codes : RamanCodes) (x : Raman) (j : Nat) :
    ramanProgress (addBoxcar s p t codes x j) = ramanProgress x := by
  unfold addBoxcar
  dsimp only
  split <;> rfl

theorem foldl_addBoxcar_progress (s : State) (p : Nat) (t : Shot) (codes : RamanCodes) (js : List Nat) (x : Raman) :
    ramanProgress (js.foldl (addBoxcar s p t codes) x) = ramanProgress x := by
  induction js generalizing x with
  | nil => rfl
  | cons j js ih => rw [List.foldl_cons, ih, addBoxcar_progress]

theorem ramanAccumulate_frame (p : Nat) (codes : RamanCodes) (s : State) :
    ramanAccumulate p codes s = { s with raman := (ramanAccumulate p codes s).raman, params := (ramanAccumulate p codes s).params } := by
  unfold ramanAccumulate
  dsimp only
  split
  · split
    · rfl
    · split <;> rfl
  · rfl

theorem ramanAccumulate_progress (p : Fin 4) (codes : RamanCodes) (s : State) :
    ramanProgress (ramanOf (ramanAccumulate p codes s) p) = ramanProgress (ramanOf s p) := by
  unfold ramanAccumulate
  dsimp only
  split
  next t _ =>
    split
    · rfl
    · have hput := foldl_addBoxcar_progress s p t codes (reachedCells (ramanOf s p) codes) (ramanOf s p)
      split
      · rw [ramanOf_of_raman (bump_raman _ _ _) p, ramanOf_onRaman]
        exact hput
      · rw [ramanOf_onRaman]
        exact hput
  next =>
    rw [ramanOf_onRaman]
    rfl

theorem ramanAccumulate_other (p : Nat) (codes : RamanCodes) (s : State) {q : Nat} (hq : q ≠ p) :
    ramanOf (ramanAccumulate p codes s) q = ramanOf s q := by
  unfold ramanAccumulate
  dsimp only
  split
  · split
    · rfl
    · split
      · rw [ramanOf_of_raman (bump_raman _ _ _) q, ramanOf_onRaman_ne _ _ hq]
      · rw [ramanOf_onRaman_ne _ _ hq]
  · exact ramanOf_onRaman_ne _ _ hq

theorem thermalDue_frame (p : Nat) (h : TraceHeader) (s : State) : ∃ d, thermalDue p h s = { s with herder := d } := by
  refine forEach_preserves (P := fun t => ∃ d, t = { s with herder := d }) (fun z u hu => ?_) _ ⟨s.herder, rfl⟩
  obtain ⟨d, rfl⟩ := hu
  split
  · exact ⟨_, rfl⟩
  · exact ⟨d, rfl⟩

theorem traceDone_raman (p : Nat) (f : TraceFacts) (s : State) : (traceDone p f s).raman = (onRaman p (traceAfter f) s).raman := by
  unfold traceDone
  dsimp only
  generalize hu : post 0x1401 _ _ _ _ = u
  obtain ⟨d, hd⟩ := thermalDue_frame p f.header u
  rw [hd]
  simp [← hu]

theorem traceDone_plant (p : Nat) (f : TraceFacts) (s : State) :
    plantUntouched
      { s with
        raman := (traceDone p f s).raman
        rtd := (traceDone p f s).rtd
        calib := (traceDone p f s).calib
        herder := (traceDone p f s).herder } (traceDone p f s) := by
  unfold traceDone
  dsimp only
  generalize hu : post 0x1401 _ _ _ _ = u
  obtain ⟨d, hd⟩ := thermalDue_frame p f.header u
  rw [hd]
  simp [plantUntouched, ← hu]

theorem dtsTraceComplete_done (s : State) (p : Fin 4) (codes : RamanCodes) (hrun : (ramanOf s p).running = true)
    (hshots : 2 ^ (ramanOf s p).cfg.shotsLog2 ≤ (ramanOf s p).shots) (hopen : (ramanOf s p).launchOpen = true) :
    dtsTraceComplete p codes s = traceDone p (traceFacts (ramanAccumulate p codes s) p) (ramanAccumulate p codes s) := by
  have hacc := ramanAccumulate_progress p codes s
  simp only [ramanProgress, Prod.mk.injEq] at hacc
  obtain ⟨hsh, hcfg, -⟩ := hacc
  have hguard : ¬((!(ramanOf s p).running || decide ((ramanOf s p).shots < 2 ^ (ramanOf s p).cfg.shotsLog2)) = true) := by simp [hrun, hshots]
  unfold dtsTraceComplete ramanClose
  rw [if_neg hguard, if_neg (by simp [hopen])]
  dsimp only
  rw [hsh, hcfg, if_pos hshots]

theorem dtsTraceComplete_handsOff (s : State) (p : Fin 4) (codes : RamanCodes) (hrun : (ramanOf s p).running = true)
    (hshots : 2 ^ (ramanOf s p).cfg.shotsLog2 ≤ (ramanOf s p).shots) (hopen : (ramanOf s p).launchOpen = true) :
    ∃ t, exec (.dtsTraceComplete p codes) s = .next t ∧ (ramanOf t p).running = false ∧ (ramanOf t p).shots = 0 ∧
      (ramanOf t p).handoff = (traceFacts (ramanAccumulate p codes s) p).cells ∧ (ramanOf t p).header = (traceFacts (ramanAccumulate p codes s) p).header ∧
      (ramanOf t p).handoffHeld = (ramanOf t p).dark.isNone ∧ (ramanOf t p).traceCount = (ramanOf s p).traceCount + 1 ∧
      (∀ q : Fin 4, q ≠ p → ramanOf t q = ramanOf s q) ∧
      plantUntouched { s with raman := t.raman, rtd := t.rtd, calib := t.calib, herder := t.herder } t := by
  refine ⟨_, rfl, ?_⟩
  rw [dtsTraceComplete_done s p codes hrun hshots hopen]
  have hcount := congrArg (·.2.2) (ramanAccumulate_progress p codes s)
  have hother (q : Fin 4) (hq : q ≠ p) := ramanAccumulate_other p codes s (q := q) fun h => hq (Fin.ext h)
  have hframe := ramanAccumulate_frame p codes s
  generalize ramanAccumulate p codes s = u at hcount hother hframe ⊢
  generalize traceFacts u p = f
  have hraman := traceDone_raman p f u
  have hplant := traceDone_plant p f u
  generalize traceDone p f u = t at hraman hplant ⊢
  have hof : ramanOf t p = traceAfter f (ramanOf u p) := (ramanOf_of_raman hraman p).trans (ramanOf_onRaman p _ _)
  simp only [hof]
  refine ⟨rfl, rfl, rfl, rfl, rfl, congrArg (· + 1) hcount, fun q hq => ?_, ?_⟩
  · rw [ramanOf_of_raman hraman q, ramanOf_onRaman_ne _ _ fun h => hq (Fin.ext h), hother q hq]
  · rw [hframe] at hplant
    exact hplant

/-! The housekeeping converter. -/

theorem hkWord_toNat (s : State) (old : BitVec 32) (late : Bool) (code : Int) :
    (hkWord s old late code).toNat = (old.toNat / 2 ^ 24 + 1) % 256 * 2 ^ 24 +
      2 ^ 17 * bit (!hkRailOk s || watchFailing s 0 || watchFailing s 1) + 2 ^ 16 * bit late + unsigned 16 code := by
  have hb (b : Bool) : bit b ≤ 1 := by cases b <;> decide
  have hu : unsigned 16 code < 2 ^ 16 := by
    unfold unsigned
    omega
  have h1 := hb (!hkRailOk s || watchFailing s 0 || watchFailing s 1)
  have h2 := hb late
  unfold hkWord
  dsimp only
  rw [BitVec.toNat_ofNat]
  exact Nat.mod_eq_of_lt (by omega)

/-- What a result word says of one conversion: its code, its count, that it was late and that it is invalid (R293). -/
def hkSays (s : State) (old w : BitVec 32) (late : Bool) (code : Int) : Prop :=
  w.setWidth 16 = BitVec.ofInt 16 code ∧ w.getLsbD 16 = late ∧ (w >>> 24).setWidth 8 = (old >>> 24).setWidth 8 + 1#8 ∧
    w.getLsbD 17 = (!hkRailOk s || watchFailing s 0 || watchFailing s 1)

theorem hkWord_says (s : State) (old : BitVec 32) (late : Bool) (code : Int) : hkSays s old (hkWord s old late code) late code := by
  have hw := hkWord_toNat s old late code
  have hcode : (BitVec.ofInt 16 code).toNat = unsigned 16 code := by
    unfold unsigned
    rw [BitVec.toNat_ofInt]
    norm_num
  have hu : unsigned 16 code < 2 ^ 16 := hcode ▸ (BitVec.ofInt 16 code).isLt
  have hold : (old >>> 24).toNat = old.toNat / 2 ^ 24 := by rw [BitVec.toNat_ushiftRight, Nat.shiftRight_eq_div_pow]
  unfold hkSays
  generalize hkWord s old late code = w at hw ⊢
  generalize (!hkRailOk s || watchFailing s 0 || watchFailing s 1) = bad at hw ⊢
  have hb (b : Bool) : bit b = 1 ∧ b = true ∨ bit b = 0 ∧ b = false := by cases b <;> decide
  refine ⟨BitVec.eq_of_toNat_eq ?_, ?_, BitVec.eq_of_toNat_eq ?_, ?_⟩
  · rw [BitVec.toNat_setWidth, hcode, hw]
    omega
  · rw [BitVec.getLsbD, Nat.testBit_eq_decide_div_mod_eq, hw]
    rcases hb late with ⟨h1, rfl⟩ | ⟨h1, rfl⟩ <;> simp only [h1, decide_eq_true_eq, decide_eq_false_iff_not] <;> omega
  · rw [BitVec.toNat_setWidth, BitVec.toNat_ushiftRight, Nat.shiftRight_eq_div_pow, hw, BitVec.toNat_add, BitVec.toNat_setWidth, hold]
    generalize old.toNat / 2 ^ 24 = q
    have h1 := hb late
    have h2 := hb bad
    rw [BitVec.toNat_ofNat]
    omega
  · rw [BitVec.getLsbD, Nat.testBit_eq_decide_div_mod_eq, hw]
    rcases hb late with ⟨h1, -⟩ | ⟨h1, -⟩ <;> rcases hb bad with ⟨h2, rfl⟩ | ⟨h2, rfl⟩ <;>
      simp only [h1, h2, decide_eq_true_eq, decide_eq_false_iff_not] <;> omega

/-- The result word of a housekeeping input. -/
def hkOf (s : State) (i : Nat) : BitVec 32 := vecRead s.hk.result i 0

theorem hkWord_congr {s t : State} (hp : t.power = s.power) (hc : t.calib = s.calib) (old : BitVec 32) (late : Bool) (code : Int) :
    hkWord t old late code = hkWord s old late code := by
  unfold hkWord hkRailOk watchFailing
  rw [hp, hc]

theorem hkOf_hkResult (i : Nat) (h : i < 32) (code : Int) (s : State) :
    hkOf (hkResult i code s) i = hkWord s (hkOf s i) false code := by
  unfold hkOf hkResult
  rw [hkToPointer_hk]
  exact vecRead_vecUpdate _ _ _ h

theorem hkOf_hkResult_other {i j : Nat} (code : Int) (s : State) (h : j ≠ i) : hkOf (hkResult i code s) j = hkOf s j := by
  unfold hkOf hkResult
  rw [hkToPointer_hk]
  exact vecRead_vecUpdate_other _ _ _ h

theorem hkResult_frame (i : Nat) (code : Int) (s : State) :
    hkResult i code s = { s with hk := (hkResult i code s).hk, pointer := (hkResult i code s).pointer } := rfl

/-- A state that differs from another in the converter and the Pointer alone. -/
def hkOnly (s t : State) : Prop := t = { s with hk := t.hk, pointer := t.pointer }

theorem hkOnly_hkResult {s u : State} (i : Nat) (code : Int) (h : hkOnly s u) : hkOnly s (hkResult i code u) := by
  unfold hkOnly at h ⊢
  rw [hkResult_frame, h]

theorem hkScan_entries (s : State) : ∀ (es : List (Nat × Int)) (u : State), hkOnly s u → (es.map (·.1)).Nodup → (∀ e ∈ es, e.1 < 32) →
    hkOnly s (forEach es (fun e s => hkResult e.1 e.2 s) u) ∧
      (∀ e ∈ es, hkOf (forEach es (fun e s => hkResult e.1 e.2 s) u) e.1 = hkWord s (hkOf u e.1) false e.2) ∧
      ∀ i, i ∉ es.map (·.1) → hkOf (forEach es (fun e s => hkResult e.1 e.2 s) u) i = hkOf u i
  | [], u, hu, _, _ => ⟨hu, by simp, fun _ _ => rfl⟩
  | e :: es, u, hu, hnodup, hlt => by
    rw [List.map_cons, List.nodup_cons] at hnodup
    obtain ⟨hnot, hnodup⟩ := hnodup
    obtain ⟨honly, hin, hout⟩ := hkScan_entries s es (hkResult e.1 e.2 u) (hkOnly_hkResult _ _ hu) hnodup fun x hx => hlt x (List.mem_cons_of_mem _ hx)
    have hword (old : BitVec 32) (code : Int) : hkWord u old false code = hkWord s old false code :=
      hkWord_congr (congrArg State.power hu) (congrArg State.calib hu) _ _ _
    refine ⟨honly, fun x hx => ?_, fun i hi => ?_⟩
    · rcases List.mem_cons.1 hx with rfl | hx
      · exact (hout _ hnot).trans ((hkOf_hkResult _ (hlt _ (by simp)) _ _).trans (hword _ _))
      · have hne : x.1 ≠ e.1 := fun h => hnot (h ▸ List.mem_map_of_mem hx)
        rw [← hkOf_hkResult_other e.2 u hne]
        exact hin x hx
    · rw [List.map_cons, List.mem_cons, not_or] at hi
      exact (hout i hi.2).trans (hkOf_hkResult_other _ _ hi.1)

theorem hkScan_fills (s : State) (codes : List Int) (hlen : (scanInputs s).length ≤ codes.length) (hnodup : (scanInputs s).Nodup)
    (hlt : ∀ i ∈ scanInputs s, i < 32) : ∃ t, exec (.hkScan codes) s = .next t ∧
      (∀ i v, (i, v) ∈ (scanInputs s).zip codes → hkSays s (hkOf s i) (hkOf t i) false v) ∧
      (∀ i : Fin 32, i.val ∉ scanInputs s → hkOf t i = hkOf s i) ∧ hkOnly s t := by
  refine ⟨_, rfl, ?_⟩
  have hmap : ((scanInputs s).zip codes).map (·.1) = scanInputs s := List.map_fst_zip hlen
  obtain ⟨honly, hin, hout⟩ := hkScan_entries s ((scanInputs s).zip codes) s rfl (by rw [hmap]; exact hnodup)
    fun e he => hlt _ (hmap ▸ List.mem_map_of_mem he)
  have hscan : hkScan codes s = forEach ((scanInputs s).zip codes) (fun e s => hkResult e.1 e.2 s) s := if_neg (by omega)
  rw [hscan]
  refine ⟨fun i v hv => ?_, fun i hi => hout i (by rwa [hmap]), honly⟩
  rw [hin _ hv]
  exact hkWord_says _ _ _ _

theorem hkPulseEvent_counts (s : State) (e : Fin 8) (code : Int) (late : Bool) (hsource : paramNat s Pid.hkEventSource e ≠ 0)
    (hcount : vecRead s.hk.eventCount e 0 + 1 < paramNat s Pid.hkEventDivider e) :
    ∃ t, exec (.hkPulseEvent e code late) s = .next t ∧ vecRead t.hk.eventCount e 0 = vecRead s.hk.eventCount e 0 + 1 ∧
      t.hk.eventResult = s.hk.eventResult ∧ t = { s with hk := t.hk } := by
  have hexec : hkPulseEvent e code late s =
      { s with hk := { s.hk with eventCount := vecUpdate s.hk.eventCount e fun _ => vecRead s.hk.eventCount e 0 + 1 } } :=
    (if_neg hsource).trans (if_pos hcount)
  refine ⟨_, congrArg Host.Outcome.next hexec, ?_, rfl, rfl⟩
  exact vecRead_vecUpdate _ _ _ e.isLt

theorem hkPulseEvent_converts (s : State) (e : Fin 8) (code : Int) (late : Bool) (hsource : paramNat s Pid.hkEventSource e ≠ 0)
    (hcount : paramNat s Pid.hkEventDivider e ≤ vecRead s.hk.eventCount e 0 + 1) :
    ∃ t, exec (.hkPulseEvent e code late) s = .next t ∧ vecRead t.hk.eventCount e 0 = 0 ∧
      (vecRead t.hk.eventResult e 0).setWidth 16 = BitVec.ofInt 16 code ∧ (vecRead t.hk.eventResult e 0).getLsbD 16 = late ∧
      t.hk.result = s.hk.result ∧ plantUntouched { s with hk := t.hk, pointer := t.pointer } t := by
  obtain ⟨hcode, hlate, -⟩ := hkWord_says s (vecRead s.hk.eventResult e 0) late code
  refine ⟨_, rfl, ?_⟩
  unfold hkPulseEvent
  simp only [if_neg hsource, if_neg (Nat.not_lt.2 hcount)]
  generalize hkWord s _ late code = w at hcode hlate ⊢
  generalize hu : ite (late = true) _ _ = u
  have hhk : u.hk = { s.hk with
      eventCount := vecUpdate s.hk.eventCount e (fun _ => 0), eventResult := vecUpdate s.hk.eventResult e fun _ => w } := by
    rw [← hu]
    split <;> rfl
  have hplant : plantUntouched { s with hk := u.hk, pointer := u.pointer } u := by
    rw [← hu]
    split <;> simp [plantUntouched]
  have hword : vecRead u.hk.eventResult e 0 = w := by rw [hhk]; exact vecRead_vecUpdate _ _ _ e.isLt
  simp only [hkToPointer_hk, hword]
  refine ⟨?_, hcode, hlate, ?_, by simpa [plantUntouched] using hplant⟩
  · rw [hhk]
    exact vecRead_vecUpdate _ _ _ e.isLt
  · rw [hhk]

/-! The obligation. -/

theorem rtdCode_repeats (s : State) (k : Fin 8) (m : RtdSums) (hrun : (rtdOf s k).running = true) (hcode : rtdCode s k m = 1)
    (hleft : (rtdOf s k).attempts < 2) : ∃ t, exec (.rtdMeasurementEnd k m) s = .next t ∧
      rtdOf t k = { rtdOf s k with attempts := (rtdOf s k).attempts + 1, written := false } ∧ plantUntouched { s with rtd := t.rtd } t := by
  have hbump : rtdOf (bump Pid.rtdExcChanges k s) k = rtdOf s k := rfl
  have hexec : rtdMeasurementEnd k m s = onRtd k (fun r => { r with attempts := r.attempts + 1, written := false }) (bump Pid.rtdExcChanges k s) := by
    simp [rtdMeasurementEnd, hrun, hcode, hbump, hleft]
  refine ⟨_, congrArg Host.Outcome.next hexec, ?_, ?_⟩
  · rw [rtdOf_onRtd, hbump]
  · simp [plantUntouched]

theorem rtdMeasurementEnd_finishes (s : State) (k : Fin 8) (m : RtdSums) (hrun : (rtdOf s k).running = true) (hcode : rtdCode s k m ≠ 1) :
    exec (.rtdMeasurementEnd k m) s = .next (rtdFinish k (rtdCode s k m) (some m) s) := by
  have hexec : rtdMeasurementEnd k m s = rtdFinish k (rtdCode s k m) (some m) s := by simp [rtdMeasurementEnd, hrun, hcode]
  exact congrArg Host.Outcome.next hexec

/-- Settles O51: a completed trace is the accumulator's last value handed over by `traceDone`; a channel's reading survives the
hand-over of the excitation source; a result word spells code, flags and count in disjoint bits. -/
theorem thermometersMeasure : Obligations.ThermometersMeasure := by
  unfold Obligations.ThermometersMeasure
  refine ⟨dtsTraceComplete_handsOff, fun s p codes _ hshots => ?_, fun s k hen hmode hfree => ?_, fun s k hmode => ?_,
    fun s k j hen hmode hrun => ?_, fun s k m hrun hcode hwatch => ?_, fun s k m hrun hcode => ?_, rtdCode_repeats, fun s k hrun => ?_,
    hkScan_fills, hkPulseEvent_counts, hkPulseEvent_converts⟩
  · have hexec : dtsTraceComplete p codes s = s := by simp [dtsTraceComplete, hshots]
    exact congrArg Host.Outcome.next hexec
  · refine ⟨_, congrArg Host.Outcome.next (rtdDue_takes s k hen hmode hfree), ?_, fun j hj => ?_, rfl⟩
    · simp [rtdBegin]
    · have hne : (j : Nat) ≠ k := fun h => hj (Fin.ext h)
      rw [rtdBegin, rtdOf_onRtd_other _ _ hne, rtdOf_onRtd_other _ _ hne]
  · have hexec : rtdDue k s = s := by simp [rtdDue, hmode]
    exact congrArg Host.Outcome.next hexec
  · refine ⟨_, congrArg Host.Outcome.next (rtdDue_waits s k j hen hmode hrun), rtdOf_onRtd _ _ _, fun i hi => ?_, rfl⟩
    exact rtdOf_onRtd_other _ _ fun h => hi (Fin.ext h)
  · have hexec := rtdMeasurementEnd_finishes s k m hrun (by omega)
    rw [hcode] at hexec
    exact ⟨_, hexec, rtdFinish_good k m s hwatch⟩
  · obtain ⟨hlast, hvalid, hseen, hres, hplant⟩ := rtdFinish_faulty k (rtdCode s k m) (some m) s (by omega)
    exact ⟨_, rtdMeasurementEnd_finishes s k m hrun (by omega), hlast, hvalid, hseen, hres, hplant⟩
  · obtain ⟨hlast, hvalid, hseen, -, hplant⟩ := rtdFinish_faulty k 5 none s (by decide)
    exact ⟨_, congrArg Host.Outcome.next (if_pos hrun), hlast, hvalid, hseen, hplant⟩

end Sys2Proof.Machine

namespace Sys2Proof.Machine

theorem queueOf_of_queues {s t : State} (h : t.links.queues = s.links.queues) (q : Nat) : queueOf t q = queueOf s q := by
  unfold queueOf
  rw [h]

theorem queues_of_linkState {s t : State} (h : linkState t = linkState s) : t.links.queues = s.links.queues := by
  have h' := congrArg Links.queues h
  exact h'

@[simp] theorem queueOf_post (code : Nat) (a b c : Int) (s : State) (q : Nat) : queueOf (post code a b c s) q = queueOf s q :=
  queueOf_of_queues (queues_of_linkState (post_linkState code a b c s)) q

@[simp] theorem queueOf_bump (id i : Nat) (s : State) (q : Nat) : queueOf (bump id i s) q = queueOf s q := rfl

@[simp] theorem queueOf_bumpBy (n id i : Nat) (s : State) (q : Nat) : queueOf (bumpBy n id i s) q = queueOf s q := rfl

@[simp] theorem queueOf_raiseVector (v : Nat) (s : State) (q : Nat) : queueOf (raiseVector v s) q = queueOf s q := rfl

@[simp] theorem queueOf_onEth (n : Nat) (f : EthPort → EthPort) (s : State) (q : Nat) : queueOf (onEth n f s) q = queueOf s q := rfl

theorem queueOf_onQueue_ne {q r : Fin 8} (f : OutQueue → OutQueue) (s : State) (h : r ≠ q) : queueOf (onQueue q f s) r = queueOf s r :=
  queueOf_onQueue_other _ _ fun hv => h (Fin.ext hv)

/-- What is at stake for a queue when an item leaves: the other queues stand. -/
def othersStand (q : Fin 8) (s t : State) : Prop := ∀ r : Fin 8, r ≠ q → queueOf t r = queueOf s r

theorem stopQueue_stops (q : Fin 8) (cause index : Nat) (s : State) :
    queueOf (stopQueue q cause index s) q = { queueOf s q with running := false, error := true } ∧
      othersStand q s (stopQueue q cause index s) ∧ plantUntouched s (stopQueue q cause index s) := by
  refine ⟨?_, fun r hr => ?_, ?_⟩
  · simp [stopQueue]
  · simp [stopQueue, queueOf_onQueue_ne _ _ hr]
  · simp [plantUntouched, stopQueue]

theorem dropItems_queues (q : Fin 8) (n cause : Nat) (s : State) :
    { queueOf (dropItems q n cause s) q with dropRate := {} } = { queueOf s q with dropRate := {} } ∧ othersStand q s (dropItems q n cause s) := by
  unfold dropItems
  split
  · exact ⟨rfl, fun _ _ => rfl⟩
  · dsimp only
    split
    · refine ⟨?_, fun r hr => ?_⟩
      · simp
      · simp [queueOf_onQueue_ne _ _ hr]
    · refine ⟨?_, fun r hr => ?_⟩
      · simp
      · simp [queueOf_onQueue_ne _ _ hr]

theorem queueDisable_stops (s : State) (q : Fin 8) : ∃ t, exec (.dmaQueueDisable q) s = .next t ∧ (queueOf t q).enabled = false ∧
    (queueOf t q).running = false ∧ (queueOf t q).staged = [] ∧ othersStand q s t ∧ plantUntouched s t := by
  refine ⟨_, rfl, ?_⟩
  show (queueOf (queueDisable q s) q).enabled = false ∧ (queueOf (queueDisable q s) q).running = false ∧
    (queueOf (queueDisable q s) q).staged = [] ∧ othersStand q s (queueDisable q s) ∧ plantUntouched s (queueDisable q s)
  have hplant : plantUntouched s (queueDisable q s) := by simp [plantUntouched, queueDisable]
  unfold queueDisable discardStaged at hplant ⊢
  dsimp only at hplant ⊢
  generalize hu : onQueue q (fun x => { x with staged := [], starved := false }) _ = u at hplant ⊢
  have hq : (queueOf u q).enabled = false ∧ (queueOf u q).running = false ∧ (queueOf u q).staged = [] := by simp [← hu]
  obtain ⟨henabled, hrunning, hstaged⟩ := hq
  obtain ⟨hdrop, hothers⟩ := dropItems_queues q (queueOf (onQueue q (fun x => { x with enabled := false, running := false, starved := false }) s) q).staged.length 3 u
  refine ⟨(congrArg OutQueue.enabled hdrop).trans henabled, (congrArg OutQueue.running hdrop).trans hrunning,
    (congrArg OutQueue.staged hdrop).trans hstaged, fun r hr => (hothers r hr).trans ?_, hplant⟩
  rw [← hu, queueOf_onQueue_ne _ _ hr, queueOf_onQueue_ne _ _ hr]

theorem itemDone_delivers (q : Fin 8) (seq type : Nat) (bytes : List Byte) (s : State) :
    (queueOf (itemDone q seq type bytes s) q).staged = (queueOf s q).staged.drop 1 ∧
      (queueOf (itemDone q seq type bytes s) q).delivered = (seq, type, bytes) ∧
      (queueOf (itemDone q seq type bytes s) q).head = (queueOf s q).head ∧
      (queueOf (itemDone q seq type bytes s) q).irqItems = (queueOf s q).irqItems + 1 ∧ othersStand q s (itemDone q seq type bytes s) := by
  refine ⟨?_, ?_, ?_, ?_, fun r hr => ?_⟩
  all_goals rw [itemDone, queueOf_bump]
  · rw [queueOf_onQueue]
  · rw [queueOf_onQueue]
  · rw [queueOf_onQueue]
  · rw [queueOf_onQueue]
  · rw [queueOf_onQueue_ne _ _ hr]

theorem queueItemDeliver_ring (s : State) (q : Fin 8) (n k seq type : Nat) (bytes : List Byte) (rest : List (Nat × Nat × List Byte))
    (buffers : List Nat) (hstaged : (queueOf s q).staged = (seq, type, bytes) :: rest) (hrun : (queueOf s q).running = true)
    (hlink : queueLink s q = 1) (hup : s.links.pcieUp = true) (hl1 : s.links.pcieL1 = false) (hn : n = ringEntries s q)
    (hok : ∀ b ∈ buffers.take (((queueOf s q).tail.toNat % 65536 + n - (queueOf s q).head.toNat) % n), bufferOk b = true)
    (hfit : buffersFor bytes.length (buffers.take (((queueOf s q).tail.toNat % 65536 + n - (queueOf s q).head.toNat) % n)) = some k) : ∃ t,
      exec (.queueItemDeliver q buffers) s = .next t ∧ (queueOf t q).staged = rest ∧ (queueOf t q).delivered = (seq, type, bytes) ∧
      (queueOf t q).head = BitVec.ofNat 16 (((queueOf s q).head.toNat + k) % n) ∧ (queueOf t q).irqItems = (queueOf s q).irqItems + 1 ∧
      othersStand q s t ∧ t = { s with params := t.params, links := { s.links with queues := t.links.queues } } := by
  subst hn
  have hnone : (buffers.take (((queueOf s q).tail.toNat % 65536 + ringEntries s q - (queueOf s q).head.toNat) % ringEntries s q)).findIdx?
      (fun b => !bufferOk b) = none := by
    rw [List.findIdx?_eq_none_iff]
    intro b hb
    simp [hok b hb]
  have hexec : exec (.queueItemDeliver q buffers) s = .next (deliverRing q seq type bytes buffers s) := by
    refine congrArg Host.Outcome.next ?_
    simp [queueItemDeliver, hstaged, hrun, queueLinkUp, hlink, hup, hl1]
  refine ⟨_, hexec, ?_⟩
  unfold deliverRing
  simp only [hnone, hfit]
  generalize hu : onQueue q _ s = u
  obtain ⟨ha, hb, hc, hd, he⟩ := itemDone_delivers q seq type bytes u
  refine ⟨?_, hb, ?_, ?_, fun r hr => ?_, ?_⟩
  · rw [ha, ← hu, queueOf_onQueue, hstaged]
    rfl
  · rw [hc, ← hu, queueOf_onQueue]
  · rw [hd, ← hu, queueOf_onQueue]
  · rw [he r hr, ← hu, queueOf_onQueue_ne _ _ hr]
  · rw [← hu]
    rfl

theorem queueItemDeliver_eth (s : State) (q : Fin 8) (seq type : Nat) (bytes : List Byte) (rest : List (Nat × Nat × List Byte))
    (buffers : List Nat) (hstaged : (queueOf s q).staged = (seq, type, bytes) :: rest) (hrun : (queueOf s q).running = true)
    (hlink : queueLink s q = 2) (hup : (ethOf s 0).linkUp = true) : ∃ t,
      exec (.queueItemDeliver q buffers) s = .next t ∧ (queueOf t q).staged = rest ∧ (queueOf t q).delivered = (seq, type, bytes) ∧
      (ethOf t 0).txQueue = (ethOf s 0).txQueue ++ ((segments q seq type bytes.length (segmentBytes s q 0) 0 (bytes.length + 1) bytes).map
        fun d => (q.val, d)) ∧ othersStand q s t ∧ plantUntouched s t := by
  have hexec : exec (.queueItemDeliver q buffers) s = .next (deliverEth q 0 seq type bytes s) := by
    refine congrArg Host.Outcome.next ?_
    simp [queueItemDeliver, hstaged, hrun, queueLinkUp, hlink, hup]
  refine ⟨_, hexec, ?_⟩
  unfold deliverEth
  dsimp only
  generalize segments q seq type bytes.length (segmentBytes s q 0) 0 (bytes.length + 1) bytes = ds
  generalize hu : onEth 0 _ s = u
  have hq (r : Nat) : queueOf u r = queueOf s r := by rw [← hu, queueOf_onEth]
  obtain ⟨ha, hb, -, -, he⟩ := itemDone_delivers q seq type bytes u
  refine ⟨?_, hb, ?_, fun r hr => (he r hr).trans (hq r), ?_⟩
  · rw [ha, hq, hstaged]
    rfl
  · have heth : ethOf (itemDone q seq type bytes u) 0 = ethOf u 0 := rfl
    rw [heth, ← hu]
    exact congrArg EthPort.txQueue (ethOf_onEth 0 _ s)
  · rw [← hu]
    simp [plantUntouched, itemDone]

theorem raiseVector_bit (q : Fin 8) (s : State) : (raiseVector (8 + q) s).links.msix.getLsbD (8 + q.val) = true := by
  have h : ((1#32 <<< (8 + q.val)).getLsbD (8 + q.val)) = true := by
    revert q
    decide
  show (s.links.msix ||| (1#32 <<< (8 + q.val))).getLsbD (8 + q.val) = true
  rw [BitVec.getLsbD_or, h, Bool.or_true]

theorem descriptorReadDone_stops (s : State) (q : Fin 8) (r : DescriptorRead) (hrun : (queueOf s q).running = true)
    (hbad : r = .urOrCa ∨ r = .poisoned ∨ r = .timeout) : ∃ cause, descriptorReadDone q r s = stopQueue q cause (queueOf s q).head.toNat s := by
  rcases hbad with rfl | rfl | rfl
  · exact ⟨1, by simp [descriptorReadDone, hrun]⟩
  · exact ⟨2, by simp [descriptorReadDone, hrun]⟩
  · exact ⟨3, by simp [descriptorReadDone, hrun]⟩

/-- Settles O57: each row of the queues is one update of its queue (`itemDone`, `stopQueue`, `dropItems`), which leaves the other queues
and the plant. -/
theorem queuesDeliver : Obligations.QueuesDeliver := by
  unfold Obligations.QueuesDeliver
  refine ⟨queueItemDeliver_ring, queueItemDeliver_eth, fun s q hitems hdue => ?_, fun s q address length hrun halign hok => ?_,
    fun s q r hrun hbad => ?_, fun s q v hlt => ?_, fun s q v hge hrun => ?_, fun s q => ?_, queueDisable_stops⟩
  · have hexec : queueIrq q s = raiseVector (8 + q) (onQueue q (fun x => { x with irqItems := 0, irqFrom := none }) s) := by
      simp [queueIrq, hdue, Nat.ne_of_gt hitems]
    refine ⟨_, congrArg Host.Outcome.next hexec, ?_, raiseVector_bit _ _, fun r hr => ?_, rfl⟩
    · rw [queueOf_raiseVector, queueOf_onQueue]
    · rw [queueOf_raiseVector, queueOf_onQueue_ne _ _ hr]
  · have hexec : descriptorReadDone q (.ok address length) s = s := by simp [descriptorReadDone, hrun, halign, hok]
    exact congrArg Host.Outcome.next hexec
  · obtain ⟨cause, hexec⟩ := descriptorReadDone_stops s q r hrun hbad
    obtain ⟨hq, hothers, hplant⟩ := stopQueue_stops q cause (queueOf s q).head.toNat s
    refine ⟨_, congrArg Host.Outcome.next hexec, ?_, ?_, ?_, hothers, hplant⟩
    all_goals rw [hq]
  · have hexec : writeTail q v s = onQueue q (fun x => { x with tail := v }) s := by
      have hn : ¬ringEntries (onQueue q (fun x => { x with tail := v }) s) q ≤ v.toNat % 65536 := Nat.not_le.2 hlt
      simp [writeTail, hn]
    exact ⟨_, congrArg Host.Outcome.next hexec, queueOf_onQueue _ _ _, fun r hr => queueOf_onQueue_ne _ _ hr, rfl⟩
  · have hexec : writeTail q v s = stopQueue q 5 (v.toNat % 65536) (onQueue q (fun x => { x with tail := v }) s) := by
      have hn : ringEntries (onQueue q (fun x => { x with tail := v }) s) q ≤ v.toNat % 65536 := hge
      simp [writeTail, hn, hrun]
    obtain ⟨hq, -, hplant⟩ := stopQueue_stops q 5 (v.toNat % 65536) (onQueue q (fun x => { x with tail := v }) s)
    refine ⟨_, congrArg Host.Outcome.next hexec, ?_, ?_, hplant⟩
    all_goals rw [hq]
  · exact ⟨_, rfl, queueOf_onQueue _ _ _, fun r hr => queueOf_onQueue_ne _ _ hr, rfl⟩

end Sys2Proof.Machine

namespace Sys2Proof.Machine

/-! ## What a change of the axis' target keeps -/

/-- A parameter that no lost event, suppressed log entry or holdover counts in. -/
abbrev uncounted (k : Nat) : Prop := k ≠ paramKey Pid.hostEvqLost 0 ∧ k ≠ paramKey Pid.logSuppressed 0 ∧ k ≠ paramKey Pid.timeHoldovers 0

/-- The domain counters with one parameter: what the servo reads (R399 to R401). -/
def countersAnd (k : Nat) (s : State) : Vector Domain 2 × Int := (s.time.domains, Store.read paramDefault s.params k)

theorem countersAnd_mk {k : Nat} {s t : State} (hd : t.time.domains = s.time.domains)
    (hp : Store.read paramDefault t.params k = Store.read paramDefault s.params k) : countersAnd k t = countersAnd k s := by
  unfold countersAnd
  rw [hd, hp]

section
variable {k : Nat} (hk : uncounted k)
include hk

theorem post_counters (code : Nat) (a b c : Int) (s : State) : countersAnd k (post code a b c s) = countersAnd k s :=
  countersAnd_mk (by simp) (post_paramAt hk.1 hk.2.1 _ _ _ _ _)

omit hk in
theorem retarget_counters (s : State) : countersAnd k (retarget s) = countersAnd k s := countersAnd_mk (by simp) (by simp)

omit hk in
theorem onTime_counters {f : TimeUnit → TimeUnit} {s : State} (h : (f s.time).domains = s.time.domains) :
    countersAnd k (onTime f s) = countersAnd k s := countersAnd_mk h rfl

theorem enterHoldover_counters (cause : Nat) (s : State) : countersAnd k (enterHoldover cause s) = countersAnd k s := by
  unfold enterHoldover
  split
  · rfl
  · refine (post_counters hk _ _ _ _ _).trans (countersAnd_mk rfl (bump_paramAt hk.2.2 _))

theorem leaveHoldover_counters (s : State) : countersAnd k (leaveHoldover s) = countersAnd k s := by
  unfold leaveHoldover
  split
  · rfl
  · refine (retarget_counters _).trans ?_
    exact (onTime_counters rfl).trans (post_counters hk _ _ _ _ _)

theorem switchDomain_counters (d : Fin 2) (auto : Bool) (s : State) : countersAnd k (switchDomain d auto s) = countersAnd k s := by
  unfold switchDomain
  dsimp only
  refine Eq.trans ?_ (post_counters hk 0x0502 s.time.select.val d.val ((if auto then 2 ^ 31 else 0) + min (domainGapNs s) (2 ^ 31 - 1) : Nat) s)
  generalize post 0x0502 _ _ _ s = u
  refine Eq.trans ?_ (onTime_counters (f := fun t => { t with select := d, hostSelect := if auto then t.hostSelect else d }) rfl)
  generalize onTime _ u = v
  split
  · split
    · exact leaveHoldover_counters hk _
    · rfl
  · exact retarget_counters _

theorem revertDomain_counters (s : State) : countersAnd k (revertDomain s) = countersAnd k s := by
  unfold revertDomain
  dsimp only
  split
  · exact switchDomain_counters hk _ _ _
  · rfl

theorem domainLocked_counters (d : Fin 2) (s : State) : countersAnd k (domainLocked d s) = countersAnd k s := by
  unfold domainLocked
  refine (revertDomain_counters hk _).trans ?_
  obtain ⟨u, hu, hfirst⟩ : ∃ u, (if d = s.time.select then onTime (fun t => { t with lockedOnce := true }) s else s) = u ∧
      countersAnd k u = countersAnd k s := by
    refine ⟨_, rfl, ?_⟩
    split <;> rfl
  rw [hu, ← hfirst]
  split
  · split
    · exact leaveHoldover_counters hk _
    · split
      · exact switchDomain_counters hk _ _ _
      · rfl
  · rfl

theorem domainUnlocked_counters (d : Fin 2) (s : State) : countersAnd k (domainUnlocked d s) = countersAnd k s := by
  unfold domainUnlocked
  split
  · rfl
  · split
    · exact switchDomain_counters hk _ _ _
    · exact enterHoldover_counters hk _ _

/-- A lock is re-evaluated in its own domain alone. -/
theorem lockUpdate_counters (d : Fin 2) (cause : Nat) (s : State) :
    countersAnd k (lockUpdate d cause s) = countersAnd k (onDomain d (fun x => { x with locked := lockHolds s d }) s) := by
  unfold lockUpdate
  dsimp only
  split
  next h =>
    refine countersAnd_mk ?_ rfl
    rw [beq_iff_eq] at h
    have hsame : { s.time.domains[d.val] with locked := lockHolds s d } = s.time.domains[d.val] := by
      have hread : domainOf s d = s.time.domains[d.val] := dif_pos d.isLt
      rw [h, hread]
    have hset : (onDomain d (fun x => { x with locked := lockHolds s d }) s).time.domains = s.time.domains.set d.val s.time.domains[d.val] := by
      simp only [onDomain, vecUpdate, d.isLt, dif_pos, hsame]
    rw [hset, Vector.set_getElem_self]
  next =>
    split
    · exact (domainLocked_counters hk _ _).trans (post_counters hk _ _ _ _ _)
    · exact (domainUnlocked_counters hk _ _).trans (post_counters hk _ _ _ _ _)

end

theorem domainOf_of_domains {s t : State} (h : t.time.domains = s.time.domains) (d : Nat) : domainOf t d = domainOf s d := by
  unfold domainOf
  rw [h]

theorem domainOf_onDomain_ne {d e : Fin 2} (f : Domain → Domain) (s : State) (h : e ≠ d) : domainOf (onDomain d f s) e = domainOf s e :=
  domainOf_onDomain_other _ _ fun hv => h (Fin.ext hv)

@[simp] theorem domainOf_lockUpdate (d : Fin 2) (cause : Nat) (s : State) :
    domainOf (lockUpdate d cause s) d = { domainOf s d with locked := lockHolds s d } := by
  have h := congrArg Prod.fst (lockUpdate_counters (k := 0) (by decide) d cause s)
  rw [domainOf_of_domains h d, domainOf_onDomain]

theorem domainOf_lockUpdate_ne {d e : Fin 2} (cause : Nat) (s : State) (h : e ≠ d) : domainOf (lockUpdate d cause s) e = domainOf s e := by
  have hd := congrArg Prod.fst (lockUpdate_counters (k := 0) (by decide) d cause s)
  rw [domainOf_of_domains hd e, domainOf_onDomain_ne _ _ h]

theorem lockUpdate_paramAt {k : Nat} (hk : uncounted k) (d : Fin 2) (cause : Nat) (s : State) :
    Store.read paramDefault (lockUpdate d cause s).params k = Store.read paramDefault s.params k :=
  congrArg Prod.snd (lockUpdate_counters hk d cause s)

/-- The time unit and the ports' grids may move, the rest of the plant stands. -/
def timeOnly (s t : State) : Prop := plantUntouched { s with time := t.time, ports := t.ports } t

theorem timeOnly_trans {s t u : State} (h : timeOnly s t) (h' : timeOnly t u) : timeOnly s u := by
  simp only [timeOnly, plantUntouched, true_and] at h h' ⊢
  simp_all

theorem lockUpdate_timeOnly (d : Fin 2) (cause : Nat) (s : State) : timeOnly s (lockUpdate d cause s) := by
  simp [timeOnly, plantUntouched]

theorem onDomain_timeOnly (d : Nat) (f : Domain → Domain) (s : State) : timeOnly s (onDomain d f s) := by
  simp [timeOnly, plantUntouched]

/-! ## PTP -/

theorem otherDomain_ne (d : Fin 2) : otherDomain d ≠ d := by revert d; decide

/-- A message reaches each domain that listens, so domain `d` once, before or after the other one. -/
theorem eachDomain_of_matches {s : State} {d port : Fin 2} {domain sdo : Nat} (f : Fin 2 → State → State)
    (h : ptpMatches s d port domain sdo = true) : ∃ u, (u = s ∨ u = f (otherDomain d) s) ∧
      (eachDomain port domain sdo f s = f d u ∨ eachDomain port domain sdo f s = f (otherDomain d) (f d u)) := by
  unfold eachDomain
  fin_cases d
  · refine ⟨s, .inl rfl, ?_⟩
    have h0 : ptpMatches s ((0 : Fin 2) : Nat) port domain sdo = true := h
    by_cases h1 : ptpMatches s ((1 : Fin 2) : Nat) port domain sdo = true
    · right
      simp only [List.filter, h0, h1]
      rfl
    · left
      simp only [List.filter, h0, h1]
      rfl
  · have h1 : ptpMatches s ((1 : Fin 2) : Nat) port domain sdo = true := h
    by_cases h0 : ptpMatches s ((0 : Fin 2) : Nat) port domain sdo = true
    · refine ⟨_, .inr rfl, .inl ?_⟩
      simp only [List.filter, h0, h1]
      rfl
    · refine ⟨s, .inl rfl, .inl ?_⟩
      simp only [List.filter, h0, h1]
      rfl

/-- Only the domains have moved. -/
def domainsOnly (s t : State) : Prop := t = { s with time := { s.time with domains := t.time.domains } }

theorem domainsOnly_trans {s t u : State} (h : domainsOnly s t) (h' : domainsOnly t u) : domainsOnly s u := by
  unfold domainsOnly at h h' ⊢
  rw [h', h]

theorem ptpAnnounce_frame (e : Fin 2) (master rank : Nat) (s : State) :
    domainsOnly s (ptpAnnounce e master rank s) ∧ ∀ d : Fin 2, d ≠ e → domainOf (ptpAnnounce e master rank s) d = domainOf s d := by
  unfold ptpAnnounce
  dsimp only
  split
  · exact ⟨rfl, fun d hd => domainOf_onDomain_ne _ _ hd⟩
  · split
    · exact ⟨rfl, fun d hd => domainOf_onDomain_ne _ _ hd⟩
    · exact ⟨rfl, fun _ _ => rfl⟩

theorem ptpAnnounce_chooses (d : Fin 2) (master rank : Nat) (s : State) (hm : master ≠ (domainOf s d).masterId)
    (hr : rank < (domainOf s d).masterRank) : domainOf (ptpAnnounce d master rank s) d =
      { domainOf s d with masterId := master, masterRank := rank, masterChanged := true, syncWait := none } := by
  have hguard : ((domainOf s d).masterId = 0 || rank < (domainOf s d).masterRank) = true := by simp [hr]
  unfold ptpAnnounce
  rw [if_neg (Ne.symm hm), if_pos hguard, domainOf_onDomain]

theorem ptpMessageRx_serves {s : State} (hruns : timeRuns s = true) (hscribe : s.scribe.restarting = false) :
    (s.mode.current == .reset || s.mode.current == .boot || s.scribe.restarting) = false := by
  simp only [timeRuns, Bool.and_eq_true, bne_iff_ne] at hruns
  simp [hruns.1, hruns.2, hscribe]

theorem announce_moves (s : State) (d port : Fin 2) (domain sdo master rank : Nat) (hruns : timeRuns s = true)
    (hscribe : s.scribe.restarting = false) (hmatch : ptpMatches s d port domain sdo = true) (hm : master ≠ (domainOf s d).masterId)
    (hr : rank < (domainOf s d).masterRank) : ∃ t, exec (.ptpMessageRx (.announce port domain sdo master rank)) s = .next t ∧
      (domainOf t d).masterId = master ∧ (domainOf t d).masterRank = rank ∧ (domainOf t d).masterChanged = true ∧
      (domainOf t d).count = (domainOf s d).count ∧ domainsOnly s t := by
  have hserves := ptpMessageRx_serves hruns hscribe
  have hexec : ptpMessageRx (.announce port domain sdo master rank) s = eachDomain port domain sdo (fun d s => ptpAnnounce d master rank s) s := by
    simp [ptpMessageRx, hserves]
  refine ⟨_, congrArg Host.Outcome.next hexec, ?_⟩
  obtain ⟨u, hu, ht⟩ := eachDomain_of_matches (fun d s => ptpAnnounce d master rank s) hmatch
  generalize eachDomain port domain sdo _ s = t at ht ⊢
  have hne := Ne.symm (otherDomain_ne d)
  have husame : domainOf u d = domainOf s d ∧ domainsOnly s u := by
    rcases hu with rfl | rfl
    · exact ⟨rfl, rfl⟩
    · exact ⟨(ptpAnnounce_frame _ _ _ _).2 d hne, (ptpAnnounce_frame _ _ _ _).1⟩
  obtain ⟨hud, huonly⟩ := husame
  have hcount := congrArg Domain.count hud
  have hafter := ptpAnnounce_chooses d master rank u (by rwa [hud]) (by rwa [hud])
  have honly := domainsOnly_trans huonly (ptpAnnounce_frame d master rank u).1
  have ht' : domainOf t d = domainOf (ptpAnnounce d master rank u) d ∧ domainsOnly s t := by
    rcases ht with rfl | rfl
    · exact ⟨rfl, honly⟩
    · exact ⟨(ptpAnnounce_frame _ _ _ _).2 d hne, domainsOnly_trans honly (ptpAnnounce_frame _ _ _ _).1⟩
  rw [ht'.1, hafter]
  exact ⟨rfl, rfl, rfl, hcount, ht'.2⟩

theorem ptpSync_frame (e : Fin 2) (n seq master : Nat) (twoStep : Bool) (origin correction : Int) (s : State) :
    timeOnly s (ptpSync e n seq master twoStep origin correction s) ∧
      (∀ d : Fin 2, d ≠ e → domainOf (ptpSync e n seq master twoStep origin correction s) d = domainOf s d) ∧
      ∀ k, uncounted k → Store.read paramDefault (ptpSync e n seq master twoStep origin correction s).params k = Store.read paramDefault s.params k := by
  unfold ptpSync
  split
  · exact ⟨by simp [timeOnly, plantUntouched], fun _ _ => rfl, fun _ _ => rfl⟩
  · dsimp only
    generalize hu : ite (twoStep = true) _ _ = u
    have hu' : timeOnly s u ∧ (∀ d : Fin 2, d ≠ e → domainOf u d = domainOf s d) ∧ u.params = s.params := by
      rw [← hu]
      split
      · refine ⟨timeOnly_trans (onDomain_timeOnly _ _ _) (onDomain_timeOnly _ _ _), fun d hd => ?_, rfl⟩
        rw [domainOf_onDomain_ne _ _ hd, domainOf_onDomain_ne _ _ hd]
      · refine ⟨timeOnly_trans (onDomain_timeOnly _ _ _) (onDomain_timeOnly _ _ _), fun d hd => ?_, rfl⟩
        rw [ptpOffset, domainOf_onDomain_ne _ _ hd, domainOf_onDomain_ne _ _ hd]
    obtain ⟨honly, hother, hparams⟩ := hu'
    refine ⟨timeOnly_trans honly (lockUpdate_timeOnly _ _ _), fun d hd => (domainOf_lockUpdate_ne _ _ hd).trans (hother d hd), fun k hk => ?_⟩
    rw [lockUpdate_paramAt hk, hparams]

theorem ptpSync_measures (d : Fin 2) (n seq : Nat) (origin correction : Int) (s : State) :
    (domainOf (ptpSync d n seq (domainOf s d).masterId false origin correction s) d).measSeq = seq ∧
      (domainOf (ptpSync d n seq (domainOf s d).masterId false origin correction s) d).offsetNs =
        ptpNs (rxStamp s d n - (origin + correction) * stampNs - (domainOf s d).pathDelayNs * stampNs) ∧
      (domainOf (ptpSync d n seq (domainOf s d).masterId false origin correction s) d).syncTimeout = false ∧
      (domainOf (ptpSync d n seq (domainOf s d).masterId false origin correction s) d).count = (domainOf s d).count := by
  unfold ptpSync
  rw [if_neg (not_not.2 rfl)]
  simp only [Bool.false_eq_true, if_false]
  rw [domainOf_lockUpdate, ptpOffset, domainOf_onDomain, domainOf_onDomain]
  exact ⟨rfl, rfl, rfl, rfl⟩

theorem paramNat_rxLatency (s : State) (port : Fin 2) : paramNat s Pid.timeEthRxLatencyPs port =
    (Store.read paramDefault s.params (paramKey Pid.timeEthRxLatencyPs port)).toNat := by
  fin_cases port <;> rfl

theorem uncounted_rxLatency (port : Fin 2) : uncounted (paramKey Pid.timeEthRxLatencyPs port) := by
  revert port
  decide

theorem sync_measures (s : State) (d port : Fin 2) (domain sdo seq master : Nat) (origin correction : Int) (hruns : timeRuns s = true)
    (hscribe : s.scribe.restarting = false) (hmatch : ptpMatches s d port domain sdo = true) (hm : master = (domainOf s d).masterId) : ∃ t,
      exec (.ptpMessageRx (.sync port domain sdo seq master false origin correction)) s = .next t ∧ (domainOf t d).measSeq = seq ∧
      (domainOf t d).offsetNs = ptpNs (rxStamp s d port - (origin + correction) * stampNs - (domainOf s d).pathDelayNs * stampNs) ∧
      (domainOf t d).syncTimeout = false ∧ (domainOf t d).count = (domainOf s d).count ∧ timeOnly s t := by
  have hserves := ptpMessageRx_serves hruns hscribe
  have hexec : ptpMessageRx (.sync port domain sdo seq master false origin correction) s =
      eachDomain port domain sdo (fun d s => ptpSync d port seq master false origin correction s) s := by
    simp [ptpMessageRx, hserves]
  refine ⟨_, congrArg Host.Outcome.next hexec, ?_⟩
  obtain ⟨u, hu, ht⟩ := eachDomain_of_matches (fun d s => ptpSync d port seq master false origin correction s) hmatch
  generalize eachDomain port domain sdo _ s = t at ht ⊢
  have hne := Ne.symm (otherDomain_ne d)
  have husame : domainOf u d = domainOf s d ∧ timeOnly s u ∧ paramNat u Pid.timeEthRxLatencyPs port = paramNat s Pid.timeEthRxLatencyPs port := by
    rcases hu with rfl | rfl
    · exact ⟨rfl, by simp [timeOnly, plantUntouched], rfl⟩
    · obtain ⟨honly, hother, hparam⟩ := ptpSync_frame (otherDomain d) port seq master false origin correction s
      exact ⟨hother d hne, honly, by rw [paramNat_rxLatency, paramNat_rxLatency, hparam _ (uncounted_rxLatency port)]⟩
  obtain ⟨hud, huonly, hlatency⟩ := husame
  have hstamp : rxStamp u d port = rxStamp s d port := by
    unfold rxStamp
    rw [hud, hlatency]
  have hmu : master = (domainOf u d).masterId := by rw [hud, hm]
  have hafter := ptpSync_measures d port seq origin correction u
  rw [← hmu, hstamp, hud] at hafter
  have honly := timeOnly_trans huonly (ptpSync_frame d port seq master false origin correction u).1
  have ht' : domainOf t d = domainOf (ptpSync d port seq master false origin correction u) d ∧ timeOnly s t := by
    rcases ht with rfl | rfl
    · exact ⟨rfl, honly⟩
    · obtain ⟨honly', hother, -⟩ := ptpSync_frame (otherDomain d) port seq master false origin correction (ptpSync d port seq master false origin correction u)
      exact ⟨hother d hne, timeOnly_trans honly honly'⟩
  obtain ⟨ha, hb, hc, hd⟩ := hafter
  rw [ht'.1]
  exact ⟨ha, hb, hc, hd, ht'.2⟩

theorem length_beBytes (n v : Nat) : (beBytes n v).length = n := by simp [beBytes]

theorem length_clockIdentity (n : Nat) : (clockIdentity n).length = 8 := by
  unfold clockIdentity
  simp [length_beBytes]

theorem length_ptpBytes (type len : Nat) (s : State) (d n seq : Nat) (h : 34 ≤ len) : (ptpBytes type len s d n seq).length = len := by
  unfold ptpBytes
  simp [length_beBytes, length_clockIdentity]
  omega

theorem ptpMessageTx_sends (s : State) (d : Fin 2) (hruns : timeRuns s = true) (hscribe : s.scribe.restarting = false)
    (hport : paramNat s Pid.timeDomEthPort d < 2) (hup : (ethOf s (paramNat s Pid.timeDomEthPort d)).linkUp = true) :
    ∃ t, exec (.ptpMessageTx d) s = .next t ∧ (domainOf t d).reqSeq = ((domainOf s d).reqSeq + 1) % 65536 ∧
      (domainOf t d).t3 = txStamp s d (paramNat s Pid.timeDomEthPort d) ∧
      (ethOf t (paramNat s Pid.timeDomEthPort d)).sent.2.length = (if usesP2p s d then 54 else 44) ∧
      (domainOf t (otherDomain d)) = domainOf s (otherDomain d) ∧
      t = { s with time := { s.time with domains := t.time.domains }, links := { s.links with eth := t.links.eth } } := by
  have hserves := ptpMessageRx_serves hruns hscribe
  generalize hn : paramNat s Pid.timeDomEthPort d = n at hport hup
  obtain ⟨q, hq⟩ : ∃ q, ((domainOf s d).reqSeq + 1) % 65536 = q := ⟨_, rfl⟩
  obtain ⟨u, hu⟩ : ∃ u, onDomain d (fun x => { x with reqSeq := q, t3 := txStamp s d n }) s = u := ⟨_, rfl⟩
  obtain ⟨m, hm⟩ : ∃ m, (if usesP2p u d then ptpBytes 2 54 u d n q else ptpBytes 1 44 u d n q) = m := ⟨_, rfl⟩
  have hexec : ptpMessageTx d s = onEth n (fun e => { e with sent := (0, m) }) u := by
    unfold ptpMessageTx
    simp only [hn, hserves, hup, hq, hu, hm, Bool.not_true, Bool.or_self, Bool.false_eq_true, if_false]
  have hlen : m.length = if usesP2p s d then 54 else 44 := by
    have hp2p : usesP2p u d = usesP2p s d := by rw [← hu]; rfl
    rw [← hm, hp2p]
    split
    · exact length_ptpBytes _ _ _ _ _ _ (by decide)
    · exact length_ptpBytes _ _ _ _ _ _ (by decide)
  have hdomain (e : Nat) : domainOf (onEth n (fun e => { e with sent := (0, m) }) u) e = domainOf u e := rfl
  refine ⟨_, congrArg Host.Outcome.next hexec, ?_, ?_, ?_, ?_, ?_⟩
  · rw [hdomain, ← hu, domainOf_onDomain, hq]
  · rw [hdomain, ← hu, domainOf_onDomain]
  · rw [← hlen]
    exact congrArg (fun e : EthPort => e.sent.2.length) (ethOf_onEth ⟨n, hport⟩ (fun e => { e with sent := (0, m) }) u)
  · rw [hdomain, ← hu, domainOf_onDomain_ne _ _ (otherDomain_ne d)]
  · rw [← hu]
    rfl

/-! ## Timeouts and host writes -/

/-- A condition of R401 has changed in domain `d`: its lock follows, its other fields are those of the change. -/
theorem lockUpdate_onDomain (d : Fin 2) (cause : Nat) (f : Domain → Domain) (s : State) :
    domainOf (lockUpdate d cause (onDomain d f s)) d = { f (domainOf s d) with locked := lockHolds (onDomain d f s) d } ∧
      timeOnly s (lockUpdate d cause (onDomain d f s)) :=
  ⟨by rw [domainOf_lockUpdate, domainOf_onDomain], timeOnly_trans (onDomain_timeOnly _ _ _) (lockUpdate_timeOnly _ _ _)⟩

theorem not_lockHolds_of_timeout {s : State} {d : Fin 2} (h : (domainOf s d).syncTimeout = true ∨ (domainOf s d).servoTimeout = true) :
    lockHolds s d = false := by
  unfold lockHolds
  rcases h with h | h <;> simp [h]

theorem servoWritten_state (d : Fin 2) (s : State) :
    domainOf (servoWritten d s) d = { domainOf s d with
      servoTimeout := false
      servoTick := s.ticks
      locked := paramNat s Pid.timeDomServoState d == 1 && !(domainOf s d).syncTimeout } ∧ timeOnly s (servoWritten d s) := by
  obtain ⟨hd, honly⟩ := lockUpdate_onDomain d 1 (fun x => { x with servoTimeout := false, servoTick := s.ticks }) s
  have hlock : lockHolds (onDomain d (fun x => { x with servoTimeout := false, servoTick := s.ticks }) s) d =
      (paramNat s Pid.timeDomServoState d == 1 && !(domainOf s d).syncTimeout) := by
    unfold lockHolds
    rw [domainOf_onDomain]
    exact Bool.and_true _
  rw [hlock] at hd
  exact ⟨hd, honly⟩

theorem paramPut_timeOnly (id idx : Nat) (v : Int) (s : State) : timeOnly s (paramPut id idx v s) := by
  simp [timeOnly, plantUntouched]

theorem timeDomainWrite_runs {s : State} (hmode : s.mode.current ≠ .mirror) (hruns : timeRuns s = true) :
    (s.mode.current == .mirror || !timeRuns s) = false := by
  simp [hmode, hruns]

theorem increment_waits (s : State) (d : Fin 2) (v : Nat) (hmode : s.mode.current ≠ .mirror) (hruns : timeRuns s = true)
    (hok : incrementOk v = true) : ∃ t, exec (.timeDomainWrite d (some v) none) s = .next t ∧ (domainOf t d).nextIncrement = some v ∧
      (domainOf t d).servoTimeout = false ∧ (domainOf t d).increment = (domainOf s d).increment ∧ (domainOf t d).count = (domainOf s d).count ∧
      timeOnly s t := by
  have hexec : timeDomainWrite d (some v) none s = writeIncrement d v s := by
    simp [timeDomainWrite, timeDomainWrite_runs hmode hruns, hok]
  refine ⟨_, congrArg Host.Outcome.next hexec, ?_⟩
  unfold writeIncrement
  generalize hu : paramPut _ _ _ _ = u
  have hdomain : domainOf u d = { domainOf s d with nextIncrement := some v } := by
    rw [← hu]
    exact domainOf_onDomain d _ s
  have honly : timeOnly s u := hu ▸ timeOnly_trans (onDomain_timeOnly _ _ _) (paramPut_timeOnly _ _ _ _)
  obtain ⟨hd, honly'⟩ := servoWritten_state d u
  rw [hd, hdomain]
  exact ⟨rfl, rfl, rfl, rfl, timeOnly_trans honly honly'⟩

theorem adjust_added (s : State) (d : Fin 2) (v : Int) (hmode : s.mode.current ≠ .mirror) (hruns : timeRuns s = true) :
    ∃ t, exec (.timeDomainWrite d none (some v)) s = .next t ∧ (domainOf t d).adjust = (domainOf s d).adjust + v ∧
      (domainOf t d).servoTimeout = false ∧ (domainOf t d).count = (domainOf s d).count ∧ timeOnly s t := by
  have hexec : timeDomainWrite d none (some v) s = writeAdjust d v s := by
    simp [timeDomainWrite, timeDomainWrite_runs hmode hruns]
  refine ⟨_, congrArg Host.Outcome.next hexec, ?_⟩
  unfold writeAdjust
  generalize hu : onDomain _ _ _ = u
  have hdomain : domainOf u d = { domainOf s d with adjust := (domainOf s d).adjust + v } := by
    rw [← hu]
    exact domainOf_onDomain d _ s
  have honly : timeOnly s u := hu ▸ onDomain_timeOnly _ _ _
  obtain ⟨hd, honly'⟩ := servoWritten_state d u
  rw [hd, hdomain]
  exact ⟨rfl, rfl, rfl, timeOnly_trans honly honly'⟩

theorem uncounted_servoState (d : Fin 2) : uncounted (paramKey Pid.timeDomServoState d) := by
  revert d
  decide

theorem paramGet_servoState (s : State) (d : Fin 2) :
    paramGet s Pid.timeDomServoState d = Store.read paramDefault s.params (paramKey Pid.timeDomServoState d) := by
  have heffect : effectOf Pid.timeDomServoState = .atOnce := by decide
  simp only [paramGet, heffect]

theorem servoState_written (s : State) (d : Fin 2) (on : Bool) (hruns : timeRuns s = true) (hwf : s.paramsWf = true) :
    ∃ t, exec (.servoStateWrite d on) s = .next t ∧ paramBool t Pid.timeDomServoState d = on ∧ (domainOf t d).servoTimeout = false ∧
      (domainOf t d).locked = (on && !(domainOf s d).syncTimeout) ∧ timeOnly s t := by
  refine ⟨_, congrArg Host.Outcome.next (if_pos hruns), ?_⟩
  unfold writeServoState
  generalize hu : paramPut _ _ _ _ = u
  have hread : paramGet u Pid.timeDomServoState d = (bit on : Int) := by
    rw [paramGet_servoState, ← hu]
    exact Store.read_write_self _ _ _ _ hwf
  have hdomain : domainOf u d = domainOf s d := by rw [← hu]; rfl
  have honly : timeOnly s u := hu ▸ paramPut_timeOnly _ _ _ _
  obtain ⟨hd, honly'⟩ := servoWritten_state d u
  have hkept : paramGet (servoWritten d u) Pid.timeDomServoState d = (bit on : Int) := by
    rw [← hread, paramGet_servoState, paramGet_servoState]
    exact lockUpdate_paramAt (uncounted_servoState d) _ _ _
  have hnat : (paramNat u Pid.timeDomServoState d == 1) = on := by
    rw [paramNat, hread]
    cases on <;> rfl
  rw [hd, hnat, hdomain]
  refine ⟨?_, rfl, rfl, timeOnly_trans honly honly'⟩
  rw [paramBool, hkept]
  cases on <;> rfl

/-! ## The axis -/

theorem retarget_selects (s : State) : (retarget s).time.select = s.time.select ∧ (retarget s).time.hostSelect = s.time.hostSelect := by
  unfold retarget
  dsimp only
  split_ifs <;> exact ⟨rfl, rfl⟩

theorem leaveHoldover_selects (s : State) :
    (leaveHoldover s).time.select = s.time.select ∧ (leaveHoldover s).time.hostSelect = s.time.hostSelect := by
  unfold leaveHoldover
  split
  · exact ⟨rfl, rfl⟩
  · obtain ⟨ha, hb⟩ := retarget_selects (onTime (fun t => { t with holdover := false, holdCause := 0 }) (post 0x0503 0 s.time.holdCause 0 s))
    refine ⟨ha.trans ?_, hb.trans ?_⟩
    · simp [onTime]
    · simp [onTime]

theorem switchDomain_selects (d : Fin 2) (s : State) :
    (switchDomain d false s).time.select = d ∧ (switchDomain d false s).time.hostSelect = d ∧ timeOnly s (switchDomain d false s) := by
  have honly : timeOnly s (switchDomain d false s) := by simp [timeOnly, plantUntouched]
  refine and_assoc.1 ⟨?_, honly⟩
  unfold switchDomain
  dsimp only
  generalize post 0x0502 _ _ _ s = u
  generalize hv : onTime _ u = v
  have hselect : v.time.select = d ∧ v.time.hostSelect = d := by
    rw [← hv]
    exact ⟨rfl, rfl⟩
  obtain ⟨ha, hb⟩ := hselect
  split
  · split
    · obtain ⟨h1, h2⟩ := leaveHoldover_selects v
      exact ⟨h1.trans ha, h2.trans hb⟩
    · exact ⟨ha, hb⟩
  · obtain ⟨h1, h2⟩ := retarget_selects v
    exact ⟨h1.trans ha, h2.trans hb⟩

theorem timeSelect_written (s : State) (d : Fin 2) (force : Bool) (hruns : timeRuns s = true) (hstatus : timeSelectStatus s d force = 0) :
    ∃ t, exec (.timeSelectWrite d force) s = .next t ∧ t.time.select = d ∧ t.time.hostSelect = d ∧ timeOnly s t := by
  have hguard : (timeRuns s && timeSelectStatus s d force == 0) = true := by simp [hruns, hstatus]
  refine ⟨_, congrArg Host.Outcome.next (if_pos hguard), ?_⟩
  unfold writeTimeSelect
  dsimp only
  split
  next h => exact ⟨h.symm, rfl, by simp [timeOnly, plantUntouched]⟩
  next =>
    obtain ⟨ha, hb, honly⟩ := switchDomain_selects d (onTime (fun t => { t with hostSelect := d }) (paramPut Pid.timeSelect 0 d.val s))
    exact ⟨ha, hb, timeOnly_trans (by simp [timeOnly, plantUntouched]) honly⟩

theorem axisStep_steps (s : State) (hpending : s.time.stepPending = true) (hfire : portsFire s = false) : ∃ t, exec .axisStep s = .next t ∧
    (s.time.syncEngaged = false → t.time = { s.time with axis := (selectedDomain s).count, stepPending := false, stepped := true }) ∧
    (s.time.syncEngaged = true → t.time.axis = ((s.time.axis : Int) - s.time.syncDiff * 2 ^ 32).toNat ∧ t.time.syncDiff = 0 ∧
      t.time.stepPending = false ∧ t.time.stepped = true) ∧
    (∀ p : Fin 4, (portOf t p).nextSlot = 0 ∧ (portOf t p).shotSeq = (portOf s p).shotSeq) ∧ timeOnly s t := by
  have hguard : ¬(!s.time.stepPending || portsFire s) = true := by simp [hpending, hfire]
  refine ⟨_, congrArg Host.Outcome.next (if_neg hguard), ?_⟩
  dsimp only
  generalize hu : post 0x0504 _ _ _ s = u
  have htime : u.time = s.time := by rw [← hu]; simp
  have hports : u.ports = s.ports := by rw [← hu]; simp
  have hcount : (selectedDomain u).count = (selectedDomain s).count := by
    unfold selectedDomain domainOf
    rw [htime]
  have honly : timeOnly s u := by rw [← hu]; simp [timeOnly, plantUntouched]
  refine ⟨fun hoff => ?_, fun hon => ?_, fun p => ?_, ?_⟩
  · simp only [onTime, stepAxis, htime, hoff, hcount, Bool.false_eq_true, if_false]
  · simp only [onTime, stepAxis, htime, hon, if_true, and_self]
  · have hget : (u.ports.map fun x => { x with stopping := x.stopping && stopHeld u, nextSlot := 0 })[p.val] =
        { s.ports[p.val] with stopping := s.ports[p.val].stopping && stopHeld u, nextSlot := 0 } := by
      rw [Vector.getElem_map, hports]
    simp only [portOf, vecRead, p.isLt, dif_pos, onTime]
    simp [hget]
  · exact timeOnly_trans honly (by simp [timeOnly, plantUntouched, onTime])

/-- Settles O55: a lock is re-evaluated in its own domain alone and every change of the axis' target moves the time unit and the ports'
grids only. -/
theorem timeFollowsDomains : Obligations.TimeFollowsDomains := by
  unfold Obligations.TimeFollowsDomains
  refine ⟨announce_moves, sync_measures, ptpMessageTx_sends, fun s d => ⟨_, rfl, ?_⟩, fun s d hlt => congrArg Host.Outcome.next (if_pos hlt),
    fun s d hle => ⟨_, congrArg Host.Outcome.next (if_neg (Nat.not_lt.2 hle)), ?_⟩, increment_waits, adjust_added, fun s d inc adj hmirror => ?_,
    servoState_written, timeSelect_written, fun s d hne hunlocked => ?_, fun s hslew => congrArg Host.Outcome.next (if_pos hslew),
    fun s _ hfire => ?_, axisStep_steps⟩
  · obtain ⟨hd, honly⟩ := lockUpdate_onDomain d 2 (fun x => { x with syncTimeout := true }) s
    rw [hd]
    exact ⟨rfl, not_lockHolds_of_timeout (.inl (by rw [domainOf_onDomain])), honly⟩
  · obtain ⟨hd, honly⟩ := lockUpdate_onDomain d 3 (fun x => { x with servoTimeout := true }) s
    rw [hd]
    exact ⟨rfl, not_lockHolds_of_timeout (.inr (by rw [domainOf_onDomain])), honly⟩
  · have hexec : timeDomainWrite d inc adj s = s := by simp [timeDomainWrite, hmirror]
    exact congrArg Host.Outcome.next hexec
  · have hstatus : timeSelectStatus s d false = 0x31 := by simp [timeSelectStatus, hne, hunlocked]
    have hguard : ¬(timeRuns s && timeSelectStatus s d false == 0) = true := by simp [hstatus]
    exact congrArg Host.Outcome.next (if_neg hguard)
  · have hexec : axisStep s = s := by simp [axisStep, hfire]
    exact congrArg Host.Outcome.next hexec

end Sys2Proof.Machine

namespace Sys2Proof.Machine

/-! ## SYNC_IN -/

/-- The edge that the state's free value places in this tick (R408). -/
def edgeAt (s : State) : Nat := axisLsb s + edgePlace s

/-- The phase that an edge at `lsb` shows (R409). -/
def edgePhase (s : State) (lsb : Nat) : Int := nearest ((lsb : Int) - 256 * paramNat s Pid.syncPhaseNs 0) (256 * paramNat s Pid.syncPeriodNs 0)

theorem syncValidEdge_moves (lsb : Nat) (phi : Int) (s : State) (hgood : s.time.syncGood < 7) :
    (syncValidEdge lsb phi s) = { s with time := (syncValidEdge lsb phi s).time } ∧ (syncValidEdge lsb phi s).time.syncLast = some lsb ∧
      (syncValidEdge lsb phi s).time.syncDiff = phi ∧ (syncValidEdge lsb phi s).time.syncEngaged = s.time.syncEngaged ∧
      (syncValidEdge lsb phi s).time.axis = s.time.axis ∧ (syncValidEdge lsb phi s).time.stepPending = s.time.stepPending := by
  unfold syncValidEdge
  dsimp only
  generalize hu : onTime _ s = u
  have hfew : ¬(8 ≤ u.time.syncGood && !u.time.syncLocked) = true := by
    have hle : u.time.syncGood < 8 := by
      rw [← hu]
      simp only [onTime]
      split <;> omega
    simp [Nat.not_le.2 hle]
  rw [if_neg hfew, ← hu]
  exact ⟨rfl, rfl, rfl, rfl, rfl, rfl⟩

theorem syncClose_firing (s : State) (hfire : portsFire s = true) :
    syncClose s = { s with time := (syncClose s).time, ports := (syncClose s).ports } ∧ (syncClose s).time.syncLast = s.time.syncLast ∧
      (syncClose s).time.syncDiff = s.time.syncDiff ∧ (syncClose s).time.syncEngaged = s.time.syncEngaged ∧
      (syncClose s).time.axis = s.time.axis := by
  unfold syncClose
  simp only [hfire, Bool.not_true, Bool.false_eq_true, if_false]
  split_ifs <;> exact ⟨rfl, rfl, rfl, rfl, rfl⟩

theorem syncClose_still (s : State) (hfire : portsFire s = false) (hpending : s.time.stepPending = false) (hengaged : s.time.syncEngaged = true) :
    syncClose s = { s with time := (syncClose s).time } ∧ (syncClose s).time.syncDiff = 0 ∧
      (syncClose s).time.axis = ((s.time.axis : Int) - s.time.syncDiff * 2 ^ 32).toNat := by
  unfold syncClose
  simp only [hfire, hpending, Bool.or_false, decide_eq_true_eq, Bool.not_false, if_true]
  split
  next h => exact ⟨rfl, h, by simp [h]⟩
  next =>
    simp only [onTime, stepAxis, hengaged, if_true, and_self]

theorem syncInEdge_valid (s : State) (hen : paramBool s Pid.syncEnable 0 = true) (hruns : timeRuns s = true)
    (hengaged : s.time.syncEngaged = true) (hlast : s.time.syncLast = none) :
    exec .syncInEdge s = .next (syncClose (syncValidEdge (edgeAt s) (edgePhase s (edgeAt s)) { s with free := (drawFree s).2.free })) := by
  have hdraw : (drawFree s).2 = { s with free := (drawFree s).2.free } := rfl
  refine congrArg Host.Outcome.next ?_
  show syncInEdge (edgePlace s) (drawFree s).2 = _
  rw [hdraw]
  generalize (drawFree s).2.free = d
  have hguard : ¬(!paramBool { s with free := d } Pid.syncEnable 0 || !timeRuns { s with free := d }) = true := by
    have h1 : paramBool { s with free := d } Pid.syncEnable 0 = true := hen
    have h2 : timeRuns { s with free := d } = true := hruns
    simp [h1, h2]
  unfold syncInEdge
  rw [if_neg hguard]
  simp only [hlast, Option.bind_eq_bind, Option.bind_none, Option.map_none, Option.getD_none, Bool.false_eq_true, if_false, Bool.and_false, hengaged, if_true]
  rfl

theorem syncInEdge_firing (s : State) (hen : paramBool s Pid.syncEnable 0 = true) (hruns : timeRuns s = true)
    (hengaged : s.time.syncEngaged = true) (hlast : s.time.syncLast = none) (hgood : s.time.syncGood < 7) (hfire : portsFire s = true) :
    ∃ t, exec .syncInEdge s = .next t ∧ t.time.syncLast = some (edgeAt s) ∧ t.time.syncEngaged = true ∧ t.time.axis = s.time.axis ∧
      t.time.syncDiff = edgePhase s (edgeAt s) ∧ t = { s with time := t.time, ports := t.ports, free := t.free } := by
  refine ⟨_, syncInEdge_valid s hen hruns hengaged hlast, ?_⟩
  generalize (drawFree s).2.free = d
  obtain ⟨hframe, hl, hd, he, ha, -⟩ := syncValidEdge_moves (edgeAt s) (edgePhase s (edgeAt s)) { s with free := d } hgood
  generalize syncValidEdge _ _ _ = u at hframe hl hd he ha ⊢
  have hfire' : portsFire u = true := by rw [hframe]; exact hfire
  obtain ⟨hframe', hl', hd', he', ha'⟩ := syncClose_firing u hfire'
  generalize syncClose u = t at hframe' hl' hd' he' ha' ⊢
  refine ⟨hl'.trans hl, he'.trans (he.trans hengaged), ha'.trans ha, hd'.trans hd, ?_⟩
  rw [hframe', hframe]

theorem syncInEdge_still (s : State) (hen : paramBool s Pid.syncEnable 0 = true) (hruns : timeRuns s = true)
    (hengaged : s.time.syncEngaged = true) (hlast : s.time.syncLast = none) (hgood : s.time.syncGood < 7) (hfire : portsFire s = false)
    (hpending : s.time.stepPending = false) : ∃ t, exec .syncInEdge s = .next t ∧ t.time.syncDiff = 0 ∧
      t.time.axis = ((s.time.axis : Int) - edgePhase s (edgeAt s) * 2 ^ 32).toNat ∧ t = { s with time := t.time, free := t.free } := by
  refine ⟨_, syncInEdge_valid s hen hruns hengaged hlast, ?_⟩
  generalize (drawFree s).2.free = d
  obtain ⟨hframe, -, hd, he, ha, hp⟩ := syncValidEdge_moves (edgeAt s) (edgePhase s (edgeAt s)) { s with free := d } hgood
  generalize syncValidEdge _ _ _ = u at hframe hd he ha hp ⊢
  have hfire' : portsFire u = false := by rw [hframe]; exact hfire
  obtain ⟨hframe', hd', ha'⟩ := syncClose_still u hfire' (hp.trans hpending) (he.trans hengaged)
  rw [hd, ha] at ha'
  refine ⟨hd', ha', ?_⟩
  rw [hframe', hframe]

theorem syncInEdge_chatter (s : State) (u : Nat) (hen : paramBool s Pid.syncEnable 0 = true) (hruns : timeRuns s = true)
    (hlast : s.time.syncLast = some u) (hnear : edgeAt s - u < 256 * paramNat s Pid.tdcCmpHoldoffNs 2) :
    ∃ t, exec .syncInEdge s = .next t ∧ t = { s with params := t.params, free := t.free } := by
  have hdraw : (drawFree s).2 = { s with free := (drawFree s).2.free } := rfl
  have hexec : syncInEdge (edgePlace s) (drawFree s).2 = bump Pid.syncChatter 0 { s with free := (drawFree s).2.free } := by
    rw [hdraw]
    generalize (drawFree s).2.free = d
    have hguard : ¬(!paramBool { s with free := d } Pid.syncEnable 0 || !timeRuns { s with free := d }) = true := by
      have h1 : paramBool { s with free := d } Pid.syncEnable 0 = true := hen
      have h2 : timeRuns { s with free := d } = true := hruns
      simp [h1, h2]
    have hchatter : axisLsb { s with free := d } + edgePlace s - u < 256 * paramNat { s with free := d } Pid.tdcCmpHoldoffNs 2 := hnear
    unfold syncInEdge
    rw [if_neg hguard]
    simp only [hlast, Option.map_some, Option.getD_some, hchatter, decide_true, if_true]
  exact ⟨_, congrArg Host.Outcome.next hexec, rfl⟩

theorem retarget_sync (s : State) : (retarget s).time.syncEngaged = s.time.syncEngaged ∧ (retarget s).time.syncLocked = s.time.syncLocked ∧
    (retarget s).time.syncStuck = s.time.syncStuck := by
  unfold retarget
  dsimp only
  split_ifs <;> exact ⟨rfl, rfl, rfl⟩

theorem syncLoss_disengages (s : State) (stuck : Bool) (hen : paramBool s Pid.syncEnable 0 = true) (hengaged : s.time.syncEngaged = true) :
    ∃ t, exec (.syncLoss stuck) s = .next t ∧ t.time.syncEngaged = false ∧ t.time.syncLocked = false ∧
      (stuck = true → t.time.syncStuck = true) ∧ timeOnly s t := by
  refine ⟨_, congrArg Host.Outcome.next (if_pos hen), ?_⟩
  obtain ⟨u, hu, honly, hengaged', hstuck⟩ : ∃ u, (if stuck then onTime (fun t => { t with syncStuck := true }) s else s) = u ∧ timeOnly s u ∧
      u.time.syncEngaged = true ∧ (stuck = true → u.time.syncStuck = true) := by
    cases stuck
    · exact ⟨_, rfl, by simp [timeOnly, plantUntouched], hengaged, fun h => by simp at h⟩
    · exact ⟨_, rfl, by simp [timeOnly, plantUntouched, onTime], hengaged, fun _ => rfl⟩
  unfold syncLoss
  simp only [hu, hengaged', Bool.not_true, Bool.false_eq_true, if_false]
  generalize hv : bump Pid.syncLosses 0 _ = v
  have hvt : v.time = { u.time with syncEngaged := false, syncLocked := false, syncValid := 0, syncGood := 0 } := by rw [← hv]; rfl
  have hvonly : timeOnly u v := by rw [← hv]; simp [timeOnly, plantUntouched, onTime]
  generalize hw : post 0x0602 _ _ _ v = w
  have hwt : w.time = v.time := by rw [← hw]; simp
  have hwonly : timeOnly v w := by rw [← hw]; simp [timeOnly, plantUntouched]
  obtain ⟨ha, hb, hc⟩ := retarget_sync w
  have hr : timeOnly w (retarget w) := by simp [timeOnly, plantUntouched]
  rw [ha, hb, hc, hwt, hvt]
  exact ⟨rfl, rfl, hstuck, timeOnly_trans honly (timeOnly_trans hvonly (timeOnly_trans hwonly hr))⟩

/-! ## Pulse outputs -/

theorem toutOf_onTout_ne {u v : Fin 4} (f : Tout → Tout) (s : State) (h : v ≠ u) : toutOf (onTout u f s) v = toutOf s v :=
  toutOf_onTout_other _ _ fun hv => h (Fin.ext hv)

theorem onTout_frame (u : Nat) (f : Tout → Tout) (s : State) : onTout u f s = { s with time := { s.time with touts := (onTout u f s).time.touts } } := rfl

theorem toutPulse_next (s : State) (u : Fin 4) (k : Nat) (hruns : timeRuns s = true) (hnext : (toutOf s u).next = some k) (hnow : toutNow s u = k)
    (hmode : paramNat s Pid.toutMode u = 2) (hperiod : 0 < paramNat s Pid.toutPeriodNs u) : ∃ t, exec (.toutPulse u) s = .next t ∧
      toutOf t u = { toutOf s u with active := true, endsAt := k + paramNat s Pid.toutWidthNs u, next := some (k + paramNat s Pid.toutPeriodNs u) } ∧
      (∀ v : Fin 4, v ≠ u → toutOf t v = toutOf s v) ∧ t = { s with time := { s.time with touts := t.time.touts } } := by
  have hpar (id : Nat) (f : Tout → Tout) : paramNat (onTout u f s) id u = paramNat s id u := rfl
  have hstep : k + ((k - k) / paramNat s Pid.toutPeriodNs u + 1) * paramNat s Pid.toutPeriodNs u = k + paramNat s Pid.toutPeriodNs u := by simp
  have hexec : toutPulse u s = onTout u (fun x => { x with next := some (k + paramNat s Pid.toutPeriodNs u) })
      (onTout u (fun x => { x with active := true, endsAt := k + paramNat s Pid.toutWidthNs u, next := none }) s) := by
    have hlate : ¬k + 2 ≤ k := by omega
    simp only [toutPulse, hnext, hnow, Nat.lt_irrefl, if_false, hpar, hmode, hstep, hlate, decide_false, Bool.false_eq_true, if_true]
    rfl
  refine ⟨_, (congrArg Host.Outcome.next (if_pos hruns)).trans (congrArg Host.Outcome.next hexec), ?_, fun v hv => ?_, rfl⟩
  · rw [toutOf_onTout, toutOf_onTout]
  · rw [toutOf_onTout_ne _ _ hv, toutOf_onTout_ne _ _ hv]

theorem toutOf_of_time {s t : State} (h : t.time = s.time) (u : Nat) : toutOf t u = toutOf s u := by
  unfold toutOf
  rw [h]

theorem toutOf_paramPut (id i : Nat) (v : Int) (s : State) (u : Nat) : toutOf (paramPut id i v s) u = toutOf s u := rfl

theorem toutPulse_late (s : State) (u : Fin 4) (k : Nat) (hruns : timeRuns s = true) (hnext : (toutOf s u).next = some k)
    (hlate : k + 2 ≤ toutNow s u) : ∃ t, exec (.toutPulse u) s = .next t ∧ (toutOf t u).active = true ∧
      (toutOf t u).endsAt = toutNow s u + paramNat s Pid.toutWidthNs u ∧ t.evq.seq = s.evq.seq + 1 ∧
      plantUntouched { s with time := t.time } t := by
  refine ⟨_, congrArg Host.Outcome.next (if_pos hruns), ?_⟩
  unfold toutPulse
  have hreached : ¬toutNow s u < k := by omega
  simp only [hnext, hreached, if_false, hlate, decide_true, if_true]
  generalize hv : ite (paramNat _ Pid.toutMode u = 1) _ _ = v
  have hout : (toutOf v u).active = true ∧ (toutOf v u).endsAt = toutNow s u + paramNat s Pid.toutWidthNs u ∧ v.evq = s.evq ∧
      plantUntouched { s with time := v.time } v := by
    rw [← hv]
    split
    · exact ⟨by rw [toutOf_paramPut, toutOf_onTout], by rw [toutOf_paramPut, toutOf_onTout], rfl, by simp [plantUntouched]⟩
    · split
      · exact ⟨by rw [toutOf_onTout, toutOf_onTout], by rw [toutOf_onTout, toutOf_onTout], rfl, by simp [plantUntouched]⟩
      · exact ⟨by rw [toutOf_onTout], by rw [toutOf_onTout], rfl, by simp [plantUntouched]⟩
  obtain ⟨ha, hb, hseq, hplant⟩ := hout
  generalize hw : post 0x0603 _ _ _ _ = w
  have hwt : toutOf w u = toutOf v u := by rw [← hw]; exact toutOf_of_time (by simp) u
  rw [hwt]
  refine ⟨ha, hb, ?_, ?_⟩
  · rw [← hw, post_seq, bump_evq, hseq]
  · rw [← hw]
    simpa [plantUntouched] using hplant

theorem toutConfigWrite_accepts {s : State} {u : Fin 4} {f : Fin 8} {v : Int} (hruns : timeRuns s = true)
    (hrange : inRange (Pid.toutMode + f) u v = true) (hstatus : toutStatus s u f v = 0) :
    exec (.toutConfigWrite u f v) s = .next (writeTout u f v s) := by
  have hguard : (timeRuns s && inRange (Pid.toutMode + f) u v && toutStatus s u f v == 0) = true := by simp [hruns, hrange, hstatus]
  exact congrArg Host.Outcome.next (if_pos hguard)

theorem toutConfigWrite_idle (s : State) (u : Fin 4) (f : Fin 8) (v : Int) (hruns : timeRuns s = true)
    (hrange : inRange (Pid.toutMode + f) u v = true) (hstatus : toutStatus s u f v = 0) (hidle : (toutOf s u).active = false) :
    ∃ t, exec (.toutConfigWrite u f v) s = .next t ∧ t.params = Store.write paramDefault s.params (paramKey (Pid.toutMode + f) u) v ∧
      (toutOf t u).next = toutFirst t u ∧ (∀ w : Fin 4, w ≠ u → toutOf t w = toutOf s w) ∧
      t = { s with params := t.params, time := { s.time with touts := t.time.touts } } := by
  have hwrite : writeTout u f v s = onTout u (fun x => { x with next := toutFirst (paramPut (Pid.toutMode + f) u v s) u })
      (paramPut (Pid.toutMode + f) u v s) := if_neg (by simp [hidle])
  refine ⟨_, (toutConfigWrite_accepts hruns hrange hstatus).trans (congrArg Host.Outcome.next hwrite), rfl, ?_, fun w hw => ?_, rfl⟩
  · rw [toutOf_onTout]
    rfl
  · rw [toutOf_onTout_ne _ _ hw]
    rfl

theorem toutConfigWrite_waits (s : State) (u : Fin 4) (f : Fin 8) (v : Int) (hruns : timeRuns s = true)
    (hrange : inRange (Pid.toutMode + f) u v = true) (hstatus : toutStatus s u f v = 0) (hactive : (toutOf s u).active = true) :
    ∃ t, exec (.toutConfigWrite u f v) s = .next t ∧ t.params = s.params ∧ (toutOf t u).next = (toutOf s u).next ∧
      toutField t u f = v.toNat ∧ t = { s with time := { s.time with touts := t.time.touts } } := by
  have hwrite : writeTout u f v s = onTout u (fun x => { x with writes := Store.put x.writes (paramKey (Pid.toutMode + f) u) v }) s :=
    if_pos hactive
  refine ⟨_, (toutConfigWrite_accepts hruns hrange hstatus).trans (congrArg Host.Outcome.next hwrite), rfl, ?_, ?_, rfl⟩
  · rw [toutOf_onTout]
  · rw [toutField, toutOf_onTout, Store.read_put_self]

/-! ## The time-interval unit -/

theorem tdcEnd_ends (aborted : Bool) (s : State) (hrun : s.time.tdc.running = true) :
    (tdcEnd aborted s).time.tdc = { s.time.tdc with
      running := false, done := true, aborted := s.time.tdc.aborted || aborted, start := none, stop := none } ∧
      (tdcEnd aborted s).evq.seq = s.evq.seq + 1 := by
  have hguard : ¬(!s.time.tdc.running) = true := by simp [hrun]
  unfold tdcEnd
  rw [if_neg hguard]
  dsimp only
  refine ⟨?_, post_seq _ _ _ _ _⟩
  rw [post_time]
  rfl

theorem tdcMeasured_state (r : Option Int) (s : State) (hrun : s.time.tdc.running = true) :
    (tdcMeasured r s).time.tdc.resultLsb = r.getD s.time.tdc.resultLsb ∧
      (tdcMeasured r s).time.tdc.valid = (s.time.tdc.valid || r.isSome) ∧ (tdcMeasured r s).time.tdc.made = s.time.tdc.made + 1 ∧
      (tdcMeasured r s).time.tdc.start = none ∧ (tdcMeasured r s).time.tdc.ovf = s.time.tdc.ovf ∧
      (tdcMeasured r s).time.tdc.running = decide (s.time.tdc.made + 1 < paramNat s Pid.tdcCount 0) ∧
      plantUntouched { s with time := (tdcMeasured r s).time } (tdcMeasured r s) := by
  refine and_assoc.1 (and_assoc.1 (and_assoc.1 (and_assoc.1 (and_assoc.1 ⟨?_, by simp [plantUntouched]⟩))))
  unfold tdcMeasured
  dsimp only
  generalize hu : onTdc _ s = u
  have hmade : u.time.tdc.made = s.time.tdc.made + 1 := by rw [← hu]; rfl
  have hcount : paramNat u Pid.tdcCount 0 = paramNat s Pid.tdcCount 0 := by rw [← hu]; rfl
  have hurun : u.time.tdc.running = true := by rw [← hu]; exact hrun
  have hfacts : ((((u.time.tdc.resultLsb = r.getD s.time.tdc.resultLsb ∧ u.time.tdc.valid = (s.time.tdc.valid || r.isSome)) ∧
      u.time.tdc.made = s.time.tdc.made + 1) ∧ u.time.tdc.start = none) ∧ u.time.tdc.ovf = s.time.tdc.ovf) := by
    rw [← hu]
    exact ⟨⟨⟨⟨rfl, rfl⟩, rfl⟩, rfl⟩, rfl⟩
  rw [hmade, hcount]
  split
  next h =>
    rw [(tdcEnd_ends false u hurun).1]
    obtain ⟨hfacts, hovf⟩ := hfacts
    obtain ⟨hfacts, -⟩ := hfacts
    exact ⟨⟨⟨hfacts, rfl⟩, hovf⟩, by simp [Nat.not_lt.2 h]⟩
  next h => exact ⟨hfacts, by simp [hurun, Nat.not_le.1 h]⟩

theorem usedEdge_frame (isStop : Bool) (lsb : Nat) (s : State) :
    usedEdge isStop lsb s = { s with time := { s.time with cmpLast := (usedEdge isStop lsb s).time.cmpLast } } := by
  unfold usedEdge
  split <;> rfl

theorem tdcGrade_frame (s : State) : tdcGrade s = { s with time := { s.time with tdc := (tdcGrade s).time.tdc } } ∧
    (tdcGrade s).time.tdc.start = s.time.tdc.start ∧ (tdcGrade s).time.tdc.made = s.time.tdc.made := by
  unfold tdcGrade
  dsimp only
  split <;> exact ⟨rfl, rfl, rfl⟩

theorem tdcEdge_start (s : State) (lsb : Nat) (hrun : s.time.tdc.running = true) (hmode : paramNat s Pid.tdcMode 0 = 0)
    (hstart : s.time.tdc.start = none) (hlive : edgeLive s false = true) (hheld : heldOff s false lsb = false) :
    ∃ t, exec (.tdcEdge false lsb) s = .next t ∧ t.time.tdc.start = some lsb ∧ t.time.tdc.made = s.time.tdc.made ∧
      t = { s with time := { s.time with tdc := t.time.tdc, cmpLast := t.time.cmpLast } } := by
  have htakes : takesEdge s false = true := by simp [takesEdge, hmode, hstart]
  obtain ⟨c, hc⟩ : ∃ c, usedEdge false lsb s = { s with time := { s.time with cmpLast := c } } := ⟨_, usedEdge_frame _ _ _⟩
  have hmode' : paramNat { s with time := { s.time with cmpLast := c } } Pid.tdcMode 0 = 0 := hmode
  have hexec : tdcEdge false lsb s = tdcGrade (onTdc (fun x => { x with start := some lsb }) { s with time := { s.time with cmpLast := c } }) := by
    simp only [tdcEdge, hstart, Option.isSome_none, ite_self, hrun, hlive, hheld, htakes, Bool.not_true, Bool.or_self, Bool.false_eq_true, if_false, hc,
      hmode', tdcOneSided]
  refine ⟨_, congrArg Host.Outcome.next hexec, ?_⟩
  obtain ⟨hframe, hs, hm⟩ := tdcGrade_frame (onTdc (fun x => { x with start := some lsb }) { s with time := { s.time with cmpLast := c } })
  refine ⟨hs, hm, ?_⟩
  rw [hframe]
  rfl

theorem tdcEdge_stop (s : State) (a lsb : Nat) (hrun : s.time.tdc.running = true) (hmode : paramNat s Pid.tdcMode 0 = 0)
    (hstart : s.time.tdc.start = some a) (hlive : edgeLive s true = true) (hheld : heldOff s true lsb = false) (hne : lsb ≠ a)
    (hnear : ((lsb : Int) - a).natAbs ≤ 2 ^ 24 * 320) : ∃ t, exec (.tdcEdge true lsb) s = .next t ∧ t.time.tdc.resultLsb = (lsb : Int) - a ∧
      t.time.tdc.valid = true ∧ t.time.tdc.made = s.time.tdc.made + 1 ∧ t.time.tdc.start = none ∧
      t.time.tdc.running = decide (s.time.tdc.made + 1 < paramNat s Pid.tdcCount 0) ∧ plantUntouched { s with time := t.time } t := by
  have htakes : takesEdge s true = true := by simp [takesEdge, hmode]
  have hdiff : ¬(lsb : Int) - a = 0 := by omega
  obtain ⟨c, hc⟩ : ∃ c, usedEdge true lsb s = { s with time := { s.time with cmpLast := c } } := ⟨_, usedEdge_frame _ _ _⟩
  have hmode' : paramNat { s with time := { s.time with cmpLast := c } } Pid.tdcMode 0 = 0 := hmode
  have hexec : tdcEdge true lsb s = tdcMeasured (some ((lsb : Int) - a)) { s with time := { s.time with cmpLast := c } } := by
    simp only [tdcEdge, hstart, Option.isSome_some, ite_self, hrun, hlive, hheld, htakes, Bool.not_true, Bool.or_self, Bool.false_eq_true, if_false, hc,
      hmode', tdcOneSided, if_true, tdcPair, Nat.not_lt.2 hnear, hdiff]
  refine ⟨_, congrArg Host.Outcome.next hexec, ?_⟩
  obtain ⟨hres, hvalid, hmade, hnone, -, hrunning, hplant⟩ := tdcMeasured_state (some ((lsb : Int) - a)) { s with time := { s.time with cmpLast := c } } hrun
  exact ⟨hres, hvalid.trans (Bool.or_true _), hmade, hnone, hrunning, hplant⟩

theorem tdcTimeout_overflows (s : State) (a : Nat) (hrun : s.time.tdc.running = true) (hstart : s.time.tdc.start = some a) :
    ∃ t, exec .tdcTimeout s = .next t ∧ t.time.tdc.ovf = true ∧ t.time.tdc.start = none ∧ t.time.tdc.made = s.time.tdc.made + 1 ∧
      t.time.tdc.resultLsb = s.time.tdc.resultLsb ∧ plantUntouched { s with time := t.time } t := by
  have hguard : (s.time.tdc.running && (s.time.tdc.start.isSome || s.time.tdc.stop.isSome)) = true := by simp [hrun, hstart]
  refine ⟨_, congrArg Host.Outcome.next (if_pos hguard), ?_⟩
  obtain ⟨hres, -, hmade, hnone, hovf, -, hplant⟩ := tdcMeasured_state none (onTdc (fun x => { x with ovf := true }) s) hrun
  exact ⟨hovf, hnone, hmade, hres, hplant⟩

/-- Settles O56: an edge of SYNC_IN is one update of the loop and one of the axis, a pulse one of its output, and a measurement ends in
`tdcMeasured` whatever ends it. -/
theorem pulsesAreTimed : Obligations.PulsesAreTimed := by
  unfold Obligations.PulsesAreTimed
  refine ⟨syncInEdge_firing, syncInEdge_still, syncInEdge_chatter, syncLoss_disengages, toutPulse_next, toutPulse_late, toutConfigWrite_idle,
    toutConfigWrite_waits, fun s hmode hruns => ?_, fun s hmode hruns hrun => ?_, fun s on hmode => ?_, fun s stop lsb hrun => ?_,
    fun s stop lsb hlive => ?_, tdcEdge_start, tdcEdge_stop, tdcTimeout_overflows⟩
  · have hguard : ¬(s.mode.current == .survey || !timeRuns s) = true := by simp [hmode, hruns]
    exact congrArg Host.Outcome.next (if_neg hguard)
  · have hguard : ¬(s.mode.current == .survey || !timeRuns s) = true := by simp [hmode, hruns]
    obtain ⟨htdc, hseq⟩ := tdcEnd_ends false s hrun
    refine ⟨tdcEnd false s, congrArg Host.Outcome.next (if_neg hguard), ?_, ?_, hseq, by simp [plantUntouched]⟩
    all_goals rw [htdc]
  · have hguard : (s.mode.current == .survey || !timeRuns s) = true := by simp [hmode]
    exact congrArg Host.Outcome.next (if_pos hguard)
  · have hexec : tdcEdge stop lsb s = s := by simp [tdcEdge, hrun]
    exact congrArg Host.Outcome.next hexec
  · have hexec : tdcEdge stop lsb s = s := by simp [tdcEdge, hlive]
    exact congrArg Host.Outcome.next hexec

end Sys2Proof.Machine

namespace Sys2Proof.Machine

/-! ## Staged values -/

/-- Only PENDING has moved. -/
def pendingOnly (s t : State) : Prop := t = { s with banks := { s.banks with pending := t.banks.pending } }

theorem pendingOnly_trans {s t u : State} (h : pendingOnly s t) (h' : pendingOnly t u) : pendingOnly s u := by
  unfold pendingOnly at h h' ⊢
  rw [h', h]

theorem pendingOnly_forEach {α : Type} {f : α → State → State} (h : ∀ x s, pendingOnly s (f x s)) (xs : List α) (s : State) :
    pendingOnly s (forEach xs f s) :=
  forEach_preserves (P := pendingOnly s) (fun x u hu => pendingOnly_trans hu (h x u)) xs rfl

theorem stageValue_pendingOnly (id idx : Nat) (v : Int) (s : State) : pendingOnly s (stageValue id idx v s) := rfl

theorem stageRecord_pendingOnly (v2 : Bool) (b : List Byte) (s : State) : pendingOnly s (stageRecord v2 b s) :=
  pendingOnly_forEach (fun _ _ => stageValue_pendingOnly _ _ _ _) _ _

theorem stageDefaults_pendingOnly (z : Nat) (s : State) : pendingOnly s (stageDefaults z s) :=
  pendingOnly_forEach (fun _ _ => stageValue_pendingOnly _ _ _ _) _ _

/-- A bank with a list of items written into it, in their order. -/
def bankWith (items : List (Nat × Nat × Nat)) (b : Bank) : Bank := items.foldl (fun b i => bankWrite b i.1 i.2.1 (i.2.2 : Nat)) b

theorem forEach_stageValue (items : List (Nat × Nat × Nat)) (s : State) :
    pendingBank (forEach items (fun i s => stageValue i.1 i.2.1 (i.2.2 : Nat) s) s) = bankWith items (pendingBank s) ∧
      (s.banks.pending.isSome = true ∨ items ≠ [] →
        (forEach items (fun i s => stageValue i.1 i.2.1 (i.2.2 : Nat) s) s).banks.pending.isSome = true) := by
  induction items generalizing s with
  | nil => exact ⟨rfl, fun h => h.resolve_right (· rfl)⟩
  | cons i items ih =>
    obtain ⟨hbank, hsome⟩ := ih (stageValue i.1 i.2.1 (i.2.2 : Nat) s)
    exact ⟨hbank, fun _ => hsome (.inl rfl)⟩

theorem bankWith_epoch (items : List (Nat × Nat × Nat)) (b : Bank) : (bankWith items b).epoch = b.epoch := by
  induction items generalizing b with
  | nil => rfl
  | cons i items ih => exact ih _

theorem bankWith_wf (items : List (Nat × Nat × Nat)) {b : Bank} (h : Store.wf paramDefault b.params = true) :
    Store.wf paramDefault (bankWith items b).params = true := by
  induction items generalizing b with
  | nil => exact h
  | cons i items ih => exact ih (Store.wf_write _ _ _ _ h)

theorem bankRead_bankWith_other {id idx : Nat} (items : List (Nat × Nat × Nat)) (b : Bank) (h : ∀ i ∈ items, paramKey id idx ≠ paramKey i.1 i.2.1) :
    bankRead (bankWith items b) id idx = bankRead b id idx := by
  induction items generalizing b with
  | nil => rfl
  | cons i items ih =>
    refine (ih _ fun x hx => h x (List.mem_cons_of_mem _ hx)).trans ?_
    exact Store.read_write_other _ _ _ (h i (by simp))

theorem bankRead_bankWith {id idx v : Nat} (before after : List (Nat × Nat × Nat)) {b : Bank} (hwf : Store.wf paramDefault b.params = true)
    (h : ∀ i ∈ after, paramKey id idx ≠ paramKey i.1 i.2.1) : bankRead (bankWith (before ++ (id, idx, v) :: after) b) id idx = (v : Int) := by
  have hsplit : bankWith (before ++ (id, idx, v) :: after) b = bankWith after (bankWrite (bankWith before b) id idx v) := by
    unfold bankWith
    rw [List.foldl_append, List.foldl_cons]
  rw [hsplit, bankRead_bankWith_other _ _ h]
  exact Store.read_write_self _ _ _ _ (bankWith_wf before hwf)

/-! ## Records -/

theorem getElem?_slice (bs : List Byte) (start n i : Nat) (h : i < n) : (slice bs start n)[i]? = some (bs.getD (start + i) 0) := by
  unfold slice
  dsimp only
  rw [List.getElem?_append]
  have hlen : ((bs.drop start).take n).length = min n (bs.length - start) := by simp
  split
  next hlt =>
    rw [List.getElem?_take_of_lt h, List.getElem?_drop]
    rw [hlen] at hlt
    have hin : start + i < bs.length := by omega
    rw [List.getElem?_eq_getElem hin, List.getD_eq_getElem _ _ hin]
  next hge =>
    rw [hlen] at hge
    have hout : bs.length ≤ start + i := by omega
    rw [List.getElem?_replicate_of_lt (by omega), List.getD_eq_default _ _ hout]

theorem slice_slice (bs : List Byte) (start n start' n' : Nat) (h : start' + n' ≤ n) :
    slice (slice bs start n) start' n' = slice bs (start + start') n' := by
  have hlen (cs : List Byte) (a k : Nat) : (slice cs a k).length = k := by
    unfold slice
    simp
  apply List.ext_getElem?
  intro i
  by_cases hi : i < n'
  · rw [getElem?_slice _ _ _ _ hi, getElem?_slice _ _ _ _ hi]
    rw [List.getD_eq_getElem?_getD, getElem?_slice _ _ _ _ (by omega), Option.getD_some, Nat.add_assoc]
  · rw [List.getElem?_eq_none (by rw [hlen]; omega), List.getElem?_eq_none (by rw [hlen]; omega)]

theorem field_slice (bs : List Byte) (start n start' n' : Nat) (h : start' + n' ≤ n) :
    field (slice bs start n) start' n' = field bs (start + start') n' := by
  unfold field
  rw [slice_slice _ _ _ _ _ h]

/-! ## Zone commands -/

/-- The records of a ZONE_DEFINE. -/
def zoneRecords (r : Request) : List (List Byte) := (List.range (field r.payload 0 2)).map fun i => slice r.payload (4 + 64 * i) 64

/-- What a zone command does between its journal entry and its answer: `f` stages, then `k` steps are journaled. -/
def zoneWork (r : Request) (k : Nat) (f : State → State) (s : State) : State :=
  answerWork r (nextJournal s) k 0 (journalSteps (nextJournal s) k (f (journalOpen r k s)))

theorem zoneDefine_passes {s : State} {r : Request} (h : ∀ i < field r.payload 0 2, recordStatus (session2 s r) (slice r.payload (4 + 64 * i) 64) = 0) :
    zoneDefine r s = zoneWork r (zoneRecords r).length (forEach (zoneRecords r) (stageRecord (session2 s r))) s := by
  have hnone : ((zoneRecords r).zipIdx).find? (fun e => recordStatus (session2 s r) e.1 ≠ 0) = none := by
    rw [List.find?_eq_none]
    intro e he
    have hmem : e.1 ∈ zoneRecords r := List.fst_mem_of_mem_zipIdx he
    obtain ⟨i, hi, hrec⟩ := List.mem_map.1 hmem
    simp [← hrec, h i (List.mem_range.1 hi)]
  unfold zoneDefine
  dsimp only
  unfold zoneRecords at hnone
  simp only [hnone]
  rfl

theorem zoneDelete_passes {s : State} {r : Request} (h : ∀ i < field r.payload 0 2, field r.payload (4 + 2 * i) 2 < 1024) :
    ∃ zs k, zoneDelete r s = zoneWork r k (forEach zs stageDefaults) s := by
  obtain ⟨zs, hzs⟩ : ∃ zs, ((List.range (field r.payload 0 2)).map fun i => field r.payload (4 + 2 * i) 2) = zs := ⟨_, rfl⟩
  have hnone : zs.zipIdx.find? (fun e => decide (1024 ≤ e.1)) = none := by
    rw [List.find?_eq_none]
    intro e he
    have hmem : e.1 ∈ zs := List.fst_mem_of_mem_zipIdx he
    rw [← hzs] at hmem
    obtain ⟨i, hi, hz⟩ := List.mem_map.1 hmem
    have := h i (List.mem_range.1 hi)
    simp
    omega
  refine ⟨zs, zs.length, ?_⟩
  unfold zoneDelete
  simp only [hzs, hnone]
  rfl

theorem zoneWork_stages {r : Request} {k : Nat} {f : State → State} {s : State} (hf : ∀ u, pendingOnly u (f u)) :
    (zoneWork r k f (dequeue r s)).banks = { s.banks with pending := (zoneWork r k f (dequeue r s)).banks.pending } ∧
      (zoneWork r k f (dequeue r s)).banks.pending = (f (journalOpen r k (dequeue r s))).banks.pending ∧
      (zoneWork r k f (dequeue r s)).journal.newest = nextJournal s ∧
      plantUntouched { s with banks := (zoneWork r k f (dequeue r s)).banks } (zoneWork r k f (dequeue r s)) := by
  have hframe := hf (journalOpen r k (dequeue r s))
  unfold zoneWork
  simp only [answerWork_banks, journalSteps_banks, answerWork_journal, journalSteps_newest]
  generalize f (journalOpen r k (dequeue r s)) = u at hframe ⊢
  obtain ⟨p, hp⟩ : ∃ p, u.banks.pending = p := ⟨_, rfl⟩
  rw [hp]
  unfold pendingOnly at hframe
  rw [hp] at hframe
  subst hframe
  refine ⟨rfl, trivial, rfl, ?_⟩
  simp [plantUntouched, dequeue]

theorem recordItems_program (v2 : Bool) (z : Nat) (b : List Byte) : ∃ before after, recordItems v2 z b =
    before ++ (Pid.zoneProgram, z, field b 27 1) :: after ∧ ∀ i ∈ after, (i.1 = Pid.zoneBandLoHz ∨ i.1 = Pid.zoneBandHiHz) ∧ ∃ k < 8, i.2.1 = idx2 z k := by
  refine ⟨_, _, (List.append_assoc (as := [_, _, _, _, _, _, _, _, _, _, _, _, _, _, _, _]) (bs := [_]) _), ?_⟩
  intro i hi
  obtain ⟨k, hk, hmem⟩ := List.mem_flatMap.1 hi
  simp only [List.mem_cons, List.not_mem_nil, or_false] at hmem
  rcases hmem with rfl | rfl
  · exact ⟨.inl rfl, k, List.mem_range.1 hk, rfl⟩
  · exact ⟨.inr rfl, k, List.mem_range.1 hk, rfl⟩

theorem stageRecord_program (v2 : Bool) (b : List Byte) (s : State) (z : Nat) (hz : field b 0 2 = z) (hlt : z < 1024)
    (hwf : Store.wf paramDefault (pendingBank s).params = true) : ∃ c, (stageRecord v2 b s).banks.pending = some c ∧
      bankRead c Pid.zoneProgram z = field b 27 1 ∧ c.epoch = (pendingBank s).epoch := by
  obtain ⟨before, after, hitems, hafter⟩ := recordItems_program v2 z b
  have hother : ∀ i ∈ after, paramKey Pid.zoneProgram z ≠ paramKey i.1 i.2.1 := by
    intro i hi
    obtain ⟨hid, k, hk, hidx⟩ := hafter i hi
    rw [hidx, idx2]
    rcases hid with hid | hid <;> rw [hid] <;> simp only [paramKey, Pid.zoneProgram, Pid.zoneBandLoHz, Pid.zoneBandHiHz] <;> omega
  obtain ⟨hbank, hsome⟩ := forEach_stageValue (recordItems v2 z b) s
  unfold stageRecord
  rw [hz]
  generalize forEach (recordItems v2 z b) _ s = t at hbank hsome ⊢
  obtain ⟨c, hc⟩ := Option.isSome_iff_exists.1 (hsome (.inr (by rw [hitems]; simp)))
  have hcbank : c = bankWith (recordItems v2 z b) (pendingBank s) := by
    rw [← hbank, pendingBank, hc]
    rfl
  refine ⟨c, hc, ?_, ?_⟩
  · rw [hcbank, hitems]
    exact bankRead_bankWith before after hwf hother
  · rw [hcbank, bankWith_epoch]

theorem stageRecord_pendingSome (v2 : Bool) (b : List Byte) (s : State) : (stageRecord v2 b s).banks.pending.isSome = true :=
  (forEach_stageValue _ s).2 (.inr (by simp [recordItems]))

theorem forEach_stageRecord_pending (v2 : Bool) (bs : List (List Byte)) (s : State) (h : bs ≠ []) :
    (forEach bs (stageRecord v2) s).banks.pending.isSome = true := by
  obtain ⟨pre, b, rfl⟩ := List.eq_nil_or_concat' bs |>.resolve_left h
  have hsplit : forEach (pre ++ [b]) (stageRecord v2) s = stageRecord v2 b (forEach pre (stageRecord v2) s) := by
    simp [forEach]
  rw [hsplit]
  exact stageRecord_pendingSome _ _ _

theorem zoneDefine_stages (s : State) (r : Request) (hr : mayExecute s 0x0400 r)
    (hok : ∀ i < field r.payload 0 2, recordStatus (session2 (dequeue r s) r) (slice r.payload (4 + 64 * i) 64) = 0) : ∃ t,
      exec .zoneDefine s = .next t ∧ t.banks = { s.banks with pending := t.banks.pending } ∧ t.journal.newest = nextJournal s ∧
      (1 ≤ field r.payload 0 2 → t.banks.pending.isSome = true) ∧ plantUntouched { s with banks := t.banks } t := by
  have hexec := (runCommand_of_mayExecute hr zoneDefine).trans (zoneDefine_passes hok)
  obtain ⟨hbanks, hpending, hnew, hplant⟩ := zoneWork_stages (r := r) (k := (zoneRecords r).length) (s := s)
    (fun u => pendingOnly_forEach (stageRecord_pendingOnly (session2 (dequeue r s) r)) (zoneRecords r) u)
  refine ⟨_, congrArg Host.Outcome.next hexec, hbanks, hnew, fun hone => ?_, hplant⟩
  rw [hpending]
  refine forEach_stageRecord_pending _ _ _ fun hnil => ?_
  have hlen : (zoneRecords r).length = field r.payload 0 2 := by simp [zoneRecords]
  rw [hnil, List.length_nil] at hlen
  omega

theorem forEach_singleton {α : Type} (f : α → State → State) (x : α) (s : State) : forEach [x] f s = f x s := rfl

theorem zoneDefine_reads (s : State) (r : Request) (z : Nat) (hr : mayExecute s 0x0400 r) (hone : field r.payload 0 2 = 1) (hlt : z < 1024)
    (hz : field r.payload 4 2 = z) (hok : recordStatus (session2 (dequeue r s) r) (slice r.payload 4 64) = 0)
    (hwf : Store.wf paramDefault (s.banks.pending.getD s.banks.active).params = true) : ∃ t b, exec .zoneDefine s = .next t ∧
      t.banks.pending = some b ∧ bankRead b Pid.zoneProgram z = field r.payload 31 1 ∧ b.epoch = (s.banks.pending.getD s.banks.active).epoch := by
  have hall : ∀ i < field r.payload 0 2, recordStatus (session2 (dequeue r s) r) (slice r.payload (4 + 64 * i) 64) = 0 := by
    intro i hi
    obtain rfl : i = 0 := by omega
    exact hok
  have hexec := (runCommand_of_mayExecute hr zoneDefine).trans (zoneDefine_passes hall)
  obtain ⟨-, hpending, -⟩ := zoneWork_stages (r := r) (k := (zoneRecords r).length) (s := s)
    (fun u => pendingOnly_forEach (stageRecord_pendingOnly (session2 (dequeue r s) r)) (zoneRecords r) u)
  have hrecs : zoneRecords r = [slice r.payload 4 64] := by
    unfold zoneRecords
    rw [hone]
    rfl
  obtain ⟨c, hc, hread, hepoch⟩ := stageRecord_program (session2 (dequeue r s) r) (slice r.payload 4 64)
    (journalOpen r (zoneRecords r).length (dequeue r s)) z ((field_slice _ _ _ _ _ (by decide)).trans hz) hlt hwf
  refine ⟨_, c, congrArg Host.Outcome.next hexec, hpending.trans ?_, ?_, hepoch⟩
  · have hsingle (u : State) : forEach (zoneRecords r) (stageRecord (session2 (dequeue r s) r)) u =
        stageRecord (session2 (dequeue r s) r) (slice r.payload 4 64) u := by
      rw [hrecs, forEach_singleton]
    rw [hsingle]
    exact hc
  · rw [hread, field_slice _ _ _ _ _ (by decide)]

theorem length_zoneRecord (v2 : Bool) (b : Bank) (z : Nat) : (zoneRecord v2 b z).length = 64 := by
  unfold zoneRecord
  simp [List.length_flatMap]

theorem length_zoneTail (s : State) (z : Nat) : (zoneTail s z).length = 16 := by
  unfold zoneTail
  simp

theorem zoneQuery_answers (s : State) (r : Request) (b : Bank) (hr : mayExecute s 0x0402 r) (hone : 1 ≤ field r.payload 2 2)
    (hmax : field r.payload 2 2 ≤ 50) (hin : field r.payload 0 2 + field r.payload 2 2 ≤ 1024) (hcode : field r.payload 4 1 ≤ 2)
    (hbank : bankOfCode s (field r.payload 4 1) = some b) : ∃ (t : State) (es : List (List Byte)), exec .zoneQuery s = .next t ∧
      es.length = field r.payload 2 2 ∧ (∀ e ∈ es, e.length = 80) ∧
      t = answer r 0 0 (leBytes 2 es.length ++ leBytes 2 0 ++ es.flatten) (dequeue r s) ∧ plantUntouched s t := by
  obtain ⟨es, hes⟩ : ∃ es, ((List.range (field r.payload 2 2)).map fun i =>
      zoneRecord (session2 (dequeue r s) r) b (field r.payload 0 2 + i) ++
        (if field r.payload 4 1 = 0 then zoneTail (dequeue r s) (field r.payload 0 2 + i) else leBytes 16 0)) = es := ⟨_, rfl⟩
  have hlen : es.length = field r.payload 2 2 := by simp [← hes]
  have hguard : ¬(field r.payload 2 2 = 0 || 50 < field r.payload 2 2 || 1024 < field r.payload 0 2 + field r.payload 2 2 || 2 < field r.payload 4 1) = true := by
    simp
    omega
  have hbank' : bankOfCode (dequeue r s) (field r.payload 4 1) = some b := hbank
  have hexec : zoneQuery r (dequeue r s) = answer r 0 0 (leBytes 2 es.length ++ leBytes 2 0 ++ es.flatten) (dequeue r s) := by
    unfold zoneQuery
    dsimp only
    rw [if_neg hguard, hbank']
    dsimp only
    rw [hlen, ← hes, List.flatMap_def]
  refine ⟨_, es, congrArg Host.Outcome.next ((runCommand_of_mayExecute hr _).trans hexec), hlen, fun e he => ?_, rfl,
    plantUntouched_trans (dequeue_untouched r s) (answer_untouched _ _ _ _ _)⟩
  rw [← hes] at he
  obtain ⟨i, -, rfl⟩ := List.mem_map.1 he
  rw [List.length_append, length_zoneRecord]
  split
  · rw [length_zoneTail]
  · simp

/-! ## Program commands -/

theorem progLoad_begins (s : State) (r : Request) (hr : mayExecute s 0x0C00 r) (hi : field r.payload 0 1 ≤ 63) (hn : 2 ≤ field r.payload 2 1)
    (hseg : field r.payload 1 1 = 0) (hused : programUsed (dequeue r s) (field r.payload 0 1) = false) (hupload : s.serif.upload = none) :
    ∃ t, exec .progLoad s = .next t ∧ t.serif = { s.serif with upload := some ⟨field r.payload 0 1, field r.payload 2 1, field r.payload 4 4, 1,
      r.payload.drop 8, nextJournal s⟩ } ∧ t.journal.newest = nextJournal s ∧ plantUntouched { s with serif := t.serif } t := by
  have hguard : ¬(63 < field r.payload 0 1 || field r.payload 2 1 = 0 || field r.payload 2 1 ≤ field r.payload 1 1) = true := by
    simp
    omega
  have hmore : ¬0 + 1 = field r.payload 2 1 := by omega
  have hdrop : dropUpload .part 0x31 0 (dequeue r s) = dequeue r s := by
    have h : (dequeue r s).serif.upload = none := hupload
    simp only [dropUpload, h]
  rw [hseg] at hguard
  refine ⟨_, congrArg Host.Outcome.next (runCommand_of_mayExecute hr _), ?_⟩
  unfold progLoad
  simp only [hseg, if_neg hguard, hused, hdrop, Bool.false_eq_true, if_false, if_true, withJournal, progSegment, hmore, List.nil_append]
  refine ⟨?_, ?_, ?_⟩
  · rw [answerWork_serif, journalStep_serif]
    rfl
  · rw [answerWork_journal, journalStep_newest]
    rfl
  · simp [plantUntouched, onSerif, journalOpen, dequeue]

theorem programOf_put (lib : Store Program) (i : Nat) (g : Program) : programOf (Store.put lib i g) i = some g := by
  unfold programOf
  induction lib with
  | nil => simp [Store.put]
  | cons e lib ih =>
    obtain ⟨j, w⟩ := e
    unfold Store.put
    split
    · simp
    · split
      · simp
      next hne =>
        rw [List.find?_cons_of_neg (by simpa using hne)]
        exact ih

theorem progInstall_installs {r : Request} {u : ProgUpload} {g : Program} {s : State} (hupload : s.serif.upload.isSome = true)
    (hcheck : checkImage (8192 - ((s.serif.library.filter fun e => e.1 != u.index).map fun e => e.2.code.length).sum) u.length u.bytes = .ok g) :
    (progInstall r u s).serif.upload = none ∧ programOf (progInstall r u s).serif.library u.index = some g ∧
      plantUntouched { s with serif := (progInstall r u s).serif } (progInstall r u s) := by
  obtain ⟨v, hv⟩ := Option.isSome_iff_exists.1 hupload
  unfold progInstall
  simp only [hcheck]
  generalize hw : onJournal u.journal _ _ = w
  have hwserif : w.serif = { s.serif with library := Store.put s.serif.library u.index g } := by rw [← hw]; rfl
  have hwplant : plantUntouched { s with serif := w.serif } w := by rw [← hw]; simp [plantUntouched, onSerif]
  have hdrop : dropUpload .done 0 0 w = journalEnd v.journal .done 0 0 (onSerif (fun x => { x with upload := none }) w) := by
    have h : w.serif.upload = some v := by rw [hwserif]; exact hv
    simp [dropUpload, h]
  have hserif : (dropUpload .done 0 0 w).serif = { s.serif with library := Store.put s.serif.library u.index g, upload := none } := by
    rw [hdrop, journalEnd_serif, onSerif, hwserif]
  have hplant : plantUntouched { w with serif := (dropUpload .done 0 0 w).serif } (dropUpload .done 0 0 w) := by
    rw [hdrop]
    simp [plantUntouched, onSerif]
  generalize dropUpload .done 0 0 w = x at hserif hplant ⊢
  rw [answerWork_serif, replicateProgram_serif, post_serif, hserif]
  refine ⟨rfl, programOf_put _ _ _, ?_⟩
  simp only [plantUntouched] at hwplant hplant ⊢
  simp_all

theorem progLoad_installs (s : State) (r : Request) (u : ProgUpload) (g : Program) (hr : mayExecute s 0x0C00 r) (hi : field r.payload 0 1 ≤ 63)
    (hused : programUsed (dequeue r s) (field r.payload 0 1) = false) (hupload : s.serif.upload = some u) (hindex : u.index = field r.payload 0 1)
    (hsegs : u.segments = field r.payload 2 1) (hlen : u.length = field r.payload 4 4) (hnext : u.next = field r.payload 1 1) (hne : u.next ≠ 0)
    (hlast : u.next + 1 = u.segments)
    (hcheck : checkImage (8192 - ((s.serif.library.filter fun e => e.1 != u.index).map fun e => e.2.code.length).sum) u.length
      (u.bytes ++ r.payload.drop 8) = .ok g) : ∃ t, exec .progLoad s = .next t ∧ t.serif.upload = none ∧
      programOf t.serif.library u.index = some g ∧ plantUntouched { s with serif := t.serif } t := by
  have hguard : ¬(63 < field r.payload 0 1 || field r.payload 2 1 = 0 || field r.payload 2 1 ≤ field r.payload 1 1) = true := by
    simp
    omega
  have hseg : ¬field r.payload 1 1 = 0 := by omega
  have hup : (dequeue r s).serif.upload = some u := hupload
  obtain ⟨v, hv⟩ : ∃ v, ({ u with next := u.next + 1, bytes := u.bytes ++ r.payload.drop 8 } : ProgUpload) = v := ⟨_, rfl⟩
  obtain ⟨w, hw⟩ : ∃ w, journalStep v.journal (onSerif (fun x => { x with upload := some v }) (dequeue r s)) = w := ⟨_, rfl⟩
  have hexec : progLoad r (dequeue r s) = progInstall r { u with next := u.next + 1, bytes := u.bytes ++ r.payload.drop 8 }
      (journalStep u.journal (onSerif (fun x => { x with upload := some { u with next := u.next + 1, bytes := u.bytes ++ r.payload.drop 8 } }) (dequeue r s))) := by
    unfold progLoad
    simp only [if_neg hguard, hused, hseg, hup, Bool.false_eq_true, if_false]
    rw [if_pos ⟨hindex, hsegs, hlen, hnext⟩]
    exact if_pos hlast
  have hjournal : u.journal = v.journal := by rw [← hv]
  rw [hv, hjournal, hw] at hexec
  have hwserif : w.serif = { s.serif with upload := some v } := by rw [← hw]; rfl
  have hwplant : plantUntouched { s with serif := w.serif } w := by rw [← hw]; simp [plantUntouched, onSerif, dequeue]
  have hvindex : v.index = u.index := by rw [← hv]
  have hchecked : checkImage (8192 - ((w.serif.library.filter fun e => e.1 != v.index).map fun e => e.2.code.length).sum) v.length v.bytes = .ok g := by
    rw [hwserif, ← hv]
    exact hcheck
  obtain ⟨hnone, hprog, hplant⟩ := progInstall_installs (r := r) (by rw [hwserif]; rfl) hchecked
  refine ⟨_, congrArg Host.Outcome.next ((runCommand_of_mayExecute hr _).trans hexec), hnone, hvindex ▸ hprog, ?_⟩
  generalize progInstall r v w = t at hplant ⊢
  simp only [plantUntouched] at hwplant hplant ⊢
  simp_all

theorem progDelete_erases (s : State) (r : Request) (hr : mayExecute s 0x0C01 r) (hi : field r.payload 0 1 ≤ 63)
    (hused : programUsed (dequeue r s) (field r.payload 0 1) = false) : ∃ t, exec .progDelete s = .next t ∧
      t.serif = { s.serif with library := Store.erase s.serif.library (field r.payload 0 1) } ∧ t.journal.newest = nextJournal s ∧
      plantUntouched { s with serif := t.serif } t := by
  refine ⟨_, congrArg Host.Outcome.next (runCommand_of_mayExecute hr _), ?_⟩
  unfold progDelete
  simp only [if_neg (Nat.not_lt.2 hi), hused, Bool.false_eq_true, if_false, withJournal]
  refine ⟨?_, ?_, ?_⟩
  · rw [answerWork_serif, replicateProgram_serif, journalSteps_serif]
    rfl
  · rw [answerWork_journal, replicateProgram_journal, journalSteps_newest]
    rfl
  · simp [plantUntouched, onSerif, journalOpen, dequeue]

theorem progList_answers (s : State) (r : Request) (hr : mayExecute s 0x0C02 r) (hi : field r.payload 0 1 ≤ 63) (hone : 1 ≤ field r.payload 1 1)
    (hmax : field r.payload 1 1 ≤ 64) : ∃ (t : State) (es : List (Nat × Program)), exec .progList s = .next t ∧
      es = ((s.serif.library.filter fun e => decide (field r.payload 0 1 ≤ e.1) && decide (e.1 < field r.payload 0 1 + field r.payload 1 1)).take
        es.length) ∧
      t = answer r 0 0 (leBytes 2 es.length ++ leBytes 2 0 ++ es.flatMap fun e => programEntry e.1 e.2) (dequeue r s) ∧ plantUntouched s t := by
  have hguard : ¬(63 < field r.payload 0 1 || field r.payload 1 1 = 0 || 64 < field r.payload 1 1) = true := by
    simp
    omega
  refine ⟨_, _, congrArg Host.Outcome.next ((runCommand_of_mayExecute hr _).trans (if_neg hguard)), ?_, rfl,
    plantUntouched_trans (dequeue_untouched r s) (answer_untouched _ _ _ _ _)⟩
  rw [List.length_take]
  exact List.take_eq_take_min

/-- Settles O43: a zone command stages values into PENDING between its journal entry and its answer, a program command changes the library or
the upload alone, and the reads are one answer. -/
theorem zonesAndPrograms : Obligations.ZonesAndPrograms := by
  unfold Obligations.ZonesAndPrograms
  refine ⟨zoneDefine_stages, zoneDefine_reads, fun s r hr hok => ?_, zoneQuery_answers, progLoad_begins, progLoad_installs, progDelete_erases,
    progList_answers⟩
  obtain ⟨zs, k, hwork⟩ := zoneDelete_passes (s := dequeue r s) hok
  obtain ⟨hbanks, -, hnew, hplant⟩ := zoneWork_stages (r := r) (k := k) (s := s) (pendingOnly_forEach stageDefaults_pendingOnly zs)
  exact ⟨_, congrArg Host.Outcome.next ((runCommand_of_mayExecute hr zoneDelete).trans hwork), hbanks, hnew, hplant⟩

end Sys2Proof.Machine

namespace Sys2Proof.Machine

/-! ## Crossings and the self-test -/

theorem tell_paramAt {k : Nat} (hq : k ≠ paramKey Pid.hostEvqLost 0) (hl : k ≠ paramKey Pid.logSuppressed 0) (code : Nat) (a b c : Int) (s : State) :
    Store.read paramDefault (tell code a b c s).params k = Store.read paramDefault s.params k := by
  unfold tell
  split
  · exact post_paramAt hq hl _ _ _ _ _
  · rfl

theorem paramNat_xovfCount (s : State) :
    paramNat s Pid.integXovfCount 0 = (Store.read paramDefault s.params (paramKey Pid.integXovfCount 0)).toNat := rfl

theorem xovf_counts (s : State) (x : Fin 10) (hx : x ≠ 0) : ∃ t, exec (.xovf x) s = .next t ∧
    t.calib = { s.calib with xovf := true, lastXidHi := BitVec.ofNat 4 x } ∧
    paramNat t Pid.integXovfCount 0 = paramNat (bump Pid.integXovfCount 0 s) Pid.integXovfCount 0 ∧
    plantUntouched { s with calib := t.calib } t := by
  have hne : ¬x.val = 0 := fun h => hx (Fin.ext h)
  refine ⟨_, congrArg Host.Outcome.next (if_neg hne), ?_, ?_, ?_⟩
  · rw [tell_calib, bump_calib]
    rfl
  · rw [paramNat_xovfCount, tell_paramAt (by decide) (by decide)]
    rfl
  · simp [plantUntouched, onCal]

theorem selftestBit (status : BitVec 6) (failed : BitVec 128) :
    (if failed = 0 then status &&& ~~~0x20 else status ||| 0x20).getLsbD 5 = decide (failed ≠ 0) := by
  split
  next h => simp [h]
  next h =>
    have hne : decide (failed ≠ 0) = true := decide_eq_true h
    rw [hne]
    simp

theorem failedLanes_cons {failed : BitVec 128} (h : failed ≠ 0) : ∃ l ls, (List.range 128).filter failed.getLsbD = l :: ls := by
  rcases hlanes : (List.range 128).filter failed.getLsbD with _ | ⟨l, ls⟩
  · refine absurd (BitVec.eq_of_getLsbD_eq fun i hi => ?_) h
    have hnot := List.filter_eq_nil_iff.1 hlanes i (List.mem_range.2 hi)
    simpa using hnot
  · exact ⟨l, ls, rfl⟩

theorem serifSelftest_marks (s : State) (failed : BitVec 128) (hmode : s.mode.current = .mirror ∨ s.mode.current = .test) :
    ∃ t, exec (.serifSelftest failed) s = .next t ∧ t.serif = { s.serif with failed := failed, status := t.serif.status } ∧
      t.serif.status.getLsbD 5 = decide (failed ≠ 0) ∧ (failed = 0 → t = { s with serif := t.serif }) ∧
      (failed ≠ 0 → t.evq.seq = s.evq.seq + 1) ∧ plantUntouched { s with serif := t.serif } t := by
  have hguard : (s.mode.current == .mirror || s.mode.current == .test) = true := by
    rcases hmode with h | h <;> simp [h]
  refine ⟨_, congrArg Host.Outcome.next (if_pos hguard), ?_⟩
  dsimp only
  by_cases hzero : failed = 0
  · have hlanes : (List.range 128).filter failed.getLsbD = [] := by
      rw [List.filter_eq_nil_iff]
      intro i _
      simp [hzero]
    simp only [hlanes]
    exact ⟨trivial, selftestBit _ _, fun _ => trivial, fun h => absurd hzero h, by simp [plantUntouched]⟩
  · obtain ⟨l, ls, hlanes⟩ := failedLanes_cons hzero
    simp only [hlanes, post_serif]
    refine ⟨trivial, selftestBit _ _, fun h => absurd h hzero, fun _ => ?_, by simp [plantUntouched]⟩
    rw [post_seq]

/-! ## The flash event log -/

theorem logProgram_writes (s : State) (e : LogEntry) (hscribe : s.scribe.restarting = false) (hwaiting : s.log.waiting = [e])
    (hsevere : e.entry.severity = 3) : ∃ t, exec .logProgram s = .next t ∧ t.log.waiting = [] ∧ t.log.newest = (s.log.newest + 1) % 2 ^ 32 ∧
      t.log.entries = ({ e with number := t.log.newest } :: s.log.entries).take (logHeld t.log.newest) ∧
      t = { s with log := t.log, links := { s.links with console := t.links.console } } := by
  obtain ⟨u, hu, hw, hn, he⟩ : ∃ u : FlashLog, { (logAccrue s) with log := { (logAccrue s).log with waiting := [] } } = { s with log := u } ∧
      u.waiting = [] ∧ u.newest = s.log.newest ∧ u.entries = s.log.entries :=
    ⟨{ (logAccrue s).log with waiting := [] }, rfl, rfl, rfl, rfl⟩
  have hwaits : (logAccrue s).log.waiting = [e] := hwaiting
  have hflush : logFlush s = logWrite e { s with log := u } := by
    unfold logFlush
    dsimp only
    rw [hu, hwaits, forEach_singleton, logBudgeted, if_pos hsevere]
  have hguard : ¬s.scribe.restarting = true := by simp [hscribe]
  refine ⟨_, (congrArg Host.Outcome.next (if_neg hguard)).trans (congrArg Host.Outcome.next hflush), ?_⟩
  unfold logWrite
  dsimp only
  rw [← hn, ← he]
  split
  · exact ⟨hw, rfl, rfl, rfl⟩
  · exact ⟨hw, rfl, rfl, rfl⟩

theorem logFlush_waiting (s : State) : (logFlush s).log.waiting = [] :=
  forEach_keep (·.log.waiting) _ (fun e u => logBudgeted_waiting e u) _ _

/-! ## Counter extensions -/

/-- Only the calibration unit, which holds the extensions, has moved. -/
def calibOnly (s t : State) : Prop := t = { s with calib := t.calib }

theorem calibOnly_trans {s t u : State} (h : calibOnly s t) (h' : calibOnly t u) : calibOnly s u := by
  unfold calibOnly at h h' ⊢
  rw [h', h]

theorem extendOne_calibOnly (key : Nat) (s : State) : calibOnly s (extendOne key s) := rfl

theorem extendAll_calibOnly (keys : List Nat) (s : State) : calibOnly s (forEach keys extendOne s) :=
  forEach_preserves (P := calibOnly s) (fun k _ hu => calibOnly_trans hu (extendOne_calibOnly k _)) keys rfl

/-- The upper word and the last reading of one counter. -/
def extAt (k : Nat) (s : State) : Nat × Nat := (Store.read (fun _ => 0) s.calib.extHi k, Store.read (fun _ => 0) s.calib.extLast k)

/-- The two stores of R539 are canonical. -/
def extWf (s : State) : Prop := Store.wf (fun _ => 0) s.calib.extHi = true ∧ Store.wf (fun _ => 0) s.calib.extLast = true

theorem extWf_extendOne {s : State} (key : Nat) (h : extWf s) : extWf (extendOne key s) := by
  obtain ⟨hhi, hlast⟩ := h
  refine ⟨?_, Store.wf_write _ _ _ _ hlast⟩
  simp only [extendOne, onCal]
  split
  · exact Store.wf_write _ _ _ _ hhi
  · exact hhi

theorem extAt_extendOne_other {k key : Nat} (s : State) (h : k ≠ key) : extAt k (extendOne key s) = extAt k s := by
  unfold extAt
  simp only [extendOne, onCal]
  refine Prod.ext ?_ (Store.read_write_other _ _ _ h)
  dsimp only
  split
  · exact Store.read_write_other _ _ _ h
  · rfl

theorem extAt_extendAll_other {k : Nat} (keys : List Nat) (s : State) (h : k ∉ keys) : extAt k (forEach keys extendOne s) = extAt k s := by
  induction keys generalizing s with
  | nil => rfl
  | cons j js ih =>
    rw [List.mem_cons, not_or] at h
    exact (ih _ h.2).trans (extAt_extendOne_other s h.1)

theorem extAt_extendOne_self {s : State} (key : Nat) (h : extWf s) : extAt key (extendOne key s) =
    ((extAt key s).1 + (if (readParam s (key / 65536) (key % 65536)).toNat < (extAt key s).2 then 1 else 0),
      (readParam s (key / 65536) (key % 65536)).toNat) := by
  obtain ⟨-, hlast⟩ := h
  unfold extAt
  simp only [extendOne, onCal]
  refine Prod.ext ?_ (Store.read_write_self _ _ _ _ hlast)
  dsimp only
  split
  · exact Store.read_write_ne _ _ (Nat.succ_ne_zero _)
  · rfl

/-- Each counter is read once, wherever it stands among the others. -/
theorem extAt_extendAll {k : Nat} {keys : List Nat} {s : State} (hmem : k ∈ keys) (hnodup : keys.Nodup) (hwf : extWf s)
    (hread : ∀ u, calibOnly s u → readParam u (k / 65536) (k % 65536) = readParam s (k / 65536) (k % 65536)) :
    extAt k (forEach keys extendOne s) =
      ((extAt k s).1 + (if (readParam s (k / 65536) (k % 65536)).toNat < (extAt k s).2 then 1 else 0),
        (readParam s (k / 65536) (k % 65536)).toNat) := by
  obtain ⟨pre, post, rfl⟩ := List.append_of_mem hmem
  have hsplit : forEach (pre ++ k :: post) extendOne s = forEach post extendOne (extendOne k (forEach pre extendOne s)) := by
    simp [forEach]
  obtain ⟨-, hpost, hdisjoint⟩ := List.nodup_append.1 hnodup
  have hkpre : k ∉ pre := fun h => hdisjoint k h k (by simp) rfl
  have hkpost : k ∉ post := (List.nodup_cons.1 hpost).1
  have hwf' : extWf (forEach pre extendOne s) := forEach_preserves (P := extWf) (fun j _ h => extWf_extendOne j h) pre hwf
  rw [hsplit, extAt_extendAll_other _ _ hkpost, extAt_extendOne_self _ hwf', extAt_extendAll_other _ _ hkpre, hread _ (extendAll_calibOnly pre s)]

theorem le_of_mem_rising {α : Type} {s : Store α} {lo : Nat} (hr : Store.rising lo s = true) {e : Nat × α} (h : e ∈ s) : lo ≤ e.1 := by
  induction s generalizing lo with
  | nil => cases h
  | cons x t ih =>
    simp only [Store.rising, Bool.and_eq_true, decide_eq_true_eq] at hr
    rcases List.mem_cons.1 h with rfl | hin
    · exact hr.1
    · exact (Nat.le_succ_of_le hr.1).trans (ih hr.2 hin)

theorem read_of_mem_rising {α : Type} (d : Nat → α) {s : Store α} {k lo : Nat} {v : α} (hr : Store.rising lo s = true) (h : (k, v) ∈ s) :
    Store.read d s k = v := by
  induction s generalizing lo with
  | nil => cases h
  | cons e t ih =>
    obtain ⟨j, w⟩ := e
    simp only [Store.rising, Bool.and_eq_true, decide_eq_true_eq] at hr
    rcases List.mem_cons.1 h with heq | hin
    · obtain ⟨rfl, rfl⟩ := Prod.mk.inj heq
      exact if_pos rfl
    · have hlt : j + 1 ≤ k := le_of_mem_rising hr.2 hin
      exact (if_neg (by omega)).trans (ih hr.2 hin)

theorem readParam_blocksCoded (s : State) : readParam s (paramKey Pid.inkBlocksCoded 0 / 65536) (paramKey Pid.inkBlocksCoded 0 % 65536) =
    Store.read paramDefault s.params (paramKey Pid.inkBlocksCoded 0) := rfl

theorem nodup_eraseDups (xs : List Nat) : xs.eraseDups.Nodup := by
  induction hn : xs.length using Nat.strong_induction_on generalizing xs with
  | _ n ih =>
    cases xs with
    | nil => simp
    | cons x xs =>
      rw [List.eraseDups_cons, List.nodup_cons]
      refine ⟨fun hmem => ?_, ih _ ?_ _ rfl⟩
      · rw [List.mem_eraseDups, List.mem_filter] at hmem
        simp at hmem
      · rw [← hn, List.length_cons]
        exact Nat.lt_succ_of_le (List.length_filter_le _ _)

theorem blocksCoded_extended (s : State) (v : Int) (hruns : scribeRuns s = true) (hscribe : s.scribe.restarting = false)
    (hwf : s.paramsWf = true) (hhi : Store.wf (fun _ => 0) s.calib.extHi = true) (hlast : Store.wf (fun _ => 0) s.calib.extLast = true)
    (hmem : (paramKey Pid.inkBlocksCoded 0, v) ∈ s.params) : ∃ t, exec .counterExtend s = .next t ∧ calibOnly s t ∧
      Store.read (fun _ => 0) t.calib.extLast (paramKey Pid.inkBlocksCoded 0) = v.toNat ∧
      Store.read (fun _ => 0) t.calib.extHi (paramKey Pid.inkBlocksCoded 0) =
        Store.read (fun _ => 0) s.calib.extHi (paramKey Pid.inkBlocksCoded 0) +
          (if v.toNat < Store.read (fun _ => 0) s.calib.extLast (paramKey Pid.inkBlocksCoded 0) then 1 else 0) := by
  have hguard : (scribeRuns s && !s.scribe.restarting) = true := by simp [hruns, hscribe]
  have hrising : Store.rising 0 s.params = true := by
    have h := hwf
    simp only [State.paramsWf, Store.wf, Bool.and_eq_true] at h
    exact h.1
  have hvalue : readParam s (paramKey Pid.inkBlocksCoded 0 / 65536) (paramKey Pid.inkBlocksCoded 0 % 65536) = v :=
    (readParam_blocksCoded s).trans (read_of_mem_rising _ hrising hmem)
  have hkey : paramKey Pid.inkBlocksCoded 0 ∈ activityKeys s := by
    have hactivity : isActivity (paramKey Pid.inkBlocksCoded 0) = true := by decide +kernel
    have hlisted : paramKey Pid.inkBlocksCoded 0 ∈ s.params.map (·.1) := List.mem_map_of_mem (f := (·.1)) hmem
    unfold activityKeys
    rw [List.mem_eraseDups]
    exact List.mem_append_left _ (List.mem_filter.2 ⟨List.mem_append_left _ hlisted, hactivity⟩)
  have hext := extAt_extendAll hkey (nodup_eraseDups _) ⟨hhi, hlast⟩ fun u hu => by
    rw [readParam_blocksCoded, readParam_blocksCoded, hu]
  rw [hvalue] at hext
  refine ⟨_, congrArg Host.Outcome.next (if_pos hguard), extendAll_calibOnly _ _, congrArg Prod.snd hext, congrArg Prod.fst hext⟩

theorem counterExtend_teleSeq (s : State) : calibOnly s (counterExtend s) ∧ (counterExtend s).calib.teleSeq = s.calib.teleSeq := by
  unfold counterExtend
  split
  · exact ⟨extendAll_calibOnly _ _, forEach_keep (·.calib.teleSeq) extendOne (fun _ _ => rfl) _ _⟩
  · exact ⟨rfl, rfl⟩

theorem telemetryRecord_numbers (s : State) (hready : s.scribe.ready = true) (hscribe : s.scribe.restarting = false)
    (hqueue : paramNat s Pid.teleQueue 0 < 8) : ∃ t, exec .telemetryRecord s = .next t ∧ t.calib.teleSeq = s.calib.teleSeq + 1 ∧
      t.calib.teleRestarted = false ∧ plantUntouched { s with calib := t.calib } t := by
  have hguard : ¬(!s.scribe.ready || s.scribe.restarting || decide (8 ≤ paramNat s Pid.teleQueue 0)) = true := by simp [hready, hscribe, hqueue]
  refine ⟨_, congrArg Host.Outcome.next (if_neg hguard), ?_⟩
  obtain ⟨honly, hseq⟩ := counterExtend_teleSeq s
  generalize counterExtend s = u at honly hseq ⊢
  obtain ⟨body, hbody⟩ : ∃ body, teleRecord u = body := ⟨_, rfl⟩
  rw [hbody, stageItem_calib]
  refine ⟨congrArg (· + 1) hseq, rfl, ?_⟩
  rw [honly]
  simp [plantUntouched, onCal]

/-- Settles O32: the log's and the counters' work is a walk over a list each of whose steps moves the log, or the calibration unit, alone;
each counter stands once in its list. -/
theorem integrityKept : Obligations.IntegrityKept := by
  unfold Obligations.IntegrityKept
  refine ⟨xovf_counts, serifSelftest_marks, fun s hready hscribe => ?_, logProgram_writes, fun s hscribe => congrArg Host.Outcome.next (if_pos hscribe),
    fun s hscribe => ?_, fun s v hruns hscribe hwf hhi hlast hmem _ => blocksCoded_extended s v hruns hscribe hwf hhi hlast hmem,
    telemetryRecord_numbers⟩
  · have hguard : (s.scribe.ready && !s.scribe.restarting) = true := by simp [hready, hscribe]
    exact congrArg Host.Outcome.next (if_pos hguard)
  · have hguard : ¬s.scribe.restarting = true := by simp [hscribe]
    exact ⟨_, congrArg Host.Outcome.next (if_neg hguard), logFlush_waiting s, by simp [plantUntouched], by simp, by simp, by simp, by simp⟩

end Sys2Proof.Machine

namespace Sys2Proof.Machine

theorem logScan_sound (want : LogEntry → Bool) (n : Nat) (es : List LogEntry) (hgood : ∀ e ∈ es, e.bad = false) :
    (logScan want n es).2 = 0 ∧ (logScan want n es).1.length ≤ n ∧ ∀ e ∈ (logScan want n es).1, e ∈ es := by
  induction es generalizing n with
  | nil => exact ⟨rfl, Nat.zero_le _, fun _ h => h⟩
  | cons e es ih =>
    have hrest : ∀ x ∈ es, x.bad = false := fun x hx => hgood x (List.mem_cons_of_mem _ hx)
    cases n with
    | zero => exact ⟨rfl, Nat.le_refl _, fun _ h => by cases h⟩
    | succ m =>
      have hbad : e.bad = false := hgood e (by simp)
      unfold logScan
      simp only [hbad, Bool.false_eq_true, if_false]
      split
      · obtain ⟨hcount, hlen, hin⟩ := ih m hrest
        refine ⟨hcount, Nat.succ_le_succ hlen, fun x hx => ?_⟩
        rcases List.mem_cons.1 hx with rfl | hx
        · simp
        · exact List.mem_cons_of_mem _ (hin x hx)
      · obtain ⟨hcount, hlen, hin⟩ := ih (m + 1) hrest
        exact ⟨hcount, hlen, fun x hx => List.mem_cons_of_mem _ (hin x hx)⟩

/-- An answered read: the plant stands. -/
theorem read_untouched (r : Request) (body : List Byte) (s : State) : plantUntouched s (answer r 0 0 body (dequeue r s)) :=
  plantUntouched_trans (dequeue_untouched r s) (answer_untouched _ _ _ _ _)

theorem journalRead_answers (s : State) (r : Request) (hr : mayExecute s 0x0A00 r) (hsel : field r.payload 0 1 ≤ 1)
    (hone : 1 ≤ field r.payload 8 1) (hmax : field r.payload 8 1 ≤ 32) : ∃ (t : State) (es : List JournalEntry),
      exec .journalRead s = .next t ∧ plantUntouched s t ∧ t.journal = s.journal ∧ t.log = s.log ∧ es.length ≤ field r.payload 8 1 ∧
      (∀ e ∈ es, e ∈ s.journal.entries) ∧ t = answer r 0 0 (leBytes 2 es.length ++ leBytes 2 0 ++ (es.map journalBytes).flatten) (dequeue r s) := by
  have hguard : ¬(2 < field r.payload 0 1 || (field r.payload 0 1 == 2 && (decide (servedVersion (dequeue r s) r < 0x0302) || decide (4 < field r.payload 1 1))) ||
      field r.payload 8 1 = 0 || 32 < field r.payload 8 1) = true := by
    have hne : (field r.payload 0 1 == 2) = false := beq_eq_false_iff_ne.2 (by omega)
    simp [hne]
    omega
  refine ⟨_, _, congrArg Host.Outcome.next ((runCommand_of_mayExecute hr _).trans (if_neg hguard)), read_untouched _ _ _, ?_, ?_, ?_,
    fun e he => List.mem_of_mem_filter (List.mem_of_mem_take he), rfl⟩
  · exact answer_journal _ _ _ _ _
  · exact answer_log _ _ _ _ _
  · exact List.length_take_le _ _

theorem logRead_answers (s : State) (r : Request) (hr : mayExecute s 0x0A01 r) (hsel : field r.payload 0 1 ≤ 1)
    (hone : 1 ≤ field r.payload 8 1) (hmax : field r.payload 8 1 ≤ 113) (hgood : ∀ e ∈ s.log.entries, e.bad = false) :
    ∃ (t : State) (es : List LogEntry), exec .logRead s = .next t ∧ plantUntouched s t ∧ t.log = s.log ∧ es.length ≤ field r.payload 8 1 ∧
      (∀ e ∈ es, e ∈ s.log.entries) ∧ t = answer r 0 0 (leBytes 2 es.length ++ leBytes 2 0 ++ (es.map logEntryBytes).flatten) (dequeue r s) := by
  have hguard : ¬(1 < field r.payload 0 1 || field r.payload 8 1 = 0 || 113 < field r.payload 8 1) = true := by
    simp
    omega
  obtain ⟨from_, hfrom⟩ : ∃ l, (dequeue r s).log.entries.filter (fun e => field r.payload 4 4 == 0 || decide (e.number ≤ field r.payload 4 4)) = l := ⟨_, rfl⟩
  obtain ⟨n, hn⟩ : ∃ n, min (field r.payload 8 1) ((requestLimit (dequeue r s) r - 8) / 36) = n := ⟨_, rfl⟩
  have hin : ∀ e ∈ from_, e ∈ s.log.entries := fun e he => List.mem_of_mem_filter (hfrom ▸ he)
  obtain ⟨hbad, hlen, hmem⟩ := logScan_sound (fun e => field r.payload 0 1 == 0 || e.entry.code == field r.payload 2 2) n from_
    fun e he => hgood e (hin e he)
  obtain ⟨es, hes⟩ : ∃ es, (logScan (fun e => field r.payload 0 1 == 0 || e.entry.code == field r.payload 2 2) n from_).1 = es := ⟨_, rfl⟩
  have hexec : logRead r (dequeue r s) = answer r 0 0 (leBytes 2 es.length ++ leBytes 2 0 ++ (es.map logEntryBytes).flatten) (dequeue r s) := by
    unfold logRead
    simp only [if_neg hguard, hfrom, hn, hbad, if_true, hes]
  rw [hes] at hlen hmem
  refine ⟨_, es, congrArg Host.Outcome.next ((runCommand_of_mayExecute hr _).trans hexec), read_untouched _ _ _, answer_log _ _ _ _ _, ?_,
    fun e he => hin e (hmem e he), rfl⟩
  exact hlen.trans (hn ▸ Nat.min_le_left _ _)

theorem surveyRead_answers (s : State) (r : Request) (hr : mayExecute s 0x0700 r) (hport : field r.payload 0 1 ≤ 3) :
    ∃ (t : State) (body : List Byte), exec .surveyRead s = .next t ∧ plantUntouched s t ∧ t = answer r 0 0 body (dequeue r s) ∧
      field body 0 4 = (portOf s (field r.payload 0 1)).survey.journal % 2 ^ 32 := by
  refine ⟨_, _, congrArg Host.Outcome.next ((runCommand_of_mayExecute hr _).trans (if_neg (Nat.not_lt.2 hport))), read_untouched _ _ _, rfl, ?_⟩
  simp only [List.append_assoc]
  exact field_append [] _ 4 _

/-- Settles O20: each read is one answer whose entries are taken from its store. -/
theorem recordsAreRead : Obligations.RecordsAreRead := by
  unfold Obligations.RecordsAreRead
  exact ⟨journalRead_answers, logRead_answers, surveyRead_answers⟩

end Sys2Proof.Machine

namespace Sys2Proof.Machine

/-- What a tick's later units leave of the state: its clock and its queue. -/
def clockAndQueue (s : State) : Nat × List Instr := (s.ticks, s.pending)

theorem jobDrain_clock (fuel i : Nat) (s : State) : clockAndQueue (jobDrain fuel i s) = clockAndQueue s := by
  induction fuel generalizing s with
  | zero => rfl
  | succ fuel ih =>
    unfold jobDrain
    split
    · dsimp only
      split
      · split
        · refine (ih _).trans ?_
          simp [clockAndQueue, onInk]
        · rfl
      · split
        · simp [clockAndQueue, onInk]
        · simp [clockAndQueue, onInk]
    · rfl

theorem drainJobs_clock (s : State) : clockAndQueue (drainJobs s) = clockAndQueue s :=
  forEach_keep clockAndQueue _ (fun i u => jobDrain_clock 64 i u) _ _

theorem tdcDelayStart_clock (s : State) : clockAndQueue (tdcDelayStart s) = clockAndQueue s := by
  unfold tdcDelayStart
  split
  · simp [clockAndQueue]
  · rfl

/-- A tick counts one and keeps the queue. -/
theorem tick_clock (s : State) : clockAndQueue (tick s) = (s.ticks + 1, s.pending) := by
  unfold tick
  dsimp only
  split
  · rfl
  · refine (tdcDelayStart_clock _).trans ((drainJobs_clock _).trans ?_)
    simp [clockAndQueue]

theorem tick_ticks (s : State) : (tick s).ticks = s.ticks + 1 := congrArg Prod.fst (tick_clock s)

theorem tick_pending (s : State) : (tick s).pending = s.pending := congrArg Prod.snd (tick_clock s)

theorem tick_held (s : State) (h : s.mode.current = .reset ∨ s.mode.current = .boot) : tick s = { s with ticks := s.ticks + 1 } := by
  have hguard : (s.mode.current == .reset || s.mode.current == .boot) = true := by
    rcases h with h | h <;> simp [h]
  exact if_pos hguard

/-- Settles O2: a step without a command is `tick`, which counts one and then runs units that touch neither clock nor queue. -/
theorem idleTickPasses : Obligations.IdleTickPasses := by
  unfold Obligations.IdleTickPasses
  intro s hidle
  have hstep : step s = .next (tick s) := by
    unfold step
    rw [hidle]
  exact ⟨tick s, hstep, tick_held s, tick_ticks s, (tick_pending s).trans hidle⟩

end Sys2Proof.Machine

namespace Sys2Proof.Machine

/-- A mask of ports holds the bit of each port that it was made of. -/
theorem getLsbD_portBits (f : Nat → Bool) (p : Fin 4) : (BitVec.ofNat 4 (portBits f)).getLsbD p = f p := by
  have hbits : ∀ a b c d : Bool, ∀ p : Fin 4, (BitVec.ofNat 4 (bits [a, b, c, d])).getLsbD p = [a, b, c, d][p.val] := by decide
  simp only [portBits, allPorts, List.map]
  rw [hbits]
  fin_cases p <;> rfl

/-- A port that no longer is surveyed has no FIRE term of the survey. -/
theorem modeFire_survey {s : State} (hm : s.mode.current = .survey) (p : Fin 4) : (modeFire s).getLsbD p = (portOf s p).surveying := by
  simp only [modeFire, hm]
  exact getLsbD_portBits _ p


/-- What a surveyed port's last step leaves before the survey's transition to CONFIG may begin. -/
def surveyRecorded (p : Nat) (trace : SurveyTrace) (s : State) : State :=
  let r := surveyResult s p trace
  let x := onPort p (fun x => { x with surveying := false, survey := r }) s
  let x := paramPut (portId p Pid.portLaunchLatencyPs) 0 r.launchLatencyPs x
  let x := settle s (onSafety (fun y => { y with fire := modeFire x }) x)
  let x := if r.result = 0 then surveyStage p r x else onMode (fun y => { y with surveyFailed := true }) x
  journalStep r.journal (post 0x1005 p r.result r.endCell x)

theorem surveyPortDone_eq {p : Nat} {trace : SurveyTrace} {s : State} (hm : s.mode.current = .survey) (hp : (portOf s p).surveying = true) :
    surveyPortDone p trace s =
      if allPorts.any (fun q => (portOf (surveyRecorded p trace s) q).surveying) || (surveyRecorded p trace s).mode.inProgress.isSome then
        surveyRecorded p trace s
      else beginTransition { number := 7, target := .config, origin := .none } (surveyRecorded p trace s) := by
  simp [surveyPortDone, hm, hp, surveyRecorded]

/-- Outside DORMANT and the firing modes a transition begins with nothing but its record. -/
theorem beginTransition_survey {t : Transition} {s : State} (hm : s.mode.current = .survey) :
    beginTransition t s = onMode (fun x => { x with inProgress := some t }) s := by
  simp [beginTransition, hm, onMode]

theorem surveyRecorded_facts {p : Fin 4} {trace : SurveyTrace} {s : State} (hm : s.mode.current = .survey) :
    let t := surveyRecorded p trace s
    (portOf t p).surveying = false ∧ (portOf t p).survey = surveyResult s p trace ∧ t.mode.current = .survey ∧ t.safety.fire.getLsbD p = false ∧
      t.power = s.power ∧ t.clocks = s.clocks ∧ t.memory = s.memory ∧ t.pending = s.pending := by
  have hcore : ∀ r : SurveyResult, ∀ u : State, u = settle s (onSafety (fun y => { y with fire := modeFire (paramPut (portId p Pid.portLaunchLatencyPs) 0
      r.launchLatencyPs (onPort p (fun x => { x with surveying := false, survey := r }) s)) }) (paramPut (portId p Pid.portLaunchLatencyPs) 0
      r.launchLatencyPs (onPort p (fun x => { x with surveying := false, survey := r }) s))) →
      (portOf u p).surveying = false ∧ (portOf u p).survey = r ∧ u.mode.current = .survey ∧ u.safety.fire.getLsbD p = false ∧
      u.power = s.power ∧ u.clocks = s.clocks ∧ u.memory = s.memory ∧ u.pending = s.pending := by
    intro r u hu
    have hport (v : State) (hv : v.ports = (onPort p (fun x => { x with surveying := false, survey := r }) s).ports) :
        portOf v p = { (portOf s p) with surveying := false, survey := r } :=
      (congrArg (fun w : Vector PortState 4 => vecRead w p {}) hv).trans (portOf_onPort p _ s)
    have hkeep := hport (paramPut (portId p Pid.portLaunchLatencyPs) 0 r.launchLatencyPs (onPort p (fun x => { x with surveying := false, survey := r }) s)) (by simp)
    rw [hu]
    refine ⟨?_, ?_, ?_, ?_, ?_, ?_, ?_, ?_⟩
    · rw [portView_settle (g := (·.surveying)) (by intros; rfl)]
      exact congrArg PortState.surveying hkeep
    · rw [portView_settle (g := (·.survey)) (by intros; rfl)]
      exact congrArg PortState.survey hkeep
    · simpa using hm
    · rw [settle_fire]
      refine (modeFire_survey (by simpa using hm) p).trans ?_
      exact congrArg PortState.surveying hkeep
    · simp
    · simp
    · simp
    · simp
  have hrest : ∀ r : SurveyResult, ∀ u : State, let t := journalStep r.journal (post 0x1005 p r.result r.endCell
      (if r.result = 0 then surveyStage p r u else onMode (fun y => { y with surveyFailed := true }) u))
      t.ports = u.ports ∧ t.mode.current = u.mode.current ∧ t.safety = u.safety ∧ t.power = u.power ∧ t.clocks = u.clocks ∧ t.memory = u.memory ∧
      t.pending = u.pending := by
    intro r u
    dsimp only
    split <;> simp [onMode]
  obtain ⟨h1, h2, h3, h4, h5, h6, h7, h8⟩ := hcore (surveyResult s p trace) _ rfl
  obtain ⟨g1, g2, g3, g4, g5, g6, g7⟩ := hrest (surveyResult s p trace) _
  refine ⟨?_, ?_, g2.trans h3, ?_, g4.trans h5, g5.trans h6, g6.trans h7, g7.trans h8⟩
  · exact (congrArg (fun v : Vector PortState 4 => (vecRead v p {}).surveying) g1).trans h1
  · exact (congrArg (fun v : Vector PortState 4 => (vecRead v p {}).survey) g1).trans h2
  · exact (congrArg (fun y : Safety => y.fire.getLsbD p) g3).trans h4

/-! ## Entering a target mode -/

/-- What the end of a transition says of the state besides emission. -/
def entryView (s : State) : (Mode × Mode × Option Transition) × Vector Bool 2 × Nat × List Instr :=
  ((s.mode.current, s.mode.previous, s.mode.inProgress), s.power.feedGood, s.ticks, s.pending)

/-- The view of a state whose mode changed to `m` from that of `s`. -/
def enteredView (m : Mode) (s : State) : (Mode × Mode × Option Transition) × Vector Bool 2 × Nat × List Instr :=
  ((m, s.mode.current, s.mode.inProgress), s.power.feedGood, s.ticks, s.pending)

theorem entryView_setMode (m : Mode) (n : Nat) (s : State) : entryView (setMode m n s) = enteredView m s := by
  simp [entryView, enteredView]

theorem entryView_of_parts {s t : State} (hm : t.mode = s.mode) (hp : t.power = s.power) (ht : t.ticks = s.ticks) (hq : t.pending = s.pending) :
    entryView t = entryView s := by
  unfold entryView
  rw [hm, hp, ht, hq]

theorem enteredView_of_parts {m : Mode} {s t : State} (hm : t.mode = s.mode) (hp : t.power = s.power) (ht : t.ticks = s.ticks)
    (hq : t.pending = s.pending) : enteredView m t = enteredView m s := by
  unfold enteredView
  rw [hm, hp, ht, hq]

/-- What follows a change of mode and keeps the view, keeps what was entered. -/
theorem entryView_after {m : Mode} {n : Nat} {s u t : State} (h : entryView t = entryView (setMode m n u)) (hu : enteredView m u = enteredView m s) :
    entryView t = enteredView m s := h.trans ((entryView_setMode m n u).trans hu)

theorem entryView_forEach {α : Type} {f : α → State → State} (h : ∀ x s, entryView (f x s) = entryView s) (xs : List α) (s : State) :
    entryView (forEach xs f s) = entryView s := forEach_keep entryView f h xs s

theorem endSurvey_mode_fields (status : Nat) (s : State) :
    entryView (endSurvey status s) = entryView s ∧ (endSurvey status s).safety = s.safety := by
  simp [entryView]

theorem sentinelRebase_entry (s : State) : entryView (sentinelRebase s) = entryView s := by
  unfold sentinelRebase
  refine entryView_forEach (fun p u => ?_) _ _
  dsimp only
  split
  · simp [entryView]
  · simp [entryView]

theorem enterRun_entry (n : Nat) (s : State) : entryView (enterRun n s) = enteredView .run s := by
  unfold enterRun
  refine entryView_after (n := n) (u := wakePorts s) ?_ (enteredView_of_parts (by simp) (by simp) (by simp) (by simp))
  dsimp only
  rw [entryView_of_parts (wakeZones_mode _) (wakeZones_power _) (wakeZones_ticks _) (wakeZones_pending _),
    entryView_of_parts (planFollows_mode _) (planFollows_power _) (planFollows_ticks _) (planFollows_pending _), sentinelRebase_entry]

theorem enterSentinel_entry (n : Nat) (s : State) : entryView (enterSentinel n s) = enteredView .sentinel s := by
  unfold enterSentinel
  refine entryView_after (n := n) (u := wakePorts s) ?_ (enteredView_of_parts (by simp) (by simp) (by simp) (by simp))
  dsimp only
  rw [entryView_of_parts (ethDown_mode _ _) (ethDown_power _ _) (ethDown_ticks _ _) (ethDown_pending _ _),
    entryView_of_parts (planFollows_mode _) (planFollows_power _) (planFollows_ticks _) (planFollows_pending _), sentinelRebase_entry]
  generalize setMode .sentinel n (wakePorts s) = v
  refine (entryView_forEach (fun z u => ?_) _ _).trans rfl
  simp [entryView]

theorem enterSurvey_entry (mask : BitVec 4) (journal : Nat) (s : State) : entryView (enterSurvey mask journal s) = enteredView .survey s := by
  unfold enterSurvey
  dsimp only
  rw [entryView_setMode]
  have hparams (es : List (Nat × Int)) (u : State) :
      enteredView .survey (es.foldl (fun s e => { s with params := Store.write paramDefault s.params e.1 e.2 }) u) = enteredView .survey u := by
    induction es generalizing u with
    | nil => rfl
    | cons e es ih => exact ih _
  exact hparams s.modeEntry { s with modeEntry := [] }

theorem enterMirror_entry (n : Nat) (s : State) : entryView (enterMirror n s) = enteredView .mirror s ∧ (enterMirror n s).safety.fire = 0 := by
  unfold enterMirror
  dsimp only
  refine ⟨entryView_after (n := n) (entryView_of_parts (wakePorts_mode _) (wakePorts_power _) (wakePorts_ticks _) (wakePorts_pending _)) rfl, ?_⟩
  rw [wakePorts_safety]
  exact setMode_dark _ _ _ (by decide)

theorem enterConfig_entry (n : Nat) (s : State) : entryView (enterConfig n s) = enteredView .config s ∧ (enterConfig n s).safety.fire = 0 := by
  unfold enterConfig
  refine ⟨?_, setMode_dark _ _ _ (by decide)⟩
  rw [entryView_setMode]
  exact enteredView_of_parts (by simp) (by simp) (by simp) (by simp)

theorem enterDormant_entry (n : Nat) (s : State) : entryView (enterDormant n s) = enteredView .dormant s ∧ (enterDormant n s).safety.fire = 0 := by
  unfold enterDormant
  dsimp only
  generalize hu : forEach allPorts (fun p s => ramanDiscard p 1 s) (closeAllRecords (forEach (List.range 8) (disarm 3) s)) = u
  have hbefore : enteredView .dormant u = enteredView .dormant s :=
    enteredView_of_parts (by simp [← hu]) (by simp [← hu]) (by simp [← hu]) (by simp [← hu])
  have hdark : (setMode .dormant n u).safety.fire = 0 := setMode_dark _ _ _ (by decide)
  have hafter (v : State) : entryView (ethForceLow true (ethDown 1 (ringDrop v))) = entryView v ∧
      (ethForceLow true (ethDown 1 (ringDrop v))).safety = v.safety := by simp [entryView]
  have hdram (as : List Nat) (v : State) :
      entryView (forEach as (fun a s => onDram a (fun d => { d with pasr := true, pasrMask := pasrMaskOf s a }) s) v) = entryView v ∧
      (forEach as (fun a s => onDram a (fun d => { d with pasr := true, pasrMask := pasrMaskOf s a }) s) v).safety = v.safety :=
    ⟨entryView_forEach (f := fun a s => onDram a (fun d => { d with pasr := true, pasrMask := pasrMaskOf s a }) s) (fun _ _ => rfl) _ _, forEach_keep (·.safety) (fun a s => onDram a (fun d => { d with pasr := true, pasrMask := pasrMaskOf s a }) s)
      (fun _ _ => rfl) _ _⟩
  refine ⟨entryView_after (n := n) (u := u) ?_ hbefore, ?_⟩
  · rw [(hafter _).1, (hdram _ _).1]
    generalize setMode .dormant n u = v
    rfl
  · rw [(hafter _).2, (hdram _ _).2]
    generalize setMode .dormant n u = v at hdark ⊢
    exact hdark

theorem enterTarget_entry (t : Transition) (s : State) (ht : t.target ∈ [Mode.config, .survey, .run, .sentinel, .dormant, .mirror, .test]) :
    entryView (enterTarget t s) = enteredView t.target s ∧
      (t.target ∈ [Mode.config, .dormant, .mirror, .test] → (enterTarget t s).safety.fire = 0) := by
  unfold enterTarget
  simp only [List.mem_cons, List.not_mem_nil, or_false] at ht
  rcases ht with h | h | h | h | h | h | h <;> simp only [h]
  case inl =>
    generalize hu : ite (t.number = 11) _ _ = u
    have hbefore : enteredView .config u = enteredView .config s := by
      rw [← hu]
      split
      · exact enteredView_of_parts (by simp) (by simp) (by simp) (by simp)
      · rfl
    obtain ⟨hview, hdark⟩ := enterConfig_entry t.number u
    generalize enterConfig t.number u = v at hview hdark ⊢
    have hview' := hview.trans hbefore
    generalize hw : ite (t.number = 21) _ _ = w
    have hwv : entryView w = entryView v ∧ w.safety = v.safety := by
      rw [← hw]
      split <;> exact ⟨rfl, rfl⟩
    generalize hx : ite (t.number = 7) _ _ = x
    have hxw : entryView x = entryView w ∧ x.safety = w.safety := by
      rw [← hx]
      split
      · exact endSurvey_mode_fields _ _
      · exact ⟨rfl, rfl⟩
    have hlast : entryView (if t.number = 16 then onPair (fun x => { x with stopped := true }) x else x) = entryView x ∧
        (if t.number = 16 then onPair (fun x => { x with stopped := true }) x else x).safety = x.safety := by
      split <;> exact ⟨rfl, rfl⟩
    refine ⟨hlast.1.trans (hxw.1.trans (hwv.1.trans hview')), fun _ => ?_⟩
    rw [hlast.2, hxw.2, hwv.2, hdark]
  case inr.inl =>
    exact ⟨enterSurvey_entry _ _ _, fun hm => by simp at hm⟩
  case inr.inr.inl =>
    refine ⟨(enterRun_entry _ _).trans ?_, fun hm => by simp at hm⟩
    split
    · exact enteredView_of_parts (by simp) (by simp) (by simp) (by simp)
    · rfl
  case inr.inr.inr.inl => exact ⟨enterSentinel_entry _ _, fun hm => by simp at hm⟩
  case inr.inr.inr.inr.inl => exact ⟨(enterDormant_entry _ _).1, fun _ => (enterDormant_entry _ _).2⟩
  case inr.inr.inr.inr.inr.inl => exact ⟨(enterMirror_entry _ _).1, fun _ => (enterMirror_entry _ _).2⟩
  case inr.inr.inr.inr.inr.inr => exact ⟨entryView_setMode _ _ _, fun _ => setMode_dark _ _ _ (by decide)⟩

theorem modeTransitionDone_enters (s : State) (w : Transition) (hw : s.mode.inProgress = some w) (hrun : w.thenRun = false)
    (ht : w.target ∈ [Mode.config, .survey, .run, .sentinel, .dormant, .mirror, .test]) : ∃ t, exec .modeTransitionDone s = .next t ∧
      t.mode.current = w.target ∧ t.mode.previous = s.mode.current ∧ t.mode.inProgress = none ∧
      (w.target ∈ [Mode.config, .dormant, .mirror, .test] → ∀ p, emitEn t p = false) ∧ t.power.feedGood = s.power.feedGood ∧
      t.ticks = s.ticks ∧ t.pending = s.pending := by
  refine ⟨_, rfl, ?_⟩
  obtain ⟨hview, hdark⟩ := enterTarget_entry w (onMode (fun x => { x with inProgress := none }) s) ht
  have hend (u : State) : entryView (if w.number = 6 then u else endOrigin w .done 0 0 u) = entryView u ∧
      (if w.number = 6 then u else endOrigin w .done 0 0 u).safety = u.safety := by
    split
    · exact ⟨rfl, rfl⟩
    · simp [entryView]
  have hdone : modeTransitionDone s = if w.number = 6 then enterTarget w (onMode (fun x => { x with inProgress := none }) s)
      else endOrigin w .done 0 0 (enterTarget w (onMode (fun x => { x with inProgress := none }) s)) := by
    simp [modeTransitionDone, hw, hrun]
  rw [hdone]
  generalize enterTarget w _ = u at hview hdark ⊢
  obtain ⟨hsame, hsafety⟩ := hend u
  generalize ite (w.number = 6) _ _ = t at hsame hsafety ⊢
  have hall := hsame.trans hview
  simp only [entryView, enteredView, Prod.mk.injEq] at hall
  obtain ⟨⟨hcurrent, hprevious, hprogress⟩, hfeed, hticks, hpending⟩ := hall
  refine ⟨hcurrent, hprevious, hprogress, fun hm p => ?_, hfeed, hticks, hpending⟩
  have hfire : t.safety.fire = 0 := (congrArg Safety.fire hsafety).trans (hdark hm)
  simp [emitEn, hfire]

/-- Settles O12: entering a target is one change of mode, which sets the modes and clears FIRE outside the firing ones, followed by work
that keeps both; a surveyed port's last step is `surveyRecorded`. -/
theorem transitionsComplete : Obligations.TransitionsComplete := by
  unfold Obligations.TransitionsComplete
  refine ⟨modeTransitionDone_enters, ?_⟩
  intro s p trace hm hp
  obtain ⟨h1, h2, h3, h4, h5, h6, h7, h8⟩ := surveyRecorded_facts (p := p) (trace := trace) hm
  refine ⟨_, rfl, ?_⟩
  rw [surveyPortDone_eq hm hp]
  have hend : (surveyResult s p trace).endCell = trace.endCell := rfl
  have hjournal : (surveyResult s p trace).journal = s.mode.surveyJournal := rfl
  generalize surveyResult s p trace = r at *
  generalize surveyRecorded p trace s = t at *
  split
  · exact ⟨h1, h2, hend, hjournal, h3, h4, h5, h6, h7, h8⟩
  · rw [beginTransition_survey h3]
    exact ⟨h1, h2, hend, hjournal, h3, h4, h5, h6, h7, h8⟩

end Sys2Proof.Machine

namespace Sys2Proof.Machine

/-! The work of a round start (R165, R220, R228, R236, R306, R320, R353) moves zones, lanes, records and the ring: it leaves the grid,
the shots and the plant alone. -/

/-- What a slot fire time says of a port: its grid and its shots. -/
structure GridPort where
  shotSeq : BitVec 48
  shots : List Shot
  leadCut : Bool
  awaitSlot0 : Bool
  riseTick : Option Nat
  gridRunning : Bool
  nextSlot : Nat
  dark : Bool
  lastFired : Option Nat

def gridPort (x : PortState) : GridPort :=
  ⟨x.shotSeq, x.shots, x.leadCut, x.awaitSlot0, x.riseTick, x.gridRunning, x.nextSlot, x.dark, x.lastFired⟩

/-- The grid and shots of one port with the parts of the device that a round start leaves alone. -/
structure GridView where
  port : GridPort
  mode : ModeState
  banks : Banks
  safety : Safety
  power : Power
  clocks : Clocks
  rtd : Vector Rtd 8
  hk : Hk
  firmware : Firmware
  ticks : Nat

def gridView (p : Nat) (s : State) : GridView :=
  ⟨gridPort (portOf s p), s.mode, s.banks, s.safety, s.power, s.clocks, s.rtd, s.hk, s.firmware, s.ticks⟩

theorem gridView_onPort {f : PortState → PortState} (hf : ∀ x, gridPort (f x) = gridPort x) (p q : Nat) (s : State) :
    gridView p (onPort q f s) = gridView p s := by
  have h := portView_onPort hf q p s
  unfold gridView
  rw [h]
  rfl

section RoundWork
variable (p : Nat)

@[simp] theorem post_gridView (code : Nat) (a b c : Int) (s : State) : gridView p (post code a b c s) = gridView p s :=
  post_keep (gridView p) (by intros; rfl) code a b c s

@[simp] theorem bumpBy_gridView (n id i : Nat) (s : State) : gridView p (bumpBy n id i s) = gridView p s :=
  bumpBy_keep (gridView p) (by intros; rfl) n id i s

@[simp] theorem bump_gridView (id i : Nat) (s : State) : gridView p (bump id i s) = gridView p s := bumpBy_gridView p 1 id i s

@[simp] theorem paramPut_gridView (id i : Nat) (v : Int) (s : State) : gridView p (paramPut id i v s) = gridView p s := rfl
@[simp] theorem onZone_gridView (z : Nat) (f : ZoneState → ZoneState) (s : State) : gridView p (onZone z f s) = gridView p s := rfl
@[simp] theorem onInk_gridView (f) (s : State) : gridView p (onInk f s) = gridView p s := rfl
@[simp] theorem onPtr_gridView (f) (s : State) : gridView p (onPtr f s) = gridView p s := rfl
@[simp] theorem onSeq_gridView (q : Nat) (f) (s : State) : gridView p (onSeq q f s) = gridView p s := rfl
@[simp] theorem onLane_gridView (l : Nat) (f) (s : State) : gridView p (onLane l f s) = gridView p s := rfl
@[simp] theorem noteGap_gridView (z n c : Nat) (s : State) : gridView p (noteGap z n c s) = gridView p s := rfl
@[simp] theorem setRecord_gridView (r : EventRecord) (s : State) : gridView p (setRecord r s) = gridView p s := rfl

theorem forEach_gridView {α : Type} {f : α → State → State} (h : ∀ x s, gridView p (f x s) = gridView p s) (xs : List α) (s : State) :
    gridView p (forEach xs f s) = gridView p s := forEach_keep (gridView p) f h xs s

/-! Re-admission and the ring. -/

@[simp] theorem readmitAtRound_gridView (q : Nat) (s : State) : gridView p (readmitAtRound q s) = gridView p s := by
  unfold readmitAtRound
  split
  · dsimp only
    refine (applyGrants_keep (gridView p) (by intros; rfl) _ _ _).trans ((forEach_gridView p (fun x s => ?_) _ _).trans ?_)
    · exact loseHistory_keep (gridView p) (by intros; rfl) x.1 x.2 0 s
    · exact gridView_onPort (f := fun x => { x with readmit := none, lostHist := [] }) (fun _ => rfl) p q s
  · rfl

@[simp] theorem checkpointAtRound_gridView (q : Nat) (gap : Bool) (s : State) : gridView p (checkpointAtRound q gap s) = gridView p s := by
  unfold checkpointAtRound
  split
  · exact checkpoint_keep (gridView p) (by intros; rfl) q s
  · rfl

@[simp] theorem openPage_gridView (q : Nat) (t : Shot) (s : State) : gridView p (openPage q t s) = gridView p s := by
  unfold openPage
  dsimp only
  split
  · simp [sealPages]
  · simp [sealPages]

@[simp] theorem placeBlock_gridView (q z : Nat) (t : Shot) (bytes : List Byte) (s : State) : gridView p (placeBlock q z t bytes s) = gridView p s := by
  unfold placeBlock
  dsimp only
  split
  · simp
  · simp

@[simp] theorem noteCoded_gridView (n bits : Nat) (s : State) : gridView p (noteCoded n bits s) = gridView p s := rfl

@[simp] theorem countBlock_gridView (stream seq : Nat) (e : Encoded) (c : Bool) (s : State) :
    gridView p (countBlock stream seq e c s) = gridView p s := countBlock_keep (gridView p) (by intros; rfl) stream seq e c s

@[simp] theorem ringBlock_gridView (q comp z nth first : Nat) (t : Shot) (es : List Elem) (c : Bool) (s : State) :
    gridView p (ringBlock q comp z nth first t es c s) = gridView p s := by
  simp [ringBlock]

@[simp] theorem ringFeed_gridView (fuel q z nth first : Nat) (t : Shot) (words : List (BitVec 48)) (c : Bool) (s : State) :
    gridView p (ringFeed fuel q z nth first t words c s) = gridView p s := by
  induction fuel generalizing nth first words s with
  | zero => rfl
  | succ fuel ih =>
    unfold ringFeed
    split
    · rfl
    · simp [ih]

@[simp] theorem feedZone_gridView (b : Bank) (z : Nat) (t : Shot) (c : Bool) (s : State) : gridView p (feedZone b z t c s) = gridView p s := by
  unfold feedZone
  dsimp only
  split
  · rfl
  · simp

@[simp] theorem feedRound_gridView (now q : Nat) (s : State) : gridView p (feedRound now q s) = gridView p s := by
  refine forEach_gridView p (fun t s => ?_) _ s
  dsimp only
  split
  · exact forEach_gridView p (fun z s => feedZone_gridView p _ z t false s) _ s
  · rfl

/-! Dispatch of slices. -/

@[simp] theorem dispatchSlice_gridView (b : Bank) (pieces : List Placement) (w : WorkItem) (s : State) :
    gridView p (dispatchSlice b pieces w s) = gridView p s := by
  unfold dispatchSlice startPieces
  split
  · refine (forEach_gridView p (fun pl s => ?_) _ _).trans rfl
    dsimp only
    split
    · rfl
    · simp
  · rfl

@[simp] theorem dispatchService_gridView (b : Bank) (d delay : Nat) (pieces : List Placement) (now z : Nat) (s : State) :
    gridView p (dispatchService b d delay pieces now z s) = gridView p s := by
  unfold dispatchService
  dsimp only
  split
  · split
    · split
      · rfl
      · simp
    · rfl
  · split
    · split
      · simp
      · rfl
    · rfl

@[simp] theorem settleService_gridView (now z : Nat) (s : State) : gridView p (settleService now z s) = gridView p s := by
  unfold settleService
  split
  · split
    · exact endService_keep (gridView p) (by intros; rfl) z _ s
    · rfl
  · rfl

@[simp] theorem dispatchLeaving_gridView (now q : Nat) (s : State) : gridView p (dispatchLeaving now q s) = gridView p s := by
  refine forEach_gridView p (fun e s => ?_) _ s
  dsimp only
  rw [settleService_gridView]
  split
  · rfl
  · exact inService_keep (gridView p) (by intros; rfl) _ _ _ (fun s => dispatchService_gridView p _ _ _ _ _ _ s) s

@[simp] theorem dispatchZone_gridView (now z : Nat) (s : State) : gridView p (dispatchZone now z s) = gridView p s := by
  unfold dispatchZone
  dsimp only
  split
  · simp
  · rfl

@[simp] theorem countIdle_gridView (q round : Nat) (s : State) : gridView p (countIdle q round s) = gridView p s := by
  unfold countIdle
  exact forEach_gridView p (fun z s => noteGap_gridView p z 1 6 s) _ s

@[simp] theorem countSuspended_gridView (q round : Nat) (s : State) : gridView p (countSuspended q round s) = gridView p s := by
  unfold countSuspended
  exact forEach_gridView p (fun z s => noteGap_gridView p z 1 2 s) _ s

@[simp] theorem darkRound_gridView (q round : Nat) (s : State) : gridView p (darkRound q round s) = gridView p s := by
  refine forEach_gridView p (fun z s => ?_) _ s
  dsimp only
  split
  · rfl
  · rfl

/-! The Pointer's step and the ends of collections. -/

@[simp] theorem missFire_gridView (q : Nat) (limit : Bool) (s : State) : gridView p (missFire q limit s) = gridView p s := by
  simp [missFire]

@[simp] theorem recordOpen_gridView (port round ns : Nat) (e : RecordSeq) (flags : BitVec 8) (s : State) :
    gridView p (recordOpen port round ns e flags s) = gridView p s := by
  unfold recordOpen
  dsimp only
  rw [onPtr_gridView]
  split
  · rw [endJobs_keep (gridView p) (by intros; rfl)]
    simp
  · rfl

@[simp] theorem fire_gridView (c : Condition) (j k also : Nat) (v : StepView) (t : OwnTime) (s : State) :
    gridView p (fire c j k also v t s) = gridView p s := by
  unfold fire
  dsimp only
  split
  · simp
  · split
    · simp
    · have hout (s : State) (b : Prop) [Decidable b] : gridView p (if b then onPtr (fun x => { x with fireOut := true }) s else s) = gridView p s := by
        split <;> rfl
      split
      · rw [setRecord_gridView, hout]
        simp
      · rw [recordOpen_gridView, hout]
        simp

theorem seqEvaluate_gridView (v : StepView) (s : State) : gridView p (seqEvaluate v s).1 = gridView p s := by
  unfold seqEvaluate
  dsimp only
  split
  · rfl
  · split
    · simp
    · simp

theorem seqStep_gridView (q r now round : Nat) (acc : State × Nat × Nat) : gridView p (seqStep q r now round acc).1 = gridView p acc.1 := by
  unfold seqStep
  dsimp only
  split
  · simp
  · simp [seqEvaluate_gridView]

@[simp] theorem pointerStep_gridView (q : Nat) (t : Shot) (s : State) : gridView p (pointerStep q t s) = gridView p s := by
  have hsteps (qs : List Nat) (acc : State × Nat × Nat) :
      gridView p (qs.foldl (fun acc i => seqStep i q (netNs t.time) t.round acc) acc).1 = gridView p acc.1 := by
    induction qs generalizing acc with
    | nil => rfl
    | cons i qs ih => rw [List.foldl_cons, ih, seqStep_gridView]
  unfold pointerStep
  dsimp only
  rw [paramPut_gridView, hsteps]

@[simp] theorem endCollections_gridView (q round : Nat) (s : State) : gridView p (endCollections q round s) = gridView p s := by
  refine forEach_gridView p (fun r s => ?_) _ s
  have hend : gridView p (endCollection r s) = gridView p s := endCollection_keep (gridView p) (by intros; rfl) r s
  dsimp only
  split
  · rw [closeRecord_keep (gridView p) (by intros; rfl), hend]
  · exact hend

theorem roundWork_gridView (q : Nat) (t : Shot) (steps : Bool) (s : State) : gridView p (roundWork q t steps s) = gridView p s := by
  unfold roundWork
  dsimp only
  rw [endCollections_gridView]
  have hdispatch (b : Bank) (s : State) : gridView p (forEach (dispatchOrder b q) (dispatchZone t.round) s) = gridView p s :=
    forEach_gridView p (fun z s => dispatchZone_gridView p t.round z s) _ s
  split
  · simp [hdispatch]
  · simp [hdispatch]

end RoundWork

end Sys2Proof.Machine

namespace Sys2Proof.Machine

/-! ## A slot fire time (R152, R157, R182) -/

/-- The state in which a slot that is not slot 0 asks whether it may fire: the counts of the round before it are in and what waited for a
round start is in force. -/
def slotReady (p peakPct : Nat) (s : State) : State :=
  corrAtRound p (gainAtRound p peakPct (applyNextRound p
    (onPort p (fun x => { x with shotSeq := x.shotSeq + 1 }) (noteInterval p (noteClipped p (gatherPort p s))))))

def slotMay (p : Nat) (r : State) : Bool := mayFire r p && !(portOf r p).awaitSlot0
def slotPlayed (p : Nat) (r : State) : Bool := slotMay p r && !(portOf r p).leadCut && playsGlyphs r p
def slotFired (p : Nat) (r : State) : Bool := slotPlayed p r || (portOf r p).leadCut
def slotGap (p : Nat) (r : State) : Bool := slotFired p r && (portOf r p).dark

/-- The state that the shot's record is taken from. -/
def slotStart (p : Nat) (r : State) : State :=
  let s := onPort p (fun x => { x with awaitSlot0 := !slotMay p r }) r
  let s := if slotFired p r then rebaseAtShot p s else s
  if slotGap p r then gapAtFire p s else s

/-- The record of the shot of a slot that is not slot 0. -/
def slotShot (p : Nat) (s r : State) : Shot :=
  shotRecord (slotStart p r) p (portOf s p).nextSlot (portOf s p).period (slotFired p r) (slotPlayed p r) (slotGap p r)

section Ready
variable (p : Nat)

@[simp] theorem gatherPort_gridView (q : Nat) (s : State) : gridView p (gatherPort q s) = gridView p s := by
  unfold gatherPort
  split
  · dsimp only
    split
    · rfl
    · split
      · exact (segorSend_keep (gridView p) (by intros; rfl) _ _ _).trans rfl
      · rfl
  · rfl

@[simp] theorem noteClipped_gridView (q : Nat) (s : State) : gridView p (noteClipped q s) = gridView p s := by
  have hport (r : RateLimit) (s : State) : gridView p (onPort q (fun x => { x with clipRate := r }) s) = gridView p s :=
    gridView_onPort (f := fun x => { x with clipRate := r }) (fun _ => rfl) p q s
  unfold noteClipped
  dsimp only
  split
  · rfl
  · split
    · rw [post_gridView, hport, bumpBy_gridView]
    · rw [hport, bumpBy_gridView]

@[simp] theorem noteInterval_gridView (q : Nat) (s : State) : gridView p (noteInterval q s) = gridView p s := by
  unfold noteInterval
  split
  · split <;> rfl
  · rfl

@[simp] theorem applyNextRound_gridView (q : Nat) (s : State) : gridView p (applyNextRound q s) = gridView p s := by
  have hput (w : List (Nat × Int)) (s : State) :
      gridView p (w.foldl (fun s e => { s with params := Store.write paramDefault s.params e.1 e.2 }) s) = gridView p s := by
    induction w generalizing s with
    | nil => rfl
    | cons e w ih => rw [List.foldl_cons, ih]; rfl
  unfold applyNextRound
  rw [hput]
  exact gridView_onPort (f := fun x => { x with nextRound := [] }) (fun _ => rfl) p q s

@[simp] theorem setDasGain_gridView (q g : Nat) (s : State) : gridView p (setDasGain q g s) = gridView p s := by
  have hgain (s : State) : gridView p (onPort q (fun x => { x with dasGain := g }) s) = gridView p s :=
    gridView_onPort (f := fun x => { x with dasGain := g }) (fun _ => rfl) p q s
  have hstep (n : Nat) (s : State) : gridView p (onPort q (fun x => { x with gainStepTicks := (n :: x.gainStepTicks).take 64 }) s) = gridView p s :=
    gridView_onPort (f := fun x => { x with gainStepTicks := (n :: x.gainStepTicks).take 64 }) (fun _ => rfl) p q s
  unfold setDasGain
  dsimp only
  split
  · rw [paramPut_gridView, hgain]
  · rw [bump_gridView, hstep, paramPut_gridView, hgain]

@[simp] theorem overdrive_gridView (q group gain : Nat) (s : State) : gridView p (overdrive q group gain s) = gridView p s := by
  have hport (r : RateLimit) (s : State) :
      gridView p (onPort q (fun x => { x with overdriveRate := vecUpdate x.overdriveRate group fun _ => r }) s) = gridView p s :=
    gridView_onPort (f := fun x => { x with overdriveRate := vecUpdate x.overdriveRate group fun _ => r }) (fun _ => rfl) p q s
  unfold overdrive
  dsimp only
  split
  · rw [post_gridView, hport]
  · rw [hport]

@[simp] theorem gainAtRound_gridView (q peakPct : Nat) (s : State) : gridView p (gainAtRound q peakPct s) = gridView p s := by
  have hpeak (s : State) : gridView p (onPort q (fun x => { x with
      peaks := (peakPct :: x.peaks).take 16, roundsSinceStep := min 16 (x.roundsSinceStep + 1) }) s) = gridView p s :=
    gridView_onPort (f := fun x => { x with peaks := (peakPct :: x.peaks).take 16, roundsSinceStep := min 16 (x.roundsSinceStep + 1) })
      (fun _ => rfl) p q s
  have hwrite (s : State) : gridView p (onPort q (fun x => { x with overSeen := false, gainWrite := none, roundsSinceStep := 0 }) s) = gridView p s :=
    gridView_onPort (f := fun x => { x with overSeen := false, gainWrite := none, roundsSinceStep := 0 }) (fun _ => rfl) p q s
  have hclear (s : State) : gridView p (onPort q (fun x => { x with overSeen := false }) s) = gridView p s :=
    gridView_onPort (f := fun x => { x with overSeen := false }) (fun _ => rfl) p q s
  have hdown (s : State) : gridView p (onPort q (fun x => { x with overSeen := false, roundsSinceStep := 0 }) s) = gridView p s :=
    gridView_onPort (f := fun x => { x with overSeen := false, roundsSinceStep := 0 }) (fun _ => rfl) p q s
  have hup (s : State) : gridView p (onPort q (fun x => { x with roundsSinceStep := 0 }) s) = gridView p s :=
    gridView_onPort (f := fun x => { x with roundsSinceStep := 0 }) (fun _ => rfl) p q s
  unfold gainAtRound
  dsimp only
  split
  · rw [setDasGain_gridView, hwrite, hpeak]
  · split_ifs
    · rw [hclear, hpeak]
    · rw [hpeak]
    · rw [overdrive_gridView, hclear, hpeak]
    · rw [setDasGain_gridView, hdown, hpeak]
    · rw [setDasGain_gridView, hup, hpeak]
    · rw [hpeak]

@[simp] theorem calApply_gridView (item index : Nat) (s : State) : gridView p (calApply item index s) = gridView p s := by
  unfold calApply
  split <;> rfl

@[simp] theorem corrAtRound_gridView (q : Nat) (s : State) : gridView p (corrAtRound q s) = gridView p s := by
  have hnext (s : State) : gridView p (onPort q (fun x => { x with corrNext := Vector.replicate 6 none }) s) = gridView p s :=
    gridView_onPort (f := fun x => { x with corrNext := Vector.replicate 6 none }) (fun _ => rfl) p q s
  have huse (s : State) : gridView p (onPort q (fun x => { x with
      corr := Vector.ofFn fun i => (x.corrNext.get i).getD (x.corr.get i), corrNext := Vector.replicate 6 none }) s) = gridView p s :=
    gridView_onPort (f := fun x => { x with
      corr := Vector.ofFn fun i => (x.corrNext.get i).getD (x.corr.get i), corrNext := Vector.replicate 6 none }) (fun _ => rfl) p q s
  have hcorr (s : State) : gridView p (corrUse q s) = gridView p s := by
    unfold corrUse
    split
    · exact (calAccept_keep (gridView p) (by intros; rfl) _ _ _ _).trans (huse s)
    · rfl
  have hport (b : Bool) (s : State) : gridView p (if b then calApply 1 q (onPort q (fun x => { x with corrNext := Vector.replicate 6 none }) s)
      else corrUse q s) = gridView p s := by
    split
    · rw [calApply_gridView, hnext]
    · rw [hcorr]
  unfold corrAtRound
  dsimp only
  rw [hport]
  split
  · rw [calApply_gridView]
  · rfl

@[simp] theorem rebaseAtShot_gridView (q : Nat) (s : State) : gridView p (rebaseAtShot q s) = gridView p s := by
  have hbase (kind cause : Nat) (s : State) : gridView p (rebaseline q kind cause s) = gridView p s := by
    unfold rebaseline
    dsimp only
    rw [post_gridView, bump_gridView]
    refine gridView_onPort (fun x => ?_) p q s
    split <;> rfl
  unfold rebaseAtShot
  dsimp only
  split
  · rw [hbase]
    exact gridView_onPort (f := fun x => { x with rebaseNext := none }) (fun _ => rfl) p q s
  · split
    · rw [hbase]
    · rfl

@[simp] theorem gapAtFire_gridView (q : Nat) (s : State) : gridView p (gapAtFire q s) = gridView p s := by
  unfold gapAtFire
  exact forEach_gridView p (fun z s => noteGap_gridView p z 0 5 s) _ s

end Ready

theorem slotReady_gridView (p : Fin 4) (peakPct : Nat) (s : State) : gridView p (slotReady p peakPct s) =
    { gridView p s with port := { gridPort (portOf s p) with shotSeq := (portOf s p).shotSeq + 1 } } := by
  have hseq (s : State) : gridView p (onPort p (fun x => { x with shotSeq := x.shotSeq + 1 }) s) =
      { gridView p s with port := { (gridView p s).port with shotSeq := (gridView p s).port.shotSeq + 1 } } := by
    unfold gridView
    rw [portOf_onPort]
    rfl
  unfold slotReady
  rw [corrAtRound_gridView, gainAtRound_gridView, applyNextRound_gridView, hseq, noteInterval_gridView, noteClipped_gridView, gatherPort_gridView]
  rfl

theorem slotStart_gridView (p : Fin 4) (r : State) : gridView p (slotStart p r) =
    { gridView p r with port := { gridPort (portOf r p) with awaitSlot0 := !slotMay p r } } := by
  have hwait : gridView p (onPort p (fun x => { x with awaitSlot0 := !slotMay p r }) r) =
      { gridView p r with port := { gridPort (portOf r p) with awaitSlot0 := !slotMay p r } } := by
    unfold gridView
    rw [portOf_onPort]
    rfl
  unfold slotStart
  dsimp only
  split <;> split <;> simp [hwait]

/-- A slot that is not slot 0, from the state in which it asks whether it may fire. -/
def slotGoesOn (p slot period : Nat) (s : State) : State :=
  let may := mayFire s p && !false && (false || !(portOf s p).awaitSlot0)
  let played := may && !(portOf s p).leadCut && playsGlyphs s p
  let fired := played || (portOf s p).leadCut
  let s := onPort p (fun x => { x with awaitSlot0 := !may }) s
  let gap := fired && (portOf s p).dark
  let s := if fired then rebaseAtShot p s else s
  let s := if gap then gapAtFire p s else s
  let t := shotRecord s p slot period fired played gap
  let s := roundWork p t (may || fired) (recordShot p t s)
  if may && !fired then darkRound p t.round s else s

/-- The rest of the slot fire time leaves the grid and the shot's record as they were when it was recorded. -/
theorem fireSlot_gridView (p : Fin 4) (peakPct : Nat) (s : State) : gridView p (fireSlot p false false peakPct s) =
    gridView p (recordShot p (slotShot p s (slotReady p peakPct s)) (slotStart p (slotReady p peakPct s))) := by
  have heq : fireSlot p false false peakPct s = slotGoesOn p (portOf s p).nextSlot (portOf s p).period (slotReady p peakPct s) := rfl
  rw [heq]
  unfold slotShot
  generalize slotReady p peakPct s = r
  have hmay : (mayFire r p && !false && (false || !(portOf r p).awaitSlot0)) = slotMay p r := by simp [slotMay]
  have hdark : (portOf (onPort p (fun x => { x with awaitSlot0 := !slotMay p r }) r) p).dark = (portOf r p).dark := by
    rw [portOf_onPort]
  unfold slotGoesOn
  rw [hmay]
  dsimp only
  rw [hdark]
  change gridView p (if slotMay p r && !slotFired p r then darkRound p _ (roundWork p _ _ (recordShot p _ (slotStart p r)))
    else roundWork p _ _ (recordShot p _ (slotStart p r))) = _
  split
  · rw [darkRound_gridView, roundWork_gridView]
    rfl
  · rw [roundWork_gridView]
    rfl

end Sys2Proof.Machine

namespace Sys2Proof.Machine

/-- The port once the shot stands in its list, which becomes `us`. -/
def recordedPort (x : PortState) (t : Shot) (slots now : Nat) (us : List Shot) : GridPort :=
  { gridPort x with
    shots := us, gridRunning := true, nextSlot := if t.slot + 1 < slots then t.slot + 1 else 0, dark := !t.fired, leadCut := false,
    lastFired := if t.fired then some now else x.lastFired }

theorem enterShot_gridView (p : Fin 4) (t : Shot) (slots : Nat) (s : State) : gridView p (enterShot p t slots s) =
    { gridView p s with port := recordedPort (portOf s p) t slots s.ticks ((t :: (portOf s p).shots).take 512) } := by
  unfold enterShot gridView
  rw [portOf_onPort]
  rfl

/-- The shots of a port changed one by one. -/
theorem mapShots_gridView {f : PortState → PortState} {g : Shot → Shot}
    (hf : ∀ x, gridPort (f x) = { gridPort x with shots := x.shots.map g }) (p : Fin 4) (s : State) :
    gridView p (onPort p f s) = { gridView p s with port := { gridPort (portOf s p) with shots := (portOf s p).shots.map g } } := by
  unfold gridView
  rw [portOf_onPort, hf]
  rfl

/-- A lost shot has no window, and a window is closed only by a rise. -/
theorem recordShot_gridView (p : Fin 4) (t : Shot) (s : State) : ∃ w us,
    gridView p (recordShot p t s) = { gridView p s with port := recordedPort (portOf s p) t (portSlots s p) s.ticks ({ t with window := w } :: us) } ∧
    ((portOf s p).riseTick = none → w = (t.window && !t.lost)) := by
  have henter := enterShot_gridView p t (portSlots s p) s
  have hport : portOf (enterShot p t (portSlots s p) s) p = { (portOf s p) with
      shots := (t :: (portOf s p).shots).take 512, words := (portOf s p).words.filter fun e => e.1 / 262144 != t.round % 512,
      gridRunning := true, period := t.period, nextSlot := if t.slot + 1 < portSlots s p then t.slot + 1 else 0, dark := !t.fired,
      leadCut := false, lastFired := if t.fired then some s.ticks else (portOf s p).lastFired } := portOf_onPort p _ s
  have hshots (f : Shot → Shot) : ((t :: (portOf s p).shots).take 512).map f = f t :: ((portOf s p).shots.take 511).map f := by simp
  unfold recordShot
  dsimp only
  generalize enterShot p t (portSlots s p) s = e at henter hport
  split
  case isTrue hlost =>
    refine ⟨false, ((portOf s p).shots.take 511).map fun u => if u.round = t.round then { u with lost := true, window := false } else u, ?_,
      fun _ => by simp [hlost]⟩
    unfold markLost
    rw [bump_gridView, mapShots_gridView (fun _ => rfl), henter, hport]
    dsimp only
    rw [hshots, if_pos rfl]
    rw [show ({ t with lost := true, window := false } : Shot) = { t with window := false } by rw [← hlost]]
    rfl
  case isFalse hlost =>
    have hkept : ∃ us, gridView p e = { gridView p s with
        port := recordedPort (portOf s p) t (portSlots s p) s.ticks ({ t with window := t.window } :: us) } := ⟨_, henter.trans rfl⟩
    split
    case isTrue hw =>
      unfold earlyLaunch
      dsimp only
      split
      case isTrue hearly =>
        refine ⟨false, ((portOf s p).shots.take 511).map fun u => { u with window := false }, ?_, fun hrise => ?_⟩
        · rw [mapShots_gridView (g := fun u => { u with window := false }) (fun _ => rfl), henter, hport]
          dsimp only
          rw [hshots]
          rfl
        · simp [hport, hrise] at hearly
      case isFalse =>
        obtain ⟨us, hus⟩ := hkept
        exact ⟨_, us, hus, fun _ => by simp [hlost]⟩
    case isFalse =>
      obtain ⟨us, hus⟩ := hkept
      exact ⟨_, us, hus, fun _ => by simp [hlost]⟩

theorem slotFireTime_later {s : State} {p : Fin 4} (peak : Nat) (codes : RamanCodes) (hmode : s.mode.current = .run ∨ s.mode.current = .sentinel)
    (hon : portEnabled s p = true) (hrun : (portOf s p).gridRunning = true) (hslot : (portOf s p).nextSlot ≠ 0) :
    exec (.slotFireTime p peak codes) s = .next (fireSlot p false false peak s) := by
  have hflow : flowMode s = s.mode.current := by rcases hmode with h | h <;> simp [flowMode, h]
  have hgrid : gridMode s p = true := by rcases hmode with h | h <;> simp [gridMode, hflow, h, hon, hrun]
  have hsurvey : (s.mode.current == .survey) = false := by rcases hmode with h | h <;> simp [h]
  change Host.Outcome.next (slotFireTime p peak codes s) = _
  unfold slotFireTime
  have hlater : ((portOf s p).nextSlot == 0) = false := by simpa using hslot
  simp [hsurvey, hgrid, hrun, hlater, hon]

/-! ### What decides whether the port may fire -/

/-- What the emission chain and the settings of a round start are read from, of parameter `k`. -/
structure ChainView where
  booted : Store Int
  own : Bool
  jtagTest : Bool
  param : Int
  rebaseNext : Option (Nat × Nat)
  gainWrite : Option Nat
  nextRound : Store Int

def chainView (k p : Nat) (s : State) : ChainView :=
  ⟨s.booted, s.pair.own, s.links.jtagTest, Store.read paramDefault s.params k, (portOf s p).rebaseNext, (portOf s p).gainWrite, (portOf s p).nextRound⟩

/-- A parameter that no count of a slot fire time moves. -/
def steadyParam (p k : Nat) : Prop :=
  k ≠ paramKey (portId p Pid.portPrbClipCount) 0 ∧ k ≠ paramKey Pid.hostEvqLost 0 ∧ k ≠ paramKey Pid.logSuppressed 0

theorem chainView_onPort {f : PortState → PortState}
    (hf : ∀ x, (f x).rebaseNext = x.rebaseNext ∧ (f x).gainWrite = x.gainWrite ∧ (f x).nextRound = x.nextRound) (k p q : Nat) (s : State) :
    chainView k p (onPort q f s) = chainView k p s := by
  unfold chainView
  rw [portView_onPort (g := (·.rebaseNext)) (fun x => (hf x).1), portView_onPort (g := (·.gainWrite)) (fun x => (hf x).2.1),
    portView_onPort (g := (·.nextRound)) (fun x => (hf x).2.2)]
  rfl

theorem post_jtagTest (code : Nat) (a b c : Int) (s : State) : (post code a b c s).links.jtagTest = s.links.jtagTest := by
  have hwrite (e : LogEntry) (s : State) : (logWrite e s).links.jtagTest = s.links.jtagTest := by
    unfold logWrite
    dsimp only
    split <;> rfl
  have hbump (i : Nat) (s : State) : (bump i 0 s).links.jtagTest = s.links.jtagTest := rfl
  have hlog (e : LogEntry) (s : State) : (logBudgeted e s).links.jtagTest = s.links.jtagTest := by
    unfold logBudgeted
    dsimp only
    split_ifs <;> simp only [hwrite, hbump]
  have hpost (e : LogEntry) (s : State) : (logPost e s).links.jtagTest = s.links.jtagTest := by
    unfold logPost
    dsimp only
    split
    · exact forEach_keep (fun s => s.links.jtagTest) _ hlog _ _
    · rfl
  exact (forEach_keep (fun s => s.links.jtagTest) _
    (fun t s => eventSend_keep (fun s => s.links.jtagTest) (by intros; rfl) _ t s) _ _).trans
      ((hpost _ _).trans (evqWrite_keep (fun s => s.links.jtagTest) (by intros; rfl) _ _))

end Sys2Proof.Machine

namespace Sys2Proof.Machine

theorem post_chainView {k : Nat} (hq : k ≠ paramKey Pid.hostEvqLost 0) (hl : k ≠ paramKey Pid.logSuppressed 0) (p code : Nat) (a b c : Int)
    (s : State) : chainView k p (post code a b c s) = chainView k p s := by
  unfold chainView
  rw [post_jtagTest, post_paramAt hq hl, post_keep (fun s => s.booted) (by intros; rfl), post_keep (fun s => s.pair.own) (by intros; rfl),
    portOf_congr (post_ports ..)]

theorem gatherPort_chainView (k p q : Nat) (s : State) : chainView k p (gatherPort q s) = chainView k p s := by
  unfold gatherPort
  split
  · dsimp only
    split
    · rfl
    · split
      · exact (segorSend_keep (chainView k p) (by intros; rfl) _ _ _).trans rfl
      · rfl
  · rfl

theorem noteClipped_chainView {k : Nat} (p : Nat) (hk : steadyParam p k) (s : State) : chainView k p (noteClipped p s) = chainView k p s := by
  obtain ⟨hclip, hq, hl⟩ := hk
  have hbump (n : Nat) (s : State) : chainView k p (bumpBy n (portId p Pid.portPrbClipCount) 0 s) = chainView k p s := by
    unfold chainView
    rw [bumpBy_paramAt hclip]
    rfl
  have hport (r : RateLimit) (s : State) : chainView k p (onPort p (fun x => { x with clipRate := r }) s) = chainView k p s :=
    chainView_onPort (f := fun x => { x with clipRate := r }) (fun _ => ⟨rfl, rfl, rfl⟩) k p p s
  unfold noteClipped
  dsimp only
  split
  · rfl
  · split
    · rw [post_chainView hq hl, hport, hbump]
    · rw [hport, hbump]

theorem noteInterval_chainView (k p q : Nat) (s : State) : chainView k p (noteInterval q s) = chainView k p s := by
  unfold noteInterval
  split
  · split <;> rfl
  · rfl

theorem corrAtRound_chainView (k p q : Nat) (s : State) : chainView k p (corrAtRound q s) = chainView k p s := by
  have hcal (item index : Nat) (s : State) : chainView k p (calApply item index s) = chainView k p s := by
    unfold calApply
    split <;> rfl
  have hnext (s : State) : chainView k p (onPort q (fun x => { x with corrNext := Vector.replicate 6 none }) s) = chainView k p s :=
    chainView_onPort (f := fun x => { x with corrNext := Vector.replicate 6 none }) (fun _ => ⟨rfl, rfl, rfl⟩) k p q s
  have hset (s : State) : chainView k p (onPort q (fun x => { x with
      corr := Vector.ofFn fun i => (x.corrNext.get i).getD (x.corr.get i), corrNext := Vector.replicate 6 none }) s) = chainView k p s :=
    chainView_onPort (f := fun x => { x with
      corr := Vector.ofFn fun i => (x.corrNext.get i).getD (x.corr.get i), corrNext := Vector.replicate 6 none })
      (fun _ => ⟨rfl, rfl, rfl⟩) k p q s
  have huse (s : State) : chainView k p (corrUse q s) = chainView k p s := by
    unfold corrUse
    split
    · exact (calAccept_keep (chainView k p) (by intros; rfl) _ _ _ _).trans (hset s)
    · rfl
  have hport (b : Bool) (s : State) : chainView k p (if b then calApply 1 q (onPort q (fun x => { x with corrNext := Vector.replicate 6 none }) s)
      else corrUse q s) = chainView k p s := by
    split
    · rw [hcal, hnext]
    · rw [huse]
  unfold corrAtRound
  dsimp only
  rw [hport]
  split
  · rw [hcal]
  · rfl

theorem paramGet_congr {s t : State} {id i : Nat} (hb : t.banks = s.banks) (hboot : t.booted = s.booted)
    (h : Store.read paramDefault t.params (paramKey id i) = Store.read paramDefault s.params (paramKey id i)) : paramGet t id i = paramGet s id i := by
  unfold paramGet globalBank
  rw [hb, hboot, h]

theorem portGet_congr {s t : State} {p id i : Nat} (hb : t.banks = s.banks) (hboot : t.booted = s.booted)
    (h : Store.read paramDefault t.params (paramKey (portId p id) i) = Store.read paramDefault s.params (paramKey (portId p id) i)) :
    portGet t p id i = portGet s p id i := by
  unfold portGet portCfg portBank
  rw [paramGet_congr hb hboot h, hb]

/-- With no gain to write and no autorange nothing but the peaks of the round moves. -/
theorem gainAtRound_chainView {p : Fin 4} {peakPct : Nat} {s : State} (hw : (portOf s p).gainWrite = none)
    (ha : portBool s p Pid.portDasAutorange 0 = false) (k : Nat) : chainView k p (gainAtRound p peakPct s) = chainView k p s := by
  have hpeak (s : State) : chainView k p (onPort p (fun x => { x with
      peaks := (peakPct :: x.peaks).take 16, roundsSinceStep := min 16 (x.roundsSinceStep + 1) }) s) = chainView k p s :=
    chainView_onPort (f := fun x => { x with peaks := (peakPct :: x.peaks).take 16, roundsSinceStep := min 16 (x.roundsSinceStep + 1) })
      (fun _ => ⟨rfl, rfl, rfl⟩) k p p s
  have hclear (s : State) : chainView k p (onPort p (fun x => { x with overSeen := false }) s) = chainView k p s :=
    chainView_onPort (f := fun x => { x with overSeen := false }) (fun _ => ⟨rfl, rfl, rfl⟩) k p p s
  have ha' (f : PortState → PortState) : portBool (onPort p f s) p Pid.portDasAutorange 0 = false := ha
  unfold gainAtRound
  simp only [portOf_onPort, hw, ha', Bool.not_false, if_true]
  rw [hclear, hpeak]

theorem slotReady_chainView {p : Fin 4} {peakPct : Nat} {s : State} (hr : (portOf s p).nextRound = []) (hw : (portOf s p).gainWrite = none)
    (ha : portBool s p Pid.portDasAutorange 0 = false) {k : Nat} (hk : steadyParam p k) :
    chainView k p (slotReady p peakPct s) = chainView k p s := by
  have hcounts {k : Nat} (hk : steadyParam p k) : chainView k p (onPort p (fun x => { x with shotSeq := x.shotSeq + 1 })
      (noteInterval p (noteClipped p (gatherPort p s)))) = chainView k p s := by
    rw [chainView_onPort (f := fun x => { x with shotSeq := x.shotSeq + 1 }) (fun _ => ⟨rfl, rfl, rfl⟩), noteInterval_chainView, noteClipped_chainView p hk, gatherPort_chainView]
  have hbanks : (onPort p (fun x => { x with shotSeq := x.shotSeq + 1 }) (noteInterval p (noteClipped p (gatherPort p s)))).banks = s.banks := by
    have h : gridView p (noteInterval p (noteClipped p (gatherPort p s))) = gridView p s := by simp
    have hb := congrArg GridView.banks h
    exact hb
  unfold slotReady
  generalize onPort p (fun x => { x with shotSeq := x.shotSeq + 1 }) (noteInterval p (noteClipped p (gatherPort p s))) = c at hcounts hbanks
  have hround : (portOf c p).nextRound = [] := (congrArg ChainView.nextRound (hcounts hk)).trans hr
  have hwrite : (portOf c p).gainWrite = none := (congrArg ChainView.gainWrite (hcounts hk)).trans hw
  have hauto : portBool c p Pid.portDasAutorange 0 = false := by
    have hkey : steadyParam p (paramKey (portId p Pid.portDasAutorange) 0) := by
      unfold steadyParam paramKey portId Pid.portDasAutorange Pid.portPrbClipCount Pid.hostEvqLost Pid.logSuppressed
      omega
    unfold portBool at ha ⊢
    rw [portGet_congr hbanks (congrArg ChainView.booted (hcounts hkey)) (congrArg ChainView.param (hcounts hkey))]
    exact ha
  have hnext : applyNextRound p c = onPort p (fun x => { x with nextRound := [] }) c := by rw [applyNextRound, hround]; rfl
  have hkept : chainView k p (applyNextRound p c) = chainView k p c := by
    rw [hnext]
    unfold chainView
    rw [portOf_onPort, hround]
    rfl
  rw [corrAtRound_chainView, gainAtRound_chainView _ _ k, hkept, hcounts hk]
  · rw [hnext, portOf_onPort, hwrite]
  · rw [hnext]
    exact hauto

end Sys2Proof.Machine

namespace Sys2Proof.Machine

/-- A port may fire by its own settings and the emission chain, which the counts of a slot fire time leave alone. -/
theorem mayFire_slotReady {p : Fin 4} {peakPct : Nat} {s : State} (hm : s.mode.current = .run) (hr : (portOf s p).nextRound = []) (hw : (portOf s p).gainWrite = none)
    (ha : portBool s p Pid.portDasAutorange 0 = false) :
    mayFire (slotReady p peakPct s) p = mayFire s p ∧ portSlots (slotReady p peakPct s) p = portSlots s p := by
  have hg := slotReady_gridView p peakPct s
  have hc {k : Nat} (hk : steadyParam p k) := slotReady_chainView (peakPct := peakPct) hr hw ha hk
  generalize slotReady p peakPct s = r at hg hc
  have hmode : r.mode = s.mode := congrArg GridView.mode hg
  have hbanks : r.banks = s.banks := congrArg GridView.banks hg
  have hsafety : r.safety = s.safety := congrArg GridView.safety hg
  have hpower : r.power = s.power := congrArg GridView.power hg
  have hclocks : r.clocks = s.clocks := congrArg GridView.clocks hg
  have hslots : steadyParam p (paramKey (portId p Pid.portSlots) 0) := by
    unfold steadyParam paramKey portId Pid.portSlots Pid.portPrbClipCount Pid.hostEvqLost Pid.logSuppressed
    omega
  have hbooted : r.booted = s.booted := congrArg ChainView.booted (hc hslots)
  have hown : r.pair.own = s.pair.own := congrArg ChainView.own (hc hslots)
  have hjtag : r.links.jtagTest = s.links.jtagTest := congrArg ChainView.jtagTest (hc hslots)
  have hget {id i : Nat} (hk : steadyParam p (paramKey id i)) : paramGet r id i = paramGet s id i :=
    paramGet_congr hbanks hbooted (congrArg ChainView.param (hc hk))
  have hhost := hget (id := Pid.safetyHostEnable) (i := 0)
    (by unfold steadyParam paramKey portId Pid.safetyHostEnable Pid.portPrbClipCount Pid.hostEvqLost Pid.logSuppressed; omega)
  have hprofile := hget (id := Pid.safetyProfile) (i := 0)
    (by unfold steadyParam paramKey portId Pid.safetyProfile Pid.portPrbClipCount Pid.hostEvqLost Pid.logSuppressed; omega)
  have hlocator := hget (id := Pid.safetyLocatorLed) (i := p)
    (by unfold steadyParam paramKey portId Pid.safetyLocatorLed Pid.portPrbClipCount Pid.hostEvqLost Pid.logSuppressed; omega)
  have hindicator := hget (id := Pid.safetyIndicatorLed) (i := 0)
    (by unfold steadyParam paramKey portId Pid.safetyIndicatorLed Pid.portPrbClipCount Pid.hostEvqLost Pid.logSuppressed; omega)
  constructor
  · have hprof : profilePort r = profilePort s := by unfold profilePort paramBool; rw [hprofile]
    unfold mayFire emitEn swsel indTerm portLamp
    rw [hprof]
    simp only [heldLow, portPermit, lampGood, ledOf, locatorLed, indicatorLed, paramNat, hmode, hsafety, hpower, hclocks, hown, hjtag, hhost,
      hlocator, hindicator]
  · have hr (t : State) (h : t.mode.current = .run) : portSlots t p = portNat t p Pid.portSlots 0 := by simp [portSlots, flowMode, h]
    rw [hr r (by rw [hmode, hm]), hr s hm, portNat, portNat,
      portGet_congr hbanks hbooted (congrArg ChainView.param (hc hslots))]

/-- The port after the shot of a slot that is not slot 0, and what the shot is: it is recorded with the sequence that this slot gave it. -/
theorem fireSlot_record (p : Fin 4) (peakPct : Nat) (s : State) : let r := slotReady p peakPct s
    ∃ w us, gridView p (fireSlot p false false peakPct s) = { gridView p s with port := { gridPort (portOf s p) with
        shotSeq := (portOf s p).shotSeq + 1, shots := { slotShot p s r with window := w } :: us, leadCut := false, awaitSlot0 := !slotMay p r,
        gridRunning := true, nextSlot := if (portOf s p).nextSlot + 1 < portSlots (slotStart p r) p then (portOf s p).nextSlot + 1 else 0,
        dark := !slotFired p r, lastFired := if slotFired p r then some s.ticks else (portOf s p).lastFired } } ∧
      (slotShot p s r).seq = ((portOf s p).shotSeq + 1).toNat ∧ (slotShot p s r).fireTick = s.ticks ∧
      ((portOf s p).riseTick = none → w = (slotFired p r && slotPlayed p r)) := by
  intro r
  have hready : gridView p r = _ := slotReady_gridView p peakPct s
  have hstart := slotStart_gridView p r
  obtain ⟨w, us, hrecord, hw⟩ := recordShot_gridView p (slotShot p s r) (slotStart p r)
  have hport : gridPort (portOf (slotStart p r) p) = { gridPort (portOf r p) with awaitSlot0 := !slotMay p r } := congrArg GridView.port hstart
  have hportR : gridPort (portOf r p) = { gridPort (portOf s p) with shotSeq := (portOf s p).shotSeq + 1 } := congrArg GridView.port hready
  have hticks : (slotStart p r).ticks = s.ticks := (congrArg GridView.ticks hstart).trans (congrArg GridView.ticks hready)
  have hseq : (portOf (slotStart p r) p).shotSeq = (portOf s p).shotSeq + 1 :=
    (congrArg GridPort.shotSeq hport).trans (congrArg GridPort.shotSeq hportR)
  have hrise : (portOf (slotStart p r) p).riseTick = (portOf s p).riseTick :=
    (congrArg GridPort.riseTick hport).trans (congrArg GridPort.riseTick hportR)
  have hlast : (portOf (slotStart p r) p).lastFired = (portOf s p).lastFired :=
    (congrArg GridPort.lastFired hport).trans (congrArg GridPort.lastFired hportR)
  refine ⟨w, us, ?_, congrArg BitVec.toNat hseq, hticks, fun h => ?_⟩
  · rw [fireSlot_gridView, hrecord, hstart, hready]
    unfold recordedPort
    rw [hport, hportR, hticks, hlast]
    rfl
  · rw [hw (hrise.trans h)]
    change ((slotFired p r && slotPlayed p r) && !(slotFired p r && !slotPlayed p r)) = _
    cases slotFired p r <;> cases slotPlayed p r <;> rfl

/-- What a shot's record says of a port in whose lead a gate was cut, of one that waits for slot 0 and of one without the core PLL. -/
theorem slotShot_fired (p : Fin 4) (peakPct : Nat) (s : State) : let r := slotReady p peakPct s
    ((portOf s p).leadCut = true → slotFired p r = true ∧ slotPlayed p r = false) ∧
    ((portOf s p).leadCut = false → slotPlayed p r = slotFired p r ∧ ((portOf s p).awaitSlot0 = true → slotFired p r = false) ∧
      (s.clocks.corePllLost = true → slotFired p r = false)) := by
  intro r
  have hready : gridView p r = _ := slotReady_gridView p peakPct s
  have hcut : (portOf r p).leadCut = (portOf s p).leadCut := congrArg (fun v => v.port.leadCut) hready
  have hwait : (portOf r p).awaitSlot0 = (portOf s p).awaitSlot0 := congrArg (fun v => v.port.awaitSlot0) hready
  have hclocks : r.clocks = s.clocks := congrArg GridView.clocks hready
  refine ⟨fun h => ?_, fun h => ⟨?_, fun ha => ?_, fun hl => ?_⟩⟩
  · simp [slotFired, slotPlayed, hcut, h]
  · simp [slotFired, hcut, h]
  · simp [slotFired, slotPlayed, slotMay, hcut, hwait, h, ha]
  · simp [slotFired, slotPlayed, slotMay, mayFire, hcut, hclocks, h, hl]

/-- With the whole chain standing, no cut in the lead and nothing to settle first, the slot fires. -/
theorem slotFired_of_mayFire {p : Fin 4} {peakPct : Nat} {s : State} (hm : s.mode.current = .run) (hr : (portOf s p).nextRound = [])
    (hw : (portOf s p).gainWrite = none) (ha : portBool s p Pid.portDasAutorange 0 = false) (hc : (portOf s p).leadCut = false)
    (h0 : (portOf s p).awaitSlot0 = false) (hmay : mayFire s p = true) (hd : (portOf s p).dark = false) (hb : (portOf s p).rebaseNext = none) :
    let r := slotReady p peakPct s
    slotFired p r = true ∧ slotGap p r = false ∧ portSlots (slotStart p r) p = portSlots s p := by
  intro r
  have hready : gridView p r = _ := slotReady_gridView p peakPct s
  obtain ⟨hmayR, hslots⟩ := mayFire_slotReady (peakPct := peakPct) hm hr hw ha
  have hcut : (portOf r p).leadCut = false := (congrArg (fun v => v.port.leadCut) hready).trans hc
  have hwait : (portOf r p).awaitSlot0 = false := (congrArg (fun v => v.port.awaitSlot0) hready).trans h0
  have hdark : (portOf r p).dark = false := (congrArg (fun v => v.port.dark) hready).trans hd
  have hmode : r.mode.current = .run := (congrArg (fun v => v.mode.current) hready).trans hm
  have hbase : (portOf r p).rebaseNext = none := by
    have hkey : steadyParam p (paramKey (portId p Pid.portSlots) 0) := by
      unfold steadyParam paramKey portId Pid.portSlots Pid.portPrbClipCount Pid.hostEvqLost Pid.logSuppressed
      omega
    exact (congrArg ChainView.rebaseNext (slotReady_chainView (peakPct := peakPct) hr hw ha hkey)).trans hb
  have hfired : slotFired p r = true := by
    simp [slotFired, slotPlayed, slotMay, hcut, hwait, playsGlyphs, flowMode, hmode, show mayFire r p = true from hmayR.trans hmay]
  have hgap : slotGap p r = false := by simp [slotGap, hdark]
  refine ⟨hfired, hgap, ?_⟩
  have hnone : rebaseAtShot p (onPort p (fun x => { x with awaitSlot0 := !slotMay p r }) r) = onPort p (fun x => { x with awaitSlot0 := !slotMay p r }) r := by
    unfold rebaseAtShot
    rw [portOf_onPort]
    simp [hbase, hdark]
  have hstart : slotStart p r = onPort p (fun x => { x with awaitSlot0 := !slotMay p r }) r := by
    unfold slotStart
    simp [hfired, hgap, hnone]
  rw [hstart]
  exact hslots

/-! ### Launches (R158) -/

/-- A rise inside a window is the launch: every window closes. -/
def launchNoted (p : Nat) (s : State) : State :=
  onPort p (fun x => { x with launchOk := true, misses := 0, launchMissing := false, shots := x.shots.map fun t => { t with window := false } }) s

/-- A window that ended without a rise: the shot is lost and the miss is counted. -/
def windowMissed (p : Nat) (t : Shot) (s : State) : State :=
  onPort p (fun x => { x with launchOk := false, missSeen := true, misses := x.misses + 1 }) (markLost p t.round s)

theorem windowMissed_port (p : Fin 4) (t : Shot) (s : State) : portOf (windowMissed p t s) p = { portOf s p with
    launchOk := false, missSeen := true, misses := (portOf s p).misses + 1, lostSeen := true,
    shots := (portOf s p).shots.map fun v => if v.round = t.round then { v with lost := true, window := false } else v } := by
  have hb (id : Nat) (s : State) : portOf (bump id 0 s) p = portOf s p := rfl
  unfold windowMissed markLost
  rw [portOf_onPort, hb, portOf_onPort]

theorem windowMissed_frame (p : Nat) (t : Shot) (s : State) :
    (∀ q : Nat, q ≠ p → portOf (windowMissed p t s) q = portOf s q) ∧
    (windowMissed p t s).evq = s.evq ∧ plantUntouched { s with ports := (windowMissed p t s).ports } (windowMissed p t s) := by
  refine ⟨fun q hq => ?_, rfl, ?_⟩
  · have hb (id : Nat) (s : State) : portOf (bump id 0 s) q = portOf s q := rfl
    unfold windowMissed markLost
    rw [portOf_onPort_other _ _ hq, hb, portOf_onPort_other _ _ hq]
  · simp [plantUntouched, windowMissed, markLost]

/-- A window that ends unseen is missed, and the loss is told once the misses in a row reach their limit. -/
theorem launchWindowEnd_cases {p : Fin 4} {s : State} {u : Shot}
    (hu : ((portOf s p).shots.find? fun u => u.window && decide (u.windowEnd ≤ s.ticks)) = some u) :
    launchWindowEnd p s = windowMissed p u s ∨ (portNat s p Pid.portLmonMissLimit 0 ≤ (portOf s p).misses + 1 ∧
      launchWindowEnd p s = post 0x1001 p ((portOf s p).misses + 1 : Nat) 0 (onPort p (fun x => { x with launchMissing := true }) (windowMissed p u s))) := by
  have hport := windowMissed_port p u s
  have hmisses : (portOf (windowMissed p u s) p).misses = (portOf s p).misses + 1 := by rw [hport]
  have hlimit : portNat (windowMissed p u s) p Pid.portLmonMissLimit 0 = portNat s p Pid.portLmonMissLimit 0 := by
    have hkey : paramKey (portId p Pid.portLmonMissLimit) 0 ≠ paramKey (portId p Pid.portLostShots) 0 := by
      unfold paramKey portId Pid.portLmonMissLimit Pid.portLostShots
      omega
    have hread : Store.read paramDefault (windowMissed p u s).params (paramKey (portId p Pid.portLmonMissLimit) 0) =
        Store.read paramDefault s.params (paramKey (portId p Pid.portLmonMissLimit) 0) := (bump_paramAt hkey _).trans rfl
    rw [portNat, portNat, portGet_congr (s := s) (t := windowMissed p u s) rfl rfl hread]
  have heq : launchWindowEnd p s = if decide (portNat (windowMissed p u s) p Pid.portLmonMissLimit 0 ≤ (portOf (windowMissed p u s) p).misses) &&
      !(portOf (windowMissed p u s) p).launchMissing then post 0x1001 p (portOf (windowMissed p u s) p).misses 0
        (onPort p (fun x => { x with launchMissing := true }) (windowMissed p u s)) else windowMissed p u s := by
    unfold launchWindowEnd
    rw [hu]
    rfl
  rw [heq, hmisses, hlimit]
  split
  case isTrue h =>
    rw [Bool.and_eq_true, decide_eq_true_eq] at h
    exact .inr ⟨h.1, rfl⟩
  case isFalse => exact .inl rfl

theorem launchWindowEnd_facts {p : Fin 4} {s : State} {u : Shot}
    (hu : ((portOf s p).shots.find? fun u => u.window && decide (u.windowEnd ≤ s.ticks)) = some u) : let t := launchWindowEnd p s
    (portOf t p).launchOk = false ∧ (portOf t p).missSeen = true ∧ (portOf t p).misses = (portOf s p).misses + 1 ∧ (portOf t p).lostSeen = true ∧
    (portOf t p).shots = ((portOf s p).shots.map fun v => if v.round = u.round then { v with lost := true, window := false } else v) ∧
    (∀ q : Fin 4, q ≠ p → portOf t q = portOf s q) ∧ plantUntouched { s with ports := t.ports } t := by
  have hport := windowMissed_port p u s
  obtain ⟨hother, -, hplant⟩ := windowMissed_frame p u s
  have hne {q : Fin 4} (h : q ≠ p) : (q : Nat) ≠ p := fun e => h (Fin.ext e)
  intro t
  rcases launchWindowEnd_cases hu with h | ⟨-, h⟩
  · rw [show t = _ from h]
    exact ⟨by rw [hport], by rw [hport], by rw [hport], by rw [hport], by rw [hport], fun q hq => hother q (hne hq), hplant⟩
  · have htold : portOf t p = { portOf (windowMissed p u s) p with launchMissing := true } := by
      rw [show t = _ from h, portOf_congr (post_ports ..), portOf_onPort]
    refine ⟨by rw [htold, hport], by rw [htold, hport], by rw [htold, hport], by rw [htold, hport], by rw [htold, hport], fun q hq => ?_, ?_⟩
    · rw [show t = _ from h, portOf_congr (post_ports ..), portOf_onPort_other _ _ (hne hq), hother q (hne hq)]
    · rw [show t = _ from h]
      simp [plantUntouched, windowMissed, markLost]

/-- Settles O38: a slot that is not slot 0 records its shot under the next sequence, and the work of the round start that follows leaves the
record alone; a rise inside a window closes it, and a window that ends without one is a miss. -/
theorem shotsFire : Obligations.ShotsFire := by
  unfold Obligations.ShotsFire
  refine ⟨?_, ?_, ?_, ?_, ?_, ?_, ?_⟩
  · intro s p peak codes hmode _ hon hrun hslot _
    obtain ⟨w, us, hview, hseq, htick, hw⟩ := fireSlot_record p peak s
    obtain ⟨hcut, hwhole⟩ := slotShot_fired p peak s
    have hport : gridPort (portOf (fireSlot p false false peak s) p) = _ := congrArg GridView.port hview
    refine ⟨_, { slotShot p s (slotReady p peak s) with window := w }, slotFireTime_later peak codes hmode hon hrun hslot, congrArg GridPort.shotSeq hport,
      congrArg (fun x => x.shots.head?) hport, hseq, rfl, rfl, htick, fun hrise => ?_, fun h => ?_, fun h => ?_, congrArg GridPort.gridRunning hport,
      congrArg GridView.mode hview, congrArg GridView.banks hview, congrArg GridView.safety hview, congrArg GridView.power hview,
      congrArg GridView.clocks hview, congrArg GridView.rtd hview, congrArg GridView.hk hview, congrArg GridView.firmware hview⟩
    · rw [hw hrise]
      change _ = (slotFired p (slotReady p peak s) && !(slotFired p (slotReady p peak s) && !slotPlayed p (slotReady p peak s)))
      cases slotFired p (slotReady p peak s) <;> cases slotPlayed p (slotReady p peak s) <;> rfl
    · obtain ⟨hfired, hplayed⟩ := hcut h
      exact ⟨hfired, show (slotFired p (slotReady p peak s) && !slotPlayed p (slotReady p peak s)) = true by rw [hfired, hplayed]; rfl⟩
    · obtain ⟨hplayed, hwait, hlost⟩ := hwhole h
      exact ⟨show (slotFired p (slotReady p peak s) && !slotPlayed p (slotReady p peak s)) = false by rw [hplayed, Bool.and_not_self], hwait, hlost⟩
  · intro s p peak codes hmode _ hon hrun hcut hslot hnext hwait hgain hauto hmay hdark hbase
    obtain ⟨w, us, hview, -⟩ := fireSlot_record p peak s
    obtain ⟨hfired, hgap, hslots⟩ := slotFired_of_mayFire (peakPct := peak) hmode hnext hgain hauto hcut hwait hmay hdark hbase
    rw [hfired, hslots] at hview
    have hport : gridPort (portOf (fireSlot p false false peak s) p) = _ := congrArg GridView.port hview
    exact ⟨_, _, slotFireTime_later peak codes (.inl hmode) hon hrun hslot, congrArg (fun x => x.shots.head?) hport, hfired, hgap,
      congrArg GridPort.dark hport, congrArg GridPort.lastFired hport, congrArg GridPort.nextSlot hport⟩
  · intro s p hany
    have hseen : launchSeen p s = launchNoted p (onPort p (fun x => { x with riseTick := some s.ticks }) s) := by
      unfold launchSeen
      dsimp only
      rw [portOf_onPort]
      change (if !((portOf s p).shots.any fun t => t.window && decide (s.ticks ≤ t.windowEnd)) then _ else _) = _
      rw [hany]
      rfl
    have hport : portOf (launchSeen p s) p = { portOf s p with
        riseTick := some s.ticks, launchOk := true, misses := 0, launchMissing := false,
        shots := (portOf s p).shots.map fun t => { t with window := false } } := by
      rw [hseen, launchNoted, portOf_onPort, portOf_onPort]
    refine ⟨_, rfl, by rw [hport], by rw [hport], by rw [hport], by rw [hport], by simp [hport], fun q hq => ?_, ?_⟩
    · have hne : (q : Nat) ≠ p := fun e => hq (Fin.ext e)
      rw [hseen, launchNoted, portOf_onPort_other _ _ hne, portOf_onPort_other _ _ hne]
    · rw [hseen]
      rfl
  · intro s p hnone
    have hseen : launchSeen p s = onPort p (fun x => { x with riseTick := some s.ticks }) s := by
      unfold launchSeen
      dsimp only
      rw [portOf_onPort]
      change (if !((portOf s p).shots.any fun t => t.window && decide (s.ticks ≤ t.windowEnd)) then _ else _) = _
      rw [hnone]
      rfl
    exact congrArg Host.Outcome.next hseen
  · intro s p u hu
    exact ⟨_, rfl, launchWindowEnd_facts hu⟩
  · intro s p hnone
    have hfind : ((portOf s p).shots.find? fun u => u.window && decide (u.windowEnd ≤ s.ticks)) = none := by
      rw [List.find?_eq_none]
      rw [List.any_eq_false] at hnone
      exact hnone
    have hend : launchWindowEnd p s = s := by
      unfold launchWindowEnd
      rw [hfind]
    exact congrArg Host.Outcome.next hend
  · intro s p hany hmissing hlimit
    obtain ⟨u, hu⟩ := Option.isSome_iff_exists.mp (List.find?_isSome.mpr (List.any_eq_true.mp hany))
    rcases launchWindowEnd_cases hu with h | ⟨hle, -⟩
    · obtain ⟨-, hevq, -⟩ := windowMissed_frame p u s
      refine ⟨_, rfl, ?_, ?_⟩
      · rw [h, windowMissed_port]
        exact hmissing
      · rw [h, hevq]
    · omega

end Sys2Proof.Machine

namespace Sys2Proof.Machine

/-- A command whose message fails step 9 is refused with the status that step 9 gives, and counted where its length is wrong. -/
theorem runCommand_of_step9 {s : State} {code st : Nat} {r : Request} {o : OpRow} (hn : nextRequest code s = some r) (ho : opRow code = some o)
    (h9 : step9 o r = some st) (h : Request → State → State) : runCommand code h s =
      refuse r st 0 (if st = 0x10 then violate r.transport 0x10 r.opcode (headerBytes r) (dequeue r s) else dequeue r s) := by
  simp only [runCommand, hn, ho, h9]

theorem step9_of_length {o : OpRow} {r : Request} (h : lenOk o.len r.payload = false) : step9 o r = some 0x10 := by
  simp [step9, h]

theorem step9_of_reserved {o : OpRow} {r : Request} (hl : lenOk o.len r.payload = true)
    (h : r.flags &&& 0xFF07 ≠ 0 ∨ reservedOk o.reserved r.payload = false) : step9 o r = some 0x20 := by
  rcases h with h | h
  · simp [step9, hl, h]
  · simp [step9, hl, h]

/-- Settles O16: the length is looked at before the reserved fields, and a message that fails either never reaches its handler. -/
theorem stepNineRefuses : Obligations.StepNineRefuses := by
  unfold Obligations.StepNineRefuses
  intro s code h r o hn ho
  constructor
  · intro hl
    rw [runCommand_of_step9 hn ho (step9_of_length hl), if_pos rfl]
  · intro hl hr
    rw [runCommand_of_step9 hn ho (step9_of_reserved hl hr), if_neg (by decide)]

end Sys2Proof.Machine
